-- ==== Sys2Proof/Word.lean ====
section
/-!
DEFINITION. The words of the unit (R3, R4, R5): bytes, 16-bit line words and 32-bit registers.
-/
namespace Sys2Proof

/-- A byte, as it travels on the Parast bus (R5). -/
abbrev Byte := BitVec 8

/-- A register, a table word or a memory word (R3). -/
abbrev Word := BitVec 32

/-- A line word of the Ituary frame (R4). -/
abbrev LineWord := BitVec 16

/-- A code unit of the line coding (R246): its bits in the order they are sent, the first most significant; a code group of
8b/10b takes the low ten. -/
abbrev CodeUnit := BitVec 66

end Sys2Proof
end

