-- ==== Sys2Proof/Syntax.lean ====
section
/-!
DEFINITION. Syntax.lean: the commands of the unit, one constructor of `Instr` for each row of
spec/opcode_table.json, in the table's order, and the data they carry.

A Parast command (a row that is an opcode) carries the packet as the bus receiver took it in; a row that is an
event carries what spec/ says comes with it from outside: a level, a reading, the words of a frame.
-/
namespace Sys2Proof

/-- A Parast command packet with a good CRC (Table 4.1), without SYNC, opcode and CRC: its ADDR and TAG bytes, its
parameters (LEN is their number) and the PCLK edge of its commit point C (R130). -/
structure Pkt where
  addr : Byte
  tag : Byte
  params : List Byte
  edge : Nat := 0
  deriving DecidableEq, Repr

/-- The kinds of firmware-served command that may be in progress at once (R169). -/
inductive JobKind where
  | chain | broadcast | remote
  deriving DecidableEq, Repr

/-- What a defect has done to the doubled pointers that a use of a queue compares (R403): nothing, or it has made the two copies differ of the
link that is followed, of the queue's own pointer, or of the free list's. -/
inductive PtrUpset where
  | sound | link | queue | free
  deriving DecidableEq, Repr

/-- The boundary-scan instructions (R73). -/
inductive TapInstr where
  | bypass | idcode | sample | extest | clamp | highz | extestPulse | extestTrain
  deriving DecidableEq, Repr

/-- What one port's receiver saw in the tick that ends (R247, R257, R261): the raw received bits in groups of 32, the code units,
code violations among others that no row lists, and the bits and disagreements of the scan. -/
structure PortObs where
  groups : List Word := []
  units : List CodeUnit := []
  codeViol : Nat := 0
  eyeBits : Nat := 0
  eyeErrs : Nat := 0
  deriving DecidableEq, Repr

/-- A received frame: its code units as they stand on the line, or the words that the receiver makes of it, with whether its first
is the start word.
DESIGN CHOICE, safe (notes/assumptions/43). -/
inductive LineIn where
  | words (start : Bool) (ws : List LineWord)
  | units (us : List CodeUnit)
  deriving DecidableEq, Repr

/-- What a module does in one transfer (R265, R267): after how many clock pulses SDA, found low at the start, is released (0: it is
not low; none: never); the byte of the transfer in which it first stretches the clock beyond 1 ms; the first byte sent to it
that it does not acknowledge; and the bytes it sends. -/
structure ModSeen where
  sdaLow : Option Nat := some 0
  stretched : Option Nat := none
  nack : Option Nat := none
  data : List Byte := []
  deriving DecidableEq, Repr

/-- What the unit samples from outside at a local frame start (R301, R514, R676): the levels of PAIR_A[3:0] in bits 3–0
and PAIR_B[3:0] in bits 7–4, the die temperature in 0.001 °C, what each port's receiver saw in the tick that ended, for
reference candidates their phase against DPLL_T0's and DPLL_T1's output in ps, the output frequency that each DPLL's loop
has come to in 1/65,536 ppt, and how far the T1 epoch has moved against the local frame starts in ps.
DESIGN CHOICE, safe (notes/assumptions/43). -/
structure FrameIn where
  pairs : BitVec 8 := 0
  dieTemp : Int := 25000
  obs : List PortObs := []
  cands : List (Nat × Int × Int) := []
  freq0 : Option Int := none
  freq1 : Option Int := none
  t1 : Int := 0
  deriving DecidableEq, Repr

/-- A request that a master m of the bus matrix makes (R629, R633, R634): its transaction ID, its byte address, one less than its beats
of the target's width, the words it writes (none: a read), and whether the master has response space and the target's
converter buffer space for the whole burst. -/
structure BusReq where
  m : Fin 8
  id : Byte
  addr : Word
  beats : Fin 16 := 0
  data : Option (List Word) := none
  room : Bool := true
  deriving DecidableEq, Repr

/-- The commands: one constructor for each row of spec/opcode_table.json.
DESIGN CHOICE, safe (notes/assumptions/17). DESIGN CHOICE, safe (notes/assumptions/92). -/
inductive Instr where

  /-- POWER_GOOD (R55). The last of the conditions that hold internal reset ends, and the unit starts counting 2 ms towards reset release. -/
  | powerGood (xoLast : Bool)
  /-- INTERNAL_RESET_RELEASE (R55). Internal reset is released 2 ms after power-good when no reset condition has returned in that time. -/
  | internalResetRelease (dowelIn : Bool) (crefOk : Bool)
  /-- RAIL_LOW (R77). A rail has been below 94 % of nominal for more than 1 µs, so the unit enters internal reset and loses its address. -/
  | railLow (rail : Fin 7)
  /-- SUPPLY_DIP (R78). A rail falls below its tolerance without being low, and the unit raises SUPPLY_DIP without resetting. -/
  | supplyDip (rail : Fin 7)
  /-- RESET_N_LOW (R56). A recognised low pulse on RESET_N puts the unit into internal reset. -/
  | resetNLow (ns : Nat)
  /-- TEST_EN_HIGH (R80). TEST_EN going high holds the unit in internal reset until TEST_EN is low again. -/
  | testEnHigh
  /-- TAP_TEST_LOGIC_RESET (R73). TRST_N low, or five TCK cycles with TMS high, puts the TAP in Test-Logic-Reset with IDCODE selected. -/
  | tapTestLogicReset
  /-- TAP_INSTRUCTION (R76). A boundary-scan instruction is loaded; the EXTEST-class instructions give the boundary register ownership of the balls and stop traffic. -/
  | tapInstruction (ir : TapInstr) (clocks : List (Bool × Bool))
  /-- XO_IN_LOST (R534). XO_IN stops or leaves ±1,000 ppm; the DPLLs hold frequency, every candidate is disqualified and TG_XO_LOSS is raised. -/
  | xoInLost
  /-- XO_IN_RETURN (R534). XO_IN has been within limits for 1 ms; XO_BACK is set and qualification restarts. -/
  | xoInReturn
  /-- TEMP_HIGH (R71). The on-die sensor reaches 115 °C and the unit raises TEMP_HIGH while it keeps operating. -/
  | tempHigh (tenths : Nat)
  /-- CORE_SELF_TEST (R623). A bench core completes its boot self-test; a failing core enters FAILED with CAUSE 4 and BC[4] may stand in for it. -/
  | coreSelfTest (n : Fin 5) (pass : Bool)
  /-- BOOT_LOAD (R221). No earlier than 10 ms after power-good, with boot mode 1 and no BOOT_SKIP, the unit loads the newer valid carcass copy and falls back to the other. -/
  | bootLoad
  /-- FW_READY (R705). Firmware first reports ready after the boot load is applied or refused, and firmware-served commands are accepted from then on. -/
  | fwReady
  /-- DOWEL_IN_CHANGE (R90). A new DOWEL_IN level has been stable for 1.0 µs and becomes the filtered level. -/
  | dowelInChange (level : Bool)
  /-- IDENTIFY (R95). Returns CH_ID_PART, the unique ID and ASSET. -/
  | identify (k : Pkt)
  /-- ASSIGN_NEXT (R95). An UNADDRESSED unit whose DOWEL_IN is high takes the new address and replies with its unique ID. -/
  | assignNext (k : Pkt)
  /-- ASSIGN_BY_ID (R97). The UNADDRESSED unit with the matching unique ID takes the new address. -/
  | assignById (k : Pkt)
  /-- DISCOVER (R98). Each admitted unit whose ID matches the prefix drives one of 16 presence slots. -/
  | discover (k : Pkt)
  /-- PRESENCE_SLOT_TIMEOUT (R99). A presence slot has lasted 4.0 µs because PCLK stalled, so the unit disables its driver and leaves that DISCOVER. -/
  | presenceSlotTimeout
  /-- RELEASE (R101). With key 0x5A, the unit returns to UNADDRESSED and clears both quiet flags. -/
  | release (k : Pkt)
  /-- QUIET (R102). Replaces the discover-quiet and IRQ-quiet flags. -/
  | quiet (k : Pkt)
  /-- BAD_CRC (R128). A command packet fails its CRC; it has no effect and is counted in MP_BAD_CRC. -/
  | badCrc (bytes : List Byte) (edge : Nat)
  /-- LEN_ABOVE_4096 (R128). A packet header carries a LEN above 4,096; the receiver returns to HUNT and records BAD_LENGTH for a command. -/
  | lenAbove4096 (reply : Bool) (addr op tag : Byte) (len : BitVec 16) (edge : Nat)
  /-- REPLY_FOLLOW (R128). A unit follows another unit's reply packet to its end without checking its CRC. -/
  | replyFollow (bytes : List Byte) (edge : Nat)
  /-- REPLY_START (R131). At edge Y the unit drives the first SYNC bit of a reply and sends the reply. -/
  | replyStart (edge : Nat)
  /-- PENDING_REPLY (R133). No firmware result has been taken in by edge C + W − 8, so the unit replies PENDING at C + W. -/
  | pendingReply
  /-- FIRMWARE_COMMAND_COMPLETE (R143). A firmware-served command completes; its changes are applied in one snapshot-and-write cycle and its result is taken in. -/
  | firmwareCommandComplete (k : JobKind) (edge : Nat)
  /-- BROADCAST_SERVE (R145). A queued broadcast firmware command begins service once the command before it has finished. -/
  | broadcastServe
  /-- PING (R148). Returns MP_TXN_COUNT. -/
  | ping (k : Pkt)
  /-- POLL (R148). Returns the final reply of a replay-memory entry, or PENDING or NOT_PRESENT. -/
  | poll (k : Pkt)
  /-- REPLAY (R148). Returns the first reply stored for a tag, or PENDING or NOT_PRESENT. -/
  | replay (k : Pkt)
  /-- REMOTE (R151). Sends an inner command through the management channel of a line port to the far unit. -/
  | remote (k : Pkt) (done : Option Nat)
  /-- REMOTE_INNER_ACCEPT (R153). The far unit accepts an inner command message and executes it against its remote replay memory. -/
  | remoteInnerAccept (p : Fin 16)
  /-- REMOTE_INNER_PENDING (R154). The far unit has no result 16 basic frames after acceptance, so it sends an inner PENDING. -/
  | remoteInnerPending
  /-- REMOTE_INNER_REPLY (R152). An inner reply arrives at the local unit, which completes the REMOTE with OK. -/
  | remoteInnerReply (p : Fin 16)
  /-- REMOTE_EXPIRY (R152). No inner reply arrives within 64 basic frames, so the REMOTE completes with NOT_PRESENT. -/
  | remoteExpiry
  /-- CLEAR_MP_BAD_CRC (R157). MP_CNT_CLR bit 0 clears MP_BAD_CRC. -/
  | clearMpBadCrc
  /-- CLEAR_MP_BCAST_DROP (R157). MP_CNT_CLR bit 1 clears MP_BCAST_DROP. -/
  | clearMpBcastDrop
  /-- CLEAR_MP_LOCK_VIOL (R157). MP_CNT_CLR bit 2 clears MP_LOCK_VIOL. -/
  | clearMpLockViol
  /-- LAST_ERR_CLEAR (R157). A 1 written to MP_LAST_ERR.VALID clears the whole record. -/
  | lastErrClear
  /-- READ (R197). Reads one word at the snapshot cycle. -/
  | read (k : Pkt)
  /-- WRITE (R198). Applies up to 256 address and value pairs in list order in cycle S + 1, word by word. -/
  | write (k : Pkt)
  /-- READ_BLOCK (R197). Reads 1–1,022 consecutive words in one snapshot. -/
  | readBlock (k : Pkt)
  /-- WRITE_BLOCK (R197). Writes 1–1,023 consecutive words in one cycle. -/
  | writeBlock (k : Pkt)
  /-- MODIFY (R199). Returns the old value and writes the masked new value. -/
  | modify (k : Pkt)
  /-- SNAPSHOT (R201). Reads a scattered list of addresses in one snapshot. -/
  | snapshot (k : Pkt)
  /-- LOCK (R185). Sets the block locks named in the mask. -/
  | lock (k : Pkt)
  /-- OTP_PROGRAM (R189). Programs one CH_ASSET word and starts its fuse burn. -/
  | otpProgram (k : Pkt)
  /-- OTP_BURN_COMPLETE (R189). The fuses and the spent marker of an OTP word are burnt and verified, within 2.0 ms. -/
  | otpBurnComplete
  /-- REGISTER_WRITE (R182). A write to a register field with no behaviour of its own is judged for lock and range and takes effect in cycle S + 1. -/
  | registerWrite (addr value : Word)
  /-- CARCASS_CAPTURE (R727). Forms a carcass image of the live configuration in the staging buffer. -/
  | carcassCapture (k : Pkt) (done : Option Nat)
  /-- CARCASS_PUT (R232). Writes host data into the staging buffer. -/
  | carcassPut (k : Pkt) (done : Option Nat)
  /-- CARCASS_GET (R232). Reads bytes from the staging buffer or a carcass copy. -/
  | carcassGet (k : Pkt) (done : Option Nat)
  /-- CARCASS_SAVE (R219). Writes the validated staging image to a carcass copy and then updates the directory. -/
  | carcassSave (k : Pkt) (done : Option Nat)
  /-- CARCASS_LOAD (R220). Validates a carcass image and applies it whole in one cycle, then sets its locks. -/
  | carcassLoad (k : Pkt) (done : Option Nat)
  /-- CARCASS_BOOT (R231). Sets the store-held boot mode. -/
  | carcassBoot (k : Pkt) (done : Option Nat)
  /-- STORE_PAGE_WRITE_DONE (R213). A store page write finishes erasing, programming and verifying. -/
  | storePageWriteDone (verified : Bool)
  /-- BOOT_SKIP (R222). A write of CF_BOOT_CTRL.BOOT_SKIP before the boot load makes the unit skip that boot load. -/
  | bootSkip
  /-- VENEER_STAGE (R224). Validates host-supplied entries and places them in a stage. -/
  | veneerStage (k : Pkt) (done : Option Nat)
  /-- VENEER_FETCH (R225). Copies a stored veneer into a stage. -/
  | veneerFetch (k : Pkt) (done : Option Nat)
  /-- VENEER_SAVE (R232). Saves a stage to a stored veneer. -/
  | veneerSave (k : Pkt) (done : Option Nat)
  /-- VENEER_ERASE (R232). Erases a stored veneer. -/
  | veneerErase (k : Pkt) (done : Option Nat)
  /-- VENEER_COMMIT (R226). Arms a stage for a target network frame. -/
  | veneerCommit (k : Pkt)
  /-- VENEER_ABORT (R225). Disarms an armed stage when its target frame has not yet begun. -/
  | veneerAbort (k : Pkt)
  /-- VENEER_STATUS (R231). Returns the state, result, arm tag and target of a stage. -/
  | veneerStatus (k : Pkt)
  /-- VENEER_GET (R231). Returns the entries of a stage or a stored veneer. -/
  | veneerGet (k : Pkt) (done : Option Nat)
  /-- VENEER_APPLY (R227). An armed veneer is judged and applied, or refused, in the first FCLK cycle of its target frame. -/
  | veneerApply (j : Fin 4)
  /-- VENEER_MISSED (R236). Local numbering jumps past an armed target without that frame starting, and the stage becomes MISSED. -/
  | veneerMissed (j : Fin 4)
  /-- VSEL_ENABLE (R230). EN = 1 written to CF_PAIR_VSEL[i] caches V_ZERO and V_ONE and may schedule an application. -/
  | vselEnable (i : Fin 4) (vOne vZero : Fin 16)
  /-- PAIR_VENEER_APPLY (R230). At the frame after an agreement change, the cached veneer of the agreed state is applied. -/
  | pairVeneerApply (i : Fin 4)
  /-- PORT_ENABLE (R248). EN written 1 starts lane PLL calibration and puts the port in STARTING. -/
  | portEnable (p : Fin 16)
  /-- PORT_DISABLE (R248). EN written 0 puts the port in DISABLED, idles the transmitter and raises MOD_TXDIS. -/
  | portDisable (p : Fin 16)
  /-- CALIBRATION_DONE (R248). Calibration completes within 2.0 ms and the port enters RUNNING. -/
  | calibrationDone (p : Fin 16)
  /-- LP_CAL_FAIL (R248). Calibration is not done 2.0 ms after entry, so the port enters FAILED and raises LP_CAL_FAIL. -/
  | lpCalFail (p : Fin 16)
  /-- CDR_LOST (R252). CDR_LOCK falls: a loop-timed transmitter falls back to DPLL_T0, the recovered clock is withdrawn and any eye scan ends. -/
  | cdrLost (p : Fin 16)
  /-- LOOP_TIMING_RETURN (R252). CDR_LOCK and CODE_SYNC have held for 32 ticks, so a loop-timed port returns to loop timing. -/
  | loopTimingReturn (p : Fin 16)
  /-- SYNC_LOST (R247). CODE_SYNC falls, and the frame finder returns to HUNT. -/
  | syncLost (p : Fin 16) (units : List CodeUnit)
  /-- RX_INV_CHANGE (R255). A change of RX_INV makes the receiver lose and regain CODE_SYNC, and frame finding restarts. -/
  | rxInvChange (p : Fin 16) (v : Bool)
  /-- LOOPBACK_CHANGE (R259). A change of LOOPBACK selects near-end or far-end loopback from S + 1. -/
  | loopbackChange (p : Fin 16) (v : Fin 4)
  /-- PRBS_CNT_CLR (R257). Clears LP_PRBS_BITS and LP_PRBS_ERR. -/
  | prbsCntClr (p : Fin 16)
  /-- ERR_INJECT (R258). Inverts one bit of the generated PRBS pattern. -/
  | errInject (p : Fin 16)
  /-- CV_CNT_CLR (R247). Clears LP_CV_CNT. -/
  | cvCntClr (p : Fin 16)
  /-- PRBS_LOCK (R257). Four consecutive error-free 32-bit groups lock the PRBS checker. -/
  | prbsLock (p : Fin 16) (groups : List Word)
  /-- PRBS_LOST (R257). Eight consecutive bad groups drop PRBS_LOCK and the checker reseeds. -/
  | prbsLost (p : Fin 16) (groups : List Word)
  /-- EYE_START (R261). Begins an eye-margin scan at the set phase and voltage offset. -/
  | eyeStart (p : Fin 16)
  /-- EYE_ABORT (R261). Ends an eye scan early with the counts so far. -/
  | eyeAbort (p : Fin 16)
  /-- EYE_DONE (R261). The scan dwell ends, the counts are stored and EYE_DONE is set. -/
  | eyeDone (p : Fin 16) (errs : Nat)
  /-- MOD_LOS_CHANGE (R263). MOD_LOS has been stable for 10 µs at a new level, and LOS_RAW is re-formed. -/
  | modLosChange (p : Fin 16) (level : Bool)
  /-- SIG_DET_CHANGE (R263). The electrical signal detector crosses its hysteresis band, and LOS_RAW is re-formed. -/
  | sigDetChange (p : Fin 16) (level : Bool)
  /-- MOD_TRANSFER_START (R265). LP_MOD_CMD.GO starts a two-wire transfer, or queues it behind a running poll. -/
  | modTransferStart (p : Fin 16) (write dev : Bool) (count : Fin 16) (offset : Byte)
  /-- MOD_DONE (R265). A host module transfer ends, and RESULT and MOD_DONE are set. -/
  | modDone (p : Fin 16) (seen : ModSeen)
  /-- MOD_POLL (R266). A module diagnostic poll falls due and starts reading A2h bytes 96–111. -/
  | modPoll (p : Fin 16)
  /-- MOD_POLL_DONE (R266). A poll ends, and on success replaces LP_MOD_DIAG and resets LP_MOD_DIAG_AGE. -/
  | modPollDone (p : Fin 16) (seen : ModSeen)
  /-- MOD_CFG_WRITE (R266). An accepted write of LP_MOD_CFG starts a new poll period, or stops polling. -/
  | modCfgWrite (p : Fin 16) (value : Word)
  /-- LOCAL_FRAME_START (R302). A local frame start advances local numbering and LF_FRAME_TOTAL and begins a slow-machine tick. -/
  | localFrameStart (i : FrameIn)
  /-- TRANSMIT_FRAME_START (R330). A port's transmit frame begins; its slots are filled from the maps and its overhead is assembled. -/
  | transmitFrameStart (p : Fin 16) (phase : Fin 12800)
  /-- HUNT_START_WORD (R297). In HUNT, a start word followed by the alignment words moves the frame finder to PRESYNC. -/
  | huntStartWord (p : Fin 16) (w1 w2 : LineWord)
  /-- RECEIVED_FRAME (R297). A received frame reaches its expected position; alignment is judged, and the frame is labelled, checked and demapped. -/
  | receivedFrame (p : Fin 16) (frame : LineIn) (phase : Fin 12800)
  /-- TRACE_ACCEPTED (R288). Three identical complete multiframe traces are written to LF_RX_TRACE. -/
  | traceAccepted (p : Fin 16)
  /-- MGMT_MESSAGE_ACCEPT (R293). A complete management message with consecutive chunks is accepted and handed to its recipient. -/
  | mgmtMessageAccept (p : Fin 16)
  /-- LOF_SET (R301). 96 consecutive out-of-frame samples declare LOF. -/
  | lofSet (p : Fin 16)
  /-- LOF_CLR (R301). 96 consecutive in-frame samples clear LOF. -/
  | lofClr (p : Fin 16)
  /-- LOM_SET (R301). 96 consecutive OOM samples declare LOM. -/
  | lomSet (p : Fin 16)
  /-- LOM_CLR (R301). 96 consecutive IM samples clear LOM. -/
  | lomClr (p : Fin 16)
  /-- NUM_LOAD (R304). In FREE, loads LF_NUM_SET into the next local frame number. -/
  | numLoad
  /-- NUM_ADOPT (R304). In LOCKED, returns the numbering to UNLOCKED for a fresh adoption. -/
  | numAdopt
  /-- NUMBERING_MODE_WRITE (R304). A write of LF_NUM_CTRL.MODE or SRC moves the numbering machine between FREE and UNLOCKED, or restarts its counts. -/
  | numberingModeWrite (mode : Bool) (src : Fin 16)
  /-- NUM_ADOPTED (R304). The source has been good for 96 ticks, so the unit renumbers its next local frame and enters LOCKED. -/
  | numAdopted
  /-- MISMATCH_SET (R304). The source error has been 6,400 FCLK or more for 96 ticks, and MISMATCH is set. -/
  | mismatchSet
  /-- MISMATCH_CLR (R304). The source error has been below 6,400 FCLK for 96 ticks, and MISMATCH clears. -/
  | mismatchClr
  /-- LF_CNT_CLR (R309). Clears LF_FRAMING_CNT[p] and LF_MC_CNT[p]. -/
  | lfCntClr (p : Fin 16)
  /-- ALIGN_INJ (R310). The next n transmit frames carry an inverted word 2. -/
  | alignInj (p : Fin 16) (n : Byte)
  /-- BIP_INJ (R310). The next n transmit frames carry word 7 with bit 0 inverted. -/
  | bipInj (p : Fin 16) (n : Byte)
  /-- STALE_SET (R339). A tributary has not been fresh for WD_LIMIT ticks, and STALE is set. -/
  | staleSet (t : Byte)
  /-- SLIP_CLR (R353). Clears every receive and transmit slip count. -/
  | slipClr
  /-- CRC_CLR (R353). Clears every XC_TRIB_CRC count. -/
  | crcClr
  /-- XC_MAP_LOAD (R349). Writes runs and a version into an idle map buffer in one cycle. -/
  | xcMapLoad (k : Pkt) (done : Option Nat)
  /-- XC_MAP_SWAP (R351). Checks the inactive transmit buffer and makes it active. -/
  | xcMapSwap (k : Pkt) (done : Option Nat)
  /-- XC_MAP_CHECK (R350). Returns a consistency record for a map buffer. -/
  | xcMapCheck (k : Pkt) (done : Option Nat)
  /-- XC_SLICE_SWAP (R352). Requests that the spare slice take over slice s. -/
  | xcSliceSwap (k : Pkt) (done : Option Nat)
  /-- XC_SLICE_RESTORE (R352). Requests that the replaced slice take back its ports. -/
  | xcSliceRestore (k : Pkt) (done : Option Nat)
  /-- SLICE_COPY_COMPLETE (R346). The map copy into the slice under test completes, and shadowing starts at the next frame. -/
  | sliceCopyComplete
  /-- SHADOW_FRAME_END (R346). A shadow frame ends, and the slice hands over, retries or fails by the comparison. -/
  | shadowFrameEnd (diff : Nat)
  /-- GEAR_EN_WRITE (R372). A gearing channel's EN written 1 enters CAPTURE with LOAD set, and EN written 0 turns it OFF. -/
  | gearEnWrite (g : Fin 64) (en : Bool)
  /-- GEAR_STEP (R368). A usable input copy captures or steps the gearing channel by the exact ratio with carried remainder. -/
  | gearStep (g : Fin 64)
  /-- GAP_RECAPTURE (R372). GAP_LIMIT ticks have passed without a usable copy, so the channel returns to CAPTURE. -/
  | gapRecapture (g : Fin 64)
  /-- RECAPTURE (R372). GR_G_CMD.RECAPTURE returns the channel to CAPTURE, with LOAD set to MODE. -/
  | recapture (g : Fin 64) (mode : Bool)
  /-- RECIPE_EVALUATE (R375). A usable input runs the recipe steps and produces a result and flags. -/
  | recipeEvaluate (x : Fin 64)
  /-- GR_RECIPE_LOAD (R383). Writes the steps of a recipe and its COUNT in one cycle. -/
  | grRecipeLoad (k : Pkt) (done : Option Nat)
  /-- GR_RECIPE_TEST (R384). Evaluates a recipe on a given value in the test lane without side effects. -/
  | grRecipeTest (k : Pkt) (done : Option Nat)
  /-- QUEUE_EN_WRITE (R402). EN written 1 starts a queue, and EN written 0 resets it. -/
  | queueEnWrite (q : Fin 64) (en : Bool)
  /-- QUEUE_WRITE_ACCEPT (R400). A producer's held write is accepted in the first cycle in which the queue can take a cell. -/
  | queueWriteAccept (q : Fin 64) (upset : PtrUpset)
  /-- QUEUE_READ (R401). A consumer reads the next 128-bit word and frees each cell that it finishes. -/
  | queueRead (q : Fin 64) (upset : PtrUpset)
  /-- REBUILD_DONE (R404). The free-list rebuild completes within 120 µs. -/
  | rebuildDone (found : BitVec 64)
  /-- QUEUE_RESET_DONE (R402). A queue reset has returned its cells, counted its discarded packets and left the queue RUN or OFF. -/
  | queueResetDone (q : Fin 64)
  /-- QM_RESET (R402). Resets one queue. -/
  | qmReset (k : Pkt) (done : Option Nat)
  /-- QM_PKT_SEND (R423). QDMA writes a packet into a queue and waits while the queue is full. -/
  | qmPktSend (k : Pkt) (done : Option Nat)
  /-- QM_PKT_RECV (R437). QDMA takes the next packet from a queue. -/
  | qmPktRecv (k : Pkt) (done : Option Nat)
  /-- QM_AUDIT (R423). Walks every list without holding the handshakes and reports what it finds. -/
  | qmAudit (k : Pkt) (done : Option Nat)
  /-- STARVED_SET (R414). A sender has been starved for LIMIT consecutive ticks, and STARVED is set. -/
  | starvedSet (t : Byte)
  /-- CLIENT_FRAME_RECEIVE (R417). A client MAC receives a whole frame, then classifies it, queues it, acts on it as PAUSE, or discards it. -/
  | clientFrameReceive (c : Fin 4) (frame : List Byte)
  /-- PAUSE_EXPIRY (R419). The received pause time ends, and the transmitter resumes. -/
  | pauseExpiry (c : Fin 4)
  /-- PAUSE_XOFF (R419). A client queue's free space falls below XOFF, and a PAUSE is sent. -/
  | pauseXoff (c : Fin 4)
  /-- PAUSE_REFRESH (R419). Half the pause time has passed while still below XON, and a PAUSE is sent again. -/
  | pauseRefresh (c : Fin 4)
  /-- PAUSE_XON (R419). Every client queue reaches XON, and one PAUSE with quanta 0 is sent. -/
  | pauseXon (c : Fin 4)
  /-- CLIENT_TRANSMIT (R420). The client transmitter sends a whole packet from TXQ with pad and FCS. -/
  | clientTransmit (c : Fin 4)
  /-- LINK_CHANGE (R416). A client link goes up or down. -/
  | linkChange (c : Fin 4) (up : Bool)
  /-- CREF_LOST (R416). CREFCLK is absent or out of tolerance, so every client goes link-down. -/
  | crefLost
  /-- AN_DONE (R416). Clause 37 auto-negotiation completes and resolves the pause abilities. -/
  | anDone (c : Fin 4) (tx rx : Bool)
  /-- CL_AN_RESTART (R423). Restarts auto-negotiation on a client. -/
  | clAnRestart (k : Pkt) (done : Option Nat)
  /-- CL_CNT_CLR (R425). Clears a client's error counters. -/
  | clCntClr (c : Fin 4)
  /-- DEFECT_DECLARE (R438). A defect's set condition has been met for its count, so the defect is declared and, unless masked, reported. -/
  | defectDeclare (trib : Bool) (n : Byte) (d : Fin 14)
  /-- DEFECT_CLEAR (R438). A defect's clear condition has been met for its count, and the defect clears. -/
  | defectClear (trib : Bool) (n : Byte) (d : Fin 14)
  /-- BIP_WINDOW_END (R443). An SD or EXC window ends, and its error sum declares or clears the defect. -/
  | bipWindowEnd (p : Fin 16) (exc : Bool)
  /-- PM_SECOND_END (R451). A PM second ends; its record is written and earlier UAS flags are revised. -/
  | pmSecondEnd
  /-- RECORD_FINAL (R452). Ten seconds after a record, it is marked FINAL. -/
  | recordFinal (p : Fin 16)
  /-- FIFTEEN_MINUTE_BIN_CLOSE (R453). A fifteen-minute bin closes at its 900th second. -/
  | fifteenMinuteBinClose (p : Fin 16)
  /-- DAILY_BIN_CLOSE (R453). A daily bin closes at its 96th fifteen-minute bin. -/
  | dailyBinClose (p : Fin 16)
  /-- BIN_FINAL (R453). Ten seconds after a bin closes, it is marked FINAL. -/
  | binFinal (p : Fin 16)
  /-- DM_CNT_CLR (R456). Clears the BIP, REI, QL-change and occurrence counts. -/
  | dmCntClr
  /-- PM_RESTART (R450). Restarts history at the next local frame start with F = 0. -/
  | pmRestart
  /-- GROUP_CONFIG_WRITE (R469). A write of PS_GCFG configures a protection group, or stops it with KIND 0. -/
  | groupConfigWrite (u : Fin 8) (value : Word)
  /-- MERGE_RELEASE (R481). Frame N of each merged tributary is released at local frame N start plus RO from the chosen copy. -/
  | mergeRelease (u : Fin 8)
  /-- WTR_EXPIRED (R489). The wait-to-restore timer expires, and the local WTR becomes NR. -/
  | wtrExpired (u : Fin 8)
  /-- END_WTR (R489). PS_GCMD.END_WTR ends a running wait-to-restore. -/
  | endWtr (u : Fin 8)
  /-- PS_REQUEST (R493). Writes a lockout, forced, manual or clear command, or END_WTR, to a group. -/
  | psRequest (k : Pkt)
  /-- PS_STATUS (R492). Returns the status words of a group. -/
  | psStatus (k : Pkt)
  /-- PS_RESKEW (R493). Resets the merge release offset at the next tick. -/
  | psReskew (k : Pkt) (done : Option Nat)
  /-- REFERENCE_INACTIVE (R510). A candidate loses its clock edges or RCLK_VALID, and a locked DPLL holds its frequency. -/
  | referenceInactive (j : Fin 20)
  /-- REFERENCE_ACTIVE (R510). A REFIN's next edge makes it active again, and its frequency gate restarts. -/
  | referenceActive (j : Fin 20)
  /-- FREQUENCY_GATE_COMPLETE (R511). A frequency gate ends, and TG_REF_FREQ is updated. -/
  | frequencyGateComplete (j : Fin 20) (offset : Int)
  /-- REFERENCE_WTR_EXPIRY (R512). A candidate's wait-to-restore expires, and it becomes QUALIFIED. -/
  | referenceWtrExpiry (j : Fin 20)
  /-- DPLL_LOCKED (R516). The phase error has stayed within LOCK_WIN for 31,250 ticks, and the DPLL enters LOCKED. -/
  | dpllLocked (d : Fin 2)
  /-- LOCK_LOST (R516). The phase error has exceeded 4 × LOCK_WIN for 32 ticks, and the DPLL returns to ACQUIRING. -/
  | lockLost (d : Fin 2)
  /-- HO_ENTER (R516). HO_GRACE ticks of BRIDGING pass with no candidate, and the DPLL enters HOLDOVER at its averaged frequency. -/
  | hoEnter (d : Fin 2)
  /-- HO_OUT_OF_SPEC (R522). The holdover timer reaches HO_LIMIT, and HO_OUT_OF_SPEC is set. -/
  | hoOutOfSpec (d : Fin 2)
  /-- DPLL_MODE_WRITE (R516). A write of MODE moves the DPLL to STEERED, HOLDOVER, FREERUN or FOLLOWING, or back to selection. -/
  | dpllModeWrite (d : Fin 2) (mode : Fin 8)
  /-- STEER_FREQUENCY_WRITE (R523). A write of TG_D_STEER_F clamps the value and ramps a STEERED DPLL to it. -/
  | steerFrequencyWrite (d : Fin 2) (f : BitVec 64)
  /-- STEER_PHASE_STEP (R523). A write of TG_D_STEER_P in STEERED adds a phase step to be worked off at PSLEW. -/
  | steerPhaseStep (d : Fin 2) (step : Word)
  /-- T1_REALIGNMENT (R531). At the second local frame start after the request, the T1 epoch and outputs are re-phased. -/
  | t1Realignment
  /-- RL_DONE (R532). A local-frame realignment finishes moving DPLL_T0's phase, and RL_DONE is set. -/
  | rlDone
  /-- TG_REALIGN (R532). Starts a local-frame realignment, a T1-output realignment, or both. -/
  | tgRealign (k : Pkt)
  /-- TG_STEER (R536). Writes a steered frequency and adds a phase step. -/
  | tgSteer (k : Pkt)
  /-- TG_STATUS (R535). Returns a DPLL's status values. -/
  | tgStatus (k : Pkt)
  /-- SECOND_BOUNDARY (R551). The TOD nanoseconds wrap, and the seconds advance or take a pending TD_SET target. -/
  | secondBoundary
  /-- ADJ_DONE (R553). A TOD correction has been slewed off completely. -/
  | adjDone
  /-- TD_CFG_WRITE (R555). A write of TD_CFG ROLE or SRC moves the follower machine to IDLE or WAIT. -/
  | tdCfgWrite (value : Word)
  /-- TOD_MESSAGE (R558). A usable TOD message on SRC steps or corrects the follower's time of day. -/
  | todMessage (pos : Fin 313)
  /-- MSG_LOST (R558). 31,250 ticks pass without a usable message, and the follower returns to WAIT. -/
  | msgLost
  /-- DELAY_REQUEST (R560). A received delay request is answered in hardware with a response that carries TURN. -/
  | delayRequest (p : Fin 16) (turn : Nat)
  /-- DELAY_RESPONSE (R559). A delay response that matches the outstanding request completes one path-delay exchange. -/
  | delayResponse (p : Fin 16) (rtt : Nat)
  /-- DELAY_EXCHANGE_EXPIRY (R572). A TD_DELAY exchange has no response after 64 basic frames and is abandoned. -/
  | delayExchangeExpiry
  /-- TD_SET (R554). Schedules a target seconds value for the next qualifying second boundary. -/
  | tdSet (k : Pkt)
  /-- TD_ADJUST (R553). Adds a slewed TOD correction. -/
  | tdAdjust (k : Pkt)
  /-- TD_DELAY (R572). Runs up to 64 path-delay exchanges on a port and reports their statistics. -/
  | tdDelay (k : Pkt) (done : Option Nat)
  /-- EVT_EDGE (R562). An edge on EVT[e] is accepted, or lost to dead time, and feeds capture, intervals and timers. -/
  | evtEdge (e : Fin 4) (rise : Bool) (pos : Fin 313)
  /-- INTERNAL_EVENT (R561). An internal Kerf event source fires and is offered to the internal FIFO and the interval unit. -/
  | internalEvent (src : Fin 32) (rise : Bool) (pos : Fin 313)
  /-- ARM (R565). KF_IV_CMD.ARM arms the interval unit. -/
  | arm
  /-- KF_CNT_CLR (R573). Clears every KF counter. -/
  | kfCntClr
  /-- KF_POP (R564). Returns and removes up to N entries from a Kerf FIFO. -/
  | kfPop (k : Pkt)
  /-- TIMER_MATCH (R569). A timer counter crosses a compare, which performs its pin action and advances by INC. -/
  | timerMatch (k : Fin 8) (c : Fin 4)
  /-- TIMER_OVERFLOW (R568). A timer counter wraps forward, and OVF and OVF_ACT apply. -/
  | timerOverflow (k : Fin 8)
  /-- TM_LOAD (R567). Sets a timer counter in cycle S + 1. -/
  | tmLoad (k : Fin 8) (v : BitVec 64)
  /-- TIMER_EN_WRITE (R570). EN written 1 sets the timer level to OUT_INIT and starts counting. -/
  | timerEnWrite (k : Fin 8) (en : Bool)
  /-- EXCITATION_ON (R591). Excitation turns on LEAD frames before a scheduled window. -/
  | excitationOn (f : Fin 8)
  /-- SAMPLE (R594). A conversion window ends, and the sample is converted, linearised, compensated and stamped within 24 µs. -/
  | sample (f : Fin 8) (codes : List Int) (exc : Int) (overR : Option Bool) (fault : Bool)
  /-- FE_CONFIG_WRITE (R595). A change of FE_CFG or FE_EXC aborts the window in progress and reschedules. -/
  | feConfigWrite (f : Fin 8) (exc : Bool) (value : Word)
  /-- CLAMP (R601). A front-end pin is driven beyond ±30 V, and the channel sets CLAMP in every cycle of the clamp. -/
  | clamp (f : Fin 8)
  /-- CHECK_DUE (R605). A periodic impedance check falls due. -/
  | checkDue (f : Fin 8)
  /-- CHECK_START (R603). A due impedance check starts at a frame start clear of excitation, or at the next window end. -/
  | checkStart (f : Fin 8)
  /-- CHK_DONE (R604). An impedance check ends with its verdict. -/
  | chkDone (f : Fin 8) (z : Nat) (phase : Int) (leak : Nat)
  /-- FE_CNT_CLR (R611). Clears every FE_CNT. -/
  | feCntClr
  /-- FE_CHECK (R610). Schedules an impedance check and completes at its verdict. -/
  | feCheck (k : Pkt) (done : Option Nat)
  /-- FE_SPLINE_LOAD (R610). Writes a Spline table in one cycle. -/
  | feSplineLoad (k : Pkt) (done : Option Nat)
  /-- FE_SPLINE_EVAL (R610). Evaluates a Spline table on a given value. -/
  | feSplineEval (k : Pkt) (done : Option Nat)
  /-- CORE_WATCHDOG_EXPIRY (R624). A core's watchdog expires, so the core fails and a takeover starts or its role is left with no core. -/
  | coreWatchdogExpiry (n : Fin 5)
  /-- CORE_FAIL (R623). A lockup or an uncorrected error fails a core, with the same takeover handling. -/
  | coreFail (n : Fin 5) (uncorrected : Bool)
  /-- TAKEOVER_DONE (R625). BC[4] resumes the role from its checkpoint within 2.0 ms, and FW_READY returns to 1. -/
  | takeoverDone (us : Nat)
  /-- BC_PROMOTE (R623). Retires a running core and has BC[4] take over its role. -/
  | bcPromote (k : Pkt)
  /-- BUS_REQUEST (R630). A master's request is arbitrated, held back or granted at its target. -/
  | busRequest (r : BusReq)
  /-- REMAP (R635). The write of BM_CTRL.REMAP swaps the boot ROM and working SRAM windows. -/
  | remap (on : Bool)
  /-- INTERRUPT_ASSERT (R636). An interrupt source asserts and becomes pending. -/
  | interruptAssert (h : Fin 96)
  /-- INTERRUPT_DELIVERY (R638). A pending source is delivered by vector to the next named core that can accept it. -/
  | interruptDelivery (ie : BitVec 5)
  /-- HOLDOFF_END (R640). A group's hold-off after a delivery ends. -/
  | holdoffEnd (y : Fin 12)
  /-- IC_EOI (R641). A core ends service of a source, and a level source is resampled. -/
  | icEoi (n : Fin 5) (h : BitVec 7)
  /-- IC_SWI (R636). Raises a software interrupt edge. -/
  | icSwi (m : BitVec 4)
  /-- FW_LOAD (R645). Writes image bytes into the firmware stage. -/
  | fwLoad (k : Pkt)
  /-- FW_VERIFY (R645). Starts header and signature verification of the stage. -/
  | fwVerify (k : Pkt)
  /-- VERIFY_DONE (R645). Verification ends, and the stage becomes VERIFIED or BAD. -/
  | verifyDone
  /-- FW_ACTIVATE (R646). Starts replacement of the running firmware by the verified stage. -/
  | fwActivate (k : Pkt)
  /-- FIRMWARE_ABSENCE_START (R646). Once no firmware command is in progress, FW_READY drops and the old image hands over. -/
  | firmwareAbsenceStart
  /-- SWAP_DONE (R646). The new image reports ready within 30 ms, and the stage empties. -/
  | swapDone (us : Nat)
  /-- SWAP_REVERTED (R646). The new image is not ready at 30 ms, so the previous image restarts from the handover. -/
  | swapReverted (us : Nat)
  /-- FW_STATUS (R648). Returns the running and staged firmware status. -/
  | fwStatus (k : Pkt)
  /-- FAULT_RAISE (R671). A fault source raises an occurrence, which is judged for escalation, logged and drives its reactions. -/
  | faultRaise (z : Fin 23) (info : Word) (loc : Option (Nat × Nat)) (injected : Bool)
  /-- ROW_REMAP (R680). A row remap to a spare completes, within 1 ms. -/
  | rowRemap
  /-- FAULT_ACK_WRITE (R672). A 1 written to an FA_OPEN bit acknowledges that occurrence. -/
  | faultAckWrite (mask : Word)
  /-- AUTO_ACK (R672). An AUTO_ACK occurrence is acknowledged at the end of the first tick after its raise. -/
  | autoAck (z : Fin 23)
  /-- KICK (R674). Firmware writes FA_KICK, which satisfies the kick and starts ALIVE on the first kick. -/
  | kick (value : Word)
  /-- FW_KICK_LOST (R674). 20 ms pass without a kick, so FW_KICK_LOST is raised and ALIVE stops. -/
  | fwKickLost
  /-- ALIVE_TOGGLE (R675). ALIVE changes level every 500 µs while TOGGLING. -/
  | aliveToggle
  /-- FA_CNT_CLR (R685). Clears every FA_SRC_CNT and FA_LOG_LOST. -/
  | faCntClr
  /-- PAIR_DISC (R676). The pair has disagreed for D samples, so it enters FALLBACK and raises PAIR_DISC. -/
  | pairDisc (i : Fin 4) (a b : Bool)
  /-- PAIR_AGREE (R676). D agreeing samples in FALLBACK return the pair to AGREE. -/
  | pairAgree (i : Fin 4) (a b : Bool)
  /-- PAIR_CFG_WRITE (R695). A write of PAIR_CFG places the pair in FALLBACK and keeps AGREED. -/
  | pairCfgWrite (i : Fin 4) (value : Word)
  /-- FA_ACK (R672). Acknowledges the occurrences named in the mask. -/
  | faAck (k : Pkt)
  /-- FA_STATUS (R683). Returns the open, escalated and global fault status. -/
  | faStatus (k : Pkt)
  /-- FA_ALIVE_RESUME (R675). Resumes ALIVE when health is good and the kick is satisfied. -/
  | faAliveResume (k : Pkt)
  /-- JIG_ARM (R678). Arms a checker to use inverted check bits for N checks. -/
  | jigArm (k : Pkt)
  /-- RP_ROW_REMAP (R680). Requests the remap of an SRAM row. -/
  | rpRowRemap (k : Pkt) (done : Option Nat)
  /-- CDR_LOCK_GAINED (R268). The receiver recovers the clock of the incoming stream and CDR_LOCK rises, so the recovered clock can again be offered to Gauge. -/
  | cdrLockGained (p : Fin 16)
  /-- CODE_SYNC_GAINED (R247). The 8b/10b synchronisation or 64b/66b block-lock machine gains sync and CODE_SYNC rises. -/
  | codeSyncGained (p : Fin 16) (units : List CodeUnit)
  /-- HI_BER_CHANGE (R247). HI_BER rises when 16 or more invalid sync headers fall within 125 µs at L10, and falls when they no longer do. -/
  | hiBerChange (p : Fin 16) (units : List CodeUnit)
  /-- CREFCLK_RETURN (R416). CREFCLK becomes present and within tolerance again, CREF_OK returns to 1 and the clients may bring their links up. -/
  | crefclkReturn
  /-- CLAMP_RELEASE (R601). No pin of a front-end channel is clamped any longer, so CLAMP_NOW falls and the sticky CLAMP bit can be cleared. -/
  | clampRelease (f : Fin 8)
  /-- LEVEL_CONDITION_END (R666). The level condition of a fault source such as TEMP_HIGH, SUPPLY_DIP or SYNTH_UNLOCK ends, so the source may raise again when the condition begins anew. -/
  | levelConditionEnd (z : Fin 23)
  deriving DecidableEq, Repr

end Sys2Proof
end

