-- ==== Sys2Proof/Decode.lean ====
section
/-!
DEFINITION. Decode.lean: the command a word of spec/opcode_table.json spells.  No row of the table has bits: a Parast
command travels as a packet whose opcode byte selects the row, and that dispatch is part of the machine (Table 4.2).
-/
namespace Sys2Proof

/-- No row of the table gives bits, so no word spells a command. -/
def decodeTableWord (_nbits _w : Nat) : Option Instr := none

end Sys2Proof
end

