-- ==== Sys2Proof/Config.lean ====
section
/-!
DEFINITION. Config.lean: what spec/ leaves open.  Each constant here is opaque and has no body, so no proof can rest
on a value of it; the assumption log names each.
-/
namespace Sys2Proof.Config

/-- A fresh open value: the `n`-th one the machine draws (`State.freeIx` counts them).  It stands for every value
that spec/ says is undefined or does not state.
DESIGN CHOICE, safe (notes/assumptions/11). -/
opaque freeValue : Nat → BitVec 32

/-- Whether a RESET_N pulse longer than 100 ns and shorter than 1 µs is recognised (R56: it either has no effect or
acts as a full low pulse).  The argument is the draw.
DESIGN CHOICE, safe (notes/assumptions/15). -/
opaque shortPulseTaken : Nat → Bool

/-- The temperature, in 0.001 °C, that standard curve `c` (R597, curves 1–10) gives for an electrical value in the units
of CURVE 0 (Table 16.3); spec/ gives its residual and not its value.
DESIGN CHOICE, safe (notes/assumptions/78). -/
opaque curveTemp : (c : Nat) → Int → Int

/-- The electrical value at the lower (false) or upper (true) end of the range of curve `c` (Table 16.4).
DESIGN CHOICE, safe (notes/assumptions/78). -/
opaque curveEnd : (c : Nat) → Bool → Int

/-- E_curve of R598: the electromotive force of a thermocouple of curve `c` at a temperature in 0.001 °C, in 10 nV.
DESIGN CHOICE, safe (notes/assumptions/78). -/
opaque curveEmf : (c : Nat) → Int → Int

/-- A byte of the configuration store that nothing valid gives, at an offset of its window after `n` writes of its page
(R215).
DESIGN CHOICE, safe (notes/assumptions/38). -/
opaque storeOpen : (n offset : Nat) → BitVec 8

/-- A byte of the carcass staging buffer (false) or the firmware stage (true) that nothing has written.
DESIGN CHOICE, safe (notes/assumptions/37). -/
opaque stagingOpen : Bool → (offset : Nat) → BitVec 8

/-- Whether an ECDSA P-256 signature over a SHA-256 digest verifies with boot-ROM key `key` (R643); spec/ does not give
the keys.
PRESUMED, unsafe (notes/assumptions/82). -/
opaque signatureGood : (key : Nat) → (digest signature : List (BitVec 8)) → Bool

/-- The word of the boot ROM at a byte offset (R174); spec/ does not give its content.
DESIGN CHOICE, safe (notes/assumptions/85). -/
opaque bootRom : (offset : Nat) → BitVec 32

/-- What the bits shifted into the TAP's instruction register, the last one at the end, spell (R75: the codes are in the BSDL
description, which spec/ does not give).
DESIGN CHOICE, unsafe (notes/assumptions/94). -/
opaque tapCode : List Bool → Nat

end Sys2Proof.Config
end

