-- ==== Sys2Proof/Machine/Balls.lean ====
section
/-!
DEFINITION. Machine/Balls.lean: which ball carries which signal (R47, Tables 2.2 and 2.3), which balls the boundary register
covers (R75), and the reset state of every output (Table 2.4).
-/
namespace Sys2Proof.Machine

/-- The signals and supplies of Tables 2.3 and 2.5; of a pair, `n` is its N ball. -/
inductive Sig where
  | ltx (p : Nat) (n : Bool) | lrx (p : Nat) (n : Bool) | ctx (c : Nat) (n : Bool) | crx (c : Nat) (n : Bool)
  | crefclk (n : Bool) | sdRcal (i : Nat)
  | modScl (p : Nat) | modSda (p : Nat) | modLos (p : Nat) | modTxdis (p : Nat)
  | refin (i : Nat) (n : Bool) | clkout (i : Nat) (n : Bool) | fpout (i : Nat) | xoIn
  | evt (e : Nat) (n : Bool) | timerOut (k : Nat) | pairA (i : Nat) | pairB (i : Nat)
  | pclk (n : Bool) | pdat (n : Bool) | dowelIn | dowelOut | irqN | alive | resetN | testEn
  | tck | tms | tdi | tdo | trstN
  | exc (f : Nat) (n : Bool) | sns (f : Nat) (n : Bool) | inp (f : Nat) (n : Bool) | feRefcap | tdiode (n : Bool)
  | supply (rail : Nat) | agndFe | gnd | rsvd
  deriving DecidableEq, Repr

/-- Eight ports of a CML row: P, N and GND for each, from column 4 on. -/
def laneRow (first : Nat) (sig : Nat → Bool → Sig) (c : Nat) : Sig :=
  if c < 4 ∨ 27 < c then .gnd
  else
    match (c - 4) % 3 with
    | 0 => sig (first + (c - 4) / 3) false
    | 1 => sig (first + (c - 4) / 3) true
    | _ => .gnd

/-- The SerDes supplies of rows D and AH. -/
def serdesSupply (c : Nat) : Sig :=
  if c < 4 ∨ 27 < c then .gnd else if c % 2 = 0 then .supply 1 else .supply 2

/-- Columns 1–3 of rows E–Y: the clients. -/
def clientBall (r c : Nat) : Sig :=
  if r < 17 ∧ (r - 5) % 3 < 2 ∧ c ≠ 2 then
    (if c = 1 then .ctx ((r - 5) / 3) ((r - 5) % 3 == 1) else .crx ((r - 5) / 3) ((r - 5) % 3 == 1))
  else if r = 18 ∧ c < 3 then .crefclk (c == 2)
  else if r = 19 ∧ c = 1 then .sdRcal 1
  else .gnd

/-- Columns 27–30 of rows E–AA: the optical module of port r − 5. -/
def moduleBall (r c : Nat) : Sig :=
  match c with
  | 27 => .modScl (r - 5)
  | 28 => .modSda (r - 5)
  | 29 => .modLos (r - 5)
  | _ => .modTxdis (r - 5)

/-- Columns 1–10 of rows AB–AG: the front end. -/
def frontBall (r c : Nat) : Sig :=
  if c ≤ 8 then
    match r with
    | 21 => .exc (c - 1) false
    | 22 => .sns (c - 1) false
    | 23 => .inp (c - 1) false
    | 24 => .inp (c - 1) true
    | 25 => .sns (c - 1) true
    | _ => .exc (c - 1) true
  else
    match r with
    | 21 | 22 => .supply 5
    | 23 => if c = 9 then .feRefcap else .tdiode false
    | 24 | 25 => .supply 6
    | _ => if c = 9 then .agndFe else .tdiode true

/-- Columns 11–26 of rows AE and AF. -/
def bottomBall (r c : Nat) : Sig :=
  if r = 24 then
    if c < 15 then .pairA (c - 11) else if c < 19 then .pairB (c - 15)
    else
      match c with
      | 19 => .pclk false
      | 20 => .pclk true
      | 21 => .pdat false
      | 22 => .pdat true
      | 23 => .dowelIn
      | 24 => .dowelOut
      | 25 => .irqN
      | _ => .alive
  else
    match c with
    | 11 => .tck
    | 12 => .tms
    | 13 => .tdi
    | 14 => .tdo
    | 15 => .trstN
    | 16 => .resetN
    | 17 => .testEn
    | _ => .supply 4

/-- Columns 11–26 of rows AB–AG. -/
def lowerBall (r c : Nat) : Sig :=
  match r with
  | 21 => if c < 19 then .refin ((c - 11) / 2) (c % 2 == 0) else .clkout ((c - 19) / 2) (c % 2 == 0)
  | 22 =>
    if c < 19 then .evt ((c - 11) / 2) (c % 2 == 0)
    else if c < 21 then .fpout (c - 19) else if c = 22 then .xoIn else if c < 24 then .gnd else .rsvd
  | 23 => if c < 19 then .timerOut (c - 11) else .supply 3
  | 26 => if c < 14 then .supply 4 else .gnd
  | _ => bottomBall r c

/-- What the ball at row ordinal `r` (Table 2.2) and column `c`, each from 1 to 30, carries (R47, Table 2.3). -/
def ballAt (r c : Nat) : Sig :=
  match r with
  | 1 => laneRow 0 .ltx c
  | 2 => .gnd
  | 3 => laneRow 0 .lrx c
  | 4 => if c = 1 then .sdRcal 0 else serdesSupply c
  | 27 => serdesSupply c
  | 28 => laneRow 8 .lrx c
  | 29 => .gnd
  | 30 => laneRow 8 .ltx c
  | _ =>
    if r < 20 ∧ c < 4 then clientBall r c
    else if r < 20 ∧ c < 27 then (if (r + c) % 2 = 0 then .supply 0 else .gnd)
    else if r < 21 ∧ 27 ≤ c then moduleBall r c
    else if r = 20 then (if c ≤ 8 then .agndFe else .gnd)
    else if c ≤ 10 then frontBall r c
    else if c < 27 then lowerBall r c
    else if r < 23 then .rsvd else .gnd

/-- Every ball, row by row. -/
def allBalls : List Sig := (List.range 30).flatMap fun r => (List.range 30).map fun c => ballAt (r + 1) (c + 1)

/-- The boundary register covers every digital ball and every SerDes ball (R75). -/
def Sig.covered : Sig → Bool
  | .exc _ _ | .sns _ _ | .inp _ _ | .feRefcap | .xoIn | .sdRcal _ | .tdiode _ => false
  | .supply _ | .agndFe | .gnd | .rsvd => false
  | _ => true

/-- One cell for each covered ball; which cell stands where is told by the BSDL description.
DESIGN CHOICE, unsafe (notes/assumptions/94). -/
def boundaryBalls : List Sig := allBalls.filter Sig.covered

/-- How many cells the boundary register has. -/
def boundaryLen : Nat := 203

/-- How a ball stands: an output held at a level, in electrical idle, released, with its driver off or in motion, or no
output at all. -/
inductive Drive where
  | low | high | idle | released | hiZ | moving | input
  deriving DecidableEq, Repr

/-- The reset state of Table 2.4. -/
def Sig.resetDrive : Sig → Drive
  | .ltx _ _ | .ctx _ _ => .idle
  | .modScl _ | .modSda _ | .irqN => .released
  | .modTxdis _ => .high
  | .clkout _ n => if n then .high else .low
  | .fpout _ | .timerOut _ | .dowelOut | .alive => .low
  | .pdat _ | .tdo | .exc _ _ => .hiZ
  | _ => .input

end Sys2Proof.Machine
end

