-- ==== Sys2Proof/Machine/Bits.lean ====
section
/-!
DEFINITION. Bit fields, sign conversion, byte order (R3, R5) and the check codes that spec/ gives as algorithms:
the Parast CRC-16 (R127), the tributary CRC-8 (R337), BIP-16 (R289) and the image CRC-32 (R218).
-/
namespace Sys2Proof.Machine

/-- Bits `lo + w - 1 … lo` of `n`, as a number. -/
def bitsOf (n lo w : Nat) : Nat := n / 2 ^ lo % 2 ^ w

/-- Bit `i` of `n`. -/
def bitOf (n i : Nat) : Bool := n.testBit i

/-- 1 for true and 0 for false. -/
def b2n : Bool → Nat
  | true => 1
  | false => 0

/-- The signed value of the low `w` bits of `n` (two's complement). -/
def toSigned (w n : Nat) : Int :=
  let m := n % 2 ^ w
  if m < 2 ^ (w - 1) then (m : Int) else (m : Int) - (2 ^ w : Nat)

/-- The low `w` bits of a signed value, as a number. -/
def ofSigned (w : Nat) (i : Int) : Nat := (i % ((2 ^ w : Nat) : Int)).toNat

/-- `i` held between `lo` and `hi`. -/
def clampInt (lo hi i : Int) : Int := if i < lo then lo else if hi < i then hi else i

/-- Addition that stops at the largest `w`-bit value. -/
def satAdd (w n k : Nat) : Nat := min (n + k) (2 ^ w - 1)

/-- Half-up rounding of `n / d` for a positive `d`: halves go away from zero. -/
def roundHalfAway (n : Int) (d : Nat) : Int :=
  let q := (2 * n.natAbs + d) / (2 * d)
  if n < 0 then -(q : Int) else (q : Int)

/-- `k` bytes of `n`, least significant first (R5). -/
def toLE : Nat → Nat → List Byte
  | 0, _ => []
  | k + 1, n => BitVec.ofNat 8 n :: toLE k (n / 256)

/-- The number whose bytes, least significant first, are `bs` (R5). -/
def ofLE : List Byte → Nat
  | [] => 0
  | b :: bs => b.toNat + 256 * ofLE bs

/-- Byte `i` of a list, 0 past its end. -/
def byteAt (bs : List Byte) (i : Nat) : Nat := (bs.getD i 0).toNat

/-- The little-endian number of the `k` bytes at `off`. -/
def leAt (bs : List Byte) (off k : Nat) : Nat := ofLE ((bs.drop off).take k)

/-- The 32-bit words that a byte list spells, four bytes a word, least significant byte first. -/
def wordsLE : List Byte → List Word
  | b0 :: b1 :: b2 :: b3 :: rest => BitVec.ofNat 32 (ofLE [b0, b1, b2, b3]) :: wordsLE rest
  | _ => []

/-- The bytes of a list of words, least significant byte of each first. -/
def bytesOfWords : List Word → List Byte
  | [] => []
  | w :: ws => toLE 4 w.toNat ++ bytesOfWords ws

/-- One shift of a CRC register of `w` bits with the polynomial `poly`, most significant bit first. -/
def crcShift (w poly c : Nat) : Nat :=
  if c.testBit (w - 1) then ((c * 2) % 2 ^ w) ^^^ poly else (c * 2) % 2 ^ w

/-- `n` shifts of a CRC register. -/
def crcShifts (w poly : Nat) : Nat → Nat → Nat
  | 0, c => c
  | n + 1, c => crcShifts w poly n (crcShift w poly c)

/-- The Parast CRC-16 of R127 over a byte list, from the register value `c`. -/
def crc16From : Nat → List Byte → Nat
  | c, [] => c
  | c, b :: bs => crc16From (crcShifts 16 0x1021 8 (c ^^^ (b.toNat * 256))) bs

/-- R127: polynomial 0x1021, initial value 0xFFFF, no reflection, no final inversion. -/
def crc16 (bs : List Byte) : Nat := crc16From 0xFFFF bs

/-- One step of the reflected CRC-32 of IEEE 802.3. -/
def crc32Shifts : Nat → Nat → Nat
  | 0, c => c
  | n + 1, c => crc32Shifts n (if c % 2 = 1 then c / 2 ^^^ 0xEDB88320 else c / 2)

/-- The CRC-32 register after a byte list. -/
def crc32From : Nat → List Byte → Nat
  | c, [] => c
  | c, b :: bs => crc32From (crc32Shifts 8 (c ^^^ b.toNat)) bs

/-- The CRC-32 of IEEE 802.3 over a byte list: initial value and final inversion 0xFFFFFFFF, reflected. -/
def crc32 (bs : List Byte) : Nat := crc32From 0xFFFFFFFF bs ^^^ 0xFFFFFFFF

/-- The number of 1 bits among the low `n` bits. -/
def popCount : Nat → Nat → Nat
  | 0, _ => 0
  | k + 1, n => n % 2 + popCount k (n / 2)

/-- Whether a 4-bit quality-level code names a grade: 1–5; every other code is treated as 0xF (R14). -/
def qlCode (q : Nat) : Nat := if 1 ≤ q ∧ q ≤ 5 then q else 0xF

end Sys2Proof.Machine
end

