-- ==== Sys2Proof/Machine/Code.lean ====
section
/-!
DEFINITION. Machine/Code.lean: the line coding (R4, R245–R247, R281–R283) and the PRBS patterns (R256): code groups of 8b/10b
with their running disparity, blocks of 64b/66b with their scrambler, what the receiver makes of code units, its two
synchronisation machines, and the pattern generator and checker.

A code unit is the number whose bits, most significant first, are those on the line in the order they are sent (R4): 10 bits
of a code group, a first and j last, or the sync header and 64 payload bits of a block.  The code-group tables, the
disparity rules, and the two synchronisation machines are those of IEEE 802.3 Clauses 36 and 49, which spec/ names.
-/
namespace Sys2Proof.Machine

/-! ### 8b/10b: sub-blocks (Clause 36) -/

/-- Sub-block abcdei of D.x at negative running disparity.
PRESUMED, unsafe (notes/assumptions/99). -/
def sixNeg : List Nat :=
  [0b100111, 0b011101, 0b101101, 0b110001, 0b110101, 0b101001, 0b011001, 0b111000, 0b111001, 0b100101, 0b010101, 0b110100,
   0b001101, 0b101100, 0b011100, 0b010111, 0b011011, 0b100011, 0b010011, 0b110010, 0b001011, 0b101010, 0b011010, 0b111010,
   0b110011, 0b100110, 0b010110, 0b110110, 0b001110, 0b101110, 0b011110, 0b101011]

/-- Sub-block fghj of D.x.y at negative running disparity, y = 7 in its primary form.
PRESUMED, unsafe (notes/assumptions/99). -/
def fourNeg : List Nat := [0b1011, 0b1001, 0b0101, 0b1100, 0b1101, 0b1010, 0b0110, 0b1110]

/-- Sub-block fghj of K28.y at negative running disparity before the code group.
PRESUMED, unsafe (notes/assumptions/99). -/
def fourK28 : List Nat := [0b0100, 0b1001, 0b0101, 0b0011, 0b0010, 0b1010, 0b0110, 0b1000]

/-- How many of the low `w` bits are ones. -/
def onesIn : Nat → Nat → Nat
  | 0, _ => 0
  | w + 1, n => n % 2 + onesIn w (n / 2)

/-- Running disparity (true: positive) after a sub-block of `w` bits: more ones or more zeros decide it, else the two sub-blocks
that Clause 36 singles out, else it stays.
PRESUMED, unsafe (notes/assumptions/99). -/
def rdAfter (w v : Nat) (rd : Bool) : Bool :=
  let k := 2 * onesIn w v
  if w < k then true else if k < w then false
  else if w == 6 && v == 0b000111 || w == 4 && v == 0b0011 then true
  else if w == 6 && v == 0b111000 || w == 4 && v == 0b1100 then false
  else rd

/-- Sub-block abcdei of x (32: K28) at running disparity `rd`: at positive disparity the complement, where the two differ. -/
def sixOf (x : Nat) (rd : Bool) : Nat :=
  let v := if x = 32 then 0b001111 else sixNeg.getD x 0
  if rd && (onesIn 6 v != 3 || x == 7) then 0b111111 - v else v

/-- Whether D.x.7 takes its alternate sub-block at running disparity `rd` after abcdei.
PRESUMED, unsafe (notes/assumptions/99). -/
def altSeven (x : Nat) (rd : Bool) : Bool := if rd then x == 11 || x == 13 || x == 14 else x == 17 || x == 18 || x == 20

/-- Sub-block fghj of D.x.y at running disparity `rd` after abcdei. -/
def fourOf (x y : Nat) (rd : Bool) : Nat :=
  let v := if y = 7 ∧ altSeven x rd then 0b0111 else fourNeg.getD y 0
  if rd && (onesIn 4 v != 2 || y == 3) then 0b1111 - v else v

/-- The data code group of an octet, x in its low five bits and y above. -/
def dataGroup (rd : Bool) (o : Nat) : Nat :=
  let six := sixOf (o % 32) rd
  six * 16 + fourOf (o % 32) (o / 32) (rdAfter 6 six rd)

/-- A special code group: K28.y, or K23.7, K27.7, K29.7 and K30.7; none for an octet that has none. -/
def specialGroup (rd : Bool) (o : Nat) : Option Nat :=
  let x := o % 32
  let y := o / 32
  if x = 28 then
    let v := 0b001111 * 16 + fourK28.getD y 0
    some (if rd then 0b1111111111 - v else v)
  else if y = 7 ∧ (x = 23 ∨ x = 27 ∨ x = 29 ∨ x = 30) then
    let v := sixNeg.getD x 0 * 16 + 0b1000
    some (if rd then 0b1111111111 - v else v)
  else none

/-- Running disparity after a code group. -/
def rdGroup (g : Nat) (rd : Bool) : Bool := rdAfter 4 (g % 16) (rdAfter 6 (g / 16) rd)

/-- What a code group is in the column of one running disparity: its octet, and whether it is special; none: not a code group
of that column. -/
def groupIn (rd : Bool) (g : Nat) : Option (Nat × Bool) :=
  let six := g / 16
  let col : List Nat := (List.range 32).map fun x => sixOf x rd
  let x := col.findIdx (· == six)
  let r := rdAfter 6 six rd
  let y := ((List.range 8).map fun y => fourOf x y r).findIdx (· == g % 16)
  if x < 32 ∧ y < 8 then some (x + 32 * y, false)
  else
    let o := ([28, 60, 92, 124, 156, 188, 220, 252, 247, 251, 253, 254] : List Nat).find? fun o => specialGroup rd o == some g
    o.map fun o => (o, true)

/-- What the receiver makes of a code group (R283): its octet, whether it is a special code group, and whether it is a violation.
A group of neither column is delivered as 0x00. -/
structure GroupIn where
  octet : Nat
  special : Bool
  violation : Bool
  deriving DecidableEq, Repr

def takeGroup (rd : Bool) (g : Nat) : GroupIn :=
  match groupIn rd g with
  | some (o, k) => { octet := o, special := k, violation := false }
  | none =>
    match groupIn (!rd) g with
    | some (o, k) => { octet := o, special := k, violation := true }
    | none => { octet := 0, special := false, violation := true }

/-! ### 64b/66b: the scrambler 1 + x^39 + x^58 (Clause 49) -/

/-- `k ≤ 39` bits scrambled after the 58 bits `last` that were sent before them. -/
def scramblePart (last k v : Nat) : Nat := v ^^^ ((last / 2 ^ (39 - k) % 2 ^ k) ^^^ (last / 2 ^ (58 - k) % 2 ^ k))

/-- The 64 payload bits of a block scrambled, and the last 58 bits sent. -/
def scramble (last v : Nat) : Nat × Nat :=
  let a := scramblePart last 39 (v / 2 ^ 25)
  let last := (last * 2 ^ 39 + a) % 2 ^ 58
  let b := scramblePart last 25 (v % 2 ^ 25)
  (a * 2 ^ 25 + b, (last * 2 ^ 25 + b) % 2 ^ 58)

/-- The 64 payload bits of a block descrambled, and the last 58 bits received. -/
def descramble (last v : Nat) : Nat × Nat :=
  let all := last * 2 ^ 64 + v
  (v ^^^ (all / 2 ^ 39 % 2 ^ 64) ^^^ (all / 2 ^ 58 % 2 ^ 64), all % 2 ^ 58)

/-! ### Frames as code units -/

/-- The coding state of a lane: running disparity, and the last 58 scrambled bits.
PRESUMED, unsafe (notes/assumptions/99). -/
structure Lane where
  rd : Bool := false
  last : Nat := 0
  deriving DecidableEq, Repr

/-- Code groups of octets, each after the one before; `special` tells whether the first is K28.5. -/
def sendOctets (special : Bool) : Bool → List Nat → List Nat × Bool
  | rd, [] => ([], rd)
  | rd, o :: os =>
    let g := if special then (specialGroup rd o).getD 0 else dataGroup rd o
    let r := sendOctets false (rdGroup g rd) os
    (g :: r.1, r.2)

/-- Blocks of line words, four to a block, the lowest-numbered word in the first 16 bits; `control` tells whether the first is
the control block. -/
def sendBlocks (control : Bool) : Nat → List Nat → List Nat × Nat
  | last, w0 :: w1 :: w2 :: w3 :: ws =>
    let s := scramble last (((w0 * 2 ^ 16 + w1) * 2 ^ 16 + w2) * 2 ^ 16 + w3)
    let r := sendBlocks false s.2 ws
    (((if control then 0b10 else 0b01) * 2 ^ 64 + s.1) :: r.1, r.2)
  | last, _ => ([], last)

/-- The code units of a frame at a rate class, and the lane after them (R246, R281, R282). -/
def sendUnits (rate : Nat) (l : Lane) (ws : List Nat) : List Nat × Lane :=
  if rate = 3 then
    let r := sendBlocks true l.last ws
    (r.1, { l with last := r.2 })
  else
    let r := sendOctets true l.rd (ws.flatMap fun w => [w / 256, w % 256])
    (r.1, { l with rd := r.2 })

/-- Bits of a code unit at a rate class. -/
def unitBits (rate : Nat) : Nat := if rate = 3 then 66 else 10

/-- Code units per frame (Table 7.1). -/
def unitsPerFrame (rate : Nat) : Nat :=
  match rate with
  | 0 => 4000
  | 1 => 8000
  | 2 => 16000
  | _ => 5000

/-- The bits of a number in the order they are sent: most significant first (R4). -/
def bitsSent : Nat → Nat → List Bool
  | 0, _ => []
  | w + 1, n => n.testBit w :: bitsSent w n

/-- Code units inverted on the line where `inv` says so (R255). -/
def invertUnits (bits : Nat) (inv : Bool) (us : List Nat) : List Nat :=
  if inv then us.map fun u => 2 ^ bits - 1 - u % 2 ^ bits else us

/-- What the receiver delivers of a stretch of code units: its line words, whether they begin with the start word, and the
violations in it. -/
structure Delivered where
  words : List Nat := []
  start : Bool := false
  violations : Nat := 0
  deriving DecidableEq, Repr

/-- Line words of code groups taken two by two, and the violations among them. -/
def takeGroups : Bool → List Nat → List Nat × Nat × Bool
  | rd, g :: h :: gs =>
    let a := takeGroup rd g
    let rd := rdGroup g rd
    let b := takeGroup rd h
    let r := takeGroups (rdGroup h rd) gs
    ((a.octet * 256 + b.octet) :: r.1, b2n a.violation + b2n b.violation + r.2.1, r.2.2)
  | rd, _ => ([], 0, rd)

/-- Whether two code groups are the start word: K28.5, then D21.5 (R281, R285). -/
def groupsStart (rd : Bool) : List Nat → Bool
  | g :: h :: _ =>
    let a := takeGroup rd g
    let b := takeGroup (rdGroup g rd) h
    a.special && a.octet == 0xBC && !b.special && b.octet == 0xB5
  | _ => false

/-- Line words of blocks, and the invalid sync headers among them. -/
def takeBlocks : Nat → List Nat → List Nat × Nat × Nat
  | last, u :: us =>
    let d := descramble last (u % 2 ^ 64)
    let r := takeBlocks d.2 us
    let h := u / 2 ^ 64 % 4
    (bitsOf d.1 48 16 :: bitsOf d.1 32 16 :: bitsOf d.1 16 16 :: bitsOf d.1 0 16 :: r.1, b2n (h == 0 || h == 3) + r.2.1, r.2.2)
  | last, [] => ([], 0, last)

/-- What the receiver delivers of code units (R283), and its lane after them. -/
def takeUnits (rate : Nat) (l : Lane) (us : List Nat) : Delivered × Lane :=
  if rate = 3 then
    let r := takeBlocks l.last us
    ({ words := r.1, start := us.headD 0 / 2 ^ 64 % 4 == 0b10 && r.1.headD 0 == 0xA55A, violations := r.2.1 }, { l with last := r.2.2 })
  else
    let r := takeGroups l.rd us
    ({ words := r.1, start := groupsStart l.rd us, violations := r.2.1 }, { l with rd := r.2.2 })

/-! ### Synchronisation (R247) -/

/-- The receive coding layer: its lane; the state of the Clause 36 machine (0 LOSS_OF_SYNC, 1 COMMA_DETECT_1, 2 ACQUIRE_SYNC_1,
3 COMMA_DETECT_2, 4 ACQUIRE_SYNC_2, 5 COMMA_DETECT_3, 6–9 SYNC_ACQUIRED_1–4) with rx_even and good_cgs; block lock with its
counts of sync headers and of invalid ones; and for HI_BER how many blocks have come, how many had at the last tick, and where
the last 16 invalid headers stood. -/
structure RxCode where
  lane : Lane := {}
  sync : Nat := 0
  even : Bool := false
  good : Nat := 0
  lock : Bool := false
  heads : Nat := 0
  badHeads : Nat := 0
  blocks : Nat := 0
  tickBlocks : Nat := 0
  badAt : List Nat := []
  deriving DecidableEq, Repr

/-- The Clause 36 synchronisation machine at one code group.
PRESUMED, unsafe (notes/assumptions/99). -/
def groupSync (x : RxCode) (g : Nat) : RxCode :=
  let t := takeGroup x.lane.rd g
  let comma := t.special && !t.violation && (t.octet == 0x3C || t.octet == 0xBC || t.octet == 0xFC)
  let data := !t.special && !t.violation
  let bad := t.violation || (comma && x.even)
  let even := !x.even
  let goTo (n : Nat) : RxCode := { x with sync := n, even := even, good := 0, lane := { x.lane with rd := rdGroup g x.lane.rd } }
  match x.sync with
  | 0 => if comma then { goTo 1 with even := true } else goTo 0
  | 1 => if data then goTo 2 else goTo 0
  | 2 => if bad then goTo 0 else if comma then { goTo 3 with even := true } else goTo 2
  | 3 => if data then goTo 4 else goTo 0
  | 4 => if bad then goTo 0 else if comma then { goTo 5 with even := true } else goTo 4
  | 5 => if data then goTo 6 else goTo 0
  | 6 => if bad then goTo 7 else goTo 6
  | n =>
    if bad then (if n = 9 then goTo 0 else goTo (n + 1))
    else if x.good = 3 then goTo (n - 1) else { goTo n with good := x.good + 1 }

/-- The Clause 49 block-lock machine at one block, and the place of an invalid header.
PRESUMED, unsafe (notes/assumptions/99). -/
def blockSync (x : RxCode) (u : Nat) : RxCode :=
  let h := u / 2 ^ 64 % 4
  let bad := h == 0 || h == 3
  let x := { x with
    blocks := x.blocks + 1, badAt := if bad then ((x.blocks + 1) :: x.badAt).take 16 else x.badAt
    lane := { x.lane with last := (descramble x.lane.last (u % 2 ^ 64)).2 } }
  let n := x.heads + 1
  let k := x.badHeads + b2n bad
  if bad && (k == 16 || !x.lock) then { x with lock := false, heads := 0, badHeads := 0 }
  else if n = 64 then { x with lock := x.lock || k == 0, heads := 0, badHeads := 0 }
  else { x with heads := n, badHeads := k }

/-- The receive coding layer over code units. -/
def codeRun (rate : Nat) (x : RxCode) (us : List Nat) : RxCode :=
  us.foldl (fun x u => if rate = 3 then blockSync x u else groupSync x u) x

/-- CODE_SYNC as the machine of the rate class reports it. -/
def codeHolds (rate : Nat) (x : RxCode) : Bool := if rate = 3 then x.lock else Nat.ble 6 x.sync

/-- Blocks in 125 µs, 6.4 ns each. -/
def berWindow : Nat := 19531

/-- HI_BER: 16 invalid headers stand within the last 125 µs. -/
def berHigh (x : RxCode) : Bool := x.badAt.length == 16 && Nat.blt x.blocks (x.badAt.getD 15 0 + berWindow)

/-! ### PRBS (R256–R258) -/

/-- The two taps of a pattern (Table 7.3); the first is also the length of its register. -/
def prbsTaps (code : Nat) : Nat × Nat :=
  match code with
  | 1 => (7, 6)
  | 2 => (15, 14)
  | 3 => (23, 18)
  | _ => (31, 28)

/-- The next bit of a pattern after the bits `st`, the latest lowest, and the bits after it. -/
def prbsBit (code st : Nat) : Bool × Nat :=
  let t := prbsTaps code
  let b := bitOf st (t.1 - 1) != bitOf st (t.2 - 1)
  (b, (2 * st + b2n b) % 2 ^ t.1)

/-- `n` bits of a pattern as a number, the first one most significant, and the bits after them. -/
def prbsRun (code : Nat) : Nat → Nat → Nat → Nat × Nat
  | 0, st, acc => (acc, st)
  | n + 1, st, acc =>
    let r := prbsBit code st
    prbsRun code n r.2 (2 * acc + b2n r.1)

/-- `n` groups of 32 bits of a pattern, inverted where `inv` says so, and the bits after them. -/
def prbsGroups (code : Nat) (inv : Bool) : Nat → Nat → List Nat × Nat
  | 0, st => ([], st)
  | n + 1, st =>
    let g := prbsRun code 32 st 0
    let r := prbsGroups code inv n g.2
    ((if inv then 2 ^ 32 - 1 - g.1 else g.1) :: r.1, r.2)

/-- The checker: the bits it predicts from (none: it seeds itself from the next group), the clean groups in a row before lock,
and the groups in a row with four or more errors in lock. -/
structure Checker where
  st : Option Nat := none
  clean : Nat := 0
  dirty : Nat := 0
  deriving DecidableEq, Repr

/-- The bits that a received group seeds a checker with; none when they are all 0, which no pattern holds. -/
def checkerSeed (code g : Nat) : Option Nat :=
  let st := g % 2 ^ (prbsTaps code).1
  if st = 0 then none else some st

/-- What a checker finds in one group, its pattern not inverted: the checker after it, the errors in it when it was compared, and
whether lock is to be gained or lost by it. An unlocked checker seeds itself anew from a group with errors.
DESIGN CHOICE, unsafe (notes/assumptions/100). -/
def checkGroup (code : Nat) (locked : Bool) (c : Checker) (g : Nat) : Checker × Nat × Bool × Bool :=
  match c.st with
  | none => ({ st := checkerSeed code g }, 0, false, false)
  | some st =>
    let r := prbsRun code 32 st 0
    let errs := onesIn 32 (r.1 ^^^ g)
    if locked then
      let dirty := if 4 ≤ errs then c.dirty + 1 else 0
      if dirty = 8 then ({}, errs, false, true) else ({ st := some r.2, dirty := dirty }, errs, false, false)
    else if errs ≠ 0 then ({ st := checkerSeed code g }, errs, false, false)
    else if c.clean = 3 then ({ st := some r.2 }, 0, true, false)
    else ({ st := some r.2, clean := c.clean + 1 }, 0, false, false)

end Sys2Proof.Machine
end

