-- ==== Sys2Proof/Machine/Regs.lean ====
section
/-!
DEFINITION. Machine/Regs.lean: every register of the register tables of spec/, and every field of each.

One `RegSpec` per register family: its address of instance 0, the strides and counts of its indices,
which bits of it are of each type of Table 0.2 (R7), which are lockable (R184) and veneerable (R8), and
its reset word.  One `Field` per named field: which bits of which register it is.
-/
namespace Sys2Proof.Machine

/-- One register family of the register tables (R7): `dims` is the list of (stride, count) of its indices,
outermost first; the masks say which bits are of each type of Table 0.2. -/
structure RegSpec where
  name : String
  base : Nat
  dims : List (Nat × Nat) := []
  rw : Nat := 0
  w1c : Nat := 0
  wo : Nat := 0
  ro : Nat := 0
  otp : Nat := 0
  lock : Bool := false
  veneer : Nat := 0
  reset : Nat := 0
  deriving DecidableEq, Repr

/-- A named field: the address of its register's instance 0, the strides of the register's indices, its
lowest bit and its width. -/
structure Field where
  base : Nat
  s1 : Nat := 0
  s2 : Nat := 0
  lo : Nat := 0
  w : Nat := 32
  deriving DecidableEq, Repr

/-- The byte address of the register that holds instance [i][j] of the field. -/
def Field.addr (f : Field) (i : Nat := 0) (j : Nat := 0) : Nat := f.base + f.s1 * i + f.s2 * j

/-- The field's bits, as a mask over its register. -/
def Field.mask (f : Field) : Nat := (2 ^ f.w - 1) * 2 ^ f.lo

/-- Whether a byte address is one of the instances of a register family with these (stride, count) pairs. -/
def dimsCover : List (Nat × Nat) → Nat → Bool
  | [], d => d == 0
  | (st, n) :: ds, d => Nat.blt (d / st) n && dimsCover ds (d % st)

/-- Whether the byte address `a` names an instance of the register family. -/
def RegSpec.covers (r : RegSpec) (a : Nat) : Bool := Nat.ble r.base a && dimsCover r.dims (a - r.base)

/-! ### Block MP -/

/-- The registers of block MP (R157). -/
def regsMP : List RegSpec :=
  [ { name := "MP_CTRL", base := 0x40000000, rw := 0x00000001, lock := true, reset := 0x00000001 },
    { name := "MP_REPLY_WIN", base := 0x40000004, rw := 0x0000FFFF, lock := true, reset := 0x00001000 },
    { name := "MP_STATUS", base := 0x40000008, ro := 0x0000070E },
    { name := "MP_LAST_ERR", base := 0x4000000C, w1c := 0x80000000, ro := 0x7FFFFFFF },
    { name := "MP_TXN_COUNT", base := 0x40000010, ro := 0xFFFFFFFF },
    { name := "MP_BAD_CRC", base := 0x40000014, ro := 0x0000FFFF },
    { name := "MP_BCAST_DROP", base := 0x40000018, ro := 0x0000FFFF },
    { name := "MP_LOCK_VIOL", base := 0x4000001C, ro := 0x0000FFFF },
    { name := "MP_CNT_CLR", base := 0x40000020, wo := 0x00000007 },
    { name := "MP_IRQ_EN", base := 0x40000024, rw := 0x00000003 } ]

/-! ### Block CH -/

/-- The registers of block CH (R107). -/
def regsCH : List RegSpec :=
  [ { name := "CH_ADDR", base := 0x40010000, ro := 0x0000017F },
    { name := "CH_STATUS", base := 0x40010004, w1c := 0x000000C0, ro := 0x00000033 },
    { name := "CH_ASSIGN_LOG", base := 0x40010008, ro := 0x0001FFFF } ]

/-! ### Block CF -/

/-- The registers of block CF (R222, R233). -/
def regsCF : List RegSpec :=
  [ { name := "CF_STATUS", base := 0x40020000, ro := 0x00001FF7, reset := 0x00001040 },
    { name := "CF_GEN_A", base := 0x40020004, ro := 0xFFFFFFFF },
    { name := "CF_GEN_B", base := 0x40020008, ro := 0xFFFFFFFF },
    { name := "CF_LEN", base := 0x4002000C, ro := 0xFFFFFFFF },
    { name := "CF_CRC_A", base := 0x40020010, ro := 0xFFFFFFFF },
    { name := "CF_CRC_B", base := 0x40020014, ro := 0xFFFFFFFF },
    { name := "CF_STAGE_LEN", base := 0x40020018, ro := 0x0000FFFF },
    { name := "CF_EVENT", base := 0x40020020, w1c := 0x0000003F },
    { name := "CF_IRQ_EN", base := 0x40020024, rw := 0x0000003F },
    { name := "CF_STAGE_STATE", base := 0x40020028, ro := 0xFFFFFFFF },
    { name := "CF_BOOT_CTRL", base := 0x4002002C, wo := 0x00000001 },
    { name := "CF_STAGE_TS", base := 0x40020040, dims := [(0x10, 4)], ro := 0xFFFFFFFF } ] ++
  [ { name := "CF_STAGE_TF", base := 0x40020044, dims := [(0x10, 4)], ro := 0x0000FFFF },
    { name := "CF_STAGE_INFO", base := 0x40020048, dims := [(0x10, 4)], ro := 0xFFFFFF00 },
    { name := "CF_STAGE_COUNT", base := 0x4002004C, dims := [(0x10, 4)], ro := 0x000001FF },
    { name := "CF_PAIR_VSEL", base := 0x40020080, dims := [(0x4, 4)], rw := 0x800000FF, ro := 0x00000300, lock := true },
    { name := "CF_VSLOT_VALID", base := 0x40020090, ro := 0x0000FFFF },
    { name := "CF_WEAR", base := 0x40020400, dims := [(0x4, 256)], ro := 0xC0FFFFFF } ]

/-! ### Block LP -/

/-- The registers of block LP (R269). -/
def regsLP : List RegSpec :=
  [ { name := "LP_CTRL", base := 0x40030000, dims := [(0x100, 16)], rw := 0x0000F377, lock := true, reset := 0x0000A006 },
    { name := "LP_TXEQ", base := 0x40030004, dims := [(0x100, 16)], rw := 0x001F1F0F, lock := true, reset := 0x00081002 },
    { name := "LP_RXEQ", base := 0x40030008, dims := [(0x100, 16)], rw := 0x80010F01, lock := true, reset := 0x00000801 },
    { name := "LP_PRBS", base := 0x4003000C, dims := [(0x100, 16)], rw := 0x000000FF },
    { name := "LP_CMD", base := 0x40030010, dims := [(0x100, 16)], wo := 0x0000001F },
    { name := "LP_STATUS", base := 0x40030014, dims := [(0x100, 16)], ro := 0x00007FFF, reset := 0x00000020 },
    { name := "LP_EVENT", base := 0x40030018, dims := [(0x100, 16)], w1c := 0x000001FF },
    { name := "LP_IRQ_EN", base := 0x4003001C, dims := [(0x100, 16)], rw := 0x000001FF },
    { name := "LP_PRBS_ERR", base := 0x40030020, dims := [(0x100, 16)], ro := 0xFFFFFFFF },
    { name := "LP_PRBS_BITS_LO", base := 0x40030024, dims := [(0x100, 16)], ro := 0xFFFFFFFF },
    { name := "LP_PRBS_BITS_HI", base := 0x40030028, dims := [(0x100, 16)], ro := 0xFFFFFFFF },
    { name := "LP_CV_CNT", base := 0x4003002C, dims := [(0x100, 16)], ro := 0xFFFFFFFF } ] ++
  [ { name := "LP_EYE_CTRL", base := 0x40030030, dims := [(0x100, 16)], rw := 0x000F7F3F },
    { name := "LP_EYE_ERR", base := 0x40030034, dims := [(0x100, 16)], ro := 0xFFFFFFFF },
    { name := "LP_EYE_BITS", base := 0x40030038, dims := [(0x100, 16)], ro := 0xFFFFFFFF },
    { name := "LP_MOD_CFG", base := 0x40030040, dims := [(0x100, 16)], rw := 0x0000FF03, lock := true, reset := 0x00000A02 },
    { name := "LP_MOD_CMD", base := 0x40030044, dims := [(0x100, 16)], wo := 0x80003FFF },
    { name := "LP_MOD_STAT", base := 0x40030048, dims := [(0x100, 16)], ro := 0x000000FF },
    { name := "LP_MOD_DATA", base := 0x40030050, dims := [(0x100, 16), (0x4, 4)], rw := 0xFFFFFFFF },
    { name := "LP_MOD_DIAG", base := 0x40030060, dims := [(0x100, 16), (0x4, 4)], ro := 0xFFFFFFFF },
    { name := "LP_MOD_DIAG_AGE", base := 0x40030070, dims := [(0x100, 16)], ro := 0xFFFFFFFF, reset := 0xFFFFFFFF } ]

/-! ### Block LF -/

/-- The registers of block LF (R303, R307, R309). -/
def regsLF : List RegSpec :=
  [ { name := "LF_NUM_CTRL", base := 0x40040000, rw := 0x0000010F, lock := true },
    { name := "LF_NUM_DELAY", base := 0x40040004, rw := 0x00FFFFFF, lock := true },
    { name := "LF_NUM_SET_S", base := 0x40040008, rw := 0xFFFFFFFF },
    { name := "LF_NUM_SET_F", base := 0x4004000C, rw := 0x00007FFF },
    { name := "LF_CMD", base := 0x40040010, wo := 0x00000003 },
    { name := "LF_NUM_STATUS", base := 0x40040014, ro := 0x00000033 },
    { name := "LF_NOW_S", base := 0x40040018, ro := 0xFFFFFFFF },
    { name := "LF_NOW_F", base := 0x4004001C, ro := 0x00007FFF },
    { name := "LF_FRAME_TOTAL", base := 0x40040020, ro := 0xFFFFFFFF },
    { name := "LF_NUM_ERR", base := 0x40040024, ro := 0xFFFFFFFF, reset := 0x80000000 },
    { name := "LF_EVENT", base := 0x40040028, w1c := 0x0000000F },
    { name := "LF_IRQ_EN", base := 0x4004002C, rw := 0x0000000F } ] ++
  [ { name := "LF_PCTRL", base := 0x40041000, dims := [(0x100, 16)], rw := 0x00000001, lock := true, reset := 0x00000001 },
    { name := "LF_PSTATUS", base := 0x40041004, dims := [(0x100, 16)], ro := 0x0000179B },
    { name := "LF_PEVENT", base := 0x40041008, dims := [(0x100, 16)], w1c := 0x000003FF },
    { name := "LF_PIRQ_EN", base := 0x4004100C, dims := [(0x100, 16)], rw := 0x000003FF },
    { name := "LF_RX_NUM_S", base := 0x40041010, dims := [(0x100, 16)], ro := 0xFFFFFFFF },
    { name := "LF_RX_NUM_F", base := 0x40041014, dims := [(0x100, 16)], ro := 0x8000FFFF },
    { name := "LF_RX_OFS", base := 0x40041018, dims := [(0x100, 16)], ro := 0xFFFFFFFF },
    { name := "LF_RX_PHASE", base := 0x4004101C, dims := [(0x100, 16)], ro := 0x80003FFF },
    { name := "LF_RX_MISC", base := 0x40041020, dims := [(0x100, 16)], ro := 0x00FF011F },
    { name := "LF_RX_QL", base := 0x40041024, dims := [(0x100, 16)], ro := 0xFFFFFFFF },
    { name := "LF_RX_PROT", base := 0x40041028, dims := [(0x100, 16)], ro := 0xFFFFFFFF },
    { name := "LF_FRAMING_CNT", base := 0x4004102C, dims := [(0x100, 16)], ro := 0xFFFFFFFF } ] ++
  [ { name := "LF_MC_CNT", base := 0x40041030, dims := [(0x100, 16)], ro := 0xFFFFFFFF },
    { name := "LF_PCMD", base := 0x40041034, dims := [(0x100, 16)], wo := 0x00FFFF01 },
    { name := "LF_TX_TRACE", base := 0x40041040, dims := [(0x100, 16), (0x4, 16)], rw := 0xFFFFFFFF, lock := true },
    { name := "LF_RX_TRACE", base := 0x40041080, dims := [(0x100, 16), (0x4, 16)], ro := 0xFFFFFFFF } ]

/-! ### Block XC -/

/-- The registers of block XC (R325, R337, R353). -/
def regsXC : List RegSpec :=
  [ { name := "XC_IDLE", base := 0x40050000, rw := 0x0000FFFF, lock := true },
    { name := "XC_SLICE_STAT", base := 0x40050004, ro := 0xFFFFFFFF, reset := 0x0000000F },
    { name := "XC_EVENT", base := 0x40050008, w1c := 0x000000FF },
    { name := "XC_IRQ_EN", base := 0x4005000C, rw := 0x000000FF },
    { name := "XC_CMD", base := 0x40050010, wo := 0x00000003 },
    { name := "XC_TX_SEL", base := 0x40050100, dims := [(0x10, 16)], rw := 0x0001FFFF, lock := true, veneer := 0x0001FFFF },
    { name := "XC_TX_STAT", base := 0x40050104, dims := [(0x10, 16)], ro := 0x000001FF },
    { name := "XC_TX_SLIP", base := 0x40050108, dims := [(0x10, 16)], ro := 0xFFFFFFFF },
    { name := "XC_RX_SEL", base := 0x40050200, dims := [(0x10, 16)], rw := 0x0003FFFF, lock := true, veneer := 0x0003FFFF, reset := 0x00010000 },
    { name := "XC_RX_STAT", base := 0x40050204, dims := [(0x10, 16)], ro := 0x000007FF },
    { name := "XC_RX_SLIP", base := 0x40050208, dims := [(0x10, 16)], ro := 0xFFFFFFFF },
    { name := "XC_TRIB_CFG", base := 0x40051000, dims := [(0x10, 256)], rw := 0xFFFFFFFF, lock := true, veneer := 0xFFFFFFFF } ] ++
  [ { name := "XC_TRIB_STAT", base := 0x40051004, dims := [(0x10, 256)], ro := 0x000301FF },
    { name := "XC_TRIB_CRC", base := 0x40051008, dims := [(0x10, 256)], ro := 0xFFFFFFFF } ]

/-! ### Block GR -/

/-- The registers of block GR (R385). -/
def regsGR : List RegSpec :=
  [ { name := "GR_EVENT", base := 0x40060000, w1c := 0x000000FF },
    { name := "GR_IRQ_EN", base := 0x40060004, rw := 0x000000FF },
    { name := "GR_G_CFG", base := 0x40060100, dims := [(0x20, 64)], rw := 0xC0FF07FF, lock := true, veneer := 0xC0FF07FF },
    { name := "GR_G_NUM", base := 0x40060104, dims := [(0x20, 64)], rw := 0xFFFFFFFF, lock := true, veneer := 0xFFFFFFFF, reset := 0x00000001 },
    { name := "GR_G_DEN", base := 0x40060108, dims := [(0x20, 64)], rw := 0xFFFFFFFF, lock := true, veneer := 0xFFFFFFFF, reset := 0x00000001 },
    { name := "GR_G_OFS", base := 0x4006010C, dims := [(0x20, 64)], rw := 0xFFFFFFFF, lock := true, veneer := 0xFFFFFFFF },
    { name := "GR_G_SLEW", base := 0x40060110, dims := [(0x20, 64)], rw := 0xFFFFFFFF, lock := true, veneer := 0xFFFFFFFF },
    { name := "GR_G_PRESET", base := 0x40060114, dims := [(0x20, 64)], rw := 0xFFFFFFFF, lock := true, veneer := 0xFFFFFFFF },
    { name := "GR_G_STAT", base := 0x40060118, dims := [(0x20, 64)], ro := 0x00FFFF73 },
    { name := "GR_G_CMD", base := 0x4006011C, dims := [(0x20, 64)], wo := 0x00000003 },
    { name := "GR_R_CFG", base := 0x40061000, dims := [(0x10, 64)], rw := 0x8F30FF07, lock := true, veneer := 0x8F30FF07 },
    { name := "GR_R_STAT", base := 0x40061004, dims := [(0x10, 64)], ro := 0x00FF0FFF, reset := 0x00020000 } ] ++
  [ { name := "GR_R_FLAGS", base := 0x40061008, dims := [(0x10, 64)], w1c := 0x0000001F },
    { name := "GR_R_OUT", base := 0x4006100C, dims := [(0x10, 64)], ro := 0xFFFFFFFF } ]

/-! ### Block QM -/

/-- The registers of block QM (R424). -/
def regsQM : List RegSpec :=
  [ { name := "QM_STATUS", base := 0x40070000, ro := 0x7FFFFFFF, reset := 0x40004000 },
    { name := "QM_EVENT", base := 0x40070004, w1c := 0x000000FF },
    { name := "QM_IRQ_EN", base := 0x40070008, rw := 0x000000FF },
    { name := "QM_STARVE", base := 0x4007000C, rw := 0x0000FFFF, lock := true, reset := 0x00000C35 },
    { name := "QM_RES_SUM", base := 0x40070010, ro := 0x0000FFFF },
    { name := "QM_Q_CFG", base := 0x40071000, dims := [(0x40, 64)], rw := 0xB0FF3000, lock := true },
    { name := "QM_Q_LIM", base := 0x40071004, dims := [(0x40, 64)], rw := 0x7FFF7FFF, lock := true, reset := 0x00900000 },
    { name := "QM_Q_STAT", base := 0x40071008, dims := [(0x40, 64)], ro := 0xE0007FFF },
    { name := "QM_Q_PKTS", base := 0x4007100C, dims := [(0x40, 64)], ro := 0xFFFFFFFF },
    { name := "QM_Q_ENQ_BYTES_LO", base := 0x40071010, dims := [(0x40, 64)], ro := 0xFFFFFFFF },
    { name := "QM_Q_ENQ_BYTES_HI", base := 0x40071014, dims := [(0x40, 64)], ro := 0xFFFFFFFF },
    { name := "QM_Q_DEQ_BYTES_LO", base := 0x40071018, dims := [(0x40, 64)], ro := 0xFFFFFFFF } ] ++
  [ { name := "QM_Q_DEQ_BYTES_HI", base := 0x4007101C, dims := [(0x40, 64)], ro := 0xFFFFFFFF },
    { name := "QM_Q_ENQ_CELLS_LO", base := 0x40071020, dims := [(0x40, 64)], ro := 0xFFFFFFFF },
    { name := "QM_Q_ENQ_CELLS_HI", base := 0x40071024, dims := [(0x40, 64)], ro := 0xFFFFFFFF },
    { name := "QM_Q_FAULT", base := 0x40071028, dims := [(0x40, 64)], ro := 0xFFFFFFFF },
    { name := "QM_Q_LOST", base := 0x4007102C, dims := [(0x40, 64)], ro := 0x0000FFFF },
    { name := "QM_T_RX", base := 0x40073000, dims := [(0x10, 256)], ro := 0xFFFF87FF },
    { name := "QM_T_RXCNT", base := 0x40073004, dims := [(0x10, 256)], ro := 0xFFFFFFFF },
    { name := "QM_T_TX", base := 0x40073008, dims := [(0x10, 256)], ro := 0xFFFFC7FF },
    { name := "QM_T_POS", base := 0x4007300C, dims := [(0x10, 256)], ro := 0x001FFFFF } ]

/-! ### Block CL -/

/-- The registers of block CL (R425). -/
def regsCL : List RegSpec :=
  [ { name := "CL_CFG", base := 0x40080000, dims := [(0x100, 4)], rw := 0xF9BF3F80, lock := true },
    { name := "CL_MAC_LO", base := 0x40080004, dims := [(0x100, 4)], rw := 0xFFFFFFFF, lock := true },
    { name := "CL_MAC_HI", base := 0x40080008, dims := [(0x100, 4)], rw := 0x0000FFFF, lock := true },
    { name := "CL_PAUSE_THR", base := 0x4008000C, dims := [(0x100, 4)], rw := 0x7FFF7FFF, lock := true, reset := 0x02580190 },
    { name := "CL_PAUSE_Q", base := 0x40080010, dims := [(0x100, 4)], rw := 0x0000FFFF, lock := true, reset := 0x0000FFFF },
    { name := "CL_STATUS", base := 0x40080014, dims := [(0x100, 4)], ro := 0x0000031F },
    { name := "CL_EVENT", base := 0x40080018, dims := [(0x100, 4)], w1c := 0x0000001F },
    { name := "CL_IRQ_EN", base := 0x4008001C, dims := [(0x100, 4)], rw := 0x0000001F },
    { name := "CL_VLAN", base := 0x40080040, dims := [(0x100, 4), (0x4, 16)], rw := 0x8FFF003F, lock := true },
    { name := "CL_RX_FRAMES", base := 0x40080080, dims := [(0x100, 4), (0x4, 2)], ro := 0xFFFFFFFF },
    { name := "CL_RX_BYTES", base := 0x40080088, dims := [(0x100, 4), (0x4, 2)], ro := 0xFFFFFFFF },
    { name := "CL_TX_FRAMES", base := 0x40080090, dims := [(0x100, 4), (0x4, 2)], ro := 0xFFFFFFFF } ] ++
  [ { name := "CL_TX_BYTES", base := 0x40080098, dims := [(0x100, 4), (0x4, 2)], ro := 0xFFFFFFFF },
    { name := "CL_RX_FCS_ERR", base := 0x400800A0, dims := [(0x100, 4)], ro := 0xFFFFFFFF },
    { name := "CL_RX_LEN_ERR", base := 0x400800A4, dims := [(0x100, 4)], ro := 0xFFFFFFFF },
    { name := "CL_RX_NOMATCH", base := 0x400800A8, dims := [(0x100, 4)], ro := 0xFFFFFFFF },
    { name := "CL_RX_OVF", base := 0x400800AC, dims := [(0x100, 4)], ro := 0xFFFFFFFF },
    { name := "CL_TX_ERR", base := 0x400800B0, dims := [(0x100, 4)], ro := 0xFFFFFFFF },
    { name := "CL_PAUSE_RX", base := 0x400800B4, dims := [(0x100, 4)], ro := 0xFFFFFFFF },
    { name := "CL_PAUSE_TX", base := 0x400800B8, dims := [(0x100, 4)], ro := 0xFFFFFFFF },
    { name := "CL_RX_CTRL", base := 0x400800BC, dims := [(0x100, 4)], ro := 0xFFFFFFFF },
    { name := "CL_CMD", base := 0x400800C0, dims := [(0x100, 4)], wo := 0x00000001 } ]

/-! ### Block DM -/

/-- The registers of block DM (R454, R457). -/
def regsDM : List RegSpec :=
  [ { name := "DM_CMD", base := 0x40090000, wo := 0x00000003 },
    { name := "DM_EVENT", base := 0x40090004, w1c := 0x0000000F },
    { name := "DM_IRQ_EN", base := 0x40090008, rw := 0x0000000F },
    { name := "DM_PM_SEQ", base := 0x4009000C, ro := 0xFFFFFFFF, reset := 0xFFFFFFFF },
    { name := "DM_PM_PAGE", base := 0x40090010, rw := 0x0000000F },
    { name := "DM_TSET", base := 0x40090020, dims := [(0x4, 8)], w1c := 0xFFFFFFFF },
    { name := "DM_PCFG", base := 0x40091000, dims := [(0x100, 16)], rw := 0xFC000F0F, lock := true, reset := 0x00000705 },
    { name := "DM_PSTATUS", base := 0x40091004, dims := [(0x100, 16)], ro := 0x00033FFF },
    { name := "DM_PRAW", base := 0x40091008, dims := [(0x100, 16)], ro := 0x00003FFF },
    { name := "DM_PEVENT", base := 0x4009100C, dims := [(0x100, 16)], w1c := 0x3FFF3FFF },
    { name := "DM_PIRQ_EN", base := 0x40091010, dims := [(0x100, 16)], rw := 0x3FFF3FFF },
    { name := "DM_BIP_CNT", base := 0x40091014, dims := [(0x100, 16)], ro := 0xFFFFFFFF } ] ++
  [ { name := "DM_REI_CNT", base := 0x40091018, dims := [(0x100, 16)], ro := 0xFFFFFFFF },
    { name := "DM_QL", base := 0x4009101C, dims := [(0x100, 16)], ro := 0x000FFFFF },
    { name := "DM_POCC", base := 0x40091020, dims := [(0x100, 16), (0x4, 7)], ro := 0xFFFFFFFF },
    { name := "DM_EXP_TRACE", base := 0x40091040, dims := [(0x100, 16), (0x4, 16)], rw := 0xFFFFFFFF, lock := true },
    { name := "DM_TDEF", base := 0x40092000, dims := [(0x4, 256)], ro := 0x00000F0F },
    { name := "DM_HIST_SEC", base := 0x40098000, dims := [(0x10, 900), (0x4, 4)], ro := 0xFFFFFFFF },
    { name := "DM_HIST_BIN", base := 0x4009C000, dims := [(0x40, 96), (0x4, 16)], ro := 0xFFFFFFFF },
    { name := "DM_HIST_DAY", base := 0x4009E000, dims := [(0x40, 7), (0x4, 16)], ro := 0xFFFFFFFF },
    { name := "DM_CUR_BIN", base := 0x4009E200, dims := [(0x4, 16)], ro := 0xFFFFFFFF },
    { name := "DM_CUR_DAY", base := 0x4009E240, dims := [(0x4, 16)], ro := 0xFFFFFFFF } ]

/-! ### Block PS -/

/-- The registers of block PS (R494). -/
def regsPS : List RegSpec :=
  [ { name := "PS_MRG_USE", base := 0x400A0000, ro := 0x000000FF },
    { name := "PS_EVENT_SUM", base := 0x400A0004, ro := 0x000000FF },
    { name := "PS_GCFG", base := 0x400A0100, dims := [(0x40, 8)], rw := 0xFEFFBFFF, lock := true, reset := 0x0010012C },
    { name := "PS_RING", base := 0x400A0104, dims := [(0x40, 8)], rw := 0x3F3F3F00, lock := true },
    { name := "PS_RWORK", base := 0x400A0108, dims := [(0x40, 8)], rw := 0x1FFF1FFF, lock := true },
    { name := "PS_RPROT", base := 0x400A010C, dims := [(0x40, 8)], rw := 0x00001FFF, lock := true },
    { name := "PS_GCMD", base := 0x400A0110, dims := [(0x40, 8)], rw := 0x00000103, wo := 0x00010000, veneer := 0x00000103 },
    { name := "PS_GSTAT", base := 0x400A0114, dims := [(0x40, 8)], ro := 0xFF8F8103 },
    { name := "PS_GWTR", base := 0x400A0118, dims := [(0x40, 8)], ro := 0xFFFFFFFF },
    { name := "PS_GEVENT", base := 0x400A011C, dims := [(0x40, 8)], w1c := 0x000007FF },
    { name := "PS_GIRQ_EN", base := 0x400A0120, dims := [(0x40, 8)], rw := 0x000007FF },
    { name := "PS_MRG_RO", base := 0x400A0124, dims := [(0x40, 8)], ro := 0xFFFFFFFF, reset := 0x80000000 } ] ++
  [ { name := "PS_GCNT", base := 0x400A0128, dims := [(0x40, 8)], ro := 0xFFFFFFFF },
    { name := "PS_GTX", base := 0x400A0130, dims := [(0x40, 8), (0x4, 2)], ro := 0xFFFFFFFF },
    { name := "PS_TRIB", base := 0x400A1000, dims := [(0x4, 256)], rw := 0x80000007, ro := 0x00030000, lock := true } ]

/-! ### Block TG -/

/-- The registers of block TG (R511, R528, R537). -/
def regsTG : List RegSpec :=
  [ { name := "TG_GCFG", base := 0x400B0000, rw := 0x00FF3F03, lock := true, reset := 0x000A2002 },
    { name := "TG_HASH_OWN", base := 0x400B0004, rw := 0x000003FF, lock := true },
    { name := "TG_QL_OUT", base := 0x400B0008, ro := 0xFFFFFFFF },
    { name := "TG_QL_FORCE", base := 0x400B000C, rw := 0x8F3F03FF, lock := true },
    { name := "TG_RL_CFG", base := 0x400B0010, rw := 0x0001FFFF, lock := true, reset := 0x00002710 },
    { name := "TG_OUT_OFS", base := 0x400B0014, rw := 0xFFFFFFFF, lock := true },
    { name := "TG_GSTAT", base := 0x400B0018, ro := 0x00000003 },
    { name := "TG_RL_LEFT", base := 0x400B001C, ro := 0xFFFFFFFF },
    { name := "TG_EVENT", base := 0x400B0020, w1c := 0x0000003F },
    { name := "TG_IRQ_EN", base := 0x400B0024, rw := 0x0000003F },
    { name := "TG_T1_OFS", base := 0x400B0028, ro := 0xFFFFFFFF },
    { name := "TG_CK_CFG", base := 0x400B0040, dims := [(0x8, 4)], rw := 0x80FFFFFF, lock := true, veneer := 0x80FFFFFF, reset := 0x00000064 } ] ++
  [ { name := "TG_CK_DLY", base := 0x400B0044, dims := [(0x8, 4)], rw := 0x0000FFFF, lock := true, veneer := 0x0000FFFF },
    { name := "TG_FP_CFG", base := 0x400B0060, dims := [(0x4, 2)], rw := 0xFFFFFFF3, lock := true, veneer := 0xFFFFFFF3, reset := 0x00000010 },
    { name := "TG_D_CTRL", base := 0x400B0100, dims := [(0x80, 2)], rw := 0x1F1F7F1F, lock := true, veneer := 0x1F1F7F1F, reset := 0x00000008 },
    { name := "TG_D_CFG", base := 0x400B0104, dims := [(0x80, 2)], rw := 0x0FFFF1FF, lock := true, veneer := 0x0FFFF1FF, reset := 0x02206188 },
    { name := "TG_D_HO", base := 0x400B0108, dims := [(0x80, 2)], rw := 0xFFFFFFFF, lock := true, veneer := 0xFFFFFFFF, reset := 0x0000003C },
    { name := "TG_D_QL", base := 0x400B010C, dims := [(0x80, 2)], rw := 0x0000FFFF, lock := true, veneer := 0x0000FFFF, reset := 0x00005444 },
    { name := "TG_D_STAT", base := 0x400B0110, dims := [(0x80, 2)], ro := 0xFF781F07, reset := 0xF8001F00 },
    { name := "TG_D_EVENT", base := 0x400B0114, dims := [(0x80, 2)], w1c := 0x0000007F },
    { name := "TG_D_IRQ_EN", base := 0x400B0118, dims := [(0x80, 2)], rw := 0x0000007F },
    { name := "TG_D_HO_SEC", base := 0x400B011C, dims := [(0x80, 2)], ro := 0xFFFFFFFF },
    { name := "TG_D_FREQ", base := 0x400B0120, dims := [(0x80, 2), (0x4, 2)], ro := 0xFFFFFFFF },
    { name := "TG_D_HOFREQ", base := 0x400B0128, dims := [(0x80, 2), (0x4, 2)], ro := 0xFFFFFFFF } ] ++
  [ { name := "TG_D_PHERR", base := 0x400B0130, dims := [(0x80, 2)], ro := 0xFFFFFFFF },
    { name := "TG_D_ABS", base := 0x400B0134, dims := [(0x80, 2), (0x4, 2)], ro := 0xFFFFFFFF },
    { name := "TG_D_ABS_LAST", base := 0x400B013C, dims := [(0x80, 2)], ro := 0xFFFFFFFF },
    { name := "TG_D_STEER_F", base := 0x400B0140, dims := [(0x80, 2), (0x4, 2)], rw := 0xFFFFFFFF },
    { name := "TG_D_STEER_P", base := 0x400B0148, dims := [(0x80, 2)], wo := 0xFFFFFFFF },
    { name := "TG_D_PSLEW", base := 0x400B014C, dims := [(0x80, 2)], rw := 0xFFFFFFFF, reset := 0x000003E8 },
    { name := "TG_D_STEER_LEFT", base := 0x400B0150, dims := [(0x80, 2)], ro := 0xFFFFFFFF },
    { name := "TG_REF_CFG", base := 0x400B0400, dims := [(0x20, 20)], rw := 0xCFFF0FFF, lock := true, veneer := 0xCFFF0FFF, reset := 0x0064003C },
    { name := "TG_REF_SRC", base := 0x400B0404, dims := [(0x20, 20)], rw := 0xF00FF3FF, lock := true, veneer := 0xF00FF3FF },
    { name := "TG_REF_STAT", base := 0x400B0408, dims := [(0x20, 20)], ro := 0x03FF3FF7 },
    { name := "TG_REF_FREQ", base := 0x400B040C, dims := [(0x20, 20)], ro := 0xFFFFFFFF, reset := 0x80000000 },
    { name := "TG_REF_WTR", base := 0x400B0410, dims := [(0x20, 20)], ro := 0xFFFFFFFF } ]

/-! ### Block TD -/

/-- The registers of block TD (R552, R573). -/
def regsTD : List RegSpec :=
  [ { name := "TD_CFG", base := 0x400C0000, rw := 0xFFFFFFF3, lock := true, reset := 0x03E80A00 },
    { name := "TD_PATH", base := 0x400C0004, rw := 0xFFFFFFFF, lock := true },
    { name := "TD_STATUS", base := 0x400C0008, ro := 0x000000F3 },
    { name := "TD_EVENT", base := 0x400C000C, w1c := 0x0000000F },
    { name := "TD_IRQ_EN", base := 0x400C0010, rw := 0x0000000F },
    { name := "TD_NOW_SEC_LO", base := 0x400C0014, ro := 0xFFFFFFFF },
    { name := "TD_NOW_SEC_HI", base := 0x400C0018, ro := 0x0000FFFF },
    { name := "TD_NOW_NS", base := 0x400C001C, ro := 0x3FFFFFFF },
    { name := "TD_NOW_FRAC", base := 0x400C0020, ro := 0x0000FFFF },
    { name := "TD_ERR", base := 0x400C0024, ro := 0xFFFFFFFF },
    { name := "TD_ADJ_LEFT", base := 0x400C0028, ro := 0xFFFFFFFF },
    { name := "TD_CNT", base := 0x400C002C, ro := 0xFFFFFFFF } ]

/-! ### Block KF -/

/-- The registers of block KF (R563, R573). -/
def regsKF : List RegSpec :=
  [ { name := "KF_IV_CFG", base := 0x400D0000, rw := 0xD0001F1F },
    { name := "KF_IV_CMD", base := 0x400D0004, wo := 0x00000003 },
    { name := "KF_IV_STAT", base := 0x400D0008, ro := 0x00001F03 },
    { name := "KF_EARLY_STOP", base := 0x400D000C, ro := 0xFFFFFFFF },
    { name := "KF_INT_CFG", base := 0x400D0010, rw := 0x8000001F },
    { name := "KF_EVENT", base := 0x400D0014, w1c := 0x000000FF },
    { name := "KF_IRQ_EN", base := 0x400D0018, rw := 0x000000FF },
    { name := "KF_OVR_IV", base := 0x400D001C, ro := 0x0000FFFF },
    { name := "KF_IN_CFG", base := 0x400D0100, dims := [(0x20, 4)], rw := 0x00000013 },
    { name := "KF_IN_STAT", base := 0x400D0104, dims := [(0x20, 4)], ro := 0x0000FF1F },
    { name := "KF_DEAD_LOST", base := 0x400D0108, dims := [(0x20, 4)], ro := 0x0000FFFF },
    { name := "KF_OVR", base := 0x400D010C, dims := [(0x20, 4)], ro := 0x0000FFFF } ] ++
  [ { name := "KF_HEAD", base := 0x400D0110, dims := [(0x20, 4), (0x4, 4)], ro := 0xFFFFFFFF },
    { name := "KF_INT_CFG_MIRROR", base := 0x400D0200, ro := 0xFFFFFFFF },
    { name := "KF_INT_STAT", base := 0x400D0204, ro := 0x0000FF1F },
    { name := "KF_INT_DEAD", base := 0x400D0208, ro := 0x0000FFFF },
    { name := "KF_INT_OVR", base := 0x400D020C, ro := 0x0000FFFF },
    { name := "KF_INT_HEAD", base := 0x400D0210, dims := [(0x4, 4)], ro := 0xFFFFFFFF },
    { name := "KF_IV_HEAD", base := 0x400D0300, dims := [(0x4, 4)], ro := 0xFFFFFFFF } ]

/-! ### Block TM -/

/-- The registers of block TM (R573). -/
def regsTM : List RegSpec :=
  [ { name := "TM_CFG", base := 0x400E0000, dims := [(0x100, 8)], rw := 0xE333FF0F, lock := true, veneer := 0xE333FF0F },
    { name := "TM_STAT", base := 0x400E0004, dims := [(0x100, 8)], ro := 0x000000F1 },
    { name := "TM_EVENT", base := 0x400E0008, dims := [(0x100, 8)], w1c := 0x0000001F },
    { name := "TM_IRQ_EN", base := 0x400E000C, dims := [(0x100, 8)], rw := 0x0000001F },
    { name := "TM_CNT", base := 0x400E0010, dims := [(0x100, 8), (0x4, 2)], ro := 0xFFFFFFFF },
    { name := "TM_LOAD", base := 0x400E0018, dims := [(0x100, 8), (0x4, 2)], wo := 0xFFFFFFFF },
    { name := "TM_CMP_LO", base := 0x400E0020, dims := [(0x100, 8), (0x10, 4)], rw := 0xFFFFFFFF, lock := true, veneer := 0xFFFFFFFF },
    { name := "TM_CMP_HI", base := 0x400E0024, dims := [(0x100, 8), (0x10, 4)], rw := 0xFFFFFFFF, lock := true, veneer := 0xFFFFFFFF },
    { name := "TM_INC", base := 0x400E0028, dims := [(0x100, 8), (0x10, 4)], rw := 0xFFFFFFFF, lock := true, veneer := 0xFFFFFFFF } ]

/-! ### Block FE -/

/-- The registers of block FE (R611). -/
def regsFE : List RegSpec :=
  [ { name := "FE_DIE_TEMP", base := 0x400F0000, ro := 0xFFFFFFFF },
    { name := "FE_SPL_VALID", base := 0x400F0004, ro := 0x0000FFFF },
    { name := "FE_EVENT_SUM", base := 0x400F0008, ro := 0x000000FF },
    { name := "FE_CMD", base := 0x400F000C, wo := 0x00000001 },
    { name := "FE_CFG", base := 0x400F0100, dims := [(0x100, 8)], rw := 0xFFFEFFFF, lock := true, reset := 0x0010FA00 },
    { name := "FE_EXC", base := 0x400F0104, dims := [(0x100, 8)], rw := 0xBF7F17FF, lock := true, reset := 0x020803E8 },
    { name := "FE_LEAD", base := 0x400F0108, dims := [(0x100, 8)], rw := 0x000FFFFF, lock := true },
    { name := "FE_CHK", base := 0x400F010C, dims := [(0x100, 8)], rw := 0xFFF70000, lock := true, reset := 0x00020000 },
    { name := "FE_ZLIM", base := 0x400F0110, dims := [(0x100, 8)], rw := 0xFFFFFFFF, lock := true, reset := 0x03E8000A },
    { name := "FE_LEAK", base := 0x400F0114, dims := [(0x100, 8)], rw := 0x0000FFFF, lock := true, reset := 0x000003E8 },
    { name := "FE_STAT", base := 0x400F0120, dims := [(0x100, 8)], ro := 0xE000FFFF },
    { name := "FE_EVENT", base := 0x400F0124, dims := [(0x100, 8)], w1c := 0x0000007F } ] ++
  [ { name := "FE_IRQ_EN", base := 0x400F0128, dims := [(0x100, 8)], rw := 0x0000007F },
    { name := "FE_RAW", base := 0x400F012C, dims := [(0x100, 8)], ro := 0xFFFFFFFF },
    { name := "FE_VAL", base := 0x400F0130, dims := [(0x100, 8)], ro := 0xFFFFFFFF },
    { name := "FE_STAMP_S", base := 0x400F0134, dims := [(0x100, 8)], ro := 0xFFFFFFFF },
    { name := "FE_STAMP_F", base := 0x400F0138, dims := [(0x100, 8)], ro := 0x0000FFFF },
    { name := "FE_ZRES", base := 0x400F0140, dims := [(0x100, 8)], ro := 0xFFFFFFFF },
    { name := "FE_ZPH", base := 0x400F0144, dims := [(0x100, 8)], ro := 0xFFFF0007 },
    { name := "FE_LRES", base := 0x400F0148, dims := [(0x100, 8)], ro := 0xFFFFFFFF },
    { name := "FE_CNT", base := 0x400F014C, dims := [(0x100, 8)], ro := 0xFFFFFFFF },
    { name := "FE_SPL_K", base := 0x400F8000, dims := [(0x200, 16)], rw := 0x0000003F, lock := true },
    { name := "FE_SPL_X", base := 0x400F8100, dims := [(0x200, 16), (0x8, 32)], rw := 0xFFFFFFFF, lock := true },
    { name := "FE_SPL_Y", base := 0x400F8104, dims := [(0x200, 16), (0x8, 32)], rw := 0xFFFFFFFF, lock := true } ]

/-! ### Block BC -/

/-- The registers of block BC (R650). -/
def regsBC : List RegSpec :=
  [ { name := "BC_CTRL", base := 0x40100000, rw := 0x3FFF0001, lock := true, reset := 0x03E80001 },
    { name := "BC_FW_STAT", base := 0x40100004, ro := 0x00FF0317 },
    { name := "BC_FW_VER", base := 0x40100008, ro := 0xFFFFFFFF },
    { name := "BC_STAGE_VER", base := 0x4010000C, ro := 0xFFFFFFFF },
    { name := "BC_STAGE_LEN", base := 0x40100010, ro := 0xFFFFFFFF },
    { name := "BC_ABSENCE", base := 0x40100014, ro := 0xFFFFFFFF },
    { name := "BC_EVENT", base := 0x40100018, w1c := 0x0000003F },
    { name := "BC_IRQ_EN", base := 0x4010001C, rw := 0x0000003F },
    { name := "BC_STAGE_DIGEST", base := 0x40100040, dims := [(0x4, 8)], ro := 0xFFFFFFFF },
    { name := "BC_CORE", base := 0x40100100, dims := [(0x10, 5)], ro := 0x00000F77, reset := 0x00000070 },
    { name := "BC_TAKEOVER_US", base := 0x40100104, dims := [(0x10, 5)], ro := 0xFFFFFFFF } ]

/-! ### Block BM -/

/-- The registers of block BM (R651). -/
def regsBM : List RegSpec :=
  [ { name := "BM_CTRL", base := 0x40110000, ro := 0x00000001 },
    { name := "BM_PRIO_T0", base := 0x40110010, rw := 0x00FFFFFF, lock := true, reset := 0x00844444 },
    { name := "BM_PRIO_T1", base := 0x40110014, rw := 0xFFFFFFFF, lock := true, reset := 0xCA844444 },
    { name := "BM_PRIO_T2", base := 0x40110018, rw := 0xFFF00000, lock := true, reset := 0xCA800000 },
    { name := "BM_PRIO_T3", base := 0x4011001C, rw := 0xF0FFFFFF, lock := true, reset := 0xC0844444 },
    { name := "BM_PRIO_T4", base := 0x40110020, rw := 0xF0FFFFFF, lock := true, reset := 0xC0844444 },
    { name := "BM_PRIO_T5", base := 0x40110024, rw := 0xF0FFFFFF, lock := true, reset := 0xC0844444 },
    { name := "BM_PRIO_T6", base := 0x40110028, rw := 0x00FFFFFF, lock := true, reset := 0x00844444 },
    { name := "BM_PARK", base := 0x40110030, rw := 0x0FFFFFFF, lock := true, reset := 0x00500600 },
    { name := "BM_OUTST", base := 0x40110040, ro := 0x01FF01FF },
    { name := "BM_HOLD_CNT", base := 0x40110044, ro := 0xFFFFFFFF },
    { name := "BM_EVENT", base := 0x40110048, w1c := 0x00000003 } ] ++
  [ { name := "BM_IRQ_EN", base := 0x4011004C, rw := 0x00000003 },
    { name := "BM_ERR_ADDR", base := 0x40110050, ro := 0xFFFFFFFF },
    { name := "BM_ERR_INFO", base := 0x40110054, ro := 0x010707FF } ]

/-! ### Block IC -/

/-- The registers of block IC (R652). -/
def regsIC : List RegSpec :=
  [ { name := "IC_VBASE", base := 0x40120000, ro := 0xFFFFF000 },
    { name := "IC_SWI", base := 0x40120004, wo := 0x0000000F },
    { name := "IC_GCFG", base := 0x40120010, dims := [(0x4, 12)], ro := 0x000FFFFF },
    { name := "IC_CORE", base := 0x40120080, dims := [(0x4, 5)], ro := 0x800F7F0F, reset := 0x00007F00 },
    { name := "IC_EOI", base := 0x401200A0, dims := [(0x4, 5)], ro := 0x0000007F },
    { name := "IC_ACTIVE", base := 0x40120100, dims := [(0x4, 3)], ro := 0xFFFFFFFF },
    { name := "IC_PEND", base := 0x40120110, dims := [(0x4, 3)], ro := 0xFFFFFFFF },
    { name := "IC_HOST_EN", base := 0x40120120, dims := [(0x4, 2)], rw := 0xFFFFFFFF },
    { name := "IC_HOST_EN_2", base := 0x40120128, rw := 0xFFFF0FFF },
    { name := "IC_HOST_STAT", base := 0x40120130, dims := [(0x4, 3)], ro := 0xFFFFFFFF },
    { name := "IC_GCNT", base := 0x40120200, dims := [(0x4, 12)], ro := 0xFFFFFFFF },
    { name := "IC_ROUTE", base := 0x40120400, dims := [(0x4, 96)], ro := 0x0000071F, reset := 0x00000400 } ]

/-! ### Block FA -/

/-- The registers of block FA (R685). -/
def regsFA : List RegSpec :=
  [ { name := "FA_CTRL", base := 0x40130000, rw := 0x00000007, lock := true, reset := 0x00000006 },
    { name := "FA_OPEN", base := 0x40130004, w1c := 0x007FFFFF },
    { name := "FA_ESC", base := 0x40130008, ro := 0x007FFFFF },
    { name := "FA_GSTAT", base := 0x4013000C, ro := 0x00FFFF7F, reset := 0x00FF0000 },
    { name := "FA_ALIVE_CAUSE", base := 0x40130010, ro := 0x000000FF, reset := 0x000000FF },
    { name := "FA_KICK", base := 0x40130014, ro := 0xFFFFFFFF },
    { name := "FA_CLASS_RX", base := 0x40130018, dims := [(0x4, 2)], rw := 0x0000001F, lock := true },
    { name := "FA_UPTIME", base := 0x40130020, ro := 0xFFFFFFFF },
    { name := "FA_LOG_SEQ", base := 0x40130024, ro := 0xFFFFFFFF },
    { name := "FA_LOG_ACKSEQ", base := 0x40130028, rw := 0xFFFFFFFF, reset := 0xFFFFFFFF },
    { name := "FA_LOG_LOST", base := 0x4013002C, ro := 0x0000FFFF },
    { name := "FA_CMD", base := 0x40130030, wo := 0x00000001 } ] ++
  [ { name := "FA_JIG", base := 0x40130040, dims := [(0x4, 14)], ro := 0x00FFFFFF },
    { name := "FA_RP_ROWS", base := 0x40130080, ro := 0x00FFFFFF, reset := 0x00081008 },
    { name := "FA_SRC_CFG", base := 0x40130100, dims := [(0x10, 23)], rw := 0x00010F1F, ro := 0x03000000, lock := true },
    { name := "FA_SRC_CNT", base := 0x40130104, dims := [(0x10, 23)], ro := 0xFFFFFFFF },
    { name := "FA_SRC_TIME", base := 0x40130108, dims := [(0x10, 23)], ro := 0xFFFFFFFF },
    { name := "FA_SRC_INFO", base := 0x4013010C, dims := [(0x10, 23)], ro := 0xFFFFFFFF } ]

/-! ### Block PAIR -/

/-- The registers of block PAIR (R686). -/
def regsPAIR : List RegSpec :=
  [ { name := "PAIR_CFG", base := 0x40140000, dims := [(0x10, 4)], rw := 0xC001FFFF, lock := true, reset := 0x00000020 },
    { name := "PAIR_STAT", base := 0x40140004, dims := [(0x10, 4)], ro := 0xFFFF0037, reset := 0x00000020 },
    { name := "PAIR_CNT", base := 0x40140008, dims := [(0x10, 4)], ro := 0xFFFFFFFF } ]

/-! ### Block XCMAP -/

/-- The registers of block XCMAP (R326). -/
def regsXCMAP : List RegSpec :=
  [ { name := "XC_MAP", base := 0x30000000, dims := [(0x4000, 16), (0x4, 4096)], rw := 0x1FFF01FF, lock := true, veneer := 0x1FFF01FF } ]

/-! ### Block GRMEM -/

/-- The registers of block GRMEM (R385). -/
def regsGRMEM : List RegSpec :=
  [ { name := "GR_STEP", base := 0x38000000, dims := [(0x80, 64), (0x10, 8)], rw := 0xFF001FFF, lock := true, veneer := 0xFF001FFF },
    { name := "GR_STEP", base := 0x38000004, dims := [(0x80, 64), (0x10, 8)], rw := 0xFFFFFFFF, lock := true, veneer := 0xFFFFFFFF },
    { name := "GR_STEP", base := 0x38000008, dims := [(0x80, 64), (0x10, 8)], rw := 0xFFFFFFFF, lock := true, veneer := 0xFFFFFFFF },
    { name := "GR_STEP", base := 0x3800000C, dims := [(0x80, 64), (0x10, 8)], lock := true, veneer := 0xFFFFFFFF },
    { name := "GR_STATE", base := 0x38002000, dims := [(0x20, 64), (0x4, 8)], ro := 0xFFFFFFFF } ]

/-! ### Block FALOG -/

/-- The registers of block FALOG (R682). -/
def regsFALOG : List RegSpec :=
  [ { name := "FA_LOG", base := 0x3C000000, dims := [(0x10, 4096), (0x4, 4)], ro := 0xFFFFFFFF } ]

/-! ### Block ID -/

/-- The registers of block ID (R105). -/
def regsID : List RegSpec :=
  [ { name := "CH_ID_PART", base := 0x70000000, ro := 0xFFFFFFFF, reset := 0x11664B47 },
    { name := "CH_UID", base := 0x70000004, dims := [(0x4, 3)], ro := 0xFFFFFFFF },
    { name := "CH_ASSET", base := 0x70000040, dims := [(0x4, 16)], otp := 0xFFFFFFFF },
    { name := "CH_ASSET_SPENT", base := 0x70000080, ro := 0x0000FFFF } ]

/-! ### Fields -/

namespace F

def MP_CTRL_REMOTE_ACCEPT : Field := { base := 0x40000000, w := 1 }
def MP_CTRL : Field := { base := 0x40000000 }
def MP_REPLY_WIN_WIN : Field := { base := 0x40000004, w := 16 }
def MP_REPLY_WIN : Field := { base := 0x40000004 }
def MP_STATUS_BCAST_DEPTH : Field := { base := 0x40000008, lo := 8, w := 3 }
def MP_STATUS_RESULT_READY : Field := { base := 0x40000008, lo := 3, w := 1 }
def MP_STATUS_WORKING : Field := { base := 0x40000008, lo := 2, w := 1 }
def MP_STATUS_FW_READY : Field := { base := 0x40000008, lo := 1, w := 1 }
def MP_STATUS : Field := { base := 0x40000008 }
def MP_LAST_ERR_VALID : Field := { base := 0x4000000C, lo := 31, w := 1 }
def MP_LAST_ERR_ADDR : Field := { base := 0x4000000C, lo := 24, w := 7 }
def MP_LAST_ERR_OPCODE : Field := { base := 0x4000000C, lo := 16, w := 8 }
def MP_LAST_ERR_TAG : Field := { base := 0x4000000C, lo := 8, w := 8 }
def MP_LAST_ERR_STATUS : Field := { base := 0x4000000C, w := 8 }
def MP_LAST_ERR : Field := { base := 0x4000000C }
def MP_TXN_COUNT : Field := { base := 0x40000010 }
def MP_BAD_CRC_COUNT : Field := { base := 0x40000014, w := 16 }
def MP_BAD_CRC : Field := { base := 0x40000014 }
def MP_BCAST_DROP_COUNT : Field := { base := 0x40000018, w := 16 }
def MP_BCAST_DROP : Field := { base := 0x40000018 }
def MP_LOCK_VIOL_COUNT : Field := { base := 0x4000001C, w := 16 }
def MP_LOCK_VIOL : Field := { base := 0x4000001C }
def MP_CNT_CLR_BAD_CRC : Field := { base := 0x40000020, w := 1 }
def MP_CNT_CLR_BCAST_DROP : Field := { base := 0x40000020, lo := 1, w := 1 }
def MP_CNT_CLR_LOCK_VIOL : Field := { base := 0x40000020, lo := 2, w := 1 }
def MP_CNT_CLR : Field := { base := 0x40000020 }
def MP_IRQ_EN_RESULT_READY_IE : Field := { base := 0x40000024, w := 1 }
def MP_IRQ_EN_LAST_ERR_IE : Field := { base := 0x40000024, lo := 1, w := 1 }
def MP_IRQ_EN : Field := { base := 0x40000024 }

def CH_ADDR_ADDRESSED : Field := { base := 0x40010000, lo := 8, w := 1 }
def CH_ADDR_ADDR : Field := { base := 0x40010000, w := 7 }
def CH_ADDR : Field := { base := 0x40010000 }
def CH_STATUS_ADDR_CONFLICT : Field := { base := 0x40010004, lo := 7, w := 1 }
def CH_STATUS_UPSTREAM_DROP : Field := { base := 0x40010004, lo := 6, w := 1 }
def CH_STATUS_QUIET_IRQ : Field := { base := 0x40010004, lo := 5, w := 1 }
def CH_STATUS_QUIET_DISC : Field := { base := 0x40010004, lo := 4, w := 1 }
def CH_STATUS_DOWEL_OUT : Field := { base := 0x40010004, lo := 1, w := 1 }
def CH_STATUS_DOWEL_IN : Field := { base := 0x40010004, w := 1 }
def CH_STATUS : Field := { base := 0x40010004 }
def CH_ASSIGN_LOG_LAST_BY_ID : Field := { base := 0x40010008, lo := 16, w := 1 }
def CH_ASSIGN_LOG_ASSIGN_COUNT : Field := { base := 0x40010008, w := 16 }
def CH_ASSIGN_LOG : Field := { base := 0x40010008 }

def CF_STATUS_SPARES_LEFT : Field := { base := 0x40020000, lo := 8, w := 5 }
def CF_STATUS_STORE_BUSY : Field := { base := 0x40020000, lo := 7, w := 1 }
def CF_STATUS_BOOT_MODE : Field := { base := 0x40020000, lo := 6, w := 1 }
def CF_STATUS_BOOT_LOAD : Field := { base := 0x40020000, lo := 4, w := 2 }
def CF_STATUS_NEWEST : Field := { base := 0x40020000, lo := 2, w := 1 }
def CF_STATUS_COPY_B_VALID : Field := { base := 0x40020000, lo := 1, w := 1 }
def CF_STATUS_COPY_A_VALID : Field := { base := 0x40020000, w := 1 }
def CF_STATUS : Field := { base := 0x40020000 }
def CF_GEN_A : Field := { base := 0x40020004 }
def CF_GEN_B : Field := { base := 0x40020008 }
def CF_LEN_LEN_B : Field := { base := 0x4002000C, lo := 16, w := 16 }
def CF_LEN_LEN_A : Field := { base := 0x4002000C, w := 16 }
def CF_LEN : Field := { base := 0x4002000C }
def CF_CRC_A : Field := { base := 0x40020010 }
def CF_CRC_B : Field := { base := 0x40020014 }
def CF_STAGE_LEN_LEN : Field := { base := 0x40020018, w := 16 }
def CF_STAGE_LEN : Field := { base := 0x40020018 }
def CF_EVENT_VENEER_APPLIED : Field := { base := 0x40020020, w := 1 }
def CF_EVENT_VENEER_REFUSED : Field := { base := 0x40020020, lo := 1, w := 1 }
def CF_EVENT_VENEER_MISSED : Field := { base := 0x40020020, lo := 2, w := 1 }
def CF_EVENT_PAGE_RETIRED : Field := { base := 0x40020020, lo := 3, w := 1 }
def CF_EVENT_STORE_WORN : Field := { base := 0x40020020, lo := 4, w := 1 }
def CF_EVENT_BOOT_REFUSED : Field := { base := 0x40020020, lo := 5, w := 1 }
def CF_EVENT : Field := { base := 0x40020020 }
def CF_IRQ_EN_EN : Field := { base := 0x40020024, w := 6 }
def CF_IRQ_EN : Field := { base := 0x40020024 }
def CF_STAGE_STATE : Field := { base := 0x40020028 }
def CF_BOOT_CTRL_BOOT_SKIP : Field := { base := 0x4002002C, w := 1 }
def CF_BOOT_CTRL : Field := { base := 0x4002002C }
def CF_STAGE_TS : Field := { base := 0x40020040, s1 := 0x10 }
def CF_STAGE_TF_TF : Field := { base := 0x40020044, s1 := 0x10, w := 16 }
def CF_STAGE_TF : Field := { base := 0x40020044, s1 := 0x10 }
def CF_STAGE_INFO_RESULT : Field := { base := 0x40020048, s1 := 0x10, lo := 24, w := 8 }
def CF_STAGE_INFO_ARM_TAG : Field := { base := 0x40020048, s1 := 0x10, lo := 16, w := 8 }
def CF_STAGE_INFO_ORIGIN : Field := { base := 0x40020048, s1 := 0x10, lo := 8, w := 8 }
def CF_STAGE_INFO : Field := { base := 0x40020048, s1 := 0x10 }
def CF_STAGE_COUNT_COUNT : Field := { base := 0x4002004C, s1 := 0x10, w := 9 }
def CF_STAGE_COUNT : Field := { base := 0x4002004C, s1 := 0x10 }
def CF_PAIR_VSEL_EN : Field := { base := 0x40020080, s1 := 0x4, lo := 31, w := 1 }
def CF_PAIR_VSEL_LAST : Field := { base := 0x40020080, s1 := 0x4, lo := 8, w := 2 }
def CF_PAIR_VSEL_V_ONE : Field := { base := 0x40020080, s1 := 0x4, lo := 4, w := 4 }
def CF_PAIR_VSEL_V_ZERO : Field := { base := 0x40020080, s1 := 0x4, w := 4 }
def CF_PAIR_VSEL : Field := { base := 0x40020080, s1 := 0x4 }
def CF_VSLOT_VALID_VALID : Field := { base := 0x40020090, w := 16 }
def CF_VSLOT_VALID : Field := { base := 0x40020090 }
def CF_WEAR_RETIRED : Field := { base := 0x40020400, s1 := 0x4, lo := 31, w := 1 }
def CF_WEAR_SPARE : Field := { base := 0x40020400, s1 := 0x4, lo := 30, w := 1 }
def CF_WEAR_WRITES : Field := { base := 0x40020400, s1 := 0x4, w := 24 }
def CF_WEAR : Field := { base := 0x40020400, s1 := 0x4 }

def LP_CTRL_LOS_ELEC_EN : Field := { base := 0x40030000, s1 := 0x100, lo := 15, w := 1 }
def LP_CTRL_LOS_PIN_INV : Field := { base := 0x40030000, s1 := 0x100, lo := 14, w := 1 }
def LP_CTRL_LOS_PIN_EN : Field := { base := 0x40030000, s1 := 0x100, lo := 13, w := 1 }
def LP_CTRL_TXDIS_FORCE : Field := { base := 0x40030000, s1 := 0x100, lo := 12, w := 1 }
def LP_CTRL_LOOPBACK : Field := { base := 0x40030000, s1 := 0x100, lo := 8, w := 2 }
def LP_CTRL_RX_INV : Field := { base := 0x40030000, s1 := 0x100, lo := 6, w := 1 }
def LP_CTRL_TX_INV : Field := { base := 0x40030000, s1 := 0x100, lo := 5, w := 1 }
def LP_CTRL_TX_TIMING : Field := { base := 0x40030000, s1 := 0x100, lo := 4, w := 1 }
def LP_CTRL_RATE : Field := { base := 0x40030000, s1 := 0x100, lo := 1, w := 2 }
def LP_CTRL_EN : Field := { base := 0x40030000, s1 := 0x100, w := 1 }
def LP_CTRL : Field := { base := 0x40030000, s1 := 0x100 }
def LP_TXEQ_POST : Field := { base := 0x40030004, s1 := 0x100, lo := 16, w := 5 }
def LP_TXEQ_SWING : Field := { base := 0x40030004, s1 := 0x100, lo := 8, w := 5 }
def LP_TXEQ_PRE : Field := { base := 0x40030004, s1 := 0x100, w := 4 }
def LP_TXEQ : Field := { base := 0x40030004, s1 := 0x100 }
def LP_RXEQ_ADAPT_FREEZE : Field := { base := 0x40030008, s1 := 0x100, lo := 31, w := 1 }
def LP_RXEQ_CTLE_MANUAL : Field := { base := 0x40030008, s1 := 0x100, lo := 16, w := 1 }
def LP_RXEQ_CTLE : Field := { base := 0x40030008, s1 := 0x100, lo := 8, w := 4 }
def LP_RXEQ_DFE_EN : Field := { base := 0x40030008, s1 := 0x100, w := 1 }
def LP_RXEQ : Field := { base := 0x40030008, s1 := 0x100 }
def LP_PRBS_CHK_INV : Field := { base := 0x4003000C, s1 := 0x100, lo := 7, w := 1 }
def LP_PRBS_CHK : Field := { base := 0x4003000C, s1 := 0x100, lo := 4, w := 3 }
def LP_PRBS_GEN_INV : Field := { base := 0x4003000C, s1 := 0x100, lo := 3, w := 1 }
def LP_PRBS_GEN : Field := { base := 0x4003000C, s1 := 0x100, w := 3 }
def LP_PRBS : Field := { base := 0x4003000C, s1 := 0x100 }
def LP_CMD_PRBS_CNT_CLR : Field := { base := 0x40030010, s1 := 0x100, w := 1 }
def LP_CMD_ERR_INJECT : Field := { base := 0x40030010, s1 := 0x100, lo := 1, w := 1 }
def LP_CMD_CV_CNT_CLR : Field := { base := 0x40030010, s1 := 0x100, lo := 2, w := 1 }
def LP_CMD_EYE_START : Field := { base := 0x40030010, s1 := 0x100, lo := 3, w := 1 }
def LP_CMD_EYE_ABORT : Field := { base := 0x40030010, s1 := 0x100, lo := 4, w := 1 }
def LP_CMD : Field := { base := 0x40030010, s1 := 0x100 }
def LP_STATUS_STATE : Field := { base := 0x40030014, s1 := 0x100, lo := 12, w := 3 }
def LP_STATUS_EYE_ABORTED : Field := { base := 0x40030014, s1 := 0x100, lo := 11, w := 1 }
def LP_STATUS_EYE_BUSY : Field := { base := 0x40030014, s1 := 0x100, lo := 10, w := 1 }
def LP_STATUS_LOOP_FALLBACK : Field := { base := 0x40030014, s1 := 0x100, lo := 9, w := 1 }
def LP_STATUS_PRBS_LOCK : Field := { base := 0x40030014, s1 := 0x100, lo := 8, w := 1 }
def LP_STATUS_HI_BER : Field := { base := 0x40030014, s1 := 0x100, lo := 7, w := 1 }
def LP_STATUS_LOS_RAW : Field := { base := 0x40030014, s1 := 0x100, lo := 6, w := 1 }
def LP_STATUS_MOD_TXDIS : Field := { base := 0x40030014, s1 := 0x100, lo := 5, w := 1 }
def LP_STATUS_MOD_LOS : Field := { base := 0x40030014, s1 := 0x100, lo := 4, w := 1 }
def LP_STATUS_SIG_DET : Field := { base := 0x40030014, s1 := 0x100, lo := 3, w := 1 }
def LP_STATUS_RCLK_VALID : Field := { base := 0x40030014, s1 := 0x100, lo := 2, w := 1 }
def LP_STATUS_CODE_SYNC : Field := { base := 0x40030014, s1 := 0x100, lo := 1, w := 1 }
def LP_STATUS_CDR_LOCK : Field := { base := 0x40030014, s1 := 0x100, w := 1 }
def LP_STATUS : Field := { base := 0x40030014, s1 := 0x100 }
def LP_EVENT_LOOP_FALLBACK : Field := { base := 0x40030018, s1 := 0x100, lo := 8, w := 1 }
def LP_EVENT_CAL_FAIL : Field := { base := 0x40030018, s1 := 0x100, lo := 7, w := 1 }
def LP_EVENT_MOD_ERR : Field := { base := 0x40030018, s1 := 0x100, lo := 6, w := 1 }
def LP_EVENT_MOD_DONE : Field := { base := 0x40030018, s1 := 0x100, lo := 5, w := 1 }
def LP_EVENT_EYE_DONE : Field := { base := 0x40030018, s1 := 0x100, lo := 4, w := 1 }
def LP_EVENT_PRBS_LOST : Field := { base := 0x40030018, s1 := 0x100, lo := 3, w := 1 }
def LP_EVENT_LOS_ROSE : Field := { base := 0x40030018, s1 := 0x100, lo := 2, w := 1 }
def LP_EVENT_SYNC_LOST : Field := { base := 0x40030018, s1 := 0x100, lo := 1, w := 1 }
def LP_EVENT_CDR_LOST : Field := { base := 0x40030018, s1 := 0x100, w := 1 }
def LP_EVENT : Field := { base := 0x40030018, s1 := 0x100 }
def LP_IRQ_EN_EN : Field := { base := 0x4003001C, s1 := 0x100, w := 9 }
def LP_IRQ_EN : Field := { base := 0x4003001C, s1 := 0x100 }
def LP_PRBS_ERR : Field := { base := 0x40030020, s1 := 0x100 }
def LP_PRBS_BITS_LO : Field := { base := 0x40030024, s1 := 0x100 }
def LP_PRBS_BITS_HI : Field := { base := 0x40030028, s1 := 0x100 }
def LP_CV_CNT : Field := { base := 0x4003002C, s1 := 0x100 }
def LP_EYE_CTRL_DWELL : Field := { base := 0x40030030, s1 := 0x100, lo := 16, w := 4 }
def LP_EYE_CTRL_VOLT : Field := { base := 0x40030030, s1 := 0x100, lo := 8, w := 7 }
def LP_EYE_CTRL_PHASE : Field := { base := 0x40030030, s1 := 0x100, w := 6 }
def LP_EYE_CTRL : Field := { base := 0x40030030, s1 := 0x100 }
def LP_EYE_ERR : Field := { base := 0x40030034, s1 := 0x100 }
def LP_EYE_BITS : Field := { base := 0x40030038, s1 := 0x100 }
def LP_MOD_CFG_POLL_PERIOD : Field := { base := 0x40030040, s1 := 0x100, lo := 8, w := 8 }
def LP_MOD_CFG_POLL_EN : Field := { base := 0x40030040, s1 := 0x100, lo := 1, w := 1 }
def LP_MOD_CFG_SPEED : Field := { base := 0x40030040, s1 := 0x100, w := 1 }
def LP_MOD_CFG : Field := { base := 0x40030040, s1 := 0x100 }
def LP_MOD_CMD_GO : Field := { base := 0x40030044, s1 := 0x100, lo := 31, w := 1 }
def LP_MOD_CMD_WRITE : Field := { base := 0x40030044, s1 := 0x100, lo := 13, w := 1 }
def LP_MOD_CMD_DEV : Field := { base := 0x40030044, s1 := 0x100, lo := 12, w := 1 }
def LP_MOD_CMD_COUNT : Field := { base := 0x40030044, s1 := 0x100, lo := 8, w := 4 }
def LP_MOD_CMD_OFFSET : Field := { base := 0x40030044, s1 := 0x100, w := 8 }
def LP_MOD_CMD : Field := { base := 0x40030044, s1 := 0x100 }
def LP_MOD_STAT_LAST_POLL : Field := { base := 0x40030048, s1 := 0x100, lo := 4, w := 4 }
def LP_MOD_STAT_RESULT : Field := { base := 0x40030048, s1 := 0x100, lo := 1, w := 3 }
def LP_MOD_STAT_BUSY : Field := { base := 0x40030048, s1 := 0x100, w := 1 }
def LP_MOD_STAT : Field := { base := 0x40030048, s1 := 0x100 }
def LP_MOD_DATA : Field := { base := 0x40030050, s1 := 0x100, s2 := 0x4 }
def LP_MOD_DIAG : Field := { base := 0x40030060, s1 := 0x100, s2 := 0x4 }
def LP_MOD_DIAG_AGE : Field := { base := 0x40030070, s1 := 0x100 }

def LF_NUM_CTRL_MODE : Field := { base := 0x40040000, lo := 8, w := 1 }
def LF_NUM_CTRL_SRC : Field := { base := 0x40040000, w := 4 }
def LF_NUM_CTRL : Field := { base := 0x40040000 }
def LF_NUM_DELAY_D : Field := { base := 0x40040004, w := 24 }
def LF_NUM_DELAY : Field := { base := 0x40040004 }
def LF_NUM_SET_S : Field := { base := 0x40040008 }
def LF_NUM_SET_F_F : Field := { base := 0x4004000C, w := 15 }
def LF_NUM_SET_F : Field := { base := 0x4004000C }
def LF_CMD_NUM_LOAD : Field := { base := 0x40040010, w := 1 }
def LF_CMD_NUM_ADOPT : Field := { base := 0x40040010, lo := 1, w := 1 }
def LF_CMD : Field := { base := 0x40040010 }
def LF_NUM_STATUS_SRC_GOOD : Field := { base := 0x40040014, lo := 5, w := 1 }
def LF_NUM_STATUS_MISMATCH : Field := { base := 0x40040014, lo := 4, w := 1 }
def LF_NUM_STATUS_STATE : Field := { base := 0x40040014, w := 2 }
def LF_NUM_STATUS : Field := { base := 0x40040014 }
def LF_NOW_S : Field := { base := 0x40040018 }
def LF_NOW_F_F : Field := { base := 0x4004001C, w := 15 }
def LF_NOW_F : Field := { base := 0x4004001C }
def LF_FRAME_TOTAL : Field := { base := 0x40040020 }
def LF_NUM_ERR : Field := { base := 0x40040024 }
def LF_EVENT_NUM_LOADED : Field := { base := 0x40040028, w := 1 }
def LF_EVENT_NUM_ADOPTED : Field := { base := 0x40040028, lo := 1, w := 1 }
def LF_EVENT_MISMATCH_SET : Field := { base := 0x40040028, lo := 2, w := 1 }
def LF_EVENT_MISMATCH_CLR : Field := { base := 0x40040028, lo := 3, w := 1 }
def LF_EVENT : Field := { base := 0x40040028 }
def LF_IRQ_EN_EN : Field := { base := 0x4004002C, w := 4 }
def LF_IRQ_EN : Field := { base := 0x4004002C }
def LF_PCTRL_MC_EN : Field := { base := 0x40041000, s1 := 0x100, w := 1 }
def LF_PCTRL : Field := { base := 0x40041000, s1 := 0x100 }
def LF_PSTATUS_INJ_BUSY : Field := { base := 0x40041004, s1 := 0x100, lo := 12, w := 1 }
def LF_PSTATUS_TRACE_VALID : Field := { base := 0x40041004, s1 := 0x100, lo := 10, w := 1 }
def LF_PSTATUS_LOM : Field := { base := 0x40041004, s1 := 0x100, lo := 9, w := 1 }
def LF_PSTATUS_LOF : Field := { base := 0x40041004, s1 := 0x100, lo := 8, w := 1 }
def LF_PSTATUS_IM : Field := { base := 0x40041004, s1 := 0x100, lo := 7, w := 1 }
def LF_PSTATUS_E : Field := { base := 0x40041004, s1 := 0x100, lo := 3, w := 2 }
def LF_PSTATUS_FSTATE : Field := { base := 0x40041004, s1 := 0x100, w := 2 }
def LF_PSTATUS : Field := { base := 0x40041004, s1 := 0x100 }
def LF_PEVENT_MC_DROP : Field := { base := 0x40041008, s1 := 0x100, lo := 9, w := 1 }
def LF_PEVENT_TOD_ERR : Field := { base := 0x40041008, s1 := 0x100, lo := 8, w := 1 }
def LF_PEVENT_TRACE_NEW : Field := { base := 0x40041008, s1 := 0x100, lo := 7, w := 1 }
def LF_PEVENT_IM_LOST : Field := { base := 0x40041008, s1 := 0x100, lo := 6, w := 1 }
def LF_PEVENT_LOM_CLR : Field := { base := 0x40041008, s1 := 0x100, lo := 5, w := 1 }
def LF_PEVENT_LOM_SET : Field := { base := 0x40041008, s1 := 0x100, lo := 4, w := 1 }
def LF_PEVENT_LOF_CLR : Field := { base := 0x40041008, s1 := 0x100, lo := 3, w := 1 }
def LF_PEVENT_LOF_SET : Field := { base := 0x40041008, s1 := 0x100, lo := 2, w := 1 }
def LF_PEVENT_OOF : Field := { base := 0x40041008, s1 := 0x100, lo := 1, w := 1 }
def LF_PEVENT_IN_FRAME : Field := { base := 0x40041008, s1 := 0x100, w := 1 }
def LF_PEVENT : Field := { base := 0x40041008, s1 := 0x100 }
def LF_PIRQ_EN_EN : Field := { base := 0x4004100C, s1 := 0x100, w := 10 }
def LF_PIRQ_EN : Field := { base := 0x4004100C, s1 := 0x100 }
def LF_RX_NUM_S : Field := { base := 0x40041010, s1 := 0x100 }
def LF_RX_NUM_F_VALID : Field := { base := 0x40041014, s1 := 0x100, lo := 31, w := 1 }
def LF_RX_NUM_F_NV : Field := { base := 0x40041014, s1 := 0x100, lo := 15, w := 1 }
def LF_RX_NUM_F_F : Field := { base := 0x40041014, s1 := 0x100, w := 15 }
def LF_RX_NUM_F : Field := { base := 0x40041014, s1 := 0x100 }
def LF_RX_OFS : Field := { base := 0x40041018, s1 := 0x100 }
def LF_RX_PHASE_VALID : Field := { base := 0x4004101C, s1 := 0x100, lo := 31, w := 1 }
def LF_RX_PHASE_PHASE : Field := { base := 0x4004101C, s1 := 0x100, w := 14 }
def LF_RX_PHASE : Field := { base := 0x4004101C, s1 := 0x100 }
def LF_RX_MISC_SMV : Field := { base := 0x40041020, s1 := 0x100, lo := 16, w := 8 }
def LF_RX_MISC_RDI : Field := { base := 0x40041020, s1 := 0x100, lo := 8, w := 1 }
def LF_RX_MISC_REI : Field := { base := 0x40041020, s1 := 0x100, w := 5 }
def LF_RX_MISC : Field := { base := 0x40041020, s1 := 0x100 }
def LF_RX_QL : Field := { base := 0x40041024, s1 := 0x100 }
def LF_RX_PROT : Field := { base := 0x40041028, s1 := 0x100 }
def LF_FRAMING_CNT_OOF_EVENTS : Field := { base := 0x4004102C, s1 := 0x100, lo := 16, w := 16 }
def LF_FRAMING_CNT_ALIGN_ERR : Field := { base := 0x4004102C, s1 := 0x100, w := 16 }
def LF_FRAMING_CNT : Field := { base := 0x4004102C, s1 := 0x100 }
def LF_MC_CNT_MSGS : Field := { base := 0x40041030, s1 := 0x100, lo := 16, w := 16 }
def LF_MC_CNT_DROPS : Field := { base := 0x40041030, s1 := 0x100, w := 16 }
def LF_MC_CNT : Field := { base := 0x40041030, s1 := 0x100 }
def LF_PCMD_CNT_CLR : Field := { base := 0x40041034, s1 := 0x100, w := 1 }
def LF_PCMD_ALIGN_INJ : Field := { base := 0x40041034, s1 := 0x100, lo := 8, w := 8 }
def LF_PCMD_BIP_INJ : Field := { base := 0x40041034, s1 := 0x100, lo := 16, w := 8 }
def LF_PCMD : Field := { base := 0x40041034, s1 := 0x100 }
def LF_TX_TRACE : Field := { base := 0x40041040, s1 := 0x100, s2 := 0x4 }
def LF_RX_TRACE : Field := { base := 0x40041080, s1 := 0x100, s2 := 0x4 }

def XC_IDLE_PATTERN : Field := { base := 0x40050000, w := 16 }
def XC_IDLE : Field := { base := 0x40050000 }
def XC_SLICE_STAT_MISMATCH : Field := { base := 0x40050004, lo := 16, w := 16 }
def XC_SLICE_STAT_ATTEMPTS : Field := { base := 0x40050004, lo := 8, w := 8 }
def XC_SLICE_STAT_FORCED : Field := { base := 0x40050004, lo := 7, w := 1 }
def XC_SLICE_STAT_SPARE_STATE : Field := { base := 0x40050004, lo := 4, w := 3 }
def XC_SLICE_STAT_TARGET : Field := { base := 0x40050004, w := 4 }
def XC_SLICE_STAT : Field := { base := 0x40050004 }
def XC_EVENT_SWAP_DONE : Field := { base := 0x40050008, w := 1 }
def XC_EVENT_SWAP_FAIL : Field := { base := 0x40050008, lo := 1, w := 1 }
def XC_EVENT_RESTORE_DONE : Field := { base := 0x40050008, lo := 2, w := 1 }
def XC_EVENT_SLIP : Field := { base := 0x40050008, lo := 3, w := 1 }
def XC_EVENT_SMV_MISMATCH : Field := { base := 0x40050008, lo := 4, w := 1 }
def XC_EVENT_STALE_SET : Field := { base := 0x40050008, lo := 5, w := 1 }
def XC_EVENT_CRC_ERR : Field := { base := 0x40050008, lo := 6, w := 1 }
def XC_EVENT_MAP_ERR : Field := { base := 0x40050008, lo := 7, w := 1 }
def XC_EVENT : Field := { base := 0x40050008 }
def XC_IRQ_EN_EN : Field := { base := 0x4005000C, w := 8 }
def XC_IRQ_EN : Field := { base := 0x4005000C }
def XC_CMD_SLIP_CLR : Field := { base := 0x40050010, w := 1 }
def XC_CMD_CRC_CLR : Field := { base := 0x40050010, lo := 1, w := 1 }
def XC_CMD : Field := { base := 0x40050010 }
def XC_TX_SEL_ACTIVE : Field := { base := 0x40050100, s1 := 0x10, lo := 16, w := 1 }
def XC_TX_SEL_VER_B : Field := { base := 0x40050100, s1 := 0x10, lo := 8, w := 8 }
def XC_TX_SEL_VER_A : Field := { base := 0x40050100, s1 := 0x10, w := 8 }
def XC_TX_SEL : Field := { base := 0x40050100, s1 := 0x10 }
def XC_TX_STAT_MAP_ERR : Field := { base := 0x40050104, s1 := 0x10, lo := 8, w := 1 }
def XC_TX_STAT_SENT_VER : Field := { base := 0x40050104, s1 := 0x10, w := 8 }
def XC_TX_STAT : Field := { base := 0x40050104, s1 := 0x10 }
def XC_TX_SLIP_SKIPS : Field := { base := 0x40050108, s1 := 0x10, lo := 16, w := 16 }
def XC_TX_SLIP_REPEATS : Field := { base := 0x40050108, s1 := 0x10, w := 16 }
def XC_TX_SLIP : Field := { base := 0x40050108, s1 := 0x10 }
def XC_RX_SEL_ARM_B : Field := { base := 0x40050200, s1 := 0x10, lo := 17, w := 1 }
def XC_RX_SEL_ARM_A : Field := { base := 0x40050200, s1 := 0x10, lo := 16, w := 1 }
def XC_RX_SEL_VER_B : Field := { base := 0x40050200, s1 := 0x10, lo := 8, w := 8 }
def XC_RX_SEL_VER_A : Field := { base := 0x40050200, s1 := 0x10, w := 8 }
def XC_RX_SEL : Field := { base := 0x40050200, s1 := 0x10 }
def XC_RX_STAT_MAP_ERR : Field := { base := 0x40050204, s1 := 0x10, lo := 10, w := 1 }
def XC_RX_STAT_SMV_MISMATCH : Field := { base := 0x40050204, s1 := 0x10, lo := 9, w := 1 }
def XC_RX_STAT_USED_B : Field := { base := 0x40050204, s1 := 0x10, lo := 8, w := 1 }
def XC_RX_STAT_LAST_SMV : Field := { base := 0x40050204, s1 := 0x10, w := 8 }
def XC_RX_STAT : Field := { base := 0x40050204, s1 := 0x10 }
def XC_RX_SLIP_SKIPS : Field := { base := 0x40050208, s1 := 0x10, lo := 16, w := 16 }
def XC_RX_SLIP_REPEATS : Field := { base := 0x40050208, s1 := 0x10, w := 16 }
def XC_RX_SLIP : Field := { base := 0x40050208, s1 := 0x10 }
def XC_TRIB_CFG_TYPE : Field := { base := 0x40051000, s1 := 0x10, lo := 30, w := 2 }
def XC_TRIB_CFG_SRC_KIND : Field := { base := 0x40051000, s1 := 0x10, lo := 27, w := 3 }
def XC_TRIB_CFG_SRC_INDEX : Field := { base := 0x40051000, s1 := 0x10, lo := 21, w := 6 }
def XC_TRIB_CFG_CRC_EN : Field := { base := 0x40051000, s1 := 0x10, lo := 20, w := 1 }
def XC_TRIB_CFG_WD_LIMIT : Field := { base := 0x40051000, s1 := 0x10, lo := 13, w := 7 }
def XC_TRIB_CFG_WIDTH : Field := { base := 0x40051000, s1 := 0x10, w := 13 }
def XC_TRIB_CFG : Field := { base := 0x40051000, s1 := 0x10 }
def XC_TRIB_STAT_MAP_ERR : Field := { base := 0x40051004, s1 := 0x10, lo := 17, w := 1 }
def XC_TRIB_STAT_STALE : Field := { base := 0x40051004, s1 := 0x10, lo := 16, w := 1 }
def XC_TRIB_STAT_FRESH : Field := { base := 0x40051004, s1 := 0x10, lo := 8, w := 1 }
def XC_TRIB_STAT_AGE : Field := { base := 0x40051004, s1 := 0x10, w := 8 }
def XC_TRIB_STAT : Field := { base := 0x40051004, s1 := 0x10 }
def XC_TRIB_CRC : Field := { base := 0x40051008, s1 := 0x10 }

def GR_EVENT_RECAPTURED : Field := { base := 0x40060000, w := 1 }
def GR_EVENT_VEL_SAT : Field := { base := 0x40060000, lo := 1, w := 1 }
def GR_EVENT_IN_ERR : Field := { base := 0x40060000, lo := 2, w := 1 }
def GR_EVENT_RCP_SAT : Field := { base := 0x40060000, lo := 3, w := 1 }
def GR_EVENT_RCP_DZ : Field := { base := 0x40060000, lo := 4, w := 1 }
def GR_EVENT_RCP_CLAMP : Field := { base := 0x40060000, lo := 5, w := 1 }
def GR_EVENT_RCP_LUT : Field := { base := 0x40060000, lo := 6, w := 1 }
def GR_EVENT_RCP_IN_ERR : Field := { base := 0x40060000, lo := 7, w := 1 }
def GR_EVENT : Field := { base := 0x40060000 }
def GR_IRQ_EN_EN : Field := { base := 0x40060004, w := 8 }
def GR_IRQ_EN : Field := { base := 0x40060004 }
def GR_G_CFG_EN : Field := { base := 0x40060100, s1 := 0x20, lo := 31, w := 1 }
def GR_G_CFG_VEL_EN : Field := { base := 0x40060100, s1 := 0x20, lo := 30, w := 1 }
def GR_G_CFG_IN_TRIB : Field := { base := 0x40060100, s1 := 0x20, lo := 16, w := 8 }
def GR_G_CFG_IN_VAL : Field := { base := 0x40060100, s1 := 0x20, lo := 8, w := 3 }
def GR_G_CFG_GAP_LIMIT : Field := { base := 0x40060100, s1 := 0x20, w := 8 }
def GR_G_CFG : Field := { base := 0x40060100, s1 := 0x20 }
def GR_G_NUM : Field := { base := 0x40060104, s1 := 0x20 }
def GR_G_DEN : Field := { base := 0x40060108, s1 := 0x20 }
def GR_G_OFS : Field := { base := 0x4006010C, s1 := 0x20 }
def GR_G_SLEW : Field := { base := 0x40060110, s1 := 0x20 }
def GR_G_PRESET : Field := { base := 0x40060114, s1 := 0x20 }
def GR_G_STAT_AGE : Field := { base := 0x40060118, s1 := 0x20, lo := 16, w := 8 }
def GR_G_STAT_GAP : Field := { base := 0x40060118, s1 := 0x20, lo := 8, w := 8 }
def GR_G_STAT_SLEWING : Field := { base := 0x40060118, s1 := 0x20, lo := 6, w := 1 }
def GR_G_STAT_VEL_SAT : Field := { base := 0x40060118, s1 := 0x20, lo := 5, w := 1 }
def GR_G_STAT_IN_ERR : Field := { base := 0x40060118, s1 := 0x20, lo := 4, w := 1 }
def GR_G_STAT_STATE : Field := { base := 0x40060118, s1 := 0x20, w := 2 }
def GR_G_STAT : Field := { base := 0x40060118, s1 := 0x20 }
def GR_G_CMD_RECAPTURE : Field := { base := 0x4006011C, s1 := 0x20, w := 1 }
def GR_G_CMD_MODE : Field := { base := 0x4006011C, s1 := 0x20, lo := 1, w := 1 }
def GR_G_CMD : Field := { base := 0x4006011C, s1 := 0x20 }
def GR_R_CFG_EN : Field := { base := 0x40061000, s1 := 0x10, lo := 31, w := 1 }
def GR_R_CFG_COUNT : Field := { base := 0x40061000, s1 := 0x10, lo := 24, w := 4 }
def GR_R_CFG_IN_KIND : Field := { base := 0x40061000, s1 := 0x10, lo := 20, w := 2 }
def GR_R_CFG_IN_INDEX : Field := { base := 0x40061000, s1 := 0x10, lo := 8, w := 8 }
def GR_R_CFG_IN_VAL : Field := { base := 0x40061000, s1 := 0x10, w := 3 }
def GR_R_CFG : Field := { base := 0x40061000, s1 := 0x10 }
def GR_R_STAT_LATENCY : Field := { base := 0x40061004, s1 := 0x10, lo := 16, w := 8 }
def GR_R_STAT_FLAGS : Field := { base := 0x40061004, s1 := 0x10, lo := 8, w := 4 }
def GR_R_STAT_AGE : Field := { base := 0x40061004, s1 := 0x10, w := 8 }
def GR_R_STAT : Field := { base := 0x40061004, s1 := 0x10 }
def GR_R_FLAGS_SAT : Field := { base := 0x40061008, s1 := 0x10, w := 1 }
def GR_R_FLAGS_DZ : Field := { base := 0x40061008, s1 := 0x10, lo := 1, w := 1 }
def GR_R_FLAGS_CLAMP : Field := { base := 0x40061008, s1 := 0x10, lo := 2, w := 1 }
def GR_R_FLAGS_LUT : Field := { base := 0x40061008, s1 := 0x10, lo := 3, w := 1 }
def GR_R_FLAGS_IN_ERR : Field := { base := 0x40061008, s1 := 0x10, lo := 4, w := 1 }
def GR_R_FLAGS : Field := { base := 0x40061008, s1 := 0x10 }
def GR_R_OUT : Field := { base := 0x4006100C, s1 := 0x10 }

def QM_STATUS_FREE : Field := { base := 0x40070000, lo := 16, w := 15 }
def QM_STATUS_REBUILDING : Field := { base := 0x40070000, lo := 15, w := 1 }
def QM_STATUS_SHARED : Field := { base := 0x40070000, w := 15 }
def QM_STATUS : Field := { base := 0x40070000 }
def QM_EVENT_PTR_FAULT : Field := { base := 0x40070004, w := 1 }
def QM_EVENT_FREE_FAULT : Field := { base := 0x40070004, lo := 1, w := 1 }
def QM_EVENT_REBUILD_DONE : Field := { base := 0x40070004, lo := 2, w := 1 }
def QM_EVENT_INTAKE_OVF : Field := { base := 0x40070004, lo := 3, w := 1 }
def QM_EVENT_STARVED_SET : Field := { base := 0x40070004, lo := 4, w := 1 }
def QM_EVENT_PKT_ERR : Field := { base := 0x40070004, lo := 5, w := 1 }
def QM_EVENT_STREAM_GAP : Field := { base := 0x40070004, lo := 6, w := 1 }
def QM_EVENT_CFG_ERR : Field := { base := 0x40070004, lo := 7, w := 1 }
def QM_EVENT : Field := { base := 0x40070004 }
def QM_IRQ_EN_EN : Field := { base := 0x40070008, w := 8 }
def QM_IRQ_EN : Field := { base := 0x40070008 }
def QM_STARVE_LIMIT : Field := { base := 0x4007000C, w := 16 }
def QM_STARVE : Field := { base := 0x4007000C }
def QM_RES_SUM_SUM : Field := { base := 0x40070010, w := 16 }
def QM_RES_SUM : Field := { base := 0x40070010 }
def QM_Q_CFG_EN : Field := { base := 0x40071000, s1 := 0x40, lo := 31, w := 1 }
def QM_Q_CFG_PROD_KIND : Field := { base := 0x40071000, s1 := 0x40, lo := 28, w := 2 }
def QM_Q_CFG_PROD_INDEX : Field := { base := 0x40071000, s1 := 0x40, lo := 16, w := 8 }
def QM_Q_CFG_CONS_KIND : Field := { base := 0x40071000, s1 := 0x40, lo := 12, w := 2 }
def QM_Q_CFG : Field := { base := 0x40071000, s1 := 0x40 }
def QM_Q_LIM_MAX : Field := { base := 0x40071004, s1 := 0x40, lo := 16, w := 15 }
def QM_Q_LIM_RES : Field := { base := 0x40071004, s1 := 0x40, w := 15 }
def QM_Q_LIM : Field := { base := 0x40071004, s1 := 0x40 }
def QM_Q_STAT_STATE : Field := { base := 0x40071008, s1 := 0x40, lo := 30, w := 2 }
def QM_Q_STAT_FULL : Field := { base := 0x40071008, s1 := 0x40, lo := 29, w := 1 }
def QM_Q_STAT_CELLS : Field := { base := 0x40071008, s1 := 0x40, w := 15 }
def QM_Q_STAT : Field := { base := 0x40071008, s1 := 0x40 }
def QM_Q_PKTS : Field := { base := 0x4007100C, s1 := 0x40 }
def QM_Q_ENQ_BYTES_LO : Field := { base := 0x40071010, s1 := 0x40 }
def QM_Q_ENQ_BYTES_HI : Field := { base := 0x40071014, s1 := 0x40 }
def QM_Q_DEQ_BYTES_LO : Field := { base := 0x40071018, s1 := 0x40 }
def QM_Q_DEQ_BYTES_HI : Field := { base := 0x4007101C, s1 := 0x40 }
def QM_Q_ENQ_CELLS_LO : Field := { base := 0x40071020, s1 := 0x40 }
def QM_Q_ENQ_CELLS_HI : Field := { base := 0x40071024, s1 := 0x40 }
def QM_Q_FAULT_RESETS : Field := { base := 0x40071028, s1 := 0x40, lo := 16, w := 16 }
def QM_Q_FAULT_PKT_ERR : Field := { base := 0x40071028, s1 := 0x40, w := 16 }
def QM_Q_FAULT : Field := { base := 0x40071028, s1 := 0x40 }
def QM_Q_LOST_LOST : Field := { base := 0x4007102C, s1 := 0x40, w := 16 }
def QM_Q_LOST : Field := { base := 0x4007102C, s1 := 0x40 }
def QM_T_RX_GRANT : Field := { base := 0x40073000, s1 := 0x10, lo := 16, w := 16 }
def QM_T_RX_HUNT : Field := { base := 0x40073000, s1 := 0x10, lo := 15, w := 1 }
def QM_T_RX_FILL : Field := { base := 0x40073000, s1 := 0x10, w := 11 }
def QM_T_RX : Field := { base := 0x40073000, s1 := 0x10 }
def QM_T_RXCNT_GAPS : Field := { base := 0x40073004, s1 := 0x10, lo := 16, w := 16 }
def QM_T_RXCNT_INTAKE_OVF : Field := { base := 0x40073004, s1 := 0x10, w := 16 }
def QM_T_RXCNT : Field := { base := 0x40073004, s1 := 0x10 }
def QM_T_TX_G : Field := { base := 0x40073008, s1 := 0x10, lo := 16, w := 16 }
def QM_T_TX_STARVED : Field := { base := 0x40073008, s1 := 0x10, lo := 15, w := 1 }
def QM_T_TX_CREDIT_SEEN : Field := { base := 0x40073008, s1 := 0x10, lo := 14, w := 1 }
def QM_T_TX_ALLOW : Field := { base := 0x40073008, s1 := 0x10, w := 11 }
def QM_T_TX : Field := { base := 0x40073008, s1 := 0x10 }
def QM_T_POS_POS : Field := { base := 0x4007300C, s1 := 0x10, w := 21 }
def QM_T_POS : Field := { base := 0x4007300C, s1 := 0x10 }

def CL_CFG_EN : Field := { base := 0x40080000, s1 := 0x100, lo := 31, w := 1 }
def CL_CFG_MODE : Field := { base := 0x40080000, s1 := 0x100, lo := 30, w := 1 }
def CL_CFG_AN_EN : Field := { base := 0x40080000, s1 := 0x100, lo := 29, w := 1 }
def CL_CFG_TX_PAUSE_EN : Field := { base := 0x40080000, s1 := 0x100, lo := 28, w := 1 }
def CL_CFG_RX_PAUSE_EN : Field := { base := 0x40080000, s1 := 0x100, lo := 27, w := 1 }
def CL_CFG_CLASS : Field := { base := 0x40080000, s1 := 0x100, lo := 24, w := 1 }
def CL_CFG_DEF_DROP : Field := { base := 0x40080000, s1 := 0x100, lo := 23, w := 1 }
def CL_CFG_DEF_Q : Field := { base := 0x40080000, s1 := 0x100, lo := 16, w := 6 }
def CL_CFG_TXQ : Field := { base := 0x40080000, s1 := 0x100, lo := 8, w := 6 }
def CL_CFG_TX_EN : Field := { base := 0x40080000, s1 := 0x100, lo := 7, w := 1 }
def CL_CFG : Field := { base := 0x40080000, s1 := 0x100 }
def CL_MAC_LO : Field := { base := 0x40080004, s1 := 0x100 }
def CL_MAC_HI_ADDR : Field := { base := 0x40080008, s1 := 0x100, w := 16 }
def CL_MAC_HI : Field := { base := 0x40080008, s1 := 0x100 }
def CL_PAUSE_THR_XON : Field := { base := 0x4008000C, s1 := 0x100, lo := 16, w := 15 }
def CL_PAUSE_THR_XOFF : Field := { base := 0x4008000C, s1 := 0x100, w := 15 }
def CL_PAUSE_THR : Field := { base := 0x4008000C, s1 := 0x100 }
def CL_PAUSE_Q_QUANTA : Field := { base := 0x40080010, s1 := 0x100, w := 16 }
def CL_PAUSE_Q : Field := { base := 0x40080010, s1 := 0x100 }
def CL_STATUS_RX_PAUSE : Field := { base := 0x40080014, s1 := 0x100, lo := 9, w := 1 }
def CL_STATUS_TX_PAUSE : Field := { base := 0x40080014, s1 := 0x100, lo := 8, w := 1 }
def CL_STATUS_PAUSED : Field := { base := 0x40080014, s1 := 0x100, lo := 4, w := 1 }
def CL_STATUS_XOFF_SENT : Field := { base := 0x40080014, s1 := 0x100, lo := 3, w := 1 }
def CL_STATUS_CREF_OK : Field := { base := 0x40080014, s1 := 0x100, lo := 2, w := 1 }
def CL_STATUS_AN_DONE : Field := { base := 0x40080014, s1 := 0x100, lo := 1, w := 1 }
def CL_STATUS_LINK : Field := { base := 0x40080014, s1 := 0x100, w := 1 }
def CL_STATUS : Field := { base := 0x40080014, s1 := 0x100 }
def CL_EVENT_LINK_UP : Field := { base := 0x40080018, s1 := 0x100, w := 1 }
def CL_EVENT_LINK_DOWN : Field := { base := 0x40080018, s1 := 0x100, lo := 1, w := 1 }
def CL_EVENT_CREF_LOST : Field := { base := 0x40080018, s1 := 0x100, lo := 2, w := 1 }
def CL_EVENT_RX_OVF : Field := { base := 0x40080018, s1 := 0x100, lo := 3, w := 1 }
def CL_EVENT_AN_DONE : Field := { base := 0x40080018, s1 := 0x100, lo := 4, w := 1 }
def CL_EVENT : Field := { base := 0x40080018, s1 := 0x100 }
def CL_IRQ_EN_EN : Field := { base := 0x4008001C, s1 := 0x100, w := 5 }
def CL_IRQ_EN : Field := { base := 0x4008001C, s1 := 0x100 }
def CL_VLAN_VALID : Field := { base := 0x40080040, s1 := 0x100, s2 := 0x4, lo := 31, w := 1 }
def CL_VLAN_VID : Field := { base := 0x40080040, s1 := 0x100, s2 := 0x4, lo := 16, w := 12 }
def CL_VLAN_Q : Field := { base := 0x40080040, s1 := 0x100, s2 := 0x4, w := 6 }
def CL_VLAN : Field := { base := 0x40080040, s1 := 0x100, s2 := 0x4 }
def CL_RX_FRAMES : Field := { base := 0x40080080, s1 := 0x100, s2 := 0x4 }
def CL_RX_BYTES : Field := { base := 0x40080088, s1 := 0x100, s2 := 0x4 }
def CL_TX_FRAMES : Field := { base := 0x40080090, s1 := 0x100, s2 := 0x4 }
def CL_TX_BYTES : Field := { base := 0x40080098, s1 := 0x100, s2 := 0x4 }
def CL_RX_FCS_ERR : Field := { base := 0x400800A0, s1 := 0x100 }
def CL_RX_LEN_ERR : Field := { base := 0x400800A4, s1 := 0x100 }
def CL_RX_NOMATCH : Field := { base := 0x400800A8, s1 := 0x100 }
def CL_RX_OVF : Field := { base := 0x400800AC, s1 := 0x100 }
def CL_TX_ERR : Field := { base := 0x400800B0, s1 := 0x100 }
def CL_PAUSE_RX : Field := { base := 0x400800B4, s1 := 0x100 }
def CL_PAUSE_TX : Field := { base := 0x400800B8, s1 := 0x100 }
def CL_RX_CTRL : Field := { base := 0x400800BC, s1 := 0x100 }
def CL_CMD_CNT_CLR : Field := { base := 0x400800C0, s1 := 0x100, w := 1 }
def CL_CMD : Field := { base := 0x400800C0, s1 := 0x100 }

def DM_CMD_CNT_CLR : Field := { base := 0x40090000, w := 1 }
def DM_CMD_PM_RESTART : Field := { base := 0x40090000, lo := 1, w := 1 }
def DM_CMD : Field := { base := 0x40090000 }
def DM_EVENT_TRIB_DEF : Field := { base := 0x40090004, w := 1 }
def DM_EVENT_PM_SECOND : Field := { base := 0x40090004, lo := 1, w := 1 }
def DM_EVENT_PM_BIN : Field := { base := 0x40090004, lo := 2, w := 1 }
def DM_EVENT_PM_DAY : Field := { base := 0x40090004, lo := 3, w := 1 }
def DM_EVENT : Field := { base := 0x40090004 }
def DM_IRQ_EN_EN : Field := { base := 0x40090008, w := 4 }
def DM_IRQ_EN : Field := { base := 0x40090008 }
def DM_PM_SEQ : Field := { base := 0x4009000C }
def DM_PM_PAGE_PAGE : Field := { base := 0x40090010, w := 4 }
def DM_PM_PAGE : Field := { base := 0x40090010 }
def DM_TSET : Field := { base := 0x40090020, s1 := 0x4 }
def DM_PCFG_TIM_EN : Field := { base := 0x40091000, s1 := 0x100, lo := 31, w := 1 }
def DM_PCFG_AIS_ON_TIM : Field := { base := 0x40091000, s1 := 0x100, lo := 30, w := 1 }
def DM_PCFG_RDI_ON_TIM : Field := { base := 0x40091000, s1 := 0x100, lo := 29, w := 1 }
def DM_PCFG_AIS_ON_EXC : Field := { base := 0x40091000, s1 := 0x100, lo := 28, w := 1 }
def DM_PCFG_RDI_FORCE : Field := { base := 0x40091000, s1 := 0x100, lo := 27, w := 1 }
def DM_PCFG_AIS_FORCE : Field := { base := 0x40091000, s1 := 0x100, lo := 26, w := 1 }
def DM_PCFG_SD_EXP : Field := { base := 0x40091000, s1 := 0x100, lo := 8, w := 4 }
def DM_PCFG_EXC_EXP : Field := { base := 0x40091000, s1 := 0x100, w := 4 }
def DM_PCFG : Field := { base := 0x40091000, s1 := 0x100 }
def DM_PSTATUS_SD : Field := { base := 0x40091004, s1 := 0x100, lo := 17, w := 1 }
def DM_PSTATUS_SF : Field := { base := 0x40091004, s1 := 0x100, lo := 16, w := 1 }
def DM_PSTATUS_DEF : Field := { base := 0x40091004, s1 := 0x100, w := 14 }
def DM_PSTATUS : Field := { base := 0x40091004, s1 := 0x100 }
def DM_PRAW_DEF : Field := { base := 0x40091008, s1 := 0x100, w := 14 }
def DM_PRAW : Field := { base := 0x40091008, s1 := 0x100 }
def DM_PEVENT_CLR : Field := { base := 0x4009100C, s1 := 0x100, lo := 16, w := 14 }
def DM_PEVENT_RISE : Field := { base := 0x4009100C, s1 := 0x100, w := 14 }
def DM_PEVENT : Field := { base := 0x4009100C, s1 := 0x100 }
def DM_PIRQ_EN_CLR : Field := { base := 0x40091010, s1 := 0x100, lo := 16, w := 14 }
def DM_PIRQ_EN_RISE : Field := { base := 0x40091010, s1 := 0x100, w := 14 }
def DM_PIRQ_EN : Field := { base := 0x40091010, s1 := 0x100 }
def DM_BIP_CNT : Field := { base := 0x40091014, s1 := 0x100 }
def DM_REI_CNT : Field := { base := 0x40091018, s1 := 0x100 }
def DM_QL_QL : Field := { base := 0x4009101C, s1 := 0x100, lo := 16, w := 4 }
def DM_QL_QL_CHG : Field := { base := 0x4009101C, s1 := 0x100, w := 16 }
def DM_QL : Field := { base := 0x4009101C, s1 := 0x100 }
def DM_POCC_ODD : Field := { base := 0x40091020, s1 := 0x100, s2 := 0x4, lo := 16, w := 16 }
def DM_POCC_EVEN : Field := { base := 0x40091020, s1 := 0x100, s2 := 0x4, w := 16 }
def DM_POCC : Field := { base := 0x40091020, s1 := 0x100, s2 := 0x4 }
def DM_EXP_TRACE : Field := { base := 0x40091040, s1 := 0x100, s2 := 0x4 }
def DM_TDEF_DECL : Field := { base := 0x40092000, s1 := 0x4, lo := 8, w := 4 }
def DM_TDEF_REP : Field := { base := 0x40092000, s1 := 0x4, w := 4 }
def DM_TDEF : Field := { base := 0x40092000, s1 := 0x4 }
def DM_HIST_SEC : Field := { base := 0x40098000, s1 := 0x10, s2 := 0x4 }
def DM_HIST_BIN : Field := { base := 0x4009C000, s1 := 0x40, s2 := 0x4 }
def DM_HIST_DAY : Field := { base := 0x4009E000, s1 := 0x40, s2 := 0x4 }
def DM_CUR_BIN : Field := { base := 0x4009E200, s1 := 0x4 }
def DM_CUR_DAY : Field := { base := 0x4009E240, s1 := 0x4 }

def PS_MRG_USE_USE : Field := { base := 0x400A0000, w := 8 }
def PS_MRG_USE : Field := { base := 0x400A0000 }
def PS_EVENT_SUM_SUM : Field := { base := 0x400A0004, w := 8 }
def PS_EVENT_SUM : Field := { base := 0x400A0004 }
def PS_GCFG_KIND : Field := { base := 0x400A0100, s1 := 0x40, lo := 30, w := 2 }
def PS_GCFG_GID : Field := { base := 0x400A0100, s1 := 0x40, lo := 25, w := 5 }
def PS_GCFG_P1 : Field := { base := 0x400A0100, s1 := 0x40, lo := 20, w := 4 }
def PS_GCFG_P0 : Field := { base := 0x400A0100, s1 := 0x40, lo := 16, w := 4 }
def PS_GCFG_LO_PAIR_EN : Field := { base := 0x400A0100, s1 := 0x40, lo := 15, w := 1 }
def PS_GCFG_LO_PAIR : Field := { base := 0x400A0100, s1 := 0x40, lo := 12, w := 2 }
def PS_GCFG_WTR : Field := { base := 0x400A0100, s1 := 0x40, w := 12 }
def PS_GCFG : Field := { base := 0x400A0100, s1 := 0x40 }
def PS_RING_NODE : Field := { base := 0x400A0104, s1 := 0x40, lo := 24, w := 6 }
def PS_RING_NBR0 : Field := { base := 0x400A0104, s1 := 0x40, lo := 16, w := 6 }
def PS_RING_NBR1 : Field := { base := 0x400A0104, s1 := 0x40, lo := 8, w := 6 }
def PS_RING : Field := { base := 0x400A0104, s1 := 0x40 }
def PS_RWORK_N : Field := { base := 0x400A0108, s1 := 0x40, lo := 16, w := 13 }
def PS_RWORK_WS : Field := { base := 0x400A0108, s1 := 0x40, w := 13 }
def PS_RWORK : Field := { base := 0x400A0108, s1 := 0x40 }
def PS_RPROT_PSL : Field := { base := 0x400A010C, s1 := 0x40, w := 13 }
def PS_RPROT : Field := { base := 0x400A010C, s1 := 0x40 }
def PS_GCMD_END_WTR : Field := { base := 0x400A0110, s1 := 0x40, lo := 16, w := 1 }
def PS_GCMD_SIDE : Field := { base := 0x400A0110, s1 := 0x40, lo := 8, w := 1 }
def PS_GCMD_CMD : Field := { base := 0x400A0110, s1 := 0x40, w := 2 }
def PS_GCMD : Field := { base := 0x400A0110, s1 := 0x40 }
def PS_GSTAT_TOP : Field := { base := 0x400A0114, s1 := 0x40, lo := 28, w := 4 }
def PS_GSTAT_TOP_SIDE : Field := { base := 0x400A0114, s1 := 0x40, lo := 27, w := 1 }
def PS_GSTAT_TOP_FAR : Field := { base := 0x400A0114, s1 := 0x40, lo := 26, w := 1 }
def PS_GSTAT_STATE : Field := { base := 0x400A0114, s1 := 0x40, lo := 24, w := 2 }
def PS_GSTAT_SW_SIDE : Field := { base := 0x400A0114, s1 := 0x40, lo := 23, w := 1 }
def PS_GSTAT_LOCAL : Field := { base := 0x400A0114, s1 := 0x40, lo := 16, w := 4 }
def PS_GSTAT_LOCAL_SIDE : Field := { base := 0x400A0114, s1 := 0x40, lo := 15, w := 1 }
def PS_GSTAT_CFG_ERR : Field := { base := 0x400A0114, s1 := 0x40, lo := 8, w := 1 }
def PS_GSTAT_DDE : Field := { base := 0x400A0114, s1 := 0x40, lo := 1, w := 1 }
def PS_GSTAT_RO_VALID : Field := { base := 0x400A0114, s1 := 0x40, w := 1 }
def PS_GSTAT : Field := { base := 0x400A0114, s1 := 0x40 }
def PS_GWTR : Field := { base := 0x400A0118, s1 := 0x40 }
def PS_GEVENT_SWITCHED : Field := { base := 0x400A011C, s1 := 0x40, w := 1 }
def PS_GEVENT_RESTORED : Field := { base := 0x400A011C, s1 := 0x40, lo := 1, w := 1 }
def PS_GEVENT_WTR_START : Field := { base := 0x400A011C, s1 := 0x40, lo := 2, w := 1 }
def PS_GEVENT_WTR_EXPIRED : Field := { base := 0x400A011C, s1 := 0x40, lo := 3, w := 1 }
def PS_GEVENT_MISMATCH : Field := { base := 0x400A011C, s1 := 0x40, lo := 4, w := 1 }
def PS_GEVENT_PROT_ERR : Field := { base := 0x400A011C, s1 := 0x40, lo := 5, w := 1 }
def PS_GEVENT_DDE_SET : Field := { base := 0x400A011C, s1 := 0x40, lo := 6, w := 1 }
def PS_GEVENT_RO_MOVED : Field := { base := 0x400A011C, s1 := 0x40, lo := 7, w := 1 }
def PS_GEVENT_SEL_CHANGE : Field := { base := 0x400A011C, s1 := 0x40, lo := 8, w := 1 }
def PS_GEVENT_MRG_NONE : Field := { base := 0x400A011C, s1 := 0x40, lo := 9, w := 1 }
def PS_GEVENT_CFG_ERR : Field := { base := 0x400A011C, s1 := 0x40, lo := 10, w := 1 }
def PS_GEVENT : Field := { base := 0x400A011C, s1 := 0x40 }
def PS_GIRQ_EN_EN : Field := { base := 0x400A0120, s1 := 0x40, w := 11 }
def PS_GIRQ_EN : Field := { base := 0x400A0120, s1 := 0x40 }
def PS_MRG_RO : Field := { base := 0x400A0124, s1 := 0x40 }
def PS_GCNT_MOVES : Field := { base := 0x400A0128, s1 := 0x40, lo := 16, w := 16 }
def PS_GCNT_SWITCHES : Field := { base := 0x400A0128, s1 := 0x40, w := 16 }
def PS_GCNT : Field := { base := 0x400A0128, s1 := 0x40 }
def PS_GTX : Field := { base := 0x400A0130, s1 := 0x40, s2 := 0x4 }
def PS_TRIB_MERGE : Field := { base := 0x400A1000, s1 := 0x4, lo := 31, w := 1 }
def PS_TRIB_NONE : Field := { base := 0x400A1000, s1 := 0x4, lo := 17, w := 1 }
def PS_TRIB_SEL : Field := { base := 0x400A1000, s1 := 0x4, lo := 16, w := 1 }
def PS_TRIB_GROUP : Field := { base := 0x400A1000, s1 := 0x4, w := 3 }
def PS_TRIB : Field := { base := 0x400A1000, s1 := 0x4 }

def TG_GCFG_FRAMP : Field := { base := 0x400B0000, lo := 16, w := 8 }
def TG_GCFG_HOP_MAX : Field := { base := 0x400B0000, lo := 8, w := 6 }
def TG_GCFG_DNU_BACK : Field := { base := 0x400B0000, lo := 1, w := 1 }
def TG_GCFG_XO_CLASS : Field := { base := 0x400B0000, w := 1 }
def TG_GCFG : Field := { base := 0x400B0000 }
def TG_HASH_OWN_HASH : Field := { base := 0x400B0004, w := 10 }
def TG_HASH_OWN : Field := { base := 0x400B0004 }
def TG_QL_OUT : Field := { base := 0x400B0008 }
def TG_QL_FORCE_EN : Field := { base := 0x400B000C, lo := 31, w := 1 }
def TG_QL_FORCE_QL : Field := { base := 0x400B000C, lo := 24, w := 4 }
def TG_QL_FORCE_HOP : Field := { base := 0x400B000C, lo := 16, w := 6 }
def TG_QL_FORCE_HASH : Field := { base := 0x400B000C, w := 10 }
def TG_QL_FORCE : Field := { base := 0x400B000C }
def TG_RL_CFG_RL_SLEW : Field := { base := 0x400B0010, w := 17 }
def TG_RL_CFG : Field := { base := 0x400B0010 }
def TG_OUT_OFS : Field := { base := 0x400B0014 }
def TG_GSTAT_REALIGNING : Field := { base := 0x400B0018, lo := 1, w := 1 }
def TG_GSTAT_XO_OK : Field := { base := 0x400B0018, w := 1 }
def TG_GSTAT : Field := { base := 0x400B0018 }
def TG_RL_LEFT : Field := { base := 0x400B001C }
def TG_EVENT_XO_LOST : Field := { base := 0x400B0020, w := 1 }
def TG_EVENT_XO_BACK : Field := { base := 0x400B0020, lo := 1, w := 1 }
def TG_EVENT_RL_DONE : Field := { base := 0x400B0020, lo := 2, w := 1 }
def TG_EVENT_T1_ALIGNED : Field := { base := 0x400B0020, lo := 3, w := 1 }
def TG_EVENT_REF_CHANGE : Field := { base := 0x400B0020, lo := 4, w := 1 }
def TG_EVENT_STEER_CLAMP : Field := { base := 0x400B0020, lo := 5, w := 1 }
def TG_EVENT : Field := { base := 0x400B0020 }
def TG_IRQ_EN_EN : Field := { base := 0x400B0024, w := 6 }
def TG_IRQ_EN : Field := { base := 0x400B0024 }
def TG_T1_OFS : Field := { base := 0x400B0028 }
def TG_CK_CFG_EN : Field := { base := 0x400B0040, s1 := 0x8, lo := 31, w := 1 }
def TG_CK_CFG_DIV : Field := { base := 0x400B0040, s1 := 0x8, w := 24 }
def TG_CK_CFG : Field := { base := 0x400B0040, s1 := 0x8 }
def TG_CK_DLY_DLY : Field := { base := 0x400B0044, s1 := 0x8, w := 16 }
def TG_CK_DLY : Field := { base := 0x400B0044, s1 := 0x8 }
def TG_FP_CFG_POL : Field := { base := 0x400B0060, s1 := 0x4, lo := 31, w := 1 }
def TG_FP_CFG_DLY : Field := { base := 0x400B0060, s1 := 0x4, lo := 18, w := 13 }
def TG_FP_CFG_WIDTH : Field := { base := 0x400B0060, s1 := 0x4, lo := 4, w := 14 }
def TG_FP_CFG_SEL : Field := { base := 0x400B0060, s1 := 0x4, w := 2 }
def TG_FP_CFG : Field := { base := 0x400B0060, s1 := 0x4 }
def TG_D_CTRL_PREF_B : Field := { base := 0x400B0100, s1 := 0x80, lo := 24, w := 5 }
def TG_D_CTRL_PREF_A : Field := { base := 0x400B0100, s1 := 0x80, lo := 16, w := 5 }
def TG_D_CTRL_PAIR : Field := { base := 0x400B0100, s1 := 0x80, lo := 13, w := 2 }
def TG_D_CTRL_FREF : Field := { base := 0x400B0100, s1 := 0x80, lo := 8, w := 5 }
def TG_D_CTRL_LOSS_FREERUN : Field := { base := 0x400B0100, s1 := 0x80, lo := 4, w := 1 }
def TG_D_CTRL_REVERTIVE : Field := { base := 0x400B0100, s1 := 0x80, lo := 3, w := 1 }
def TG_D_CTRL_MODE : Field := { base := 0x400B0100, s1 := 0x80, w := 3 }
def TG_D_CTRL : Field := { base := 0x400B0100, s1 := 0x80 }
def TG_D_CFG_LOCK_WIN : Field := { base := 0x400B0104, s1 := 0x80, lo := 24, w := 4 }
def TG_D_CFG_HO_GRACE : Field := { base := 0x400B0104, s1 := 0x80, lo := 16, w := 8 }
def TG_D_CFG_HO_AVG : Field := { base := 0x400B0104, s1 := 0x80, lo := 12, w := 4 }
def TG_D_CFG_ABSORB : Field := { base := 0x400B0104, s1 := 0x80, lo := 8, w := 1 }
def TG_D_CFG_ACQ_BW : Field := { base := 0x400B0104, s1 := 0x80, lo := 4, w := 4 }
def TG_D_CFG_BW : Field := { base := 0x400B0104, s1 := 0x80, w := 4 }
def TG_D_CFG : Field := { base := 0x400B0104, s1 := 0x80 }
def TG_D_HO : Field := { base := 0x400B0108, s1 := 0x80 }
def TG_D_QL_QL_MIN : Field := { base := 0x400B010C, s1 := 0x80, lo := 12, w := 4 }
def TG_D_QL_QL_STEER : Field := { base := 0x400B010C, s1 := 0x80, lo := 8, w := 4 }
def TG_D_QL_QL_HO : Field := { base := 0x400B010C, s1 := 0x80, lo := 4, w := 4 }
def TG_D_QL_QL_OWN : Field := { base := 0x400B010C, s1 := 0x80, w := 4 }
def TG_D_QL : Field := { base := 0x400B010C, s1 := 0x80 }
def TG_D_STAT_SEL_QL : Field := { base := 0x400B0110, s1 := 0x80, lo := 28, w := 4 }
def TG_D_STAT_BW_USED : Field := { base := 0x400B0110, s1 := 0x80, lo := 24, w := 4 }
def TG_D_STAT_PIN_FALLBACK : Field := { base := 0x400B0110, s1 := 0x80, lo := 22, w := 1 }
def TG_D_STAT_HO_NO_HIST : Field := { base := 0x400B0110, s1 := 0x80, lo := 21, w := 1 }
def TG_D_STAT_HO_SHORT : Field := { base := 0x400B0110, s1 := 0x80, lo := 20, w := 1 }
def TG_D_STAT_HO_OUT_OF_SPEC : Field := { base := 0x400B0110, s1 := 0x80, lo := 19, w := 1 }
def TG_D_STAT_SEL : Field := { base := 0x400B0110, s1 := 0x80, lo := 8, w := 5 }
def TG_D_STAT_STATE : Field := { base := 0x400B0110, s1 := 0x80, w := 3 }
def TG_D_STAT : Field := { base := 0x400B0110, s1 := 0x80 }
def TG_D_EVENT_SWITCHED : Field := { base := 0x400B0114, s1 := 0x80, w := 1 }
def TG_D_EVENT_LOCKED : Field := { base := 0x400B0114, s1 := 0x80, lo := 1, w := 1 }
def TG_D_EVENT_LOCK_LOST : Field := { base := 0x400B0114, s1 := 0x80, lo := 2, w := 1 }
def TG_D_EVENT_BRIDGING : Field := { base := 0x400B0114, s1 := 0x80, lo := 3, w := 1 }
def TG_D_EVENT_HO_ENTER : Field := { base := 0x400B0114, s1 := 0x80, lo := 4, w := 1 }
def TG_D_EVENT_HO_OOS : Field := { base := 0x400B0114, s1 := 0x80, lo := 5, w := 1 }
def TG_D_EVENT_HO_EXIT : Field := { base := 0x400B0114, s1 := 0x80, lo := 6, w := 1 }
def TG_D_EVENT : Field := { base := 0x400B0114, s1 := 0x80 }
def TG_D_IRQ_EN_EN : Field := { base := 0x400B0118, s1 := 0x80, w := 7 }
def TG_D_IRQ_EN : Field := { base := 0x400B0118, s1 := 0x80 }
def TG_D_HO_SEC : Field := { base := 0x400B011C, s1 := 0x80 }
def TG_D_FREQ : Field := { base := 0x400B0120, s1 := 0x80, s2 := 0x4 }
def TG_D_HOFREQ : Field := { base := 0x400B0128, s1 := 0x80, s2 := 0x4 }
def TG_D_PHERR : Field := { base := 0x400B0130, s1 := 0x80 }
def TG_D_ABS : Field := { base := 0x400B0134, s1 := 0x80, s2 := 0x4 }
def TG_D_ABS_LAST : Field := { base := 0x400B013C, s1 := 0x80 }
def TG_D_STEER_F : Field := { base := 0x400B0140, s1 := 0x80, s2 := 0x4 }
def TG_D_STEER_P : Field := { base := 0x400B0148, s1 := 0x80 }
def TG_D_PSLEW : Field := { base := 0x400B014C, s1 := 0x80 }
def TG_D_STEER_LEFT : Field := { base := 0x400B0150, s1 := 0x80 }
def TG_REF_CFG_EN_T0 : Field := { base := 0x400B0400, s1 := 0x20, lo := 31, w := 1 }
def TG_REF_CFG_EN_T1 : Field := { base := 0x400B0400, s1 := 0x20, lo := 30, w := 1 }
def TG_REF_CFG_PRIO : Field := { base := 0x400B0400, s1 := 0x20, lo := 24, w := 4 }
def TG_REF_CFG_WIN : Field := { base := 0x400B0400, s1 := 0x20, lo := 16, w := 8 }
def TG_REF_CFG_WTR : Field := { base := 0x400B0400, s1 := 0x20, w := 12 }
def TG_REF_CFG : Field := { base := 0x400B0400, s1 := 0x20 }
def TG_REF_SRC_QL_OVR : Field := { base := 0x400B0404, s1 := 0x20, lo := 28, w := 4 }
def TG_REF_SRC_FREQ : Field := { base := 0x400B0404, s1 := 0x20, lo := 16, w := 4 }
def TG_REF_SRC_QL : Field := { base := 0x400B0404, s1 := 0x20, lo := 12, w := 4 }
def TG_REF_SRC_HASH : Field := { base := 0x400B0404, s1 := 0x20, w := 10 }
def TG_REF_SRC : Field := { base := 0x400B0404, s1 := 0x20 }
def TG_REF_STAT_HASH : Field := { base := 0x400B0408, s1 := 0x20, lo := 16, w := 10 }
def TG_REF_STAT_HOP : Field := { base := 0x400B0408, s1 := 0x20, lo := 8, w := 6 }
def TG_REF_STAT_EQL : Field := { base := 0x400B0408, s1 := 0x20, lo := 4, w := 4 }
def TG_REF_STAT_ACTIVE : Field := { base := 0x400B0408, s1 := 0x20, lo := 2, w := 1 }
def TG_REF_STAT_QSTATE : Field := { base := 0x400B0408, s1 := 0x20, w := 2 }
def TG_REF_STAT : Field := { base := 0x400B0408, s1 := 0x20 }
def TG_REF_FREQ : Field := { base := 0x400B040C, s1 := 0x20 }
def TG_REF_WTR : Field := { base := 0x400B0410, s1 := 0x20 }

def TD_CFG_SLEW : Field := { base := 0x400C0000, lo := 16, w := 16 }
def TD_CFG_STEP_LIM : Field := { base := 0x400C0000, lo := 8, w := 8 }
def TD_CFG_SRC : Field := { base := 0x400C0000, lo := 4, w := 4 }
def TD_CFG_ROLE : Field := { base := 0x400C0000, w := 2 }
def TD_CFG : Field := { base := 0x400C0000 }
def TD_PATH : Field := { base := 0x400C0004 }
def TD_STATUS_VALID : Field := { base := 0x400C0008, lo := 7, w := 1 }
def TD_STATUS_SET_PENDING : Field := { base := 0x400C0008, lo := 6, w := 1 }
def TD_STATUS_SLEWING : Field := { base := 0x400C0008, lo := 5, w := 1 }
def TD_STATUS_TIME_SET : Field := { base := 0x400C0008, lo := 4, w := 1 }
def TD_STATUS_FSTATE : Field := { base := 0x400C0008, w := 2 }
def TD_STATUS : Field := { base := 0x400C0008 }
def TD_EVENT_SET_DONE : Field := { base := 0x400C000C, w := 1 }
def TD_EVENT_STEPPED : Field := { base := 0x400C000C, lo := 1, w := 1 }
def TD_EVENT_MSG_LOST : Field := { base := 0x400C000C, lo := 2, w := 1 }
def TD_EVENT_ADJ_DONE : Field := { base := 0x400C000C, lo := 3, w := 1 }
def TD_EVENT : Field := { base := 0x400C000C }
def TD_IRQ_EN_EN : Field := { base := 0x400C0010, w := 4 }
def TD_IRQ_EN : Field := { base := 0x400C0010 }
def TD_NOW_SEC_LO : Field := { base := 0x400C0014 }
def TD_NOW_SEC_HI_SEC : Field := { base := 0x400C0018, w := 16 }
def TD_NOW_SEC_HI : Field := { base := 0x400C0018 }
def TD_NOW_NS_NS : Field := { base := 0x400C001C, w := 30 }
def TD_NOW_NS : Field := { base := 0x400C001C }
def TD_NOW_FRAC_FRAC : Field := { base := 0x400C0020, w := 16 }
def TD_NOW_FRAC : Field := { base := 0x400C0020 }
def TD_ERR : Field := { base := 0x400C0024 }
def TD_ADJ_LEFT : Field := { base := 0x400C0028 }
def TD_CNT_STEPS : Field := { base := 0x400C002C, lo := 16, w := 16 }
def TD_CNT_MSGS : Field := { base := 0x400C002C, w := 16 }
def TD_CNT : Field := { base := 0x400C002C }

def KF_IV_CFG_EN : Field := { base := 0x400D0000, lo := 31, w := 1 }
def KF_IV_CFG_CONT : Field := { base := 0x400D0000, lo := 30, w := 1 }
def KF_IV_CFG_MODE : Field := { base := 0x400D0000, lo := 28, w := 1 }
def KF_IV_CFG_STOP_SRC : Field := { base := 0x400D0000, lo := 8, w := 5 }
def KF_IV_CFG_START_SRC : Field := { base := 0x400D0000, w := 5 }
def KF_IV_CFG : Field := { base := 0x400D0000 }
def KF_IV_CMD_ARM : Field := { base := 0x400D0004, w := 1 }
def KF_IV_CMD_CNT_CLR : Field := { base := 0x400D0004, lo := 1, w := 1 }
def KF_IV_CMD : Field := { base := 0x400D0004 }
def KF_IV_STAT_DEPTH : Field := { base := 0x400D0008, lo := 8, w := 5 }
def KF_IV_STAT_STATE : Field := { base := 0x400D0008, w := 2 }
def KF_IV_STAT : Field := { base := 0x400D0008 }
def KF_EARLY_STOP_IGNORED : Field := { base := 0x400D000C, lo := 16, w := 16 }
def KF_EARLY_STOP_EARLY : Field := { base := 0x400D000C, w := 16 }
def KF_EARLY_STOP : Field := { base := 0x400D000C }
def KF_INT_CFG_EN : Field := { base := 0x400D0010, lo := 31, w := 1 }
def KF_INT_CFG_SRC : Field := { base := 0x400D0010, w := 5 }
def KF_INT_CFG : Field := { base := 0x400D0010 }
def KF_EVENT_CAPTURE : Field := { base := 0x400D0014, w := 4 }
def KF_EVENT_INT_CAPTURE : Field := { base := 0x400D0014, lo := 4, w := 1 }
def KF_EVENT_IV_RESULT : Field := { base := 0x400D0014, lo := 5, w := 1 }
def KF_EVENT_OVERRUN : Field := { base := 0x400D0014, lo := 6, w := 1 }
def KF_EVENT_DEAD_LOST : Field := { base := 0x400D0014, lo := 7, w := 1 }
def KF_EVENT : Field := { base := 0x400D0014 }
def KF_IRQ_EN_EN : Field := { base := 0x400D0018, w := 8 }
def KF_IRQ_EN : Field := { base := 0x400D0018 }
def KF_OVR_IV_COUNT : Field := { base := 0x400D001C, w := 16 }
def KF_OVR_IV : Field := { base := 0x400D001C }
def KF_IN_CFG_CAP_EN : Field := { base := 0x400D0100, s1 := 0x20, lo := 4, w := 1 }
def KF_IN_CFG_EDGE : Field := { base := 0x400D0100, s1 := 0x20, w := 2 }
def KF_IN_CFG : Field := { base := 0x400D0100, s1 := 0x20 }
def KF_IN_STAT_NEXT_SEQ : Field := { base := 0x400D0104, s1 := 0x20, lo := 8, w := 8 }
def KF_IN_STAT_DEPTH : Field := { base := 0x400D0104, s1 := 0x20, w := 5 }
def KF_IN_STAT : Field := { base := 0x400D0104, s1 := 0x20 }
def KF_DEAD_LOST_COUNT : Field := { base := 0x400D0108, s1 := 0x20, w := 16 }
def KF_DEAD_LOST : Field := { base := 0x400D0108, s1 := 0x20 }
def KF_OVR_COUNT : Field := { base := 0x400D010C, s1 := 0x20, w := 16 }
def KF_OVR : Field := { base := 0x400D010C, s1 := 0x20 }
def KF_HEAD : Field := { base := 0x400D0110, s1 := 0x20, s2 := 0x4 }
def KF_INT_CFG_MIRROR : Field := { base := 0x400D0200 }
def KF_INT_STAT_NEXT_SEQ : Field := { base := 0x400D0204, lo := 8, w := 8 }
def KF_INT_STAT_DEPTH : Field := { base := 0x400D0204, w := 5 }
def KF_INT_STAT : Field := { base := 0x400D0204 }
def KF_INT_DEAD_COUNT : Field := { base := 0x400D0208, w := 16 }
def KF_INT_DEAD : Field := { base := 0x400D0208 }
def KF_INT_OVR_COUNT : Field := { base := 0x400D020C, w := 16 }
def KF_INT_OVR : Field := { base := 0x400D020C }
def KF_INT_HEAD : Field := { base := 0x400D0210, s1 := 0x4 }
def KF_IV_HEAD : Field := { base := 0x400D0300, s1 := 0x4 }

def TM_CFG_EN : Field := { base := 0x400E0000, s1 := 0x100, lo := 31, w := 1 }
def TM_CFG_OUT_EN : Field := { base := 0x400E0000, s1 := 0x100, lo := 30, w := 1 }
def TM_CFG_OUT_INIT : Field := { base := 0x400E0000, s1 := 0x100, lo := 29, w := 1 }
def TM_CFG_SRC : Field := { base := 0x400E0000, s1 := 0x100, lo := 24, w := 2 }
def TM_CFG_EVT_E : Field := { base := 0x400E0000, s1 := 0x100, lo := 20, w := 2 }
def TM_CFG_OVF_ACT : Field := { base := 0x400E0000, s1 := 0x100, lo := 16, w := 2 }
def TM_CFG_ACT : Field := { base := 0x400E0000, s1 := 0x100, lo := 8, w := 8 }
def TM_CFG_CMP_EN : Field := { base := 0x400E0000, s1 := 0x100, w := 4 }
def TM_CFG : Field := { base := 0x400E0000, s1 := 0x100 }
def TM_STAT_CATCHUP : Field := { base := 0x400E0004, s1 := 0x100, lo := 4, w := 4 }
def TM_STAT_LEVEL : Field := { base := 0x400E0004, s1 := 0x100, w := 1 }
def TM_STAT : Field := { base := 0x400E0004, s1 := 0x100 }
def TM_EVENT_MATCH : Field := { base := 0x400E0008, s1 := 0x100, w := 4 }
def TM_EVENT_OVF : Field := { base := 0x400E0008, s1 := 0x100, lo := 4, w := 1 }
def TM_EVENT : Field := { base := 0x400E0008, s1 := 0x100 }
def TM_IRQ_EN_EN : Field := { base := 0x400E000C, s1 := 0x100, w := 5 }
def TM_IRQ_EN : Field := { base := 0x400E000C, s1 := 0x100 }
def TM_CNT : Field := { base := 0x400E0010, s1 := 0x100, s2 := 0x4 }
def TM_LOAD : Field := { base := 0x400E0018, s1 := 0x100, s2 := 0x4 }
def TM_CMP_LO : Field := { base := 0x400E0020, s1 := 0x100, s2 := 0x10 }
def TM_CMP_HI : Field := { base := 0x400E0024, s1 := 0x100, s2 := 0x10 }
def TM_INC : Field := { base := 0x400E0028, s1 := 0x100, s2 := 0x10 }

def FE_DIE_TEMP : Field := { base := 0x400F0000 }
def FE_SPL_VALID_VALID : Field := { base := 0x400F0004, w := 16 }
def FE_SPL_VALID : Field := { base := 0x400F0004 }
def FE_EVENT_SUM_SUM : Field := { base := 0x400F0008, w := 8 }
def FE_EVENT_SUM : Field := { base := 0x400F0008 }
def FE_CMD_CNT_CLR : Field := { base := 0x400F000C, w := 1 }
def FE_CMD : Field := { base := 0x400F000C }
def FE_CFG_EN : Field := { base := 0x400F0100, s1 := 0x100, lo := 31, w := 1 }
def FE_CFG_MODE : Field := { base := 0x400F0100, s1 := 0x100, lo := 28, w := 3 }
def FE_CFG_RANGE : Field := { base := 0x400F0100, s1 := 0x100, lo := 26, w := 2 }
def FE_CFG_CURVE : Field := { base := 0x400F0100, s1 := 0x100, lo := 21, w := 5 }
def FE_CFG_CJ_SRC : Field := { base := 0x400F0100, s1 := 0x100, lo := 17, w := 4 }
def FE_CFG_PERIOD : Field := { base := 0x400F0100, s1 := 0x100, lo := 8, w := 8 }
def FE_CFG_PHASE : Field := { base := 0x400F0100, s1 := 0x100, w := 8 }
def FE_CFG : Field := { base := 0x400F0100, s1 := 0x100 }
def FE_EXC_CONT : Field := { base := 0x400F0104, s1 := 0x100, lo := 31, w := 1 }
def FE_EXC_LEAD : Field := { base := 0x400F0104, s1 := 0x100, lo := 24, w := 6 }
def FE_EXC_CONV : Field := { base := 0x400F0104, s1 := 0x100, lo := 16, w := 7 }
def FE_EXC_VOLT : Field := { base := 0x400F0104, s1 := 0x100, lo := 12, w := 1 }
def FE_EXC_IEXC : Field := { base := 0x400F0104, s1 := 0x100, w := 11 }
def FE_EXC : Field := { base := 0x400F0104, s1 := 0x100 }
def FE_LEAD_LEAD : Field := { base := 0x400F0108, s1 := 0x100, w := 20 }
def FE_LEAD : Field := { base := 0x400F0108, s1 := 0x100 }
def FE_CHK_CHK_PERIOD : Field := { base := 0x400F010C, s1 := 0x100, lo := 20, w := 12 }
def FE_CHK_TONE : Field := { base := 0x400F010C, s1 := 0x100, lo := 16, w := 3 }
def FE_CHK : Field := { base := 0x400F010C, s1 := 0x100 }
def FE_ZLIM_Z_MAX : Field := { base := 0x400F0110, s1 := 0x100, lo := 16, w := 16 }
def FE_ZLIM_Z_MIN : Field := { base := 0x400F0110, s1 := 0x100, w := 16 }
def FE_ZLIM : Field := { base := 0x400F0110, s1 := 0x100 }
def FE_LEAK_LEAK_MIN : Field := { base := 0x400F0114, s1 := 0x100, w := 16 }
def FE_LEAK : Field := { base := 0x400F0114, s1 := 0x100 }
def FE_STAT_CLAMP_NOW : Field := { base := 0x400F0120, s1 := 0x100, lo := 31, w := 1 }
def FE_STAT_EXC_ON : Field := { base := 0x400F0120, s1 := 0x100, lo := 30, w := 1 }
def FE_STAT_CHK_BUSY : Field := { base := 0x400F0120, s1 := 0x100, lo := 29, w := 1 }
def FE_STAT_WORD5 : Field := { base := 0x400F0120, s1 := 0x100, w := 16 }
def FE_STAT : Field := { base := 0x400F0120, s1 := 0x100 }
def FE_EVENT_SAMPLE : Field := { base := 0x400F0124, s1 := 0x100, w := 1 }
def FE_EVENT_CLAMP : Field := { base := 0x400F0124, s1 := 0x100, lo := 1, w := 1 }
def FE_EVENT_OVR : Field := { base := 0x400F0124, s1 := 0x100, lo := 2, w := 1 }
def FE_EVENT_EXC_FAULT : Field := { base := 0x400F0124, s1 := 0x100, lo := 3, w := 1 }
def FE_EVENT_CHK_DONE : Field := { base := 0x400F0124, s1 := 0x100, lo := 4, w := 1 }
def FE_EVENT_CHK_FAULT : Field := { base := 0x400F0124, s1 := 0x100, lo := 5, w := 1 }
def FE_EVENT_SKIP : Field := { base := 0x400F0124, s1 := 0x100, lo := 6, w := 1 }
def FE_EVENT : Field := { base := 0x400F0124, s1 := 0x100 }
def FE_IRQ_EN_EN : Field := { base := 0x400F0128, s1 := 0x100, w := 7 }
def FE_IRQ_EN : Field := { base := 0x400F0128, s1 := 0x100 }
def FE_RAW : Field := { base := 0x400F012C, s1 := 0x100 }
def FE_VAL : Field := { base := 0x400F0130, s1 := 0x100 }
def FE_STAMP_S : Field := { base := 0x400F0134, s1 := 0x100 }
def FE_STAMP_F_NV : Field := { base := 0x400F0138, s1 := 0x100, lo := 15, w := 1 }
def FE_STAMP_F_F : Field := { base := 0x400F0138, s1 := 0x100, w := 15 }
def FE_STAMP_F : Field := { base := 0x400F0138, s1 := 0x100 }
def FE_ZRES : Field := { base := 0x400F0140, s1 := 0x100 }
def FE_ZPH_PHASE : Field := { base := 0x400F0144, s1 := 0x100, lo := 16, w := 16 }
def FE_ZPH_VERDICT : Field := { base := 0x400F0144, s1 := 0x100, w := 3 }
def FE_ZPH : Field := { base := 0x400F0144, s1 := 0x100 }
def FE_LRES : Field := { base := 0x400F0148, s1 := 0x100 }
def FE_CNT_SKIPS : Field := { base := 0x400F014C, s1 := 0x100, lo := 16, w := 16 }
def FE_CNT_OVR : Field := { base := 0x400F014C, s1 := 0x100, w := 16 }
def FE_CNT : Field := { base := 0x400F014C, s1 := 0x100 }
def FE_SPL_K_K : Field := { base := 0x400F8000, s1 := 0x200, w := 6 }
def FE_SPL_K : Field := { base := 0x400F8000, s1 := 0x200 }
def FE_SPL_X : Field := { base := 0x400F8100, s1 := 0x200, s2 := 0x8 }
def FE_SPL_Y : Field := { base := 0x400F8104, s1 := 0x200, s2 := 0x8 }

def BC_CTRL_WD_LIMIT : Field := { base := 0x40100000, lo := 16, w := 14 }
def BC_CTRL_AUTO_PROMOTE : Field := { base := 0x40100000, w := 1 }
def BC_CTRL : Field := { base := 0x40100000 }
def BC_FW_STAT_RESULT : Field := { base := 0x40100004, lo := 16, w := 8 }
def BC_FW_STAT_LAST_SWAP : Field := { base := 0x40100004, lo := 8, w := 2 }
def BC_FW_STAT_SOURCE : Field := { base := 0x40100004, lo := 4, w := 1 }
def BC_FW_STAT_STAGE : Field := { base := 0x40100004, w := 3 }
def BC_FW_STAT : Field := { base := 0x40100004 }
def BC_FW_VER : Field := { base := 0x40100008 }
def BC_STAGE_VER : Field := { base := 0x4010000C }
def BC_STAGE_LEN : Field := { base := 0x40100010 }
def BC_ABSENCE : Field := { base := 0x40100014 }
def BC_EVENT_TAKEOVER_DONE : Field := { base := 0x40100018, w := 1 }
def BC_EVENT_CORE_FAIL : Field := { base := 0x40100018, lo := 1, w := 1 }
def BC_EVENT_VERIFY_DONE : Field := { base := 0x40100018, lo := 2, w := 1 }
def BC_EVENT_SWAP_DONE : Field := { base := 0x40100018, lo := 3, w := 1 }
def BC_EVENT_SWAP_REVERTED : Field := { base := 0x40100018, lo := 4, w := 1 }
def BC_EVENT_SPARE_LOST : Field := { base := 0x40100018, lo := 5, w := 1 }
def BC_EVENT : Field := { base := 0x40100018 }
def BC_IRQ_EN_EN : Field := { base := 0x4010001C, w := 6 }
def BC_IRQ_EN : Field := { base := 0x4010001C }
def BC_STAGE_DIGEST : Field := { base := 0x40100040, s1 := 0x4 }
def BC_CORE_CAUSE : Field := { base := 0x40100100, s1 := 0x10, lo := 8, w := 4 }
def BC_CORE_STANDS_FOR : Field := { base := 0x40100100, s1 := 0x10, lo := 4, w := 3 }
def BC_CORE_STATE : Field := { base := 0x40100100, s1 := 0x10, w := 3 }
def BC_CORE : Field := { base := 0x40100100, s1 := 0x10 }
def BC_TAKEOVER_US : Field := { base := 0x40100104, s1 := 0x10 }

def BM_CTRL_REMAP : Field := { base := 0x40110000, w := 1 }
def BM_CTRL : Field := { base := 0x40110000 }
def BM_PRIO_T0_PRIO : Field := { base := 0x40110010, w := 24 }
def BM_PRIO_T0 : Field := { base := 0x40110010 }
def BM_PRIO_T1 : Field := { base := 0x40110014 }
def BM_PRIO_T2_PRIO : Field := { base := 0x40110018, lo := 20, w := 12 }
def BM_PRIO_T2 : Field := { base := 0x40110018 }
def BM_PRIO_T3_PRIO_R : Field := { base := 0x4011001C, lo := 28, w := 4 }
def BM_PRIO_T3_PRIO : Field := { base := 0x4011001C, w := 24 }
def BM_PRIO_T3 : Field := { base := 0x4011001C }
def BM_PRIO_T4_PRIO_R : Field := { base := 0x40110020, lo := 28, w := 4 }
def BM_PRIO_T4_PRIO : Field := { base := 0x40110020, w := 24 }
def BM_PRIO_T4 : Field := { base := 0x40110020 }
def BM_PRIO_T5_PRIO_R : Field := { base := 0x40110024, lo := 28, w := 4 }
def BM_PRIO_T5_PRIO : Field := { base := 0x40110024, w := 24 }
def BM_PRIO_T5 : Field := { base := 0x40110024 }
def BM_PRIO_T6_PRIO : Field := { base := 0x40110028, w := 24 }
def BM_PRIO_T6 : Field := { base := 0x40110028 }
def BM_PARK_PARK : Field := { base := 0x40110030, w := 28 }
def BM_PARK : Field := { base := 0x40110030 }
def BM_OUTST_PEAK : Field := { base := 0x40110040, lo := 16, w := 9 }
def BM_OUTST_NOW : Field := { base := 0x40110040, w := 9 }
def BM_OUTST : Field := { base := 0x40110040 }
def BM_HOLD_CNT : Field := { base := 0x40110044 }
def BM_EVENT_PATH_ERR : Field := { base := 0x40110048, w := 1 }
def BM_EVENT_DECODE_ERR : Field := { base := 0x40110048, lo := 1, w := 1 }
def BM_EVENT : Field := { base := 0x40110048 }
def BM_IRQ_EN_EN : Field := { base := 0x4011004C, w := 2 }
def BM_IRQ_EN : Field := { base := 0x4011004C }
def BM_ERR_ADDR : Field := { base := 0x40110050 }
def BM_ERR_INFO_WRITE : Field := { base := 0x40110054, lo := 24, w := 1 }
def BM_ERR_INFO_MASTER : Field := { base := 0x40110054, lo := 16, w := 3 }
def BM_ERR_INFO_TARGET : Field := { base := 0x40110054, lo := 8, w := 3 }
def BM_ERR_INFO_ID : Field := { base := 0x40110054, w := 8 }
def BM_ERR_INFO : Field := { base := 0x40110054 }

def IC_VBASE_BASE : Field := { base := 0x40120000, lo := 12, w := 20 }
def IC_VBASE : Field := { base := 0x40120000 }
def IC_SWI_SWI : Field := { base := 0x40120004, w := 4 }
def IC_SWI : Field := { base := 0x40120004 }
def IC_GCFG_PRIO : Field := { base := 0x40120010, s1 := 0x4, lo := 16, w := 4 }
def IC_GCFG_HOLDOFF : Field := { base := 0x40120010, s1 := 0x4, w := 16 }
def IC_GCFG : Field := { base := 0x40120010, s1 := 0x4 }
def IC_CORE_IE : Field := { base := 0x40120080, s1 := 0x4, lo := 31, w := 1 }
def IC_CORE_RUNPRIO : Field := { base := 0x40120080, s1 := 0x4, lo := 16, w := 4 }
def IC_CORE_INNER : Field := { base := 0x40120080, s1 := 0x4, lo := 8, w := 7 }
def IC_CORE_DEPTH : Field := { base := 0x40120080, s1 := 0x4, w := 4 }
def IC_CORE : Field := { base := 0x40120080, s1 := 0x4 }
def IC_EOI_SRC : Field := { base := 0x401200A0, s1 := 0x4, w := 7 }
def IC_EOI : Field := { base := 0x401200A0, s1 := 0x4 }
def IC_ACTIVE : Field := { base := 0x40120100, s1 := 0x4 }
def IC_PEND : Field := { base := 0x40120110, s1 := 0x4 }
def IC_HOST_EN : Field := { base := 0x40120120, s1 := 0x4 }
def IC_HOST_EN_2_FA : Field := { base := 0x40120128, lo := 16, w := 16 }
def IC_HOST_EN_2_EN : Field := { base := 0x40120128, w := 12 }
def IC_HOST_EN_2 : Field := { base := 0x40120128 }
def IC_HOST_STAT : Field := { base := 0x40120130, s1 := 0x4 }
def IC_GCNT_DEFERRED : Field := { base := 0x40120200, s1 := 0x4, lo := 16, w := 16 }
def IC_GCNT_DELIVERED : Field := { base := 0x40120200, s1 := 0x4, w := 16 }
def IC_GCNT : Field := { base := 0x40120200, s1 := 0x4 }
def IC_ROUTE_LAST : Field := { base := 0x40120400, s1 := 0x4, lo := 8, w := 3 }
def IC_ROUTE_CORES : Field := { base := 0x40120400, s1 := 0x4, w := 5 }
def IC_ROUTE : Field := { base := 0x40120400, s1 := 0x4 }

def FA_CTRL_JIG_EN : Field := { base := 0x40130000, w := 1 }
def FA_CTRL_AUTO_SLICE : Field := { base := 0x40130000, lo := 1, w := 1 }
def FA_CTRL_AUTO_ROW : Field := { base := 0x40130000, lo := 2, w := 1 }
def FA_CTRL : Field := { base := 0x40130000 }
def FA_OPEN_OPEN : Field := { base := 0x40130004, w := 23 }
def FA_OPEN : Field := { base := 0x40130004 }
def FA_ESC_ESC : Field := { base := 0x40130008, w := 23 }
def FA_ESC : Field := { base := 0x40130008 }
def FA_GSTAT_CAUSE_Z : Field := { base := 0x4013000C, lo := 16, w := 8 }
def FA_GSTAT_LAST_RESET : Field := { base := 0x4013000C, lo := 8, w := 8 }
def FA_GSTAT_OPEN_CLASS : Field := { base := 0x4013000C, lo := 4, w := 3 }
def FA_GSTAT_LEVEL : Field := { base := 0x4013000C, lo := 3, w := 1 }
def FA_GSTAT_ALIVE : Field := { base := 0x4013000C, w := 3 }
def FA_GSTAT : Field := { base := 0x4013000C }
def FA_ALIVE_CAUSE_Z : Field := { base := 0x40130010, w := 8 }
def FA_ALIVE_CAUSE : Field := { base := 0x40130010 }
def FA_KICK : Field := { base := 0x40130014 }
def FA_CLASS_RX_RX : Field := { base := 0x40130018, s1 := 0x4, w := 5 }
def FA_CLASS_RX : Field := { base := 0x40130018, s1 := 0x4 }
def FA_UPTIME : Field := { base := 0x40130020 }
def FA_LOG_SEQ : Field := { base := 0x40130024 }
def FA_LOG_ACKSEQ : Field := { base := 0x40130028 }
def FA_LOG_LOST_LOST : Field := { base := 0x4013002C, w := 16 }
def FA_LOG_LOST : Field := { base := 0x4013002C }
def FA_CMD_CNT_CLR : Field := { base := 0x40130030, w := 1 }
def FA_CMD : Field := { base := 0x40130030 }
def FA_JIG_LEFT : Field := { base := 0x40130040, s1 := 0x4, lo := 16, w := 8 }
def FA_JIG_MASK : Field := { base := 0x40130040, s1 := 0x4, w := 16 }
def FA_JIG : Field := { base := 0x40130040, s1 := 0x4 }
def FA_RP_ROWS_R2 : Field := { base := 0x40130080, lo := 16, w := 8 }
def FA_RP_ROWS_R1 : Field := { base := 0x40130080, lo := 8, w := 8 }
def FA_RP_ROWS_R0 : Field := { base := 0x40130080, w := 8 }
def FA_RP_ROWS : Field := { base := 0x40130080 }
def FA_SRC_CFG_CLASS : Field := { base := 0x40130100, s1 := 0x10, lo := 24, w := 2 }
def FA_SRC_CFG_AUTO_ACK : Field := { base := 0x40130100, s1 := 0x10, lo := 16, w := 1 }
def FA_SRC_CFG_LINE : Field := { base := 0x40130100, s1 := 0x10, lo := 8, w := 4 }
def FA_SRC_CFG_RX : Field := { base := 0x40130100, s1 := 0x10, w := 5 }
def FA_SRC_CFG : Field := { base := 0x40130100, s1 := 0x10 }
def FA_SRC_CNT_ESCALATIONS : Field := { base := 0x40130104, s1 := 0x10, lo := 16, w := 16 }
def FA_SRC_CNT_OCCURRENCES : Field := { base := 0x40130104, s1 := 0x10, w := 16 }
def FA_SRC_CNT : Field := { base := 0x40130104, s1 := 0x10 }
def FA_SRC_TIME : Field := { base := 0x40130108, s1 := 0x10 }
def FA_SRC_INFO : Field := { base := 0x4013010C, s1 := 0x10 }

def PAIR_CFG_FUNC : Field := { base := 0x40140000, s1 := 0x10, lo := 30, w := 2 }
def PAIR_CFG_ANTI : Field := { base := 0x40140000, s1 := 0x10, lo := 16, w := 1 }
def PAIR_CFG_D : Field := { base := 0x40140000, s1 := 0x10, w := 16 }
def PAIR_CFG : Field := { base := 0x40140000, s1 := 0x10 }
def PAIR_STAT_COUNT : Field := { base := 0x40140004, s1 := 0x10, lo := 16, w := 16 }
def PAIR_STAT_STATE : Field := { base := 0x40140004, s1 := 0x10, lo := 4, w := 2 }
def PAIR_STAT_AGREED : Field := { base := 0x40140004, s1 := 0x10, lo := 2, w := 1 }
def PAIR_STAT_B : Field := { base := 0x40140004, s1 := 0x10, lo := 1, w := 1 }
def PAIR_STAT_A : Field := { base := 0x40140004, s1 := 0x10, w := 1 }
def PAIR_STAT : Field := { base := 0x40140004, s1 := 0x10 }
def PAIR_CNT_DISC : Field := { base := 0x40140008, s1 := 0x10, lo := 16, w := 16 }
def PAIR_CNT_CHANGES : Field := { base := 0x40140008, s1 := 0x10, w := 16 }
def PAIR_CNT : Field := { base := 0x40140008, s1 := 0x10 }

def XC_MAP_COUNT : Field := { base := 0x30000000, s1 := 0x4000, s2 := 0x4, lo := 16, w := 13 }
def XC_MAP_TRIB : Field := { base := 0x30000000, s1 := 0x4000, s2 := 0x4, w := 9 }
def XC_MAP : Field := { base := 0x30000000, s1 := 0x4000, s2 := 0x4 }

def GR_STEP : Field := { base := 0x38000000, s1 := 0x80, s2 := 0x4 }
def GR_STATE : Field := { base := 0x38002000, s1 := 0x20, s2 := 0x4 }

def FA_LOG : Field := { base := 0x3C000000, s1 := 0x10, s2 := 0x4 }

def CH_ID_PART : Field := { base := 0x70000000 }
def CH_UID : Field := { base := 0x70000004, s1 := 0x4 }
def CH_ASSET : Field := { base := 0x70000040, s1 := 0x4 }
def CH_ASSET_SPENT_SPENT : Field := { base := 0x70000080, w := 16 }
def CH_ASSET_SPENT : Field := { base := 0x70000080 }

end F

/-- The register families whose region of Table 5.1 (R174) holds the byte address `a`; block windows are
0x4000_0000 + 0x0001_0000 × b (Table 5.2). -/
def regionSpecs (a : Nat) : List RegSpec :=
  if a < 0x40000000 then
    (if a < 0x38000000 then regsXCMAP else if a < 0x3C000000 then regsGRMEM else regsFALOG)
  else if a < 0x40150000 then
    match (a - 0x40000000) / 0x10000 with
    | 0 => regsMP | 1 => regsCH | 2 => regsCF | 3 => regsLP | 4 => regsLF | 5 => regsXC | 6 => regsGR
    | 7 => regsQM | 8 => regsCL | 9 => regsDM | 10 => regsPS | 11 => regsTG | 12 => regsTD | 13 => regsKF
    | 14 => regsTM | 15 => regsFE | 16 => regsBC | 17 => regsBM | 18 => regsIC | 19 => regsFA
    | _ => regsPAIR
  else regsID

/-- The register family that the byte address `a` names, if any (R174, R176).
DESIGN CHOICE, unsafe (notes/assumptions/12). DESIGN CHOICE, unsafe (notes/assumptions/13). -/
def specAt (a : Nat) : Option RegSpec :=
  if a % 4 = 0 then (regionSpecs a).find? (fun r => r.covers a) else none

end Sys2Proof.Machine
end

