-- ==== Sys2Proof/Machine/Resets.lean ====
section
/-!
DEFINITION. Machine/Resets.lean: what registers read as at reset.
-/
namespace Sys2Proof.Machine

/-- The reset word of the registers whose reset value differs between instances or is not a constant of the table:
the class and default reactions of Table 18.1, FA_CLASS_RX (Table 18.10) and the other words named in the log. -/
def specialReset (a : Nat) : Option Nat :=
  if a = 0x40130018 then some 0x01
  else if a = 0x4013001C then some 0x13
  else if 0x40130100 ≤ a ∧ a < 0x40130270 ∧ a % 16 = 0 then
    match (a - 0x40130100) / 16 with
    | 0 => some 0x00010001 | 1 => some 0x01000101 | 2 => some 0x00010001 | 3 => some 0x01000201
    | 4 => some 0x00010001 | 5 => some 0x01000311 | 6 => some 0x00010001 | 7 => some 0x01000401
    | 8 => some 0x01000501 | 9 => some 0x01000511 | 10 => some 0x01000601 | 11 => some 0x01000601
    | 12 => some 0x01000601 | 13 => some 0x01000701 | 14 => some 0x01000801 | 15 => some 0x01000901
    | 16 => some 0x00000A01 | 17 => some 0x01000B01 | 18 => some 0x01000C01 | 19 => some 0x01000D01
    | 20 => some 0x01000E03 | 21 => some 0x01000F01 | _ => some 0x02000919
  else if a = 0x400B0018 then some 1
  else if a = 0x40100140 then some 0x71
  else if a = 0x400B0180 then some 0xE
  else none

/-- What a register or table word reads as while nothing has been written to it: its reset word.
DESIGN CHOICE, unsafe (notes/assumptions/10). DESIGN CHOICE, unsafe (notes/assumptions/12). -/
def resetWord (a : Nat) : Word :=
  match specialReset a with
  | some w => BitVec.ofNat 32 w
  | none =>
    match specAt a with
    | some r => BitVec.ofNat 32 r.reset
    | none => 0

/-- The unique ID's hash, the reset value of TG_HASH_OWN (R528): its ten-bit groups combined by exclusive OR.
DESIGN CHOICE, unsafe (notes/assumptions/8). -/
def uidHash (uid : BitVec 96) : Nat :=
  (List.range 10).foldl (fun h i => h ^^^ bitsOf uid.toNat (10 * i) 10) 0

end Sys2Proof.Machine
end

