-- ==== Sys2Proof/Machine/SMap.lean ====
section
/-!
DEFINITION. Sparse maps: a list of (key, value) pairs in one canonical form, keys strictly rising and no entry
equal to what an unlisted key reads as.  Registers, buffers and per-instance records are held in them.
-/
namespace Sys2Proof.Machine.SMap

variable {α : Type}

/-- The value at key `k`: the listed one, or the default of an unlisted key. -/
def get (dflt : Nat → α) : List (Nat × α) → Nat → α
  | [], k => dflt k
  | e :: m, k => if e.1 = k then e.2 else get dflt m k

/-- The map without an entry for `k`. -/
def erase (k : Nat) : List (Nat × α) → List (Nat × α)
  | [] => []
  | e :: m => if e.1 = k then erase k m else e :: erase k m

/-- The entry put before the first larger key. -/
def insert (k : Nat) (v : α) : List (Nat × α) → List (Nat × α)
  | [] => [(k, v)]
  | e :: m => if k < e.1 then (k, v) :: e :: m else e :: insert k v m

/-- The map with `v` at `k`; a value an unlisted key would read as is not listed. -/
def set [DecidableEq α] (dflt : Nat → α) (m : List (Nat × α)) (k : Nat) (v : α) : List (Nat × α) :=
  if v = dflt k then erase k m else insert k v (erase k m)

/-- Whether the keys of a map rise strictly above `lo`. -/
def risingFrom : Nat → List (Nat × α) → Bool
  | _, [] => true
  | lo, e :: m => Nat.ble lo e.1 && risingFrom (e.1 + 1) m

/-- The canonical form: keys strictly rising, no entry equal to its default. -/
def wf [DecidableEq α] (dflt : Nat → α) (m : List (Nat × α)) : Bool :=
  risingFrom 0 m && m.all (fun e => decide (e.2 ≠ dflt e.1))

/-- The map with only the keys that `keep` admits. -/
def restrict (keep : Nat → Bool) : List (Nat × α) → List (Nat × α)
  | [] => []
  | e :: m => if keep e.1 then e :: restrict keep m else restrict keep m

/-- The map whose values are changed by `f`; entries that become their default are dropped. -/
def mapVals [DecidableEq α] (dflt : Nat → α) (f : Nat → α → α) : List (Nat × α) → List (Nat × α)
  | [] => []
  | e :: m =>
    let v := f e.1 e.2
    if v = dflt e.1 then mapVals dflt f m else (e.1, v) :: mapVals dflt f m

/-- The map with the keys that `sel` admits as they stand in `top`. -/
def overlay [DecidableEq α] (dflt : Nat → α) (sel : Nat → Bool) (base top : List (Nat × α)) : List (Nat × α) :=
  (restrict sel top).foldl (fun m e => set dflt m e.1 e.2) (restrict (fun k => !sel k) base)

end Sys2Proof.Machine.SMap
end

