-- ==== Sys2Proof/Machine/State.lean ====
section
/-!
DEFINITION. Machine/State.lean: everything spec/ gives the unit, as plain data, and the state right after reset.

Registers stand in one store (`State.regs`), keyed by byte address; state that no register shows stands in one
record per block, after the block's name.  Default values of the records are their values at reset.
-/
namespace Sys2Proof.Machine

/-! ### Supplies, resets and the test port (chapter 2, chapter 19) -/

/-- The states of the TAP controller of IEEE 1149.1, which the TAP follows (R73). -/
inductive TapSt where
  | testLogicReset | runTestIdle
  | selectDr | captureDr | shiftDr | exit1Dr | pauseDr | exit2Dr | updateDr
  | selectIr | captureIr | shiftIr | exit1Ir | pauseIr | exit2Ir | updateIr
  deriving DecidableEq, Repr

/-- The test port (R73): its controller, the instruction register with the bits shifted towards it, the shift stage of the
data register that the instruction selects (bit 0 next to TDO), the update stage of the boundary register (R75), and what
TDO has driven in the last run of TCK.
PRESUMED, unsafe (notes/assumptions/95). -/
structure TapX where
  st : TapSt := .testLogicReset
  ir : TapInstr := .idcode
  irShift : List Bool := []
  dr : List Bool := []
  cells : List Bool := List.replicate boundaryLen false
  tdo : List Bool := []
  deriving DecidableEq, Repr

/-- The conditions of R55 that hold internal reset, the reset in progress, and the test port. -/
structure ChipX where
  /-- Internal reset is held (R55). -/
  held : Bool := false
  /-- Power-good was found and the 2 ms towards release are counted (R55). -/
  counting : Bool := false
  /-- The reset in progress, or the last one, was a power-up or low-rail reset (R91, R700). -/
  lowRail : Bool := false
  /-- Bit r is 1 while rail r of Table 2.5 is low. -/
  railLow : Nat := 0
  /-- Bit r is 1 while rail r is below its tolerance but not low (R78). -/
  railDip : Nat := 0
  resetNLow : Bool := false
  testEn : Bool := false
  /-- CREFCLK is absent or out of tolerance (R416). -/
  crefBad : Bool := false
  /-- XO_IN is absent or outside ±1,000 ppm (R55, R534). -/
  xoBad : Bool := false
  /-- The FCLK synthesiser is out of lock (Table 18.1, source 22). -/
  unlock : Bool := false
  /-- XO_IN was the last condition of R55 to end, more than 1 ms after the others (R701). -/
  xoLast : Bool := false
  /-- The cause code of Table 19.1 and the fault source z of the reset in progress (R701). -/
  resetCode : Nat := 0
  resetZ : Nat := 0xFF
  /-- A CHIP_RST reaction or a second fatal occurrence asks for internal reset: its code (4, 5) and its z (R669). -/
  resetDue : Option (Nat × Nat) := none
  tap : TapX := {}
  /-- The on-die sensor reads 115 °C or more: its reading in 0.1 °C (R71). -/
  hot : Option Nat := none
  /-- A test instruction owned the balls since the last RESET_N reset (R76). -/
  tapUsed : Bool := false
  deriving DecidableEq, Repr

/-! ### Parast: the bus receiver, replies, replay memories and firmware-served commands (chapter 4) -/

/-- The states of the receive machine of Table 4.3. -/
inductive RxSt where
  | hunt | candidate | header | body | check
  deriving DecidableEq, Repr

/-- The receive machine of Table 4.3 (R128): its state, the zero count of HUNT, the bits of the byte being
collected, the bytes of the packet so far and how many bytes of the present part are still to come. -/
structure RxX where
  st : RxSt := .hunt
  zeros : Nat := 0
  bits : List Bool := []
  bytes : List Byte := []
  left : Nat := 0
  deriving DecidableEq, Repr

/-- An entry of a replay memory (R146). -/
structure Entry where
  tag : Byte
  /-- The first reply, from its ADDR byte to its CRC. -/
  first : List Byte := []
  /-- The first reply has been sent; false only in the remote memory (Table 4.5). -/
  firstSent : Bool := true
  /-- DONE rather than WORKING. -/
  done : Bool := true
  /-- Once DONE, the final reply, from its ADDR byte to its CRC. -/
  final : List Byte := []
  /-- Became DONE after drawing PENDING and has not been collected (R147). -/
  awaiting : Bool := false
  deriving DecidableEq, Repr

/-- A firmware-served command in progress or queued (R141, R145, R153). -/
structure Job where
  op : Nat
  addr : Byte
  tag : Byte
  params : List Byte
  /-- The commit point C, in PCLK edges. -/
  edge : Nat := 0
  /-- The reply window in force at C (R165). -/
  win : Nat := 4096
  /-- PENDING has been sent for it (R133). -/
  pended : Bool := false
  /-- Its action was started and ends by an event of its own. -/
  started : Bool := false
  /-- For a remote command: the line port it came by. -/
  port : Nat := 0
  /-- For a remote command: ticks since its acceptance (R154). -/
  age : Nat := 0
  /-- The unit left ADDRESSED: its result is discarded (R117). -/
  orphan : Bool := false
  /-- Its place in the order of commit points (R144). -/
  seq : Nat := 0
  /-- For a REMOTE: its port was out of frame when it committed (R152). -/
  oof : Bool := false
  deriving DecidableEq, Repr

/-- A reply that waits for its edge Y (R131). -/
structure Reply where
  y : Nat
  /-- From the ADDR byte to the CRC. -/
  bytes : List Byte
  /-- The unit leaves ADDRESSED at its end: the reply to a RELEASE (R116). -/
  release : Bool := false
  deriving DecidableEq, Repr

/-- A REMOTE that waits for its inner reply: for which firmware-served command, the port, whether its last chunk has
been sent (R294), and ticks since (R152). -/
structure RemoteWait where
  kind : JobKind
  port : Nat
  /-- Which REMOTE of the unit's it is, so that its message can be told from others (R294). -/
  id : Nat := 0
  /-- The inner command's tag. -/
  tag : Byte
  sent : Bool := false
  age : Nat := 0
  deriving DecidableEq, Repr

/-- Block MP beyond its registers. -/
structure MpX where
  rx : RxX := {}
  /-- The first PCLK edge that the receiver has not sampled, counted from the release of internal reset (R128). -/
  rxEdge : Nat := 0
  /-- A RELEASE's reply is on the bus: the edge of its last bit, after which the unit leaves ADDRESSED (R116). -/
  leaveAt : Option Nat := none
  /-- The firmware-served unicast command in progress (R141). -/
  job : Option Job := none
  /-- The queued broadcast firmware-served commands, oldest first (R145). -/
  bcast : List Job := []
  /-- The broadcast firmware-served command in service. -/
  bjob : Option Job := none
  /-- The firmware-served remote command in progress (R153). -/
  rjob : Option Job := none
  /-- The chain replay memory, oldest first (R146). -/
  replay : List Entry := []
  /-- The remote replay memory, oldest first (R153). -/
  rreplay : List Entry := []
  /-- Replies that wait for their edge, in order. -/
  out : List Reply := []
  /-- The reply last driven on PDAT: its edge Y and its bytes from SYNC (R131). -/
  wire : Option (Nat × List Byte) := none
  /-- Results of firmware-served commands whose action ended by an event of its own: status and data, not yet taken
  in. -/
  ready : List (JobKind × Nat × List Byte) := []
  /-- The REMOTEs that wait for their inner replies, oldest first (R152). -/
  remote : List RemoteWait := []
  /-- REMOTEs begun so far. -/
  remoteSeq : Nat := 0
  /-- Firmware-served commands that have committed (R144). -/
  seq : Nat := 0
  deriving DecidableEq, Repr

/-- Block CH beyond its registers: the presence slot a DISCOVER gave the unit, with the commit point it counts from (R98),
while its driver is still due. -/
structure ChX where
  slot : Option (Nat × Nat) := none
  deriving DecidableEq, Repr

/-! ### Identity and OTP (chapter 3, R189) -/

/-- The identity area beyond its registers.
DESIGN CHOICE, unsafe (notes/assumptions/9). -/
structure OtpX where
  /-- The 96-bit unique ID (R104). -/
  uid : BitVec 96
  /-- The OTP word whose burn is in progress, and what was burnt of it before (R189, R191). -/
  burn : Option (Nat × Word) := none
  deriving DecidableEq, Repr

/-! ### Configuration store, carcass and veneers (chapter 6) -/

/-- What a store command writes (R219, R232). -/
inductive StoreWhat where
  /-- The image goes to a carcass copy. -/
  | image (bytes : List Byte)
  /-- Entries, with their count, go to stored veneer v. -/
  | veneer (v count : Nat) (bytes : List Byte)
  | erase (v : Nat)
  | bootMode (m : Bool)
  deriving DecidableEq, Repr

/-- A store command in progress: what it writes and, once it has begun, the copy it goes to (R219), and the logical pages
still to write with their content, the first of them being written now. -/
structure StoreJob where
  kind : JobKind
  what : StoreWhat
  copyB : Bool := false
  pages : List (Nat × List Byte) := []
  /-- The command that wrote has failed: the page in progress completes and nothing follows (R143). -/
  cut : Bool := false
  deriving DecidableEq, Repr

/-- A carcass copy as a directory describes it (R215, R219). -/
structure CopyX where
  gen : Nat
  len : Nat
  deriving DecidableEq, Repr

/-- A stored veneer as a directory describes it: how many entries, how many bytes. -/
structure SlotX where
  count : Nat
  len : Nat
  deriving DecidableEq, Repr

/-- A directory copy: its generation, the carcass copies, the stored veneers and the boot mode (Table 6.1, R221). -/
structure DirX where
  gen : Nat := 0
  copyA : Option CopyX := none
  copyB : Option CopyX := none
  slots : List (Nat × SlotX) := []
  bootMode : Bool := true
  deriving DecidableEq, Repr

/-- The configuration store (R212): kept through every reset.
DESIGN CHOICE, unsafe (notes/assumptions/9). -/
structure StoreX where
  /-- Bytes of the logical pages, by offset in the store window: the byte plus 1; what spec/ leaves open is not listed. -/
  bytes : List (Nat × Nat) := []
  /-- The two directory copies, where they are valid. -/
  dir0 : Option DirX := some {}
  dir1 : Option DirX := none
  /-- Copies (0 A, 1 B) and stored veneers (2 + v) whose rewriting began and did not end. -/
  broken : List Nat := []
  /-- The physical page of a logical page, where it is not the page of the same number. -/
  map : List (Nat × Nat) := []
  /-- Writes of each physical page. -/
  wear : List (Nat × Nat) := []
  retired : List Nat := []
  /-- Spare physical pages already used. -/
  sparesUsed : Nat := 0
  /-- Logical pages found uncorrectable (Table 18.2). -/
  bad : List Nat := []
  /-- Store commands, in order; the first has a page write in progress. -/
  jobs : List StoreJob := []
  deriving DecidableEq, Repr

/-- The states of a veneer stage (Table 6.5). -/
inductive StageSt where
  | empty | staged | armed | applied | refused | missed
  deriving DecidableEq, Repr

/-- A veneer stage (R225, Table 6.7). -/
structure StageX where
  st : StageSt := .empty
  result : Byte := 0
  armTag : Byte := 0
  origin : Byte := 0
  count : Nat := 0
  bytes : List Byte := []
  ts : Nat := 0
  tf : Nat := 0
  deriving DecidableEq, Repr

/-- The cached veneers of a pair (R230) and the application due at the next frame start. -/
structure PairCache where
  zero : List Byte := []
  one : List Byte := []
  due : Bool := false
  deriving DecidableEq, Repr

/-- Block CF beyond its registers and the store. -/
structure CfX where
  /-- The staging buffer of 44,032 bytes (R217): each byte that was written, plus 1. -/
  staging : List (Nat × Nat) := []
  stages : List (Nat × StageX) := []
  caches : List (Nat × PairCache) := []
  /-- CF_BOOT_CTRL.BOOT_SKIP was written in this boot (R222). -/
  bootSkip : Bool := false
  /-- The boot load of this boot has begun (or been skipped). -/
  bootDone : Bool := false
  deriving DecidableEq, Repr

/-! ### Faults, ALIVE and repair (chapter 18) -/

/-- The states of the ALIVE machine (Table 18.5A). -/
inductive AliveSt where
  | waiting | toggling | stopped
  deriving DecidableEq, Repr

/-- The corrected-error record of an SRAM row: its last two times in FA_UPTIME seconds (R679). -/
structure RowRec where
  region : Nat
  row : Nat
  older : Option Nat
  last : Nat
  deriving DecidableEq, Repr

/-- Block FA beyond its registers. -/
structure FaX where
  /-- The effective reactions and effective class of each open occurrence z. -/
  effRx : List (Nat × Nat) := []
  effCls : List (Nat × Nat) := []
  /-- Source z's level condition is present (R666). -/
  level : Nat := 0
  /-- For each open AUTO_ACK occurrence z, the ticks begun since its raise (R672). -/
  autoAge : List (Nat × Nat) := []
  alive : AliveSt := .waiting
  aliveLevel : Bool := false
  /-- FCLK cycles to the next change of ALIVE. -/
  aliveLeft : Nat := 0
  /-- FCLK cycles since the kick watch was last satisfied, 8,000,001 once it is lost; none before the first kick (R674). -/
  kickAge : Option Nat := none
  /-- Ticks of the present FA_UPTIME second. -/
  uptimeTick : Nat := 0
  rows : List RowRec := []
  /-- Remapped rows: (region, row, spare). -/
  remaps : List (Nat × Nat × Nat) := []
  /-- Rows for which ROW_NO_SPARE was logged. -/
  noSpare : List (Nat × Nat) := []
  /-- Row remaps in progress, in order: region, row, spare (R680). -/
  remapping : List (Nat × Nat × Nat) := []
  /-- While the writes of a command take effect: bit b of a block whose reset falls in their cycle, which comes after them
  (R205). -/
  blocksDue : Option Nat := none
  /-- Bit i: PAIR_CFG[i] was written since the last tick (R25, R695); the sample of the tick that comes was taken by a row. -/
  pairWritten : Nat := 0
  pairJudged : Nat := 0
  /-- Bit n: a non-maskable trap was delivered to core n (Table 18.3). -/
  traps : Nat := 0
  /-- Stored ECC words with bits in error, by the address of the 64-bit word, working SRAM at 0x1000_0000: 1 correctable,
  2 uncorrectable (R667). -/
  badWords : List (Nat × Nat) := []
  deriving DecidableEq, Repr

/-! ### Line ports and the line frame (chapters 7 and 8) -/

/-- A module transfer asked for by LP_MOD_CMD (Table 7.8). -/
structure ModXfer where
  write : Bool
  dev : Bool
  count : Nat
  offset : Nat
  data : List Byte := []
  deriving DecidableEq, Repr

/-- What a unit drives on a module's two-wire bus (R265, R267): START, repeated START, STOP, a byte it sends and whether the module
acknowledges it, a byte it takes and whether it acknowledges it, a clock pulse. -/
inductive BusOp where
  | start | restart | stop | pulse
  | send (byte : Nat) (acked : Bool)
  | take (byte : Nat) (acked : Bool)
  deriving DecidableEq, Repr

/-- A management-channel message: its TYPE (Table 8.4) and its bytes. -/
structure McMsg where
  ty : Nat
  bytes : List Byte
  /-- Which REMOTE an inner command is of (R294). -/
  ref : Option Nat := none
  deriving DecidableEq, Repr

/-- Line port p beyond its registers. -/
structure PortX where
  /-- Ticks for which CDR_LOCK and CODE_SYNC have held (R252). -/
  loopTicks : Nat := 0
  /-- The scan in progress: bits and disagreements so far (R261). -/
  eyeBits : Nat := 0
  eyeErrs : Nat := 0
  /-- DWELL as it stood at the EYE_START (R261). -/
  eyeDwell : Nat := 0
  /-- An error injection waits for the next generated group (R258). -/
  errInject : Bool := false
  /-- The transmit lane, and the code units last sent on LTX, as they stand on the line (R246, R255). -/
  txLane : Lane := {}
  txCode : List Nat := []
  /-- The pattern generator's last bits, the bits of a tick that fell short of a group, and the groups of 32 raw bits last sent
  on LTX (R256). -/
  genSt : Nat := 0
  genCarry : Nat := 0
  txGroups : List Nat := []
  /-- The receive coding layer, and the PRBS checker (R247, R257). -/
  rxCode : RxCode := {}
  chk : Checker := {}
  /-- What the last transfer, poll or recovery drove on the module bus (R265, R267). -/
  modBus : List BusOp := []
  /-- The host transfer waiting or running (R265). -/
  modXfer : Option ModXfer := none
  /-- The host transfer waits for the poll that is running. -/
  modWait : Bool := false
  /-- A poll is reading the module; a poll that fell due waits for the host transfer (R266). -/
  polling : Bool := false
  pollDue : Bool := false
  /-- Ticks of the present poll period. -/
  pollTicks : Nat := 0
  /-- The transmitter starts afresh with word 0 of the next frame (R248, R252). -/
  txFresh : Bool := false
  /-- Where the port's last transmit frame began, in FCLK after a local frame start, when it was loop timed (R343). -/
  txPhase : Option Nat := none
  /-- Multiframe machine: consecutive differing numbers K (Table 8.6). -/
  mfK : Nat := 0
  /-- The number carried by the previous frame, when that frame was received in SYNC (Table 8.6). -/
  prevNum : Option (Nat × Nat) := none
  /-- The label of the last frame received (Table 8.6). -/
  label : Option (Nat × Nat) := none
  /-- LF_FRAME_TOTAL when word 0 of that frame arrived (R303). -/
  rxTotal : Nat := 0
  /-- BIP-16 of the previous frame received in SYNC (R289). -/
  rxBip : Option Nat := none
  /-- BIP counts since the last transmitted word 8 (R290). -/
  reiAcc : Nat := 0
  /-- LOF and LOM counts A and B (Table 8.7). -/
  lofA : Nat := 0
  lofB : Nat := 0
  lomA : Nat := 0
  lomB : Nat := 0
  /-- Trace bytes of the present multiframe while all of them were received (R288). -/
  traceBuf : List Byte := []
  tracePrev : List Byte := []
  traceCount : Nat := 0
  /-- The number of the first frame of the last multiframe whose trace was collected whole (R288). -/
  traceAt : Option (Nat × Nat) := none
  /-- Words of the time-of-day message received so far in this multiframe (R291). -/
  todBuf : List Nat := []
  /-- A whole time-of-day message with a good CRC that TD has not taken: its 12 words, and the number of the frame at
  whose start its time applies (R556). -/
  todMsg : Option (List Nat × (Nat × Nat)) := none
  /-- The management message being received: TYPE, next SEQ, bytes (R293). -/
  mcRx : Option (Nat × Nat × List Byte) := none
  /-- A complete message not yet accepted, and the accepted one its recipient has not taken. -/
  mcFull : Option McMsg := none
  inbox : Option McMsg := none
  /-- Messages that wait to be sent, and the one being sent: TYPE, next SEQ, bytes left (R292). -/
  mcOut : List McMsg := []
  mcTx : Option (Nat × Nat × List Byte) := none
  /-- Which REMOTE the message being sent is of (R294). -/
  mcRef : Option Nat := none
  /-- The SLOT of the last credit entry sent (R295). -/
  credLast : Nat := 0
  /-- Credit entries last received in the protection range while the node passes: SLOT and CC (R485). -/
  credPass : List (Nat × Nat) := []
  /-- Injections left (R310). -/
  alignInj : Nat := 0
  bipInj : Nat := 0
  /-- BIP-16 of the last transmitted frame (R289). -/
  txBip : Nat := 0
  /-- RDI as it goes out in word 8 (R290). -/
  rdi : Bool := false
  /-- The time-of-day message of the multiframe being sent: its 12 words (R291). -/
  todTx : List Nat := []
  /-- The number of the first frame of the multiframe that the message being sent is of (R291). -/
  todTxOf : Option (Nat × Nat) := none
  /-- The phase of the last word 0 received in SYNC (R343). -/
  lastPhase : Option Nat := none
  /-- LF_FRAME_TOTAL of the local frame in which the port last sent a frame's word 0 (R351). -/
  sentOf : Option Nat := none
  /-- The last frame sent, word by word; the last frame received, with the time of its word 0, and those before it that were received in
  SYNC, newest first. -/
  txWords : List LineWord := []
  rxWords : List LineWord := []
  rxAt : Nat := 0
  rxOld : List (Nat × List LineWord) := []
  /-- A frame was received in SYNC since reset. -/
  rxSeen : Bool := false
  /-- The last frame was received in SYNC. -/
  rxGood : Bool := false
  deriving DecidableEq, Repr

/-- Local frame numbering beyond its registers (Table 8.8). -/
structure NumX where
  /-- The number the next local frame will take when it is not the next in succession. -/
  next : Option (Nat × Nat) := none
  /-- Ticks for which the source has been good; ticks of |E| ≥ 6,400 and of |E| < 6,400 (Table 8.8). -/
  good : Nat := 0
  far : Nat := 0
  near : Nat := 0
  /-- The number that a NUM_LOAD brings whose cycle S + 1 is that of a frame start, for the frame after it (R320). -/
  late : Option (Nat × Nat) := none
  /-- The source port as the machine took it at its last tick, and a NUM_ADOPT that it has not acted on (R25). -/
  src : Nat := 0
  adopt : Bool := false
  /-- TG_REALIGN moved the local frame starts since the last tick. -/
  moved : Bool := false
  /-- A local-frame realignment is moving them (R345). -/
  moving : Bool := false
  deriving DecidableEq, Repr

/-! ### Tributaries and the cross-connect (chapter 9) -/

/-- One received copy of a tributary: when word 0 of its frame arrived (in hundredths of an FCLK cycle, counted
from the first local frame), the rate class it came at, its slots in order (slot number in the received frame and
the four words; no words where the frame did not bring that slot), and what its check word said.  A frame that brought
no copy stands as an entry without slots (R332). -/
structure CopyT where
  at_ : Nat
  rate : Nat
  slots : List (Nat × List LineWord)
  /-- The port as on which it was demapped: the SRC_INDEX of its tributary then (R356). -/
  port : Nat := 0
  crcOk : Bool := true
  age : Nat := 0
  deriving DecidableEq, Repr

/-- A value that a local source (a gearing channel, a recipe, a front-end channel, a queue sender) has produced: when it
is ready, in hundredths of an FCLK cycle without TX(b) of Table 9.4, its number, its tributary words, and its words in a
SAMPLE tributary where those differ. -/
structure MadeT where
  base : Nat
  n : Nat
  words : List LineWord
  sample : List LineWord := []
  deriving DecidableEq, Repr

/-- Tributary t beyond its registers. -/
structure TribX where
  /-- The received copies, newest first, and the frames that brought none (R34, R332, R342). -/
  copies : List CopyT := []
  /-- Its local source has produced a value since the context named it (R353). -/
  made : Bool := false
  /-- A fresh copy came since the previous tick (R338). -/
  fresh : Bool := false
  /-- Consecutive ticks without one (R339). -/
  staleN : Nat := 0
  deriving DecidableEq, Repr

/-- What a transmit port last sent of a tributary: its source (SRC_KIND and SRC_INDEX), the arrival time of the copy carried
or the number of the value, and the AGE sent (R336). -/
structure Carried where
  src : Nat
  id : Nat
  age : Nat
  deriving DecidableEq, Repr

/-- Block XC beyond its registers. -/
structure XcX where
  trib : List (Nat × TribX) := []
  /-- Keyed by 256 × p + t. -/
  carried : List (Nat × Carried) := []
  /-- The words that fill a transmit frame, as they stood at the end of the first cycle of the local frame in progress
  (R330). -/
  snap : List (Nat × Word) := []
  /-- The tributaries for which a map erred in the local frame in progress (R353). -/
  mapBad : List Nat := []
  /-- The frame in progress is a shadow frame (R346). -/
  shadowing : Bool := false
  /-- Words of the shadow frame that the spare and the serving slice have sent differently so far. -/
  shadowDiff : Nat := 0
  /-- FORCE of the swap in progress (Table 9.6). -/
  force : Bool := false
  /-- The swap or restore in progress was asked for by a firmware-served command of this kind (R352); none: by the
  repair engine (R681). -/
  sliceJob : Option JobKind := none
  /-- XC_SLICE_STAT as that command found it (R143). -/
  sliceWas : Nat := 0x0F
  /-- Frames since LOADING or RETURN_LOADING began. -/
  loadFrames : Nat := 0
  /-- Frames till the handover that a good comparison earned, and whether it goes to the spare. -/
  handover : Option (Nat × Bool) := none
  /-- Slice s has the spare in its place. -/
  served : Option Nat := none
  deriving DecidableEq, Repr

/-! ### Gearing and recipes (chapter 10) -/

/-- Gearing channel g beyond its registers and its state words (Table 10.6). -/
structure GearX where
  /-- LOAD of Table 10.1. -/
  load : Bool := false
  /-- The NUM and DEN of the previous step, when there was one since capture (R374). -/
  ratio : Option (Nat × Nat) := none
  /-- The moment after which the next input of the local frame in progress comes: that of the last one consumed in it,
  plus 1; 0 where none was. -/
  seen : Nat := 0
  /-- Values produced since reset. -/
  made : Nat := 0
  /-- The values produced since the channel left OFF, newest first; a transmit frame that carries a new one is fresh
  (R372). -/
  outs : List MadeT := []
  /-- A usable copy came since the previous tick. -/
  used : Bool := false
  deriving DecidableEq, Repr

/-- Recipe x beyond its registers. -/
structure RecipeX where
  seen : Nat := 0
  made : Nat := 0
  outs : List MadeT := []
  deriving DecidableEq, Repr

/-- Block GR beyond its registers: its configuration and recipe steps as they stood at the end of the first cycle of the local
frame in progress (R373), and its channels. -/
structure GrX where
  snap : List (Nat × Word) := []
  gear : List (Nat × GearX) := []
  recipe : List (Nat × RecipeX) := []
  deriving DecidableEq, Repr

/-! ### Queues, cell pool and client ports (chapter 11) -/

/-- A packet in a queue: its cells in order, its bytes written, how many of them the consumer has read, and whether
it was closed early (R398). -/
structure QPkt where
  cells : List Nat
  len : Nat
  read : Nat := 0
  err : Bool := false
  deriving DecidableEq, Repr

/-- The packet that a queue's consumer is reading: its length, its ERR, and whether its rest was lost to a reset or to
an uncorrectable word, so that the consumer marks it (R402, R667). -/
structure RdPkt where
  len : Nat
  err : Bool
  /-- Its bytes that are still in the queue. -/
  left : Nat
  cut : Bool := false
  deriving DecidableEq, Repr

/-- Queue q beyond its registers. -/
structure QueueX where
  /-- Complete packets, oldest first; the first may be partly read. -/
  pkts : List QPkt := []
  /-- The producer's packet in progress. -/
  cur : Option QPkt := none
  /-- The rest of the producer's packet is discarded as it arrives (R402). -/
  skip : Bool := false
  /-- The packet the consumer is reading, and its bytes read out of the queue that the consumer has not used. -/
  rd : Option RdPkt := none
  buf : List Byte := []
  /-- QDMA's writes that wait: the command and the bytes still to write (R423). -/
  qdma : List (JobKind × List Byte) := []
  /-- The commands that asked for the reset in progress. -/
  resetJobs : List JobKind := []
  /-- QM_PKT_RECVs that wait for a rebuild to release the handshakes (R404, R423). -/
  recvJobs : List JobKind := []
  /-- The reset in progress follows a pointer fault and waits for the rebuild. -/
  faulted : Bool := false
  deriving DecidableEq, Repr

/-- The sender of a PACKET or MGMT tributary (R407): between packets, or in the data or at the check word of one, with
the bytes still to send and the CRC so far. -/
inductive SendSt where
  | between | data (left : Nat) (crc : Nat) | check (crc : Nat)
  deriving DecidableEq, Repr

/-- The parser of an intake (R409): at a header, in the data of a packet (bytes still to come, CRC so far) or at its
check word. -/
inductive ParseSt where
  | header | data (left : Nat) (crc : Nat) | check (crc : Nat)
  deriving DecidableEq, Repr

/-- A sender and a receiver of packet tributary t beyond their registers. -/
structure PktTrib where
  send : SendSt := .between
  /-- LF_FRAME_TOTAL of the local frame for which words were last assembled, and those words (R405). -/
  sentAt : Option Nat := none
  sentWords : List LineWord := []
  starvedN : Nat := 0
  /-- The sender has had a word available and an allowance of 0 since the tick began (R414). -/
  starving : Bool := false
  /-- STARVED_SET has already judged the tick in progress. -/
  judged : Bool := false
  /-- The receiver's intake, oldest word first (R408): a word, plus 0x20000 when it is the word at its frame's PTR; and
  0x10000 where the packet in progress is to be closed with ERR. -/
  intake : List Nat := []
  parse : ParseSt := .header
  /-- Bytes of the packet in progress that were written to the queue. -/
  wrote : Nat := 0
  /-- The last CC received for this tributary on each transmit port whose map names it (R412). -/
  relay : List (Nat × Nat) := []
  deriving DecidableEq, Repr

/-- Client c beyond its registers. -/
structure ClientX where
  /-- Whole frames in the 16 KiB store that their queue has not taken yet: the queue and the bytes still to write
  (R417). -/
  store : List (Nat × List Byte) := []
  /-- Half bit times left of a received PAUSE (R419), and to the next repeat of the PAUSE sent. -/
  pauseLeft : Nat := 0
  refresh : Nat := 0
  /-- Half bit times till the line is free of the frame being sent, and whether that frame is a packet of TXQ (R435, R436). -/
  lineLeft : Nat := 0
  linePkt : Bool := false
  /-- The frame last sent on CTX, and the QUANTA of the PAUSE last sent. -/
  sent : List Byte := []
  sentPause : Option Nat := none
  deriving DecidableEq, Repr

/-- Block QM and CL beyond their registers.
DESIGN CHOICE, unsafe (notes/assumptions/61). -/
structure QmX where
  /-- The cell pool, by byte offset (Table 5.1). -/
  pool : List Host.Cell := []
  /-- The 4-bit generation tag of each cell, less `genBase` (R403). -/
  gen : List (Nat × Nat) := []
  genBase : Nat := 0
  queue : List (Nat × QueueX) := []
  trib : List (Nat × PktTrib) := []
  client : List (Nat × ClientX) := []
  /-- The doubled links and pointers whose two copies differ (R403): the link of cell c as c, the head and tail of queue q as
  16,384 + 2 × q and one more, those of the free list as 16,512 and 16,513. Copies that are not listed agree; the lists themselves
  stand in the queues. -/
  differ : List Nat := []
  /-- A rebuild is running (R404), and the local frames that have ended since it began. -/
  rebuilding : Bool := false
  rebuildFrames : Nat := 0
  deriving DecidableEq, Repr


/-! ### Defects and performance history (chapter 12) -/

/-- The integration counts of one defect: consecutive samples with and without its raw condition (R438). -/
structure DefCnt where
  a : Nat := 0
  b : Nat := 0
  deriving DecidableEq, Repr

/-- A jumping BIP window: compared frames so far and their sum (R443). -/
structure BipWin where
  frames : Nat := 0
  sum : Nat := 0
  deriving DecidableEq, Repr

/-- A one-second record (Table 12.5), with the REI sum its bins take from it. -/
structure SecRec where
  seq : Nat := 0
  ticks : Nat := 0
  cv : Nat := 0
  slips : Nat := 0
  bip : Nat := 0
  rei : Nat := 0
  defs : Nat := 0
  es : Bool := false
  ses : Bool := false
  uas : Bool := false
  feEs : Bool := false
  feSes : Bool := false
  off : Bool := false
  final : Bool := false
  valid : Bool := false
  deriving DecidableEq, Repr

/-- A fifteen-minute or daily bin (Table 12.6). -/
structure BinRec where
  n : Nat := 0
  seconds : Nat := 0
  es : Nat := 0
  ses : Nat := 0
  uas : Nat := 0
  feEs : Nat := 0
  feSes : Nat := 0
  bip : Nat := 0
  rei : Nat := 0
  cv : Nat := 0
  slips : Nat := 0
  defSecs : Nat := 0
  valid : Bool := false
  final : Bool := false
  part : Bool := false
  deriving DecidableEq, Repr

/-- What port p has gathered in the PM second in progress, and its availability (R451, R452). -/
structure PmPort where
  bip : Nat := 0
  errFrames : Nat := 0
  rei : Nat := 0
  reiFrames : Nat := 0
  cv : Nat := 0
  slips : Nat := 0
  defs : Nat := 0
  ran : Bool := false
  unavailable : Bool := false
  /-- Consecutive seconds that are SES while available, or not SES while unavailable. -/
  run : Nat := 0
  curBin : BinRec := {}
  curDay : BinRec := {}
  deriving DecidableEq, Repr

/-- Block DM beyond its registers. -/
structure DmX where
  /-- Keyed by 16 × p + defect bit for port defects, 4096 + 4 × t + bit for tributary defects. -/
  cnt : List (Nat × DefCnt) := []
  /-- Keyed by 2 × p for SD and 2 × p + 1 for EXC. -/
  win : List (Nat × BipWin) := []
  /-- Port events since the last tick: receive slip counted (bit p), slip of a loop-timed transmitter counted (bit p), QL
  changed (bit p). -/
  slipNow : Nat := 0
  slipTx : Nat := 0
  qlNow : Nat := 0
  /-- Tributaries whose CRC count or intake overflow count moved since the last tick. -/
  crcNow : List Nat := []
  iovfNow : List Nat := []
  /-- Whether a QL code has been received on port p (bit p). -/
  qlSeen : Nat := 0
  /-- The ports (bit p), and the tributaries, that a row has already judged for the tick that comes. -/
  judged : Nat := 0
  judgedT : List Nat := []
  /-- The PM second in progress: its SEQ, its ticks so far (0: it begins at the next frame start), or waiting for a frame
  with F = 0 that starts after the cycle `pmFrom` (R450, R466). -/
  pmSeq : Nat := 0
  pmTicks : Nat := 1
  pmWait : Bool := false
  pmFrom : Nat := 0
  port : List (Nat × PmPort) := []
  /-- Keyed by 900 × p + SEQ mod 900. -/
  secs : List (Nat × SecRec) := []
  /-- Keyed by 96 × p + n mod 96 and 7 × p + n mod 7. -/
  bins : List (Nat × BinRec) := []
  days : List (Nat × BinRec) := []
  deriving DecidableEq, Repr

/-! ### Dovetail protection (chapter 13) -/

/-- The protection words last taken from one side of a group, and the LF_FRAME_TOTAL of the frame that brought them (R472). -/
structure FarReq where
  a : Nat
  b : Nat
  at_ : Nat := 0
  deriving DecidableEq, Repr

/-- Protection group u beyond its registers. -/
structure GroupX where
  far0 : Option FarReq := none
  far1 : Option FarReq := none
  /-- Ticks left of the wait-to-restore timer and the side it runs for; at 0 it expires in the tick in progress (R13, R489). -/
  wtr : Option (Nat × Nat) := none
  /-- Written since the last tick: END_WTR, or CMD 2 or 3; and KIND 0 (R25, R489, R504). -/
  endWtr : Bool := false
  stop : Bool := false
  /-- The group was switched for a local SF or SD at this side (R489). -/
  failed : Option Nat := none
  /-- The side of the copy last selected (R477). -/
  sel : Nat := 0
  /-- PS_RESKEW asks for a first setting at the next tick (R493). -/
  reskew : Bool := false
  /-- The last agreed state of the paired input assigned to lockout (R677). -/
  loHeld : Bool := false
  /-- LF_FRAME_TOTAL of the frame whose copies were released last (R478). -/
  relTotal : Option Nat := none
  deriving DecidableEq, Repr

/-- The copies of merged tributary t in the deskew buffer: side, label and copy, newest first (R477), and whether
CDR_LOCK and SIG_DET stayed 1 and the alignment was correct (R480). -/
structure Deskew where
  side : Nat
  port : Nat
  num : Nat × Nat
  copy : CopyT
  good : Bool
  /-- LF_RX_OFS of its port, in FCLK (R478). -/
  ofs : Int := 0
  deriving DecidableEq, Repr

/-- Block PS beyond its registers. -/
structure PsX where
  group : List (Nat × GroupX) := []
  deskew : List (Nat × List Deskew) := []
  /-- The settings of the block's registers as the last tick took them (R25). -/
  cfg : List (Nat × Word) := []
  deriving DecidableEq, Repr

/-! ### Time of day, Kerf and timers (chapter 15) -/

/-- A TD_DELAY in progress (R559, R572): for whom, the port, exchanges still to begin, the ID of the outstanding request
and the ticks since it was sent, and the delays found so far, in ps. -/
structure DelayJob where
  kind : JobKind
  port : Nat
  left : Nat
  id : Nat
  age : Nat := 0
  found : List Int := []
  deriving DecidableEq, Repr

/-- What the cycle in progress has written in block TM (R567, R568): timers loaded and timers enabled, as masks, and under 4·k + c each
compare written, with the value by which the cycle still judges it. -/
structure TmWrites where
  loaded : Nat := 0
  anew : Nat := 0
  old : List (Nat × Nat) := []
  deriving DecidableEq, Repr

/-- Block TD beyond its registers. -/
structure TodX where
  /-- Whole seconds, and the rest of the second in units of 2^-16 ns and of 1/400,000,000 of that (R551). -/
  sec : Nat := 0
  sub : Nat := 0
  frac : Nat := 0
  /-- What is left of the correction, in 1/400,000,000 ns, and whether it comes from tracking (R553, Table 15.1). -/
  adj : Int := 0
  adjTrack : Bool := false
  /-- The target of a TD_SET and how many second boundaries pass before its own (R554). -/
  setTo : Option (Nat × Nat) := none
  /-- X of Table 15.1, and ticks without a usable message while TRACKING. -/
  missX : Nat := 0
  lost : Nat := 0
  /-- ROLE and SRC as the last tick took them, and whether TD_CFG, written since, asks the follower to start afresh (R25, Table 15.1). -/
  role : Nat := 0
  src : Nat := 0
  restart : Bool := false
  exch : List DelayJob := []
  nextId : Nat := 0
  /-- State.cyc at the last local frame start. -/
  frameAt : Nat := 0
  tmW : TmWrites := {}
  deriving DecidableEq, Repr

/-- Block KF beyond its registers. -/
structure KfX where
  /-- The capture FIFOs of inputs 0–3, the internal FIFO (4) and the interval FIFO (5): entries of four words, oldest
  first. -/
  fifo : List (Nat × List (List Nat)) := []
  /-- The time of the last accepted edge of each input, in 4 ps units from reset, plus 1; 0 none (R562). -/
  last : List (Nat × Nat) := []
  /-- The noted start and stop of the interval unit, in 8 ps units (R565). -/
  start : Option Int := none
  stop : Option Int := none
  /-- START_SRC equals STOP_SRC and the next event is taken as a stop. -/
  alt : Bool := false
  /-- Intervals offered to the interval FIFO, modulo 256. -/
  ivSeq : Nat := 0
  deriving DecidableEq, Repr

/-! ### Gauge (chapter 14) -/

/-- DPLL d beyond its registers. Frequencies are offsets from nominal in 1/65,536 ppt, phases in ps or fs. -/
structure DpllX where
  /-- The absorbed build-out in force (R519), in ps. -/
  build : Int := 0
  /-- The output frequency without excursions, as ramped so far (R518). -/
  base : Int := 0
  /-- Consecutive ticks within LOCK_WIN, and beyond four times it (Table 14.4). -/
  lockN : Nat := 0
  lostN : Nat := 0
  /-- G of BRIDGING (R516). -/
  grace : Nat := 0
  /-- The holdover history: runs of ticks, newest first, each with the frequency while LOCKED, or none (R521). -/
  hist : List (Option Int × Nat) := []
  /-- The holdover frequency taken at entry to BRIDGING or HOLDOVER, and 0 whole, 1 HO_SHORT, 2 HO_NO_HIST. -/
  saved : Int × Nat := (0, 2)
  /-- Ticks since entry to HOLDOVER. -/
  hoTicks : Nat := 0
  /-- The pending phase of TG_D_STEER_P, in fs (R523). -/
  left : Int := 0
  /-- What the tick in progress has found due (Table 14.4): 1 LOCKED, 2 LOCK_LOST, 3 HOLDOVER, 4 HO_OUT_OF_SPEC; 0 nothing. -/
  due : Nat := 0
  /-- MODE was written since the last tick (R25). -/
  modeW : Bool := false
  deriving DecidableEq, Repr

/-- Block TG beyond its registers. -/
structure TgX where
  d0 : DpllX := {}
  d1 : DpllX := {}
  /-- Bit j: a frame was received in SYNC since line candidate j became active (R513). -/
  seen : Nat := 0
  /-- The QL word of R527 as it was before BRIDGING or HOLDOVER. -/
  before : Nat := 0
  /-- Local frame starts till a T1-output realignment, 0 none; and that it falls due in the tick in progress (R531). -/
  t1In : Nat := 0
  t1Due : Bool := false
  /-- LF_FRAME_TOTAL when the gate of candidate j in progress began (R511). -/
  gate : List (Nat × Nat) := []
  /-- DNU_BACK, and the word of loop-timed ports, as the last tick took them (R25, R527). -/
  dnu : Bool := true
  loopQl : Option Nat := none
  /-- The number of the T1 frame in progress. -/
  t1num : Nat × Nat := (0, 0)
  /-- The words of TG_CK_CFG, TG_CK_DLY and TG_FP_CFG that are in effect: DIV, DLY, SEL and WIDTH of them (R530). -/
  outs : List Nat := []
  /-- What is left of a local-frame realignment, in fs (R532). -/
  rl : Int := 0
  deriving DecidableEq, Repr

/-! ### Bench cores, bus matrix and interrupt controller (chapter 17) -/

/-- A firmware replacement under way (R646): firmware is absent, and not only waiting for commands to end. -/
structure SwapX where
  absent : Bool := false
  deriving DecidableEq, Repr

/-- Block BC beyond its registers. -/
structure BcX where
  /-- Firmware has reported ready since reset (R705). -/
  booted : Bool := false
  /-- The role that BC[4] is taking over (R625). -/
  takeover : Option Nat := none
  /-- The FCLK cycle in which BC[4] last took a role over (R654, R656). -/
  takenAt : Option Nat := none
  /-- Roles that no core serves (R626). -/
  bare : List Nat := []
  swap : Option SwapX := none
  /-- The stage buffer, each byte that was written plus 1, and the bytes loaded into it (R645). -/
  stage : List (Nat × Nat) := []
  loaded : Nat := 0
  deriving DecidableEq, Repr

/-- A transaction that the matrix holds: who made it, its ID, its target, and the cycles until its response is complete. The
response of an isolated core's transaction is discarded (R659). -/
structure BusTx where
  m : Nat
  id : Nat
  target : Nat
  left : Nat
  deriving DecidableEq, Repr

/-- Block BM beyond its registers. -/
structure BmX where
  /-- Working SRAM, by byte offset. -/
  sram : List Host.Cell := []
  /-- Requests that wait, oldest first. -/
  waiting : List BusReq := []
  /-- How many of them, the last ones, were made in the cycle in progress (R631). -/
  asked : Nat := 0
  out : List BusTx := []
  /-- The master last granted at a target, and consecutive arbitrations lost by master m at target T, keyed 8 × T + m. -/
  last : List (Nat × Nat) := []
  lost : List (Nat × Nat) := []
  /-- Cycles for which a burst still holds target T (R632). -/
  busy : List (Nat × Nat) := []
  deriving DecidableEq, Repr

/-- Block IC beyond its registers. -/
structure IcX where
  /-- Bit h: source h is pending; an edge source's latched bit; an edge to be pending again after its end (R637). -/
  pend : Nat := 0
  edge : Nat := 0
  again : Nat := 0
  /-- Sources that core n has in service with the priority of each, innermost first. -/
  stack : List (Nat × List (Nat × Nat)) := []
  /-- FCLK cycles left of group y's hold-off. -/
  hold : List (Nat × Nat) := []
  /-- The address at which core n was last told to fetch (R639). -/
  vector : List (Nat × Nat) := []
  deriving DecidableEq, Repr

/-! ### The sensor front end (chapter 16) -/

/-- A conversion that waits for its linearisation (R594): the averaged code, the bridge excitation, an overload and its sign,
whether a source reached its limit, and FE_CFG and FE_EXC as they stood over the window. -/
structure FeConv where
  code : Int
  exc : Int
  overR : Option Bool
  fault : Bool
  cfg : Nat
  drive : Nat
  deriving DecidableEq, Repr

/-- Front-end channel f beyond its registers. -/
structure FeChan where
  /-- The last two samples as their tributaries carry them (R607). -/
  out0 : Option MadeT := none
  out1 : Option MadeT := none
  /-- Local frame starts since the present settings and numbering took hold, up to 300 (R595, R612). -/
  stood : Nat := 0
  /-- A window or its excitation is in progress in the local frame in progress (R595), and the window itself (R612). -/
  busy : Bool := false
  inWindow : Bool := false
  /-- A window ended at the start of the frame in progress and its sample is not made yet: FE_CFG and FE_EXC as they stood
  over it. -/
  ready : Option (Nat × Nat) := none
  /-- Its conversion, waiting for the cold junction that completes in the same frame (R614). -/
  held : Option FeConv := none
  /-- A clamped cycle fell in the local frame in progress; whole frames since the last clamped cycle, up to 300 (R601). -/
  clamped : Bool := false
  clean : Nat := 300
  /-- A periodic check is due (R603); the check in progress, by LF_FRAME_TOTAL of its start and its end (R602), and whether a
  pin was clamped during it (R604). -/
  chkDue : Bool := false
  chk : Option (Nat × Nat) := none
  chkClamp : Bool := false
  /-- The window that ends next overlaps a check and gives no sample (R603). -/
  overlap : Bool := false
  /-- Samples produced since reset. -/
  made : Nat := 0
  /-- The last verdict was not OK (R604). -/
  impFault : Bool := false
  /-- FE_CHECK commands that wait for the verdict (R610, R618). -/
  jobs : List JobKind := []
  deriving DecidableEq, Repr

/-- Block FE beyond its registers. -/
structure FeX where
  chan : List (Nat × FeChan) := []
  deriving DecidableEq, Repr

/-! ### The state -/

/-- The whole unit: the commands that wait, the registers, and what stands beside them in each block. -/
structure State where
  /-- Commands waiting to be carried out, first in first out. -/
  pending : List Instr
  /-- Registers and table words, by byte address (R3, R174). -/
  regs : List (Nat × Word)
  /-- Bit b: block b is locked (R185). -/
  locks : Nat
  /-- The model's own: how many open values have been drawn. -/
  freeIx : Nat
  /-- FCLK cycles since the release of internal reset. -/
  cyc : Nat
  chip : ChipX
  otp : OtpX
  ch : ChX
  mp : MpX
  store : StoreX
  cf : CfX
  fa : FaX
  port : List (Nat × PortX)
  num : NumX
  xc : XcX
  gr : GrX
  qm : QmX
  dm : DmX
  ps : PsX
  tod : TodX
  kf : KfX
  fe : FeX
  tg : TgX
  bc : BcX
  bm : BmX
  ic : IcX
  deriving DecidableEq, Repr

/-! ### Reset -/

/-- Reads of a record map default to the record at reset. -/
def portDflt : Nat → PortX := fun _ => {}
def tribDflt : Nat → TribX := fun _ => {}
def gearDflt : Nat → GearX := fun _ => {}
def recipeDflt : Nat → RecipeX := fun _ => {}
def queueDflt : Nat → QueueX := fun _ => {}
def pktTribDflt : Nat → PktTrib := fun _ => {}
def clientDflt : Nat → ClientX := fun _ => {}
def feDflt : Nat → FeChan := fun _ => {}
def groupDflt : Nat → GroupX := fun _ => {}
def stageDflt : Nat → StageX := fun _ => {}
def cacheDflt : Nat → PairCache := fun _ => {}
def defDflt : Nat → DefCnt := fun _ => {}
def winDflt : Nat → BipWin := fun _ => {}
def pmDflt : Nat → PmPort := fun _ => {}
def secDflt : Nat → SecRec := fun _ => {}
def binDflt : Nat → BinRec := fun _ => {}
/-- DESIGN CHOICE, unsafe (notes/assumptions/10). -/
def byteDflt : Nat → Byte := fun _ => 0

/-- A memory held byte by byte is in its canonical form: addresses strictly rising, no byte listed that reads as an unlisted one. -/
def Memory.wf (m : List Host.Cell) : Bool := SMap.wf byteDflt m

def fifoDflt : Nat → List (List Nat) := fun _ => []
def stackDflt : Nat → List (Nat × Nat) := fun _ => []
def zeroDflt : Nat → Nat := fun _ => 0
def pageDflt : Nat → Nat := fun l => l

/-- The machine could stop with a fault in no command: spec/ gives every row an effect on every state. The type is
kept for the host's interface; no meaning answers with it. -/
inductive Fault where
  /-- Raised by no command; safe. -/
  | none_
  deriving DecidableEq, Repr

/-- Why a command is turned away without a meaning. -/
inductive Refusal where
  /-- Raised by Machine/Dispatch.lean for a row that has no meaning yet; safe. -/
  | notModelled (mnemonic : String)
  deriving DecidableEq, Repr

/-- The machine right after the release of internal reset that follows a power-up (R91, R700, Table 19.3).
DESIGN CHOICE, safe (notes/assumptions/5). DESIGN CHOICE, unsafe (notes/assumptions/8). DESIGN CHOICE, unsafe (notes/assumptions/93). -/
def State.reset : State where
  pending := []
  regs := [(0x40080014, 4), (0x40080114, 4), (0x40080214, 4), (0x40080314, 4),
    (0x400B0004, BitVec.ofNat 32 (uidHash 0x2507682581701FD91428A200#96))]
  locks := 0
  freeIx := 0
  cyc := 0
  chip := { lowRail := true }
  otp := { uid := 0x2507682581701FD91428A200#96 }
  ch := {}
  mp := {}
  store := {}
  cf := {}
  fa := {}
  port := []
  num := {}
  xc := {}
  gr := {}
  qm := {}
  dm := {}
  ps := {}
  tod := {}
  kf := {}
  fe := {}
  tg := {}
  bc := {}
  bm := {}
  ic := {}

end Sys2Proof.Machine
end

