-- ==== Sys2Proof/Machine/Ops.lean ====
section
/-!
DEFINITION. Machine/Ops.lean: the named operations over registers, fields, per-instance records and open values.
Every meaning reads and writes the state through these.
-/
namespace Sys2Proof.Machine

namespace State

/-! ### Registers and fields -/

/-- The word stored for the register at byte address `a`. -/
def reg (s : State) (a : Nat) : Word := SMap.get resetWord s.regs a

/-- The register at byte address `a` replaced whole. -/
def setReg (s : State) (a : Nat) (v : Word) : State := { s with regs := SMap.set resetWord s.regs a v }

/-- The value of instance [i][j] of a field. -/
def get (s : State) (f : Field) (i : Nat := 0) (j : Nat := 0) : Nat := bitsOf (s.reg (f.addr i j)).toNat f.lo f.w

/-- Whether instance [i][j] of a field is not 0. -/
def on (s : State) (f : Field) (i : Nat := 0) (j : Nat := 0) : Bool := s.get f i j != 0

end State

/-- `n` with its bits `lo + w - 1 … lo` replaced by the low `w` bits of `v`. -/
def insertBits (n lo w v : Nat) : Nat :=
  v % 2 ^ w * 2 ^ lo + (n % 2 ^ lo + 2 ^ (lo + w) * (n / 2 ^ (lo + w)))

namespace State

/-- Instance [i][j] of a field given the value `v`; the register's other bits stay. -/
def put (s : State) (f : Field) (v : Nat) (i : Nat := 0) (j : Nat := 0) : State :=
  s.setReg (f.addr i j) (BitVec.ofNat 32 (insertBits (s.reg (f.addr i j)).toNat f.lo f.w v))

/-- A status or event bit set to 1. -/
def raiseBit (s : State) (f : Field) (i : Nat := 0) (j : Nat := 0) : State := s.put f 1 i j

/-- A counter field that stops at its all-ones value. -/
def bumpSat (s : State) (f : Field) (k : Nat := 1) (i : Nat := 0) (j : Nat := 0) : State :=
  s.put f (satAdd f.w (s.get f i j) k) i j

/-- A counter field that wraps. -/
def bumpWrap (s : State) (f : Field) (k : Nat := 1) (i : Nat := 0) (j : Nat := 0) : State :=
  s.put f (s.get f i j + k) i j

/-- A 64-bit counter held in two consecutive registers, low half first. -/
def bump64 (s : State) (lo : Field) (k : Nat) (i : Nat := 0) : State :=
  let hi : Field := { lo with base := lo.base + 4 }
  let n := s.get lo i + 2 ^ 32 * s.get hi i + k
  (s.put lo (n % 2 ^ 32) i).put hi (n / 2 ^ 32) i

/-- The registers whose byte address `drop` admits returned to their reset words. -/
def clearRegs (s : State) (drop : Nat → Bool) : State :=
  { s with regs := SMap.restrict (fun a => !drop a) s.regs }

/-! ### Locks (R185) -/

/-- Whether block `b` is locked. -/
def locked (s : State) (b : Nat) : Bool := s.locks.testBit b

/-! ### Open values -/

/-- The next open value.
DESIGN CHOICE, safe (notes/assumptions/11). -/
def drawn (s : State) : Word := Config.freeValue s.freeIx

/-- The state after an open value has been drawn.
DESIGN CHOICE, safe (notes/assumptions/11). -/
def draw (s : State) : State := { s with freeIx := s.freeIx + 1 }

end State

/-- `n` bytes that spec/ leaves open. -/
def openBytes (s : State) (n : Nat) : State × List Byte :=
  ({ s with freeIx := s.freeIx + n }, (List.range n).map fun i => BitVec.ofNat 8 (Config.freeValue (s.freeIx + i)).toNat)

/-- Bytes from offset `off` of a buffer that lists each written byte plus 1; `open_` gives the others.
DESIGN CHOICE, safe (notes/assumptions/37). -/
def openGet (m : List (Nat × Nat)) (open_ : Nat → Byte) (off n : Nat) : List Byte :=
  (List.range n).map fun i =>
    match SMap.get zeroDflt m (off + i) with
    | 0 => open_ (off + i)
    | b + 1 => BitVec.ofNat 8 b

/-- Bytes written into such a buffer. -/
def openPut (m : List (Nat × Nat)) (off : Nat) : List Byte → List (Nat × Nat)
  | [] => m
  | b :: bs => openPut (SMap.set zeroDflt m off (b.toNat + 1)) (off + 1) bs

namespace State

/-! ### Records kept per instance -/

def portX (s : State) (p : Nat) : PortX := SMap.get portDflt s.port p
def modPort (s : State) (p : Nat) (f : PortX → PortX) : State :=
  { s with port := SMap.set portDflt s.port p (f (s.portX p)) }

def tribX (s : State) (t : Nat) : TribX := SMap.get tribDflt s.xc.trib t
def modTrib (s : State) (t : Nat) (f : TribX → TribX) : State :=
  { s with xc.trib := SMap.set tribDflt s.xc.trib t (f (s.tribX t)) }

def gearX (s : State) (g : Nat) : GearX := SMap.get gearDflt s.gr.gear g
def modGear (s : State) (g : Nat) (f : GearX → GearX) : State :=
  { s with gr.gear := SMap.set gearDflt s.gr.gear g (f (s.gearX g)) }

def recipeX (s : State) (x : Nat) : RecipeX := SMap.get recipeDflt s.gr.recipe x
def modRecipe (s : State) (x : Nat) (f : RecipeX → RecipeX) : State :=
  { s with gr.recipe := SMap.set recipeDflt s.gr.recipe x (f (s.recipeX x)) }

def queueX (s : State) (q : Nat) : QueueX := SMap.get queueDflt s.qm.queue q
def modQueue (s : State) (q : Nat) (f : QueueX → QueueX) : State :=
  { s with qm.queue := SMap.set queueDflt s.qm.queue q (f (s.queueX q)) }

def pktTrib (s : State) (t : Nat) : PktTrib := SMap.get pktTribDflt s.qm.trib t
def modPktTrib (s : State) (t : Nat) (f : PktTrib → PktTrib) : State :=
  { s with qm.trib := SMap.set pktTribDflt s.qm.trib t (f (s.pktTrib t)) }

def clientX (s : State) (c : Nat) : ClientX := SMap.get clientDflt s.qm.client c
def modClient (s : State) (c : Nat) (f : ClientX → ClientX) : State :=
  { s with qm.client := SMap.set clientDflt s.qm.client c (f (s.clientX c)) }

def feX (s : State) (f : Nat) : FeChan := SMap.get feDflt s.fe.chan f
def modFe (s : State) (n : Nat) (f : FeChan → FeChan) : State :=
  { s with fe.chan := SMap.set feDflt s.fe.chan n (f (s.feX n)) }

def groupX (s : State) (u : Nat) : GroupX := SMap.get groupDflt s.ps.group u
def modGroup (s : State) (u : Nat) (f : GroupX → GroupX) : State :=
  { s with ps.group := SMap.set groupDflt s.ps.group u (f (s.groupX u)) }

def stageX (s : State) (j : Nat) : StageX := SMap.get stageDflt s.cf.stages j
def modStage (s : State) (j : Nat) (f : StageX → StageX) : State :=
  { s with cf.stages := SMap.set stageDflt s.cf.stages j (f (s.stageX j)) }

def cacheX (s : State) (i : Nat) : PairCache := SMap.get cacheDflt s.cf.caches i
def modCache (s : State) (i : Nat) (f : PairCache → PairCache) : State :=
  { s with cf.caches := SMap.set cacheDflt s.cf.caches i (f (s.cacheX i)) }

/-! ### Local frame numbers (R280, R302, R307) -/

/-- The number (S, F) of the local frame in progress. -/
def frameNum (s : State) : Nat × Nat := (s.get F.LF_NOW_S, s.get F.LF_NOW_F)

/-- LF_FRAME_TOTAL (R307). -/
def frameTotal (s : State) : Nat := s.get F.LF_FRAME_TOTAL

/-- FCLK cycles of the local frame in progress that have passed. -/
def inFrame (s : State) : Nat := s.cyc - s.tod.frameAt

end State

/-- Frames per second, and the FCLK cycles of one frame (R12, R279). -/
def framesPerSec : Nat := 31250
def frameCycles : Nat := 12800

/-- The frame number that follows (S, F) (R280). -/
def nextNum (n : Nat × Nat) : Nat × Nat :=
  if n.2 + 1 < framesPerSec then (n.1, n.2 + 1) else ((n.1 + 1) % 2 ^ 32, 0)

/-- How many frames `n` lies after `m`, S − S′ taken as a signed 32-bit difference (R226). -/
def numDiff (n m : Nat × Nat) : Int :=
  toSigned 32 (n.1 + 2 ^ 32 - m.1 % 2 ^ 32) * framesPerSec + ((n.2 : Int) - (m.2 : Int))

/-- `k` frames after the number `n` (before it when `k` is negative). -/
def addNum (n : Nat × Nat) (k : Int) : Nat × Nat :=
  let x : Int := n.1 * framesPerSec + n.2 + k
  let m : Nat := (x % ((2 ^ 32 * framesPerSec : Nat) : Int)).toNat
  (m / framesPerSec, m % framesPerSec)

/-- Repeats an operation for i = 0 … n − 1, in order. -/
def forN : Nat → (Nat → State → State) → State → State
  | 0, _, s => s
  | n + 1, f, s => f n (forN n f s)

/-- Repeats an operation for every element of a list, in order. -/
def forList {α : Type} : List α → (α → State → State) → State → State
  | [], _, s => s
  | x :: xs, f, s => forList xs f (f x s)

end Sys2Proof.Machine
end

