-- ==== Sys2Proof/Machine/Spline.lean ====
section
/-!
DEFINITION. Machine/Spline.lean: the register words that a frame works by (R330, R373) and the user Spline tables (R599, R600).
-/
namespace Sys2Proof.Machine

/-- Whether a word is taken for each local frame: the GR registers, the recipe steps and the Spline tables (R373, R599). -/
def inSnap (a : Nat) : Bool :=
  (Nat.ble 0x38000000 a && Nat.blt a 0x38002000) || (Nat.ble 0x40060000 a && Nat.blt a 0x40070000) ||
  (Nat.ble 0x400F8000 a && Nat.blt a 0x400FC000)

/-- Whether a word decides how a transmit frame is filled: the slot maps, XC_IDLE, the select registers and the contexts (R330), and
what AIS (R446) and the protection groups (R485, R488) make of them: LF_PSTATUS, the DM port registers, block PS.
DEDUCED, unsafe (notes/assumptions/49). -/
def inFill (a : Nat) : Bool :=
  (Nat.ble 0x30000000 a && Nat.blt a 0x30040000) || a == 0x40050000 ||
  (Nat.ble 0x40050100 a && Nat.blt a 0x40050200 && a % 16 == 0) ||
  (Nat.ble 0x40051000 a && Nat.blt a 0x40052000 && a % 16 == 0) ||
  (Nat.ble 0x40041000 a && Nat.blt a 0x40042000 && a % 256 == 4) ||
  (Nat.ble 0x40091000 a && Nat.blt a 0x40092000) || (Nat.ble 0x400A0000 a && Nat.blt a 0x400B0000)

/-- The words of R330 and R373 taken as they stand.
DEDUCED, unsafe (notes/assumptions/49). -/
def takeSnap (s : State) : State :=
  { s with gr.snap := SMap.restrict inSnap s.regs, xc.snap := SMap.restrict inFill s.regs }

/-- The words of R373 in the local frame in progress: as they stand throughout its first cycle, and afterwards as they stood at that
cycle's end. -/
def State.grWords (s : State) : List (Nat × Word) := if s.inFrame = 0 then s.regs else s.gr.snap

/-- Instance [i][j] of a field as the local frame in progress takes it (R373). -/
def State.snap (s : State) (f : Field) (i : Nat := 0) (j : Nat := 0) : Nat :=
  bitsOf (SMap.get resetWord s.grWords (f.addr i j)).toNat f.lo f.w

/-- The knots of a table: K pairs (X, Y), read through `look`. -/
def knots (look : Field → Nat → Nat → Nat) (n : Nat) : List (Int × Int) :=
  (List.range (min (look F.FE_SPL_K_K n 0) 32)).map fun k =>
    (toSigned 32 (look F.FE_SPL_X n k), toSigned 32 (look F.FE_SPL_Y n k))

/-- Whether the X values rise strictly. -/
def rising : List (Int × Int) → Bool
  | a :: b :: rest => decide (a.1 < b.1) && rising (b :: rest)
  | _ => true

/-- A table is valid with 2 to 32 knots whose X values rise strictly (R599). -/
def tableValid (k : Nat) (ks : List (Int × Int)) : Bool := Nat.ble 2 k && Nat.ble k 32 && rising ks

/-- `n / d` rounded to the nearest integer, halves toward +∞, for a positive `d`. -/
def roundHalfUp (n : Int) (d : Int) : Int := (2 * n + d) / (2 * d)

/-- The value of a valid table at `x` from its knots, and whether `x` lies outside them (R600). -/
def interpolate : List (Int × Int) → Int → Int × Bool
  | [], _ => (0, true)
  | [k], x => (k.2, decide (x ≠ k.1))
  | a :: b :: rest, x =>
    if x < a.1 then (a.2, true)
    else if x < b.1 ∨ (x = b.1 ∧ rest = []) then
      (a.2 + roundHalfUp ((x - a.1) * (b.2 - a.2)) (b.1 - a.1), false)
    else interpolate (b :: rest) x

/-- Table n applied to x, on the words of the frame in progress: none when the table is not valid. -/
def splineNow (s : State) (n : Nat) (x : Int) : Option (Int × Bool) :=
  let ks := knots (fun f i j => s.snap f i j) n
  if tableValid (s.snap F.FE_SPL_K_K n) ks then some (interpolate ks x) else none

/-- Table n applied to x, on the words as they stand. -/
def splineLive (s : State) (n : Nat) (x : Int) : Option (Int × Bool) :=
  let ks := knots (fun f i j => s.get f i j) n
  if tableValid (s.get F.FE_SPL_K_K n) ks then some (interpolate ks x) else none

/-- FE_SPL_VALID judged for the frame in progress (R599). -/
def refreshSplValid (s : State) : State :=
  let v := (List.range 16).foldl (fun m n =>
    if tableValid (s.snap F.FE_SPL_K_K n) (knots (fun f i j => s.snap f i j) n) then m + 2 ^ n else m) 0
  s.put F.FE_SPL_VALID_VALID v

end Sys2Proof.Machine
end

