-- ==== Sys2Proof/Machine/RegWrite.lean ====
section
/-!
DEFINITION. Machine/RegWrite.lean: the status codes of Table 4.6 and how one word write is judged and stored (R182,
R184, R186, R194).  What a block refuses and what a write of its registers sets off stand in the block's own file.
-/
namespace Sys2Proof.Machine

/-! ### Status codes (Table 4.6) -/

namespace St
def ok : Nat := 0x00
def pending : Nat := 0x01
def badCrc : Nat := 0x02
def badOpcode : Nat := 0x03
def badParam : Nat := 0x04
def badLength : Nat := 0x05
def busy : Nat := 0x06
def locked : Nat := 0x07
def wrongState : Nat := 0x08
def range : Nat := 0x09
def spent : Nat := 0x0A
def worn : Nat := 0x0B
def tooLate : Nat := 0x0C
def sigFail : Nat := 0x0D
def faultActive : Nat := 0x0E
def notPresent : Nat := 0x0F
end St

/-- Status RANGE where the condition holds, OK otherwise. -/
def rangeIf (b : Bool) : Nat := if b then St.range else St.ok

/-! ### One word -/

/-- The block whose register window holds the address (Table 5.1). -/
def blockOf (a : Nat) : Nat := a / 0x10000 - 0x4000

/-- The block whose lock covers a lockable register: map tables belong to XC, gearing and recipe memory to GR. -/
def lockBlock (a : Nat) : Nat :=
  if a < 0x38000000 then 5 else if a < 0x3C000000 then 6 else blockOf a

/-- The reasons of R194 that do not depend on the block: undefined, locked; an OTP word comes last. -/
def plainReason (s : State) (a : Nat) (value : Nat) : Nat :=
  match specAt a with
  | none => St.notPresent
  | some r =>
    if r.lock && s.locked (lockBlock a) then St.locked
    else if value != St.ok then value
    else if r.otp != 0 then St.badParam
    else St.ok

/-- The word as a write leaves it: RW bits take the value, W1C bits written 1 clear, the rest stay (Table 0.2).
DEDUCED, safe (notes/assumptions/30). -/
def mergeWrite (r : RegSpec) (old v : Nat) : Nat :=
  (v &&& r.rw) ||| (old &&& (0xFFFFFFFF ^^^ (r.rw ||| (r.w1c &&& v))))

/-- The word written to the register store. -/
def storeWord (s : State) (a v : Nat) : State :=
  match specAt a with
  | none => s
  | some r => s.setReg a (BitVec.ofNat 32 (mergeWrite r (s.reg a).toNat v))

/-- A refusal LOCKED counts in MP_LOCK_VIOL (R187). -/
def countLock (s : State) (st : Nat) : State := if st = St.locked then s.bumpSat F.MP_LOCK_VIOL_COUNT else s

/-- One word write judged, then stored with its consequences, as a command other than a register-access command
makes it: `judge` gives what the block refuses (0: nothing), `hook` what the write sets off, from the value written
and the word as it stood. -/
def writeBy (judge : State → Nat → Nat → Nat) (hook : Nat → Nat → Nat → State → State) (s : State) (a v : Nat) : State :=
  let st := plainReason s a (judge s a v)
  if st = St.ok then hook a v (s.reg a).toNat (storeWord s a v) else countLock s st

/-- What the words of one command set off, each from the state in which all of them are stored (R173): address, value
and the word as it stood. -/
def runHooks (hook : Nat → Nat → Nat → State → State) : List (Nat × Nat × Nat) → State → State
  | [], s => s
  | (a, v, old) :: ws, s => runHooks hook ws (hook a v old s)

/-- Words written together: every one judged on its own, those accepted stored, then what they set off (R173). -/
def writeGroup (judge : State → Nat → Nat → Nat) (hook : Nat → Nat → Nat → State → State) (s : State)
    (ws : List (Nat × Nat)) : State :=
  let ok := ws.filter fun w => plainReason s w.1 (judge s w.1 w.2) == St.ok
  let held := ok.map fun w => (w.1, w.2, (s.reg w.1).toNat)
  let s := forList ws (fun w t => countLock t (plainReason s w.1 (judge s w.1 w.2))) s
  runHooks hook held (forList ok (fun w s => storeWord s w.1 w.2) s)

end Sys2Proof.Machine
end

