-- ==== Sys2Proof/Machine/Body.lean ====
section
/-!
DEFINITION. Machine/Body.lean: what the action of an opcode answers, and the results that events of their own bring.
-/
namespace Sys2Proof.Machine

/-- What the action of an opcode answers: its status and data with the state it leaves, or that the command goes on
until an event of its own ends it. -/
inductive Out where
  | done (s : State) (status : Nat) (data : List Byte)
  | wait (s : State)

/-- A refusal that changes nothing. -/
def refuse (s : State) (status : Nat) : Out := .done s status []

/-- A refusal whole with LOCKED counts once in MP_LOCK_VIOL (R187). -/
def refuseLocked (s : State) : Out := .done (countLock s St.locked) St.locked []

/-- The result of a firmware-served command whose action has ended.
DEDUCED, safe (notes/assumptions/28). -/
def postResult (s : State) (k : JobKind) (status : Nat) (data : List Byte) : State :=
  { s with mp.ready := s.mp.ready ++ [(k, status, data)] }

/-- A frame number in reply data: S (4) and F (2). -/
def numBytes (n : Nat × Nat) : List Byte := toLE 4 n.1 ++ toLE 2 n.2

/-- The start numbers of the next frame and of the one after it, as they stand. -/
def State.secondNext (s : State) : Nat × Nat :=
  nextNum (match s.num.next with
    | some n => n
    | none => nextNum s.frameNum)

end Sys2Proof.Machine
end

