-- ==== Sys2Proof/Machine/LfCore.lean ====
section
/-!
DEFINITION. Machine/LfCore.lean: the frame finder, the multiframe machine and the message receiver of a port as other
blocks touch them: a port that enters or leaves RUNNING, a fall of CODE_SYNC (chapter 8).
-/
namespace Sys2Proof.Machine

/-- Port state codes of LP_STATUS.STATE (Table 7.6). -/
def portRunning (s : State) (p : Nat) : Bool := s.get F.LP_STATUS_STATE p == 2

/-- The frame finder of port p is in SYNC (Table 8.11). -/
def portInSync (s : State) (p : Nat) : Bool := s.get F.LF_PSTATUS_FSTATE p == 2

/-- A message in progress is discarded: counted in DROPS, and MC_DROP set (R293). -/
def mcDrop (s : State) (p : Nat) : State :=
  ((s.modPort p fun x => { x with mcRx := none }).bumpSat F.LF_MC_CNT_DROPS 1 p).raiseBit F.LF_PEVENT_MC_DROP p

/-- The message in progress, if any, is discarded.
DEDUCED, unsafe (notes/assumptions/51). -/
def mcDiscard (s : State) (p : Nat) : State :=
  match (s.portX p).mcRx with
  | none => s
  | some _ => mcDrop s p

/-- The multiframe machine goes to OOM (Table 8.6); received numbers, the trace and the time-of-day message in
collection end with it (R288, R291, R300). Traces collected whole before keep counting. -/
def toOom (s : State) (p : Nat) : State :=
  let s := if s.on F.LF_PSTATUS_IM p then s.raiseBit F.LF_PEVENT_IM_LOST p else s
  let s := (s.put F.LF_PSTATUS_IM 0 p).put F.LF_RX_NUM_F_VALID 0 p
  s.modPort p fun x => { x with mfK := 0, label := none, traceBuf := [], todBuf := [] }

/-- The frame finder goes to HUNT (Table 8.5). From SYNC, the multiframe machine leaves IM and the message in progress
is discarded; `counted` says whether the event counts as out of frame. -/
def finderHunt (s : State) (p : Nat) (counted : Bool) : State :=
  let was := portInSync s p
  let s := (s.put F.LF_PSTATUS_FSTATE 0 p).put F.LF_PSTATUS_E 0 p
  if was then
    let s := if counted then (s.bumpSat F.LF_FRAMING_CNT_OOF_EVENTS 1 p).raiseBit F.LF_PEVENT_OOF p else s
    let s := mcDiscard (toOom (s.put F.LF_RX_PHASE_VALID 0 p) p) p
    s.modPort p fun x => { x with prevNum := none, rxBip := none, rxGood := false }
  else s

/-- Reference candidate j becomes inactive (R510). -/
def candInactive (s : State) (j : Nat) : State := s.put F.TG_REF_STAT_ACTIVE 0 j

/-- Reference candidate j becomes active: its gate restarts, and no QL word has come since (R511, R513). -/
def candActive (s : State) (j : Nat) : State :=
  let s := (s.put F.TG_REF_STAT_ACTIVE 1 j).put F.TG_REF_FREQ 0x80000000 j
  { s with tg.seen := s.tg.seen &&& (2 ^ 20 - 1 - 2 ^ j), tg.gate := SMap.set (fun _ => 0) s.tg.gate j s.frameTotal }

/-- Line candidate p follows RCLK_VALID. -/
def candFollow (s : State) (p : Nat) (valid : Bool) : State :=
  if s.on F.TG_REF_STAT_ACTIVE p == valid then s else if valid then candActive s p else candInactive s p

/-- Word time at a rate class, in hundredths of an FCLK cycle (R342). -/
def wordTime (rate : Nat) : Nat :=
  match rate with
  | 0 => 640
  | 1 => 320
  | 2 => 160
  | _ => 64

/-- Times are hundredths of an FCLK cycle from the first local frame, counted over one turn of LF_FRAME_TOTAL. -/
def timeTurn : Nat := 2 ^ 32 * 1280000

/-- The time of a moment `phase` FCLK into the local frame in progress. -/
def State.timeAt (s : State) (phase : Nat) : Nat := s.frameTotal * 1280000 + phase * 100

/-- `a` is not later than `b`. -/
def timeLe (a b : Nat) : Bool := Nat.blt ((b + timeTurn - a % timeTurn) % timeTurn) (timeTurn / 2)

/-- CDR_LOCK or SIG_DET of port p fell: the copies whose last slot is still to come are not good (R480). -/
def copiesCut (s : State) (p : Nat) : State :=
  let hit (d : Deskew) : Bool :=
    let slots := d.copy.slots.foldl (fun m e => max m (e.1 + 1)) 0
    d.port == p && (s.portX p).label == some d.num &&
      !timeLe (d.copy.at_ + (32 + 4 * slots) * wordTime d.copy.rate) (s.timeAt s.inFrame)
  { s with ps.deskew := SMap.mapVals (fun _ => []) (fun _ l => l.map fun d => if hit d then { d with good := false } else d) s.ps.deskew }

/-- What LF does when port p leaves RUNNING (R297, R301, R310, R317). -/
def lfLeaveRunning (s : State) (p : Nat) : State :=
  let s := mcDiscard (finderHunt s p false) p
  let s := ((s.put F.LF_PSTATUS_LOF 0 p).put F.LF_PSTATUS_LOM 0 p).put F.LF_PSTATUS_INJ_BUSY 0 p
  s.modPort p fun x => { x with lofA := 0, lofB := 0, lomA := 0, lomB := 0, alignInj := 0, bipInj := 0, mcTx := none }

/-- What LF does when port p enters RUNNING (R297, Table 8.11). -/
def lfEnterRunning (s : State) (p : Nat) : State :=
  let s := (finderHunt s p false).put F.LF_PSTATUS_TRACE_VALID 0 p
  s.modPort p fun x => { x with txFresh := true }

end Sys2Proof.Machine
end

