-- ==== Sys2Proof/Machine/Faults.lean ====
section
/-!
DEFINITION. Machine/Faults.lean: the event log, the occurrence machine with its escalation and reactions, ALIVE's
stop, block resets, the checkers with their Jigs, and the row records of the repair engine (chapter 18).
-/
namespace Sys2Proof.Machine

/-- The 64-bit word that holds byte address `a`, wherever REMAP places working SRAM. -/
def eccWord (a : Nat) : Nat := (if a < 0x10000000 then 0x10000000 + a else a) / 8 * 8

/-- A write of the memory word at `a` leaves its 64-bit word good (R667).
DEDUCED, unsafe (notes/assumptions/90). -/
def eccWritten (s : State) (a : Nat) : State :=
  { s with fa.badWords := SMap.set (fun _ => 0) s.fa.badWords (eccWord a) 0 }

/-! ### The event log (R682) -/

/-- The TOD nanoseconds at the present cycle. -/
def State.todNanos (s : State) : Nat := s.tod.sub / 2 ^ 16

/-- Whether the entry whose SEQ is `old` is later than `ack`, modulo 2^32 (R308). -/
def seqLater (a b : Nat) : Bool :=
  let d := (a + 2 ^ 32 - b % 2 ^ 32) % 2 ^ 32
  Nat.ble 1 d && Nat.ble d (2 ^ 31 - 1)

/-- One entry written whole (Table 18.7); an entry that overwrites one not acknowledged counts in FA_LOG_LOST.
DEDUCED, unsafe (notes/assumptions/87). -/
def logPush (s : State) (kind subj detail : Nat) (inj esc : Bool := false) : State :=
  let seq := s.get F.FA_LOG_SEQ
  let slot := seq % 4096
  let overwrites := s.get F.FA_LOG slot 3 / 2 ^ 24 != 0 && seqLater (s.get F.FA_LOG slot 0) (s.get F.FA_LOG_ACKSEQ)
  let s1 := s.put F.FA_LOG seq slot 0
  let s2 := s1.put F.FA_LOG s.tod.sec slot 1
  let s3 := s2.put F.FA_LOG (b2n inj * 2 ^ 31 + b2n esc * 2 ^ 30 + s.todNanos % 2 ^ 30) slot 2
  let s4 := s3.put F.FA_LOG (kind % 256 * 2 ^ 24 + subj % 256 * 2 ^ 16 + detail % 65536) slot 3
  let s5 := eccWritten (eccWritten (s4.put F.FA_LOG_SEQ (seq + 1)) (0x3C000000 + 16 * slot)) (0x3C000008 + 16 * slot)
  if overwrites then s5.bumpSat F.FA_LOG_LOST_LOST else s5

/-! ### ALIVE and health (R674, R675) -/

/-- Whether occurrence z is open (R665). -/
def State.isOpen (s : State) (z : Nat) : Bool := (s.get F.FA_OPEN).testBit z

/-- The effective reactions and the effective class recorded for z (R671). -/
def State.effRx (s : State) (z : Nat) : Nat := SMap.get (fun _ => 0) s.fa.effRx z
def State.effCls (s : State) (z : Nat) : Nat := SMap.get (fun _ => 0) s.fa.effCls z

/-- Whether some open occurrence other than `z` has effective class `c`. -/
def State.otherOpen (s : State) (z c : Nat) : Bool :=
  (List.range 23).any fun y => y != z && s.isOpen y && s.effCls y == c

/-- Health is good while no open occurrence has ALIVE_STOP among its effective reactions (R674). -/
def State.healthGood (s : State) : Bool :=
  (List.range 23).all fun y => !(s.isOpen y && (s.effRx y).testBit 4)

/-- The loader holds the kick satisfied: in a firmware absence and a takeover (R647). -/
def kickHeld (s : State) : Bool :=
  s.bc.takeover.isSome || (match s.bc.swap with
    | some w => w.absent
    | none => false)

/-- The kick is satisfied while the last kick lies within 20 ms, and while the loader holds it so (R674). -/
def State.kickSatisfied (s : State) : Bool :=
  match s.fa.kickAge with
  | none => false
  | some n => kickHeld s || Nat.ble n 8000000

/-- The loader's hold of the kick ends where it stood before: the 20 ms are counted from here (R674). -/
def holdEnds (s : State) : State := { s with fa.kickAge := s.fa.kickAge.map fun _ => 0 }

/-- ALIVE stops, holds its level and shows its cause (Table 18.5A). -/
def aliveHold (s : State) (z : Nat) : State :=
  ({ s with fa.alive := .stopped, fa.aliveLeft := 0 }).put F.FA_ALIVE_CAUSE_Z z

/-- An occurrence with ALIVE_STOP is raised: a toggling ALIVE stops, and the log says so (Table 18.5A). -/
def aliveStop (s : State) (z : Nat) (inj esc : Bool := false) : State :=
  if s.fa.alive = .toggling then logPush (aliveHold s z) 0x08 z 0 inj esc else s

/-! ### Paired inputs -/

/-- The state of pair i: FALLBACK from a write of PAIR_CFG[i] on (R695). -/
def pairState (s : State) (i : Nat) : Nat := if s.fa.pairWritten.testBit i then 2 else s.get F.PAIR_STAT_STATE i

/-! ### Block resets (Table 18.3) -/

/-- The block that owns source z (Table 18.1), if any. -/
def ownerBlock (z : Nat) : Option Nat :=
  match z with
  | 2 | 3 | 10 | 11 | 12 => some 7
  | 4 | 5 | 8 | 9 => some 5
  | 6 | 7 => some 2
  | 13 => some 8
  | 14 => some 3
  | 15 | 22 => some 11
  | 20 => some 17
  | 21 => some 20
  | _ => none

/-- The state of line port p that block LP owns, returned to its reset value; the rest belongs to LF, which sees the
port leave RUNNING. -/
def PortX.lpReset (x : PortX) : PortX :=
  { x with loopTicks := 0, eyeBits := 0, eyeErrs := 0, eyeDwell := 0, errInject := false, modXfer := none, modWait := false,
           polling := false, pollDue := false, pollTicks := 0, txFresh := false, txLane := {}, txCode := [], genSt := 0,
           genCarry := 0, txGroups := [], rxCode := {}, chk := {}, modBus := [] }

/-- CREF_OK of every client as CREFCLK stands; while it is absent or out of tolerance, CREF_LOST is set (R416). -/
def refreshCref (s : State) : State :=
  forN 4 (fun c s =>
    let s := s.put F.CL_STATUS_CREF_OK (b2n (!s.chip.crefBad)) c
    if s.chip.crefBad then s.raiseBit F.CL_EVENT_CREF_LOST c else s) s

/-- The machines of block b restarted (Table 18.3); the memories the block owns stay.
DEDUCED, unsafe (notes/assumptions/42). -/
def restartBlock (s : State) (b : Nat) : State :=
  match b with
  | 2 => { s with cf := { staging := s.cf.staging, bootSkip := s.cf.bootSkip, bootDone := s.cf.bootDone } }
  | 3 => forN 16 (fun p s => (candFollow (lfLeaveRunning s p) p false).modPort p PortX.lpReset) s
  | 5 => { s with xc := {} }
  | 7 => { s with qm := { s.qm with gen := [], genBase := 0, queue := [], trib := [], differ := [], rebuilding := false, rebuildFrames := 0 } }
  | 8 => refreshCref { s with qm.client := [] }
  | 11 =>
    let s : State := { s with tg := {} }
    forN 16 (fun p s => candFollow s p (s.on F.LP_STATUS_RCLK_VALID p)) (s.put F.TG_HASH_OWN_HASH (uidHash s.otp.uid))
  | 17 => { s with bm := { sram := s.bm.sram } }
  | _ => s

/-- BLOCK_RST: the block's register fields return to their reset values and its machines restart (R669).
DEDUCED, unsafe (notes/assumptions/42). -/
def blockReset (s : State) (b : Nat) : State :=
  restartBlock ((s.clearRegs fun a => a / 0x10000 == 0x4000 + b).put F.TG_GSTAT_XO_OK (s.get F.TG_GSTAT_XO_OK)) b

/-! ### Reactions and the occurrence machine (R669, R671, Table 18.4) -/

/-- Bit n: bench core n is in RUN or STANDIN. -/
def State.runningCores (s : State) : Nat :=
  (List.range 5).foldl (fun m n =>
    let st := s.get F.BC_CORE_STATE n
    if st == 0 || st == 2 then m + 2 ^ n else m) 0

/-- A reset asked for by a reaction; several in one cycle keep the lowest code (R701).
DEDUCED, unsafe (notes/assumptions/7). -/
def askReset (s : State) (code z : Nat) : State :=
  match s.chip.resetDue with
  | some (c, _) => if code < c then { s with chip.resetDue := some (code, z) } else s
  | none => { s with chip.resetDue := some (code, z) }

/-- BLOCK_RST of block b: at once, or after the writes of the command whose cycle it falls in (R205). -/
def resetBlock (s : State) (b : Nat) : State :=
  match s.fa.blocksDue with
  | some m => { s with fa.blocksDue := some (m ||| 2 ^ b) }
  | none => blockReset s b

/-- What a command's writes do, and after them the block resets that fall in their cycle (R205). -/
def writesFirst {α : Type} (f : State → State × α) (s : State) : State × α :=
  match s.fa.blocksDue with
  | some _ => f s
  | none =>
    let r := f { s with fa.blocksDue := some 0 }
    let m := r.1.fa.blocksDue.getD 0
    (forN 21 (fun b s => if m.testBit b then blockReset s b else s) { r.1 with fa.blocksDue := none }, r.2)

/-- Core n is told to fetch at an offset from IC_VBASE (R639). -/
def fetchAt (s : State) (n off : Nat) : State :=
  { s with ic.vector := SMap.set (fun _ => 0) s.ic.vector n ((s.get F.IC_VBASE_BASE * 2 ^ 12 + off) % 2 ^ 32) }

/-- The non-maskable trap delivered to every core in RUN or STANDIN (Table 18.3). -/
def trapCores (s : State) : State :=
  let m := s.runningCores
  forN 5 (fun n s => if m.testBit n then fetchAt s n 0x600 else s) { s with fa.traps := s.fa.traps ||| m }

/-- The reactions `rx` of an occurrence of source z carried out (Table 18.3).
DEDUCED, unsafe (notes/assumptions/7). -/
def react (s : State) (z rx : Nat) (forced inj esc : Bool) : State :=
  let s := if rx.testBit 4 then aliveStop s z inj esc else s
  let s := if rx.testBit 1 then trapCores s else s
  let s := match rx.testBit 2, ownerBlock z with
    | true, some b => logPush (resetBlock s b) 0x05 z b inj esc
    | _, _ => s
  let s := if rx.testBit 3 then askReset (logPush s 0x04 z 1 inj esc) 4 z else s
  if forced then askReset (logPush s 0x04 z 2 inj esc) 5 z else s

/-- R681: an XC_SLICE_ERR asks the spare to take over the slice, when AUTO_SLICE is set and the spare is IDLE. -/
def sliceSwapRequest (s : State) (slice : Nat) : State :=
  if s.on F.FA_CTRL_AUTO_SLICE && s.get F.XC_SLICE_STAT_SPARE_STATE == 0 && Nat.blt slice 8 then
    let s := (((s.put F.XC_SLICE_STAT_SPARE_STATE 1).put F.XC_SLICE_STAT_TARGET slice).put
      F.XC_SLICE_STAT_ATTEMPTS 0)
    logPush { s with xc.force := false, xc.sliceJob := none, xc.loadFrames := 0 } 0x12 slice 0
  else s

/-- An occurrence of source z raised (R665, R671): counted, judged for escalation, logged, its reactions done. In
internal reset nothing is raised.
DEDUCED, unsafe (notes/assumptions/87). DESIGN CHOICE, unsafe (notes/assumptions/109). -/
def raise (s : State) (z info : Nat) (inj : Bool := false) : State :=
  if s.chip.held then s else
  let cls := s.get F.FA_SRC_CFG_CLASS z
  let rx := s.get F.FA_SRC_CFG_RX z
  let wasOpen := s.isOpen z
  let s := ((s.bumpSat F.FA_SRC_CNT_OCCURRENCES 1 z).put F.FA_SRC_TIME s.frameTotal z).put F.FA_SRC_INFO info z
  if wasOpen then
    react (logPush s 0x02 z info inj) z rx false inj false
  else
    let esc := cls != 2 && s.otherOpen z cls
    let eff := if esc then cls + 1 else cls
    let rxEff := if esc then rx ||| s.get F.FA_CLASS_RX_RX (eff - 1) else rx
    let forced := eff == 2 && s.otherOpen z 2
    let rxAll := if forced then rxEff ||| 8 else rxEff
    let s := if esc then (s.bumpSat F.FA_SRC_CNT_ESCALATIONS 1 z).put F.FA_ESC (s.get F.FA_ESC ||| 2 ^ z) else s
    let s := s.put F.FA_OPEN (s.get F.FA_OPEN ||| 2 ^ z)
    let s := { s with
      fa.effRx := SMap.set (fun _ => 0) s.fa.effRx z rxAll
      fa.effCls := SMap.set (fun _ => 0) s.fa.effCls z eff
      fa.autoAge := SMap.set (fun _ => 0) s.fa.autoAge z 0 }
    let s := react (logPush s 0x01 z info inj esc) z rxEff forced inj esc
    if z == 8 && !inj then sliceSwapRequest s info else s

/-- A level source: it raises when its condition begins and not again while the condition lasts (R666). -/
def raiseLevel (s : State) (z info : Nat) : State :=
  if s.fa.level.testBit z then s
  else raise { s with fa.level := s.fa.level ||| 2 ^ z } z info

/-- The end of a level condition (R666). -/
def endLevel (s : State) (z : Nat) : State :=
  { s with fa.level := s.fa.level &&& (2 ^ 23 - 1 - 2 ^ z) }

/-- An open occurrence acknowledged: closed, and logged with who did it (0 host, 1 automatic, 2 reset).
DESIGN CHOICE, unsafe (notes/assumptions/109). -/
def ackOne (s : State) (z who : Nat) : State :=
  if s.isOpen z then
    let keep := 2 ^ 23 - 1 - 2 ^ z
    let s := (s.put F.FA_OPEN (s.get F.FA_OPEN &&& keep)).put F.FA_ESC (s.get F.FA_ESC &&& keep)
    let s := { s with
      fa.effRx := SMap.set (fun _ => 0) s.fa.effRx z 0
      fa.effCls := SMap.set (fun _ => 0) s.fa.effCls z 0
      fa.autoAge := SMap.set (fun _ => 0) s.fa.autoAge z 0 }
    logPush s 0x03 z who
  else s

/-- Every open occurrence named in `mask` acknowledged, in increasing z. -/
def ackMask (s : State) (mask who : Nat) : State :=
  forN 23 (fun z s => if mask.testBit z then ackOne s z who else s) s

/-! ### Row records and remaps (R679, R680) -/

/-- The spare rows left in a region (FA_RP_ROWS). -/
def State.spareRows (s : State) (region : Nat) : Nat :=
  match region with
  | 0 => s.get F.FA_RP_ROWS_R0
  | 1 => s.get F.FA_RP_ROWS_R1
  | _ => s.get F.FA_RP_ROWS_R2

/-- The spare rows a region has when none is used (R679). -/
def spareTotal (region : Nat) : Nat := if region = 1 then 16 else 8

/-- FA_RP_ROWS of a region set. -/
def putSpares (s : State) (region n : Nat) : State :=
  match region with
  | 0 => s.put F.FA_RP_ROWS_R0 n
  | 1 => s.put F.FA_RP_ROWS_R1 n
  | _ => s.put F.FA_RP_ROWS_R2 n

/-- Whether a row is remapped, or is being remapped. -/
def State.rowTaken (s : State) (region row : Nat) : Bool :=
  s.fa.remaps.any (fun r => r.1 == region && r.2.1 == row) ||
  s.fa.remapping.any (fun r => r.1 == region && r.2.1 == row)

/-- A free spare taken and the copying of the row begun (R680, step 1).
DEDUCED, unsafe (notes/assumptions/88). -/
def startRemap (s : State) (region row : Nat) : State :=
  let left := s.spareRows region
  let spare := spareTotal region - left
  let s := putSpares s region (left - 1)
  { s with fa.remapping := s.fa.remapping ++ [(region, row, spare)] }

/-- A row that qualified: remapped with AUTO_ROW, or ROW_NO_SPARE logged once for it (R680). -/
def rowQualifies (s : State) (region row : Nat) : State :=
  if s.rowTaken region row || !s.on F.FA_CTRL_AUTO_ROW then s
  else if s.spareRows region = 0 then
    if s.fa.noSpare.contains (region, row) then s
    else logPush { s with fa.noSpare := s.fa.noSpare ++ [(region, row)] } 0x11 region row
  else startRemap s region row

/-- The records with a new corrected error of the row at time `now`, and whether it was the third within 86,400 s
of the oldest of the three (R679). A record older than 86,400 s is dropped; with 32 records of the region
held the one with the oldest last error makes room. -/
def noteRow (rows : List RowRec) (region row now : Nat) : List RowRec × Bool :=
  let rows := rows.filter fun r => Nat.ble now (r.last + 86400)
  match rows.find? (fun r => r.region == region && r.row == row) with
  | some r =>
    let third := match r.older with
      | some t => Nat.ble now (t + 86400)
      | none => false
    (rows.map (fun x => if x.region == region && x.row == row then { x with older := some x.last, last := now } else x),
     third)
  | none =>
    let mine := rows.filter fun r => r.region == region
    let rows := if mine.length < 32 then rows
      else
        let oldest := mine.foldl (fun m r => min m r.last) now
        match rows.findIdx? (fun r => r.region == region && r.last == oldest) with
        | some i => rows.eraseIdx i
        | none => rows
    (rows ++ [{ region := region, row := row, older := none, last := now }], false)

/-- An error of a row that is not injected: a corrected one is recorded, an uncorrectable one qualifies at once. -/
def rowError (s : State) (region row : Nat) (ue : Bool) : State :=
  if ue then rowQualifies s region row
  else
    let r := noteRow s.fa.rows region row (s.get F.FA_UPTIME)
    let s := { s with fa.rows := r.1 }
    if r.2 then rowQualifies s region row else s

/-! ### Checkers and their Jigs (R678) -/

/-- One check made by checker j: its mask, 0 when its count has run out; the count falls by 1. -/
def State.jigMask (s : State) (j : Nat) : Nat := if s.get F.FA_JIG_LEFT j = 0 then 0 else s.get F.FA_JIG_MASK j

/-- DEDUCED, unsafe (notes/assumptions/90). -/
def jigUse (s : State) (j : Nat) : State :=
  if s.get F.FA_JIG_LEFT j = 0 then s else s.put F.FA_JIG_LEFT (s.get F.FA_JIG_LEFT j - 1) j

/-- The error of the 64-bit word that holds byte address `a`, as stored: 0 none, 1 correctable, 2 uncorrectable. -/
def State.storedErr (s : State) (a : Nat) : Nat := SMap.get (fun _ => 0) s.fa.badWords (eccWord a)

/-- The memory region of a checked byte address: its checker j (Table 18.5), its region and its row (R679).
DEDUCED, unsafe (notes/assumptions/57). -/
def eccPlace (s : State) (a : Nat) : Option (Nat × Nat × Nat) :=
  let remap := s.on F.BM_CTRL_REMAP
  let ws (off : Nat) : Option (Nat × Nat × Nat) := if off < 0x80000 then some (0, 0, off / 1024) else none
  if a < 0x10000000 then (if remap then ws a else none)
  else if a < 0x20000000 then (if remap then none else ws (a - 0x10000000))
  else if a < 0x20100000 then some (1, 1, (a - 0x20000000) / 1024)
  else if a < 0x30000000 then none
  else if a < 0x30040000 then some (2, 2, (a - 0x30000000) / 1024)
  else if a < 0x38000000 then none
  else if a < 0x38008000 then some (3, 2, 256 + (a - 0x38000000) / 1024)
  else if a < 0x3C000000 then none
  else if a < 0x3C010000 then some (5, 2, 288 + (a - 0x3C000000) / 1024)
  else none

/-- The fault sources (corrected, uncorrectable) of a checker. -/
def eccSources (j : Nat) : Nat × Nat :=
  match j with
  | 0 => (0, 1)
  | 1 => (2, 3)
  | 6 => (6, 7)
  | _ => (4, 5)

/-- What a SECDED check finds of a word with `stored` bits in error under a mask of weight `w`: 0 good, 1 corrected,
2 uncorrectable (R678). Which stored bit is in error is not held: a mask bit may cancel it, so one and one is good or
uncorrectable; and three or more may be reported either way or missed.
DEDUCED, unsafe (notes/assumptions/90). DESIGN CHOICE, safe (notes/assumptions/91). -/
def eccVerdict (stored w open_ : Nat) : Nat :=
  if w = 0 ∨ stored = 0 then min (stored + w) 2 else if stored + w = 2 then open_ % 2 * 2 else open_ % 3

/-- One ECC check of the word at byte address `a` (R678), with its fault, its row record and the verdict:
2 means that the word must not be used as good (R667). `info` is FA_SRC_INFO of an uncorrectable outcome where the
row or the byte offset is not it.
DEDUCED, unsafe (notes/assumptions/57). -/
def eccCheck (s : State) (a : Nat) (ueInfo : Option Nat := none) : State × Nat :=
  match eccPlace s a with
  | none => (s, 0)
  | some (j, region, row) =>
    let mask := s.jigMask j
    let stored := s.storedErr a
    let v := if stored = 0 ∨ mask = 0 then min (stored + popCount 8 mask) 2
      else eccVerdict stored (popCount 8 mask) s.drawn.toNat
    let s := if stored = 0 ∨ mask = 0 then s else s.draw
    let inj := mask != 0
    let s := jigUse s j
    let src := eccSources j
    if v = 0 then (s, 0)
    else if v = 1 then
      let s := raise s src.1 row inj
      (if inj then s else rowError s region row false, 1)
    else
      let info := match ueInfo with
        | some i => i
        | none => if region = 2 then a % 65536 else row
      let s := raise s src.2 info inj
      (if inj then s else rowError s region row true, 2)

end Sys2Proof.Machine
end

