-- ==== Sys2Proof/Machine/Reset.lean ====
section
/-!
DEFINITION. Machine/Reset.lean: entering internal reset, what it keeps and clears (R699, R700, Table 19.2), and the
conditions that hold it (R55).
-/
namespace Sys2Proof.Machine

/-- The registers that an internal reset keeps (Table 19.2): the identity window always; the CH block, the event log
with its counters, and the FA records of R685 except after a power-up or a low rail. -/
def keptReg (lowRail : Bool) (a : Nat) : Bool :=
  if Nat.ble 0x70000000 a then true
  else if lowRail then false
  else a / 0x10000 == 0x4001 || a / 0x10000 == 0x3C00 ||
    a == 0x4013000C || a == 0x40130020 || a == 0x40130024 || a == 0x40130028 || a == 0x4013002C || a == 0x40130080 ||
    (Nat.ble 0x40130100 a && Nat.blt a 0x40130270 && a % 16 != 0)

/-- The page write that a reset cuts leaves its page undefined, which its erase made it, and what it was making stays
invalid (R215, R239). -/
def cutStore (st : StoreX) : StoreX := { st with jobs := [] }

/-- The row remaps that a reset cuts give their spares back.
DEDUCED, unsafe (notes/assumptions/88). -/
def sparesBack (s : State) : State := forList s.fa.remapping (fun r s => putSpares s r.1 (s.spareRows r.1 + 1)) s

/-- The unit held in internal reset, cause `code` of Table 19.1 with the source `z` that caused it: every field at its
reset value but for what Table 19.2 keeps.
DEDUCED, unsafe (notes/assumptions/88). PRESUMED, unsafe (notes/assumptions/95). -/
def enterReset (s : State) (code z : Nat) (lowRail : Bool) : State :=
  let logged := if lowRail then s else sparesBack (ackMask s (2 ^ 23 - 1) 2)
  let b : State := { State.reset with
    pending := s.pending
    freeIx := s.freeIx
    regs := SMap.restrict (keptReg lowRail) logged.regs
    otp := s.otp
    store := cutStore s.store
    chip := { s.chip with
      held := true, counting := false, lowRail := lowRail || (s.chip.held && s.chip.lowRail),
      resetCode := code, resetZ := z, resetDue := none, xoLast := false }
    fa := { ({} : FaX) with
      uptimeTick := if lowRail then 0 else s.fa.uptimeTick
      remaps := if lowRail then [] else s.fa.remaps
      noSpare := if lowRail then [] else s.fa.noSpare
      badWords := SMap.restrict (fun a => decide (0x3C000000 ≤ a) && !lowRail) s.fa.badWords } }
  let b := (b.put F.CH_STATUS_DOWEL_OUT 0).put F.TG_HASH_OWN_HASH (uidHash s.otp.uid)
  (b.put F.FA_GSTAT_LAST_RESET code).put F.FA_GSTAT_CAUSE_Z z

/-- Internal reset entered when a reaction of this command has asked for it (R669): within 1 µs, so at the end of the
command that raised the occurrence.
DEDUCED, unsafe (notes/assumptions/7). -/
def settle (s : State) : State :=
  match s.chip.resetDue with
  | none => s
  | some (code, z) => enterReset s code z false

/-- How a command acts whose effect is `t`: not at all while internal reset is held (R55); and the reset that its faults
ask for is entered by its end.
DESIGN CHOICE, safe (notes/assumptions/4). DEDUCED, safe (notes/assumptions/6). -/
def act (s t : State) : Host.Outcome State Fault Refusal := .next (if s.chip.held then s else settle t)

/-- Whether a condition of R55 holds internal reset. -/
def State.resetHeldBy (s : State) : Bool :=
  s.chip.railLow != 0 || s.chip.resetNLow || s.chip.testEn || s.chip.xoBad

/-- Whether an instruction of the test port owns the covered balls (R76): then traffic, ALIVE and Parast replies stop. -/
def State.tapOwns (s : State) : Bool :=
  match s.chip.tap.ir with
  | .extest | .extestPulse | .extestTrain | .clamp | .highz => true
  | _ => false

/-- VDD_IO33 is below its good threshold: the PDAT driver is off, IRQ_N is released and DOWEL_OUT is low (R58). -/
def State.ioDip (s : State) : Bool := s.chip.railDip.testBit 4 || s.chip.railLow.testBit 4

/-- The CML transmitters do not drive: VDDH_SD is below 1.2 V, which is its nominal voltage (R49), or the boundary register
owns their balls (R76).
DEDUCED, unsafe (notes/assumptions/96). -/
def State.cmlOff (s : State) : Bool := s.chip.railDip.testBit 2 || s.chip.railLow.testBit 2 || s.tapOwns

/-- DOWEL_OUT driven to a level, as far as its supply lets it (R58, R89). -/
def State.driveDowel (s : State) (v : Nat) : State := s.put F.CH_STATUS_DOWEL_OUT (if s.ioDip then 0 else v)

/-- The unit runs: it is out of internal reset and the test port does not own its balls.
DESIGN CHOICE, safe (notes/assumptions/4). DEDUCED, safe (notes/assumptions/6). -/
def State.live (s : State) : Bool := !s.chip.held && !s.tapOwns

end Sys2Proof.Machine
end

