-- ==== Sys2Proof/Machine/Lp.lean ====
section
/-!
DEFINITION. Machine/Lp.lean: the line ports (chapter 7): port states, timing, PRBS, loopbacks, eye scans, loss of signal
and the module bus.
-/
namespace Sys2Proof.Machine

/-! ### Formed levels -/

/-- RCLK_VALID as R268 forms it. -/
def refreshRclk (s : State) (p : Nat) : State :=
  let valid := portRunning s p && s.on F.LP_STATUS_CDR_LOCK p && s.on F.LP_STATUS_CODE_SYNC p
    && s.get F.LP_CTRL_LOOPBACK p != 1
  candFollow (s.put F.LP_STATUS_RCLK_VALID (b2n valid) p) p valid

/-- LOS_RAW from its two sources (R263). -/
def losRaw (s : State) (p : Nat) : Bool :=
  (s.on F.LP_CTRL_LOS_PIN_EN p && (s.on F.LP_STATUS_MOD_LOS p != s.on F.LP_CTRL_LOS_PIN_INV p)) ||
  (s.on F.LP_CTRL_LOS_ELEC_EN p && !s.on F.LP_STATUS_SIG_DET p)

/-- LOS_RAW formed anew; its rise sets LOS_ROSE (R263, R276). -/
def refreshLos (s : State) (p : Nat) : State :=
  let los := losRaw s p
  let s' := s.put F.LP_STATUS_LOS_RAW (b2n los) p
  if los && !s.on F.LP_STATUS_LOS_RAW p then s'.raiseBit F.LP_EVENT_LOS_ROSE p else s'

/-- MOD_TXDIS as R250 gives it: TXDIS_FORCE in RUNNING, high in the other states until RUNNING is reached. -/
def refreshTxdis (s : State) (p : Nat) : State :=
  s.put F.LP_STATUS_MOD_TXDIS (if portRunning s p then s.get F.LP_CTRL_TXDIS_FORCE p else 1) p

/-! ### Receiver events -/

/-- The checker seeds itself anew; when it was locked, PRBS_LOCK drops with its event, and its counts stay (R257, R273). -/
def prbsDrop (s : State) (p : Nat) : State :=
  let s := s.modPort p fun x => { x with chk := {} }
  if s.on F.LP_STATUS_PRBS_LOCK p then (s.put F.LP_STATUS_PRBS_LOCK 0 p).raiseBit F.LP_EVENT_PRBS_LOST p else s

/-- The scan ends with the counts so far (R261, R262).
DEDUCED, unsafe (notes/assumptions/45). -/
def eyeEnd (s : State) (p bits errs : Nat) : State :=
  (((s.put F.LP_EYE_BITS bits p).put F.LP_EYE_ERR (min errs (2 ^ 32 - 1)) p).put F.LP_STATUS_EYE_BUSY 0 p).raiseBit
    F.LP_EVENT_EYE_DONE p

/-- CODE_SYNC falls: SYNC_LOST, and the frame finder returns to HUNT (R247, Table 8.5). -/
def syncLost (s : State) (p : Nat) : State :=
  if s.on F.LP_STATUS_CODE_SYNC p then
    let s := (s.put F.LP_STATUS_CODE_SYNC 0 p).raiseBit F.LP_EVENT_SYNC_LOST p
    let s := finderHunt s p true
    refreshRclk (s.modPort p fun x => { x with loopTicks := 0, rxCode := { x.rxCode with sync := 0, lock := false, heads := 0, badHeads := 0 } }) p
  else s

/-- The transmitter starts afresh with word 0 of its next frame: the message it was sending is abandoned, and the one being
received is discarded (R252, R317). -/
def txRestart (s : State) (p : Nat) : State := mcDiscard (s.modPort p fun x => { x with txFresh := true, mcTx := none }) p

/-- The transmitter of port p is loop timed in fact (R251, R252); it is so too when loop timing is selected, or RUNNING entered,
while CDR_LOCK is 0: only a fall makes it fall back.
DESIGN CHOICE, unsafe (notes/assumptions/102). -/
def loopTimed (s : State) (p : Nat) : Bool :=
  s.on F.LP_CTRL_TX_TIMING p && !s.on F.LP_STATUS_LOOP_FALLBACK p

/-- A loop-timed port whose CDR_LOCK is 0 falls back to DPLL_T0, except in far-end loopback (R252, R278).
DESIGN CHOICE, unsafe (notes/assumptions/102). -/
def loopFallback (s : State) (p : Nat) : State :=
  if portRunning s p && loopTimed s p && !s.on F.LP_STATUS_CDR_LOCK p && s.get F.LP_CTRL_LOOPBACK p != 2 then
    txRestart ((s.put F.LP_STATUS_LOOP_FALLBACK 1 p).raiseBit F.LP_EVENT_LOOP_FALLBACK p) p
  else s

/-- CDR_LOCK falls: CDR_LOST, a loop-timed transmitter falls back to DPLL_T0 and starts afresh, the recovered clock is
withdrawn and a scan ends (R252, R262, R268, R278). -/
def cdrLost (s : State) (p : Nat) : State :=
  if s.on F.LP_STATUS_CDR_LOCK p then
    let s := copiesCut ((s.put F.LP_STATUS_CDR_LOCK 0 p).raiseBit F.LP_EVENT_CDR_LOST p) p
    let s := loopFallback (s.modPort p fun x => { x with loopTicks := 0 }) p
    let s := if s.on F.LP_STATUS_EYE_BUSY p then
        (eyeEnd s p (s.portX p).eyeBits (s.portX p).eyeErrs).put F.LP_STATUS_EYE_ABORTED 1 p
      else s
    refreshRclk s p
  else s

/-- The receiver loses and must regain its stream (R259): CDR_LOCK and CODE_SYNC fall.
DEDUCED, unsafe (notes/assumptions/44). -/
def receiverDisturbed (s : State) (p : Nat) : State := syncLost (cdrLost s p) p

/-! ### Port states (Table 7.2) -/

/-- The host transfer ends: RESULT and MOD_DONE, and MOD_ERR when RESULT is not OK (R265).
DEDUCED, unsafe (notes/assumptions/45). -/
def modEnd (s : State) (p result : Nat) : State :=
  let s := ((s.put F.LP_MOD_STAT_BUSY 0 p).put F.LP_MOD_STAT_RESULT result p).raiseBit F.LP_EVENT_MOD_DONE p
  let s := if result = 0 then s else s.raiseBit F.LP_EVENT_MOD_ERR p
  s.modPort p fun x => { x with modXfer := none, modWait := false }

/-- A host transfer waiting or running is abandoned with RESULT ABANDONED, and STOP is sent when it was on the bus (R270).
DEDUCED, safe (notes/assumptions/103). -/
def modAbandon (s : State) (p : Nat) : State :=
  let x := s.portX p
  if x.modXfer.isNone then s
  else (modEnd s p 5).modPort p fun y => { y with modBus := if x.modWait then y.modBus else [.stop] }

/-- EN written 0: DISABLED; transmitter idle, MOD_TXDIS high, PRBS, loopback and scan stop, a host transfer is abandoned
(R248, R250, R270). The receiver's coding layer stops with the port; the frame finder has left SYNC before that (Table 8.5). GEN, CHK and LOOPBACK keep their values, and act again in the next RUNNING.
DEDUCED, unsafe (notes/assumptions/45). DESIGN CHOICE, unsafe (notes/assumptions/101). -/
def portToDisabled (s : State) (p : Nat) : State :=
  let was := portRunning s p
  let s := ((s.put F.LP_STATUS_EYE_BUSY 0 p).put F.LP_STATUS_PRBS_LOCK 0 p).put F.LP_STATUS_HI_BER 0 p
  let s := if was then receiverDisturbed (lfLeaveRunning s p) p else s
  let s := (s.put F.LP_STATUS_STATE 0 p).put F.LP_STATUS_LOOP_FALLBACK 0 p
  let s := (modAbandon s p).modPort p fun x => { x with
    errInject := false, polling := false, pollDue := false, pollTicks := 0, txCode := [], txGroups := [], rxCode := {}, chk := {} }
  refreshRclk (refreshTxdis s p) p

/-- EN written 1 in DISABLED: STARTING (R248); the first poll falls due one period from here (R266). -/
def portToStarting (s : State) (p : Nat) : State :=
  (s.put F.LP_STATUS_STATE 1 p).modPort p fun x => { x with pollTicks := 0 }

/-- Calibration done in STARTING: RUNNING (R248). -/
def portToRunning (s : State) (p : Nat) : State :=
  if s.get F.LP_STATUS_STATE p = 1 then
    refreshRclk (refreshTxdis (lfEnterRunning (s.put F.LP_STATUS_STATE 2 p) p) p) p
  else s

/-- Calibration not done 2.0 ms after entry: FAILED, with the fault and the event (R248). -/
def portToFailed (s : State) (p : Nat) : State :=
  if s.get F.LP_STATUS_STATE p = 1 then
    raise ((s.put F.LP_STATUS_STATE 3 p).raiseBit F.LP_EVENT_CAL_FAIL p) 14 p
  else s

/-! ### Register writes -/

/-- What block LP refuses (R249, R253, R256, R259, R261, R265, Table 7.4). -/
def judgeLp (s : State) (a v : Nat) : Nat :=
  let p := (a - 0x40030000) / 0x100
  match a % 0x100 with
  | 0x00 => rangeIf (bitsOf v 8 2 == 3 ||
      (bitsOf v 1 2 != s.get F.LP_CTRL_RATE p && s.on F.LP_CTRL_EN p && bitsOf v 0 1 == 1))
  | 0x04 => rangeIf (Nat.blt 24 (bitsOf v 0 4 + bitsOf v 16 5))
  | 0x0C => rangeIf (Nat.blt 4 (bitsOf v 0 3) || Nat.blt 4 (bitsOf v 4 3) ||
      ((bitsOf v 0 3 != 0 || bitsOf v 4 3 != 0) && !portRunning s p))
  | 0x10 => rangeIf (bitOf v 3 && (s.on F.LP_STATUS_EYE_BUSY p || !s.on F.LP_STATUS_CDR_LOCK p))
  | 0x30 => rangeIf (bitsOf v 8 7 == 0x40)
  | 0x40 => rangeIf (bitsOf v 8 8 == 0)
  | 0x44 => rangeIf (bitOf v 31 && (s.on F.LP_MOD_STAT_BUSY p || Nat.blt 255 (bitsOf v 0 8 + bitsOf v 8 4)))
  | _ => St.ok

/-- What a write of LP_CTRL[p] sets off (R248–R252, R255, R259, R273, R278, R319, R444). -/
def hookLpCtrl (p v old : Nat) (s : State) : State :=
  let s := if bitsOf v 1 2 != bitsOf old 1 2 then
      { prbsDrop s p with dm.win := SMap.restrict (fun k => k / 2 != p) s.dm.win } else s
  let s := if bitsOf v 0 1 == 0 then
      (if s.get F.LP_STATUS_STATE p = 0 then modAbandon s p else portToDisabled s p)
    else if s.get F.LP_STATUS_STATE p = 0 then portToStarting s p else s
  let s := if portRunning s p then
      let s := if bitsOf v 6 1 != bitsOf old 6 1 then prbsDrop (syncLost s p) p else s
      let s := if (bitsOf v 8 2 == 1) != (bitsOf old 8 2 == 1) then receiverDisturbed s p else s
      if bitsOf old 8 2 == 2 && bitsOf v 8 2 != 2 then loopFallback s p else s
    else s
  let s := if bitsOf v 4 1 == 0 then s.put F.LP_STATUS_LOOP_FALLBACK 0 p else s
  let s := if portRunning s p && bitsOf v 4 1 != bitsOf old 4 1 then txRestart s p else s
  refreshRclk (refreshLos (refreshTxdis s p) p) p

/-- The bits that a generator starts from: any but zeros, which no pattern holds; the spec states none.
DESIGN CHOICE, unsafe (notes/assumptions/100). -/
def genStart (s : State) (code : Nat) : Nat :=
  let st := s.drawn.toNat % 2 ^ (prbsTaps code).1
  if st = 0 then 1 else st

/-- What a write of LP_PRBS[p] sets off: another generator starts, and another checker or inversion loses the lock, silently when CHK
is written OFF (R256, R257).
DESIGN CHOICE, unsafe (notes/assumptions/100). -/
def hookPrbs (p v old : Nat) (s : State) : State :=
  let gen := bitsOf v 0 3
  let s := if gen = bitsOf old 0 3 then s
    else if gen = 0 then s.modPort p fun x => { x with errInject := false, txGroups := [], txFresh := true }
    else (s.modPort p fun x => { x with genSt := genStart s gen, genCarry := 0, txCode := [] }).draw
  if bitsOf v 4 4 = bitsOf old 4 4 then s
  else if bitsOf v 4 3 = 0 then (s.put F.LP_STATUS_PRBS_LOCK 0 p).modPort p fun x => { x with chk := {} }
  else prbsDrop s p

/-- The triggers of LP_CMD[p] (R247, R257, R258, R261). -/
def hookLpCmd (p v : Nat) (s : State) : State :=
  let s := if bitOf v 0 then
      ((s.put F.LP_PRBS_BITS_LO 0 p).put F.LP_PRBS_BITS_HI 0 p).put F.LP_PRBS_ERR 0 p else s
  let s := if bitOf v 1 && s.on F.LP_PRBS_GEN p then s.modPort p fun x => { x with errInject := true } else s
  let s := if bitOf v 2 then s.put F.LP_CV_CNT 0 p else s
  let s := if bitOf v 4 && s.on F.LP_STATUS_EYE_BUSY p then eyeEnd s p (s.portX p).eyeBits (s.portX p).eyeErrs else s
  if bitOf v 3 then
    ((s.put F.LP_STATUS_EYE_BUSY 1 p).put F.LP_STATUS_EYE_ABORTED 0 p).modPort p fun x =>
      { x with eyeBits := 0, eyeErrs := 0, eyeDwell := s.get F.LP_EYE_CTRL_DWELL p }
  else s

/-- LP_MOD_CMD[p] with GO: the transfer asked for, waiting while a poll runs (R265, R266). -/
def hookModCmd (p v : Nat) (s : State) : State :=
  if bitOf v 31 then
    let data := (List.range 4).flatMap fun j => toLE 4 (s.get F.LP_MOD_DATA p j)
    (s.put F.LP_MOD_STAT_BUSY 1 p).modPort p fun x => { x with
      modXfer := some { write := bitOf v 13, dev := bitOf v 12, count := bitsOf v 8 4, offset := bitsOf v 0 8,
                        data := if bitOf v 13 then data.take (bitsOf v 8 4 + 1) else [] }
      modWait := x.polling }
  else s

/-- LP_MOD_CFG[p] written: a new poll period from here; with POLL_EN 0 the polls stop (R266). -/
def hookModCfg (p v : Nat) (s : State) : State :=
  s.modPort p fun x => { x with pollTicks := 0, pollDue := x.pollDue && bitOf v 1 }

/-- What a write in block LP sets off. -/
def hookLp (a v old : Nat) (s : State) : State :=
  let p := (a - 0x40030000) / 0x100
  match a % 0x100 with
  | 0x00 => hookLpCtrl p v old s
  | 0x0C => hookPrbs p v old s
  | 0x10 => hookLpCmd p v s
  | 0x40 => hookModCfg p v s
  | 0x44 => hookModCmd p v s
  | _ => s

/-- A write of a register of block LP. -/
def writeLp (s : State) (f : Field) (p v : Nat) : State := writeBy judgeLp hookLp s (f.addr p) v

/-! ### The commands -/

/-- PORT_ENABLE (R248): LP_CTRL[p] written with EN = 1, its other fields as they stand. -/
def execPortEnable (p : Fin 16) (s : State) : Host.Outcome State Fault Refusal :=
  act s (writeLp s F.LP_CTRL p (insertBits (s.get F.LP_CTRL p) 0 1 1))

/-- PORT_DISABLE (R248): LP_CTRL[p] written with EN = 0, its other fields as they stand. -/
def execPortDisable (p : Fin 16) (s : State) : Host.Outcome State Fault Refusal :=
  act s (writeLp s F.LP_CTRL p (insertBits (s.get F.LP_CTRL p) 0 1 0))

/-- CALIBRATION_DONE (R248). -/
def execCalibrationDone (p : Fin 16) (s : State) : Host.Outcome State Fault Refusal :=
  act s (portToRunning s p)

/-- LP_CAL_FAIL (R248). -/
def execLpCalFail (p : Fin 16) (s : State) : Host.Outcome State Fault Refusal :=
  act s (portToFailed s p)

/-- CDR_LOST (R252, R262, R268). -/
def execCdrLost (p : Fin 16) (s : State) : Host.Outcome State Fault Refusal := act s (cdrLost s p)

/-- CDR_LOCK_GAINED (R268): only a RUNNING port's receiver recovers a clock.
DEDUCED, unsafe (notes/assumptions/44). -/
def execCdrLockGained (p : Fin 16) (s : State) : Host.Outcome State Fault Refusal :=
  act s (if portRunning s p then refreshRclk (s.put F.LP_STATUS_CDR_LOCK 1 p) p else s)

/-! ### The receive coding layer (R247, R255, R259) -/

/-- Code units as they stand on the line, taken as the receiver takes them: in near-end loopback its own transmitter's in their
place, and inverted where RX_INV asks for it. -/
def unitsIn (s : State) (p : Nat) (us : List CodeUnit) : List Nat :=
  let line := if s.get F.LP_CTRL_LOOPBACK p = 1 then (s.portX p).txCode else us.map fun u => u.toNat
  invertUnits (unitBits (s.get F.LP_CTRL_RATE p)) (s.on F.LP_CTRL_RX_INV p) line

/-- What far-end loopback sends back of what is received: the units as they came, but for the two polarities. -/
def loopedBack (s : State) (p : Nat) (us : List Nat) : State :=
  if s.get F.LP_CTRL_LOOPBACK p = 2 ∧ !s.cmlOff then
    s.modPort p fun x => { x with txCode := invertUnits (unitBits (s.get F.LP_CTRL_RATE p)) (s.on F.LP_CTRL_TX_INV p) us }
  else s

/-- The synchronisation machine and HI_BER over code units that a recovered clock brings, and their violations counted (R247).
DESIGN CHOICE, safe (notes/assumptions/43). DEDUCED, unsafe (notes/assumptions/44). -/
def codeIn (s : State) (p : Nat) (units : List CodeUnit) : State × Nat :=
  if !portRunning s p || !s.on F.LP_STATUS_CDR_LOCK p || s.tapOwns then (s, 0)
  else
    let rate := s.get F.LP_CTRL_RATE p
    let us := unitsIn s p units
    let x := (s.portX p).rxCode
    let n := (takeUnits rate x.lane us).1.violations
    let y := codeRun rate x us
    let s := (s.modPort p fun x => { x with rxCode := y }).bumpSat F.LP_CV_CNT n p
    let s := if rate = 3 then s.put F.LP_STATUS_HI_BER (b2n (berHigh y)) p else s
    let s := if codeHolds rate y then
        (if s.on F.LP_STATUS_CODE_SYNC p then s else refreshRclk (s.put F.LP_STATUS_CODE_SYNC 1 p) p)
      else syncLost s p
    (s, n)

/-! ### PRBS (R256–R258) -/

/-- One group of received bits at the checker. -/
def checkerTake (p code : Nat) (g : Nat) (s : State) : State :=
  let locked := s.on F.LP_STATUS_PRBS_LOCK p
  let r := checkGroup code locked (s.portX p).chk g
  let s := s.modPort p fun x => { x with chk := r.1 }
  let s := if locked then
      let n := s.get F.LP_PRBS_BITS_LO p + 2 ^ 32 * s.get F.LP_PRBS_BITS_HI p + 32
      ((s.put F.LP_PRBS_BITS_LO n p).put F.LP_PRBS_BITS_HI (n / 2 ^ 32) p).bumpSat F.LP_PRBS_ERR r.2.1 p
    else s
  let s := if r.2.2.1 then s.put F.LP_STATUS_PRBS_LOCK 1 p else s
  if r.2.2.2 then prbsDrop s p else s

/-- Groups of raw received bits, as they stand on the line: in near-end loopback those of its own transmitter; in far-end loopback
they are sent back. While the stream carries frames, in SYNC, the checker takes nothing (R274).
DESIGN CHOICE, unsafe (notes/assumptions/100). -/
def prbsIn (s : State) (p : Nat) (groups : List Word) : State :=
  let line := if s.get F.LP_CTRL_LOOPBACK p = 1 then (s.portX p).txGroups else groups.map fun g => g.toNat
  let gs := invertUnits 32 (s.on F.LP_CTRL_RX_INV p) line
  let s := if s.get F.LP_CTRL_LOOPBACK p = 2 ∧ !s.cmlOff then
      s.modPort p fun x => { x with txGroups := invertUnits 32 (s.on F.LP_CTRL_TX_INV p) gs }
    else s
  if !portRunning s p || !s.on F.LP_PRBS_CHK p || portInSync s p || s.tapOwns then s
  else forList (invertUnits 32 (s.on F.LP_PRBS_CHK_INV p) gs) (fun g s => checkerTake p (s.get F.LP_PRBS_CHK p) g s) s

/-- The generator over one tick: the groups that replace the coded stream, with one bit of the first inverted where ERR_INJECT
asked for it. -/
def genTick (s : State) (p : Nat) : State :=
  if portRunning s p && s.on F.LP_PRBS_GEN p && s.get F.LP_CTRL_LOOPBACK p != 2 && !s.cmlOff then
    let x := s.portX p
    let rate := s.get F.LP_CTRL_RATE p
    let bits := x.genCarry + unitBits rate * unitsPerFrame rate
    let r := prbsGroups (s.get F.LP_PRBS_GEN p) (s.on F.LP_PRBS_GEN_INV p) (bits / 32) x.genSt
    let gs := match x.errInject, r.1 with
      | true, g :: gs => (g ^^^ 2 ^ (s.drawn.toNat % 32)) :: gs
      | _, gs => gs
    let s := if x.errInject then s.draw else s
    s.modPort p fun x => { x with
      genSt := r.2, genCarry := bits % 32, errInject := false, txGroups := invertUnits 32 (s.on F.LP_CTRL_TX_INV p) gs }
  else s

/-- The return to loop timing after 32 ticks with CDR_LOCK and CODE_SYNC (R252, R272). -/
def loopReturn (s : State) (p : Nat) : State :=
  txRestart ((s.put F.LP_STATUS_LOOP_FALLBACK 0 p).modPort p fun x => { x with loopTicks := 0 }) p

/-- Whether the 32 ticks of R252 have been counted, and both still hold. -/
def loopReturnDue (s : State) (p : Nat) : Bool :=
  s.on F.LP_STATUS_LOOP_FALLBACK p && s.on F.LP_STATUS_CDR_LOCK p && s.on F.LP_STATUS_CODE_SYNC p
    && s.get F.LP_CTRL_LOOPBACK p != 2 && Nat.ble 32 (s.portX p).loopTicks

/-- LOOP_TIMING_RETURN (R252). -/
def execLoopTimingReturn (p : Fin 16) (s : State) : Host.Outcome State Fault Refusal :=
  act s (if loopReturnDue s p then loopReturn s p else s)

/-- RX_INV_CHANGE (R255): LP_CTRL[p] written with this RX_INV. -/
def execRxInvChange (p : Fin 16) (v : Bool) (s : State) : Host.Outcome State Fault Refusal :=
  act s (writeLp s F.LP_CTRL p (insertBits (s.get F.LP_CTRL p) 6 1 (b2n v)))

/-- LOOPBACK_CHANGE (R259): LP_CTRL[p] written with this LOOPBACK. -/
def execLoopbackChange (p : Fin 16) (v : Fin 4) (s : State) : Host.Outcome State Fault Refusal :=
  act s (writeLp s F.LP_CTRL p (insertBits (s.get F.LP_CTRL p) 8 2 v))

/-- PRBS_CNT_CLR (R257). -/
def execPrbsCntClr (p : Fin 16) (s : State) : Host.Outcome State Fault Refusal :=
  act s (writeLp s F.LP_CMD p 0x01)

/-- ERR_INJECT (R258). -/
def execErrInject (p : Fin 16) (s : State) : Host.Outcome State Fault Refusal :=
  act s (writeLp s F.LP_CMD p 0x02)

/-- CV_CNT_CLR (R247). -/
def execCvCntClr (p : Fin 16) (s : State) : Host.Outcome State Fault Refusal :=
  act s (writeLp s F.LP_CMD p 0x04)

/-- EYE_START (R261). -/
def execEyeStart (p : Fin 16) (s : State) : Host.Outcome State Fault Refusal :=
  act s (writeLp s F.LP_CMD p 0x08)

/-- EYE_ABORT (R261). -/
def execEyeAbort (p : Fin 16) (s : State) : Host.Outcome State Fault Refusal :=
  act s (writeLp s F.LP_CMD p 0x10)

/-- EYE_DONE (R261): the dwell of 2^(DWELL + 16) bits ends, with `errs` disagreements in it. -/
def execEyeDone (p : Fin 16) (errs : Nat) (s : State) : Host.Outcome State Fault Refusal :=
  act s (if s.on F.LP_STATUS_EYE_BUSY p then eyeEnd s p (2 ^ ((s.portX p).eyeDwell + 16)) errs else s)

/-- PRBS_LOCK (R257): the groups of received bits that lock the checker. -/
def execPrbsLock (p : Fin 16) (groups : List Word) (s : State) : Host.Outcome State Fault Refusal := act s (prbsIn s p groups)

/-- PRBS_LOST (R257): the groups of received bits at which the checker loses its lock. -/
def execPrbsLost (p : Fin 16) (groups : List Word) (s : State) : Host.Outcome State Fault Refusal := act s (prbsIn s p groups)

/-- MOD_LOS_CHANGE (R263, R276). -/
def execModLosChange (p : Fin 16) (level : Bool) (s : State) : Host.Outcome State Fault Refusal :=
  act s (refreshLos (s.put F.LP_STATUS_MOD_LOS (b2n level) p) p)

/-- SIG_DET_CHANGE (R263, R276). -/
def execSigDetChange (p : Fin 16) (level : Bool) (s : State) : Host.Outcome State Fault Refusal :=
  act s (refreshLos ((if level then s else copiesCut s p).put F.LP_STATUS_SIG_DET (b2n level) p) p)

/-- MOD_TRANSFER_START (R265): LP_MOD_CMD[p] written with GO. -/
def execModTransferStart (p : Fin 16) (write dev : Bool) (count : Fin 16) (offset : Byte) (s : State) :
    Host.Outcome State Fault Refusal :=
  act s (writeLp s F.LP_MOD_CMD p
    (2 ^ 31 + b2n write * 2 ^ 13 + b2n dev * 2 ^ 12 + count.val * 2 ^ 8 + offset.toNat))

/-- The bytes of a read transfer placed over LP_MOD_DATA[p] (R265). -/
def placeModData (s : State) (p : Nat) (data : List Byte) : State :=
  let old := (List.range 4).flatMap fun j => toLE 4 (s.get F.LP_MOD_DATA p j)
  let new := (data.take 16) ++ old.drop (data.take 16).length
  forN 4 (fun j s => s.put F.LP_MOD_DATA (leAt new (4 * j) 4) p j) s

/-- What a transfer drives, byte by byte of it: START and the address, the offset, then the data, a read's after a repeated START
and the address once more (R265). -/
def xferBytes (m : ModXfer) (data : List Byte) : List (List BusOp) :=
  let dev := 2 * (0x50 + b2n m.dev)
  let n := m.count + 1
  [[.start, .send dev true], [.send m.offset true]] ++
    (if m.write then (List.range n).map fun i => [.send (byteAt m.data i) true]
     else [.restart, .send (dev + 1) true] :: (List.range n).map fun i => [.take (byteAt data i) (i != m.count)])

/-- How a transfer of `k` bytes, `sent` of them by the unit, ends: at the byte in which it fails, with RESULT, or whole (R265,
R267). A byte stretched too long fails before its acknowledge.
DEDUCED, safe (notes/assumptions/103). -/
def xferEnd (write : Bool) (k sent : Nat) (m : ModSeen) : Option (Nat × Nat) :=
  match m.stretched.filter (fun i => Nat.blt i k), m.nack.filter (fun i => Nat.blt i sent) with
  | some i, some j => if i ≤ j then some (i, 3) else some (j, if j = 0 ∨ (!write ∧ j = 2) then 1 else 2)
  | some i, none => some (i, 3)
  | none, some j => some (j, if j = 0 ∨ (!write ∧ j = 2) then 1 else 2)
  | none, none => none

/-- A transfer with what the module does: RESULT, and what the unit drives, the recovery of R267 first. No STOP follows a stretch
beyond 1 ms or an SDA that stays low.
DEDUCED, safe (notes/assumptions/103). -/
def xferRun (m : ModXfer) (seen : ModSeen) : Nat × List BusOp :=
  let bytes := xferBytes m seen.data
  let whole := (bytes.flatMap fun b => b) ++ [.stop]
  let pulses (n : Nat) : List BusOp := List.replicate n .pulse
  let nacked (b : List BusOp) : List BusOp := b.map fun o => match o with
    | .send v _ => .send v false
    | o => o
  let run : Nat × List BusOp :=
    match xferEnd m.write bytes.length (if m.write then bytes.length else 3) seen with
    | none => (0, whole)
    | some (i, 3) => (3, (bytes.take i).flatMap fun b => b)
    | some (i, r) => (r, ((bytes.take i).flatMap fun b => b) ++ nacked (bytes.getD i []) ++ [.stop])
  match seen.sdaLow with
  | none => (4, pulses 9)
  | some 0 => run
  | some n => if 9 < n then (4, pulses 9) else (run.1, pulses n ++ [.stop] ++ run.2)

/-- MOD_DONE (R265, R267): the host transfer on the bus ends as the module lets it; a read that succeeds brings its bytes.
A poll that fell due meanwhile starts (R266). -/
def execModDone (p : Fin 16) (seen : ModSeen) (s : State) : Host.Outcome State Fault Refusal :=
  let x := s.portX p
  act s (match x.modXfer, x.modWait with
    | some m, false =>
      let r := xferRun m seen
      let s := if !m.write && r.1 == 0 then placeModData s p (seen.data.take (m.count + 1)) else s
      (modEnd s p r.1).modPort p fun x => { x with polling := x.pollDue, pollDue := false, modBus := r.2 }
    | _, _ => s)

/-- Half ticks of a poll period: POLL_PERIOD × 10 ms is POLL_PERIOD × 312.5 ticks (R266). -/
def pollPeriod (s : State) (p : Nat) : Nat := s.get F.LP_MOD_CFG_POLL_PERIOD p * 625

/-- A poll falls due: it starts, or waits for the host transfer that is running (R266, R271). -/
def pollFallsDue (s : State) (p : Nat) : State :=
  let x := s.portX p
  let busy := (x.modXfer.isSome && !x.modWait) || x.polling
  s.modPort p fun x => { x with
    pollTicks := x.pollTicks - pollPeriod s p, polling := x.polling || !busy, pollDue := x.pollDue || busy }

/-- Whether a poll period of port p has ended; the poll falls due in this tick, after a GO of the same tick (R271). -/
def pollDueNow (s : State) (p : Nat) : Bool :=
  s.on F.LP_MOD_CFG_POLL_EN p && s.on F.LP_STATUS_STATE p && Nat.ble (pollPeriod s p) (s.portX p).pollTicks

/-- MOD_POLL (R266). -/
def execModPoll (p : Fin 16) (s : State) : Host.Outcome State Fault Refusal :=
  act s (if pollDueNow s p then pollFallsDue s p else s)

/-- The transfer that a poll makes: A2h bytes 96–111 (R266). -/
def pollXfer : ModXfer := { write := false, dev := true, count := 15, offset := 96 }

/-- MOD_POLL_DONE (R266): on success the four registers are replaced together and the age restarts; a host transfer
that waited starts. -/
def execModPollDone (p : Fin 16) (seen : ModSeen) (s : State) : Host.Outcome State Fault Refusal :=
  act s (if (s.portX p).polling then
    let r := xferRun pollXfer seen
    let s := s.put F.LP_MOD_STAT_LAST_POLL r.1 p
    let s := if r.1 = 0 then
        (forN 4 (fun j s => s.put F.LP_MOD_DIAG (leAt seen.data (4 * j) 4) p j) s).put F.LP_MOD_DIAG_AGE 0 p
      else s.raiseBit F.LP_EVENT_MOD_ERR p
    s.modPort p fun x => { x with
      polling := x.pollDue && !x.modWait, pollDue := x.pollDue && x.modWait, modWait := false, modBus := r.2 }
  else s)

/-- MOD_CFG_WRITE (R266): a write of LP_MOD_CFG[p]. -/
def execModCfgWrite (p : Fin 16) (value : Word) (s : State) : Host.Outcome State Fault Refusal :=
  act s (writeLp s F.LP_MOD_CFG p value.toNat)

/-! ### The tick -/

/-- The scan of port p moved by what its receiver saw, and the code violations that no row lists (R247, R261).
DESIGN CHOICE, safe (notes/assumptions/43). -/
def lpObserve (s : State) (p : Nat) (o : PortObs) : State :=
  let s := if portRunning s p then s.bumpSat F.LP_CV_CNT o.codeViol p else s
  if s.on F.LP_STATUS_EYE_BUSY p then
    s.modPort p fun x => { x with eyeBits := min (x.eyeBits + o.eyeBits) (2 ^ (x.eyeDwell + 16)), eyeErrs := x.eyeErrs + o.eyeErrs }
  else s

/-- What falls due in a tick and has not come by its end: the return to loop timing, and the poll (R252, R266). -/
def lpTickEnd (s : State) (p : Nat) : State :=
  let s := if loopReturnDue s p then loopReturn s p else s
  if pollDueNow s p then pollFallsDue s p else s

/-- HI_BER at a tick: time has passed for 5,000 blocks, those that rows brought among them (R247). -/
def berTick (s : State) (p : Nat) : State :=
  let x := (s.portX p).rxCode
  if x.blocks = 0 then s
  else
    let n := max x.blocks (x.tickBlocks + 5000)
    let y := { x with blocks := n, tickBlocks := n }
    let s := s.modPort p fun x => { x with rxCode := y }
    if portRunning s p && s.get F.LP_CTRL_RATE p == 3 then s.put F.LP_STATUS_HI_BER (b2n (berHigh y)) p else s

/-- Block LP at a slow-machine tick: LOS_RAW as it stands, the ticks of R252, the poll period, the age of the last poll, and what
the generator sends in the tick. -/
def lpTick (s : State) (p : Nat) : State :=
  let s := if losRaw s p == s.on F.LP_STATUS_LOS_RAW p then s else refreshLos s p
  let s := if s.on F.LP_STATUS_LOOP_FALLBACK p && s.get F.LP_CTRL_LOOPBACK p != 2 then
      let held := s.on F.LP_STATUS_CDR_LOCK p && s.on F.LP_STATUS_CODE_SYNC p
      s.modPort p fun x => { x with loopTicks := if held then x.loopTicks + 1 else 0 }
    else s
  let s := if s.on F.LP_MOD_CFG_POLL_EN p && s.on F.LP_STATUS_STATE p then
      s.modPort p fun x => { x with pollTicks := x.pollTicks + 2 }
    else s
  genTick (berTick (s.bumpSat F.LP_MOD_DIAG_AGE 1 p) p) p

end Sys2Proof.Machine
end

