-- ==== Sys2Proof/Machine/Lf.lean ====
section
/-!
DEFINITION. Machine/Lf.lean: the line frame (chapter 8): frame finder, multiframes and labels, trace, management
channel, LOF and LOM, and local frame numbering.
-/
namespace Sys2Proof.Machine

/-! ### Words of a frame -/

/-- Line words and payload slots of a frame at a rate class (Table 8.1). -/
def wordsPerFrame (rate : Nat) : Nat :=
  match rate with
  | 0 => 2000
  | 1 => 4000
  | 2 => 8000
  | _ => 20000

def slotsPerFrame (rate : Nat) : Nat :=
  match rate with
  | 0 => 492
  | 1 => 992
  | 2 => 1992
  | _ => 4992

/-- The nominal value of word 0 (R281, R282). -/
def startNominal (rate : Nat) : Nat := if rate = 3 then 0xA55A else 0xBCB5

/-- Word i of a frame. -/
def wordAt (ws : List LineWord) (i : Nat) : Nat := (ws.getD i 0).toNat

/-- The exclusive OR of a list of words. -/
def xorWords : List LineWord → Nat
  | [] => 0
  | w :: ws => w.toNat ^^^ xorWords ws

/-- BIP-16 of a frame: the exclusive OR of all its words, word 0 at its nominal value (R289). -/
def bipOf (rate : Nat) (ws : List LineWord) : Nat := startNominal rate ^^^ xorWords (ws.drop 1)

/-! ### Frame finder (Table 8.5) -/

/-- Whether port p searches for frames: RUNNING with its code units in step, while no test-port instruction holds traffic (R76).
DEDUCED, safe (notes/assumptions/47). -/
def finderRuns (s : State) (p : Nat) : Bool := portRunning s p && s.on F.LP_STATUS_CODE_SYNC p && !s.tapOwns

/-- The frame finder at an expected position, alignment correct or errored. -/
def finderAt (s : State) (p : Nat) (correct : Bool) : State :=
  if s.get F.LF_PSTATUS_FSTATE p = 1 then
    (if correct then ((s.put F.LF_PSTATUS_FSTATE 2 p).put F.LF_PSTATUS_E 0 p).raiseBit F.LF_PEVENT_IN_FRAME p
     else s.put F.LF_PSTATUS_FSTATE 0 p)
  else if portInSync s p then
    (if correct then s.put F.LF_PSTATUS_E 0 p
     else
       let s' := s.bumpSat F.LF_FRAMING_CNT_ALIGN_ERR 1 p
       if s.get F.LF_PSTATUS_E p < 3 then s'.put F.LF_PSTATUS_E (s.get F.LF_PSTATUS_E p + 1) p
       else finderHunt s' p true)
  else s

/-! ### Numbers, labels and multiframes (R299, Table 8.6) -/

/-- The number that words 3–5 carry; none when F is above 31,249 (R299, R315). -/
def numberOf (ws : List LineWord) : Option (Nat × Nat) :=
  let f := wordAt ws 5 % 2 ^ 15
  if f < framesPerSec then some (wordAt ws 3 * 2 ^ 16 + wordAt ws 4, f) else none

/-- A received REI; 17–31 is taken as 0 (R290).
DEDUCED, safe (notes/assumptions/50). -/
def reiOf (ws : List LineWord) : Nat :=
  let n := wordAt ws 8 % 32
  if n ≤ 16 then n else 0

/-- NV, bit 15 of word 5. -/
def nvOf (ws : List LineWord) : Nat := wordAt ws 5 / 2 ^ 15

/-- The multiframe machine on a frame received in SYNC that carries the number `n`. -/
def multiframe (s : State) (p : Nat) (n : Option (Nat × Nat)) : State :=
  let x := s.portX p
  let s := if s.on F.LF_PSTATUS_IM p then
      match x.label with
      | none => toOom s p
      | some l =>
        let e := nextNum l
        if n = some e then s.modPort p fun x => { x with label := some e, mfK := 0 }
        else if x.mfK < 3 then s.modPort p fun x => { x with label := some e, mfK := x.mfK + 1 }
        else toOom s p
    else
      match x.prevNum, n with
      | some l, some e =>
        if e = nextNum l then
          (s.put F.LF_PSTATUS_IM 1 p).modPort p fun x => { x with label := some e, mfK := 0 }
        else s
      | _, _ => s
  s.modPort p fun x => { x with prevNum := n }

/-- Local frames from the start of local frame `n` to the frame in progress, and the offset of a moment `back` frames
ago at `phase` within its frame, in FCLK (R303). -/
def offsetFrom (s : State) (n : Nat × Nat) (back phase : Nat) : Int :=
  (numDiff s.frameNum n - (back : Int)) * frameCycles + (phase : Int)

/-- LF_RX_OFS: 0x8000_0000 when the offset lies outside ±(2^31 − 1) (R303). -/
def ofsWord (i : Int) : Nat := if i.natAbs < 2 ^ 31 then ofSigned 32 i else 0x80000000

/-- The numbering source is good: sampled IM, and its last NV is 1 (R304). -/
def srcGood (s : State) : Bool :=
  let p := s.num.src
  portRunning s p && portInSync s p && s.on F.LF_PSTATUS_IM p && s.on F.LF_RX_NUM_F_NV p

/-- E = R − L − D of the last frame of the source (R304), while the source is good. -/
def srcErr (s : State) : Option Int :=
  let p := s.num.src
  match srcGood s, (s.portX p).label with
  | true, some l =>
    some (offsetFrom s l ((s.frameTotal + 2 ^ 32 - (s.portX p).rxTotal) % 2 ^ 32) (s.get F.LF_RX_PHASE_PHASE p)
      - (s.get F.LF_NUM_DELAY_D : Int))
  | _, _ => none

/-- LF_NUM_ERR and SRC_GOOD as they stand (R309). -/
def refreshNumErr (s : State) : State :=
  (s.put F.LF_NUM_STATUS_SRC_GOOD (b2n (srcGood s))).put F.LF_NUM_ERR
    (match srcErr s with
     | some e => ofsWord e
     | none => 0x80000000)

/-! ### Trace (R288) -/

/-- Whether three identical traces wait to be written. -/
def traceDue (s : State) (p : Nat) : Bool := Nat.ble 3 (s.portX p).traceCount

/-- The 64 bytes of an accepted or expected trace. -/
def traceBytes (s : State) (f : Field) (p : Nat) : List Byte := (List.range 16).flatMap fun j => toLE 4 (s.get f p j)

/-- TIM judged at an acceptance (Table 12.1). -/
def timAccept (s : State) (p : Nat) : State :=
  if s.on F.DM_PCFG_TIM_EN p && portRunning s p then
    let bad := traceBytes s F.LF_RX_TRACE p != traceBytes s F.DM_EXP_TRACE p
    s.put F.DM_PRAW (insertBits (s.get F.DM_PRAW p) 8 1 (b2n bad)) p
  else s

/-- The accepted trace written to LF_RX_TRACE[p] (R288). -/
def traceAccept (s : State) (p : Nat) : State :=
  if traceDue s p then
    let new := (s.portX p).tracePrev
    let old := traceBytes s F.LF_RX_TRACE p
    let s := if new != old then s.raiseBit F.LF_PEVENT_TRACE_NEW p else s
    let s := (forN 16 (fun j s => s.put F.LF_RX_TRACE (leAt new (4 * j) 4) p j) s).put F.LF_PSTATUS_TRACE_VALID 1 p
    timAccept s p
  else s

/-- Word 6 of the frame labelled l taken in: three whole identical collections of multiframes in a row are accepted. -/
def traceTake (s : State) (p : Nat) (l : Nat × Nat) (w : Nat) : State :=
  let m := l.2 % 250
  if 32 ≤ m then s
  else
    let x := s.portX p
    let buf := if m = 0 then [] else x.traceBuf
    if buf.length != 2 * m then s.modPort p fun x => { x with traceBuf := [], traceCount := 0 }
    else
      let buf := buf ++ [BitVec.ofNat 8 (w / 256), BitVec.ofNat 8 w]
      if m < 31 then s.modPort p fun x => { x with traceBuf := buf }
      else
        traceAccept (s.modPort p fun x => { x with
          traceBuf := [], tracePrev := buf, traceAt := some (addNum l (-31))
          traceCount := if x.traceCount != 0 && x.traceAt == some (addNum l (-281)) && x.tracePrev == buf
            then min (x.traceCount + 1) 3 else 1 }) p

/-! ### Time-of-day message (R291) -/

/-- The bytes of line words, high byte first. -/
def bytesHighFirst (ws : List Nat) : List Byte := ws.flatMap fun w => [BitVec.ofNat 8 (w / 256), BitVec.ofNat 8 w]

/-- A message that TD has not taken is lost once a frame after the one it names arrives (R557). -/
def todDrop (s : State) (p : Nat) (l : Nat × Nat) : State :=
  match (s.portX p).todMsg with
  | some m => if 0 < numDiff l m.2 then s.modPort p fun x => { x with todMsg := none } else s
  | none => s

/-- Words 13–15 of frame M taken in; the fourth frame completes the message for TD, or sets TOD_ERR. -/
def todTake (s : State) (p m : Nat) (ws : List LineWord) : State :=
  if 4 ≤ m then s
  else
    let x := s.portX p
    let buf := if m = 0 then [] else x.todBuf
    if buf.length != 3 * m then s.modPort p fun x => { x with todBuf := [] }
    else
      let buf := buf ++ [wordAt ws 13, wordAt ws 14, wordAt ws 15]
      if m < 3 then s.modPort p fun x => { x with todBuf := buf }
      else
        let s := s.modPort p fun x => { x with todBuf := [] }
        if crc16 (bytesHighFirst (buf.take 11)) = buf.getD 11 0 then
          s.modPort p fun x => { x with todMsg := some (buf, addNum (x.label.getD (0, 0)) 247) }
        else s.raiseBit F.LF_PEVENT_TOD_ERR p

/-! ### Management channel, receive side (R293) -/

/-- A complete message accepted: counted, and handed to its recipient. When the recipient is not ready to take it, it
is dropped.
DEDUCED, unsafe (notes/assumptions/51). -/
def mcAccept (s : State) (p : Nat) : State :=
  match (s.portX p).mcFull, (s.portX p).inbox with
  | some m, none =>
    (s.modPort p fun x => { x with mcFull := none, inbox := some m }).bumpWrap F.LF_MC_CNT_MSGS 1 p
  | some _, some _ => mcDrop (s.modPort p fun x => { x with mcFull := none }) p
  | none, _ => s

/-- One chunk taken in: its header and its 14 data bytes.
DEDUCED, unsafe (notes/assumptions/51). -/
def mcTake (s : State) (p hdr : Nat) (data : List Byte) : State :=
  if !s.on F.LF_PCTRL_MC_EN p then s.modPort p fun x => { x with mcRx := none }
  else
    let first := bitOf hdr 15
    let last := bitOf hdr 14
    let ty := bitsOf hdr 11 3
    let seq := bitsOf hdr 4 4
    let count := bitsOf hdr 0 4
    let sound := Nat.ble 1 ty && Nat.ble ty 4 && Nat.ble 1 count && Nat.ble count 14
    let bytes := data.take count
    let complete (s : State) (all : List Byte) : State :=
      mcAccept (s.modPort p fun x => { x with mcRx := none, mcFull := some { ty := ty, bytes := all } }) p
    let start (s : State) : State :=
      if first && seq == 0 && sound then
        (if last then complete s bytes else s.modPort p fun x => { x with mcRx := some (ty, 1, bytes) })
      else s
    match (s.portX p).mcRx with
    | none => start s
    | some (ty0, next, sofar) =>
      let all := sofar ++ bytes
      if !sound || seq != next || ty != ty0 || first || Nat.blt 4104 all.length then start (mcDrop s p)
      else if last then complete s all
      else s.modPort p fun x => { x with mcRx := some (ty0, (next + 1) % 16, all) }

/-! ### A received frame, LF's part (R298, R303, R309) -/

/-- Whether the alignment of a frame is correct (R285). -/
def aligned (start : Bool) (ws : List LineWord) : Bool := start && wordAt ws 1 == 0x7E36 && wordAt ws 2 == 0x81C9

/-- The frame finder at the frame, and for a frame received in SYNC its number and label, its phases and the registers
that show its overhead.
DEDUCED, safe (notes/assumptions/46). -/
def lfReceive (s : State) (p : Nat) (start : Bool) (ws : List LineWord) (phase : Nat) : State :=
  let s := finderAt s p (aligned start ws)
  let at_ := s.frameTotal * 1280000 + phase * 100
  let s := s.modPort p fun x => { x with
    rxOld := if x.rxGood then ((x.rxAt, x.rxWords) :: x.rxOld).take 3 else x.rxOld
    rxWords := ws, rxAt := at_, rxGood := portInSync s p
    rxSeen := x.rxSeen || portInSync s p }
  if !portInSync s p then s
  else
    let s := multiframe s p (numberOf ws)
    let s : State := { s with tg.seen := s.tg.seen ||| 2 ^ p }
    let x := s.portX p
    let s := s.modPort p fun x => { x with rxTotal := s.frameTotal }
    let s := (s.put F.LF_RX_PHASE_VALID 1 p).put F.LF_RX_PHASE_PHASE phase p
    let s := s.put F.LF_RX_NUM_F_NV (nvOf ws) p
    let s := match x.label with
      | none => s.put F.LF_RX_NUM_F_VALID 0 p
      | some l =>
        (((s.put F.LF_RX_NUM_S l.1 p).put F.LF_RX_NUM_F_F l.2 p).put F.LF_RX_NUM_F_VALID 1 p).put F.LF_RX_OFS
          (ofsWord (offsetFrom s l 0 phase)) p
    let rei := reiOf ws
    let s := ((s.put F.LF_RX_MISC_SMV (wordAt ws 28) p).put F.LF_RX_MISC_RDI (wordAt ws 8 / 2 ^ 15) p).put
      F.LF_RX_MISC_REI rei p
    let s := (s.put F.LF_RX_QL (wordAt ws 9 * 2 ^ 16 + wordAt ws 10) p).put F.LF_RX_PROT
      (wordAt ws 11 * 2 ^ 16 + wordAt ws 12) p
    let s := match x.label with
      | none => s
      | some l => todTake (traceTake (todDrop s p l) p l (wordAt ws 6)) p (l.2 % 250) ws
    let data := bytesHighFirst ((List.range 7).map fun i => wordAt ws (17 + i))
    let s := mcTake s p (wordAt ws 16) data
    if s.num.src = p then refreshNumErr s else s

/-- The number of differing bits between the BIP of the frame before and word 7 of this one, when both were received in
SYNC (R289).
DEDUCED, safe (notes/assumptions/50). -/
def bipCompare (s : State) (p : Nat) (ws : List LineWord) : Option Nat :=
  (s.portX p).rxBip.map fun b => popCount 16 (b ^^^ wordAt ws 7)

/-! ### LOF and LOM (R301, Table 8.7) -/

/-- One sample of the LOF machine. -/
def lofSample (s : State) (p : Nat) : State :=
  let oof := !portInSync s p
  let x := s.portX p
  if s.on F.LF_PSTATUS_LOF p then
    if oof then s.modPort p fun x => { x with lofB := 0 }
    else if x.lofB < 95 then s.modPort p fun x => { x with lofB := x.lofB + 1 }
    else ((s.put F.LF_PSTATUS_LOF 0 p).raiseBit F.LF_PEVENT_LOF_CLR p).modPort p fun x => { x with lofA := 0, lofB := 0 }
  else
    if !oof then s.modPort p fun x => { x with lofA := 0 }
    else if x.lofA < 95 then s.modPort p fun x => { x with lofA := x.lofA + 1 }
    else
      let s := ((s.put F.LF_PSTATUS_LOF 1 p).raiseBit F.LF_PEVENT_LOF_SET p).modPort p fun x =>
        { x with lofA := 0, lofB := 0 }
      if s.on F.LF_PSTATUS_LOM p then
        ((s.put F.LF_PSTATUS_LOM 0 p).raiseBit F.LF_PEVENT_LOM_CLR p).modPort p fun x => { x with lomA := 0, lomB := 0 }
      else s

/-- One sample of the LOM machine. -/
def lomSample (s : State) (p : Nat) : State :=
  let inFrame := portInSync s p
  let im := s.on F.LF_PSTATUS_IM p
  let x := s.portX p
  if s.on F.LF_PSTATUS_LOM p then
    if !(inFrame && im) then s.modPort p fun x => { x with lomB := 0 }
    else if x.lomB < 95 then s.modPort p fun x => { x with lomB := x.lomB + 1 }
    else ((s.put F.LF_PSTATUS_LOM 0 p).raiseBit F.LF_PEVENT_LOM_CLR p).modPort p fun x => { x with lomA := 0, lomB := 0 }
  else
    if !(inFrame && !im) then s.modPort p fun x => { x with lomA := 0 }
    else if x.lomA < 95 then s.modPort p fun x => { x with lomA := x.lomA + 1 }
    else ((s.put F.LF_PSTATUS_LOM 1 p).raiseBit F.LF_PEVENT_LOM_SET p).modPort p fun x => { x with lomA := 0, lomB := 0 }

/-- LOF and LOM of port p at a tick; a port that is not RUNNING holds both clear. -/
def lfSample (s : State) (p : Nat) : State :=
  if portRunning s p then lomSample (lofSample s p) p else s

/-! ### Local frame numbering (R304, Table 8.8) -/

/-- The next local frame numbered so that the source's error lies in −6,400 ≤ E < 6,400 (R304). -/
def adopt (s : State) : State :=
  let p := s.num.src
  match (s.portX p).label with
  | none => s
  | some l =>
    let back := (s.frameTotal + 2 ^ 32 - (s.portX p).rxTotal) % 2 ^ 32
    -- from the arrival of the frame labelled l to the next local frame start, plus D, less half a frame
    let gap : Int := ((back + 1) * frameCycles : Nat) + (s.get F.LF_NUM_DELAY_D : Int)
      - (s.get F.LF_RX_PHASE_PHASE p : Int) - 6400
    let k : Int := -((-gap) / (frameCycles : Int))
    ({ s with num.next := some (addNum l k) }).raiseBit F.LF_EVENT_NUM_ADOPTED

/-- Whether the source's error is 6,400 FCLK or more. -/
def errFar (s : State) : Bool :=
  match srcErr s with
  | some e => Nat.ble 6400 e.natAbs
  | none => false

/-- UNLOCKED, and this tick completes 96 good ones. -/
def adoptDue (s : State) : Bool := s.get F.LF_NUM_STATUS_STATE == 1 && srcGood s && Nat.ble 95 s.num.good

/-- UNLOCKED → LOCKED. -/
def toLocked (s : State) : State :=
  let s := adopt (s.put F.LF_NUM_STATUS_STATE 2)
  { s with num.good := 96, num.far := 0, num.near := 0 }

/-- LOCKED without MISMATCH, and this tick completes 96 of |E| ≥ 6,400. -/
def mismatchSetDue (s : State) : Bool :=
  s.get F.LF_NUM_STATUS_STATE == 2 && !s.on F.LF_NUM_STATUS_MISMATCH && srcGood s && errFar s && Nat.ble 95 s.num.far

/-- LOCKED with MISMATCH, and this tick completes 96 of |E| < 6,400. -/
def mismatchClrDue (s : State) : Bool :=
  s.get F.LF_NUM_STATUS_STATE == 2 && s.on F.LF_NUM_STATUS_MISMATCH && srcGood s && !errFar s && Nat.ble 95 s.num.near

/-- DEDUCED, unsafe (notes/assumptions/52). -/
def mismatchSet (s : State) : State :=
  { (s.put F.LF_NUM_STATUS_MISMATCH 1).raiseBit F.LF_EVENT_MISMATCH_SET with num.far := 0, num.near := 0 }

def mismatchClr (s : State) : State :=
  { (s.put F.LF_NUM_STATUS_MISMATCH 0).raiseBit F.LF_EVENT_MISMATCH_CLR with num.far := 0, num.near := 0 }

/-- MODE, SRC and NUM_ADOPT as they were written before the tick, acted on at its start (R25, R321, Table 8.8).
DEDUCED, unsafe (notes/assumptions/52). -/
def numWritten (s : State) : State :=
  let restart (s : State) : State := { s with num.good := 0, num.far := 0, num.near := 0 }
  let state := s.get F.LF_NUM_STATUS_STATE
  let asked := s.num.adopt
  let moved := s.num.src != s.get F.LF_NUM_CTRL_SRC
  let s : State := { s with num.adopt := false, num.src := s.get F.LF_NUM_CTRL_SRC }
  if !s.on F.LF_NUM_CTRL_MODE then (if state = 0 then s else restart (s.put F.LF_NUM_STATUS_STATE 0))
  else if state = 0 then restart (s.put F.LF_NUM_STATUS_STATE 1)
  else
    let s := if moved then restart s else s
    if asked ∧ state = 2 then s.put F.LF_NUM_STATUS_STATE 1 else s

/-- The numbering machine at a tick (Table 8.8).
DEDUCED, unsafe (notes/assumptions/52). -/
def numTick (s : State) : State :=
  let s := refreshNumErr (numWritten s)
  let moved := s.num.moved
  let s := { s with num.moved := false }
  let s := if s.get F.LF_NUM_STATUS_STATE == 2 && moved && errFar s then adopt s else s
  let s := if adoptDue s then toLocked s
    else if mismatchSetDue s then mismatchSet s
    else if mismatchClrDue s then mismatchClr s
    else s
  let good := srcGood s
  let far := errFar s
  { s with
    num.good := if s.get F.LF_NUM_STATUS_STATE != 0 && good then min (s.num.good + 1) 96 else 0
    num.far := if s.get F.LF_NUM_STATUS_STATE == 2 && good && far then min (s.num.far + 1) 96 else 0
    num.near := if s.get F.LF_NUM_STATUS_STATE == 2 && good && !far && s.on F.LF_NUM_STATUS_MISMATCH
      then min (s.num.near + 1) 96 else 0 }

/-- The number that the next local frame will take. -/
def State.nextFrameNum (s : State) : Nat × Nat :=
  match s.num.next with
  | some n => n
  | none => nextNum s.frameNum

/-- A local frame starts: its number and the total (R304, R307). -/
def advanceFrame (s : State) : State :=
  let n := s.nextFrameNum
  let s := ((s.put F.LF_NOW_S n.1).put F.LF_NOW_F n.2).put F.LF_FRAME_TOTAL (s.frameTotal + 1)
  { s with num.next := s.num.late, num.late := none }

/-! ### Register writes -/

/-- What block LF refuses (R309). -/
def judgeLf (_ : State) (a v : Nat) : Nat :=
  if a = 0x4004000C then rangeIf (Nat.blt 31249 (bitsOf v 0 15)) else St.ok

/-- NUM_LOAD acts in FREE, on the first local frame after S + 1: a frame that starts in that cycle is not it (R304, R320).
NUM_ADOPT waits for the next tick (R25, R305).
DEDUCED, unsafe (notes/assumptions/111). -/
def hookLfCmd (v : Nat) (s : State) : State :=
  let n := (s.get F.LF_NUM_SET_S, s.get F.LF_NUM_SET_F_F)
  let s := if bitOf v 0 && s.get F.LF_NUM_STATUS_STATE == 0 then
      (if frameCycles ≤ s.inFrame then { s with num.late := some n } else { s with num.next := some n }).raiseBit
        F.LF_EVENT_NUM_LOADED
    else s
  if bitOf v 1 then { s with num.adopt := true } else s

/-- LF_PCMD[p] (R309, R310). -/
def hookPcmd (p v : Nat) (s : State) : State :=
  let s := if bitOf v 0 then (s.put F.LF_FRAMING_CNT 0 p).put F.LF_MC_CNT 0 p else s
  let s := s.modPort p fun x => { x with
    alignInj := if bitsOf v 8 8 = 0 then x.alignInj else bitsOf v 8 8
    bipInj := if bitsOf v 16 8 = 0 then x.bipInj else bitsOf v 16 8 }
  s.put F.LF_PSTATUS_INJ_BUSY (b2n ((s.portX p).alignInj != 0 || (s.portX p).bipInj != 0)) p

/-- What a write in block LF sets off. MC_EN written 0 abandons the message being sent, too.
DESIGN CHOICE, unsafe (notes/assumptions/104). -/
def hookLf (a v _old : Nat) (s : State) : State :=
  if a = 0x40040010 then hookLfCmd v s
  else if a < 0x40041000 then s
  else
    let p := (a - 0x40041000) / 0x100
    match a % 0x100 with
    | 0x00 => if bitOf v 0 then s else s.modPort p fun x => { x with mcRx := none, mcTx := none, mcRef := none }
    | 0x34 => hookPcmd p v s
    | _ => s

/-- A write of a register of block LF. -/
def writeLf (s : State) (f : Field) (p v : Nat) : State := writeBy judgeLf hookLf s (f.addr p) v

/-! ### The commands -/

/-- HUNT_START_WORD (Table 8.5): a start word is found in HUNT, followed by the words `w1` and `w2`.
DEDUCED, safe (notes/assumptions/47). -/
def execHuntStartWord (p : Fin 16) (w1 w2 : LineWord) (s : State) : Host.Outcome State Fault Refusal :=
  act s (if finderRuns s p && s.get F.LF_PSTATUS_FSTATE p == 0 && w1 == 0x7E36 && w2 == 0x81C9 then
    s.put F.LF_PSTATUS_FSTATE 1 p else s)

/-- TRACE_ACCEPTED (R288). -/
def execTraceAccepted (p : Fin 16) (s : State) : Host.Outcome State Fault Refusal := act s (traceAccept s p)

/-- MGMT_MESSAGE_ACCEPT (R293). -/
def execMgmtMessageAccept (p : Fin 16) (s : State) : Host.Outcome State Fault Refusal := act s (mcAccept s p)

/-- LOF_SET (R301): a sample that completes 96 out of frame. -/
def execLofSet (p : Fin 16) (s : State) : Host.Outcome State Fault Refusal :=
  act s (if portRunning s p && !s.on F.LF_PSTATUS_LOF p && !portInSync s p && Nat.ble 95 (s.portX p).lofA then
    lofSample s p else s)

/-- LOF_CLR (R301): a sample that completes 96 in frame. -/
def execLofClr (p : Fin 16) (s : State) : Host.Outcome State Fault Refusal :=
  act s (if portRunning s p && s.on F.LF_PSTATUS_LOF p && portInSync s p && Nat.ble 95 (s.portX p).lofB then
    lofSample s p else s)

/-- LOM_SET (R301): a sample that completes 96 in frame and OOM. -/
def execLomSet (p : Fin 16) (s : State) : Host.Outcome State Fault Refusal :=
  act s (if portRunning s p && !s.on F.LF_PSTATUS_LOM p && portInSync s p && !s.on F.LF_PSTATUS_IM p
      && Nat.ble 95 (s.portX p).lomA then lomSample s p else s)

/-- LOM_CLR (R301): a sample that completes 96 IM. -/
def execLomClr (p : Fin 16) (s : State) : Host.Outcome State Fault Refusal :=
  act s (if portRunning s p && s.on F.LF_PSTATUS_LOM p && portInSync s p && s.on F.LF_PSTATUS_IM p
      && Nat.ble 95 (s.portX p).lomB then lomSample s p else s)

/-- NUM_LOAD (R304, R305, R320): LF_CMD written with bit 0. -/
def execNumLoad (s : State) : Host.Outcome State Fault Refusal := act s (writeLf s F.LF_CMD 0 1)

/-- NUM_ADOPT (R304, R305): LF_CMD written with bit 1. -/
def execNumAdopt (s : State) : Host.Outcome State Fault Refusal := act s (writeLf s F.LF_CMD 0 2)

/-- NUMBERING_MODE_WRITE (R304): LF_NUM_CTRL written. -/
def execNumberingModeWrite (mode : Bool) (src : Fin 16) (s : State) : Host.Outcome State Fault Refusal :=
  act s (writeLf s F.LF_NUM_CTRL 0 (b2n mode * 2 ^ 8 + src.val))

/-- NUM_ADOPTED (R304). -/
def execNumAdopted (s : State) : Host.Outcome State Fault Refusal := act s (if adoptDue s then toLocked s else s)

/-- MISMATCH_SET (R304). -/
def execMismatchSet (s : State) : Host.Outcome State Fault Refusal := act s (if mismatchSetDue s then mismatchSet s else s)

/-- MISMATCH_CLR (R304). -/
def execMismatchClr (s : State) : Host.Outcome State Fault Refusal := act s (if mismatchClrDue s then mismatchClr s else s)

/-- LF_CNT_CLR (R309): LF_PCMD[p].CNT_CLR. -/
def execLfCntClr (p : Fin 16) (s : State) : Host.Outcome State Fault Refusal := act s (writeLf s F.LF_PCMD p 1)

/-- ALIGN_INJ (R310): LF_PCMD[p].ALIGN_INJ written n. -/
def execAlignInj (p : Fin 16) (n : Byte) (s : State) : Host.Outcome State Fault Refusal :=
  act s (writeLf s F.LF_PCMD p (n.toNat * 2 ^ 8))

/-- BIP_INJ (R310): LF_PCMD[p].BIP_INJ written n. -/
def execBipInj (p : Fin 16) (n : Byte) (s : State) : Host.Outcome State Fault Refusal :=
  act s (writeLf s F.LF_PCMD p (n.toNat * 2 ^ 16))

end Sys2Proof.Machine
end

