-- ==== Sys2Proof/Machine/Xc.lean ====
section
/-!
DEFINITION. Machine/Xc.lean: tributaries and the cross-connect (chapter 9): contexts, slot maps, the check word, copies
and their ages, the watchdog, slips and the spare slice.
-/
namespace Sys2Proof.Machine

/-! ### Contexts (R323–R325) -/

/-- Whether Table 9.1 admits the source kind, and the width with it, for the type. -/
def tribAdmits (ty kind width : Nat) : Bool :=
  match kind with
  | 1 | 6 => true
  | 2 => ty == 0 && (width == 1 || width == 2)
  | 3 => (ty == 0 && width == 1) || (ty == 1 && width == 2)
  | 4 => ty == 1 && width == 2
  | 5 => ty == 2 || ty == 3
  | _ => false

/-- How many sources a kind has (R325). -/
def sourceCount (kind : Nat) : Nat :=
  match kind with
  | 1 => 16
  | 4 => 8
  | 6 => 1
  | _ => 64

/-- Whether R325 refuses the context word. -/
def tribBad (v : Nat) : Bool :=
  let ty := bitsOf v 30 2
  let kind := bitsOf v 27 3
  let width := bitsOf v 0 13
  Nat.blt 4992 width || kind == 7 ||
  (kind != 0 && (width == 0 || Nat.ble (sourceCount kind) (bitsOf v 21 6) || !tribAdmits ty kind width ||
    (Nat.ble 2 ty && (bitOf v 20 || bitsOf v 13 7 != 0))))

/-- Fields of the context of t. -/
def State.tribType (s : State) (t : Nat) : Nat := s.get F.XC_TRIB_CFG_TYPE t
def State.tribKind (s : State) (t : Nat) : Nat := s.get F.XC_TRIB_CFG_SRC_KIND t
def State.tribIndex (s : State) (t : Nat) : Nat := s.get F.XC_TRIB_CFG_SRC_INDEX t
def State.tribCrc (s : State) (t : Nat) : Bool := s.on F.XC_TRIB_CFG_CRC_EN t
def State.tribWidth (s : State) (t : Nat) : Nat := s.get F.XC_TRIB_CFG_WIDTH t

/-- The tributaries whose context is not at its reset word, in increasing order: every other one has SRC_KIND NONE. -/
def State.liveTribs (s : State) : List Nat :=
  s.regs.filterMap fun e =>
    if 0x40051000 ≤ e.1 ∧ e.1 < 0x40052000 ∧ e.1 % 16 = 0 then some ((e.1 - 0x40051000) / 16) else none

/-! ### Check word (R335, R340, R445) -/

/-- The CRC-8 of R335 over a list of words, high byte first. -/
def crc8From : Nat → List LineWord → Nat
  | c, [] => c
  | c, w :: ws =>
    let c := crcShifts 8 0x07 8 (c ^^^ (w.toNat / 256))
    crc8From (crcShifts 8 0x07 8 (c ^^^ (w.toNat % 256))) ws

def crc8 (ws : List LineWord) : Nat := crc8From 0 ws

/-- The check word over the words before it, with an AGE. -/
def checkWord (ws : List LineWord) (age : Nat) : LineWord := BitVec.ofNat 16 (crc8 ws * 256 + age)

/-- A tributary of W slots whose every word is `x`; its check word carries AGE 255. -/
def uniformTrib (x : LineWord) (width : Nat) (crc : Bool) : List LineWord :=
  let n := 4 * width
  if crc then List.replicate (n - 1) x ++ [checkWord (List.replicate (n - 1) x) 255] else List.replicate n x

/-- The idle pattern of a tributary (R340). -/
def idleTrib (s : State) (t : Nat) : List LineWord :=
  uniformTrib (BitVec.ofNat 16 (s.get F.XC_IDLE_PATTERN)) (s.tribWidth t) (s.tribCrc t)

/-- The AIS pattern of a tributary (R445). -/
def aisTrib (s : State) (t : Nat) : List LineWord := uniformTrib 0xFFFF (s.tribWidth t) (s.tribCrc t)

/-- Slot j of a tributary's words. -/
def slotOf (ws : List LineWord) (j : Nat) : List LineWord := (ws.drop (4 * j)).take 4

/-! ### Slot maps (R326–R328) -/

/-- A run as a map gives it: its entry index, first slot, length, tributary (256: unmapped), and which of the
tributary's slots its first one is. -/
structure Run where
  ix : Nat
  first : Nat
  count : Nat
  trib : Nat
  j0 : Nat
  deriving DecidableEq, Repr

/-- The address of entry r of a map: port p, DIR 0 transmit or 1 receive, buffer 0 A or 1 B. -/
def mapAddr (p dir buf r : Nat) : Nat := 0x30000000 + 0x4000 * p + 0x2000 * dir + 0x1000 * buf + 4 * r

/-- How many slots of t the runs name. -/
def namedBy (runs : List Run) (t : Nat) : Nat := runs.foldl (fun n r => if r.trib = t then n + r.count else n) 0

/-- The runs of a map from entry r on. Each 64-bit word read is checked; an uncorrectable one reads as the end of the
list (Table 18.2), which the Bool reports. -/
def readRuns (s : State) (base : Nat) : Nat → Nat → Nat → List Run → State × List Run × Bool
  | 0, _, _, acc => (s, acc, false)
  | n + 1, r, first, acc =>
    let a := base + 4 * r
    let chk := if a % 8 = 0 then eccCheck s a else (s, 0)
    if chk.2 = 2 then (chk.1, acc, true)
    else
      let w := (chk.1.reg a).toNat
      let count := bitsOf w 16 13
      let t := bitsOf w 0 9
      if count = 0 then (chk.1, acc, false)
      else
        readRuns chk.1 base n (r + 1) (first + count)
          (acc ++ [{ ix := r, first := first, count := count, trib := t, j0 := namedBy acc t }])

/-- The whole map.
DEDUCED, unsafe (notes/assumptions/57). -/
def mapRuns (s : State) (p dir buf : Nat) : State × List Run × Bool := readRuns s (mapAddr p dir buf 0) 1024 0 0 []

/-- The runs without any check, as a command reads them from the table.
DEDUCED, unsafe (notes/assumptions/57). -/
def plainRuns (s : State) (p dir buf : Nat) : List Run :=
  (readRuns (({ s with fa.badWords := [] } : State).put F.FA_JIG_LEFT 0 2) (mapAddr p dir buf 0) 1024 0 0 []).2.1

/-- The runs that do not reach beyond the last of `limit` slots: the others are ignored (R328, R357). -/
def fitRuns (limit : Nat) (runs : List Run) : List Run := runs.filter fun r => Nat.ble (r.first + r.count) limit

/-- The runs of the receive buffer that port p used last. -/
def usedRuns (s : State) (p : Nat) : List Run := plainRuns s p 1 (s.get F.XC_RX_STAT_USED_B p)

/-! ### Groups (R469, R470, R484) -/

/-- A setting of block PS as the last tick took it: a write is acted on at the first tick after it (R25). -/
def State.psCfg (s : State) (f : Field) (i : Nat) : Nat := bitsOf (SMap.get resetWord s.ps.cfg (f.addr i)).toNat f.lo f.w

/-- The state with the settings of block PS as its registers hold them. -/
def psLive (s : State) : State := { s with ps.cfg := s.regs }

def psKind (s : State) (u : Nat) : Nat := s.psCfg F.PS_GCFG_KIND u

/-- The port of side x of group u. -/
def sidePort (s : State) (u x : Nat) : Nat := if x = 0 then s.psCfg F.PS_GCFG_P0 u else s.psCfg F.PS_GCFG_P1 u

def portRate (s : State) (p : Nat) : Nat := s.get F.LP_CTRL_RATE p

/-- The group, other than off, that holds port p. -/
def groupOf (s : State) (p : Nat) : Option Nat :=
  (List.range 8).find? fun u => psKind s u != 0 && (sidePort s u 0 == p || sidePort s u 1 == p)

/-- The side of group u that port p is. -/
def sideOf (s : State) (u p : Nat) : Nat := if sidePort s u 0 = p then 0 else 1

/-- The ranges of a RING group lie badly (R484). -/
def ringRangeBad (s : State) (u : Nat) : Bool :=
  let n := s.psCfg F.PS_RWORK_N u
  let ws := s.psCfg F.PS_RWORK_WS u
  let ps := s.psCfg F.PS_RPROT_PSL u
  let limit := slotsPerFrame (portRate s (sidePort s u 0))
  Nat.blt limit (ws + n) || Nat.blt limit (ps + n) || (Nat.blt ws (ps + n) && Nat.blt ps (ws + n))

/-- The group holds IDLE by R470 or R484. -/
def groupBad (s : State) (u : Nat) : Bool :=
  let r0 := portRate s (sidePort s u 0)
  let r1 := portRate s (sidePort s u 1)
  match psKind s u with
  | 1 => r0 != r1
  | 2 =>
    let node := s.psCfg F.PS_RING_NODE u
    let n0 := s.psCfg F.PS_RING_NBR0 u
    let n1 := s.psCfg F.PS_RING_NBR1 u
    r0 != r1 || node == n0 || node == n1 || n0 == n1 || ringRangeBad s u
  | 3 => Nat.blt r1 r0
  | _ => false

/-- The state that group u's ports work by: IDLE, whatever STATE shows, while R470 or R484 holds it there. -/
def psState (s : State) (u : Nat) : Nat := if groupBad s u then 0 else s.get F.PS_GSTAT_STATE u

/-! ### Merged tributaries and the ports that bring a tributary (R329, R476) -/

/-- PS_TRIB[t] puts t in MERGE or RING group u, and its source port is one of the two (R476). -/
def mergeGroup (s : State) (t : Nat) : Option Nat :=
  if s.psCfg F.PS_TRIB_MERGE t != 0 && s.tribKind t == 1 then
    let u := s.psCfg F.PS_TRIB_GROUP t
    let kind := psKind s u
    let p := s.tribIndex t
    if (kind == 1 || kind == 2) && (p == sidePort s u 0 || p == sidePort s u 1) then some u else none
  else none

/-- The receive map of port p names t. -/
def rxNames (s : State) (p t : Nat) : Bool :=
  (fitRuns (slotsPerFrame (portRate s p)) (usedRuns s p)).any fun r => r.trib == t

/-- The group by which t is merged, when every condition of R476 holds. -/
def mergedBy (s : State) (t : Nat) : Option Nat :=
  match mergeGroup s t with
  | none => none
  | some u => if rxNames s (sidePort s u 0) t && rxNames s (sidePort s u 1) t then some u else none

/-- The group that merges t: a group held IDLE merges nothing (R470). -/
def merging (s : State) (t : Nat) : Option Nat :=
  match mergedBy s t with
  | some u => if groupBad s u then none else some u
  | none => none

/-- Whether receive port p, whose map names t, may bring it: its SRC_INDEX port, and the second port of a group that merges it
(R329, R364, R476). -/
def rxAdmits (s : State) (p t : Nat) : Bool :=
  s.tribKind t == 1 && (s.tribIndex t == p ||
    match mergeGroup s t with
    | some u => !groupBad s u && (p == sidePort s u 0 || p == sidePort s u 1) && rxNames s (s.tribIndex t) t
    | none => false)

/-! ### Times of slots (R341, R342) -/

/-- RX(a) and TX(b) of Table 9.4, in FCLK. -/
def rxLatency (rate : Nat) : Nat :=
  match rate with
  | 0 => 45
  | 1 => 32
  | 2 => 26
  | _ => 23

def txLatency (rate : Nat) : Nat :=
  match rate with
  | 0 => 25
  | 1 => 21
  | 2 => 19
  | _ => 25

/-- The fabric latency from class a to class b, in FCLK (R341). -/
def fabricLatency (a b : Nat) : Nat := rxLatency a + 8 + txLatency b

/-- When the copy of slot `slot` of a copy is ready for a transmit port of class `b` (R342). -/
def CopyT.readyAt (c : CopyT) (slot b : Nat) : Nat :=
  c.at_ + (32 + 4 * slot) * wordTime c.rate + fabricLatency c.rate b * 100

/-- The words of slot j of a copy; none when the copy lacks that slot. -/
def CopyT.slotJ (c : CopyT) (j : Nat) : Option (Nat × List LineWord) :=
  match c.slots[j]? with
  | some (m, ws) => if ws.length = 4 then some (m, ws) else none
  | none => none

/-- When slot j of a copy is ready for a transmit port of class `b`; none when the copy lacks that slot. -/
def CopyT.readyJ (c : CopyT) (j b : Nat) : Option Nat := (c.slotJ j).map fun x => c.readyAt x.1 b

/-- The copy that the transmit slot beginning at `at_` carries of slot j, the newest first: the first one completely received and
ready by then (R34, R342). The Bool says that a later frame brought none, as far as this slot can tell: a frame without the
tributary counts from when its copy would have been ready (R332, R336).
DEDUCED, unsafe (notes/assumptions/54). -/
def chooseCopy (j b at_ : Nat) : List CopyT → Option (CopyT × Bool)
  | [] => none
  | c :: older =>
    if c.slots.isEmpty then
      match older.findSome? fun o => (o.slotJ j).map fun x => x.1 with
      | none => none
      | some m =>
        if timeLe (c.readyAt m b) at_ then (chooseCopy j b at_ older).map fun r => (r.1, true) else chooseCopy j b at_ older
    else
      match c.readyJ j b with
      | some r => if timeLe r at_ then some (c, false) else chooseCopy j b at_ older
      | none => chooseCopy j b at_ older

/-! ### Receiving copies (R329, R332, R337, R338) -/

/-- The words of slot m of a frame. -/
def frameSlot (ws : List LineWord) (m : Nat) : List LineWord := (ws.drop (32 + 4 * m)).take 4

/-- The slots of t that the runs name, as (slot, words), those from t's WIDTH on left out. -/
def gather (runs : List Run) (t width : Nat) (words : Nat → Option (Nat × List LineWord)) : List (Nat × List LineWord) :=
  (runs.filter fun r => r.trib = t).flatMap fun r =>
    (List.range (min r.count (width - r.j0))).map fun i =>
      match words (r.first + i) with
      | some x => x
      | none => (r.first + i, [])

/-- The tributaries that runs name, each once, in order of first appearance. -/
def tribsOf (runs : List Run) : List Nat :=
  runs.foldl (fun l r => if r.trib < 256 ∧ !l.contains r.trib then l ++ [r.trib] else l) []

/-- A copy of t from its gathered slots: its check word judged, under Jig 12, when CRC_EN is 1 and the whole tributary is
there. -/
def makeCopy (s : State) (t at_ rate : Nat) (slots : List (Nat × List LineWord)) : CopyT :=
  let ws := slots.flatMap fun x => x.2
  let n := 4 * s.tribWidth t
  let whole := ws.length == n
  let chk := wordAt ws (n - 1)
  { at_ := at_, rate := rate, slots := slots
    crcOk := !s.tribCrc t || (whole && crc8 (ws.take (n - 1)) == chk / 256 ^^^ s.jigMask 12 % 256)
    age := if s.tribCrc t && whole then chk % 256 else 0 }

/-- The state after that check: one received check word is one check of checker 12 (Table 18.5). -/
def copyChecked (s : State) (t : Nat) (slots : List (Nat × List LineWord)) : State :=
  if s.tribCrc t && (slots.flatMap fun x => x.2).length == 4 * s.tribWidth t then jigUse s 12 else s

/-- A received copy's check word noted (R337): its age shown, a bad CRC counted. -/
def noteCheck (s : State) (t : Nat) (c : CopyT) : State :=
  let whole := s.tribCrc t && (c.slots.flatMap fun x => x.2).length == 4 * s.tribWidth t
  let s := if whole then s.put F.XC_TRIB_STAT_AGE c.age t else s
  if whole && !c.crcOk then
    { (s.bumpSat F.XC_TRIB_CRC 1 t).raiseBit F.XC_EVENT_CRC_ERR with
      dm.crcNow := if s.dm.crcNow.contains t then s.dm.crcNow else s.dm.crcNow ++ [t] }
  else s

/-- How many copies of a tributary are kept: more than the frames that any transmit slot can lie behind (R342). -/
def copiesKept : Nat := 8

/-- A copy of t for the cross-connect (R34, R338). -/
def takeCopy (s : State) (t : Nat) (c : CopyT) : State :=
  let c := { c with port := s.tribIndex t }
  s.modTrib t fun x => { x with
    copies := (c :: x.copies).take copiesKept, fresh := x.fresh || (c.crcOk && c.age == 0) }

/-- Tributary t was not received in a frame of its port whose word 0 arrived at `at_`: the previous copy is carried (R34, R332). -/
def missCopy (s : State) (t at_ rate : Nat) : State :=
  s.modTrib t fun x => { x with
    copies := ({ at_ := at_, rate := rate, slots := [], port := s.tribIndex t } :: x.copies).take copiesKept }

/-- The copies of t that came by its source port (R356). -/
def State.copiesOf (s : State) (t : Nat) : List CopyT := (s.tribX t).copies.filter fun c => c.port == s.tribIndex t

/-- The receive buffer for a frame whose word 28 carries version `v`: A when both qualify (R332). -/
def rxBuffer (s : State) (p v : Nat) : Option Nat :=
  if s.on F.XC_RX_SEL_ARM_A p && s.get F.XC_RX_SEL_VER_A p == v then some 0
  else if s.on F.XC_RX_SEL_ARM_B p && s.get F.XC_RX_SEL_VER_B p == v then some 1
  else none

/-- The choice and its registers; no buffer sets SMV_MISMATCH (R332). For such a frame, for which no buffer is chosen, USED_B keeps its
value.
DESIGN CHOICE, unsafe (notes/assumptions/105). -/
def chooseRxBuffer (s : State) (p v : Nat) : State × Option Nat :=
  let b := rxBuffer s p v
  let s := s.put F.XC_RX_STAT_LAST_SMV v p
  let s := match b with
    | some n => (s.put F.XC_RX_STAT_SMV_MISMATCH 0 p).put F.XC_RX_STAT_USED_B n p
    | none => (s.put F.XC_RX_STAT_SMV_MISMATCH 1 p).raiseBit F.XC_EVENT_SMV_MISMATCH
  (s, b)

/-- The tributaries sourced by receive port p.
DEDUCED, unsafe (notes/assumptions/55). -/
def tribsFrom (s : State) (p : Nat) : List Nat :=
  s.liveTribs.filter fun t => s.tribKind t == 1 && s.tribIndex t == p

/-- MAP_ERR of a frame's map, of the tributaries for which it erred, and the event (R328, R329).
DEDUCED, unsafe (notes/assumptions/55). -/
def mapErr (s : State) (stat : Field) (p : Nat) (bad : List Nat) (err : Bool) : State :=
  let s := s.put stat (b2n err) p
  let s := forList bad (fun t s => s.put F.XC_TRIB_STAT_MAP_ERR 1 t) s
  let s : State := { s with xc.mapBad := s.xc.mapBad ++ bad.filter fun t => !s.xc.mapBad.contains t }
  if err then s.raiseBit F.XC_EVENT_MAP_ERR else s

/-- XC_TRIB_STAT.MAP_ERR at a local frame start: it stands for the frame that has ended (R353).
DEDUCED, unsafe (notes/assumptions/55). -/
def mapErrTurn (s : State) : State :=
  let shown := s.regs.filterMap fun e =>
    if 0x40051000 ≤ e.1 ∧ e.1 < 0x40052000 ∧ e.1 % 16 = 4 ∧ bitOf e.2.toNat 17 then some ((e.1 - 0x40051000) / 16) else none
  let s := forList shown (fun t s => if s.xc.mapBad.contains t then s else s.put F.XC_TRIB_STAT_MAP_ERR 0 t) s
  { s with xc.mapBad := [] }

/-! ### Slips (R343, R345, R360) -/

/-- Whether a change of phase from `old` to `new` is a slip: 6,400 FCLK or more, and not made by a movement of the local
frame starts. -/
def slipped (s : State) (old new : Nat) : Bool :=
  Nat.ble 6400 ((new : Int) - (old : Int)).natAbs && !s.num.moving && !s.num.moved

/-- A slip counted: a rise of the phase is a skip, a fall a repeat. -/
def slipCount (s : State) (skips repeats : Field) (p old new : Nat) : State :=
  if slipped s old new then (s.bumpSat (if old < new then skips else repeats) 1 p).raiseBit F.XC_EVENT_SLIP else s

/-- What port p has gathered in the PM second in progress (R451). -/
def pmPort (s : State) (p : Nat) : PmPort := SMap.get pmDflt s.dm.port p
def modPm (s : State) (p : Nat) (f : PmPort → PmPort) : State :=
  { s with dm.port := SMap.set pmDflt s.dm.port p (f (pmPort s p)) }

/-- A slip counted in the PM second in progress (Table 12.5). -/
def pmSlip (s : State) (p : Nat) : State := modPm s p fun x => { x with slips := x.slips + 1 }

/-- A received word 0 against the one before it that was received in SYNC, if there was one. -/
def rxSlip (s : State) (p : Nat) (was : Bool) (old new : Nat) : State :=
  if was && slipped s old new then
    let s := slipCount s F.XC_RX_SLIP_SKIPS F.XC_RX_SLIP_REPEATS p old new
    pmSlip { s with dm.slipNow := s.dm.slipNow ||| 2 ^ p } p
  else s

/-- The slip of a loop-timed transmit frame start. -/
def txSlip (s : State) (p new : Nat) : State :=
  let s := match (s.portX p).txPhase with
    | some old =>
      let s := slipCount s F.XC_TX_SLIP_SKIPS F.XC_TX_SLIP_REPEATS p old new
      if slipped s old new then pmSlip { s with dm.slipTx := s.dm.slipTx ||| 2 ^ p } p else s
    | none => s
  s.modPort p fun x => { x with txPhase := some new }

/-! ### Filling a transmit frame (R328, R330, R336) -/

/-- The newest value that is ready for a transmit slot that begins at `at_` (R34, R342).
DEDUCED, unsafe (notes/assumptions/53). -/
def chooseMade (mades : List MadeT) (b at_ : Nat) : Option MadeT :=
  mades.find? fun x => timeLe (x.base + txLatency b * 100) at_

/-- A value's words in the width of t: what does not fit is not carried, and word 4W − 2 of an ISO tributary with a check
word is 0 (R324).
DEDUCED, unsafe (notes/assumptions/53). -/
def fitWords (s : State) (t : Nat) (x : MadeT) : List LineWord :=
  let n := 4 * s.tribWidth t
  let ws := (if s.tribType t = 1 then x.sample else x.words) ++ List.replicate n 0
  if s.tribCrc t && s.tribType t == 0 then ws.take (n - 2) ++ [0, 0] else ws.take n

/-- The transmit slot that carries slot j of t in this map; the last named slot for one that is not named. -/
def slotNaming (runs : List Run) (t j : Nat) : Nat :=
  match runs.find? (fun r => r.trib == t && Nat.ble r.j0 j && Nat.blt j (r.j0 + r.count)) with
  | some r => r.first + (j - r.j0)
  | none => runs.foldl (fun m r => if r.trib = t then r.first + r.count - 1 else m) 0

/-- What port p last carried of t, if t has the same source still (R336, R356). -/
def lastCarried (s : State) (p t : Nat) : Option Carried :=
  match s.xc.carried.find? (fun e => e.1 == 256 * p + t) with
  | some (_, k) => if k.src = 64 * s.tribKind t + s.tribIndex t then some k else none
  | none => none

/-- The AGE that goes with a local source's value number `id` on port p: 0 in the first frame that carries it, and 1 more in each further
one (R336).
DEDUCED, unsafe (notes/assumptions/54). -/
def madeAge (s : State) (p t id : Nat) : Nat :=
  match lastCarried s p t with
  | some k => if k.id = id then min (k.age + 1) 255 else 0
  | none => 0

/-- The AGE that transmit port p sends with the copy `c` of t: the copy's own, and 1 more when the port carried it in an earlier frame or
when a later frame brought none (R336).
DEDUCED, unsafe (notes/assumptions/54). -/
def copyAge (s : State) (p t : Nat) (c : CopyT) (missed : Bool) : Nat :=
  let again := match lastCarried s p t with
    | some k => k.id == c.at_
    | none => false
  if again || missed then min (c.age + 1) 255 else c.age

/-- When a value must be there for slot j of t in a frame that began at `t0`: at the start of its transmit slot, and at the frame's own
start in a SAMPLE tributary, whose frames carry one sample each (R34, R37).
DEDUCED, unsafe (notes/assumptions/53). -/
def slotMoment (s : State) (t b t0 : Nat) (runs : List Run) (j : Nat) : Nat :=
  if s.tribType t = 1 then t0 else t0 + (32 + 4 * slotNaming runs t j) * wordTime b

/-- The words that a locally sourced tributary sends on port p, class b, in a frame that began at `t0`: each slot takes
the newest value ready for it, and the check word goes over the words as sent (R335, R336).
DEDUCED, unsafe (notes/assumptions/53). -/
def localWords (s : State) (p t b t0 : Nat) (runs : List Run) (mades : List MadeT) : List LineWord :=
  let width := s.tribWidth t
  let pick (j : Nat) : Option MadeT := chooseMade mades b (slotMoment s t b t0 runs j)
  let idle := idleTrib s t
  let ws := (List.range width).flatMap fun j =>
    match pick j with
    | some x => slotOf (fitWords s t x) j
    | none => slotOf idle j
  match s.tribCrc t, pick (width - 1) with
  | true, some x => ws.take (4 * width - 1) ++ [checkWord (ws.take (4 * width - 1)) (madeAge s p t x.n)]
  | _, _ => ws

/-- What transmit port p, class b, carries in slot m of a frame that began at time `t0` of slot j of the received
tributary t; a slot with no copy yet carries the idle pattern. The check word is AGEd.
DEDUCED, unsafe (notes/assumptions/54). -/
def rxSlotWords (s : State) (p t b t0 : Nat) (idle : List LineWord) (j m : Nat) : List LineWord :=
  match chooseCopy j b (t0 + (32 + 4 * m) * wordTime b) (s.copiesOf t) with
  | none => slotOf idle j
  | some (c, missed) =>
    match c.slotJ j with
    | none => slotOf idle j
    | some (_, ws) =>
      if s.tribCrc t && j + 1 == s.tribWidth t then
        ws.take 3 ++ [BitVec.ofNat 16 (wordAt ws 3 / 256 * 256 + copyAge s p t c missed)]
      else ws

/-- The slots of a run as (slot m, words); `ais` says which slots j of t carry the consequent-action pattern. -/
def runSlots (s : State) (p b t0 : Nat) (ais : Nat → Nat → Bool) (loc : List (Nat × List LineWord)) (r : Run) :
    List (Nat × List LineWord) :=
  let idle4 := List.replicate 4 (BitVec.ofNat 16 (s.get F.XC_IDLE_PATTERN) : LineWord)
  let t := r.trib
  let kind := s.tribKind t
  if 256 ≤ t ∨ kind = 0 ∨ kind = 7 then []
  else
    let width := s.tribWidth t
    let idle := idleTrib s t
    let whole : List LineWord := if kind = 6 then idle else ((loc.find? fun e => e.1 == t).map fun e => e.2).getD idle
    (List.range r.count).map fun i =>
      let j := r.j0 + i
      let m := r.first + i
      (m, if width ≤ j then idle4
        else if ais t j then slotOf (aisTrib s t) j
        else if kind = 1 then rxSlotWords s p t b t0 idle j m
        else slotOf whole j)

/-- The payload as a list of words: listed slots in order, the idle pattern in every other slot. -/
def layOut (idle : LineWord) : Nat → Nat → List (Nat × List LineWord) → List LineWord
  | 0, _, _ => []
  | n + 1, m, [] => List.replicate 4 idle ++ layOut idle n (m + 1) []
  | n + 1, m, x :: xs =>
    if x.1 = m then x.2 ++ layOut idle n (m + 1) xs else List.replicate 4 idle ++ layOut idle n (m + 1) (x :: xs)

/-- Whether the runs of a transmit map err (R328): slots past the port's last, or past a tributary's WIDTH; and the tributaries named beyond
their WIDTH. Slots beyond the WIDTH of a tributary of SRC_KIND IDLE, which carry the idle pattern by another row of the table, are no error.
DESIGN CHOICE, unsafe (notes/assumptions/105). -/
def txMapBad (s : State) (runs : List Run) (limit : Nat) : List Nat × Bool :=
  let fit := fitRuns limit runs
  let overR := (tribsOf fit).filter fun t =>
    s.tribKind t != 0 && s.tribKind t != 6 && Nat.blt (s.tribWidth t) (namedBy fit t)
  (overR, !overR.isEmpty || fit.length != runs.length)

/-- What transmit port p carried in its check-word slots noted (R336): for each named tributary the copy or value and the
AGE.
DEDUCED, unsafe (notes/assumptions/54). -/
def noteCarried (s : State) (p b t0 : Nat) (runs : List Run) (loc : List (Nat × List MadeT)) : State :=
  forList (tribsOf runs) (fun t s =>
    let j := s.tribWidth t - 1
    let k : Option (Nat × Nat) :=
      if s.tribKind t = 1 then
        (chooseCopy j b (t0 + (32 + 4 * slotNaming runs t j) * wordTime b) (s.copiesOf t)).map fun c => (c.1.at_, copyAge s p t c.1 c.2)
      else
        (chooseMade (((loc.find? fun e => e.1 == t).map fun e => e.2).getD []) b (slotMoment s t b t0 runs j)).map fun x =>
          (x.n, madeAge s p t x.n)
    match k with
    | none => s
    | some (id, age) =>
      let k : Carried := { src := 64 * s.tribKind t + s.tribIndex t, id := id, age := age }
      { s with xc.carried := SMap.set (fun _ => ({ src := 0, id := 0, age := 0 } : Carried)) s.xc.carried (256 * p + t) k }) s

/-- The state with the words by which the transmit frames of the local frame in progress are filled (R330, R354): throughout its first cycle
as they stand, and afterwards as they stood at that cycle's end. -/
def State.filled (s : State) : State :=
  if s.inFrame = 0 then s else { s with regs := SMap.overlay resetWord inFill s.regs s.xc.snap }

/-- `f` on the words by which the transmit frames of the local frame in progress are filled. What `f` writes elsewhere
stays.
DEDUCED, unsafe (notes/assumptions/49). -/
def underFrame {α : Type} (f : State → State × α) (s : State) : State × α :=
  if s.inFrame = 0 then f s
  else
    let r := f s.filled
    ({ r.1 with regs := SMap.overlay resetWord inFill r.1.regs s.regs }, r.2)

/-! ### Watchdog (R338, R339) -/

/-- Whether t is watched at all: SRC_KIND neither NONE nor IDLE. -/
def tribWatched (s : State) (t : Nat) : Bool := s.tribKind t != 0 && s.tribKind t != 6

/-- Whether this tick is the one in which t's count reaches its limit. -/
def staleDue (s : State) (t : Nat) : Bool :=
  let limit := s.get F.XC_TRIB_CFG_WD_LIMIT t
  tribWatched s t && limit != 0 && !(s.tribX t).fresh && !s.on F.XC_TRIB_STAT_STALE t &&
    Nat.ble limit ((s.tribX t).staleN + 1)

/-- STALE set (R339). -/
def staleSet (s : State) (t : Nat) : State :=
  ((s.put F.XC_TRIB_STAT_STALE 1 t).raiseBit F.XC_EVENT_STALE_SET).modTrib t fun x => { x with staleN := x.staleN + 1 }

/-- The AGE of a local source's last value at a tick: one more while its source produces none (R336, R353).
DEDUCED, unsafe (notes/assumptions/54). -/
def localAge (s : State) (t : Nat) : State :=
  let kind := s.tribKind t
  if (kind == 2 || kind == 3 || kind == 4) && (s.tribX t).made && !(s.tribX t).fresh then s.bumpSat F.XC_TRIB_STAT_AGE 1 t else s

/-- Every tributary of source kind `kind` and index `ix` has a value produced with AGE 0, and is fresh in this tick (R338, R353). -/
def markFresh (s : State) (kind ix : Nat) : State :=
  forList s.liveTribs (fun t s =>
    if s.tribKind t == kind && s.tribIndex t == ix then
      (s.put F.XC_TRIB_STAT_AGE 0 t).modTrib t fun x => { x with fresh := true, made := true }
    else s) s

/-- The freshness of t judged at a tick. A WD_LIMIT of 0 clears STALE and the count.
DESIGN CHOICE, unsafe (notes/assumptions/105). -/
def staleTick (s : State) (t : Nat) : State :=
  if !tribWatched s t then s
  else
    let x := s.tribX t
    let s := localAge (s.put F.XC_TRIB_STAT_FRESH (b2n x.fresh) t) t
    let s := if s.get F.XC_TRIB_CFG_WD_LIMIT t = 0 then
        (s.put F.XC_TRIB_STAT_STALE 0 t).modTrib t fun x => { x with staleN := 0 }
      else if x.fresh then (s.put F.XC_TRIB_STAT_STALE 0 t).modTrib t fun x => { x with staleN := 0 }
      else if staleDue s t then staleSet s t
      else s.modTrib t fun x => { x with staleN := min (x.staleN + 1) 127 }
    s.modTrib t fun x => { x with fresh := false }

/-! ### The spare slice (Table 9.6) -/

/-- The result of a swap or restore command, if a command asked for it (R352). -/
def sliceResult (s : State) (status : Nat) (data : List Byte) : State :=
  match s.xc.sliceJob with
  | none => s
  | some k => postResult { s with xc.sliceJob := none } k status data

/-- A swap request for slice `n` with FORCE (Table 9.6). -/
def sliceSwapStart (s : State) (n : Nat) (force : Bool) (job : Option JobKind) : State :=
  { ((s.put F.XC_SLICE_STAT_SPARE_STATE 1).put F.XC_SLICE_STAT_TARGET n).put F.XC_SLICE_STAT_ATTEMPTS 0 with
    xc.sliceWas := s.get F.XC_SLICE_STAT, xc.force := force, xc.sliceJob := job, xc.loadFrames := 0, xc.shadowing := false }

/-- A restore request in SERVING. -/
def sliceRestoreStart (s : State) (job : Option JobKind) : State :=
  { (s.put F.XC_SLICE_STAT_SPARE_STATE 4).put F.XC_SLICE_STAT_ATTEMPTS 0 with
    xc.sliceWas := s.get F.XC_SLICE_STAT, xc.sliceJob := job, xc.loadFrames := 0, xc.shadowing := false }

/-- The swap or restore that command `k` asked for is given up: the machine stands as the command found it (R143). -/
def sliceAbandon (s : State) (k : JobKind) : State :=
  if s.xc.sliceJob = some k then
    { s.put F.XC_SLICE_STAT s.xc.sliceWas with xc.sliceJob := none, xc.shadowing := false, xc.shadowDiff := 0, xc.loadFrames := 0 }
  else s

/-- The copy into the slice under test completes: shadowing from the next frame start. -/
def sliceCopied (s : State) : State :=
  match s.get F.XC_SLICE_STAT_SPARE_STATE with
  | 1 => s.put F.XC_SLICE_STAT_SPARE_STATE 2
  | 4 => s.put F.XC_SLICE_STAT_SPARE_STATE 5
  | _ => s

/-- A shadow frame ends: `diff` words differ because a slice is defective, besides those that the serving slice lost to its own parity.
DEDUCED, unsafe (notes/assumptions/56). -/
def shadowEnd (s : State) (diff : Nat) : State :=
  if !s.xc.shadowing then s
  else
    let st := s.get F.XC_SLICE_STAT_SPARE_STATE
    let target := s.get F.XC_SLICE_STAT_TARGET
    let tries := s.get F.XC_SLICE_STAT_ATTEMPTS
    let diff := min (diff + s.xc.shadowDiff) 65535
    let s : State := { s.put F.XC_SLICE_STAT_MISMATCH diff with xc.shadowing := false, xc.shadowDiff := 0 }
    let first := numBytes s.secondNext
    if st = 2 then
      if diff = 0 ∨ s.xc.force then
        let s := ((s.put F.XC_SLICE_STAT_SPARE_STATE 3).put F.XC_SLICE_STAT_FORCED (b2n s.xc.force)).raiseBit F.XC_EVENT_SWAP_DONE
        logPush (sliceResult { s with xc.handover := some (2, true) } St.ok first) 0x12 target 1
      else if tries < 15 then s.put F.XC_SLICE_STAT_ATTEMPTS (tries + 1)
      else
        let s := ((s.put F.XC_SLICE_STAT_SPARE_STATE 0).put F.XC_SLICE_STAT_TARGET 0xF).raiseBit F.XC_EVENT_SWAP_FAIL
        logPush (raise (sliceResult s St.wrongState (toLE 4 diff)) 9 target) 0x12 target 2
    else if st = 5 then
      if diff = 0 then
        let s := (((s.put F.XC_SLICE_STAT_SPARE_STATE 0).put F.XC_SLICE_STAT_FORCED 0).put F.XC_SLICE_STAT_TARGET 0xF).raiseBit
          F.XC_EVENT_RESTORE_DONE
        logPush (sliceResult { s with xc.handover := some (2, false) } St.ok first) 0x13 target 1
      else if tries < 15 then s.put F.XC_SLICE_STAT_ATTEMPTS (tries + 1)
      else
        let s := (s.put F.XC_SLICE_STAT_SPARE_STATE 3).raiseBit F.XC_EVENT_SWAP_FAIL
        logPush (raise (sliceResult s St.wrongState (toLE 4 diff)) 9 target) 0x13 target 2
    else s

/-- The spare slice at a local frame start: a copy takes at most 2 frames, a shadow frame begins, a handover falls due. -/
def sliceFrame (s : State) : State :=
  let st := s.get F.XC_SLICE_STAT_SPARE_STATE
  let s := if st = 1 ∨ st = 4 then
      (if 2 ≤ s.xc.loadFrames + 1 then sliceCopied s else { s with xc.loadFrames := s.xc.loadFrames + 1 })
    else s
  let st := s.get F.XC_SLICE_STAT_SPARE_STATE
  let s := { s with xc.shadowing := st == 2 || st == 5, xc.shadowDiff := 0 }
  match s.xc.handover with
  | some (n + 2, b) => { s with xc.handover := some (n + 1, b) }
  | some (_, true) => { s with xc.handover := none, xc.served := some (s.get F.XC_SLICE_STAT_TARGET) }
  | some (_, false) => { s with xc.handover := none, xc.served := none }
  | none => s

/-! ### Register writes -/

/-- What block XC and its map tables refuse (R325, R327). -/
def judgeXc (_ : State) (a v : Nat) : Nat :=
  if a < 0x38000000 then rangeIf (Nat.blt 4992 (bitsOf v 16 13) || Nat.blt 256 (bitsOf v 0 9))
  else if 0x40051000 ≤ a ∧ a % 16 = 0 then rangeIf (tribBad v)
  else St.ok

/-- A context written: a tributary no longer watched has no watchdog state, and a second tributary that names a queue sets CFG_ERR (R397).
DESIGN CHOICE, unsafe (notes/assumptions/105). -/
def hookTribCfg (t v old : Nat) (s : State) : State :=
  let kind := bitsOf v 27 3
  let s := if kind = 0 ∨ kind = 6 then
      ((s.put F.XC_TRIB_STAT_STALE 0 t).put F.XC_TRIB_STAT_FRESH 0 t).modTrib t fun x => { x with staleN := 0, fresh := false }
    else s
  let s := if kind = 5 && 1 < (s.liveTribs.filter fun n => s.tribKind n == 5 && s.tribIndex n == bitsOf v 21 6).length then
      s.raiseBit F.QM_EVENT_CFG_ERR
    else s
  if bitsOf v 21 9 != bitsOf old 21 9 then s.modTrib t fun x => { x with made := false } else s

/-- What a write in block XC sets off (R353). -/
def hookXc (a v old : Nat) (s : State) : State :=
  if a < 0x38000000 then eccWritten s a
  else if a = 0x40050010 then
    let s := if bitOf v 0 then
        forN 16 (fun p s => (s.put F.XC_RX_SLIP 0 p).put F.XC_TX_SLIP 0 p) s else s
    if bitOf v 1 then s.clearRegs fun a => Nat.ble 0x40051000 a && Nat.blt a 0x40052000 && a % 16 == 8 else s
  else if 0x40051000 ≤ a ∧ a % 16 = 0 then hookTribCfg ((a - 0x40051000) / 16) v old s
  else s

/-! ### Opcodes 0x30–0x34 -/

/-- The check record of a map (R350): the first problem in run order.
DEDUCED, unsafe (notes/assumptions/55). -/
def checkRuns (s : State) (dir p : Nat) (runs : List Run) : List Byte :=
  let limit := slotsPerFrame (s.get F.LP_CTRL_RATE p)
  let problem (r : Run) : Nat :=
    if limit < r.first + r.count then 1
    else if 256 ≤ r.trib then 0
    else if s.tribKind r.trib = 0 then 2
    else if namedBy runs r.trib ≠ s.tribWidth r.trib then 3
    else if dir = 1 ∧ !rxAdmits s p r.trib then 4
    else 0
  match runs.find? (fun r => problem r != 0) with
  | none => List.replicate 8 0
  | some r => toLE 1 (problem r) ++ toLE 2 r.ix ++ toLE 2 r.first ++ toLE 2 r.trib ++ [0]

/-- XC_MAP_CHECK (R348, R350). -/
def bodyXcMapCheck (ps : List Byte) (s : State) : Out :=
  let dir := byteAt ps 0
  let p := byteAt ps 1
  let buf := byteAt ps 2
  if 1 < dir ∨ 15 < p ∨ 1 < buf then refuse s St.badParam
  else .done s St.ok (checkRuns s dir p (plainRuns s p dir buf))

/-- The transmit buffer in use by port p. -/
def activeBuf (s : State) (p : Nat) : Nat := s.get F.XC_TX_SEL_ACTIVE p

/-- The version of a transmit buffer. -/
def txVersion (s : State) (p buf : Nat) : Nat := if buf = 0 then s.get F.XC_TX_SEL_VER_A p else s.get F.XC_TX_SEL_VER_B p

/-- The number of the next frame that port p begins (R330, R351): the local frame in progress, when the port has still to begin a
frame in it by now, and otherwise the next. A loop-timed port is taken to begin its frames where it began the last.
DEDUCED, unsafe (notes/assumptions/49). -/
def nextSent (s : State) (p : Nat) : Nat × Nat :=
  let x := s.portX p
  let at_ := if loopTimed s p then x.txPhase.getD 0 else 0
  if s.inFrame ≤ at_ ∧ x.sentOf ≠ some s.frameTotal then s.frameNum else s.nextFrameNum

/-- XC_MAP_SWAP (R351). -/
def bodyXcMapSwap (ps : List Byte) (s : State) : Out :=
  let p := byteAt ps 0
  if 15 < p then refuse s St.badParam
  else if s.locked 5 then refuseLocked s
  else
    let buf := 1 - activeBuf s p
    let rec_ := checkRuns s 0 p (plainRuns s p 0 buf)
    if rec_.headD 0 != 0 then .done s St.wrongState rec_
    else
      .done (s.put F.XC_TX_SEL_ACTIVE buf p) St.ok (numBytes (nextSent s p) ++ toLE 1 (txVersion s p buf))

/-- The first run of a load that is bad by itself or takes the sum past the limit (R349). -/
def badRun (limit : Nat) : Nat → Nat → List Word → Option (Nat × Word)
  | _, _, [] => none
  | i, sum, w :: ws =>
    let count := bitsOf w.toNat 16 13
    if count = 0 ∨ 4992 < count ∨ 256 < bitsOf w.toNat 0 9 ∨ limit < sum + count then some (i, w)
    else badRun limit (i + 1) (sum + count) ws

/-- The entries of a buffer replaced whole, 0 after the last (R349). -/
def loadRuns (s : State) (base : Nat) (ws : List Word) : State :=
  let cleared := { s.clearRegs (fun a => Nat.ble base a && Nat.blt a (base + 0x1000)) with
    fa.badWords := SMap.restrict (fun a => !(Nat.ble base a && Nat.blt a (base + 0x1000))) s.fa.badWords }
  (ws.foldl (fun (x : Nat × State) w => (x.1 + 4, x.2.setReg x.1 (w &&& 0x1FFF01FF))) (base, cleared)).2

/-- XC_MAP_LOAD (R349), judged in the order of R726. -/
def bodyXcMapLoad (ps : List Byte) (s : State) : Out :=
  let dir := byteAt ps 0
  let p := byteAt ps 1
  let buf := byteAt ps 2
  let ver := byteAt ps 3
  let ws := wordsLE (ps.drop 6)
  if 1 < dir ∨ 15 < p ∨ 1 < buf then refuse s St.badParam
  else if s.locked 5 then refuseLocked s
  else if (dir = 0 ∧ activeBuf s p = buf) ∨
      (dir = 1 ∧ (if buf = 0 then s.on F.XC_RX_SEL_ARM_A p else s.on F.XC_RX_SEL_ARM_B p)) then refuse s St.wrongState
  else
    match badRun (slotsPerFrame (s.get F.LP_CTRL_RATE p)) 0 0 ws with
    | some (i, w) => .done s St.badParam (toLE 2 i ++ toLE 4 w.toNat)
    | none =>
      let s := loadRuns s (mapAddr p dir buf 0) ws
      .done (match dir, buf with
        | 0, 0 => s.put F.XC_TX_SEL_VER_A ver p
        | 0, _ => s.put F.XC_TX_SEL_VER_B ver p
        | _, 0 => s.put F.XC_RX_SEL_VER_A ver p
        | _, _ => s.put F.XC_RX_SEL_VER_B ver p) St.ok []

/-- XC_SLICE_SWAP (R352): the command ends when the spare machine leaves LOADING or SHADOW. -/
def bodyXcSliceSwap (k : JobKind) (ps : List Byte) (s : State) : Out :=
  if 7 < byteAt ps 0 ∨ 1 < byteAt ps 1 then refuse s St.badParam
  else if s.locked 5 then refuseLocked s
  else if s.get F.XC_SLICE_STAT_SPARE_STATE ≠ 0 then refuse s St.wrongState
  else .wait (sliceSwapStart s (byteAt ps 0) (byteAt ps 1 == 1) (some k))

/-- XC_SLICE_RESTORE (R352). -/
def bodyXcSliceRestore (k : JobKind) (_ : List Byte) (s : State) : Out :=
  if s.locked 5 then refuseLocked s
  else if s.get F.XC_SLICE_STAT_SPARE_STATE ≠ 3 then refuse s St.wrongState
  else .wait (sliceRestoreStart s (some k))

/-! ### The commands -/

/-- STALE_SET (R339): a tick in which the count of t reaches its limit. -/
def execStaleSet (t : Byte) (s : State) : Host.Outcome State Fault Refusal :=
  act s (if staleDue s t.toNat then staleSet s t.toNat else s)

/-- SLIP_CLR (R353): XC_CMD bit 0. -/
def execSlipClr (s : State) : Host.Outcome State Fault Refusal :=
  act s (writeBy judgeXc hookXc s (F.XC_CMD.addr) 1)

/-- CRC_CLR (R353): XC_CMD bit 1. -/
def execCrcClr (s : State) : Host.Outcome State Fault Refusal :=
  act s (writeBy judgeXc hookXc s (F.XC_CMD.addr) 2)

/-- SLICE_COPY_COMPLETE (R346). -/
def execSliceCopyComplete (s : State) : Host.Outcome State Fault Refusal := act s (sliceCopied s)

/-- SHADOW_FRAME_END (R346): the shadow frame in progress ends; `diff` words of the slice under test differed. -/
def execShadowFrameEnd (diff : Nat) (s : State) : Host.Outcome State Fault Refusal := act s (shadowEnd s diff)

end Sys2Proof.Machine
end

