-- ==== Sys2Proof/Machine/Gr.lean ====
section
/-!
DEFINITION. Machine/Gr.lean: gearing channels and scaling recipes (chapter 10).
-/
namespace Sys2Proof.Machine

/-! ### Inputs (R366, R375) -/

/-- How many 32-bit values an ISO tributary carries (R324). -/
def isoValues (s : State) (t : Nat) : Nat := 2 * s.tribWidth t - b2n (s.tribCrc t)

/-- Whether value `val` of tributary t is admissible to a channel that may chain from channels below `below` (R366). -/
def inputAdmissible (s : State) (t val below : Nat) : Bool :=
  s.tribType t == 0 && Nat.blt val (isoValues s t) &&
  (s.tribKind t == 1 || (s.tribKind t == 2 && Nat.blt (s.tribIndex t) below))

/-- An input: its value, and the moment at which it is at the slice. -/
structure Input where
  value : Nat
  base : Nat
  deriving DecidableEq, Repr

/-- The 32-bit value k among tributary words (R35). -/
def valueAt (ws : List LineWord) (k : Nat) : Nat := wordAt ws (2 * k) * 2 ^ 16 + wordAt ws (2 * k + 1)

/-- A received copy as an input of value `val` of t: usable with a good CRC and AGE 0 (R338, R366, R396). It is at the slice once its value,
and its check word where it has one, are.
DEDUCED, unsafe (notes/assumptions/60). -/
def copyInput (s : State) (t val : Nat) (c : CopyT) : Option Input :=
  let j := if s.tribCrc t then s.tribWidth t - 1 else val / 2
  match c.slotJ (val / 2), c.slotJ j with
  | some (_, ws), some (m, _) =>
    if c.crcOk && c.age == 0 then
      some { value := valueAt ws (val % 2), base := c.at_ + (32 + 4 * m) * wordTime c.rate + (rxLatency c.rate + 8) * 100 }
    else none
  | _, _ => none

/-- The usable copies of value `val` of an admissible tributary that are known, newest first (R366).
DEDUCED, unsafe (notes/assumptions/60). -/
def usableInputs (s : State) (t val : Nat) : List Input :=
  if s.tribKind t = 1 then (s.copiesOf t).filterMap fun c => copyInput s t val c
  else (s.gearX (s.tribIndex t)).outs.map fun x => { value := valueAt x.words val, base := x.base }

/-- The inputs that come in the local frame in progress before `upto` FCLK of it and after the last one consumed in it (`seen`), oldest
first.
DEDUCED, unsafe (notes/assumptions/60). -/
def inputsDue (s : State) (seen upto : Nat) (l : List Input) : List Input :=
  (l.filter fun i => timeLe (if seen = 0 then s.timeAt 0 else seen) i.base && timeLe (i.base + 1) (s.timeAt upto)).reverse

/-! ### Gearing channels (R368–R374, Table 10.1) -/

/-- The state words of channel g (Table 10.6). -/
def gearWord (s : State) (g i : Nat) : Nat := s.get F.GR_STATE g i
def putGear (s : State) (g i v : Nat) : State := eccWritten (s.put F.GR_STATE v g i) (F.GR_STATE.addr g i)

/-- OFF, CAPTURE and RUN (Table 10.5). -/
def gearState (s : State) (g : Nat) : Nat := s.get F.GR_G_STAT_STATE g

/-- The step count, and VEL_SAT and SLEWING, as value 2 of the output (R372). -/
def gearStatus (s : State) (g : Nat) : Nat :=
  s.get F.GR_G_STAT_VEL_SAT g + 2 * s.get F.GR_G_STAT_SLEWING g + gearWord s g 6 % 256 * 2 ^ 8

/-- E and V produced: the output tributaries carry them from 6 FCLK later (R341, R368, R372). -/
def gearEmit (s : State) (g : Nat) (e v base : Nat) : State :=
  let s := (putGear (putGear s g 4 e) g 5 v).put F.GR_G_STAT_AGE 0 g
  let velEn := s.snap F.GR_G_CFG_VEL_EN g
  let word (n : Nat) : List LineWord := [BitVec.ofNat 16 (n / 2 ^ 16), BitVec.ofNat 16 n]
  let st := gearStatus s g
  let s := s.modGear g fun x => { x with
    made := x.made + 1
    outs := ({ base := base + 600, n := x.made + 1,
               words := word e ++ word (if velEn = 1 then v else 0) ++ word st ++ word 0 } :: x.outs).take copiesKept }
  markFresh s 2 g

/-- A usable copy in CAPTURE (Table 10.1). SLEWING shows whether φ differs from the target after the capture, too.
DESIGN CHOICE, unsafe (notes/assumptions/105). -/
def gearCapture (s : State) (g a base : Nat) : State :=
  let load := (s.gearX g).load
  let s := putGear (putGear s g 0 a) g 2 0
  let s := if load then putGear (putGear s g 1 (s.snap F.GR_G_PRESET g)) g 3 (s.snap F.GR_G_OFS g) else s
  let s := (s.put F.GR_G_STAT_STATE 2 g).put F.GR_G_STAT_VEL_SAT 0 g
  let s := s.put F.GR_G_STAT_SLEWING (b2n (gearWord s g 3 != s.snap F.GR_G_OFS g)) g
  let s := s.modGear g fun x => { x with load := false, ratio := none }
  gearEmit s g ((gearWord s g 1 + gearWord s g 3) % 2 ^ 32) 0 base

/-- The signed move of the offset toward its target (R369). -/
def offsetMove (phi target slew : Nat) : Int :=
  let d := toSigned 32 (target + 2 ^ 32 - phi)
  if slew = 0 then d else clampInt (-(slew : Int)) (slew : Int) d

/-- One step (R368, R370, R374). -/
def gearRun (s : State) (g a base : Nat) : State :=
  let num := s.snap F.GR_G_NUM g
  let den := s.snap F.GR_G_DEN g
  let kept : Bool := match (s.gearX g).ratio with
    | none => true
    | some r => r == (num, den)
  let r0 := if kept then gearWord s g 2 else 0
  let d := toSigned 32 (a + 2 ^ 32 - gearWord s g 0)
  let p := d * toSigned 32 num + (r0 : Int)
  let q := p / (den : Int)
  let r := p % (den : Int)
  let dphi := offsetMove (gearWord s g 3) (s.snap F.GR_G_OFS g) (s.snap F.GR_G_SLEW g)
  let phi := ofSigned 32 ((gearWord s g 3 : Int) + dphi)
  let o := ofSigned 32 ((gearWord s g 1 : Int) + q)
  let vel := q + dphi
  let sat := decide (vel < -2147483648 ∨ 2147483647 < vel)
  let s := putGear (putGear (putGear (putGear s g 0 a) g 1 o) g 2 r.toNat) g 3 phi
  let s := putGear s g 6 (gearWord s g 6 + 1)
  let s := (s.put F.GR_G_STAT_VEL_SAT (b2n sat) g).put F.GR_G_STAT_SLEWING (b2n (phi != s.snap F.GR_G_OFS g)) g
  let s := if sat then s.raiseBit F.GR_EVENT_VEL_SAT else s
  let s := s.modGear g fun x => { x with ratio := some (num, den) }
  gearEmit s g ((o + phi) % 2 ^ 32) (ofSigned 32 (clampInt (-2147483648) 2147483647 vel)) base

/-- The channel's own words checked; an uncorrectable one sends it to CAPTURE with LOAD 0, and a bad o or φ is replaced
(Table 18.2). The Bool says that the step may be made. -/
def gearCheck (s : State) (g : Nat) : State × Bool :=
  let c0 := eccCheck s (F.GR_STATE.addr g 0)
  let c1 := eccCheck c0.1 (F.GR_STATE.addr g 2)
  if c0.2 = 2 ∨ c1.2 = 2 then
    let s := c1.1
    let s := if c0.2 = 2 then putGear s g 1 (s.snap F.GR_G_PRESET g) else s
    let s := if c1.2 = 2 then putGear s g 3 (s.snap F.GR_G_OFS g) else s
    ((s.put F.GR_G_STAT_STATE 1 g).modGear g fun x => { x with load := false }, false)
  else (c1.1, true)

/-- The input of channel g is admissible (R366). -/
def gearAdmissible (s : State) (g : Nat) : Bool :=
  inputAdmissible s (s.snap F.GR_G_CFG_IN_TRIB g) (s.snap F.GR_G_CFG_IN_VAL g) g

/-- IN_ERR of channel g as its input stands (R366): a channel that is OFF, which takes no step whatever its input, shows 0 and raises nothing.
DESIGN CHOICE, unsafe (notes/assumptions/105). -/
def gearInErr (s : State) (g : Nat) : State :=
  if gearState s g = 0 then s.put F.GR_G_STAT_IN_ERR 0 g
  else if gearAdmissible s g then s.put F.GR_G_STAT_IN_ERR 0 g
  else (s.put F.GR_G_STAT_IN_ERR 1 g).raiseBit F.GR_EVENT_IN_ERR

/-- The inputs that channel g has not consumed yet, up to `upto` FCLK of the local frame in progress, oldest first. -/
def gearInputs (s : State) (g upto : Nat) : List Input :=
  if gearState s g = 0 ∨ !gearAdmissible s g then []
  else inputsDue s (s.gearX g).seen upto (usableInputs s (s.snap F.GR_G_CFG_IN_TRIB g) (s.snap F.GR_G_CFG_IN_VAL g))

/-- Channel g takes a usable copy: it captures or steps (Table 10.1). -/
def gearTake (s : State) (g : Nat) (i : Input) : State :=
  let s := s.modGear g fun x => { x with seen := i.base + 1, used := true }
  let c := gearCheck s g
  if !c.2 then c.1
  else if gearState c.1 g = 1 then gearCapture c.1 g i.value i.base
  else gearRun (c.1.put F.GR_G_STAT_GAP 0 g) g i.value i.base

/-- Channel g takes the next of its usable copies, if one is due in the local frame in progress. -/
def gearStepNow (s : State) (g : Nat) : State :=
  let s := gearInErr s g
  match gearInputs s g frameCycles with
  | [] => s
  | i :: _ => gearTake s g i

/-- Channel g takes every usable copy up to `upto` FCLK of the local frame in progress (R368, R391). -/
def gearStepsDue (s : State) (g upto : Nat) : State :=
  forList (gearInputs s g upto) (fun i s => gearTake s g i) (gearInErr s g)

/-- Whether this tick takes channel g back to CAPTURE (Table 10.1). -/
def gapDue (s : State) (g : Nat) : Bool :=
  let limit := s.get F.GR_G_CFG_GAP_LIMIT g
  gearState s g == 2 && !(s.gearX g).used && limit != 0 && s.get F.GR_G_STAT_GAP g + 1 == limit

/-- GAP_LIMIT ticks without a usable copy: CAPTURE (Table 10.1). LOAD stays as it is: 0 since the last capture. -/
def gapRecapture (s : State) (g : Nat) : State :=
  ((s.put F.GR_G_STAT_STATE 1 g).put F.GR_G_STAT_GAP 0 g).raiseBit F.GR_EVENT_RECAPTURED

/-- Channel g at a tick. -/
def gearTick (s : State) (g : Nat) : State :=
  let s := gearInErr s g
  let s := if gapDue s g then gapRecapture s g
    else if gearState s g == 2 && !(s.gearX g).used then s.bumpSat F.GR_G_STAT_GAP 1 g
    else s
  let s := if gearState s g = 0 then s else s.bumpSat F.GR_G_STAT_AGE 1 g
  s.modGear g fun x => { x with used := false, seen := 0 }

/-- EN found 1 in OFF (Table 10.1). -/
def gearOn (s : State) (g : Nat) : State :=
  ((s.put F.GR_G_STAT_STATE 1 g).put F.GR_G_STAT_GAP 0 g).modGear g fun x => { x with load := true, outs := [] }

/-- EN found 0 (Table 10.1).
DESIGN CHOICE, unsafe (notes/assumptions/105). -/
def gearOff (s : State) (g : Nat) : State :=
  ((s.put F.GR_G_STAT_STATE 0 g).put F.GR_G_STAT_IN_ERR 0 g).modGear g fun x => { x with outs := [], used := false }

/-- Channel g follows its EN (R373, Table 10.1). -/
def gearFollow (s : State) (g : Nat) : State :=
  if s.on F.GR_G_CFG_EN g then (if gearState s g = 0 then gearOn s g else s)
  else if gearState s g = 0 then s else gearOff s g

/-! ### Recipes (R375–R380, Tables 10.2 and 10.3) -/

/-- Flags bits of Table 10.3. -/
def flagSat : Nat := 1
def flagDz : Nat := 2
def flagClamp : Nat := 4
def flagLut : Nat := 8

/-- sat(v) of R378 with its flag. -/
def satV (v : Int) : Int × Nat :=
  if 2147483647 < v then (2147483647, flagSat) else if v < -2147483648 then (-2147483648, flagSat) else (v, 0)

/-- round(v / 2^Q) of R378. -/
def roundQ (v : Int) (q : Nat) : Int :=
  if q = 0 then v else (v + ((2 ^ (q - 1) : Nat) : Int)) / ((2 ^ q : Nat) : Int)

/-- The result of a division by 0 (Table 10.3). -/
def divZero (dividend : Int) : Int × Nat :=
  (if 0 < dividend then 2147483647 else if dividend < 0 then -2147483648 else 0, flagDz)

/-- One operation of Table 10.2 on a; `lut` applies a Spline table. -/
def recipeOp (lut : Nat → Int → Option (Int × Bool)) (op q n : Nat) (k1 k2 a : Int) : Int × Nat :=
  match op with
  | 0x01 => satV (a + k1)
  | 0x02 => satV (a - k1)
  | 0x03 => satV (roundQ (a * k1) q)
  | 0x04 => if k1 = 0 then divZero a else satV (Int.tdiv (a * ((2 ^ q : Nat) : Int)) k1)
  | 0x05 => if a = 0 then divZero k1 else satV (Int.tdiv (k1 * ((2 ^ q : Nat) : Int)) a)
  | 0x06 => satV (-a)
  | 0x07 => (toSigned 32 (ofSigned 32 a * 2 ^ n), 0)
  | 0x08 => satV (a * ((2 ^ n : Nat) : Int))
  | 0x09 => (toSigned 32 (ofSigned 32 a / 2 ^ n), 0)
  | 0x0A => (a / ((2 ^ n : Nat) : Int), 0)
  | 0x0B =>
    let hi : Int := ((2 ^ (n - 1) : Nat) : Int) - 1
    let lo : Int := -((2 ^ (n - 1) : Nat) : Int)
    if hi < a then (hi, flagSat) else if a < lo then (lo, flagSat) else (a, 0)
  | 0x0C =>
    let r := min (max a k1) k2
    (r, if r = a then 0 else flagClamp)
  | 0x0D =>
    match lut n a with
    | none => (a, flagLut)
    | some (y, out) => let v := satV y; (v.1, v.2 ||| (if out then flagClamp else 0))
  | _ => (a, 0)

/-- A step of a recipe: its words. -/
structure Step where
  w0 : Nat
  k1 : Nat
  k2 : Nat
  deriving DecidableEq, Repr

/-- The first COUNT steps of recipe x, read through `look`. -/
def recipeSteps (look : Field → Nat → Nat → Nat) (x : Nat) : List Step :=
  (List.range (min (look F.GR_R_CFG_COUNT x 0) 8)).map fun j =>
    { w0 := look F.GR_STEP x (4 * j), k1 := look F.GR_STEP x (4 * j + 1), k2 := look F.GR_STEP x (4 * j + 2) }

/-- The steps run in order on a (R377); the flags of all of them together (R379). -/
def runSteps (lut : Nat → Int → Option (Int × Bool)) : List Step → Int → Nat → Int × Nat
  | [], a, fl => (a, fl)
  | st :: rest, a, fl =>
    let r := recipeOp lut (bitsOf st.w0 24 8) (bitsOf st.w0 8 5) (bitsOf st.w0 0 8) (toSigned 32 st.k1) (toSigned 32 st.k2) a
    runSteps lut rest r.1 (fl ||| r.2)

/-- Latency of an operation (Table 10.2). -/
def opLatency (op : Nat) : Nat :=
  match op with
  | 0x03 => 3
  | 0x04 | 0x05 => 10
  | 0x0D => 5
  | _ => 1

/-- L_x of R380. -/
def stepsLatency (sts : List Step) : Nat := sts.foldl (fun n st => n + opLatency (bitsOf st.w0 24 8)) 2

/-- L_x of recipe x as its words stand (GR_R_STAT[x].LATENCY). -/
def recipeLatency (s : State) (x : Nat) : Nat := stepsLatency (recipeSteps (fun f i j => s.get f i j) x)

/-- Recipe x is on: EN = 1 and an input kind. -/
def recipeOn (s : State) (x : Nat) : Bool := s.snap F.GR_R_CFG_EN x == 1 && s.snap F.GR_R_CFG_IN_KIND x != 0

/-- The input of recipe x is admissible (R375). -/
def recipeAdmissible (s : State) (x : Nat) : Bool :=
  match s.snap F.GR_R_CFG_IN_KIND x with
  | 1 => inputAdmissible s (s.snap F.GR_R_CFG_IN_INDEX x) (s.snap F.GR_R_CFG_IN_VAL x) 64
  | 2 => Nat.blt (s.snap F.GR_R_CFG_IN_INDEX x) 8
  | _ => false

/-- The inputs that recipe x has not evaluated yet, up to `upto` FCLK of the local frame in progress, oldest first, each with the sample that it
is: usable copies, or the samples first carried in this frame (R37, R375).
DEDUCED, unsafe (notes/assumptions/60). -/
def recipeInputs (s : State) (x upto : Nat) : List (Input × Option MadeT) :=
  if !recipeOn s x || !recipeAdmissible s x then []
  else
    let f := s.snap F.GR_R_CFG_IN_INDEX x
    if s.snap F.GR_R_CFG_IN_KIND x = 1 then
      (inputsDue s (s.recipeX x).seen upto (usableInputs s f (s.snap F.GR_R_CFG_IN_VAL x))).map fun i => (i, none)
    else
      let first (m : MadeT) : Input := { value := valueAt m.sample 0, base := (m.base + 2500) % timeTurn }
      let samples := ((s.feX f).out0.toList ++ (s.feX f).out1.toList).filter fun m =>
        !(inputsDue s (s.recipeX x).seen upto [first m]).isEmpty
      samples.reverse.map fun m => (first m, some m)

/-- The step words of recipe x checked: false when one is uncorrectable (Table 18.2). -/
def recipeCheck (s : State) (x : Nat) : State × Bool :=
  (List.range (2 * min (s.snap F.GR_R_CFG_COUNT x) 8)).foldl (fun (r : State × Bool) i =>
    let c := eccCheck r.1 (F.GR_STEP.addr x (2 * i))
    (c.1, r.2 && c.2 != 2)) (s, true)

/-- The input error of recipe x (R375). -/
def recipeInErr (s : State) (x : Nat) : State :=
  if recipeOn s x && !recipeAdmissible s x then
    (s.raiseBit F.GR_R_FLAGS_IN_ERR x).raiseBit F.GR_EVENT_RCP_IN_ERR
  else s

/-- Recipe x evaluates an input (R375–R379). A received value's result is ready L_x later (R380); a sample's goes out from the frame
that first carries the sample (R37).
DEDUCED, unsafe (notes/assumptions/60). -/
def recipeTake (s : State) (x : Nat) (i : Input × Option MadeT) : State :=
  let c := recipeCheck (s.modRecipe x fun r => { r with seen := i.1.base + 1 }) x
  if !c.2 then c.1
  else
    let s := c.1
    let sts := recipeSteps (fun f i j => s.snap f i j) x
    let r := runSteps (splineNow s) sts (toSigned 32 i.1.value) 0
    let res := ofSigned 32 r.1
    let s := ((s.put F.GR_R_STAT_FLAGS r.2 x).put F.GR_R_STAT_AGE 0 x).put F.GR_R_OUT res x
    let s := s.put F.GR_R_FLAGS (s.get F.GR_R_FLAGS x ||| r.2) x
    let s := s.put F.GR_EVENT (s.get F.GR_EVENT ||| r.2 * 2 ^ 3)
    let hi : LineWord := BitVec.ofNat 16 (res / 2 ^ 16)
    let lo : LineWord := BitVec.ofNat 16 res
    let out : MadeT := match i.2 with
      | some m => { base := m.base, n := 0, words := [hi, lo, 0, BitVec.ofNat 16 r.2], sample := [hi, lo] ++ m.sample.drop 2 }
      | none => { base := i.1.base + stepsLatency sts * 100, n := 0, words := [hi, lo, 0, BitVec.ofNat 16 r.2] }
    let s := s.modRecipe x fun o => { o with
      made := o.made + 1, outs := ({ out with n := o.made + 1 } :: o.outs).take copiesKept }
    markFresh s 3 x

/-- Recipe x evaluates the next of its usable inputs, if one is due in the local frame in progress. -/
def recipeNow (s : State) (x : Nat) : State :=
  let s := recipeInErr s x
  match recipeInputs s x frameCycles with
  | [] => s
  | i :: _ => recipeTake s x i

/-- Recipe x evaluates every usable input up to `upto` FCLK of the local frame in progress (R375, R391). -/
def recipesDue (s : State) (x upto : Nat) : State :=
  forList (recipeInputs s x upto) (fun i s => recipeTake s x i) (recipeInErr s x)

/-- Recipe x follows its EN and IN_KIND: off, it has no values (R373, R376). -/
def recipeFollow (s : State) (x : Nat) : State :=
  if s.on F.GR_R_CFG_EN x && s.get F.GR_R_CFG_IN_KIND x != 0 then s else s.modRecipe x fun r => { r with outs := [] }

/-- A SAMPLE tributary t sourced by a recipe whose input is no front-end channel has no layout to carry (R376). -/
def recipeTribErr (s : State) (t : Nat) : State :=
  let x := s.tribIndex t
  if s.tribKind t == 3 && s.tribType t == 1 && s.snap F.GR_R_CFG_IN_KIND x != 2 then
    (s.raiseBit F.GR_R_FLAGS_IN_ERR x).raiseBit F.GR_EVENT_RCP_IN_ERR
  else s

/-- Recipe x at a tick: the frames since its last result. -/
def recipeTick (s : State) (x : Nat) : State :=
  ((recipeInErr s x).modRecipe x fun r => { r with seen := 0 }).bumpSat F.GR_R_STAT_AGE 1 x

/-- The values a tributary sourced by a channel or a recipe may carry, newest first (R372, R376). -/
def grMades (s : State) (t : Nat) : List MadeT :=
  let x := s.tribIndex t
  if s.tribKind t = 2 then (s.gearX x).outs
  else if s.tribType t = 1 then
    (if s.snap F.GR_R_CFG_IN_KIND x = 2 then (s.recipeX x).outs.filter fun m => !m.sample.isEmpty else [])
  else (s.recipeX x).outs

/-! ### What is due -/

/-- Channels and recipes whose configuration is not at its reset word, in increasing order. -/
def liveGears (s : State) : List Nat :=
  s.grWords.filterMap fun e =>
    if 0x40060100 ≤ e.1 ∧ e.1 < 0x40060900 ∧ e.1 % 32 = 0 then some ((e.1 - 0x40060100) / 32) else none

def liveRecipes (s : State) : List Nat :=
  s.grWords.filterMap fun e =>
    if 0x40061000 ≤ e.1 ∧ e.1 < 0x40061400 ∧ e.1 % 16 = 0 then some ((e.1 - 0x40061000) / 16) else none

/-- Every step and evaluation whose input comes up to `upto` FCLK of the local frame in progress and that no command has carried out yet: lower
channels first, since a channel may take its input from them. -/
def grDue (s : State) (upto : Nat) : State :=
  let s := forList (liveGears s) (fun g s => gearStepsDue s g upto) s
  forList (liveRecipes s) (fun x s => recipesDue s x upto) s

/-- Every channel and recipe follows what its configuration has become, at a local frame start (R373). -/
def grFollow (s : State) : State :=
  forN 64 (fun g s => recipeFollow (gearFollow s g) g) s

/-- Block GR at a tick. -/
def grTick (s : State) : State :=
  let s := forList (liveGears s) (fun g s => gearTick s g) s
  let s := forList (liveRecipes s) (fun x s => recipeTick s x) s
  forList s.liveTribs (fun t s => recipeTribErr s t) s

/-! ### Register writes -/

/-- Whether R381 refuses a step word 0. -/
def stepBad (w : Nat) : Bool :=
  let op := bitsOf w 24 8
  let n := bitsOf w 0 8
  Nat.blt 0x0D op || (op == 0x0B && (n == 0 || Nat.blt 32 n)) || (op == 0x0D && Nat.blt 15 n)

/-- What block GR and its memory refuse (R367, R381). -/
def judgeGr (_ : State) (a v : Nat) : Nat :=
  if a < 0x3C000000 then rangeIf (a % 16 == 0 && a < 0x38002000 && stepBad v)
  else if 0x40060100 ≤ a ∧ a < 0x40060900 ∧ a % 32 = 8 then (if v = 0 then St.badParam else St.ok)
  else if 0x40061000 ≤ a ∧ a < 0x40061400 ∧ a % 16 = 0 then rangeIf (Nat.blt 8 (bitsOf v 24 4) || bitsOf v 20 2 == 3)
  else St.ok

/-- What a write in block GR sets off (Table 10.1). EN and IN_KIND act with the local frame that first takes the word (R373): at once in a frame's
first cycle, and otherwise at the next local frame start.
DEDUCED, unsafe (notes/assumptions/60). DEDUCED, unsafe (notes/assumptions/111). -/
def hookGr (a v _old : Nat) (s : State) : State :=
  if a < 0x3C000000 then eccWritten s a
  else if 0x40060100 ≤ a ∧ a < 0x40060900 then
    let g := (a - 0x40060100) / 32
    if a % 32 = 0 then (if s.inFrame = 0 then gearFollow s g else s)
    else if a % 32 = 0x1C then
      (if bitOf v 0 && gearState s g != 0 then
        (s.put F.GR_G_STAT_STATE 1 g).modGear g fun x => { x with load := bitOf v 1 } else s)
    else s
  else if 0x40061000 ≤ a ∧ a < 0x40061400 ∧ a % 16 = 0 then
    (if s.inFrame = 0 then recipeFollow s ((a - 0x40061000) / 16) else s)
  else s

/-- A write of a register of block GR. -/
def writeGr (s : State) (f : Field) (i v : Nat) : State := writeBy judgeGr hookGr s (f.addr i) v

/-! ### Opcodes 0x38 and 0x39 -/

/-- The steps of a load, four words each. -/
def stepWords : List Word → List (List Word)
  | a :: b :: c :: d :: rest => [a, b, c, d] :: stepWords rest
  | _ => []

/-- GR_RECIPE_LOAD (R383). -/
def bodyGrRecipeLoad (ps : List Byte) (s : State) : Out :=
  let x := byteAt ps 0
  let n := byteAt ps 1
  let sts := stepWords (wordsLE (ps.drop 2))
  if 63 < x ∨ 8 < n then refuse s St.badParam
  else if s.locked 6 then refuseLocked s
  else
    match sts.findIdx? (fun st => stepBad (st.headD 0).toNat) with
    | some i => .done s St.badParam (toLE 2 i ++ toLE 4 (((sts.getD i []).headD 0).toNat))
    | none =>
      let ws := sts.flatMap fun st => st
      let s := forN 32 (fun i s => eccWritten (storeWord s (F.GR_STEP.addr x i) (ws.getD i 0).toNat) (F.GR_STEP.addr x i)) s
      let s := s.put F.GR_R_CFG_COUNT n x
      .done s St.ok (toLE 1 (recipeLatency s x))

/-- GR_RECIPE_TEST (R384). -/
def bodyGrRecipeTest (ps : List Byte) (s : State) : Out :=
  let x := byteAt ps 0
  if 63 < x then refuse s St.badParam
  else
    let r := runSteps (splineNow s) (recipeSteps (fun f i j => s.get f i j) x) (toSigned 32 (leAt ps 1 4)) 0
    .done s St.ok (toLE 4 (ofSigned 32 r.1) ++ toLE 1 r.2)

/-! ### The commands -/

/-- GEAR_EN_WRITE (R372): EN of GR_G_CFG[g] written. -/
def execGearEnWrite (g : Fin 64) (en : Bool) (s : State) : Host.Outcome State Fault Refusal :=
  act s (writeGr s F.GR_G_CFG g (insertBits (s.get F.GR_G_CFG g) 31 1 (b2n en)))

/-- GEAR_STEP (R368). -/
def execGearStep (g : Fin 64) (s : State) : Host.Outcome State Fault Refusal := act s (gearStepNow s g)

/-- GAP_RECAPTURE (R372). -/
def execGapRecapture (g : Fin 64) (s : State) : Host.Outcome State Fault Refusal :=
  act s (if gapDue s g then gapRecapture s g else s)

/-- RECAPTURE (R372): GR_G_CMD[g] written with RECAPTURE and MODE. -/
def execRecapture (g : Fin 64) (mode : Bool) (s : State) : Host.Outcome State Fault Refusal :=
  act s (writeGr s F.GR_G_CMD g (1 + 2 * b2n mode))

/-- RECIPE_EVALUATE (R375). -/
def execRecipeEvaluate (x : Fin 64) (s : State) : Host.Outcome State Fault Refusal := act s (recipeNow s x)

end Sys2Proof.Machine
end

