-- ==== Sys2Proof/Machine/Fe.lean ====
section
/-!
DEFINITION. Machine/Fe.lean: the sensor front end (chapter 16): windows and excitation on the frame grid, samples,
clamps, impedance checks and Spline tables.
-/
namespace Sys2Proof.Machine

/-! ### Schedule (R591) -/

def feOn (s : State) (f : Nat) : Bool := s.on F.FE_CFG_EN f
def fePeriod (s : State) (f : Nat) : Nat := s.get F.FE_CFG_PERIOD f
def feConv (s : State) (f : Nat) : Nat := s.get F.FE_EXC_CONV f

/-- The mode drives excitation (R593). -/
def feExcites (s : State) (f : Nat) : Bool :=
  let m := s.get F.FE_CFG_MODE f
  Nat.ble 1 m && Nat.ble m 5

/-- The frames of excitation before a window. -/
def feLead (s : State) (f : Nat) : Nat := if feExcites s f then s.get F.FE_EXC_LEAD f else 0

/-- Excitation stays on between windows (R591). -/
def feAlways (s : State) (f : Nat) : Bool :=
  feExcites s f && (s.on F.FE_EXC_CONT f || Nat.ble (fePeriod s f) (s.get F.FE_EXC_LEAD f + feConv s f))

/-- Frames since the last frame start at which a window ends, 0 in the frame that begins there. -/
def feAge (s : State) (f : Nat) : Nat :=
  let n := s.get F.LF_NOW_S * framesPerSec + s.get F.LF_NOW_F
  (n + fePeriod s f - s.get F.FE_CFG_PHASE f % fePeriod s f) % fePeriod s f

/-- The ages at which the window, and the window with its excitation, begin. -/
def feWindowAge (s : State) (f : Nat) : Nat := fePeriod s f - feConv s f
def feStartAge (s : State) (f : Nat) : Nat := fePeriod s f - (feConv s f + feLead s f)

/-- The present settings stood over the last `n` whole frames before the frame in progress (R595, R612). -/
def feStood (s : State) (f n : Nat) : Bool := Nat.ble (n + 2) (s.feX f).stood

/-- The window or its excitation is in progress, and belongs wholly to the present settings. -/
def feInProgress (s : State) (f : Nat) : Bool :=
  feOn s f && Nat.ble (feStartAge s f) (feAge s f) && feStood s f (feAge s f - feStartAge s f)

/-- A window that the settings place wholly ends at the start of the frame in progress (R591, R595). -/
def feWindowEnds (s : State) (f : Nat) : Bool :=
  feOn s f && feAge s f == 0 && feStood s f (feConv s f + feLead s f)

/-- An impedance check has begun and has not lasted its frames (R602). -/
def feChecking (s : State) (f : Nat) : Bool :=
  match (s.feX f).chk with
  | some (_, e) => seqLater e s.frameTotal
  | none => false

/-- Excitation is due in the frame in progress. -/
def feExcDue (s : State) (f : Nat) : Bool :=
  feOn s f && feExcites s f && !feChecking s f && (if feAlways s f then feStood s f 0 else feInProgress s f)

/-- The second half of a window is in progress (R588). -/
def feSecondHalf (s : State) (f : Nat) : Bool :=
  (s.feX f).inWindow && Nat.ble (feWindowAge s f + feConv s f / 2) (feAge s f)

/-! ### Pins (R586–R588, R593) -/

/-- How a pin of a channel is wired: high impedance; driven by source A or B with a current in µA; a sink; held at a voltage
in mV above the return; the return at AGND_FE; sensed; measured; measured and biased to 1.25 V. -/
inductive FeWire where
  | hiZ | sourceA (uA : Nat) | sourceB (uA : Nat) | sink | hold (mV : Nat) | ground | sense | signal | biased
  deriving DecidableEq, Repr

/-- Table 16.1, with the exchange of MODE 2 and the reversal of MODE 3 in the second half of a window (R588): what a mode
makes of a pin while excitation is `on`. -/
def modeWire (mode uA mV : Nat) (on second : Bool) (pin : Sig) : FeWire :=
  match pin with
  | .exc _ n =>
    if !on then .hiZ
    else
      match mode with
      | 1 => if n then .sink else .sourceA uA
      | 2 => if n == second then .sourceA uA else .sourceB uA
      | 3 => if n == second then .sourceA uA else .sink
      | 4 | 5 => if n then .ground else .hold mV
      | _ => .hiZ
  | .sns _ _ => if mode = 3 ∨ mode = 5 then .sense else .hiZ
  | .inp _ n =>
    match mode with
    | 0 | 4 | 5 => .signal
    | 2 => if n && on then .sink else .hiZ
    | 6 => if n then .biased else .signal
    | _ => .hiZ
  | _ => .hiZ

/-- The wiring of a pin of channel f (R586, R587). -/
def feWire (s : State) (f : Nat) (pin : Sig) : FeWire :=
  if feOn s f then
    modeWire (s.get F.FE_CFG_MODE f) (s.get F.FE_EXC_IEXC f) (if s.on F.FE_EXC_VOLT f then 5000 else 2500)
      (s.on F.FE_STAT_EXC_ON f) (feSecondHalf s f) pin
  else .hiZ

/-- The six pins of channel f. -/
def fePins (f : Nat) : List Sig :=
  [.exc f false, .exc f true, .sns f false, .sns f true, .inp f false, .inp f true]

/-- The pins between which the loop tone is applied, and those to which the leakage tone is (R602). -/
def toneLoop (mode f : Nat) : List Sig :=
  if 1 ≤ mode ∧ mode ≤ 3 then [.exc f false, .exc f true] else [.inp f false, .inp f true]
def toneLeakage (mode f : Nat) : List Sig := (fePins f).filter fun pin => modeWire mode 0 0 true false pin != .hiZ

/-- Frames of a check at each tone (Table 16.5). -/
def checkFrames (tone : Nat) : Nat :=
  match tone with
  | 0 => 1000
  | 1 => 500
  | 2 => 250
  | 3 => 125
  | _ => 63

/-- Frames from the start of the frame in progress over which the schedule keeps excitation off; none: for good. -/
def feQuiet (s : State) (f : Nat) : Option Nat :=
  if !feExcites s f then none
  else if feAlways s f then some (if feStood s f 0 then 0 else 1)
  else if feInProgress s f then some 0
  else if feAge s f < feStartAge s f then some (feStartAge s f - feAge s f)
  else some (fePeriod s f - feAge s f + feStartAge s f)

/-- A due check may start at the start of the frame in progress (R603): excitation stays off for its length from here,
or, when the schedule has no such stretch, a window ends here. -/
def checkMayStart (s : State) (f : Nat) : Bool :=
  let n := checkFrames (s.get F.FE_CHK_TONE f)
  match feQuiet s f with
  | none => true
  | some q => Nat.ble n q || ((feAlways s f || Nat.blt (feStartAge s f) n) && feAge s f == 0)

/-! ### Skips, checks and excitation -/

/-- A window gives no sample: counted in SKIPS.
DEDUCED, unsafe (notes/assumptions/80). -/
def feSkip (s : State) (f : Nat) : State := (s.bumpSat F.FE_CNT_SKIPS 1 f).raiseBit F.FE_EVENT_SKIP f

/-- A check ends with its verdict (R604); the commands that wait for it complete (R610, R618). -/
def checkEnd (s : State) (f verdict : Nat) : State :=
  let s := ((s.put F.FE_ZPH_VERDICT verdict f).put F.FE_STAT_CHK_BUSY 0 f).raiseBit F.FE_EVENT_CHK_DONE f
  let s := if verdict = 1 then s else s.raiseBit F.FE_EVENT_CHK_FAULT f
  let data := toLE 4 (s.get F.FE_ZRES f) ++ toLE 4 (s.get F.FE_ZPH f) ++ toLE 4 (s.get F.FE_LRES f)
  let s := forList (s.feX f).jobs (fun k s => postResult s k St.ok data) s
  s.modFe f fun x => { x with chkDue := false, chk := none, chkClamp := false, impFault := verdict != 1, jobs := [] }

/-- EN written 0: a check in progress ends at once (R619), and so do the commands that wait for one that is due.
DEDUCED, unsafe (notes/assumptions/80). -/
def checkAbort (s : State) (f : Nat) : State :=
  if (s.feX f).chk.isSome ∨ !(s.feX f).jobs.isEmpty then checkEnd s f 5 else s.modFe f fun x => { x with chkDue := false }

/-- A check is due: one that FE_CHECK asked for (R610), or a periodic one while firmware is present (R605). -/
def checkWanted (s : State) (f : Nat) : Bool :=
  (s.feX f).chk.isNone && (!(s.feX f).jobs.isEmpty || ((s.feX f).chkDue && s.on F.MP_STATUS_FW_READY))

/-- A due check starts (R603); a pin clamped already is a clamp during it (R604). -/
def checkStart (s : State) (f : Nat) : State :=
  if feOn s f && checkWanted s f && checkMayStart s f then
    let n := checkFrames (s.get F.FE_CHK_TONE f)
    (s.put F.FE_STAT_CHK_BUSY 1 f).modFe f fun x => { x with
      chkDue := false, chk := some (s.frameTotal, (s.frameTotal + n) % 2 ^ 32), chkClamp := s.on F.FE_STAT_CLAMP_NOW f }
  else s

/-- The verdict of R604 from the loop impedance in mΩ and the leakage in kΩ. -/
def checkVerdict (s : State) (f z leak : Nat) : Nat :=
  if (s.feX f).chkClamp then 5
  else if s.get F.FE_ZLIM_Z_MAX f * 1000 < z then 2
  else if z < s.get F.FE_ZLIM_Z_MIN f * 100 then 3
  else if leak < s.get F.FE_LEAK_LEAK_MIN f then 4
  else 1

/-- The settings of channel f take another frame start into account, or begin anew with it when the numbering moved (R612);
the clamped cycles of the frame that ended are counted (R601).
DEDUCED, unsafe (notes/assumptions/80). -/
def feCount (s : State) (f : Nat) (jumped : Bool) : State :=
  let s := if jumped && (s.feX f).inWindow then feSkip s f else s
  s.modFe f fun x => { x with
    stood := if jumped then 2 else min (x.stood + 1) 300
    clean := if x.clamped then 0 else min (x.clean + 1) 300
    clamped := s.on F.FE_STAT_CLAMP_NOW f, ready := none, held := none }

/-- A window that ends at the start of the frame in progress: it is ready for its sample, or skipped for a check (R603). -/
def feWindow (s : State) (f : Nat) : State :=
  let lapped := (s.feX f).overlap
  let s := if feWindowEnds s f then
      (if lapped then feSkip s f else s.modFe f fun x => { x with ready := some (s.get F.FE_CFG f, s.get F.FE_EXC f) })
    else s
  if feAge s f == 0 then s.modFe f fun x => { x with overlap := false } else s

/-- What is in progress in the frame that begins.
DEDUCED, unsafe (notes/assumptions/80). -/
def feProgress (s : State) (f : Nat) : State :=
  let busy := feInProgress s f
  let inWin := busy && Nat.ble (feWindowAge s f) (feAge s f)
  let s := s.modFe f fun x => { x with
    busy := busy, inWindow := inWin
    overlap := x.overlap || (feOn s f && Nat.ble (feWindowAge s f) (feAge s f) && feChecking s f) }
  s.put F.FE_STAT_EXC_ON (b2n (feExcDue s f)) f

/-- Channel f at the start of a local frame; `jumped` says that the number is not the one that follows (R612). -/
def feFrame (s : State) (f : Nat) (jumped : Bool) : State :=
  feProgress (checkStart (feWindow (feCount s f jumped) f) f) f

/-! ### Values (R589, R596–R600) -/

/-- Full scale of a range, in 10 nV (Table 16.2).
DESIGN CHOICE, safe (notes/assumptions/79). -/
def fullScale (range : Nat) : Int :=
  match range with
  | 0 => 250000000
  | 1 => 31250000
  | 2 => 7812500
  | _ => 1953125

/-- The CURVE 0 value of an averaged code (Table 16.3); `exc` is the bridge excitation measured, in 10 nV. A ratio to an
excitation of 0 has no stated value: it is the open value.
DESIGN CHOICE, safe (notes/assumptions/79). -/
def curve0 (mode range iexc lead : Nat) (code exc open_ : Int) : Int :=
  let v := code * fullScale range
  match mode with
  | 0 | 6 => roundHalfUp v 8388608
  | 1 => roundHalfUp (v * 10) (8388608 * (iexc : Int)) - (lead : Int)
  | 2 | 3 => roundHalfUp (v * 10) (8388608 * (iexc : Int))
  | _ => if exc ≤ 0 then open_ else roundHalfUp (v * 1000000000) (8388608 * exc)

/-- The range of a standard curve, in 0.001 °C (Table 16.4).
DESIGN CHOICE, safe (notes/assumptions/78). -/
def curveRange (c : Nat) : Int × Int :=
  match c with
  | 1 | 2 => (-200000, 850000)
  | 3 => (-210000, 1200000)
  | 4 => (-200000, 1372000)
  | 5 => (-200000, 400000)
  | 6 => (-200000, 1000000)
  | 7 => (-200000, 1300000)
  | 8 => (-50000, 1768000)
  | 9 => (250000, 1820000)
  | _ => (-50000, 1768000)

/-- A standard curve applied: the temperature, and whether the input lay beyond the range (R597).
DESIGN CHOICE, safe (notes/assumptions/78). -/
def standardCurve (c : Nat) (x : Int) : Int × Bool :=
  let r := curveRange c
  if x < Config.curveEnd c false then (r.1, true)
  else if Config.curveEnd c true < x then (r.2, true)
  else (clampInt r.1 r.2 (Config.curveTemp c x), false)

/-- The most recent sample of channel c stamped at or before the frame in progress (R598).
DESIGN CHOICE, safe (notes/assumptions/78). -/
def cjSample (s : State) (c : Nat) : Option MadeT :=
  let stamp (m : MadeT) : Nat × Nat :=
    ((m.sample.getD 2 0).toNat * 2 ^ 16 + (m.sample.getD 3 0).toNat, (m.sample.getD 4 0).toNat % 2 ^ 15)
  ((s.feX c).out0.toList ++ (s.feX c).out1.toList).find? fun m => decide (numDiff (stamp m) s.frameNum ≤ 0)

/-- Channel c serves as a cold junction by its settings: enabled, in an RTD mode with a standard curve. -/
def cjServes (s : State) (c : Nat) : Bool :=
  let mode := s.get F.FE_CFG_MODE c
  let curve := s.get F.FE_CFG_CURVE c
  feOn s c && Nat.ble 1 mode && Nat.ble mode 3 && Nat.ble 1 curve && Nat.ble curve 2

/-- The cold-junction temperature and CJ_BAD (R598, R614, R615).
DESIGN CHOICE, safe (notes/assumptions/78). -/
def coldJunction (s : State) (f : Nat) : Int × Bool :=
  let die : Int := toSigned 32 (s.get F.FE_DIE_TEMP)
  let c := s.get F.FE_CFG_CJ_SRC f
  if c = 8 then (die, false)
  else
    match cjSample s c with
    | none => (die, true)
    | some m =>
      let w := (m.sample.getD 5 0).toNat
      if !cjServes s c || bitOf w 15 || bitOf w 11 || bitOf w 10 then (die, true)
      else (toSigned 32 ((m.sample.getD 0 0).toNat * 2 ^ 16 + (m.sample.getD 1 0).toNat), false)

/-- Channel f's linearisation waits for the sample that its cold junction completes in the same frame (R594, R614). -/
def cjAwaited (s : State) (f : Nat) : Bool :=
  let curve := s.get F.FE_CFG_CURVE f
  let c := s.get F.FE_CFG_CJ_SRC f
  Nat.ble 3 curve && Nat.ble curve 10 && Nat.blt c 8 && cjServes s c && (s.feX c).ready.isSome

/-- A value linearised by the channel's CURVE: result, CJ_BAD, LIN_RANGE, LIN_INVALID. -/
def linearise (s : State) (f : Nat) (v : Int) : Int × Bool × Bool × Bool :=
  let c := s.get F.FE_CFG_CURVE f
  if c = 0 then (v, false, false, false)
  else if c ≤ 2 then let r := standardCurve c v; (r.1, false, r.2, false)
  else if c ≤ 10 then
    let cj := coldJunction s f
    let r := standardCurve c (v + Config.curveEmf c cj.1)
    (r.1, cj.2, r.2, false)
  else
    match splineNow s (c - 11) v with
    | some (y, out) => (y, false, out, false)
    | none => (v, false, false, true)

/-- The averaged code of a window from the codes of its 16 µs pieces, oldest first (R588, R591): the mean of them all; in
MODE 2 and 3 the mean of two halves, each without its first piece, the second with its sign inverted in MODE 3.
DEDUCED, unsafe (notes/assumptions/80). -/
def windowCode (mode : Nat) (codes : List Int) : Int :=
  if mode = 2 ∨ mode = 3 then
    let a := (codes.take (codes.length / 2)).drop 1
    let b := (codes.drop (codes.length / 2)).drop 1
    roundHalfUp (if mode = 3 then a.sum - b.sum else a.sum + b.sum) ((a.length + b.length : Nat) : Int)
  else roundHalfUp codes.sum codes.length

/-- Words 0–7 of a sample (Table 16.6). -/
def sampleWords (value sec nv fis w5 f curve : Nat) : List LineWord :=
  let word (n : Nat) : LineWord := BitVec.ofNat 16 n
  [word (value / 2 ^ 16), word value, word (sec / 2 ^ 16), word sec, word (nv * 2 ^ 15 + fis), word w5,
    word (f * 2 ^ 13 + curve * 2 ^ 8), 0]

/-- The sample of a conversion, stamped with the frame in progress (R590, R593, R594, R601, R607).
DEDUCED, unsafe (notes/assumptions/80). -/
def feSample (s : State) (f : Nat) (x : FeConv) : State :=
  let mode := bitsOf x.cfg 28 3
  let excites := Nat.ble 1 mode && Nat.ble mode 5
  let clamp := Nat.blt (s.feX f).clean (bitsOf x.drive 16 7 + (if excites then bitsOf x.drive 24 6 else 0))
  let code24 := clampInt (-8388607) 8388607 x.code
  let beyond := decide (x.code < -8388607 ∨ 8388607 < x.code)
  let fault := x.fault && excites
  let ovr := x.overR.isSome || fault || clamp || beyond
  let positive := match x.overR with
    | some b => b
    | none => fault || decide (0 ≤ x.code)
  let v0 := curve0 mode (bitsOf x.cfg 26 2) (bitsOf x.drive 0 11) (s.get F.FE_LEAD_LEAD f) code24 x.exc
    (toSigned 32 s.drawn.toNat)
  let s := s.draw
  let l := linearise s f v0
  let value := if ovr then (if positive then 0x7FFFFFFF else 0x80000000)
    else ofSigned 32 (clampInt (-2147483648) 2147483647 l.1)
  let seq := (s.feX f).made + 1
  let w5 := b2n ovr * 2 ^ 15 + b2n clamp * 2 ^ 14 + b2n (s.feX f).impFault * 2 ^ 13 + b2n l.2.1 * 2 ^ 12
    + b2n l.2.2.1 * 2 ^ 11 + b2n fault * 2 ^ 10 + b2n l.2.2.2 * 2 ^ 9 + seq % 256
  let nv := b2n (s.get F.LF_NUM_STATUS_STATE != 1)
  let sec := s.get F.LF_NOW_S
  let fis := s.get F.LF_NOW_F_F
  let ws := sampleWords value sec nv fis w5 f (s.get F.FE_CFG_CURVE f)
  let s := (s.put F.FE_RAW (ofSigned 32 code24) f).put F.FE_VAL value f
  let s := ((s.put F.FE_STAMP_S sec f).put F.FE_STAMP_F_NV nv f).put F.FE_STAMP_F_F fis f
  let s := (s.put F.FE_STAT_WORD5 w5 f).raiseBit F.FE_EVENT_SAMPLE f
  let s := if ovr then (s.raiseBit F.FE_EVENT_OVR f).bumpSat F.FE_CNT_OVR 1 f else s
  let s := if fault then s.raiseBit F.FE_EVENT_EXC_FAULT f else s
  -- first carried in the transmit frames of the next local frame (R37)
  let base := (s.timeAt 12800 + timeTurn - 2500) % timeTurn
  let s := s.modFe f fun x => { x with
    made := seq, ready := none, held := none, out1 := x.out0
    out0 := some { base := base, n := seq, words := ws, sample := ws } }
  markFresh s 4 f

/-- The conversions that waited for channel c's sample are linearised (R614). -/
def feRelease (s : State) (c : Nat) : State :=
  forN 8 (fun f s =>
    match (s.feX f).held with
    | some x => if s.get F.FE_CFG_CJ_SRC f = c then feSample s f x else s
    | none => s) s

/-- The conversions that still wait when the frame ends are linearised with the cold junction's sample before. -/
def feFrameEnd (s : State) : State :=
  forN 8 (fun f s =>
    match (s.feX f).held with
    | some x => feSample s f x
    | none => s) s

/-- The values that a tributary sourced by channel f may carry (R607, R608). -/
def feMades (s : State) (f : Nat) : List MadeT := (s.feX f).out0.toList ++ (s.feX f).out1.toList

/-! ### Register writes -/

/-- Whether CURVE is admitted by MODE (Table 16.3). -/
def curveAdmitted (mode curve : Nat) : Bool :=
  curve == 0 || (Nat.ble 11 curve && Nat.ble curve 26) ||
  (Nat.ble 1 mode && Nat.ble mode 3 && Nat.ble curve 2) || (mode == 6 && Nat.ble 3 curve && Nat.ble curve 10)

/-- Whether R592 or R587 refuses FE_CFG = `c` together with FE_EXC = `e`. -/
def feCfgBad (c e : Nat) : Bool :=
  let mode := bitsOf c 28 3
  let period := bitsOf c 8 8
  let conv := bitsOf e 16 7
  let lead := bitsOf e 24 6
  mode == 7 || period < 4 || Nat.blt 250 period || Nat.ble period (bitsOf c 0 8) || conv == 0 || Nat.blt 64 conv ||
  Nat.blt 64 (lead + conv) || Nat.blt period conv || ((mode == 2 || mode == 3) && conv % 2 == 1) ||
  (Nat.ble 1 mode && Nat.ble mode 3 && (bitsOf e 0 11 < 50 || Nat.blt 2000 (bitsOf e 0 11))) ||
  Nat.blt 8 (bitsOf c 17 4) || !curveAdmitted mode (bitsOf c 21 5)

/-- What block FE refuses. `s` shows the other of FE_CFG and FE_EXC as every other write of the command leaves it. -/
def judgeFe (s : State) (a v : Nat) : Nat :=
  if 0x400F8000 ≤ a then rangeIf (a % 0x200 == 0 && Nat.blt 32 (bitsOf v 0 6))
  else if a < 0x400F0100 then St.ok
  else
    let f := (a - 0x400F0100) / 0x100
    match a % 0x100 with
    | 0x00 => rangeIf (feCfgBad v (s.get F.FE_EXC f))
    | 0x04 => rangeIf (feCfgBad (s.get F.FE_CFG f) v)
    | 0x0C => rangeIf (Nat.blt 3600 (bitsOf v 20 12) || Nat.blt 4 (bitsOf v 16 3))
    | _ => St.ok

/-- A change of FE_CFG[f] or FE_EXC[f] that aborts (R595), in any field but CURVE and CJ_SRC: a window or its excitation in
progress is skipped, and the next frame start after this cycle is the first that the new settings hold over. EN written 0
gives no further sample.
DEDUCED, unsafe (notes/assumptions/80). -/
def feAbort (s : State) (f : Nat) (on : Bool) : State :=
  let s := if (s.feX f).busy then feSkip s f else s
  let s := (s.put F.FE_STAT_EXC_ON 0 f).modFe f fun x => { x with
    stood := if frameCycles ≤ s.inFrame then 0 else 1, busy := false, inWindow := false, overlap := false
    ready := if on then x.ready else none, held := if on then x.held else none }
  if on then s else checkAbort s f

/-- What a write in block FE sets off (R595, R601, R611). -/
def hookFe (a v old : Nat) (s : State) : State :=
  if 0x400F8000 ≤ a then s
  else if a = 0x400F000C then (if bitOf v 0 then forN 8 (fun f s => s.put F.FE_CNT 0 f) s else s)
  else if a < 0x400F0100 then s
  else
    let f := (a - 0x400F0100) / 0x100
    match a % 0x100 with
    | 0x00 => if v &&& 0xFC00FFFF = old &&& 0xFC00FFFF then s else feAbort s f (bitOf v 31)
    | 0x04 => if v &&& 0xBF7F17FF = old &&& 0xBF7F17FF then s else feAbort s f (feOn s f)
    | 0x24 => if s.on F.FE_STAT_CLAMP_NOW f then s.raiseBit F.FE_EVENT_CLAMP f else s
    | _ => s

/-! ### Opcodes 0x80–0x82 -/

/-- FE_CHECK (R610, R618): the command ends with the verdict of the check that is due or running. -/
def bodyFeCheck (k : JobKind) (ps : List Byte) (s : State) : Out :=
  let f := byteAt ps 0
  if 7 < f then refuse s St.badParam
  else if !feOn s f then refuse s St.wrongState
  else .wait (s.modFe f fun x => { x with jobs := x.jobs ++ [k] })

/-- The pairs of a Spline load. -/
def splinePairs (ps : List Byte) : List (Nat × Nat) :=
  (List.range (byteAt ps 1)).map fun k => (leAt ps (2 + 8 * k) 4, leAt ps (6 + 8 * k) 4)

/-- The first knot whose X does not rise, from index i on. -/
def badKnot : Nat → List (Nat × Nat) → Option (Nat × Nat)
  | i, a :: b :: rest =>
    if toSigned 32 a.1 < toSigned 32 b.1 then badKnot (i + 1) (b :: rest) else some (i + 1, b.1)
  | _, _ => none

/-- FE_SPLINE_LOAD (R610). -/
def bodyFeSplineLoad (ps : List Byte) (s : State) : Out :=
  let n := byteAt ps 0
  let k := byteAt ps 1
  let prs := splinePairs ps
  if 15 < n ∨ k < 2 ∨ 32 < k then refuse s St.badParam
  else if s.locked 15 then refuseLocked s
  else
    match badKnot 0 prs with
    | some (i, x) => .done s St.badParam (toLE 2 i ++ toLE 4 x)
    | none =>
      .done (forN 32 (fun i s =>
        let p := prs.getD i (0, 0)
        (s.put F.FE_SPL_X p.1 n i).put F.FE_SPL_Y p.2 n i) (s.put F.FE_SPL_K_K k n)) St.ok []

/-- FE_SPLINE_EVAL (R610). -/
def bodyFeSplineEval (ps : List Byte) (s : State) : Out :=
  let n := byteAt ps 0
  let x := toSigned 32 (leAt ps 1 4)
  if 15 < n then refuse s St.badParam
  else
    match splineLive s n x with
    | some (y, out) => .done s St.ok (toLE 4 (ofSigned 32 y) ++ toLE 1 (b2n out))
    | none => .done s St.ok (toLE 4 (ofSigned 32 x) ++ toLE 1 2)

/-! ### The commands -/

/-- EXCITATION_ON (R591). -/
def execExcitationOn (f : Fin 8) (s : State) : Host.Outcome State Fault Refusal :=
  act s (if feExcDue s f then s.put F.FE_STAT_EXC_ON 1 f else s)

/-- SAMPLE (R588, R590, R594): the conversion of the window that ended at the start of this frame: the code of each 16 µs of
the window, oldest first, the bridge excitation in 10 nV, an overload and its sign, and whether a source reached its limit.
DEDUCED, unsafe (notes/assumptions/80). -/
def execSample (f : Fin 8) (codes : List Int) (exc : Int) (overR : Option Bool) (fault : Bool) (s : State) :
    Host.Outcome State Fault Refusal :=
  act s (match (s.feX f).ready with
    | none => s
    | some (cfg, drive) =>
      if codes.length ≠ 2 * bitsOf drive 16 7 then s
      else
        let x : FeConv := { code := windowCode (bitsOf cfg 28 3) codes, exc, overR, fault, cfg, drive }
        if cjAwaited s f then s.modFe f fun y => { y with ready := none, held := some x }
        else feRelease (feSample s f x) f)

/-- FE_CONFIG_WRITE (R595): FE_CFG[f], or FE_EXC[f] when `exc`, written. -/
def execFeConfigWrite (f : Fin 8) (exc : Bool) (value : Word) (s : State) : Host.Outcome State Fault Refusal :=
  act s (writeBy judgeFe hookFe s (if exc then F.FE_EXC.addr f else F.FE_CFG.addr f) value.toNat)

/-- CLAMP (R601, R604): the frame in progress has a clamped cycle, and so has a check in progress. -/
def execClamp (f : Fin 8) (s : State) : Host.Outcome State Fault Refusal :=
  act s (((s.put F.FE_STAT_CLAMP_NOW 1 f).raiseBit F.FE_EVENT_CLAMP f).modFe f fun x => { x with
    clamped := x.clamped || Nat.blt s.inFrame frameCycles, chkClamp := x.chkClamp || feChecking s f })

/-- CLAMP_RELEASE (R601). -/
def execClampRelease (f : Fin 8) (s : State) : Host.Outcome State Fault Refusal := act s (s.put F.FE_STAT_CLAMP_NOW 0 f)

/-- CHECK_DUE (R605): firmware starts a periodic check; while it is absent none starts. -/
def execCheckDue (f : Fin 8) (s : State) : Host.Outcome State Fault Refusal :=
  act s (if feOn s f && s.on F.FE_CHK_CHK_PERIOD f && s.on F.MP_STATUS_FW_READY && (s.feX f).chk.isNone then
    s.modFe f fun x => { x with chkDue := true } else s)

/-- CHECK_START (R603): in the cycle of a frame start, a check that fell due in it starts. -/
def execCheckStart (f : Fin 8) (s : State) : Host.Outcome State Fault Refusal :=
  act s (if s.inFrame = 0 then feProgress (checkStart s f) f else s)

/-- CHK_DONE (R602, R604): the check has lasted its frames; the impedance in mΩ, its phase in 0.01° and the leakage in kΩ
that it found. -/
def execChkDone (f : Fin 8) (z : Nat) (phase : Int) (leak : Nat) (s : State) : Host.Outcome State Fault Refusal :=
  act s (match (s.feX f).chk with
    | some (_, e) =>
      if seqLater e s.frameTotal then s
      else
        let s := ((s.put F.FE_ZRES (min z (2 ^ 32 - 1)) f).put F.FE_ZPH_PHASE (ofSigned 16 phase) f).put F.FE_LRES
          (min leak (2 ^ 32 - 1)) f
        checkEnd s f (checkVerdict s f z leak)
    | none => s)

/-- FE_CNT_CLR (R611): FE_CMD bit 0. -/
def execFeCntClr (s : State) : Host.Outcome State Fault Refusal :=
  act s (writeBy judgeFe hookFe s (F.FE_CMD.addr) 1)

end Sys2Proof.Machine
end

