-- ==== Sys2Proof/Machine/Qm.lean ====
section
/-!
DEFINITION. Machine/Qm.lean: queues, the cell pool and packet tributaries (chapter 11).
-/
namespace Sys2Proof.Machine

namespace St
/-- QUEUE_RESET (R423). -/
def queueReset : Nat := 0x10
end St

/-! ### Cells (R398, R399) -/

def poolCells : Nat := 16384

/-- Cells held by the queue.
DESIGN CHOICE, unsafe (notes/assumptions/61). -/
def qCells (s : State) (q : Nat) : Nat := s.get F.QM_Q_STAT_CELLS q

/-- Cells held by no queue. -/
def qmFree (s : State) : Nat := poolCells - (List.range 64).foldl (fun n q => n + qCells s q) 0

/-- The shared free cells: those not kept for a queue below its reservation. -/
def qmShared (s : State) : Nat :=
  qmFree s - (List.range 64).foldl (fun n q => n + (s.get F.QM_Q_LIM_RES q - qCells s q)) 0

/-- The sum of the reservations. -/
def qmResSum (s : State) : Nat := (List.range 64).foldl (fun n q => n + s.get F.QM_Q_LIM_RES q) 0

/-- free(q) of R419. -/
def qFree (s : State) (q : Nat) : Nat :=
  min (s.get F.QM_Q_LIM_MAX q - qCells s q) (s.get F.QM_Q_LIM_RES q - qCells s q + qmShared s)

/-- Whether queue q can take one more cell (R399, R429). -/
def qCanTake (s : State) (q : Nat) : Bool := 0 < qFree s q && 0 < qmFree s

/-- The cells a queue's lists reach. -/
def QueueX.cells (x : QueueX) : List Nat :=
  x.pkts.flatMap (fun p => p.cells) ++ (match x.cur with
    | some p => p.cells
    | none => [])

/-- Every cell that a queue holds.
DESIGN CHOICE, unsafe (notes/assumptions/61). -/
def heldCells (s : State) : List Nat := s.qm.queue.flatMap fun e => e.2.cells

/-- The free cell taken next: the lowest-numbered one.
DESIGN CHOICE, unsafe (notes/assumptions/61). -/
def nextCell (s : State) : Nat :=
  let held := heldCells s
  ((List.range (held.length + 1)).find? fun c => !held.contains c).getD 0

/-- The doubled links and pointers, as `QmX.differ` numbers them (R403). -/
def headId (q : Nat) : Nat := poolCells + 2 * q
def tailId (q : Nat) : Nat := poolCells + 2 * q + 1
def freeHeadId : Nat := poolCells + 128
def freeTailId : Nat := poolCells + 129

/-- The two copies of a link or pointer made to differ by a defect, or written again, alike (R403).
DESIGN CHOICE, unsafe (notes/assumptions/61). -/
def spoil (s : State) (i : Nat) : State := { s with qm.differ := if s.qm.differ.contains i then s.qm.differ else i :: s.qm.differ }
/-- DESIGN CHOICE, unsafe (notes/assumptions/61). -/
def rewrite (s : State) (i : Nat) : State := { s with qm.differ := s.qm.differ.filter fun j => j != i }

/-- A cell enters the free list: its tag rises, and its link is written anew (R403). -/
def cellFreed (s : State) (q c : Nat) : State :=
  let t := SMap.get (fun _ => 0) s.qm.gen c
  (rewrite { s with qm.gen := SMap.set (fun _ => 0) s.qm.gen c ((t + 1) % 16) } c).put F.QM_Q_STAT_CELLS (qCells s q - 1) q

/-! ### Faults of pointers (R403, Table 11.1) -/

/-- The queue accepts writes and reads: it runs and no rebuild holds the handshakes. -/
def qRunning (s : State) (q : Nat) : Bool := s.get F.QM_Q_STAT_STATE q == 1 && !s.qm.rebuilding

/-- A rebuild begins (R404). -/
def startRebuild (s : State) : State :=
  { (s.put F.QM_STATUS_REBUILDING 1) with
    qm.rebuilding := true, qm.rebuildFrames := if s.qm.rebuilding then s.qm.rebuildFrames else 0 }

/-- A pointer fault on queue q. -/
def ptrFault (s : State) (q : Nat) (inj : Bool) : State :=
  let s := (s.put F.QM_Q_STAT_STATE 2 q).raiseBit F.QM_EVENT_PTR_FAULT
  let s := startRebuild (s.modQueue q fun x => { x with faulted := true })
  raise s 10 q inj

/-- A difference on the free list. -/
def freeFault (s : State) (inj : Bool) : State :=
  raise (startRebuild (s.raiseBit F.QM_EVENT_FREE_FAULT)) 11 0 inj

/-- One comparison by checker j (8, 9 or 10 of Table 18.5) of the two copies numbered `i`: none where they agree, and otherwise whether it is
the Jig that makes them differ.
DESIGN CHOICE, unsafe (notes/assumptions/61). -/
def qmCompare (s : State) (j i : Nat) : State × Option Bool :=
  (jigUse s j, if s.jigMask j != 0 then some true else if s.qm.differ.contains i then some false else none)

/-- What `upset` says of the copies that a use of queue q compares, the link followed being that of cell c (R403).
DESIGN CHOICE, unsafe (notes/assumptions/61). -/
def ptrUpset (s : State) (u : PtrUpset) (link ptr free : Nat) : State :=
  match u with
  | .sound => s
  | .link => spoil s link
  | .queue => spoil s ptr
  | .free => spoil s free

/-! ### Writing (R398, R400) -/

/-- FULL of a queue. -/
def setFull (s : State) (q : Nat) (b : Bool) : State :=
  if s.on F.QM_Q_STAT_FULL q == b then s else s.put F.QM_Q_STAT_FULL (b2n b) q

/-- The next cell for queue q's producer, if one can be taken now. -/
def takeCell (s : State) (q : Nat) : State × Option Nat :=
  if !qCanTake s q then (setFull s q true, none)
  else
    let c9 := qmCompare s 9 (tailId q)
    match c9.2 with
    | some inj => (ptrFault c9.1 q inj, none)
    | none =>
      let c10 := qmCompare c9.1 10 freeHeadId
      match c10.2 with
      | some inj => (freeFault c10.1 inj, none)
      | none =>
        let s := c10.1
        let c := nextCell s
        ((s.put F.QM_Q_STAT_CELLS (qCells s q + 1) q).bump64 F.QM_Q_ENQ_CELLS_LO 1 q, some c)

/-- A byte stored in the cell pool.
DESIGN CHOICE, unsafe (notes/assumptions/10). -/
def poolPut (s : State) (off : Nat) (b : Byte) : State :=
  eccWritten { s with qm.pool := SMap.set byteDflt s.qm.pool off b } (0x20000000 + off)

/-- One byte offered by the producer of queue q: whether the queue took it. -/
def qPutByte (s : State) (q : Nat) (b : Byte) : State × Bool :=
  if !qRunning s q then (s, false)
  else if (s.queueX q).skip then (s, true)
  else
    let p : QPkt := ((s.queueX q).cur).getD { cells := [], len := 0 }
    let r : State × Option Nat := if p.len % 64 = 0 then takeCell s q else (s, p.cells.getLast?)
    match r.2 with
    | none => (r.1, false)
    | some c =>
      let s := poolPut (setFull r.1 q false) (64 * c + p.len % 64) b
      let cells := if p.len % 64 = 0 then p.cells ++ [c] else p.cells
      ((s.modQueue q fun x => { x with cur := some { p with cells := cells, len := p.len + 1 } }).bump64
        F.QM_Q_ENQ_BYTES_LO 1 q, true)

/-- Bytes offered in order: the state, and the bytes that the queue did not take. -/
def qPutBytes : State → Nat → List Byte → State × List Byte
  | s, _, [] => (s, [])
  | s, q, b :: bs =>
    let r := qPutByte s q b
    if r.2 then qPutBytes r.1 q bs else (r.1, b :: bs)

/-- A packet closed with ERR, or a header discarded, counted (Table 11.4). -/
def countPktErr (s : State) (q : Nat) : State := (s.bumpSat F.QM_Q_FAULT_PKT_ERR 1 q).raiseBit F.QM_EVENT_PKT_ERR

/-- The bytes beyond VALID of the last word of a packet, 0 (R398). -/
def padPkt (s : State) (p : QPkt) : State :=
  let c := p.cells.getLast?.getD 0
  forN ((16 - p.len % 16) % 16) (fun i s => poolPut s (64 * c + p.len % 64 + i) 0) s

/-- The last word of the producer's packet filled up and tagged EOP: the packet becomes available (R398, R401). The end of a packet whose
rest was discarded after a reset ends the discarding (R402). -/
def qClose (s : State) (q : Nat) (err : Bool) : State :=
  let x := s.queueX q
  if x.skip then s.modQueue q fun x => { x with skip := false }
  else
    match x.cur with
    | none => s
    | some p =>
      let s := (padPkt s p).modQueue q fun x => { x with cur := none, pkts := x.pkts ++ [{ p with err := err }] }
      let s := s.bumpWrap F.QM_Q_PKTS 1 q
      if err then countPktErr s q else s

/-! ### Reading (R401) -/

/-- Bytes of the cell pool. -/
def poolBytes (s : State) (off n : Nat) : List Byte := (List.range n).map fun i => SMap.get byteDflt s.qm.pool (off + i)

/-- The packet being read loses its rest: its cells go back, and the consumer marks it (R667).
DEDUCED, unsafe (notes/assumptions/62). -/
def cutRest (s : State) (q : Nat) : State :=
  match (s.queueX q).pkts with
  | [] => s
  | p :: ps =>
    let s := s.modQueue q fun x => { x with
      pkts := ps, buf := []
      rd := some { x.rd.getD { len := p.len, err := p.err, left := 0 } with cut := true, left := 0 } }
    forList p.cells (fun c s => cellFreed s q c) (s.put F.QM_Q_PKTS (s.get F.QM_Q_PKTS q - 1) q)

/-- Two ECC words of the pool checked; whether one of them is uncorrectable (Table 18.2). -/
def poolCheck (s : State) (q off : Nat) : State × Bool :=
  let a := eccCheck s (0x20000000 + off) (some q)
  let b := eccCheck a.1 (0x20000000 + off + 8) (some q)
  (b.1, a.2 == 2 || b.2 == 2)

/-- The next 128-bit word of the packet being read, or of the next one when none is, goes to the consumer's side; a
cell whose last word was read goes back to the free list (R401). Whether a word was read. -/
def qReadWord (s : State) (q : Nat) : State × Bool :=
  match (s.queueX q).pkts with
  | [] => (s, false)
  | p :: ps =>
    if !qRunning s q then (s, false)
    else
      let c := p.cells.headD 0
      let c8 := if p.read % 64 = 0 then qmCompare s 8 c else (s, none)
      let c9 := if p.read % 64 = 0 then qmCompare c8.1 9 (headId q) else (s, none)
      match (c8.2.or c9.2) with
      | some inj => (ptrFault c9.1 q inj, false)
      | none =>
        let off := 64 * c + p.read % 64
        let ecc := poolCheck c9.1 q off
        if ecc.2 then (cutRest ecc.1 q, true)
        else
          let s := ecc.1
          let n := min 16 (p.len - p.read)
          let bytes := poolBytes s off n
          let done := p.read + n == p.len
          let emptied := done || (p.read + n) % 64 == 0
          let p' : QPkt := { p with read := p.read + n, cells := if emptied then p.cells.drop 1 else p.cells }
          let s := s.modQueue q fun x => { x with
            pkts := if done then ps else p' :: ps
            buf := x.buf ++ bytes
            rd := some { x.rd.getD { len := p.len, err := p.err, left := p.len } with left := p.len - (p.read + n) } }
          let s := s.bump64 F.QM_Q_DEQ_BYTES_LO n q
          let s := if done then s.put F.QM_Q_PKTS (s.get F.QM_Q_PKTS q - 1) q else s
          let s := if emptied then cellFreed s q c else s
          if emptied then
            let c10 := qmCompare s 10 freeTailId
            (match c10.2 with
             | some inj => freeFault c10.1 inj
             | none => c10.1, true)
          else (s, true)

/-- Words read until the consumer's side holds `n` bytes of the packet being read. -/
def qFill : Nat → State → Nat → Nat → State
  | 0, s, _, _ => s
  | k + 1, s, q, n =>
    let x := s.queueX q
    let more := match x.rd with
      | none => true
      | some r => 0 < r.left && !r.cut
    if n ≤ x.buf.length || !more then s
    else
      let r := qReadWord s q
      if r.2 then qFill k r.1 q n else r.1

/-- The length of the packet that the consumer is reading or may read next (R401). -/
def nextPkt (s : State) (q : Nat) : Option Nat :=
  match (s.queueX q).rd with
  | some r => some r.len
  | none => if qRunning s q then ((s.queueX q).pkts.head?).map fun p => p.len else none

/-- The consumer begins with the next packet, if it has not. -/
def beginPkt (s : State) (q : Nat) : State :=
  match (s.queueX q).rd, (s.queueX q).pkts with
  | none, p :: _ => s.modQueue q fun x => { x with rd := some { len := p.len, err := p.err, left := p.len } }
  | _, _ => s

/-- Whether the packet being read is to be marked: it came with ERR, or its rest was lost. -/
def rdBad (s : State) (q : Nat) : Bool :=
  match (s.queueX q).rd with
  | some r => r.err || r.cut
  | none => false

/-- DEDUCED, unsafe (notes/assumptions/62). -/
def rdCut (s : State) (q : Nat) : Bool :=
  match (s.queueX q).rd with
  | some r => r.cut
  | none => false

/-- The consumer has finished with the packet. -/
def endPkt (s : State) (q : Nat) : State := s.modQueue q fun x => { x with rd := none, buf := [] }

/-- The bytes of the packet being read, to its end or to where its rest was lost.
DEDUCED, unsafe (notes/assumptions/62). -/
def wholePkt (s : State) (q : Nat) : State × List Byte :=
  let s := beginPkt s q
  let s := qFill 600 s q 9212
  (s, (s.queueX q).buf)

/-! ### Queue reset (R402, R404) -/

/-- How many complete packets a reset discards: those that the consumer is not reading. -/
def discardedPkts (x : QueueX) : Nat := (x.pkts.filter fun p => p.read == 0).length - (match x.rd, x.pkts with
  | some r, p :: _ => if r.left == p.len && p.read == 0 then 1 else 0
  | _, _ => 0)

/-- The producer of queue q is within a packet, or holds a write of one (R402, R427): a client whose store has a frame for q in front holds its
next byte, since a queue that takes it would have.
DEDUCED, unsafe (notes/assumptions/62). -/
def midPacket (s : State) (q : Nat) : Bool :=
  match s.get F.QM_Q_CFG_PROD_KIND q with
  | 1 => decide ((s.pktTrib (s.get F.QM_Q_CFG_PROD_INDEX q)).parse ≠ .header)
  | 2 => (match (s.clientX (s.get F.QM_Q_CFG_PROD_INDEX q)).store with
    | [] => false
    | e :: _ => e.1 == q)
  | _ => false

/-- R402 applied to queue q: the end of its RESETTING. The commands that waited for it complete.
DEDUCED, unsafe (notes/assumptions/62). -/
def qResetDone (s : State) (q : Nat) : State :=
  let x := s.queueX q
  let mid := midPacket s q
  let gone := discardedPkts x
  let cells := qCells s q
  let s := forList x.cells (fun c s => cellFreed s q c) s
  let s := (s.bumpSat F.QM_Q_LOST_LOST gone q).bumpSat F.QM_Q_FAULT_RESETS 1 q
  let s := ((s.put F.QM_Q_STAT_CELLS 0 q).put F.QM_Q_PKTS 0 q).put F.QM_Q_STAT_FULL 0 q
  let s := s.put F.QM_Q_STAT_STATE (if s.on F.QM_Q_CFG_EN q then 1 else 0) q
  let rd := x.rd.map fun r => if r.left = 0 then r else { r with cut := true, left := 0 }
  let s := s.modQueue q fun x => { x with
    pkts := [], cur := none, skip := mid, rd := rd, qdma := [], resetJobs := [], recvJobs := [], faulted := false }
  let s := rewrite (rewrite s (headId q)) (tailId q)
  let s := forList x.qdma (fun j s => postResult s j.1 St.queueReset []) s
  let s := forList x.recvJobs (fun k s => postResult s k St.queueReset []) s
  forList x.resetJobs (fun k s => postResult s k St.ok (toLE 2 cells ++ toLE 2 gone)) s

/-- A queue that runs begins its reset (Table 11.1). -/
def qResetStart (s : State) (q : Nat) : State :=
  if s.get F.QM_Q_STAT_STATE q = 1 then s.put F.QM_Q_STAT_STATE 2 q else s

/-- A reset that only command `k` asked for is given up with it, and the queue runs as it did (R143).
DEDUCED, unsafe (notes/assumptions/62). -/
def qResetAbandon (s : State) (q : Nat) (k : JobKind) : State :=
  let x := s.queueX q
  let left := x.resetJobs.filter fun j => j != k
  let only := x.resetJobs.contains k && left.isEmpty && !x.faulted && s.on F.QM_Q_CFG_EN q && s.get F.QM_Q_STAT_STATE q == 2
  (if only then s.put F.QM_Q_STAT_STATE 1 q else s).modQueue q fun x => { x with
    resetJobs := left, recvJobs := x.recvJobs.filter fun j => j != k }

/-- The walk of queue q's lists (R404, R423): every link, and the head and tail, compared once. None where all copies agree, and otherwise whether
the first difference was injected.
DESIGN CHOICE, unsafe (notes/assumptions/61). -/
def walkQueue (s : State) (q : Nat) : State × Option Bool :=
  let walk := (s.queueX q).cells.foldl (fun (r : State × Option Bool) i =>
    let c := qmCompare r.1 8 i
    (c.1, r.2.or c.2)) (s, none)
  let c9 := qmCompare walk.1 9 (headId q)
  let tail := if s.qm.differ.contains (tailId q) then some false else none
  (c9.1, walk.2.or (c9.2.or tail))

/-- The end of a rebuild (R404, R428): every RUN queue is walked, and one whose walk finds a difference, or which `found` names, is reset too,
and counts it; then the free list is formed of the cells that no walk reached, those of every queue being reset among them, and the tag of
each such cell rises once. -/
def rebuildQueues (s : State) (found : Nat) : State :=
  let s := forN 64 (fun q s =>
    if s.get F.QM_Q_STAT_STATE q == 1 then
      let w := walkQueue s q
      match w.2 with
      | some inj => ptrFault w.1 q inj
      | none => if found.testBit q then ptrFault w.1 q false else w.1
    else s) s
  let being (q : Nat) : Bool := s.get F.QM_Q_STAT_STATE q == 2
  let kept := (s.qm.queue.filter fun e => !being e.1).flatMap fun e => e.2.cells
  let freed := (s.qm.queue.filter fun e => being e.1).flatMap fun e => e.2.cells
  let s := forN 64 (fun q s => if being q then qResetDone s q else s) s
  -- every tag rises, but not those of cells still held, and no second time those that the resets have freed
  let gen := (kept ++ freed).foldl (fun m c => SMap.set (fun _ => 0) m c ((SMap.get (fun _ => 0) m c + 15) % 16)) s.qm.gen
  rewrite (rewrite { (s.put F.QM_STATUS_REBUILDING 0).raiseBit F.QM_EVENT_REBUILD_DONE with
    qm.rebuilding := false, qm.genBase := (s.qm.genBase + 1) % 16, qm.gen := gen } freeHeadId) freeTailId

/-! ### Producers (R397) -/

/-- QDMA's waiting writes into queue q, each a whole packet (R423). -/
def qdmaPump : Nat → State → Nat → State
  | 0, s, _ => s
  | n + 1, s, q =>
    match (s.queueX q).qdma with
    | [] => s
    | (k, bs) :: rest =>
      let r := qPutBytes s q bs
      if r.2.isEmpty then
        let s := (qClose r.1 q false).modQueue q fun x => { x with qdma := rest }
        qdmaPump n (postResult s k St.ok []) q
      else r.1.modQueue q fun x => { x with qdma := (k, r.2) :: rest }

/-- The words of an intake, without its closing marks: FILL (R408). -/
def intakeFill (l : List Nat) : Nat := (l.filter fun w => w != 0x10000).length

/-- The parser enters hunt (R409): what the intake holds before the next header at a PTR is discarded. -/
def parserHunt (s : State) (t : Nat) (rest : List Nat) : State :=
  let kept := rest.dropWhile fun w => w < 0x20000
  (s.modPktTrib t fun x => { x with intake := kept, parse := .header, wrote := 0 }).put F.QM_T_RX_HUNT
    (b2n (kept.isEmpty || s.on F.QM_T_RX_HUNT t)) t

/-- The packet in progress closed with ERR (R408, R410); one of which nothing was written counts as lost. -/
def closeBad (s : State) (t q : Nat) : State :=
  let x := s.pktTrib t
  let s := s.modPktTrib t fun x => { x with parse := .header, wrote := 0 }
  if x.parse = .header then s
  else if x.wrote = 0 ∧ !(s.queueX q).skip then s.bumpSat F.QM_Q_LOST_LOST 1 q
  else qClose s q true

/-- The parser of tributary t takes one entry of the intake; whether it could (R409). -/
def parseOne (s : State) (t q : Nat) (w : Nat) (rest : List Nat) : State × Bool :=
  let pop (s : State) : State := s.modPktTrib t fun x => { x with intake := rest }
  let x := s.pktTrib t
  if w = 0x10000 then (closeBad (pop s) t q, true)
  else
    let v := w % 0x10000
    match x.parse with
    | .header =>
      let l := v % 0x4000
      if l = 0 ∨ 9212 < l then (parserHunt (countPktErr s q) t rest, true)
      else ((pop s).modPktTrib t fun x => { x with parse := .data l 0xFFFF, wrote := 0 }, true)
    | .data left crc =>
      let bs : List Byte := if left = 1 then [BitVec.ofNat 8 (v / 256)] else [BitVec.ofNat 8 (v / 256), BitVec.ofNat 8 v]
      let r := qPutBytes s q bs
      if r.2.isEmpty then
        let n := left - bs.length
        let crc := crc16From crc bs
        ((pop r.1).modPktTrib t fun x => { x with
          parse := if n = 0 then .check crc else .data n crc, wrote := x.wrote + bs.length }, true)
      else (r.1, false)
    | .check crc =>
      (qClose ((pop s).modPktTrib t fun x => { x with parse := .header, wrote := 0 }) q (v != crc), true)

/-- The parser drains the intake of tributary t into queue q until the queue holds it (R408). -/
def parsePump : Nat → State → Nat → Nat → State
  | 0, s, _, _ => s
  | n + 1, s, t, q =>
    match (s.pktTrib t).intake with
    | [] => s
    | w :: rest =>
      if !qRunning s q then s
      else
        let r := parseOne s t q w rest
        if r.2 then parsePump n r.1 t q else r.1

/-- FILL as it stands. -/
def showFill (s : State) (t : Nat) : State := s.put F.QM_T_RX_FILL (intakeFill (s.pktTrib t).intake) t

/-- The parser of tributary t, and FILL after it. -/
def parserRun (s : State) (t q : Nat) : State := showFill (parsePump 1100 s t q) t

/-- A client's stored frames go to their queues in order (R417). -/
def clPump : Nat → State → Nat → State
  | 0, s, _ => s
  | n + 1, s, c =>
    match (s.clientX c).store with
    | [] => s
    | (q, bs) :: rest =>
      if s.get F.QM_Q_CFG_PROD_KIND q = 2 ∧ s.get F.QM_Q_CFG_PROD_INDEX q = c then
        let r := qPutBytes s q bs
        if r.2.isEmpty then
          if qRunning r.1 q then clPump n ((qClose r.1 q false).modClient c fun x => { x with store := rest }) c
          else r.1.modClient c fun x => { x with store := (q, []) :: rest }
        else r.1.modClient c fun x => { x with store := (q, r.2) :: rest }
      else s

/-- Queue q is at the other end of a MGMT tributary (R415). -/
def mgmtQueue (s : State) (q : Nat) : Bool :=
  (s.get F.QM_Q_CFG_PROD_KIND q == 1 && s.tribType (s.get F.QM_Q_CFG_PROD_INDEX q) == 3) ||
    s.liveTribs.any fun t => s.tribKind t == 5 && s.tribIndex t == q && s.tribType t == 3

/-- The queues into which QDMA has writes waiting, those of MGMT tributaries first (R415).
DEDUCED, unsafe (notes/assumptions/63). -/
def qdmaQueues (s : State) : List Nat :=
  let l := (s.qm.queue.filter fun e => !e.2.qdma.isEmpty).map fun e => e.1
  (l.filter fun q => mgmtQueue s q) ++ l.filter fun q => !mgmtQueue s q

/-- QDMA's waiting writes, as far as cells can be taken (R400, R415). -/
def qdmaServe (s : State) : State := forList (qdmaQueues s) (fun q s => qdmaPump 8 s q) s

/-- The producer of queue q writes what it holds for it (R400). -/
def qPump (s : State) (q : Nat) : State :=
  match s.get F.QM_Q_CFG_PROD_KIND q with
  | 1 => parserRun s (s.get F.QM_Q_CFG_PROD_INDEX q) q
  | 2 => clPump 300 s (s.get F.QM_Q_CFG_PROD_INDEX q)
  | 3 => qdmaServe s
  | _ => s

/-- Every producer that holds a write goes on as far as cells can be taken (R400).
DEDUCED, unsafe (notes/assumptions/63). -/
def qmPumpAll (s : State) : State :=
  let ts := (s.qm.trib.filter fun e => !e.2.intake.isEmpty).map fun e => e.1
  let cs := (s.qm.client.filter fun e => !e.2.store.isEmpty).map fun e => e.1
  let s := forList ts (fun t s =>
    match (List.range 64).find? fun q => s.get F.QM_Q_CFG_PROD_KIND q == 1 && s.get F.QM_Q_CFG_PROD_INDEX q == t with
    | some q => parserRun s t q
    | none => s) s
  qdmaServe (forList cs (fun c s => clPump 300 s c) s)

/-- The lowest-numbered queue that names tributary t as its producer.
DEDUCED, unsafe (notes/assumptions/63). -/
def producerOf (s : State) (t : Nat) : Option Nat :=
  (List.range 64).find? fun q => s.get F.QM_Q_CFG_PROD_KIND q == 1 && s.get F.QM_Q_CFG_PROD_INDEX q == t

/-! ### The receiver of a packet tributary (R408, R410) -/

/-- A stream word taken into the intake of t, at its frame's PTR or not; hunt discards it (R408, R410). -/
def takeWord (s : State) (t q w : Nat) (atPtr : Bool) : State :=
  if s.on F.QM_T_RX_HUNT t && !atPtr then s
  else if intakeFill (s.pktTrib t).intake < 1024 then
    let s := s.put F.QM_T_RX_HUNT 0 t
    parserRun (s.modPktTrib t fun x => { x with intake := x.intake ++ [w % 0x10000 + (if atPtr then 0x20000 else 0)] }) t q
  else
    let s := (s.bumpSat F.QM_T_RXCNT_INTAKE_OVF 1 t).raiseBit F.QM_EVENT_INTAKE_OVF
    let s := (s.put F.QM_T_RX_HUNT 1 t).modPktTrib t fun x => { x with intake := x.intake ++ [0x10000] }
    let s : State := { s with dm.iovfNow := if s.dm.iovfNow.contains t then s.dm.iovfNow else s.dm.iovfNow ++ [t] }
    parserRun (raise s 12 t) t q

/-- The words of a frame from index i on, the first `d` of them already received. -/
def takeWords (t q ptr : Nat) : Nat → List LineWord → State → State
  | _, [], s => s
  | i, w :: ws, s => takeWords t q ptr (i + 1) ws (takeWord s t q w.toNat (i == ptr))

/-- A PACKET or MGMT tributary received in a frame (R408): its words `ws`, its producer's queue q. -/
def qmReceive (s : State) (t q : Nat) (ws : List LineWord) : State :=
  let ptr := wordAt ws 0
  let count := wordAt ws 1
  let p := wordAt ws 2 * 32 + wordAt ws 3 % 32
  if 4 * s.tribWidth t - 4 < count ∨ 0x8000 ≤ ptr ∨ (ptr ≠ 0x7FFF ∧ count ≤ ptr) then s
  else
    let r := s.get F.QM_T_POS_POS t
    let d := (r + 2 ^ 21 - p) % 2 ^ 21
    let gap := decide (19964 < d)
    let s := if gap then
        let s := (s.bumpSat F.QM_T_RXCNT_GAPS 1 t).raiseBit F.QM_EVENT_STREAM_GAP
        (s.put F.QM_T_RX_HUNT 1 t).modPktTrib t fun x => { x with intake := x.intake ++ [0x10000] }
      else s
    let skip := if gap then 0 else min d count
    let r := if gap then p else r
    let s := s.put F.QM_T_POS_POS (r + (count - skip)) t
    let words := ((ws.drop 4).take count).drop skip
    takeWords t q ptr skip words (parserRun s t q)

/-- CFG_ERR of a MGMT tributary whose queue's other end is not QDMA (R415). -/
def mgmtErr (s : State) (t q : Nat) (other : Field) : Bool := s.tribType t == 3 && s.get other q != 3

/-- A packet tributary demapped from a frame in SYNC: to the queue that names it as producer, if there is one. -/
def qmDemap (s : State) (t : Nat) (ws : List LineWord) : State :=
  match producerOf s t with
  | none => s
  | some q =>
    let s := if mgmtErr s t q F.QM_Q_CFG_CONS_KIND then s.raiseBit F.QM_EVENT_CFG_ERR else s
    if ws.length = 4 * s.tribWidth t then qmReceive s t q ws else s

/-! ### The sender of a packet tributary (R407) -/

/-- The allowance A of R407 from the grant, before its cap in QM_T_TX. -/
def allowance (s : State) (t : Nat) : Nat :=
  if s.on F.QM_T_TX_CREDIT_SEEN t then
    let a := (32 * s.get F.QM_T_TX_G t + 2 ^ 21 - s.get F.QM_T_POS_POS t) % 2 ^ 21
    if 2 ^ 20 ≤ a then 0 else a
  else 0

/-- ALLOW as it stands. -/
def showAllow (s : State) (t : Nat) : State := s.put F.QM_T_TX_ALLOW (min 2047 (allowance s t)) t

/-- The tributaries that name queue q, in increasing order.
DEDUCED, unsafe (notes/assumptions/63). -/
def namesQueue (s : State) (q : Nat) : List Nat := s.liveTribs.filter fun t => s.tribKind t == 5 && s.tribIndex t == q

/-- Whether t is queue q's consumer (R397, R415). -/
def sendsFor (s : State) (t q : Nat) : Bool :=
  s.get F.QM_Q_CFG_CONS_KIND q == 1 && (namesQueue s q).head? == some t && !mgmtErr s t q F.QM_Q_CFG_PROD_KIND

/-- Client c is queue q's consumer (R397). -/
def clConsumes (s : State) (c q : Nat) : Bool :=
  s.get F.QM_Q_CFG_CONS_KIND q == 2 && s.on F.CL_CFG_TX_EN c && s.get F.CL_CFG_TXQ c == q &&
    !((List.range c).any fun d => s.on F.CL_CFG_TX_EN d && s.get F.CL_CFG_TXQ d == q)

/-- Queue q has a consumer of its kind (R397). -/
def hasConsumer (s : State) (q : Nat) : Bool :=
  match s.get F.QM_Q_CFG_CONS_KIND q with
  | 1 => (namesQueue s q).any fun t => sendsFor s t q
  | 2 => (List.range 4).any fun c => clConsumes s c q
  | 3 => true
  | _ => false

/-- The next stream word of t from queue q, and whether it is a header; none when none is available. -/
def sendWord (s : State) (t q : Nat) : State × Option (Nat × Bool) :=
  match (s.pktTrib t).send with
  | .between =>
    match nextPkt s q with
    | none => (s, none)
    | some l => ((beginPkt s q).modPktTrib t fun x => { x with send := .data l 0xFFFF }, some (0x8000 + l, true))
  | .data left crc =>
    let k := min 2 left
    let s := if rdCut s q then s else qFill 1 s q k
    let buf := (s.queueX q).buf
    if !rdCut s q && buf.length < k then (s, none)
    else
      let bs := if rdCut s q then List.replicate k 0 else buf.take k
      let s := s.modQueue q fun x => { x with buf := x.buf.drop k }
      let crc := crc16From crc bs
      let n := left - k
      (s.modPktTrib t fun x => { x with send := if n = 0 then .check crc else .data n crc },
        some (byteAt bs 0 * 256 + byteAt bs 1, false))
  | .check crc =>
    let w := if rdBad s q then 0xFFFF - crc else crc
    ((endPkt s q).modPktTrib t fun x => { x with send := .between }, some (w, false))

/-- Up to `n` stream words, oldest first, and the index of the first header among them.
DEDUCED, unsafe (notes/assumptions/64). -/
def sendWords : Nat → State → Nat → Nat → List LineWord → Option Nat → State × List LineWord × Option Nat
  | 0, s, _, _, acc, ptr => (s, acc, ptr)
  | n + 1, s, t, q, acc, ptr =>
    let r := sendWord s t q
    match r.2 with
    | none => (r.1, acc, ptr)
    | some (w, hdr) =>
      let ptr := if hdr && ptr.isNone then some acc.length else ptr
      sendWords n r.1 t q (acc ++ [BitVec.ofNat 16 w]) ptr

/-- The tributary words of t for the next frame (R405, R407).
DEDUCED, unsafe (notes/assumptions/64). -/
def qmAssemble (s : State) (t : Nat) : State × List LineWord :=
  let q := s.tribIndex t
  let width := s.tribWidth t
  let bad := decide (1 < (namesQueue s q).length) || mgmtErr s t q F.QM_Q_CFG_PROD_KIND
  let s := if bad then s.raiseBit F.QM_EVENT_CFG_ERR else s
  let p := s.get F.QM_T_POS_POS t
  let n := if sendsFor s t q then min (4 * width - 4) (allowance s t) else 0
  let r := sendWords n s t q [] none
  let count := r.2.1.length
  let ptr := match r.2.2 with
    | some i => i
    | none => 0x7FFF
  let ctl : List LineWord := [BitVec.ofNat 16 ptr, BitVec.ofNat 16 count, BitVec.ofNat 16 (p / 32), BitVec.ofNat 16 (p % 32)]
  (showAllow (r.1.put F.QM_T_POS_POS (p + count) t) t, (ctl ++ r.2.1 ++ List.replicate (4 * width) 0).take (4 * width))

/-- The tributary words that t carries in the local frame in progress: the same in every transmit map that names it. -/
def qmSend (s : State) (t : Nat) : State × List LineWord :=
  let x := s.pktTrib t
  if x.sentAt = some s.frameTotal then (s, x.sentWords)
  else
    let r := qmAssemble s t
    (r.1.modPktTrib t fun x => { x with sentAt := some s.frameTotal, sentWords := r.2 }, r.2)

/-- Whether the sender t has a stream word available. -/
def hasWord (s : State) (t : Nat) : Bool :=
  let q := s.tribIndex t
  sendsFor s t q && (match (s.pktTrib t).send with
    | .check _ => true
    | .between => (nextPkt s q).isSome
    | .data _ _ => rdCut s q || !(s.queueX q).buf.isEmpty || qRunning s q)

/-! ### Credit (R411–R413, R295) -/

/-- The grant of a receiving tributary (R411). -/
def grantOf (s : State) (t : Nat) : Nat :=
  ((s.get F.QM_T_POS_POS t + 2 ^ 21 - s.get F.QM_T_RX_FILL t) % 2 ^ 21 / 32 + 32) % 2 ^ 16

/-- The runs of the transmit map that port p's frames of the local frame in progress are filled from (R330, R430). -/
def sentRuns (s : State) (p : Nat) : List Run :=
  let v := s.filled
  fitRuns (slotsPerFrame (portRate s p)) (plainRuns v p 0 (activeBuf v p))

/-- Port p's transmit map names t. -/
def txNames (s : State) (p t : Nat) : Bool := (sentRuns s p).any fun r => r.trib == t

/-- The lowest-numbered port whose transmit map names t.
DEDUCED, unsafe (notes/assumptions/63). -/
def lowestTxPort (s : State) (t : Nat) : Option Nat := (List.range 16).find? fun p => txNames s p t

/-- The CC that is relayed for the forwarded tributary t: the last one received on the port that its map names (R412). -/
def relayOf (s : State) (t : Nat) : Option Nat :=
  match lowestTxPort s t with
  | none => none
  | some p => ((s.pktTrib t).relay.find? fun e => e.1 == p).map fun e => e.2

/-- What was received for a forwarded tributary on a port that no longer carries it is forgotten (R412). -/
def relayTurn (s : State) : State :=
  forList ((s.qm.trib.filter fun e => !e.2.relay.isEmpty).map fun e => e.1) (fun t s =>
    s.modPktTrib t fun x => { x with relay := x.relay.filter fun e => txNames s e.1 t }) s

/-- The credit entries that port p may send: SLOT, tributary and CC, in increasing order of SLOT.
DEDUCED, unsafe (notes/assumptions/64). -/
def creditList (s : State) (p : Nat) : List (Nat × Nat × Nat) :=
  let runs := fitRuns (slotsPerFrame (portRate s p)) (usedRuns s p)
  (runs.filter fun r => r.trib < 256 && r.j0 == 0 && rxAdmits s p r.trib && Nat.ble 2 (s.tribType r.trib)).filterMap fun r =>
    match producerOf s r.trib with
    | some _ => some (r.first, r.trib, grantOf s r.trib)
    | none => (relayOf s r.trib).map fun cc => (r.first, r.trib, cc)

/-- Words 24–27 of the frame that port p assembles, from the entries it has: the next two of the cycle, none twice
(R295). -/
def creditWords (s : State) (p : Nat) (all : List (Nat × Nat × Nat)) : State × List LineWord :=
  let last := (s.portX p).credLast
  let two := (all.filter (fun e => last < e.1 + 1) ++ all.filter fun e => !(last < e.1 + 1)).take 2
  let words := two.flatMap fun e => ([BitVec.ofNat 16 (0x8000 + e.1), BitVec.ofNat 16 e.2.2] : List LineWord)
  let s := forList two (fun e s =>
    let s := if (producerOf s e.2.1).isSome then s.put F.QM_T_RX_GRANT e.2.2 e.2.1 else s
    s.modPort p fun x => { x with credLast := e.1 + 1 }) s
  (s, (words ++ [0, 0, 0, 0]).take 4)

/-- Whether the transmit maps of two ports or more name t. -/
def onTwoPorts (s : State) (t : Nat) : Bool := Nat.ble 2 ((List.range 16).filter fun p => txNames s p t).length

/-- The grant that stands after `cc` was received: for a sender on two ports the later one (R483). -/
def laterGrant (s : State) (t cc : Nat) : Nat :=
  let g := s.get F.QM_T_TX_G t
  if s.on F.QM_T_TX_CREDIT_SEEN t && onTwoPorts s t && Nat.ble 0x8000 ((cc + 0x10000 - g) % 0x10000) then g else cc

/-- A credit entry received on port p (R407, R412, R413). -/
def creditTake (s : State) (p slot cc : Nat) : State :=
  match (sentRuns s p).find? (fun r => r.first == slot && r.j0 == 0 && r.trib < 256) with
  | none => s
  | some r =>
    let t := r.trib
    if s.tribType t < 2 then s
    else if s.tribKind t = 5 then
      let s := showAllow ((s.put F.QM_T_TX_G (laterGrant s t cc) t).put F.QM_T_TX_CREDIT_SEEN 1 t) t
      if 0 < allowance s t then s.modPktTrib t fun x => { x with starving := false } else s
    else if s.tribKind t = 1 ∧ (producerOf s t).isNone then
      s.modPktTrib t fun x => { x with relay := (p, cc) :: x.relay.filter fun e => e.1 != p }
    else s

/-! ### Starvation (R414) -/

/-- Whether this tick is the one in which the sender's count reaches LIMIT. -/
def starveDue (s : State) (t : Nat) : Bool :=
  let limit := s.get F.QM_STARVE_LIMIT
  limit != 0 && (s.pktTrib t).starving && allowance s t == 0 && !s.on F.QM_T_TX_STARVED t &&
    Nat.ble limit ((s.pktTrib t).starvedN + 1)

def starveSet (s : State) (t : Nat) : State :=
  ((s.put F.QM_T_TX_STARVED 1 t).raiseBit F.QM_EVENT_STARVED_SET).modPktTrib t fun x => { x with starvedN := x.starvedN + 1 }

/-- The sender t judged at a tick, unless STARVED_SET has done so. -/
def starveTick (s : State) (t : Nat) : State :=
  let x := s.pktTrib t
  let s := if x.judged then s.modPktTrib t fun x => { x with judged := false }
    else if starveDue s t then starveSet s t
    else if x.starving && allowance s t == 0 then s.modPktTrib t fun x => { x with starvedN := min (x.starvedN + 1) 65535 }
    else (s.put F.QM_T_TX_STARVED 0 t).modPktTrib t fun x => { x with starvedN := 0 }
  let s := if s.get F.QM_STARVE_LIMIT = 0 then
      (s.put F.QM_T_TX_STARVED 0 t).modPktTrib t fun x => { x with starvedN := 0 } else s
  let now := hasWord s t && allowance s t == 0
  s.modPktTrib t fun x => { x with starving := now }

/-- The senders of packet tributaries. -/
def qmSenders (s : State) : List Nat := s.liveTribs.filter fun t => s.tribKind t == 5

/-- Block QM at a tick. -/
def qmTick (s : State) : State := forList (qmSenders s) (fun t s => starveTick s t) (relayTurn s)

/-! ### Register writes -/

/-- What block QM refuses (R399, Table 11.4). -/
def judgeQm (s : State) (a v : Nat) : Nat :=
  if 0x40071000 ≤ a ∧ a < 0x40072000 then
    let q := (a - 0x40071000) / 0x40
    if a % 0x40 = 0 then rangeIf (bitsOf v 28 2 == 2 && Nat.blt 3 (bitsOf v 16 8))
    else if a % 0x40 = 4 then
      let max := bitsOf v 16 15
      let res := bitsOf v 0 15
      rangeIf (Nat.blt max 144 || Nat.blt max res || Nat.blt 16384 (qmResSum s - s.get F.QM_Q_LIM_RES q + res))
    else St.ok
  else St.ok

/-- What a write in block QM sets off (Table 11.1). -/
def hookQm (a v old : Nat) (s : State) : State :=
  if 0x40071000 ≤ a ∧ a < 0x40072000 ∧ a % 0x40 = 0 then
    let q := (a - 0x40071000) / 0x40
    let st := s.get F.QM_Q_STAT_STATE q
    if bitOf v 31 then
      (if st = 0 && !bitOf old 31 then qPump (s.put F.QM_Q_STAT_STATE 1 q) q else s)
    else qResetStart s q
  else s

/-- A write of a register of block QM. -/
def writeQm (s : State) (f : Field) (i v : Nat) : State := writeBy judgeQm hookQm s (f.addr i) v

/-! ### Opcodes 0x40–0x43 -/

/-- QM_RESET (R402, R422). -/
def bodyQmReset (k : JobKind) (ps : List Byte) (s : State) : Out :=
  let q := byteAt ps 0
  if 63 < q then refuse s St.badParam
  else if s.get F.QM_Q_STAT_STATE q = 0 then .done s St.ok [0, 0, 0, 0]
  else .wait ((qResetStart s q).modQueue q fun x => { x with resetJobs := x.resetJobs ++ [k] })

/-- QM_PKT_SEND (R423). -/
def bodyQmPktSend (k : JobKind) (ps : List Byte) (s : State) : Out :=
  let q := byteAt ps 0
  if 63 < q then refuse s St.badParam
  else if s.get F.QM_Q_CFG_PROD_KIND q ≠ 3 then refuse s St.wrongState
  else .wait (qdmaPump 8 (s.modQueue q fun x => { x with qdma := x.qdma ++ [(k, ps.drop 1)] }) q)

/-- QDMA takes the next packet of queue q, if there is one (R423, R437): status and data. -/
def qdmaTake (s : State) (q : Nat) : State × Nat × List Byte :=
  match nextPkt s q with
  | none => (s, St.notPresent, [])
  | some l =>
    let r := wholePkt s q
    if r.1.get F.QM_Q_STAT_STATE q = 2 then (endPkt r.1 q, St.queueReset, [])
    else
      let flags := b2n (rdBad r.1 q) + 2 * b2n (decide (4079 < l))
      let lost := openBytes (endPkt r.1 q) (l - r.2.length)
      (lost.1, St.ok, toLE 1 flags ++ toLE 2 l ++ (r.2 ++ lost.2).take 4079)

/-- The QM_PKT_RECVs that a rebuild held up, now that it has ended.
DEDUCED, unsafe (notes/assumptions/62). -/
def recvHeld (s : State) : State :=
  forList ((s.qm.queue.filter fun e => !e.2.recvJobs.isEmpty).map fun e => e.1) (fun q s =>
    forList (s.queueX q).recvJobs (fun k s =>
      let r := qdmaTake s q
      postResult r.1 k r.2.1 r.2.2) (s.modQueue q fun x => { x with recvJobs := [] })) s

/-- REBUILD_DONE as the unit carries it out. -/
def rebuildDone (s : State) (found : Nat) : State :=
  if s.qm.rebuilding then recvHeld (rebuildQueues s found) else s

/-- A reset on good lists completes. -/
def resetDone (s : State) (q : Nat) : State :=
  if s.get F.QM_Q_STAT_STATE q == 2 && !(s.queueX q).faulted then qResetDone s q else s

/-- Resets and rebuilds that end with the tick in progress, unless their rows have come: a reset takes at most 64 FCLK, a rebuild at most 48,000
(R402, R404).
DEDUCED, unsafe (notes/assumptions/89). -/
def qmTickEnd (s : State) : State :=
  let s := forList (s.qm.queue.map fun e => e.1) (fun q s => resetDone s q) s
  if !s.qm.rebuilding then s
  else if 3 ≤ s.qm.rebuildFrames then rebuildDone s 0
  else { s with qm.rebuildFrames := s.qm.rebuildFrames + 1 }

/-- QM_PKT_RECV (R423, R437): of a queue that holds packets, it waits while a rebuild holds the handshakes.
DEDUCED, unsafe (notes/assumptions/62). -/
def bodyQmPktRecv (k : JobKind) (ps : List Byte) (s : State) : Out :=
  let q := byteAt ps 0
  if 63 < q then refuse s St.badParam
  else if s.get F.QM_Q_CFG_CONS_KIND q ≠ 3 then refuse s St.wrongState
  else if s.get F.QM_Q_STAT_STATE q = 2 then refuse s St.queueReset
  else if s.qm.rebuilding && (!(s.queueX q).pkts.isEmpty || (s.queueX q).rd.isSome) then
    .wait (s.modQueue q fun x => { x with recvJobs := x.recvJobs ++ [k] })
  else
    let r := qdmaTake s q
    .done r.1 r.2.1 r.2.2

/-- QM_AUDIT (R423, R428). -/
def bodyQmAudit (s : State) : Out :=
  let free := qmFree s
  let r := (List.range 64).foldl (fun (r : State × Nat) q =>
    if r.1.get F.QM_Q_STAT_STATE q = 1 then
      let w := walkQueue r.1 q
      match w.2 with
      | some inj => (ptrFault w.1 q inj, r.2 + 1)
      | none => (w.1, r.2)
    else r) (s, 0)
  let c10 := qmCompare r.1 10 freeHeadId
  let tail := if s.qm.differ.contains freeTailId then some false else none
  let bad := c10.2.or tail
  let s := match bad with
    | some inj => freeFault c10.1 inj
    | none => c10.1
  .done s St.ok (toLE 2 (poolCells - free) ++ toLE 2 free ++ toLE 1 (r.2 + b2n bad.isSome))

/-! ### The commands -/

/-- QUEUE_EN_WRITE (R402): EN of QM_Q_CFG[q] written. -/
def execQueueEnWrite (q : Fin 64) (en : Bool) (s : State) : Host.Outcome State Fault Refusal :=
  act s (writeQm s F.QM_Q_CFG q (insertBits (s.get F.QM_Q_CFG q) 31 1 (b2n en)))

/-- QUEUE_WRITE_ACCEPT (R400, R403): the producer's held write goes on as far as cells can be taken. -/
def execQueueWriteAccept (q : Fin 64) (upset : PtrUpset) (s : State) : Host.Outcome State Fault Refusal :=
  act s (qPump (ptrUpset s upset (tailId q) (tailId q) freeHeadId) q)

/-- QUEUE_READ (R397, R401, R403): the consumer reads the next word of its packet; a difference between the two copies of the
link, or of the pointers, is a pointer fault. A word that would begin another packet waits for the one in hand. -/
def execQueueRead (q : Fin 64) (upset : PtrUpset) (s : State) : Host.Outcome State Fault Refusal :=
  let busy := match (s.queueX q).rd with
    | some r => r.left == 0
    | none => false
  let c := match (s.queueX q).pkts with
    | p :: _ => p.cells.headD 0
    | [] => headId q
  act s (if busy || !qRunning s q || !hasConsumer s q || (s.queueX q).pkts.isEmpty then s
  else (qReadWord (ptrUpset s upset c (headId q) freeTailId) q).1)

/-- REBUILD_DONE (R404); `found` names the queues whose walk finds a defect of the lists that nothing has shown before. -/
def execRebuildDone (found : BitVec 64) (s : State) : Host.Outcome State Fault Refusal :=
  act s (rebuildDone s found.toNat)

/-- QUEUE_RESET_DONE (R402): a reset on good lists completes. -/
def execQueueResetDone (q : Fin 64) (s : State) : Host.Outcome State Fault Refusal := act s (resetDone s q)

/-- STARVED_SET (R414, R426): at the tick in which the count of starved ticks reaches LIMIT.
DESIGN CHOICE, unsafe (notes/assumptions/107). -/
def execStarvedSet (t : Byte) (s : State) : Host.Outcome State Fault Refusal :=
  act s (if !(s.pktTrib t.toNat).judged && starveDue s t.toNat then
    (starveSet s t.toNat).modPktTrib t.toNat fun x => { x with judged := true }
  else s)

end Sys2Proof.Machine
end

