-- ==== Sys2Proof/Machine/Cl.lean ====
section
/-!
DEFINITION. Machine/Cl.lean: client ports (chapter 11): reception and classification, PAUSE, transmission, link and
auto-negotiation.
-/
namespace Sys2Proof.Machine

/-! ### Link (R416) -/

/-- Client c's link goes down; what was resolved for it ends, and a packet in transmission counts in CL_TX_ERR (R435).
DEDUCED, unsafe (notes/assumptions/66). -/
def linkDown (s : State) (c : Nat) : State :=
  let s := if s.on F.CL_STATUS_LINK c then (s.put F.CL_STATUS_LINK 0 c).raiseBit F.CL_EVENT_LINK_DOWN c else s
  let s := (((s.put F.CL_STATUS_AN_DONE 0 c).put F.CL_STATUS_TX_PAUSE 0 c).put F.CL_STATUS_RX_PAUSE 0 c)
  let s := (s.put F.CL_STATUS_PAUSED 0 c).put F.CL_STATUS_XOFF_SENT 0 c
  let s := if (s.clientX c).lineLeft != 0 && (s.clientX c).linePkt then s.bumpSat F.CL_TX_ERR 1 c else s
  s.modClient c fun x => { x with pauseLeft := 0, refresh := 0, lineLeft := 0, linePkt := false }

/-- 1000BASE-X with AN_EN = 1: Clause 37 runs. -/
def clNegotiates (s : State) (c : Nat) : Bool := !s.on F.CL_CFG_MODE c && s.on F.CL_CFG_AN_EN c

/-! ### Reception (R417–R419) -/

/-- Client c's own address, first byte first. -/
def clMac (s : State) (c : Nat) : List Byte :=
  let hi := s.get F.CL_MAC_HI_ADDR c
  let lo := s.get F.CL_MAC_LO c
  [BitVec.ofNat 8 (hi / 256), BitVec.ofNat 8 hi, BitVec.ofNat 8 (lo / 0x1000000), BitVec.ofNat 8 (lo / 0x10000),
   BitVec.ofNat 8 (lo / 256), BitVec.ofNat 8 lo]

/-- The multicast address of PAUSE. -/
def pauseAddr : List Byte := [0x01, 0x80, 0xC2, 0x00, 0x00, 0x01]

/-- A big-endian pair of bytes. -/
def be16 (bs : List Byte) (i : Nat) : Nat := byteAt bs i * 256 + byteAt bs (i + 1)

/-- Bytes that the store holds. -/
def storeFill (s : State) (c : Nat) : Nat := (s.clientX c).store.foldl (fun n e => n + e.2.length) 0

/-- A received PAUSE acted on (R419, R434): the transmitter is held for QUANTA × 512 bit times. -/
def takePause (s : State) (c quanta : Nat) : State :=
  if s.on F.CL_CFG_RX_PAUSE_EN c && (!clNegotiates s c || s.on F.CL_STATUS_RX_PAUSE c) then
    (s.put F.CL_STATUS_PAUSED (b2n (quanta != 0)) c).modClient c fun x => { x with pauseLeft := quanta * 1024 }
  else s

/-- The queue that R418 gives a frame; none where it is discarded.
DEDUCED, unsafe (notes/assumptions/65). -/
def classify (s : State) (c : Nat) (bs : List Byte) : Option Nat :=
  let dflt := s.get F.CL_CFG_DEF_Q c
  if !s.on F.CL_CFG_CLASS c then some dflt
  else
    let hit := if be16 bs 12 = 0x8100 then
        (List.range 16).find? fun j => s.on F.CL_VLAN_VALID c j && s.get F.CL_VLAN_VID c j == be16 bs 14 % 4096
      else none
    match hit with
    | some j => some (s.get F.CL_VLAN_Q c j)
    | none => if s.on F.CL_CFG_DEF_DROP c then none else some dflt

/-- A frame that the store keeps goes to its queue (R417, R418).
DEDUCED, unsafe (notes/assumptions/65). -/
def queueFrame (s : State) (c : Nat) (bs : List Byte) : State :=
  match classify s c bs with
  | none => s.bumpSat F.CL_RX_NOMATCH 1 c
  | some q =>
    if s.get F.QM_Q_CFG_PROD_KIND q = 2 ∧ s.get F.QM_Q_CFG_PROD_INDEX q = c then
      clPump 300 (s.modClient c fun x => { x with store := x.store ++ [(q, bs)] }) c
    else (s.bumpSat F.CL_RX_NOMATCH 1 c).raiseBit F.QM_EVENT_CFG_ERR

/-- A whole frame received, from its destination address through its FCS (R417).
DEDUCED, unsafe (notes/assumptions/65). -/
def clReceive (s : State) (c : Nat) (frame : List Byte) : State :=
  let n := frame.length
  let bs := frame.take (n - 4)
  if leAt frame (n - 4) 4 ≠ crc32 bs then s.bumpSat F.CL_RX_FCS_ERR 1 c
  else if n < 64 ∨ 9216 < n then s.bumpSat F.CL_RX_LEN_ERR 1 c
  else if be16 bs 12 = 0x8808 then
    (if be16 bs 14 = 1 ∧ (bs.take 6 = pauseAddr ∨ bs.take 6 = clMac s c) then
      takePause (s.bumpSat F.CL_PAUSE_RX 1 c) c (be16 bs 16)
    else s.bumpSat F.CL_RX_CTRL 1 c)
  else if 16384 < storeFill s c + n then
    raise ((s.bumpSat F.CL_RX_OVF 1 c).raiseBit F.CL_EVENT_RX_OVF c) 13 c
  else
    let s := (s.bump64 F.CL_RX_FRAMES 1 c).bump64 F.CL_RX_BYTES bs.length c
    queueFrame s c bs

/-! ### Transmission (R419, R420) -/

/-- Half bit times for which a frame of `n` bytes keeps the line: its preamble and the gap after it with it (IEEE 802.3).
PRESUMED, unsafe (notes/assumptions/106). -/
def lineTime (n : Nat) : Nat := (8 + n + 12) * 16

/-- A frame put on CTX.
PRESUMED, unsafe (notes/assumptions/106). -/
def putOnLine (s : State) (c : Nat) (frame : List Byte) (pkt : Bool) : State :=
  s.modClient c fun x => { x with sent := frame, lineLeft := lineTime frame.length, linePkt := pkt }

/-- Client c's line is free (R436), and no test-port instruction owns its balls (R76).
PRESUMED, unsafe (notes/assumptions/106). -/
def lineFree (s : State) (c : Nat) : Bool := (s.clientX c).lineLeft == 0 && !s.tapOwns

/-- A packet as CTX sends it: padded to 60 bytes, with its FCS, inverted for a packet with ERR (R420). -/
def txFrame (bs : List Byte) (err : Bool) : List Byte :=
  let bs := bs ++ List.replicate (60 - bs.length) 0
  let f := crc32 bs
  bs ++ toLE 4 (if err then 0xFFFFFFFF - f else f)

/-- The next packet of TXQ taken and sent on a free line, or discarded while the link is down (R420, R435). -/
def clTransmit (s : State) (c : Nat) : State :=
  let q := s.get F.CL_CFG_TXQ c
  if !clConsumes s c q || !s.on F.CL_CFG_EN c || s.on F.CL_STATUS_PAUSED c || !lineFree s c then s
  else
    match nextPkt s q with
    | none => s
    | some l =>
      let r := wholePkt s q
      let bad := rdBad r.1 q
      if r.1.get F.QM_Q_STAT_STATE q = 2 then r.1
      else
        let lost := openBytes (endPkt r.1 q) (l - r.2.length)
        let s := lost.1
        if !s.on F.CL_STATUS_LINK c then s.bumpSat F.CL_TX_ERR 1 c
        else
          let frame := txFrame (r.2 ++ lost.2) bad
          let s := if bad then s.bumpSat F.CL_TX_ERR 1 c else s
          let s := (s.bump64 F.CL_TX_FRAMES 1 c).bump64 F.CL_TX_BYTES (frame.length - 4) c
          putOnLine s c frame true

/-- The queues whose producer is client c. -/
def clQueues (s : State) (c : Nat) : List Nat :=
  (List.range 64).filter fun q => s.get F.QM_Q_CFG_PROD_KIND q == 2 && s.get F.QM_Q_CFG_PROD_INDEX q == c

/-- Some queue of client c is below XOFF; every one is at XON (R419). -/
def belowXoff (s : State) (c : Nat) : Bool := (clQueues s c).any fun q => Nat.blt (qFree s q) (s.get F.CL_PAUSE_THR_XOFF c)
def atXon (s : State) (c : Nat) : Bool := (clQueues s c).all fun q => Nat.ble (s.get F.CL_PAUSE_THR_XON c) (qFree s q)

/-- A PAUSE frame from the client's address. -/
def pauseFrame (s : State) (c quanta : Nat) : List Byte :=
  txFrame (pauseAddr ++ clMac s c ++ [0x88, 0x08, 0x00, 0x01, BitVec.ofNat 8 (quanta / 256), BitVec.ofNat 8 quanta]) false

/-- A PAUSE sent (R419). -/
def sendPause (s : State) (c quanta : Nat) : State :=
  (putOnLine (s.bumpSat F.CL_PAUSE_TX 1 c) c (pauseFrame s c quanta) false).modClient c fun x => { x with
    sentPause := some quanta, refresh := quanta * 512 }

/-- Client c can send a PAUSE frame now: what is in force when the line is free is what goes out (R436). -/
def clPauses (s : State) (c : Nat) : Bool :=
  s.on F.CL_CFG_EN c && s.on F.CL_CFG_TX_PAUSE_EN c && s.on F.CL_STATUS_LINK c && lineFree s c

def pauseXoff (s : State) (c : Nat) : State :=
  if clPauses s c && !s.on F.CL_STATUS_XOFF_SENT c && belowXoff s c then
    (sendPause s c (s.get F.CL_PAUSE_Q_QUANTA c)).put F.CL_STATUS_XOFF_SENT 1 c
  else s

/-- The PAUSE sent again when half its time has passed and a queue is still below XOFF.
DEDUCED, unsafe (notes/assumptions/66). -/
def pauseRefresh (s : State) (c : Nat) : State :=
  if clPauses s c && s.on F.CL_STATUS_XOFF_SENT c && (s.clientX c).refresh == 0 && belowXoff s c then
    sendPause s c (s.get F.CL_PAUSE_Q_QUANTA c)
  else s

def pauseXon (s : State) (c : Nat) : State :=
  if clPauses s c && s.on F.CL_STATUS_XOFF_SENT c && atXon s c then
    (sendPause s c 0).put F.CL_STATUS_XOFF_SENT 0 c
  else s

/-- The end of a received pause. -/
def pauseEnd (s : State) (c : Nat) : State :=
  if s.on F.CL_STATUS_PAUSED c then
    (s.put F.CL_STATUS_PAUSED 0 c).modClient c fun x => { x with pauseLeft := 0 }
  else s

/-- Half bit times of one FCLK cycle. -/
def halfBits (s : State) (c : Nat) : Nat := if s.on F.CL_CFG_MODE c then 50 else 5

/-- One FCLK cycle of client c's times (R419), and the PAUSE frame that falls due: one at most, since it takes the line. -/
def clCycle (s : State) (c : Nat) : State :=
  let h := halfBits s c
  let x := s.clientX c
  let s := if x.pauseLeft = 0 then s
    else if x.pauseLeft ≤ h then pauseEnd s c
    else s.modClient c fun x => { x with pauseLeft := x.pauseLeft - h }
  let s := if x.refresh = 0 ∧ x.lineLeft = 0 then s
    else s.modClient c fun x => { x with refresh := x.refresh - h, lineLeft := x.lineLeft - h }
  pauseRefresh (pauseXon (pauseXoff s c) c) c

/-! ### Register writes -/

/-- What block CL refuses (R419). -/
def judgeCl (_ : State) (a v : Nat) : Nat :=
  if a % 0x100 = 0x0C then rangeIf (Nat.blt (bitsOf v 16 15) (bitsOf v 0 15)) else St.ok

/-- What a write in block CL sets off (R416, Table 11.5).
DEDUCED, unsafe (notes/assumptions/66). -/
def hookCl (a v _old : Nat) (s : State) : State :=
  let c := (a - 0x40080000) / 0x100
  if a % 0x100 = 0 then (if bitOf v 31 then s else linkDown s c)
  else if a % 0x100 = 0xC0 ∧ bitOf v 0 then
    s.clearRegs fun b => Nat.ble (0x40080000 + 0x100 * c + 0xA0) b && Nat.blt b (0x40080000 + 0x100 * c + 0xC0)
  else s

/-- A write of a register of block CL. -/
def writeCl (s : State) (f : Field) (i v : Nat) : State := writeBy judgeCl hookCl s (f.addr i) v

/-! ### Opcode 0x44 -/

/-- CL_AN_RESTART (R423). -/
def bodyClAnRestart (ps : List Byte) (s : State) : Out :=
  let c := byteAt ps 0
  if 3 < c then refuse s St.badParam
  else if !clNegotiates s c then refuse s St.wrongState
  else .done (((s.put F.CL_STATUS_AN_DONE 0 c).put F.CL_STATUS_TX_PAUSE 0 c).put F.CL_STATUS_RX_PAUSE 0 c) St.ok []

/-! ### The commands -/

/-- CLIENT_FRAME_RECEIVE (R417): a whole frame, through its FCS, on a link that is up. -/
def execClientFrameReceive (c : Fin 4) (frame : List Byte) (s : State) : Host.Outcome State Fault Refusal :=
  act s (if s.on F.CL_CFG_EN c && s.on F.CL_STATUS_LINK c && !s.tapOwns then settle (clReceive s c frame) else s)

/-- PAUSE_XOFF (R419). -/
def execPauseXoff (c : Fin 4) (s : State) : Host.Outcome State Fault Refusal := act s (pauseXoff s c)

/-- PAUSE_XON (R419). -/
def execPauseXon (c : Fin 4) (s : State) : Host.Outcome State Fault Refusal := act s (pauseXon s c)

/-- CLIENT_TRANSMIT (R420). -/
def execClientTransmit (c : Fin 4) (s : State) : Host.Outcome State Fault Refusal := act s (clTransmit s c)

/-- LINK_CHANGE (R416): an enabled client's link comes up, with CREFCLK there, or goes down. -/
def execLinkChange (c : Fin 4) (up : Bool) (s : State) : Host.Outcome State Fault Refusal :=
  act s (if !up then linkDown s c
  else if s.on F.CL_CFG_EN c && s.on F.CL_STATUS_CREF_OK c && !s.on F.CL_STATUS_LINK c then
    (s.put F.CL_STATUS_LINK 1 c).raiseBit F.CL_EVENT_LINK_UP c
  else s)

/-- CREF_LOST (R82, R416): every client goes link-down. -/
def execCrefLost (s : State) : Host.Outcome State Fault Refusal :=
  .next (if s.chip.held then { s with chip.crefBad := true }
    else settle (forN 4 (fun c s => linkDown s c) (refreshCref { s with chip.crefBad := true })))

/-- CREFCLK_RETURN (R416). -/
def execCrefclkReturn (s : State) : Host.Outcome State Fault Refusal :=
  .next (if s.chip.held then { s with chip.crefBad := false } else settle (refreshCref { s with chip.crefBad := false }))

/-- AN_DONE (R416): the pause abilities are resolved. -/
def execAnDone (c : Fin 4) (tx rx : Bool) (s : State) : Host.Outcome State Fault Refusal :=
  act s (if s.on F.CL_CFG_EN c && clNegotiates s c && s.on F.CL_STATUS_CREF_OK c then
    (((s.put F.CL_STATUS_AN_DONE 1 c).put F.CL_STATUS_TX_PAUSE (b2n tx) c).put F.CL_STATUS_RX_PAUSE (b2n rx) c).raiseBit
      F.CL_EVENT_AN_DONE c
  else s)

/-- CL_CNT_CLR (R425). -/
def execClCntClr (c : Fin 4) (s : State) : Host.Outcome State Fault Refusal := act s (writeCl s F.CL_CMD c 1)

end Sys2Proof.Machine
end

