-- ==== Sys2Proof/Machine/Dm.lean ====
section
/-!
DEFINITION. Machine/Dm.lean: defects and their consequent actions, counters and performance history (chapter 12).
-/
namespace Sys2Proof.Machine

/-! ### Port defects (R438, R441) -/

/-- A reported, and a declared, defect of port p (Table 12.1). -/
def defRep (s : State) (p d : Nat) : Bool := (s.get F.DM_PSTATUS_DEF p).testBit d
def defDecl (s : State) (p d : Nat) : Bool := (s.get F.DM_PRAW p).testBit d

/-- A declared defect set or cleared. -/
def setDecl (s : State) (p d : Nat) (b : Bool) : State :=
  s.put F.DM_PRAW (insertBits (s.get F.DM_PRAW p) d 1 (b2n b)) p

/-- Some group that holds port p reports its differential delay exceeded (R479). -/
def ddeRaw (s : State) (p : Nat) : Bool :=
  (List.range 8).any fun u =>
    (psKind s u == 1 || psKind s u == 2) && s.on F.PS_GSTAT_DDE u && (sidePort s u 0 == p || sidePort s u 1 == p)

/-- The raw condition of a defect that DM samples at a tick. -/
def rawCond (s : State) (p d : Nat) : Bool :=
  match d with
  | 0 => s.on F.LP_STATUS_LOS_RAW p
  | 1 => !s.on F.LP_STATUS_CDR_LOCK p
  | 2 => !s.on F.LP_STATUS_CODE_SYNC p || (s.get F.LP_CTRL_RATE p == 3 && s.on F.LP_STATUS_HI_BER p)
  | 3 => !portInSync s p
  | 4 => s.on F.LF_PSTATUS_LOF p
  | 5 => s.on F.LF_PSTATUS_LOM p
  | 11 => s.dm.slipNow.testBit p || s.dm.slipTx.testBit p
  | 12 => s.dm.qlNow.testBit p
  | 13 => ddeRaw s p
  | _ => false

/-- Consecutive samples that set a defect, and that clear it; none for the defects judged frame by frame. -/
def defLimits (d : Nat) : Option (Nat × Nat) :=
  match d with
  | 0 | 13 => some (3, 96)
  | 1 | 2 => some (3, 32)
  | 3 | 4 | 5 => some (1, 1)
  | 11 | 12 => some (1, 31250)
  | _ => none

def defCnt (s : State) (k : Nat) : DefCnt := SMap.get defDflt s.dm.cnt k
def setDefCnt (s : State) (k : Nat) (c : DefCnt) : State := { s with dm.cnt := SMap.set defDflt s.dm.cnt k c }

/-- What one more sample makes of a defect: 1 it is declared, 2 it clears, 0 it stays. -/
def sampleVerdict (declared raw : Bool) (c : DefCnt) (lim : Nat × Nat) : Nat :=
  if !declared && raw && Nat.ble lim.1 (c.a + 1) then 1
  else if declared && !raw && Nat.ble lim.2 (c.b + 1) then 2
  else 0

/-- The counts after a sample. -/
def sampleCount (raw : Bool) (c : DefCnt) : DefCnt :=
  if raw then { a := min (c.a + 1) 31250, b := 0 } else { a := 0, b := min (c.b + 1) 31250 }

/-- One sample of a sampled port defect. -/
def defSample (s : State) (p d : Nat) : State :=
  match defLimits d with
  | none => s
  | some lim =>
    let c := defCnt s (16 * p + d)
    let raw := rawCond s p d
    let v := sampleVerdict (defDecl s p d) raw c lim
    let s := setDefCnt s (16 * p + d) (sampleCount raw c)
    if v = 0 then s else setDecl s p d (v == 1)

/-- TIM ends when TIM_EN is 0 or the expected trace equals the accepted one (Table 12.1). -/
def timEnd (s : State) (p : Nat) : State :=
  if defDecl s p 8 && (!s.on F.DM_PCFG_TIM_EN p || traceBytes s F.LF_RX_TRACE p == traceBytes s F.DM_EXP_TRACE p) then
    setDecl s p 8 false
  else s

/-! ### Masking and reports (R439, R459, R460) -/

/-- The defects that mask a defect (Table 12.1), as a mask. -/
def maskedBy (d : Nat) : Nat :=
  match d with
  | 0 => 0
  | 1 => 0x0001
  | 2 => 0x0003
  | 3 | 4 => 0x0007
  | 5 | 6 | 11 | 13 => 0x0017
  | _ => 0x0057

/-- The reported defects of a set of declared ones: lower bits mask higher ones. -/
def reportedOf (decl : Nat) : Nat :=
  (List.range 14).foldl (fun rep d => if decl.testBit d && rep &&& maskedBy d == 0 then rep + 2 ^ d else rep) 0

/-- One rise of reported defect d counted (Table 12.9). -/
def countRise (s : State) (p d : Nat) : State :=
  s.bumpSat (if d % 2 = 0 then F.DM_POCC_EVEN else F.DM_POCC_ODD) 1 p (d / 2)

/-- Signal fail and signal degrade of port p (R448), from its reported defects. -/
def sfOf (s : State) (p rep : Nat) : Bool :=
  rep &&& 0x0451 != 0 || (rep.testBit 8 && s.on F.DM_PCFG_AIS_ON_TIM p)
def sdOf (s : State) (p rep : Nat) : Bool := !sfOf s p rep && rep.testBit 9

/-- The reports of port p brought in line with its declared defects: events, counts, SF, SD and RDI (R447). -/
def portReport (s : State) (p : Nat) : State :=
  let old := s.get F.DM_PSTATUS_DEF p
  let rep := reportedOf (s.get F.DM_PRAW p)
  let rise := rep &&& (0x3FFF - old)
  let fall := old &&& (0x3FFF - rep)
  let s := s.put F.DM_PEVENT (s.get F.DM_PEVENT p ||| rise ||| fall * 2 ^ 16) p
  let s := forN 14 (fun d s => if rise.testBit d then countRise s p d else s) s
  ((s.put F.DM_PSTATUS_DEF rep p).put F.DM_PSTATUS_SF (b2n (sfOf s p rep)) p).put F.DM_PSTATUS_SD (b2n (sdOf s p rep)) p

/-- What port p sends in word 8 bit 15 after this tick (R447). -/
def rdiDue (s : State) (p : Nat) : Bool :=
  let rep := s.get F.DM_PSTATUS_DEF p
  rep &&& 0x0051 != 0 || (rep.testBit 8 && s.on F.DM_PCFG_RDI_ON_TIM p) || s.on F.DM_PCFG_RDI_FORCE p

/-! ### Frames (R441, R443, R445) -/

/-- Whether a frame carries the AIS pattern in every payload slot (R445). -/
def carriesAis (rate : Nat) (ws : List LineWord) : Bool :=
  (List.range (slotsPerFrame rate)).all fun m =>
    match frameSlot ws m with
    | [a, b, c, d] => a == 0xFFFF && b == 0xFFFF && c == 0xFFFF && d.toNat % 256 == 0xFF
    | _ => false

/-- A defect counted in frames: `n` in a row set it, `n` in a row without clear it. -/
def frameDefect (s : State) (p d n : Nat) (raw : Bool) : State :=
  let c := defCnt s (16 * p + d)
  let v := sampleVerdict (defDecl s p d) raw c (n, n)
  let s := setDefCnt s (16 * p + d) (sampleCount raw c)
  if v = 0 then s else setDecl s p d (v == 1)

/-- W(n) (Table 12.3). -/
def windowLength (rate n : Nat) : Nat :=
  let row : List Nat := match n with
    | 5 => [32, 16, 8, 4]
    | 6 => [313, 157, 79, 32]
    | 7 => [3125, 1563, 782, 313]
    | 8 => [31250, 15625, 7813, 3125]
    | _ => [312500, 156250, 78125, 31250]
  row.getD rate 1

/-- The window of SD (false) or EXC (true) of port p: its key and its exponent. -/
def winKey (p : Nat) (exc : Bool) : Nat := 2 * p + b2n exc
def winOf (s : State) (p : Nat) (exc : Bool) : BipWin := SMap.get winDflt s.dm.win (winKey p exc)
def setWin (s : State) (p : Nat) (exc : Bool) (w : BipWin) : State :=
  { s with dm.win := SMap.set winDflt s.dm.win (winKey p exc) w }
def winLength (s : State) (p : Nat) (exc : Bool) : Nat :=
  windowLength (s.get F.LP_CTRL_RATE p) (if exc then s.get F.DM_PCFG_EXC_EXP p else s.get F.DM_PCFG_SD_EXP p)

/-- Whether the window has its length. -/
def winDue (s : State) (p : Nat) (exc : Bool) : Bool := Nat.ble (winLength s p exc) (winOf s p exc).frames

/-- The end of a window (R443). -/
def winEnd (s : State) (p : Nat) (exc : Bool) : State :=
  let sum := (winOf s p exc).sum
  let d := if exc then 10 else 9
  let s := setWin s p exc {}
  if 10 ≤ sum then setDecl s p d true else if sum ≤ 1 then setDecl s p d false else s

/-- A compared frame's count in one window; while LOF is declared the window does not run. -/
def winFrame (s : State) (p : Nat) (exc : Bool) (n : Nat) : State :=
  if defDecl s p 4 then s
  else
    let w := winOf s p exc
    let s := setWin s p exc { frames := w.frames + 1, sum := w.sum + n }
    if winDue s p exc then winEnd s p exc else s

/-- A frame received in SYNC on port p: AIS, RDI, QL, REI, and the BIP count `bip` where there is one. -/
def dmFrame (s : State) (p : Nat) (ws : List LineWord) (bip : Option Nat) : State :=
  let s := frameDefect s p 6 3 (carriesAis (s.get F.LP_CTRL_RATE p) ws)
  let s := frameDefect s p 7 5 (wordAt ws 8 / 2 ^ 15 == 1)
  let ql := wordAt ws 9 / 2 ^ 12
  let changed := s.dm.qlSeen.testBit p && s.get F.DM_QL_QL p != ql
  let s := (if changed then s.bumpSat F.DM_QL_QL_CHG 1 p else s).put F.DM_QL_QL ql p
  let s : State := { s with
    dm.qlSeen := s.dm.qlSeen ||| 2 ^ p
    dm.qlNow := if changed then s.dm.qlNow ||| 2 ^ p else s.dm.qlNow }
  let rei := reiOf ws
  let s := s.bumpSat F.DM_REI_CNT rei p
  let s := modPm s p fun x => { x with rei := x.rei + rei, reiFrames := x.reiFrames + b2n (rei != 0) }
  match bip with
  | none => s
  | some n =>
    let s := s.bumpSat F.DM_BIP_CNT n p
    let s := modPm s p fun x => { x with bip := x.bip + n, errFrames := x.errFrames + b2n (n != 0) }
    winFrame (winFrame s p false n) p true n

/-- The consequent-action pattern is due in the slots of a tributary received from port p (R446). -/
def aisDue (s : State) (p : Nat) : Bool :=
  !portInSync s p || (defRep s p 8 && s.on F.DM_PCFG_AIS_ON_TIM p) || (defRep s p 10 && s.on F.DM_PCFG_AIS_ON_EXC p)

/-! ### Tributary defects (R449) -/

/-- The raw condition of a tributary defect (Table 12.2). -/
def tribRaw (s : State) (t d : Nat) : Bool :=
  match d with
  | 0 => s.dm.crcNow.contains t
  | 1 => s.on F.XC_TRIB_STAT_STALE t
  | 2 => s.dm.iovfNow.contains t
  | _ => s.on F.QM_T_TX_STARVED t

def tribLimits (d : Nat) : Nat × Nat :=
  match d with
  | 0 => (3, 96)
  | 2 => (1, 31250)
  | _ => (1, 1)

def tribDecl (s : State) (t d : Nat) : Bool := (s.get F.DM_TDEF_DECL t).testBit d

/-- One sample of a tributary defect. -/
def tribSample (s : State) (t d : Nat) : State :=
  let k := 4096 + 4 * t + d
  let c := defCnt s k
  let raw := tribRaw s t d
  let v := sampleVerdict (tribDecl s t d) raw c (tribLimits d)
  let s := setDefCnt s k (sampleCount raw c)
  if v = 0 then s else s.put F.DM_TDEF_DECL (insertBits (s.get F.DM_TDEF_DECL t) d 1 (b2n (v == 1))) t

/-- The reports of tributary t: masked, but for IOVF, while its source port is in SF. -/
def tribReport (s : State) (t : Nat) : State :=
  let old := s.get F.DM_TDEF_REP t
  let decl := s.get F.DM_TDEF_DECL t
  let rep := if s.tribKind t == 1 && s.on F.DM_PSTATUS_SF (s.tribIndex t) then decl &&& 4 else decl
  let s := s.put F.DM_TDEF_REP rep t
  if rep &&& (15 - old) = 0 then s
  else (s.put F.DM_TSET (s.get F.DM_TSET (t / 32) ||| 2 ^ (t % 32)) (t / 32)).raiseBit F.DM_EVENT_TRIB_DEF

/-- The tributaries that have a context, a defect or a count. -/
def watchedTribs (s : State) : List Nat :=
  let extra := s.dm.cnt.filterMap fun e => if 4096 ≤ e.1 then some ((e.1 - 4096) / 4) else none
  let all := s.liveTribs ++ extra ++ s.dm.crcNow ++ s.dm.iovfNow
  all.foldl (fun l t => if l.contains t then l else l ++ [t]) []

/-! ### A tick -/

/-- Port p holds something that a tick must look at. -/
def portWatched (s : State) (p : Nat) : Bool :=
  portRunning s p || s.get F.DM_PRAW p != 0 || s.get F.DM_PSTATUS p != 0 ||
    s.dm.cnt.any (fun e => e.1 / 16 == p && Nat.blt e.1 4096) || s.dm.win.any fun e => e.1 / 2 == p

/-- Port p's defects at a tick (R438): those of a port that is not RUNNING are clear, with their counts at 0. -/
def portTick (s : State) (p : Nat) : State :=
  let s := if !portRunning s p then
      { s.put F.DM_PRAW 0 p with
        dm.cnt := SMap.restrict (fun k => k / 16 != p || decide (4096 ≤ k)) s.dm.cnt
        dm.win := SMap.restrict (fun k => k / 2 != p) s.dm.win }
    else
      let s := forN 14 (fun d s => defSample s p d) s
      let s := timEnd s p
      if defDecl s p 4 then
        setDecl (setDecl (setWin (setWin s p false {}) p true {}) p 9 false) p 10 false
      else s
  let s := portReport s p
  s.modPort p fun x => { x with rdi := rdiDue s p }

/-- Tributary t's defects at a tick (R449). -/
def tribTick (s : State) (t : Nat) : State := tribReport (forN 4 (fun d s => tribSample s t d) s) t

/-- The tick's part of the PM second in progress: defects reported, RUNNING seen. -/
def pmTick (s : State) (p : Nat) : State :=
  modPm s p fun x => { x with defs := x.defs ||| s.get F.DM_PSTATUS_DEF p, ran := x.ran || portRunning s p }

/-- Block DM at a tick: ports, then tributaries, but for those that a row has judged for this tick.
DEDUCED, unsafe (notes/assumptions/89). -/
def dmTick (s : State) : State :=
  let s := forN 16 (fun p s =>
    let s := if s.dm.judged.testBit p then s
      else if portWatched s p then portTick s p
      else s.modPort p fun x => { x with rdi := rdiDue s p }
    pmTick s p) s
  let s := forList ((watchedTribs s).filter fun t => !s.dm.judgedT.contains t) (fun t s => tribTick s t) s
  { s with
    dm.slipNow := 0, dm.slipTx := 0, dm.qlNow := 0, dm.crcNow := [], dm.iovfNow := [], dm.judged := 0, dm.judgedT := [] }

/-! ### Performance history (R450–R453) -/

def secRec (s : State) (p seq : Nat) : SecRec := SMap.get secDflt s.dm.secs (900 * p + seq % 900)
def setSec (s : State) (p seq : Nat) (r : SecRec) : State :=
  { s with dm.secs := SMap.set secDflt s.dm.secs (900 * p + seq % 900) r }

/-- A record's part in a bin, added (true) or taken away. -/
def binCount (b : BinRec) (r : SecRec) (add : Bool) : BinRec :=
  let upd (n k : Nat) : Nat := if add then n + k else n - k
  let ok := b2n (!r.uas)
  { b with
    seconds := upd b.seconds 1
    es := upd b.es (b2n r.es * ok), ses := upd b.ses (b2n r.ses * ok), uas := upd b.uas (b2n r.uas)
    feEs := upd b.feEs (b2n r.feEs * ok), feSes := upd b.feSes (b2n r.feSes * ok)
    bip := min (upd b.bip r.bip) 0xFFFFFFFF, rei := min (upd b.rei r.rei) 0xFFFFFFFF
    cv := min (upd b.cv r.cv) 0xFFFFFFFF, slips := min (upd b.slips r.slips) 0xFFFFFFFF
    defSecs := upd b.defSecs (b2n (r.defs != 0))
    part := b.part || Nat.blt r.ticks 31250 || r.off }

/-- The flags that follow UAS, in a bin that holds the record. -/
def binFlags (b : BinRec) (old new : SecRec) : BinRec :=
  let upd (n : Nat) (f : SecRec → Bool) : Nat := n + b2n (f new && !new.uas) - b2n (f old && !old.uas)
  { b with
    es := upd b.es fun r => r.es
    ses := upd b.ses fun r => r.ses
    feEs := upd b.feEs fun r => r.feEs
    feSes := upd b.feSes fun r => r.feSes
    uas := b.uas + b2n new.uas - b2n old.uas }

def binAt (s : State) (p n : Nat) : BinRec := SMap.get binDflt s.dm.bins (96 * p + n % 96)
def setBin (s : State) (p n : Nat) (b : BinRec) : State :=
  { s with dm.bins := SMap.set binDflt s.dm.bins (96 * p + n % 96) b }
def dayAt (s : State) (p n : Nat) : BinRec := SMap.get binDflt s.dm.days (7 * p + n % 7)
def setDay (s : State) (p n : Nat) (b : BinRec) : State :=
  { s with dm.days := SMap.set binDflt s.dm.days (7 * p + n % 7) b }

/-- UAS of the record of SEQ `seq` revised, in the record and in the bins that hold it (R452, R463).
DEDUCED, unsafe (notes/assumptions/67). -/
def reviseUas (s : State) (p : Nat) (uas : Bool) (seq : Nat) : State :=
  let old := secRec s p seq
  let new := { old with uas := uas && !old.off }
  if !old.valid || old.seq != seq || old.final then s
  else
    let s := setSec s p seq new
    let x := pmPort s p
    let s := if x.curBin.n = seq / 900 then modPm s p fun x => { x with curBin := binFlags x.curBin old new }
      else setBin s p (seq / 900) (binFlags (binAt s p (seq / 900)) old new)
    if x.curDay.n = seq / 86400 then modPm s p fun x => { x with curDay := binFlags x.curDay old new }
    else setDay s p (seq / 86400) (binFlags (dayAt s p (seq / 86400)) old new)

/-- The flags of the PM second that ends (Table 12.4).
DEDUCED, unsafe (notes/assumptions/67). -/
def classifySec (x : PmPort) (seq ticks : Nat) : SecRec :=
  let base : SecRec := {
    seq := seq, ticks := ticks, cv := min x.cv 0xFFFF, slips := min x.slips 255, bip := x.bip, rei := x.rei
    defs := x.defs, valid := true }
  if !x.ran then { base with off := true }
  else
    let third := (3 * ticks + 9) / 10
    let hard := x.defs &&& 0x0051 != 0
    let rdi := x.defs.testBit 7
    { base with
      es := Nat.ble 1 x.bip || hard || x.defs.testBit 2
      ses := Nat.ble third x.errFrames || hard
      feEs := x.reiFrames != 0 || rdi
      feSes := Nat.ble third x.reiFrames || rdi
      uas := x.unavailable }

/-- The fifteen-minute bin of port p that has its 900 seconds closes. -/
def binCloseDue (s : State) (p : Nat) : Bool := Nat.ble 900 (pmPort s p).curBin.seconds
def binClose (s : State) (p : Nat) : State :=
  let b := (pmPort s p).curBin
  let s := setBin s p b.n { b with valid := true }
  (modPm s p fun x => { x with curBin := { n := b.n + 1 } }).raiseBit F.DM_EVENT_PM_BIN

/-- The daily bin of port p that has its 86,400 seconds closes. -/
def dayCloseDue (s : State) (p : Nat) : Bool := Nat.ble 86400 (pmPort s p).curDay.seconds
def dayClose (s : State) (p : Nat) : State :=
  let b := (pmPort s p).curDay
  let s := setDay s p b.n { b with valid := true }
  (modPm s p fun x => { x with curDay := { n := b.n + 1 } }).raiseBit F.DM_EVENT_PM_DAY

/-- The record that is 10 s old, once the second of SEQ `seq` has ended, is marked FINAL (R452). -/
def recordFinalDue (s : State) (p seq : Nat) : Bool :=
  Nat.ble 10 seq && (secRec s p (seq - 10)).valid && (secRec s p (seq - 10)).seq == seq - 10 &&
    !(secRec s p (seq - 10)).final
def recordFinal (s : State) (p seq : Nat) : State :=
  setSec s p (seq - 10) { secRec s p (seq - 10) with final := true }

/-- The bins that closed 10 s before the end of the second of SEQ `seq` are marked FINAL (R453). -/
def binFinal (s : State) (p seq : Nat) : State :=
  let k := seq - 10
  let s := if 10 ≤ seq ∧ k % 900 = 899 ∧ (binAt s p (k / 900)).valid ∧ (binAt s p (k / 900)).n = k / 900 then
      setBin s p (k / 900) { binAt s p (k / 900) with final := true } else s
  if 10 ≤ seq ∧ k % 86400 = 86399 ∧ (dayAt s p (k / 86400)).valid ∧ (dayAt s p (k / 86400)).n = k / 86400 then
    setDay s p (k / 86400) { dayAt s p (k / 86400) with final := true } else s

/-- Availability of port p after the record `r` (R452). -/
def availability (s : State) (p : Nat) (r : SecRec) : State :=
  let x := pmPort s p
  let flips := if x.unavailable then !r.ses else r.ses
  let run := if flips then x.run + 1 else 0
  if run < 10 then modPm s p fun x => { x with run := run }
  else
    let s := modPm s p fun x => { x with run := 0, unavailable := !x.unavailable }
    forList ((List.range 10).map fun i => r.seq - i) (fun k s => reviseUas s p (!x.unavailable) k) s

/-- The record of the PM second that ends on port p, its bins and what falls due with it.
DEDUCED, unsafe (notes/assumptions/67). -/
def pmPortEnd (s : State) (p : Nat) : State :=
  let seq := s.dm.pmSeq
  let x := pmPort s p
  let r := classifySec x seq s.dm.pmTicks
  let s := setSec s p seq r
  let s := modPm s p fun x => { x with
    bip := 0, errFrames := 0, rei := 0, reiFrames := 0, cv := 0, slips := 0, defs := 0, ran := false
    curBin := binCount x.curBin r true, curDay := binCount x.curDay r true }
  let s := availability s p r
  let s := if recordFinalDue s p seq then recordFinal s p seq else s
  let s := if binCloseDue s p then binClose s p else s
  let s := if dayCloseDue s p then dayClose s p else s
  binFinal s p seq

/-- A PM second ends (R450, R451). -/
def pmEnd (s : State) : State :=
  let s := forN 16 (fun p s => pmPortEnd s p) s
  let s := (s.put F.DM_PM_SEQ s.dm.pmSeq).raiseBit F.DM_EVENT_PM_SECOND
  { s with dm.pmSeq := s.dm.pmSeq + 1, dm.pmTicks := 0 }

/-- Whether the PM second in progress ends at a local frame start with this F. -/
def pmEndDue (s : State) (f : Nat) : Bool := s.dm.pmTicks != 0 && (f == 0 || Nat.ble 31250 s.dm.pmTicks)

/-- A local frame start with number `f` in its second: a PM second ends, begins or goes on (R450). -/
def pmFrame (s : State) (f : Nat) : State :=
  let s := if pmEndDue s f then pmEnd s else s
  if s.dm.pmWait then
    (if f == 0 && Nat.blt s.dm.pmFrom s.cyc then { s with dm.pmWait := false, dm.pmTicks := 1, dm.port := [] } else s)
  else { s with dm.pmTicks := s.dm.pmTicks + 1 }

/-- Code violations counted on port p in the tick that ends. -/
def pmCv (s : State) (p n : Nat) : State := if n = 0 then s else modPm s p fun x => { x with cv := x.cv + n }

/-! ### The history page (R454) -/

/-- Word w of a one-second record (Table 12.5). -/
def secWord (r : SecRec) (w : Nat) : Nat :=
  if !r.valid then 0
  else
    match w with
    | 0 => r.seq % 2 ^ 32
    | 1 => r.ticks * 2 ^ 16 + r.cv
    | 2 => r.slips * 2 ^ 24 + r.bip % 2 ^ 20
    | _ => r.defs + b2n r.es * 2 ^ 16 + b2n r.ses * 2 ^ 17 + b2n r.uas * 2 ^ 18 + b2n r.feEs * 2 ^ 19 + b2n r.feSes * 2 ^ 20
        + b2n r.off * 2 ^ 21 + b2n (Nat.blt r.ticks 31250) * 2 ^ 22 + b2n r.final * 2 ^ 30 + 2 ^ 31

/-- Word w of a bin (Table 12.6). -/
def binWord (b : BinRec) (w : Nat) : Nat :=
  ([b.n, b.seconds, b.es, b.ses, b.uas, b.feEs, b.feSes, b.bip, b.rei, b.cv, b.slips, b.defSecs,
    b2n b.valid + 2 * b2n b.final + 4 * b2n b.part].getD w 0) % 2 ^ 32

/-- The history page at byte address `a` of the DM window. -/
def historyWord (s : State) (a : Nat) : Nat :=
  let p := s.get F.DM_PM_PAGE_PAGE
  let o := a - 0x40090000
  if o < 0xC000 then secWord (SMap.get secDflt s.dm.secs (900 * p + (o - 0x8000) / 16)) (o / 4 % 4)
  else if o < 0xE000 then binWord (binAt s p ((o - 0xC000) / 64)) (o / 4 % 16)
  else if o < 0xE200 then binWord (dayAt s p ((o - 0xE000) / 64)) (o / 4 % 16)
  else if o < 0xE240 then binWord (pmPort s p).curBin (o / 4 % 16)
  else binWord (pmPort s p).curDay (o / 4 % 16)

/-! ### Register writes -/

/-- What block DM refuses (R444). -/
def judgeDm (_ : State) (a v : Nat) : Nat :=
  if 0x40091000 ≤ a ∧ a < 0x40092000 ∧ a % 0x100 = 0 then
    let sd := bitsOf v 8 4
    let exc := bitsOf v 0 4
    rangeIf (Nat.blt sd 5 || Nat.blt 9 sd || Nat.blt exc 5 || Nat.blt 9 exc || Nat.ble sd exc)
  else St.ok

/-- History started afresh, with the first local frame start of F = 0 after this cycle, S + 1 (R450, R466).
DEDUCED, unsafe (notes/assumptions/111). -/
def pmRestart (s : State) : State :=
  { s.put F.DM_PM_SEQ 0xFFFFFFFF with
    dm.pmSeq := 0, dm.pmTicks := 0, dm.pmWait := true, dm.pmFrom := s.cyc, dm.port := [], dm.secs := [], dm.bins := [], dm.days := [] }

/-- The counters that CNT_CLR clears (R456). -/
def dmCounter (a : Nat) : Bool :=
  Nat.ble 0x40091000 a && Nat.blt a 0x40092000 &&
    (a % 0x100 == 0x14 || a % 0x100 == 0x18 || (Nat.ble 0x20 (a % 0x100) && Nat.blt (a % 0x100) 0x3C))

/-- What a write in block DM sets off (R444, R450, R456). -/
def hookDm (a v old : Nat) (s : State) : State :=
  if a = 0x40090000 then
    let s := if bitOf v 0 then forN 16 (fun p s => s.put F.DM_QL_QL_CHG 0 p) (s.clearRegs dmCounter) else s
    if bitOf v 1 then pmRestart s else s
  else if 0x40091000 ≤ a ∧ a < 0x40092000 ∧ a % 0x100 = 0 then
    let p := (a - 0x40091000) / 0x100
    let s := if bitsOf v 8 4 != bitsOf old 8 4 then setWin s p false {} else s
    if bitsOf v 0 4 != bitsOf old 0 4 then setWin s p true {} else s
  else s

/-- A write of a register of block DM. -/
def writeDm (s : State) (f : Field) (i v : Nat) : State := writeBy judgeDm hookDm s (f.addr i) v

/-! ### The commands -/

/-- Whether the sample of the tick that comes brings a defect the verdict `v`. -/
def verdictDue (s : State) (trib : Bool) (n d v : Nat) : Bool :=
  if trib then
    Nat.blt d 4 && !s.dm.judgedT.contains n &&
      sampleVerdict (tribDecl s n d) (tribRaw s n d) (defCnt s (4096 + 4 * n + d)) (tribLimits d) == v
  else
    Nat.blt n 16 && !s.dm.judged.testBit n && portRunning s n && (match defLimits d with
      | none => false
      | some lim => sampleVerdict (defDecl s n d) (rawCond s n d) (defCnt s (16 * n + d)) lim == v)

/-- The tick that comes, for port or tributary n: all its samples at once, since masks join those of one tick (R439, R459).
DESIGN CHOICE, unsafe (notes/assumptions/107). -/
def sampleNow (s : State) (trib : Bool) (n : Nat) : State :=
  if trib then { tribTick s n with dm.judgedT := n :: s.dm.judgedT }
  else { portTick s n with dm.judged := s.dm.judged ||| 2 ^ n }

/-- DEFECT_DECLARE (R438): at the sample that meets a defect's set condition.
DESIGN CHOICE, unsafe (notes/assumptions/107). -/
def execDefectDeclare (trib : Bool) (n : Byte) (d : Fin 14) (s : State) : Host.Outcome State Fault Refusal :=
  act s (if verdictDue s trib n.toNat d 1 then sampleNow s trib n.toNat else s)

/-- DEFECT_CLEAR (R438): at the sample that meets a defect's clear condition.
DESIGN CHOICE, unsafe (notes/assumptions/107). -/
def execDefectClear (trib : Bool) (n : Byte) (d : Fin 14) (s : State) : Host.Outcome State Fault Refusal :=
  act s (if verdictDue s trib n.toNat d 2 then sampleNow s trib n.toNat else s)

/-- BIP_WINDOW_END (R443, R467): a window that has its length is judged, unless LOF is declared. -/
def execBipWindowEnd (p : Fin 16) (exc : Bool) (s : State) : Host.Outcome State Fault Refusal :=
  act s (if winDue s p exc then (if defDecl s p 4 then setWin s p exc {} else winEnd s p exc) else s)

/-- PM_SECOND_END (R450): a PM second that ends at the next local frame start, or has its 31,250 ticks.
DESIGN CHOICE, unsafe (notes/assumptions/107). -/
def execPmSecondEnd (s : State) : Host.Outcome State Fault Refusal :=
  act s (if pmEndDue s s.nextFrameNum.2 then pmEnd s else s)

/-- RECORD_FINAL (R452). -/
def execRecordFinal (p : Fin 16) (s : State) : Host.Outcome State Fault Refusal :=
  let seq := s.dm.pmSeq - 1
  act s (if recordFinalDue s p seq then recordFinal s p seq else s)

/-- FIFTEEN_MINUTE_BIN_CLOSE (R453). -/
def execFifteenMinuteBinClose (p : Fin 16) (s : State) : Host.Outcome State Fault Refusal :=
  act s (if binCloseDue s p then binClose s p else s)

/-- DAILY_BIN_CLOSE (R453). -/
def execDailyBinClose (p : Fin 16) (s : State) : Host.Outcome State Fault Refusal :=
  act s (if dayCloseDue s p then dayClose s p else s)

/-- BIN_FINAL (R453). -/
def execBinFinal (p : Fin 16) (s : State) : Host.Outcome State Fault Refusal := act s (binFinal s p (s.dm.pmSeq - 1))

/-- DM_CNT_CLR (R456). -/
def execDmCntClr (s : State) : Host.Outcome State Fault Refusal := act s (writeDm s F.DM_CMD 0 1)

/-- PM_RESTART (R450, R466). -/
def execPmRestart (s : State) : Host.Outcome State Fault Refusal := act s (writeDm s F.DM_CMD 0 2)

end Sys2Proof.Machine
end

