-- ==== Sys2Proof/Machine/Ps.lean ====
section
/-!
DEFINITION. Machine/Ps.lean: Dovetail protection (chapter 13): groups, requests, the hitless merge, ring wrap, linear
protection and wait-to-restore.
-/
namespace Sys2Proof.Machine

/-! ### Merged tributaries (R476) -/

/-- The tributaries marked for merging in group u. -/
def markedTribs (s : State) (u : Nat) : List Nat :=
  s.ps.cfg.filterMap fun e =>
    if 0x400A1000 ≤ e.1 ∧ e.1 < 0x400A1400 ∧ bitOf e.2.toNat 31 ∧ bitsOf e.2.toNat 0 3 = u then
      some ((e.1 - 0x400A1000) / 4) else none

def mergedTribs (s : State) (u : Nat) : List Nat := (markedTribs s u).filter fun t => mergedBy s t == some u

/-- The merged slots in use (PS_MRG_USE). -/
def mergeUse (s : State) : Nat :=
  (List.range 8).foldl (fun n u => (mergedTribs s u).foldl (fun n t => n + s.tribWidth t) n) 0

/-- A marked tributary that is not merged (R476).
DEDUCED, unsafe (notes/assumptions/68). -/
def mergeErr (s : State) (u : Nat) : Bool :=
  (markedTribs s u).any fun t => mergedBy s t != some u

/-! ### Requests (R471–R473) -/

/-- The codes of Table 13.1. -/
def listedCode (c : Nat) : Bool := c == 0xE || c == 0xC || c == 0xA || c == 8 || c == 6 || c == 4 || c == 0

/-- Port p is in signal fail for the ring or linear machine (R473). -/
def portFails (s : State) (p : Nat) : Bool := s.on F.DM_PSTATUS_SF p || !portRunning s p

/-- The same for the merge, where LOM counts too. -/
def mergeFails (s : State) (p : Nat) : Bool := portFails s p || defRep s p 5

/-- The neighbour of a RING group at side x. -/
def neighbour (s : State) (u x : Nat) : Nat := if x = 0 then s.psCfg F.PS_RING_NBR0 u else s.psCfg F.PS_RING_NBR1 u

def farOf (s : State) (u x : Nat) : Option FarReq := if x = 0 then (s.groupX u).far0 else (s.groupX u).far1

/-- The far words of side x set. -/
def setFar (s : State) (u x : Nat) (f : Option FarReq) : State :=
  s.modGroup u fun g => if x = 0 then { g with far0 := f } else { g with far1 := f }

/-- Fields of a pair of protection words (Table 13.2). -/
def FarReq.req (f : FarReq) : Nat := bitsOf f.a 12 4
def FarReq.side (f : FarReq) : Nat := bitsOf f.a 11 1
def FarReq.src (f : FarReq) : Nat := bitsOf f.a 0 6
def FarReq.dst (f : FarReq) : Nat := bitsOf f.b 0 6

/-- Local frame starts since the one with total `k`. -/
def framesSince (s : State) (k : Nat) : Nat := (s.frameTotal + 2 ^ 32 - k) % 2 ^ 32

/-- The words of side x taken at a tick: those of the last frame received in SYNC, or, while its own are ignored, those of an earlier frame no
older than 3 ticks (R472, R505). -/
def takeFar (s : State) (u x : Nat) : State :=
  let p := sidePort s u x
  let at_ := (s.portX p).rxTotal
  let age := framesSince s at_
  if !(s.portX p).rxSeen || Nat.blt 3 age then setFar s u x none
  else
    let w := s.get F.LF_RX_PROT p
    let a := w / 2 ^ 16
    let b := w % 2 ^ 16
    let listed := listedCode (bitsOf a 12 4)
    let kindOk := bitsOf b 13 3 == psKind s u && bitsOf b 6 5 == s.psCfg F.PS_GCFG_GID u
    let srcOk := psKind s u != 2 || bitsOf a 0 6 == neighbour s u x
    let s := if listed || Nat.blt 1 age then s else s.raiseBit F.PS_GEVENT_PROT_ERR u
    let s := if (kindOk && srcOk) || Nat.blt 1 age then s else s.raiseBit F.PS_GEVENT_MISMATCH u
    if listed && kindOk && srcOk then setFar s u x (some { a := a, b := b, at_ := at_ })
    else
      match farOf s u x with
      | some f => if Nat.blt 3 (framesSince s f.at_) then setFar s u x none else s
      | none => s

/-- A paired input as a consumer of function `func` sees it (R676): its agreed state, or none in FALLBACK. -/
def pairSeen (s : State) (i func : Nat) : Option Bool :=
  if s.get F.PAIR_CFG_FUNC i = func ∧ pairState s i ≠ 2 then some (s.on F.PAIR_STAT_AGREED i) else none

/-- The lockout that group u's paired input asks for: in the pair's fallback the last agreed state stands (R473, R502).
DEDUCED, unsafe (notes/assumptions/68). -/
def pairLo (s : State) (u : Nat) : Bool :=
  match pairSeen s (s.psCfg F.PS_GCFG_LO_PAIR u) 2 with
  | some b => b
  | none => (s.groupX u).loHeld

/-- A local lockout (R473). -/
def localLo (s : State) (u : Nat) : Bool :=
  s.psCfg F.PS_GCMD_CMD u == 3 || (s.psCfg F.PS_GCFG_LO_PAIR_EN u != 0 && pairLo s u)

/-- SF and SD at side x, as local requests. -/
def localSf (s : State) (u x : Nat) : Bool :=
  if psKind s u = 1 then mergeFails s (sidePort s u x) else portFails s (sidePort s u x)
def localSd (s : State) (u x : Nat) : Bool := s.on F.DM_PSTATUS_SD (sidePort s u x)

/-- The local top: code and side (R473). Between two requests of the same code side 1 wins, and a timer that expires in this tick asks for nothing.
DEDUCED, unsafe (notes/assumptions/68). -/
def localTop (s : State) (u : Nat) : Nat × Nat :=
  let side := s.psCfg F.PS_GCMD_SIDE u
  if localLo s u then (0xE, if s.psCfg F.PS_GCMD_CMD u = 3 then side else 0)
  else if s.psCfg F.PS_GCMD_CMD u = 2 then (0xC, side)
  else if localSf s u 1 then (0xA, 1)
  else if localSf s u 0 then (0xA, 0)
  else if localSd s u 1 then (8, 1)
  else if localSd s u 0 then (8, 0)
  else if s.psCfg F.PS_GCMD_CMD u = 1 then (6, side)
  else
    match (s.groupX u).wtr with
    | some (n, x) => if n = 0 then (0, 0) else (4, x)
    | none => (0, 0)

/-! ### Wait-to-restore (R489, R495) -/

/-- The timer shown in PS_GWTR[u]. -/
def setWtr (s : State) (u : Nat) (w : Option (Nat × Nat)) : State :=
  (s.modGroup u fun g => { g with wtr := w }).put F.PS_GWTR (match w with
    | some (n, _) => n
    | none => 0) u

/-- The local requests that discard the timer: SD or higher, at either side. -/
def discards (s : State) (u : Nat) : Bool :=
  localLo s u || s.psCfg F.PS_GCMD_CMD u == 2 || localSf s u 0 || localSf s u 1 || localSd s u 0 || localSd s u 1

/-- The timer expires. -/
def wtrExpire (s : State) (u : Nat) : State := (setWtr s u none).raiseBit F.PS_GEVENT_WTR_EXPIRED u

/-- The timer expires in the tick in progress: it has run down, and nothing that arrived with the tick has discarded it (R11, R13).
DEDUCED, safe (notes/assumptions/108). -/
def wtrDue (s : State) (u : Nat) : Bool :=
  match (s.groupX u).wtr with
  | some (0, _) => true
  | _ => false

/-- The timer at a tick: discarded, run down or started.
DEDUCED, unsafe (notes/assumptions/68). -/
def wtrTick (s : State) (u : Nat) : State :=
  let ended := (s.groupX u).endWtr
  let s := if ended then s.modGroup u fun g => { g with endWtr := false } else s
  if psKind s u = 1 then s
  else
    let s := if ended || discards s u then setWtr s u none else s
    if discards s u then s else
    match (s.groupX u).failed, (s.groupX u).wtr with
    | some x, _ =>
      let s := (s.modGroup u fun g => { g with failed := none }).raiseBit F.PS_GEVENT_WTR_START u
      setWtr s u (some (s.psCfg F.PS_GCFG_WTR u * framesPerSec, x))
    | none, some (n, x) => setWtr s u (some (n - 1, x))
    | none, none => s

/-! ### The words sent (Table 13.2) -/

def protWords (s : State) (u req side long status dst : Nat) : Nat :=
  let src := if psKind s u = 2 then s.psCfg F.PS_RING_NODE u else 0
  let a := req * 2 ^ 12 + side * 2 ^ 11 + long * 2 ^ 10 + src
  let b := psKind s u * 2 ^ 13 + status * 2 ^ 11 + s.psCfg F.PS_GCFG_GID u * 2 ^ 6 + dst
  a * 2 ^ 16 + b

/-- The words that go out on each port. -/
def sendProt (s : State) (u : Nat) (w : Nat → Nat) : State := (s.put F.PS_GTX (w 0) u 0).put F.PS_GTX (w 1) u 1

/-- STATE and SW_SIDE move to (st, side): events and counts (Table 13.4). -/
def moveTo (s : State) (u st side : Nat) : State :=
  let old := s.get F.PS_GSTAT_STATE u
  let oldSide := s.get F.PS_GSTAT_SW_SIDE u
  let s := (s.put F.PS_GSTAT_STATE st u).put F.PS_GSTAT_SW_SIDE side u
  if st != 0 && (old != st || (st == 1 && oldSide != side)) then
    (s.raiseBit F.PS_GEVENT_SWITCHED u).bumpSat F.PS_GCNT_SWITCHES 1 u
  else if st == 0 && old != 0 then s.raiseBit F.PS_GEVENT_RESTORED u
  else s

/-- TOP, its side and where it came from. -/
def showTop (s : State) (u code side : Nat) (far : Bool) : State :=
  ((s.put F.PS_GSTAT_TOP code u).put F.PS_GSTAT_TOP_SIDE side u).put F.PS_GSTAT_TOP_FAR (b2n far) u

/-- The group is switched for its local request (code, side): what WTR needs to know (R489). -/
def noteFailed (s : State) (u : Nat) (l : Nat × Nat) (switched : Bool) : State :=
  s.modGroup u fun g => { g with
    failed := if switched && (l.1 == 0xA || l.1 == 8) then some l.2 else if Nat.ble 8 l.1 then none else g.failed }

/-! ### The linear machine (R487) -/

/-- The far request of a LINEAR group. -/
def linearFar (s : State) (u : Nat) : Option FarReq :=
  match farOf s u 1 with
  | some f => some f
  | none => farOf s u 0

/-- Whether the top request (code, side) selects protection. -/
def selectsProtection (t : Nat × Nat) : Bool :=
  t.1 == 0xC || t.1 == 6 || t.1 == 4 || ((t.1 == 0xA || t.1 == 8) && t.2 == 0)

/-- DEDUCED, unsafe (notes/assumptions/68). -/
def linearTick (s : State) (u : Nat) (l : Nat × Nat) : State :=
  let far := linearFar s u
  let fc := match far with
    | some f => (f.req, f.side)
    | none => (0, 0)
  let isFar := Nat.blt l.1 fc.1
  let t := if isFar then fc else l
  let prot := selectsProtection t
  let s := showTop (moveTo s u (b2n prot) 0) u t.1 t.2 isFar
  let s := noteFailed s u l (prot && !isFar)
  sendProt s u fun _ => protWords s u l.1 l.2 0 (if prot then 2 else 0) 0

/-! ### The ring machine (R486, Table 13.4) -/

/-- A: the highest valid request for this node, with the side facing its source. -/
def ringToMe (s : State) (u : Nat) : Option (Nat × Nat) :=
  let node := s.psCfg F.PS_RING_NODE u
  let pick (f : Option FarReq) : Option (Nat × Nat) :=
    match f with
    | some f => if f.dst = node then some (f.req, if f.src = neighbour s u 0 then 0 else 1) else none
    | none => none
  match pick (farOf s u 0), pick (farOf s u 1) with
  | some a, some b => if b.1 < a.1 then some a else some b
  | some a, none => some a
  | none, b => b

/-- U: the highest valid request, neither LO nor NR, between other nodes. -/
def ringPast (s : State) (u : Nat) : Option (Nat × Nat) :=
  let node := s.psCfg F.PS_RING_NODE u
  let pick (f : Option FarReq) : Option (Nat × Nat) :=
    match f with
    | some f => if f.dst != node && f.src != node && f.req != 0xE && f.req != 0 then some (f.req, f.side) else none
    | none => none
  match pick (farOf s u 0), pick (farOf s u 1) with
  | some a, some b => if b.1 < a.1 then some a else some b
  | some a, none => some a
  | none, b => b

/-- Valid LO from the neighbour across side x. -/
def farLo (s : State) (u x : Nat) : Bool :=
  match farOf s u x with
  | some f => f.req == 0xE && f.src == neighbour s u x
  | none => false

def codeOf (r : Option (Nat × Nat)) : Nat :=
  match r with
  | some (c, _) => c
  | none => 0

/-- DEDUCED, unsafe (notes/assumptions/68). -/
def ringTick (s : State) (u : Nat) (l : Nat × Nat) : State :=
  let a := ringToMe s u
  let past := ringPast s u
  let top : Nat × Nat × Bool :=
    if codeOf a ≤ l.1 ∧ codeOf past ≤ l.1 then (l.1, l.2, false)
    else match a, past with
      | some x, some y => if y.1 ≤ x.1 then (x.1, x.2, true) else (y.1, y.2, true)
      | some x, none => (x.1, x.2, true)
      | none, some y => (y.1, y.2, true)
      | none, none => (l.1, l.2, false)
  let s := showTop s u top.1 top.2.1 top.2.2
  let idle (s : State) (x : Nat) : Nat := protWords s u l.1 l.2 0 0 (neighbour s u x)
  let switched (s : State) (x : Nat) (side : Nat) (port : Nat) : Nat :=
    protWords s u l.1 side (if port = x then 0 else 1) 2 (neighbour s u x)
  if l.1 = 0xE then
    let s := noteFailed (moveTo s u 0 0) u l false
    sendProt s u (idle s)
  else if 4 ≤ l.1 ∧ codeOf a ≤ l.1 ∧ codeOf past ≤ l.1 ∧ !farLo s u l.2 then
    let s := noteFailed (moveTo s u 1 l.2) u l true
    sendProt s u (switched s l.2 l.2)
  else
    let s := noteFailed s u l false
    match a with
    | some (c, x) =>
      if 4 ≤ c ∧ codeOf past ≤ c ∧ !farLo s u x then
        let s := moveTo s u 1 x
        sendProt s u (switched s x x)
      else ringRest s u past (idle s)
    | none => ringRest s u past (idle s)
where
  /-- The last two rows of Table 13.4. -/
  ringRest (s : State) (u : Nat) (past : Option (Nat × Nat)) (idle : Nat → Nat) : State :=
    match past with
    | some _ =>
      let s := moveTo s u 2 0
      sendProt s u fun x =>
        match farOf s u (1 - x) with
        | some f => f.a * 2 ^ 16 + (if bitsOf f.b 11 2 = 0 then f.b + 2 ^ 11 else f.b)
        | none => idle x
    | none =>
      let s := moveTo s u 0 0
      sendProt s u idle

/-! ### The release offset (R477, R479) -/

/-- LF_RX_OFS of side x, signed. -/
def ofsOf (s : State) (u x : Nat) : Int := toSigned 32 (s.get F.LF_RX_OFS (sidePort s u x))

def sideIm (s : State) (u x : Nat) : Bool := s.on F.LF_PSTATUS_IM (sidePort s u x)

/-- Side x is available (R477). -/
def sideAvail (s : State) (u x : Nat) : Bool :=
  sideIm s u x && (psKind s u == 1 || (farOf s u x).isSome) && !mergeFails s (sidePort s u x)

/-- The release offset as a first setting gives it, and the side selected first; none when no port is available. -/
def firstRo (s : State) (u : Nat) : Option (Int × Nat) :=
  let low := if sidePort s u 0 < sidePort s u 1 then 0 else 1
  match sideAvail s u 0, sideAvail s u 1 with
  | true, true =>
    let o0 := ofsOf s u 0
    let o1 := ofsOf s u 1
    some (if 800000 < (o0 - o1).natAbs then o0 + 64 else (if o0 < o1 then o1 else o0) + 64, low)
  | true, false => some (ofsOf s u 0 + 64, 0)
  | false, true => some (ofsOf s u 1 + 64, 1)
  | false, false => none

def roOf (s : State) (u : Nat) : Int := toSigned 32 (s.get F.PS_MRG_RO u)

/-- RO set: one MOVE when it changes.
DEDUCED, unsafe (notes/assumptions/69). -/
def setRo (s : State) (u : Nat) (ro : Int) : State :=
  let w := ofSigned 32 ro
  if s.get F.PS_MRG_RO u = w then s.put F.PS_GSTAT_RO_VALID 1 u
  else
    (((s.put F.PS_MRG_RO w u).put F.PS_GSTAT_RO_VALID 1 u).bumpSat F.PS_GCNT_MOVES 1 u).raiseBit F.PS_GEVENT_RO_MOVED u

/-! ### Release (R478, R480, R481) -/

/-- The copy of frame `n` of t from side x. -/
def heldCopy (s : State) (t x : Nat) (n : Nat × Nat) : Option Deskew :=
  (SMap.get (fun _ => []) s.ps.deskew t).find? fun d => d.side == x && d.num == n

/-- Whether a copy received with the offset `ofs` is eligible (R478).
DEDUCED, unsafe (notes/assumptions/69). -/
def eligible (s : State) (u : Nat) (ofs : Int) : Bool :=
  decide (roOf s u - 800000 ≤ ofs) && decide (ofs ≤ roOf s u - 64)

/-- The control slot of a packet tributary passes R408. -/
def controlGood (s : State) (t : Nat) (ws : List LineWord) : Bool :=
  let ptr := wordAt ws 0
  let count := wordAt ws 1
  Nat.ble count (4 * s.tribWidth t - 4) && Nat.blt ptr 0x8000 && (ptr == 0x7FFF || Nat.blt ptr count)

/-- 0: the copy of frame n from side x is not good; 1: it is degraded; 2: it is good (R480). -/
def copyRank (s : State) (u t x : Nat) (n : Nat × Nat) : Nat :=
  match heldCopy s t x n with
  | none => 0
  | some d =>
    let ok := eligible s u d.ofs && d.good && d.copy.crcOk &&
      (s.tribType t < 2 || controlGood s t (d.copy.slots.flatMap fun e => e.2))
    if !ok then 0 else if s.on F.DM_PSTATUS_SD (sidePort s u x) then 1 else 2

/-- The side whose copy of frame n is taken (R481); none when no copy is.
DEDUCED, unsafe (notes/assumptions/69). -/
def mergeChoice (s : State) (u t : Nat) (n : Nat × Nat) : Option Nat :=
  let cur := s.get F.PS_TRIB_SEL t
  let rank (x : Nat) : Nat := copyRank s u t x n
  let only (x : Nat) : Option Nat := if rank x = 0 then none else some x
  let side := s.psCfg F.PS_GCMD_SIDE u
  if localLo s u then only 0
  else if s.psCfg F.PS_GCMD_CMD u = 2 then only side
  else if s.psCfg F.PS_GCMD_CMD u = 1 ∧ rank 0 = 2 ∧ rank 1 = 2 then some side
  else if rank cur = 2 then some cur
  else if rank (1 - cur) = 2 then some (1 - cur)
  else if rank cur = 1 then some cur
  else only (1 - cur)

/-- The first slot of a copy. -/
def firstSlot (c : CopyT) : Nat := ((c.slots.head?).map fun e => e.1).getD 0

/-- `n` words of the deskew buffer read: checker 4 finds what the Jig puts in, at a row that the spec does not place. The
Bool says that one was uncorrectable (R678, Table 18.5). -/
def deskewCheck : Nat → State → State × Bool
  | 0, s => (s, false)
  | n + 1, s =>
    if s.get F.FA_JIG_LEFT 4 = 0 then (s, false)
    else
      let bits := popCount 8 (s.jigMask 4)
      let open_ := s.drawn.toNat
      let s := jigUse s.draw 4
      let bad := Nat.ble 2 bits
      let s := if bad then raise s 5 (open_ % 65536) true
        else if bits = 1 then raise s 4 (352 + open_ % 160) true
        else s
      let r := deskewCheck n s
      (r.1, bad || r.2)

/-- The copy of frame n of t from side x is not good (R480, Table 18.2). -/
def copySpoilt (s : State) (t x : Nat) (n : Nat × Nat) : State :=
  let l := (SMap.get (fun _ => []) s.ps.deskew t).map fun d => if d.side == x && d.num == n then { d with good := false } else d
  { s with ps.deskew := SMap.set (fun _ => []) s.ps.deskew t l }

/-- The choice of R481 as the copies read: an uncorrectable copy is not good, and the choice is made again. -/
def mergeRead : Nat → State → Nat → Nat → Nat × Nat → State × Option Nat
  | 0, s, _, _, _ => (s, none)
  | fuel + 1, s, u, t, n =>
    match mergeChoice s u t n with
    | none => (s, none)
    | some x =>
      let r := deskewCheck (s.tribWidth t) s
      if r.2 then mergeRead fuel (copySpoilt r.1 t x n) u t n else (r.1, some x)

/-- Frame n of merged tributary t released; its local frame began at `start`, in hundredths of an FCLK cycle (R478,
R499). -/
def releaseOne (s : State) (u t : Nat) (n : Nat × Nat) (start : Nat) : State :=
  let c := mergeRead 3 s u t n
  let s := c.1
  let at_ := (((start : Int) + roOf s u * 100 + 400) % (timeTurn : Int)).toNat
  match c.2 with
  | none => missCopy ((s.put F.PS_TRIB_NONE 1 t).raiseBit F.PS_GEVENT_MRG_NONE u) t at_ (portRate s (sidePort s u 0))
  | some x =>
    match heldCopy s t x n with
    | none => s
    | some d =>
      let hi := max (firstSlot d.copy) (match heldCopy s t (1 - x) n with
        | some e => firstSlot e.copy
        | none => slotNaming (usedRuns s (sidePort s u (1 - x))) t 0)
      let slots := (List.range d.copy.slots.length).map fun j => (hi + j, ((d.copy.slots.getD j (0, [])).2))
      let s := s.put F.PS_TRIB_NONE 0 t
      let s := if s.get F.PS_TRIB_SEL t = x then s
        else (s.put F.PS_TRIB_SEL x t).raiseBit F.PS_GEVENT_SEL_CHANGE u
      let s := s.modGroup u fun g => { g with sel := x }
      let s := takeCopy s t { d.copy with at_ := at_, slots := slots }
      let s := if 2 ≤ s.tribType t then qmDemap s t (d.copy.slots.flatMap fun e => e.2) else s
      let left := (SMap.get (fun _ => []) s.ps.deskew t).filter fun e => e.num != n
      { s with ps.deskew := SMap.set (fun _ => []) s.ps.deskew t left }

/-- The frame with total `k` of group u's merged tributaries released. -/
def releaseFrame (s : State) (u k : Nat) : State :=
  let n := addNum s.frameNum ((k : Int) - (s.frameTotal : Int))
  let s := forList (mergedTribs s u) (fun t s => releaseOne s u t n (k * 1280000)) s
  s.modGroup u fun g => { g with relTotal := some k }

/-- The totals of the frames whose release falls before `upto` FCLK after the start of the frame in progress, oldest
first; at most 64 are held (R477). -/
def releasesDue (s : State) (u : Nat) (upto : Int) : List Nat :=
  let last := roOf s u
  -- the newest total k with k·12,800 + RO < now·12,800 + upto
  let newest : Int := (s.frameTotal : Int) + (upto - last + 12799) / 12800 - 1
  let oldest : Int := match (s.groupX u).relTotal with
    | some k => if newest - 63 < (k : Int) + 1 then (k : Int) + 1 else newest - 63
    | none => newest
  (List.range 64).filterMap fun (i : Nat) =>
    let k : Int := oldest + (i : Int)
    if 0 ≤ k ∧ k ≤ newest then some k.toNat else none

/-- Every release of group u due before `upto`. -/
def releaseDue (s : State) (u : Nat) (upto : Int) : State :=
  if (psKind s u == 1 || psKind s u == 2) && !groupBad s u && s.on F.PS_GSTAT_RO_VALID u then
    forList (releasesDue s u upto) (fun k s => releaseFrame s u k) s
  else s

/-- Every release due in the frame in progress before `upto` FCLK.
DEDUCED, unsafe (notes/assumptions/69). -/
def mergeDue (s : State) (upto : Nat) : State := forN 8 (fun u s => releaseDue s u upto) s

/-- The copy that every merged tributary of group u takes first is that of side x (R477).
DEDUCED, unsafe (notes/assumptions/69). -/
def selectFirst (s : State) (u x : Nat) : State :=
  forList (markedTribs s u) (fun t s => s.put F.PS_TRIB_SEL x t) (s.modGroup u fun g => { g with sel := x })

/-- RO at a tick.
DEDUCED, unsafe (notes/assumptions/69). -/
def roTick (s : State) (u : Nat) : State :=
  let first := !s.on F.PS_GSTAT_RO_VALID u
  if first || (s.groupX u).reskew then
    match firstRo s u with
    | none => s
    | some (ro, low) =>
      let s := (setRo s u ro).modGroup u fun g => { g with reskew := false }
      if first then selectFirst s u low else s
  else
    let sel := (s.groupX u).sel
    let y := 1 - sel
    let ro := roOf s u
    let o := ofsOf s u sel
    let ro1 := if sideAvail s u sel && decide (ro < o + 64) then o + 64 else ro
    let oy := ofsOf s u y
    let ro2 := if sideAvail s u y && decide (ro1 < oy + 64) && decide (oy - o ≤ 800000) then oy + 64 else ro1
    -- what is released within the 64 FCLK of guard is released as RO stood (R500)
    if ro2 = ro then s else setRo (releaseDue s u 64) u ro2

/-- The differential delay of a merging group (R479). -/
def ddeTick (s : State) (u : Nat) : State :=
  let overR := sideIm s u 0 && sideIm s u 1 && Nat.blt 800000 (ofsOf s u 0 - ofsOf s u 1).natAbs
  let s := if overR && !s.on F.PS_GSTAT_DDE u then s.raiseBit F.PS_GEVENT_DDE_SET u else s
  s.put F.PS_GSTAT_DDE (b2n overR) u

/-- A copy of merged tributary t received on side x goes into the deskew buffer of 64 frames (R477). -/
def deskewTake (s : State) (t x p : Nat) (n : Nat × Nat) (c : CopyT) (good : Bool) : State :=
  let d : Deskew := { side := x, port := p, num := n, copy := c, good := good, ofs := toSigned 32 (s.get F.LF_RX_OFS p) }
  let l := (d :: SMap.get (fun _ => []) s.ps.deskew t).take 128
  { s with ps.deskew := SMap.set (fun _ => []) s.ps.deskew t l }

/-! ### A tick (R474) -/

/-- The group stops at the tick after KIND was written 0: its machines and status return to their reset state (R469, R504). -/
def groupStop (s : State) (u : Nat) : State :=
  let s := ((s.put F.PS_GTX 0 u 0).put F.PS_GTX 0 u 1).put F.PS_GSTAT 0 u
  let s := ((s.put F.PS_GWTR 0 u).put F.PS_MRG_RO 0x80000000 u)
  let s := forList (markedTribs s u) (fun t s =>
    { s with ps.deskew := SMap.set (fun _ => []) s.ps.deskew t [] }) s
  s.modGroup u fun _ => {}

/-- What group u's local requests make of it: the machine of its kind moves, and the words that go out follow (R470, R474). -/
def groupMove (s : State) (u : Nat) : State :=
  let l := localTop s u
  let s := (s.put F.PS_GSTAT_LOCAL l.1 u).put F.PS_GSTAT_LOCAL_SIDE l.2 u
  if groupBad s u then
    let s := showTop (moveTo (s.modGroup u fun g => { g with failed := none }) u 0 0) u 0 0 false
    sendProt s u fun x => protWords s u 0 0 0 0 (if psKind s u = 2 then neighbour s u x else 0)
  else match psKind s u with
    | 1 => sendProt (showTop s u l.1 l.2 false) u fun _ => protWords s u l.1 l.2 0 0 0
    | 2 => ringTick s u l
    | _ => linearTick s u l

/-- Group u at a tick. -/
def groupTick (s : State) (u : Nat) : State :=
  if psKind s u = 0 then s
  else
    let lo := pairLo s u
    let s := s.modGroup u fun g => { g with loHeld := lo }
    let s := takeFar (takeFar s u 0) u 1
    let bad := groupBad s u
    let err := bad || mergeErr s u
    let s := if err && !s.on F.PS_GSTAT_CFG_ERR u then s.raiseBit F.PS_GEVENT_CFG_ERR u else s
    let s := s.put F.PS_GSTAT_CFG_ERR (b2n err) u
    let s := groupMove (wtrTick s u) u
    let s := if psKind s u = 3 then s else ddeTick s u
    if psKind s u = 3 ∨ bad then s else roTick s u

/-- Every timer that expires in the tick that ends, unless WTR_EXPIRED has told it.
DEDUCED, safe (notes/assumptions/108). -/
def psTickEnd (s : State) : State := forN 8 (fun u s => if wtrDue s u then wtrExpire s u else s) s

/-- Whether a register holds settings of block PS (R25). -/
def psSetting (a : Nat) : Bool :=
  (Nat.ble 0x400A0100 a && Nat.blt a 0x400A0300 && Nat.ble (a % 0x40) 0x10) || (Nat.ble 0x400A1000 a && Nat.blt a 0x400A1400)

/-- Block PS at a tick: it takes its settings (R25), and its groups evaluate.
DEDUCED, unsafe (notes/assumptions/89). -/
def psTick (s : State) : State :=
  let s := forN 8 (fun u s => if (s.groupX u).stop then groupStop s u else s) s
  forN 8 (fun u s => groupTick s u) { s with ps.cfg := SMap.restrict psSetting s.regs }

/-! ### What the groups make of transmit and receive slots (R485, R488) -/

/-- Runs limited to the slots lo … hi − 1, moved so that slot lo becomes slot `at_`. -/
def cutRuns (runs : List Run) (lo hi at_ : Nat) : List Run :=
  runs.filterMap fun r =>
    let a := max r.first lo
    let b := min (r.first + r.count) hi
    if b ≤ a then none else some { r with first := a - lo + at_, count := b - a, j0 := r.j0 + (a - r.first) }

/-- Runs without the slots lo … hi − 1. -/
def dropRuns (runs : List Run) (lo hi : Nat) : List Run := cutRuns runs 0 lo 0 ++ cutRuns runs hi 100000 hi

/-- Where a port's transmit payload comes from: the port whose map and buffer are used, how many slots it fills, and
whether it is filled at all. -/
structure TxPlan where
  src : Nat
  limit : Nat
  filled : Bool := true
  deriving DecidableEq, Repr

/-- R488 for transmit port p. -/
def txPlan (s : State) (p : Nat) : TxPlan :=
  let own := slotsPerFrame (portRate s p)
  match groupOf s p with
  | none => { src := p, limit := own }
  | some u =>
    if psKind s u = 3 ∧ sideOf s u p = 1 then
      { src := sidePort s u 0, limit := min own (slotsPerFrame (portRate s (sidePort s u 0))), filled := psState s u == 1 }
    else { src := p, limit := own }

/-- The RING group of port p, with its ranges (WS, N, PSL). -/
def ringOf (s : State) (p : Nat) : Option (Nat × Nat × Nat × Nat) :=
  match groupOf s p with
  | none => none
  | some u =>
    if psKind s u = 2 then
      some (u, s.psCfg F.PS_RWORK_WS u, s.psCfg F.PS_RWORK_N u, s.psCfg F.PS_RPROT_PSL u)
    else none

/-- The runs by which transmit port p is filled, `runs` being those of its own map and `other` those of the other port of
its RING group.
DEDUCED, unsafe (notes/assumptions/58). -/
def ringTxRuns (s : State) (p : Nat) (runs other : List Run) : List Run :=
  match ringOf s p with
  | none => runs
  | some (u, ws, n, psl) =>
    let own := dropRuns runs psl (psl + n)
    if psState s u = 1 ∧ s.get F.PS_GSTAT_SW_SIDE u ≠ sideOf s u p then
      own ++ cutRuns other ws (ws + n) psl
    else own

/-- The slots that a PASS node sends on port p from the other port's protection range (R485): the newest received copy
of each that is ready by its own transmit slot, and the consequent-action pattern while the other port is out of frame (R43).
DEDUCED, unsafe (notes/assumptions/59). -/
def passSlots (s : State) (p b t0 : Nat) : List (Nat × List LineWord) :=
  match ringOf s p with
  | none => []
  | some (u, _, n, psl) =>
    if psState s u ≠ 2 then []
    else
      let q := sidePort s u (1 - sideOf s u p)
      let x := s.portX q
      (List.range n).filterMap fun k =>
        let m := psl + k
        if aisDue s q then some (m, List.replicate 4 0xFFFF) else
        let ready (at_ : Nat) : Bool :=
          timeLe (at_ + (32 + 4 * m) * wordTime b + fabricLatency b b * 100) (t0 + (32 + 4 * m) * wordTime b)
        let held := (if x.rxGood then [(x.rxAt, x.rxWords)] else []) ++ x.rxOld
        let ws := match held.find? (fun e => ready e.1) with
          | some e => frameSlot e.2 m
          | none => []
        if ws.length = 4 then some (m, ws) else none

/-- The words of every slot of a received frame of port p as demapping sees them: as received on port `as`, its runs and
the word of each slot. A RING group moves the protection range; a LINEAR group moves whole frames. -/
structure RxPlan where
  as : Nat
  lo : Nat
  hi : Nat
  shift : Nat
  deriving DecidableEq, Repr

/-- Which slots of which port's map are demapped from a frame received on port p: slot m of port `as`, lo ≤ m < hi, is
found in slot m + shift − 100,000.
DEDUCED, unsafe (notes/assumptions/58). -/
def rxPlans (s : State) (p : Nat) : List RxPlan :=
  let all : RxPlan := { as := p, lo := 0, hi := 100000, shift := 100000 }
  match groupOf s p with
  | none => [all]
  | some u =>
    let x := sideOf s u p
    let q := sidePort s u (1 - x)
    let switched := psState s u == 1
    match psKind s u with
      | 3 =>
        if x = 0 then (if switched then [] else [all])
        else if switched then
          [{ as := q, lo := 0, hi := slotsPerFrame (portRate s q), shift := 100000 }]
        else []
      | 2 =>
        let ws := s.psCfg F.PS_RWORK_WS u
        let n := s.psCfg F.PS_RWORK_N u
        let psl := s.psCfg F.PS_RPROT_PSL u
        let here := switched && s.get F.PS_GSTAT_SW_SIDE u == x
        let there := switched && s.get F.PS_GSTAT_SW_SIDE u != x
        let cut (l : List (Nat × Nat)) (lo hi : Nat) : List (Nat × Nat) :=
          l.flatMap fun r => [(r.1, min r.2 lo), (max r.1 hi, r.2)]
        let own := cut [(0, 100000)] psl (psl + n)
        let own := if here then cut own ws (ws + n) else own
        (own.filter fun r => r.1 < r.2).map (fun r => ({ as := p, lo := r.1, hi := r.2, shift := 100000 } : RxPlan)) ++
          (if there && 0 < n then [{ as := q, lo := ws, hi := ws + n, shift := 100000 + psl - ws }] else [])
      | _ => [all]

/-! ### Register writes -/

/-- What block PS refuses (R469, R476). -/
def judgePs (s : State) (a v : Nat) : Nat :=
  let l := psLive s
  if 0x400A1000 ≤ a then
    rangeIf (bitOf v 31 && Nat.blt 160 (mergeUse (psLive (s.setReg a (BitVec.ofNat 32 v)))))
  else if 0x400A0100 ≤ a ∧ a < 0x400A0300 ∧ a % 0x40 = 0 then
    let u := (a - 0x400A0100) / 0x40
    let kind := bitsOf v 30 2
    let p1 := bitsOf v 20 4
    let p0 := bitsOf v 16 4
    let used (p : Nat) : Bool :=
      (List.range 8).any fun w => w != u && psKind l w != 0 && (sidePort l w 0 == p || sidePort l w 1 == p)
    rangeIf (kind != 0 && (p0 == p1 || used p0 || used p1 || bitsOf v 25 5 == 0 || Nat.blt 3600 (bitsOf v 0 12) ||
      (psKind l u != 0 && (kind != psKind l u || p0 != sidePort l u 0 || p1 != sidePort l u 1 ||
        bitsOf v 25 5 != s.get F.PS_GCFG_GID u)) ||
      Nat.blt 160 (mergeUse (psLive (s.setReg a (BitVec.ofNat 32 v))))))
  else St.ok

/-- What a write in block PS sets off at the next tick (R25, R489, R504). -/
def hookPs (a v _old : Nat) (s : State) : State :=
  if 0x400A0100 ≤ a ∧ a < 0x400A0300 then
    let u := (a - 0x400A0100) / 0x40
    if a % 0x40 = 0 then (if bitsOf v 30 2 = 0 then s.modGroup u fun g => { g with stop := true } else s)
    else if a % 0x40 = 0x10 then
      (if bitOf v 16 || Nat.ble 2 (bitsOf v 0 2) then s.modGroup u fun g => { g with endWtr := true } else s)
    else s
  else s

/-- A write of a register of block PS. -/
def writePs (s : State) (f : Field) (i v : Nat) : State := writeBy judgePs hookPs s (f.addr i) v

/-! ### Opcodes 0x50–0x52 -/

/-- PS_REQUEST (R493). -/
def bodyPsRequest (ps : List Byte) (s : State) : Out :=
  let u := byteAt ps 0
  let cmd := byteAt ps 1
  let side := byteAt ps 2
  if 7 < u ∨ 4 < cmd ∨ 1 < side then refuse s St.badParam
  else if s.get F.PS_GCFG_KIND u = 0 then refuse s St.wrongState
  else
    let v := if cmd = 4 then insertBits (s.get F.PS_GCMD u) 16 1 1 else cmd + side * 2 ^ 8
    let s := writePs s F.PS_GCMD u v
    .done s St.ok (toLE 4 (s.get F.PS_GSTAT u))

/-- PS_STATUS (R492). -/
def bodyPsStatus (ps : List Byte) (s : State) : Out :=
  let u := byteAt ps 0
  if 7 < u then refuse s St.badParam
  else
    let w := [s.get F.PS_GSTAT u, s.get F.PS_GWTR u, s.get F.PS_MRG_RO u, s.get F.LF_RX_PROT (s.get F.PS_GCFG_P0 u),
      s.get F.LF_RX_PROT (s.get F.PS_GCFG_P1 u), s.get F.PS_GTX u 0, s.get F.PS_GTX u 1]
    .done s St.ok (w.flatMap fun x => toLE 4 x)

/-- PS_RESKEW (R493). -/
def bodyPsReskew (ps : List Byte) (s : State) : Out :=
  let u := byteAt ps 0
  if 7 < u then refuse s St.badParam
  else if s.locked 10 then refuseLocked s
  else if s.get F.PS_GCFG_KIND u = 0 ∨ s.get F.PS_GCFG_KIND u = 3 then refuse s St.wrongState
  else
    match firstRo (psLive s) u with
    | none => refuse s St.wrongState
    | some (ro, _) =>
      .done (s.modGroup u fun g => { g with reskew := true }) St.ok
        (toLE 4 (s.get F.PS_MRG_RO u) ++ toLE 4 (ofSigned 32 ro))

/-! ### The commands -/

/-- GROUP_CONFIG_WRITE (R469). -/
def execGroupConfigWrite (u : Fin 8) (value : Word) (s : State) : Host.Outcome State Fault Refusal :=
  act s (writePs s F.PS_GCFG u value.toNat)

/-- MERGE_RELEASE (R478, R481): the releases of group u that fall before the end of the frame in progress. -/
def execMergeRelease (u : Fin 8) (s : State) : Host.Outcome State Fault Refusal := act s (releaseDue s u 12800)

/-- WTR_EXPIRED (R489): in the tick in which the timer has run down, when nothing has discarded it. -/
def execWtrExpired (u : Fin 8) (s : State) : Host.Outcome State Fault Refusal :=
  act s (if wtrDue s u then wtrExpire s u else s)

/-- END_WTR (R489): PS_GCMD[u].END_WTR written. -/
def execEndWtr (u : Fin 8) (s : State) : Host.Outcome State Fault Refusal :=
  act s (writePs s F.PS_GCMD u (insertBits (s.get F.PS_GCMD u) 16 1 1))

end Sys2Proof.Machine
end

