-- ==== Sys2Proof/Machine/Supply.lean ====
section
/-!
DEFINITION. Machine/Supply.lean: supplies, reset conditions and the die temperature (chapter 2), and the
release of internal reset (chapter 19).
-/
namespace Sys2Proof.Machine

/-- A condition of R55 begins: the unit enters internal reset, or stays in it and must find power-good again. -/
def resetCondition (s : State) (code : Nat) (lowRail : Bool) : State :=
  if s.chip.held && !lowRail then { s with chip.counting := false }
  else enterReset s code 0xFF lowRail

/-- POWER_GOOD (R55, R79, R702): the last condition has ended; the 2 ms towards release are counted from here. The
memories stand at their reset content. After a power-up or a low rail, LAST_RESET reads 3 when XO_IN was the last
condition to end, more than 1 ms after the others (R701).
DEDUCED, safe (notes/assumptions/14). -/
def execPowerGood (xoLast : Bool) (s : State) : Host.Outcome State Fault Refusal :=
  .next (if s.chip.held then
    let s := { s with
      chip.counting := true, chip.railLow := 0, chip.resetNLow := false, chip.testEn := false, chip.xoBad := false,
      chip.xoLast := xoLast }
    if s.chip.lowRail && xoLast then s.put F.FA_GSTAT_LAST_RESET 3 else s
  else s)

/-- The die temperature, the supplies and the synthesiser at release: a level condition that is present has begun anew (R666).
DEDUCED, safe (notes/assumptions/14). -/
def levelsAtRelease (s : State) : State :=
  let s := match s.chip.hot with
    | some t => raiseLevel s 16 t
    | none => s
  let s := if s.chip.railDip = 0 then s
    else raiseLevel s 17 (((List.range 7).find? fun r => s.chip.railDip.testBit r).getD 0)
  if s.chip.unlock then raiseLevel s 22 0 else s

/-- INTERNAL_RESET_RELEASE (R55, R91, R114, R304, R703): 2 ms after power-good, when no condition has returned. The
DOWEL_IN filter starts at the level at the ball, DOWEL_OUT goes to the held addressing state, and CREF_OK and CREF_LOST show
whether CREFCLK is there (R416).
DEDUCED, safe (notes/assumptions/6). DEDUCED, safe (notes/assumptions/14). -/
def execInternalResetRelease (dowelIn crefOk : Bool) (s : State) : Host.Outcome State Fault Refusal :=
  .next (if s.chip.held && s.chip.counting && !s.resetHeldBy then
    -- nothing that happened while reset was held leaves a trace but in what Table 19.2 keeps
    let s := enterReset s (s.get F.FA_GSTAT_LAST_RESET) s.chip.resetZ s.chip.lowRail
    let s := { s with chip.held := false, chip.counting := false, chip.lowRail := false, cyc := 0 }
    let s := s.put F.CH_STATUS_DOWEL_IN (b2n dowelIn)
    let s := s.driveDowel (s.get F.CH_ADDR_ADDRESSED)
    let s := refreshCref { s with chip.crefBad := !crefOk }
    settle (levelsAtRelease s)
  else s)

/-- RAIL_LOW (R55, R77, R91): internal reset, and the address, the quiet flags and the records of the middle column of
Table 19.2 are lost. An OTP burn that was in progress is interrupted (R191). -/
def execRailLow (rail : Fin 7) (s : State) : Host.Outcome State Fault Refusal :=
  let s := resetCondition s 0 true
  let s := { s with chip.railLow := s.chip.railLow ||| 2 ^ rail.val, chip.railDip := s.chip.railDip &&& (127 - 2 ^ rail.val) }
  .next (match s.otp.burn with
    | none => s
    | some (j, before) =>
      -- R191: which of the value's 1 bits were burnt is not defined; the marker is not
      let fuses := before ||| (s.reg (F.CH_ASSET.addr j) &&& s.drawn)
      ({ s.draw with otp.burn := none }).put F.CH_ASSET fuses.toNat j)

/-- SUPPLY_DIP (R78): the fault source is raised and the unit does not reset; DOWEL_OUT needs VDD_IO33 (R58). -/
def execSupplyDip (rail : Fin 7) (s : State) : Host.Outcome State Fault Refusal :=
  .next (if s.chip.railLow.testBit rail.val then s
  else
    let s := { s with chip.railDip := s.chip.railDip ||| 2 ^ rail.val }
    if s.chip.held then s
    else
      let s := if rail.val = 4 then s.driveDowel 0 else s
      settle (raiseLevel s 17 rail.val))

/-- Whether a low pulse on RESET_N of `ns` nanoseconds is recognised: always from 1 µs, never up to 100 ns, and either
way between (R56).
DESIGN CHOICE, safe (notes/assumptions/15). -/
def resetPulseTaken (s : State) (ns : Nat) : Bool :=
  if 1000 ≤ ns then true else if ns ≤ 100 then false else Config.shortPulseTaken s.freeIx

/-- RESET_N_LOW (R55, R56, R160, R210). -/
def execResetNLow (ns : Nat) (s : State) : Host.Outcome State Fault Refusal :=
  let taken := resetPulseTaken s ns
  let s := if 100 < ns ∧ ns < 1000 then s.draw else s
  .next (if taken then
    let s := resetCondition s 1 false
    { s with chip.resetNLow := true, chip.tapUsed := s.tapOwns }
  else s)

/-- TEST_EN_HIGH (R55, R80). -/
def execTestEnHigh (s : State) : Host.Outcome State Fault Refusal :=
  let s := resetCondition s 2 false
  .next { s with chip.testEn := true }

/-- TEMP_HIGH (R71, R86): the source is raised while the sensor reads 115 °C or more; the unit keeps operating. -/
def execTempHigh (tenths : Nat) (s : State) : Host.Outcome State Fault Refusal :=
  .next (if 1150 ≤ tenths then
    let s := { s with chip.hot := some tenths }
    if s.chip.held then s else settle (raiseLevel s 16 tenths)
  else s)

/-- LEVEL_CONDITION_END (R666, R698): the level condition of source z has ended, so a new beginning raises again. -/
def execLevelConditionEnd (z : Fin 23) (s : State) : Host.Outcome State Fault Refusal :=
  let s := endLevel s z.val
  .next (if z.val = 16 then { s with chip.hot := none }
  else if z.val = 22 then { s with chip.unlock := false }
  else if z.val = 17 then
    let s := { s with chip.railDip := 0 }
    if s.chip.held then s else s.driveDowel (s.get F.CH_ADDR_ADDRESSED)
  else s)

/-- DOWEL_IN_CHANGE (R90, R114): the level that has been stable for 1.0 µs becomes the filtered level; a fall while
ADDRESSED sets UPSTREAM_DROP. The filter does not run during internal reset. -/
def execDowelInChange (level : Bool) (s : State) : Host.Outcome State Fault Refusal :=
  let fell := s.on F.CH_STATUS_DOWEL_IN && !level
  act s (let s := s.put F.CH_STATUS_DOWEL_IN (b2n level)
    if fell && s.on F.CH_ADDR_ADDRESSED then s.raiseBit F.CH_STATUS_UPSTREAM_DROP else s)

end Sys2Proof.Machine
end

