-- ==== Sys2Proof/Machine/Tg.lean ====
section
/-!
DEFINITION. Machine/Tg.lean: Gauge (chapter 14): reference candidates, selection, the DPLLs, holdover, steering, the
quality-level word, outputs and realignment.
-/
namespace Sys2Proof.Machine

/-! ### Signed values in registers -/

def getS (s : State) (f : Field) (i : Nat := 0) (j : Nat := 0) : Int := toSigned f.w (s.get f i j)
def putS (s : State) (f : Field) (v : Int) (i : Nat := 0) (j : Nat := 0) : State := s.put f (ofSigned f.w v) i j

/-- A signed 64-bit value in two registers, low half first. -/
def getS64 (s : State) (f : Field) (i : Nat) : Int := toSigned 64 (s.get f i 0 + 2 ^ 32 * s.get f i 1)
def putS64 (s : State) (f : Field) (v : Int) (i : Nat) : State :=
  let n := ofSigned 64 v
  (s.put f (n % 2 ^ 32) i 0).put f (n / 2 ^ 32) i 1

/-- A signed value held within 32 bits. -/
def sat32 (v : Int) : Int := clampInt (-2147483648) 2147483647 v

def dpllX (s : State) (d : Nat) : DpllX := if d = 0 then s.tg.d0 else s.tg.d1
def modDpll (s : State) (d : Nat) (f : DpllX → DpllX) : State :=
  if d = 0 then { s with tg.d0 := f s.tg.d0 } else { s with tg.d1 := f s.tg.d1 }

def tgState (s : State) (d : Nat) : Nat := s.get F.TG_D_STAT_STATE d
def tgSel (s : State) (d : Nat) : Nat := s.get F.TG_D_STAT_SEL d
def tgMode (s : State) (d : Nat) : Nat := s.get F.TG_D_CTRL_MODE d
def xoOk (s : State) : Bool := s.on F.TG_GSTAT_XO_OK

/-! ### Qualification (R510–R512) -/

/-- The last gate's offset is there and within `lim` hundredths of WIN (0.01 ppm units against ppm). -/
def gateWithin (s : State) (j lim : Nat) : Bool :=
  s.get F.TG_REF_FREQ j != 0x80000000 && Nat.ble (getS s F.TG_REF_FREQ j).natAbs (lim * s.get F.TG_REF_CFG_WIN j)

/-- A complete gate lies outside WIN. -/
def gateBeyond (s : State) (j : Nat) : Bool := s.get F.TG_REF_FREQ j != 0x80000000 && !gateWithin s j 100

/-- QSTATE moves; REF_CHANGE is set. -/
def candMove (s : State) (j q : Nat) : State := (s.put F.TG_REF_STAT_QSTATE q j).raiseBit F.TG_EVENT_REF_CHANGE

/-- The candidate is inactive or out of its window. -/
def candFails (s : State) (j : Nat) : Bool := !s.on F.TG_REF_STAT_ACTIVE j || gateBeyond s j

/-- The wait of candidate j expires in the tick in progress: it has run down, and nothing disqualifies the candidate (R13, R538).
DEDUCED, safe (notes/assumptions/108). -/
def candWtrDue (s : State) (j : Nat) : Bool :=
  s.get F.TG_REF_STAT_QSTATE j == 1 && s.get F.TG_REF_WTR j == 0 && !candFails s j

def candQualify (s : State) (j : Nat) : State := candMove s j 2

/-- Table 14.3 at a tick; the expiry of a wait that has run down follows within the tick (`candWtrDue`).
DEDUCED, safe (notes/assumptions/108). -/
def candTick (s : State) (j : Nat) : State :=
  match s.get F.TG_REF_STAT_QSTATE j with
  | 0 =>
    if s.on F.TG_REF_STAT_ACTIVE j && gateWithin s j 90 then
      (candMove s j 1).put F.TG_REF_WTR (s.get F.TG_REF_CFG_WTR j * framesPerSec) j
    else s
  | 1 =>
    if candFails s j then candMove (s.put F.TG_REF_WTR 0 j) j 0
    else s.put F.TG_REF_WTR (s.get F.TG_REF_WTR j - 1) j
  | _ => if candFails s j then candMove s j 0 else s

/-! ### Effective quality level (R513) -/

/-- The code, hop count and hash that come with a candidate. -/
def candQl (s : State) (j : Nat) : Nat × Nat × Nat :=
  if j < 16 then
    let w := s.get F.LF_RX_QL j
    (bitsOf w 28 4, bitsOf w 22 6, bitsOf w 12 10)
  else (s.get F.TG_REF_SRC_QL j, 0, s.get F.TG_REF_SRC_HASH j)

/-- The effective QL of candidate j; candidate 20 has none. -/
def effQl (s : State) (j : Nat) : Nat :=
  let ovr := s.get F.TG_REF_SRC_QL_OVR j
  let (code, hop, hash) := candQl s j
  if 20 ≤ j then 0xF
  else if ovr ≠ 0 then qlCode ovr
  else if j < 16 ∧ (s.on F.DM_PSTATUS_SF j ∨ !s.tg.seen.testBit j) then 0xF
  else if qlCode code = 0xF then 0xF
  else if s.get F.TG_GCFG_HOP_MAX ≤ hop then 0xF
  else if hash = s.get F.TG_HASH_OWN_HASH then 0xF
  else code

/-- TG_REF_STAT[j] as it stands. -/
def showCand (s : State) (j : Nat) : State :=
  let q := candQl s j
  ((s.put F.TG_REF_STAT_EQL (effQl s j) j).put F.TG_REF_STAT_HOP q.2.1 j).put F.TG_REF_STAT_HASH q.2.2 j

/-! ### Selection (R514, R515) -/

/-- Candidate j is QUALIFIED in the tick in progress; DPLL_T0 as DPLL_T1's reference always is. -/
def candQualified (s : State) (j : Nat) : Bool := j == 20 || s.get F.TG_REF_STAT_QSTATE j == 2 || candWtrDue s j

/-- Candidate j is eligible for DPLL d (R515). -/
def candEligible (s : State) (d j : Nat) : Bool :=
  let q := effQl s j
  Nat.blt j 20 && candQualified s j && (if d = 0 then s.on F.TG_REF_CFG_EN_T0 j else s.on F.TG_REF_CFG_EN_T1 j) &&
    s.get F.TG_REF_CFG_PRIO j != 0 && q != 0xF && Nat.ble q (qlCode (s.get F.TG_D_QL_QL_MIN d))

/-- Whether candidate i ranks before candidate j. -/
def ranksBefore (s : State) (i j : Nat) : Bool :=
  let a := effQl s i
  let b := effQl s j
  Nat.blt a b || (a == b && (Nat.blt (s.get F.TG_REF_CFG_PRIO i) (s.get F.TG_REF_CFG_PRIO j) ||
    (s.get F.TG_REF_CFG_PRIO i == s.get F.TG_REF_CFG_PRIO j && Nat.blt i j)))

/-- DPLL_T0 in BRIDGING, HOLDOVER or FREERUN takes only what is better than the level it stands at (R515). -/
def betterThanOwn (s : State) (d j : Nat) : Bool :=
  let q := effQl s j
  if d ≠ 0 then true
  else
    match tgState s 0 with
    | 0 => Nat.blt q (qlCode (s.get F.TG_D_QL_QL_OWN))
    | 3 => Nat.blt q (qlCode (s.get F.TG_D_QL_QL_HO))
    | 4 => Nat.blt q (qlCode (if s.on F.TG_D_STAT_HO_OUT_OF_SPEC then s.get F.TG_D_QL_QL_OWN else s.get F.TG_D_QL_QL_HO))
    | _ => true

/-- The best candidate (R515). -/
def bestCand (s : State) (d : Nat) : Option Nat :=
  ((List.range 20).filter fun j => candEligible s d j && betterThanOwn s d j).foldl
    (fun b j => match b with
      | none => some j
      | some i => if ranksBefore s j i then some j else some i) none

/-- The selection of AUTOMATIC. -/
def autoSelect (s : State) (d : Nat) : Option Nat :=
  let cur := tgSel s d
  if candEligible s d cur then
    match bestCand s d with
    | none => some cur
    | some j =>
      let better := Nat.blt (effQl s j) (effQl s cur) ||
        (effQl s j == effQl s cur && Nat.blt (s.get F.TG_REF_CFG_PRIO j) (s.get F.TG_REF_CFG_PRIO cur) &&
          s.on F.TG_D_CTRL_REVERTIVE d)
      if better then some j else some cur
  else bestCand s d

/-- A forced candidate, when it is QUALIFIED. -/
def forced (s : State) (j : Nat) : Option Nat := if candQualified s j then some j else none

/-- FORCED_PIN finds its pair in FALLBACK. -/
def pinFallback (s : State) (d : Nat) : Bool :=
  tgMode s d == 2 && (pairSeen s (s.get F.TG_D_CTRL_PAIR d) 1).isNone

/-- What the selection of DPLL d yields (R514). -/
def selection (s : State) (d : Nat) : Option Nat :=
  match tgMode s d with
  | 0 => autoSelect s d
  | 1 => forced s (s.get F.TG_D_CTRL_FREF d)
  | 2 =>
    match pairSeen s (s.get F.TG_D_CTRL_PAIR d) 1 with
    | some false => forced s (s.get F.TG_D_CTRL_PREF_A d)
    | some true => forced s (s.get F.TG_D_CTRL_PREF_B d)
    | none => autoSelect s d
  | 6 => if d = 1 then some 20 else none
  | _ => none

/-! ### Holdover (R521, R522) -/

/-- The runs of a history without its newest `n` ticks. -/
def histDrop : Nat → List (Option Int × Nat) → List (Option Int × Nat)
  | _, [] => []
  | n, (v, k) :: h => if k ≤ n then histDrop (n - k) h else (v, k - n) :: h

/-- The LOCKED ticks among the newest `n`, and the sum of their frequencies.
DEDUCED, unsafe (notes/assumptions/71). -/
def histSum : Nat → List (Option Int × Nat) → Nat × Int
  | _, [] => (0, 0)
  | n, (v, k) :: h =>
    let m := min n k
    let rest := if k ≤ n then histSum (n - k) h else (0, 0)
    match v with
    | some x => (rest.1 + m, rest.2 + x * (m : Int))
    | none => rest

/-- The history's newest `n` ticks. -/
def histTake : Nat → List (Option Int × Nat) → List (Option Int × Nat)
  | _, [] => []
  | n, (v, k) :: h => if n = 0 then [] else if k ≤ n then (v, k) :: histTake (n - k) h else [(v, n)]

/-- One more tick of history.
DEDUCED, unsafe (notes/assumptions/71). -/
def histAdd (v : Option Int) : List (Option Int × Nat) → List (Option Int × Nat)
  | (w, k) :: h => if w = v then (w, k + 1) :: h else (v, 1) :: (w, k) :: h
  | [] => [(v, 1)]

/-- The holdover frequency that DPLL d would take (R521), and 0 whole window, 1 HO_SHORT, 2 HO_NO_HIST.
DEDUCED, unsafe (notes/assumptions/71). -/
def hoFrequency (s : State) (d : Nat) : Int × Nat :=
  let x := dpllX s d
  let window := 2 ^ s.get F.TG_D_CFG_HO_AVG d * framesPerSec
  let r := histSum window (histDrop framesPerSec x.hist)
  if r.1 = window then (roundHalfAway r.2 r.1, 0)
  else if framesPerSec ≤ r.1 then (roundHalfAway r.2 r.1, 1)
  else (x.base, 2)

/-- TG_D_HOFREQ[d]: the frequency in use, or the one that would be used. -/
def hoFreqView (s : State) (d : Nat) : Int :=
  if tgState s d = 4 ∨ tgState s d = 3 then (dpllX s d).saved.1 else (hoFrequency s d).1

/-- STATE of DPLL d, with SEL. -/
def tgMove (s : State) (d st sel : Nat) : State := (s.put F.TG_D_STAT_STATE st d).put F.TG_D_STAT_SEL sel d

/-- HOLDOVER left: its flags end.
DEDUCED, unsafe (notes/assumptions/71). -/
def leaveHo (s : State) (d : Nat) : State :=
  ((s.put F.TG_D_STAT_HO_OUT_OF_SPEC 0 d).put F.TG_D_STAT_HO_SHORT 0 d).put F.TG_D_STAT_HO_NO_HIST 0 d

/-- HO_OUT_OF_SPEC and HO_OOS set. -/
def hoOutOfSpec (s : State) (d : Nat) : State := (s.put F.TG_D_STAT_HO_OUT_OF_SPEC 1 d).raiseBit F.TG_D_EVENT_HO_OOS d

/-- HOLDOVER entered with the saved frequency (Table 14.4). -/
def enterHo (s : State) (d : Nat) : State :=
  let f := (dpllX s d).saved.2
  let s := (tgMove s d 4 31).raiseBit F.TG_D_EVENT_HO_ENTER d
  let s := (s.put F.TG_D_STAT_HO_SHORT (b2n (f == 1)) d).put F.TG_D_STAT_HO_NO_HIST (b2n (f == 2)) d
  let s := (modDpll s d fun x => { x with hoTicks := 0 }).put F.TG_D_HO_SEC 0 d
  if s.get F.TG_D_HO d = 0 then hoOutOfSpec s d else s

/-- HOLDOVER entered from a state other than BRIDGING. -/
def enterHoNow (s : State) (d : Nat) : State :=
  let h := hoFrequency s d
  let s := modDpll s d fun x => { x with saved := h }
  enterHo (if d = 0 then { s with tg.before := s.get F.TG_QL_OUT } else s) d

/-- What the tick in progress has found due on DPLL d. -/
def dueIs (s : State) (d k : Nat) : Bool := (dpllX s d).due == k
def setDue (s : State) (d k : Nat) : State := modDpll s d fun x => { x with due := k }

/-- The timer of HOLDOVER at a tick in which nothing was selected; it reaches HO_LIMIT (R522, R548). -/
def hoTick (s : State) (d : Nat) : State :=
  let s := modDpll s d fun x => { x with hoTicks := x.hoTicks + 1 }
  let s := s.put F.TG_D_HO_SEC ((dpllX s d).hoTicks / framesPerSec) d
  if !s.on F.TG_D_STAT_HO_OUT_OF_SPEC d && Nat.ble (s.get F.TG_D_HO d * framesPerSec) (dpllX s d).hoTicks then setDue s d 4 else s

/-! ### Taking a candidate (R519, R520) -/

/-- The phase of candidate j against DPLL d's own output, as sampled in this tick; one that the sample does not list lies
where the build-out puts it. -/
def candPhase (s : State) (i : FrameIn) (d j : Nat) : Int :=
  match i.cands.find? (fun c => c.1 == j) with
  | some (_, a, b) => if d = 0 then a else b
  | none => (dpllX s d).build

/-- The phase absorbed. -/
def absorb (s : State) (d : Nat) (amount : Int) : State :=
  let s := putS64 s F.TG_D_ABS (getS64 s F.TG_D_ABS d + amount) d
  putS s F.TG_D_ABS_LAST (sat32 amount) d

/-- DPLL d takes candidate j: the state it enters, its phase absorbed. -/
def takeCand (s : State) (i : FrameIn) (d j : Nat) : State :=
  let raw := candPhase s i d j
  let s := leaveHo s d
  let on := d == 0 || s.on F.TG_D_CFG_ABSORB d
  let s := if on then absorb s d raw else s
  let s := modDpll s d fun x => { x with build := if on then raw else 0, lockN := 0, lostN := 0, grace := 0 }
  let s := putS s F.TG_D_PHERR (if on then 0 else sat32 raw) d
  tgMove s d (if j = 20 then 6 else 1) j

/-! ### A tick of a DPLL (Table 14.4) -/

/-- The phase error of DPLL d in this tick; it is not measured while the selected candidate is inactive. -/
def phaseTick (s : State) (i : FrameIn) (d : Nat) : State :=
  let j := tgSel s d
  if s.on F.TG_REF_STAT_ACTIVE j ∧ j < 20 then
    putS s F.TG_D_PHERR (sat32 (candPhase s i d j - (dpllX s d).build)) d
  else s

/-- LOCK_WIN in ps. -/
def lockWin (s : State) (d : Nat) : Nat := s.get F.TG_D_CFG_LOCK_WIN d * 1000

def phaseAbs (s : State) (d : Nat) : Nat := (getS s F.TG_D_PHERR d).natAbs

def toLockedD (s : State) (d : Nat) : State :=
  modDpll ((s.put F.TG_D_STAT_STATE 2 d).raiseBit F.TG_D_EVENT_LOCKED d) d fun x => { x with lockN := 0, lostN := 0 }
def lockLost (s : State) (d : Nat) : State :=
  modDpll ((s.put F.TG_D_STAT_STATE 1 d).raiseBit F.TG_D_EVENT_LOCK_LOST d) d fun x => { x with lockN := 0, lostN := 0 }

/-- The lock counts of this tick: 31,250 within LOCK_WIN, or 32 beyond four times it, are due. -/
def lockTick (s : State) (d : Nat) : State :=
  let within := Nat.ble (phaseAbs s d) (lockWin s d)
  let beyond := Nat.blt (4 * lockWin s d) (phaseAbs s d)
  let a := if tgState s d = 1 ∧ within then (dpllX s d).lockN + 1 else 0
  let b := if tgState s d = 2 ∧ beyond then (dpllX s d).lostN + 1 else 0
  modDpll s d fun x => { x with
    lockN := min a 31250, lostN := min b 32, due := if Nat.ble 31250 a then 1 else if Nat.ble 32 b then 2 else 0 }

/-- BRIDGING entered: the frequency is held, and the holdover frequency settled (R521). -/
def enterBridging (s : State) (d : Nat) : State :=
  let h := hoFrequency s d
  let s := (tgMove s d 3 31).raiseBit F.TG_D_EVENT_BRIDGING d
  let s := modDpll s d fun x => { x with saved := h, grace := 0 }
  if d = 0 then { s with tg.before := s.get F.TG_QL_OUT } else s

/-- A tick of BRIDGING without a candidate: the last of HO_GRACE brings HOLDOVER. -/
def bridgeTick (s : State) (d : Nat) : State :=
  modDpll s d fun x => { x with
    grace := x.grace + 1, due := if Nat.ble (s.get F.TG_D_CFG_HO_GRACE d) (x.grace + 1) then 3 else 0 }

/-- What the tick in progress has found due on DPLL d is done (Table 14.4).
DEDUCED, safe (notes/assumptions/108). -/
def dueNow (s : State) (d : Nat) : State :=
  let k := (dpllX s d).due
  let s := if k = 0 then s else setDue s d 0
  match k with
  | 1 => toLockedD s d
  | 2 => lockLost s d
  | 3 => enterHo s d
  | 4 => hoOutOfSpec s d
  | _ => s

/-- STATE of DPLL d once what the tick in progress has found due is done. -/
def tgStands (s : State) (d : Nat) : Nat :=
  match (dpllX s d).due with
  | 1 => 2
  | 2 => 1
  | 3 => 4
  | _ => tgState s d

/-- HO_OUT_OF_SPEC of DPLL d once what the tick in progress has found due is done. -/
def outOfSpec (s : State) (d : Nat) : Bool :=
  s.on F.TG_D_STAT_HO_OUT_OF_SPEC d || dueIs s d 4 || (dueIs s d 3 && s.get F.TG_D_HO d == 0)

/-- DPLL_T1 without a candidate (R519, R524).
DEDUCED, unsafe (notes/assumptions/72). -/
def t1Loss (s : State) (i : FrameIn) : State :=
  if s.on F.TG_D_CTRL_LOSS_FREERUN 1 then tgMove (leaveHo s 1) 1 0 31 else takeCand s i 1 20

/-- MODE of DPLL d, written since the last tick (R25, Table 14.4); none where it asks for nothing of its own.
DEDUCED, unsafe (notes/assumptions/72). -/
def modeWritten (s : State) (i : FrameIn) (d : Nat) : Option State :=
  match tgMode s d with
  | 3 => some (tgMove (leaveHo s d) d 5 31)
  | 4 => if tgState s d = 4 then none else some (enterHoNow s d)
  | 5 => some (tgMove (leaveHo s d) d 0 31)
  | 6 => if d = 1 ∧ tgState s d ≠ 6 then some (takeCand s i 1 20) else none
  | _ => none

/-- The state machine of DPLL d at a tick, after qualification, without a written MODE. -/
def dpllMove (s : State) (i : FrameIn) (d : Nat) : State :=
  let st := tgState s d
  let sel := tgSel s d
  match selection s d with
  | some c =>
    if st = 1 ∨ st = 2 then
      (if c = sel then lockTick (phaseTick s i d) d
      else (takeCand s i d c).raiseBit F.TG_D_EVENT_SWITCHED d)
    else if st = 6 ∧ c = 20 then s
    else
      let s := if st = 4 then s.raiseBit F.TG_D_EVENT_HO_EXIT d else s
      let s := takeCand s i d c
      if st = 3 then s.raiseBit F.TG_D_EVENT_SWITCHED d else s
  | none =>
    let byMode := Nat.ble 3 (tgMode s d)
    if st = 5 ∧ tgMode s d = 3 then s
    else if d = 1 ∧ !byMode then (if st = (if s.on F.TG_D_CTRL_LOSS_FREERUN 1 then 0 else 6) then s else t1Loss s i)
    else
      match st with
      | 1 | 2 => enterBridging s d
      | 3 => bridgeTick s d
      | 4 => hoTick s d
      | 5 => enterHoNow s d
      | _ => s

/-- DPLL d at a tick (Table 14.4): it moves as a written MODE asks, or by itself. What the table names with an event of its own is left due, for
its row or the end of the tick.
DEDUCED, unsafe (notes/assumptions/70). DEDUCED, safe (notes/assumptions/108). -/
def dpllMachine (s : State) (i : FrameIn) (d : Nat) : State :=
  let wrote := (dpllX s d).modeW
  let s := modDpll s d fun x => { x with due := 0, modeW := false }
  match (if wrote then modeWritten s i d else none) with
  | some s => s
  | none => dpllMove s i d

/-! ### Frequency and phase (R518, R523, R532) -/

/-- The most that a ramp moves in one tick: FRAMP ppm/s over 32 µs.
DEDUCED, unsafe (notes/assumptions/70). -/
def rampStep (s : State) : Int := (s.get F.TG_GCFG_FRAMP : Int) * 2097152

def rampTo (s : State) (from_ goal : Int) : Int :=
  let r := rampStep s
  if goal < from_ - r then from_ - r else if from_ + r < goal then from_ + r else goal

/-- The frequency of DPLL d after a tick, without excursions. -/
def baseTick (s : State) (i : FrameIn) (d : Nat) : Int :=
  let x := dpllX s d
  match tgStands s d with
  | 0 => rampTo s x.base 0
  | 1 | 2 =>
    if s.on F.TG_REF_STAT_ACTIVE (tgSel s d) then ((if d = 0 then i.freq0 else i.freq1).getD x.base) else x.base
  | 4 => rampTo s x.base x.saved.1
  | 5 => rampTo s x.base (getS64 s F.TG_D_STEER_F d)
  | 6 => s.tg.d0.base
  | _ => x.base

/-- What is left of a phase move after a tick at `ppb`, in fs, and the sign of the excursion. -/
def workOff (left : Int) (ppb : Nat) : Int × Int :=
  let w : Int := (ppb : Int) * 32
  if left = 0 then (0, 0)
  else if 0 < left then (if left ≤ w then (0, 1) else (left - w, 1))
  else (if -w ≤ left then (0, -1) else (left + w, -1))

/-- Frequency and pending phase of DPLL d after a tick.
DEDUCED, unsafe (notes/assumptions/70). -/
def freqTick (s : State) (i : FrameIn) (d : Nat) : State :=
  let base := if xoOk s then baseTick s i d else (dpllX s d).base
  let w := if tgState s d = 5 then workOff (dpllX s d).left (s.get F.TG_D_PSLEW d) else ((dpllX s d).left, 0)
  let rl : Int := if d = 0 then (workOff s.tg.rl (s.get F.TG_RL_CFG_RL_SLEW)).2 * (s.get F.TG_RL_CFG_RL_SLEW : Int) else 0
  let s := modDpll s d fun x => { x with
    base := base, left := w.1
    hist := histTake ((4096 + 2) * framesPerSec) (histAdd (if tgStands s d = 2 then some base else none) x.hist) }
  let exc : Int := w.2 * (s.get F.TG_D_PSLEW d : Int) + rl
  let s := putS64 s F.TG_D_FREQ (if d = 1 ∧ tgState s 1 = 6 then getS64 s F.TG_D_FREQ 0 else base + exc * 65536000) d
  putS s F.TG_D_STEER_LEFT (sat32 (w.1 / 1000)) d

/-- The local-frame realignment at a tick (R532). -/
def rlFinish (s : State) : State :=
  let s := (((s.put F.TG_GSTAT_REALIGNING 0).put F.TG_RL_LEFT 0).raiseBit F.TG_EVENT_RL_DONE)
  { s with tg.rl := 0, num.moved := true, num.moving := false }

/-- The move is done in the tick in progress.
DEDUCED, safe (notes/assumptions/108). -/
def rlDue (s : State) : Bool := s.on F.TG_GSTAT_REALIGNING && s.tg.rl == 0

/-- The move at a tick, and DPLL_T0's build-out with it (R532).
DEDUCED, unsafe (notes/assumptions/70). -/
def rlTick (s : State) : State :=
  if !s.on F.TG_GSTAT_REALIGNING then s
  else
    let left := (workOff s.tg.rl (s.get F.TG_RL_CFG_RL_SLEW)).1
    let s := putS s F.TG_RL_LEFT (roundHalfAway left 2500000)
    let s := modDpll s 0 fun x => { x with build := x.build + (s.tg.rl / 1000 - left / 1000) }
    { s with tg.rl := left, num.moved := true, num.moving := true }

/-! ### The T1 outputs (R530, R531) -/

/-- The words that hold DIV, DLY, SEL and WIDTH. -/
def outWords (s : State) : List Nat :=
  (List.range 4).map (fun o => s.get F.TG_CK_CFG_DIV o) ++ (List.range 4).map (fun o => s.get F.TG_CK_DLY_DLY o) ++
    (List.range 2).map fun o => s.get F.TG_FP_CFG o % 2 ^ 31

/-- A T1-output realignment takes effect at the start of local frame `n`. -/
def t1Realign (s : State) (n : Nat × Nat) : State :=
  let s := (putS s F.TG_T1_OFS (getS s F.TG_OUT_OFS)).raiseBit F.TG_EVENT_T1_ALIGNED
  { s with tg.t1In := 0, tg.t1Due := false, tg.t1num := n, tg.outs := outWords s }

/-- The T1 epoch at a local frame start. -/
def t1Tick (s : State) (i : FrameIn) : State :=
  let s : State := { s with tg.t1num := nextNum s.tg.t1num }
  let s := if tgState s 1 = 6 then s else putS s F.TG_T1_OFS (sat32 (getS s F.TG_T1_OFS + i.t1))
  { s with tg.t1In := s.tg.t1In - 1, tg.t1Due := s.tg.t1In == 1 }

/-! ### The quality-level word (R527) -/

/-- A QL word from code, hop count and hash. -/
def qlWord (code hop hash : Nat) : Nat := code % 16 * 2 ^ 28 + hop % 64 * 2 ^ 22 + hash % 1024 * 2 ^ 12

/-- The word of the table of R527, by STATE; no code but 0x1–0x5 and 0xF goes out (R14). -/
def qlTable (s : State) : Nat :=
  let own := s.get F.TG_HASH_OWN_HASH
  let sel := tgSel s 0
  match tgStands s 0 with
  | 1 | 2 =>
    let q := candQl s sel
    if sel < 16 then qlWord (effQl s sel) (min 63 (q.2.1 + 1)) q.2.2 else qlWord (effQl s sel) 0 q.2.2
  | 3 => s.tg.before
  | 4 =>
    if outOfSpec s 0 then qlWord (qlCode (s.get F.TG_D_QL_QL_OWN)) 0 own
    else qlWord (max (qlCode (s.get F.TG_D_QL_QL_HO)) (qlCode (bitsOf s.tg.before 28 4))) 0 own
  | 5 => qlWord (qlCode (s.get F.TG_D_QL_QL_STEER)) 0 own
  | _ => qlWord (qlCode (s.get F.TG_D_QL_QL_OWN)) 0 own

/-- TG_QL_OUT: the table, or what TG_QL_FORCE puts in its place; the code is 0xF while XO_IN is lost. -/
def qlOut (s : State) : Nat :=
  let w := if s.on F.TG_QL_FORCE_EN then
      qlWord (qlCode (s.get F.TG_QL_FORCE_QL)) (s.get F.TG_QL_FORCE_HOP) (s.get F.TG_QL_FORCE_HASH)
    else qlTable s
  if xoOk s then w else insertBits w 28 4 0xF

/-- The word of a loop-timed port (R527). -/
def loopWord (s : State) : Nat := qlWord 0xF 0 (s.get F.TG_HASH_OWN_HASH)

/-- The word that port p sends (R527). -/
def portQl (s : State) (p : Nat) : Nat :=
  let w := s.get F.TG_QL_OUT
  if s.on F.LP_CTRL_TX_TIMING p && !s.on F.LP_STATUS_LOOP_FALLBACK p then s.tg.loopQl.getD (loopWord s)
  else if s.tg.dnu && tgSel s 0 == p then insertBits w 28 4 0xF
  else w

/-! ### A tick (R514) -/

/-- SEL_QL, BW_USED and PIN_FALLBACK as they stand (R514, R525). -/
def showDpll (s : State) (d : Nat) : State :=
  let sel := tgSel s d
  let ql := if sel < 20 then effQl s sel else 0xF
  let bw := if tgStands s d = 1 then s.get F.TG_D_CFG_ACQ_BW d else s.get F.TG_D_CFG_BW d
  let cap := if 16 ≤ sel ∧ sel < 20 then
      (match s.get F.TG_REF_SRC_FREQ sel with
      | 0 => 4
      | 1 => 13
      | _ => 15)
    else 15
  ((s.put F.TG_D_STAT_SEL_QL ql d).put F.TG_D_STAT_BW_USED (min bw cap) d).put F.TG_D_STAT_PIN_FALLBACK
    (b2n (pinFallback s d)) d

/-- Block TG at a tick: candidates, selection, frequency, outputs and the QL word. -/
def tgTick (s : State) (i : FrameIn) : State :=
  let s := forN 20 (fun j s => showCand (if xoOk s then candTick s j else s) j) s
  let s := if xoOk s then forN 2 (fun d s => dpllMachine s i d) s else forN 2 (fun d s => hoTick s d) s
  let s := forN 2 (fun d s => showDpll (freqTick s i d) d) s
  let s := t1Tick (rlTick s) i
  { s.put F.TG_QL_OUT (qlOut s) with tg.dnu := s.on F.TG_GCFG_DNU_BACK, tg.loopQl := some (loopWord s) }

/-- What the tick that ends has found due and no row has told.
DEDUCED, safe (notes/assumptions/108). -/
def tgTickEnd (s : State) : State :=
  let s := forN 20 (fun j s => if candWtrDue s j then candQualify s j else s) s
  let s := forN 2 (fun d s => dueNow s d) s
  let s := if rlDue s then rlFinish s else s
  if s.tg.t1Due then t1Realign s s.frameNum else s

/-! ### Loss of XO_IN (R534) -/

/-- DEDUCED, unsafe (notes/assumptions/72). -/
def xoLost (s : State) : State :=
  let s := (s.put F.TG_GSTAT_XO_OK 0).raiseBit F.TG_EVENT_XO_LOST
  let s := forN 20 (fun j s => ((s.put F.TG_REF_STAT_QSTATE 0 j).put F.TG_REF_WTR 0 j).put F.TG_REF_FREQ 0x80000000 j) s
  let s := forN 2 (fun d s =>
    -- the timer of a HOLDOVER that has begun goes on
    let fresh := tgState s d != 4
    let s := modDpll ((tgMove s d 4 31).put F.TG_D_STAT_HO_OUT_OF_SPEC 1 d) d fun x => { x with
      saved := (x.base, 0), hoTicks := if fresh then 0 else x.hoTicks, due := 0 }
    if fresh then s.put F.TG_D_HO_SEC 0 d else s) s
  raiseLevel (s.put F.TG_QL_OUT (qlOut s)) 15 0

/-! ### Register writes (R509, R517–R529) -/

/-- What block TG refuses. -/
def judgeTg (s : State) (a v : Nat) : Nat :=
  let o := a - 0x400B0000
  if o = 0 then rangeIf (bitsOf v 16 8 == 0)
  else if o = 0x10 then rangeIf (bitsOf v 0 17 == 0 || Nat.blt 100000 (bitsOf v 0 17))
  else if 0x40 ≤ o ∧ o < 0x60 ∧ o % 8 = 0 then rangeIf (Nat.blt (bitsOf v 0 24) 10)
  else if o = 0x60 ∨ o = 0x64 then
    let w := bitsOf v 4 14
    rangeIf (w == 0 || (bitsOf v 0 2 == 1 && Nat.ble 3200 w))
  else if 0x100 ≤ o ∧ o < 0x200 then
    let d := (o - 0x100) / 0x80
    match (o - 0x100) % 0x80 with
    | 0x00 =>
      let top := if d = 0 then 19 else 20
      rangeIf (bitsOf v 0 3 == 7 || (d == 0 && bitsOf v 0 3 == 6) || Nat.blt top (bitsOf v 8 5) || Nat.blt top (bitsOf v 16 5) ||
        Nat.blt top (bitsOf v 24 5))
    | 0x04 => rangeIf (Nat.ble 14 (bitsOf v 0 4) || Nat.ble 14 (bitsOf v 4 4) || (d == 0 && !bitOf v 8) ||
        Nat.blt 12 (bitsOf v 12 4) || bitsOf v 16 8 == 0 || bitsOf v 24 4 == 0)
    | 0x48 => rangeIf (tgState s d != 5)
    | 0x4C => rangeIf (v == 0 || Nat.blt 500000 v)
    | _ => St.ok
  else if 0x400 ≤ o then
    let j := (o - 0x400) / 0x20
    match (o - 0x400) % 0x20 with
    | 0x00 => rangeIf (bitsOf v 16 8 == 0 || Nat.blt 3600 (bitsOf v 0 12))
    | 0x04 => rangeIf (Nat.ble 9 (bitsOf v 16 4) || (Nat.blt j 16 && (bitsOf v 12 8 != 0 || bitsOf v 0 10 != 0)))
    | _ => St.ok
  else St.ok

/-- The bound of a steered frequency: 500 ppm. -/
def steerBound : Int := 0x1DCD65000000

/-- TG_D_STEER_F[d] held within its bound (R523, R545). -/
def steerClamp (s : State) (d : Nat) : State :=
  let f := toSigned 48 (s.get F.TG_D_STEER_F d 0 + 2 ^ 32 * s.get F.TG_D_STEER_F d 1)
  let c := clampInt (-steerBound) steerBound f
  putS64 (if c = f then s else s.raiseBit F.TG_EVENT_STEER_CLAMP) F.TG_D_STEER_F c d

/-- A phase step added to the pending phase. -/
def steerStep (s : State) (d : Nat) (ps : Int) : State :=
  let s := modDpll s d fun x => { x with left := x.left + ps * 1000 }
  putS s F.TG_D_STEER_LEFT (sat32 ((dpllX s d).left / 1000)) d

/-- What a write in block TG sets off. -/
def hookTg (a v _old : Nat) (s : State) : State :=
  let o := a - 0x400B0000
  if 0x100 ≤ o ∧ o < 0x200 then
    let d := (o - 0x100) / 0x80
    match (o - 0x100) % 0x80 with
    | 0x00 => modDpll s d fun x => { x with modeW := true }
    | 0x40 | 0x44 => steerClamp s d
    | 0x48 => steerStep s d (toSigned 32 v)
    | _ => s
  else s

/-- A write of a register of block TG. -/
def writeTg (s : State) (f : Field) (i v : Nat) : State := writeBy judgeTg hookTg s (f.addr i) v

/-! ### Opcodes 0x60–0x62 -/

/-- TG_REALIGN (R532, R535, R536).
DEDUCED, unsafe (notes/assumptions/111). -/
def bodyTgRealign (ps : List Byte) (s : State) : Out :=
  let target := byteAt ps 0
  let src := byteAt ps 1
  let a := toSigned 32 (leAt ps 2 4)
  let loc := target.testBit 0
  if target = 0 ∨ 3 < target ∨ 1 < src then refuse s St.badParam
  else if loc ∧ src = 1 ∧ 12799 < a.natAbs then refuse s St.range
  else if loc ∧ (s.on F.TG_GSTAT_REALIGNING ∨ (src = 0 ∧ (s.get F.LF_NUM_STATUS_STATE ≠ 2 ∨ !srcGood s))) then
    refuse s St.wrongState
  else
    let amount : Int := if !loc then 0 else if src = 1 then a else -(getS s F.LF_NUM_ERR)
    -- a frame that starts in cycle S + 1 is not one after it (R531)
    let soon := Nat.ble frameCycles s.inFrame
    let first := if soon then nextNum s.secondNext else s.secondNext
    let s := if loc then
        let s := putS (s.put F.TG_GSTAT_REALIGNING 1) F.TG_RL_LEFT amount
        { s with tg.rl := amount * 2500000, num.moving := true }
      else s
    let t1 := target.testBit 1
    let s : State := if t1 then { s with tg.t1In := if soon then 3 else 2 } else s
    .done s St.ok (toLE 4 (ofSigned 32 amount) ++ (if t1 then numBytes first else [0, 0, 0, 0, 0, 0]))

/-- TG_STEER (R535, R536). -/
def bodyTgSteer (ps : List Byte) (s : State) : Out :=
  let d := byteAt ps 0
  let f := toSigned 48 (leAt ps 1 6)
  let step := toSigned 32 (leAt ps 7 4)
  if 1 < d then refuse s St.badParam
  else if step ≠ 0 ∧ tgState s d ≠ 5 then refuse s St.wrongState
  else
    let c := clampInt (-steerBound) steerBound f
    let s := steerClamp (putS64 s F.TG_D_STEER_F f d) d
    let s := if step = 0 then s else steerStep s d step
    .done s St.ok (toLE 6 (ofSigned 48 c) ++ toLE 4 (s.get F.TG_D_STEER_LEFT d) ++ toLE 1 (b2n (c != f)))

/-- TG_STATUS (R535). -/
def bodyTgStatus (ps : List Byte) (s : State) : Out :=
  let d := byteAt ps 0
  if 1 < d then refuse s St.badParam
  else
    .done s St.ok (toLE 4 (s.get F.TG_D_STAT d) ++ toLE 4 (s.get F.TG_D_PHERR d) ++
      toLE 4 (s.get F.TG_D_FREQ d 0) ++ toLE 4 (s.get F.TG_D_FREQ d 1) ++ toLE 4 (s.get F.TG_D_HO_SEC d) ++
      toLE 4 (s.get F.TG_QL_OUT) ++ toLE 4 (s.get F.TG_D_ABS_LAST d))

/-! ### The commands -/

/-- XO_IN_LOST (R55, R534): in internal reset the unit must find power-good again; out of it Gauge holds. -/
def execXoInLost (s : State) : Host.Outcome State Fault Refusal :=
  let s : State := { s with chip.xoBad := true }
  .next (if s.chip.held then { s with chip.counting := false } else if xoOk s then settle (xoLost s) else s)

/-- XO_IN_RETURN (R534): qualification restarts and the DPLLs continue by Table 14.4, under the MODE that stands.
DEDUCED, unsafe (notes/assumptions/72). -/
def execXoInReturn (s : State) : Host.Outcome State Fault Refusal :=
  let s : State := { s with chip.xoBad := false }
  .next (if s.chip.held ∨ xoOk s then s
  else
    let s := endLevel ((s.put F.TG_GSTAT_XO_OK 1).raiseBit F.TG_EVENT_XO_BACK) 15
    let gates := (List.range 20).foldl (fun m j => SMap.set (fun _ => 0) m j s.frameTotal) s.tg.gate
    forN 2 (fun d s => modDpll s d fun x => { x with modeW := true }) { s with tg.gate := gates })

/-- Whether the clock of candidate j is there as the unit itself knows it: a line candidate follows RCLK_VALID. -/
def lineClock (s : State) (j : Nat) : Bool := s.on F.LP_STATUS_RCLK_VALID j

/-- REFERENCE_INACTIVE (R510). -/
def execReferenceInactive (j : Fin 20) (s : State) : Host.Outcome State Fault Refusal :=
  act s (if j.val < 16 ∧ lineClock s j then s else candInactive s j)

/-- REFERENCE_ACTIVE (R510, R511). -/
def execReferenceActive (j : Fin 20) (s : State) : Host.Outcome State Fault Refusal :=
  act s (if s.on F.TG_REF_STAT_ACTIVE j ∨ (j.val < 16 ∧ !lineClock s j) then s else candActive s j)

/-- Ticks of a gate (R511).
DEDUCED, unsafe (notes/assumptions/72). -/
def gateTicks (s : State) (j : Nat) : Nat := if Nat.ble 16 j && s.get F.TG_REF_SRC_FREQ j == 0 then 500000 else 3125

/-- FREQUENCY_GATE_COMPLETE (R511): the offset from nominal, in 0.01 ppm, at the end of a gate; the next one begins. -/
def execFrequencyGateComplete (j : Fin 20) (offset : Int) (s : State) : Host.Outcome State Fault Refusal :=
  act s (if s.on F.TG_REF_STAT_ACTIVE j && xoOk s &&
      Nat.ble (gateTicks s j) (framesSince s (SMap.get (fun _ => 0) s.tg.gate j)) then
    putS { s with tg.gate := SMap.set (fun _ => 0) s.tg.gate j s.frameTotal } F.TG_REF_FREQ
      (clampInt (-2147483647) 2147483647 offset) j
  else s)

/-- REFERENCE_WTR_EXPIRY (R512): in the tick in which the wait has run down. -/
def execReferenceWtrExpiry (j : Fin 20) (s : State) : Host.Outcome State Fault Refusal :=
  act s (if candWtrDue s j then candQualify s j else s)

/-- DPLL_LOCKED (R516). -/
def execDpllLocked (d : Fin 2) (s : State) : Host.Outcome State Fault Refusal :=
  act s (if dueIs s d 1 then dueNow s d else s)

/-- LOCK_LOST (R516). -/
def execLockLost (d : Fin 2) (s : State) : Host.Outcome State Fault Refusal :=
  act s (if dueIs s d 2 then dueNow s d else s)

/-- HO_ENTER (R516): HO_GRACE ticks of BRIDGING pass with no candidate. -/
def execHoEnter (d : Fin 2) (s : State) : Host.Outcome State Fault Refusal :=
  act s (if dueIs s d 3 then dueNow s d else s)

/-- HO_OUT_OF_SPEC (R522, R548). -/
def execHoOutOfSpec (d : Fin 2) (s : State) : Host.Outcome State Fault Refusal :=
  act s (if dueIs s d 4 then dueNow s d else s)

/-- DPLL_MODE_WRITE (R516): MODE of TG_D_CTRL[d] written. -/
def execDpllModeWrite (d : Fin 2) (mode : Fin 8) (s : State) : Host.Outcome State Fault Refusal :=
  act s (writeTg s F.TG_D_CTRL d (insertBits (s.get F.TG_D_CTRL d) 0 3 mode))

/-- STEER_FREQUENCY_WRITE (R523): both words of TG_D_STEER_F[d] written in one command. -/
def execSteerFrequencyWrite (d : Fin 2) (f : BitVec 64) (s : State) : Host.Outcome State Fault Refusal :=
  act s (writeGroup judgeTg hookTg s
    [(F.TG_D_STEER_F.addr d, f.toNat % 2 ^ 32), (F.TG_D_STEER_F.addr d 1, f.toNat / 2 ^ 32)])

/-- STEER_PHASE_STEP (R523): TG_D_STEER_P[d] written. -/
def execSteerPhaseStep (d : Fin 2) (step : Word) (s : State) : Host.Outcome State Fault Refusal :=
  act s (writeTg s F.TG_D_STEER_P d step.toNat)

/-- T1_REALIGNMENT (R531): at the second local frame start after the request. -/
def execT1Realignment (s : State) : Host.Outcome State Fault Refusal :=
  act s (if s.tg.t1Due then t1Realign s s.frameNum else s)

/-- RL_DONE (R532). -/
def execRlDone (s : State) : Host.Outcome State Fault Refusal := act s (if rlDue s then rlFinish s else s)

end Sys2Proof.Machine
end

