-- ==== Sys2Proof/Machine/Tm.lean ====
section
/-!
DEFINITION. Machine/Tm.lean: the eight timers (chapter 15): counters, compares, overflow and the pin level.
-/
namespace Sys2Proof.Machine

/-! ### Counter and compares (R567–R569) -/

/-- The TOD in nanoseconds modulo 2^64, as SRC 1 counts it (R567). -/
def todNs64 (s : State) : Nat := (s.tod.sec * 1000000000 + s.todNanos) % 2 ^ 64

def tmSrc (s : State) (k : Nat) : Nat := s.get F.TM_CFG_SRC k
def tmEn (s : State) (k : Nat) : Bool := s.on F.TM_CFG_EN k
def tmHeld (s : State) (k : Nat) : Nat := s.get F.TM_CNT k 0 + 2 ^ 32 * s.get F.TM_CNT k 1
def setTmHeld (s : State) (k v : Nat) : State := (s.put F.TM_CNT (v % 2 ^ 32) k 0).put F.TM_CNT (v / 2 ^ 32) k 1

/-- Timer k's counter: the TOD itself while it counts from SRC 1 (R567).
DEDUCED, unsafe (notes/assumptions/76). -/
def tmCount (s : State) (k : Nat) : Nat := if tmEn s k && tmSrc s k == 1 then todNs64 s else tmHeld s k

def tmCmp (s : State) (k c : Nat) : Nat := s.get F.TM_CMP_LO k c + 2 ^ 32 * s.get F.TM_CMP_HI k c
def setTmCmp (s : State) (k c v : Nat) : State := (s.put F.TM_CMP_LO (v % 2 ^ 32) k c).put F.TM_CMP_HI (v / 2 ^ 32) k c

/-- How far `c` lies ahead of `v`, modulo 2^64. -/
def aheadBy (c v : Nat) : Nat := (c + 2 ^ 64 - v) % 2 ^ 64

/-- `c` is ahead of `v` (R569). -/
def tmAhead (c v : Nat) : Bool := Nat.ble 1 (aheadBy c v) && Nat.blt (aheadBy c v) (2 ^ 63)

/-- An action on the pin level: none, high, low, toggle (R569). -/
def tmAct (s : State) (k act : Nat) : State :=
  match act with
  | 1 => s.put F.TM_STAT_LEVEL 1 k
  | 2 => s.put F.TM_STAT_LEVEL 0 k
  | 3 => s.put F.TM_STAT_LEVEL (1 - s.get F.TM_STAT_LEVEL k) k
  | _ => s

def catching (s : State) (k c : Nat) : Bool := (s.get F.TM_STAT_CATCHUP k).testBit c
def setCatching (s : State) (k c : Nat) (b : Bool) : State :=
  s.put F.TM_STAT_CATCHUP ((s.get F.TM_STAT_CATCHUP k &&& (15 - 2 ^ c)) ||| (b2n b * 2 ^ c)) k

/-- The compare moved on by INC; CATCHUP shows whether it is still not ahead (R569). -/
def tmInc (s : State) (k c v1 : Nat) : State :=
  let inc := s.get F.TM_INC k c
  let n := (tmCmp s k c + inc) % 2 ^ 64
  if inc = 0 then setCatching s k c false else setCatching (setTmCmp s k c n) k c (!tmAhead n v1)

/-- The cycle in progress loads timer k, or is the one in which its EN becomes 1: it judges nothing (R568). -/
def tmLoadedNow (s : State) (k : Nat) : Bool := s.tod.tmW.loaded.testBit k
def tmMute (s : State) (k : Nat) : Bool := tmLoadedNow s k || s.tod.tmW.anew.testBit k

/-- The value of a compare at the end of the previous cycle, where the cycle in progress has written it. -/
def tmOldCmp (s : State) (k c : Nat) : Option Nat := (s.tod.tmW.old.find? fun e => e.1 == 4 * k + c).map fun e => e.2

/-- The value by which the cycle in progress judges a compare: that at the end of the previous one (R568, R580). -/
def tmJudged (s : State) (k c : Nat) : Nat := (tmOldCmp s k c).getD (tmCmp s k c)

/-- The counter crosses compare c in a cycle in which it goes from v0 to v1 (R568, R569). -/
def tmHit (s : State) (k v0 v1 c : Nat) : Bool :=
  let a := aheadBy v1 v0
  let d := aheadBy (tmJudged s k c) v0
  !tmMute s k && !catching s k c && (s.get F.TM_CFG_CMP_EN k).testBit c && Nat.blt a (2 ^ 63) && Nat.ble 1 d && Nat.ble d a

/-- The counter wraps forward. -/
def tmWraps (s : State) (k v0 v1 : Nat) : Bool := !tmMute s k && Nat.blt (aheadBy v1 v0) (2 ^ 63) && Nat.blt v1 v0

/-- Compare c in a cycle in which the counter goes from v0 to v1: caught up one step, or judged (R569). One that the cycle has written stays
as written.
DEDUCED, unsafe (notes/assumptions/76). -/
def tmCompare (s : State) (k v0 v1 c : Nat) : State :=
  if catching s k c then
    (if tmAhead (tmCmp s k c) v1 then setCatching s k c false else tmInc s k c v1)
  else if tmHit s k v0 v1 c then
    let s := s.put F.TM_EVENT_MATCH (s.get F.TM_EVENT_MATCH k ||| 2 ^ c) k
    let s' := tmAct s k (bitsOf (s.get F.TM_CFG_ACT k) (2 * c) 2)
    if (tmOldCmp s k c).isSome then s' else tmInc s' k c v1
  else s

/-- One cycle of timer k's judgement, in the order of R569: compares 0–3, then overflow. -/
def tmCycle (s : State) (k v0 v1 : Nat) : State :=
  let s := forN 4 (fun c s => tmCompare s k v0 v1 c) s
  if tmWraps s k v0 v1 then
    tmAct (s.raiseBit F.TM_EVENT_OVF k) k (s.get F.TM_CFG_OVF_ACT k)
  else s

/-- A counter that moves by one: a local frame start or an edge (R567); one that the cycle loads keeps what it is given. -/
def tmCountOne (s : State) (k : Nat) : State :=
  let v := tmHeld s k
  if tmLoadedNow s k then s else tmCycle (setTmHeld s k ((v + 1) % 2 ^ 64)) k v ((v + 1) % 2 ^ 64)

/-! ### Many cycles at once

Timer k over `m` cycles, in which its counter reads `v j` at the end of cycle j and first lies `d` or more beyond `v j` at
the end of cycle `reach j d`. Only cycles in which something is judged true are visited; the rest change nothing. -/

/-- The first cycle after `j` in which a compare is caught up, matches, or the counter overflows. -/
def tmNext (s : State) (k : Nat) (v : Nat → Nat) (reach : Nat → Nat → Nat) (j : Nat) : Nat :=
  if s.get F.TM_STAT_CATCHUP k ≠ 0 then j + 1
  else
    let cs := ((List.range 4).filter fun c => (s.get F.TM_CFG_CMP_EN k).testBit c).map fun c => aheadBy (tmJudged s k c) (v j)
    let ds := (aheadBy 0 (v j) :: cs).filter fun d => Nat.ble 1 d && Nat.blt d (2 ^ 63)
    reach j (ds.foldl min (2 ^ 63))

def tmSpan (k : Nat) (v : Nat → Nat) (reach : Nat → Nat → Nat) (m : Nat) : Nat → Nat → State → State
  | 0, _, s => s
  | fuel + 1, j, s =>
    let n := tmNext s k v reach j
    if j < n ∧ n ≤ m then tmSpan k v reach m fuel n (tmCycle s k (v (n - 1)) (v n)) else s

/-- The units in which the TOD is kept, per nanosecond: 1/400,000,000 of 2^-16 ns. -/
def todUnit : Nat := 26214400000000

/-- The nanoseconds of a TOD kept in those units, as SRC 1 counts it. -/
def tod64 (sec units : Nat) : Nat := (sec * 1000000000 + units / todUnit) % 2 ^ 64

/-- Timer k while `m` cycles pass, in each of which the TOD advances by `inc` from `sec` and `units`. Where the second ends
in the last cycle, `m` is 1 and `last` is the TOD after it. -/
def tmPass (sec units inc last m k : Nat) (s : State) : State :=
  if tmEn s k && tmSrc s k == 0 && !tmLoadedNow s k then
    let v0 := tmHeld s k
    let s := setTmHeld s k ((v0 + m) % 2 ^ 64)
    tmSpan k (fun j => (v0 + j) % 2 ^ 64) (fun j d => j + d) m m 0 s
  else if tmEn s k && tmSrc s k == 1 then
    tmSpan k (fun j => if j = m then last else tod64 sec (units + j * inc))
      (fun j d => if m = 1 then j + 1 else ((((units + j * inc) / todUnit + d) * todUnit - units) + inc - 1) / inc) m m 0 s
  else if s.get F.TM_STAT_CATCHUP k = 0 then s
  else tmSpan k (fun _ => tmHeld s k) (fun j d => j + d) m m 0 s

/-- The TOD moved from `before` in one cycle by something other than its own advance: the timers that are the TOD judge it
(R575, R576).
DEDUCED, unsafe (notes/assumptions/76). -/
def tmTodMoved (before : Nat) (s : State) : State :=
  forN 8 (fun k s => if tmEn s k && tmSrc s k == 1 then tmCycle s k before (todNs64 s) else s) s

/-- TIMER_OUT[k] (R570). -/
def timerOut (s : State) (k : Nat) : Bool := s.on F.TM_CFG_OUT_EN k && s.on F.TM_STAT_LEVEL k

/-! ### Register writes -/

/-- What block TM refuses (R567). -/
def judgeTm (s : State) (a _v : Nat) : Nat :=
  let o := a % 0x100
  rangeIf ((o == 0x18 || o == 0x1C) && tmSrc s ((a - 0x400E0000) / 0x100) == 1)

/-- TM_CFG[k] written over the word `old`: EN written 1 sets the level to OUT_INIT (R570); a counter that was the TOD
keeps what it read, and one that becomes it while it counts is judged (R568).
DEDUCED, unsafe (notes/assumptions/76). -/
def hookTmCfg (k v old : Nat) (s : State) : State :=
  let was := bitOf old 31 && bitsOf old 24 2 == 1
  let is_ := bitOf v 31 && bitsOf v 24 2 == 1
  let s := if bitOf v 31 then s.put F.TM_STAT_LEVEL (s.get F.TM_CFG_OUT_INIT k) k else s
  let s : State := if bitOf v 31 && !bitOf old 31 then { s with tod.tmW.anew := s.tod.tmW.anew ||| 2 ^ k } else s
  if was && !is_ then setTmHeld s k (todNs64 s)
  else if is_ && !was && bitOf old 31 then tmCycle s k (tmHeld s k) (todNs64 s)
  else s

/-- A half of a compare written over `old`: the cycle in progress judges by what stood there at the end of the one before (R568, R580).
DEDUCED, unsafe (notes/assumptions/76). -/
def noteCmp (s : State) (k c : Nat) (hi : Bool) (old : Nat) : State :=
  let was := tmJudged s k c
  let v := if hi then was % 2 ^ 32 + old * 2 ^ 32
    else if (tmOldCmp s k c).isSome then was else old + was / 2 ^ 32 * 2 ^ 32
  { s with tod.tmW.old := (s.tod.tmW.old.filter fun e => e.1 != 4 * k + c) ++ [(4 * k + c, v)] }

/-- A half of TM_LOAD[k] written: the counter holds it at the end of the cycle in progress (R567). -/
def loadTm (s : State) (k j v : Nat) : State :=
  { s.put F.TM_CNT v k j with tod.tmW.loaded := s.tod.tmW.loaded ||| 2 ^ k }

/-- What a write in block TM sets off. -/
def hookTm (a v old : Nat) (s : State) : State :=
  let k := (a - 0x400E0000) / 0x100
  let o := a % 0x100
  if o = 0x00 then hookTmCfg k v old s
  else if o = 0x18 then loadTm s k 0 v
  else if o = 0x1C then loadTm s k 1 v
  else if 0x20 ≤ o ∧ o < 0x60 ∧ o % 16 < 8 then noteCmp s k ((o - 0x20) / 16) (o % 16 == 4) old
  else s

/-! ### The commands -/

/-- TM_LOAD (R567).
DEDUCED, unsafe (notes/assumptions/76). -/
def execTmLoad (k : Fin 8) (v : BitVec 64) (s : State) : Host.Outcome State Fault Refusal :=
  act s (writeGroup judgeTm hookTm s
    [(F.TM_LOAD.addr k 0, v.toNat % 2 ^ 32), (F.TM_LOAD.addr k 1, v.toNat / 2 ^ 32)])

/-- TIMER_EN_WRITE (R570): TM_CFG[k] written with EN as given and its other bits as they stand. -/
def execTimerEnWrite (k : Fin 8) (en : Bool) (s : State) : Host.Outcome State Fault Refusal :=
  act s (writeBy judgeTm hookTm s (F.TM_CFG.addr k)
    (insertBits (s.reg (F.TM_CFG.addr k)).toNat 31 1 (b2n en)))

end Sys2Proof.Machine
end

