-- ==== Sys2Proof/Machine/Td.lean ====
section
/-!
DEFINITION. Machine/Td.lean: time of day (chapter 15): counting, corrections and sets, the time-of-day message, the
follower, and the path-delay exchange.
-/
namespace Sys2Proof.Machine

/-! ### Counting (R551, R553) -/

/-- The rest of the second, in `todUnit`s of a nanosecond. -/
def todUnits (s : State) : Nat := s.tod.sub * 400000000 + s.tod.frac
def setTodUnits (s : State) (u : Nat) : State := { s with tod.sub := u / 400000000, tod.frac := u % 400000000 }

def secondUnits : Nat := 1000000000 * todUnit
/-- 2.5 ns, and one picosecond. -/
def cycleUnits : Nat := 65536000000000
def psUnits : Nat := 26214400000

def tdSlew (s : State) : Nat := s.get F.TD_CFG_SLEW
/-- ROLE as the last tick took it (R25). -/
def tdRole (s : State) : Nat := s.tod.role
def tdState (s : State) : Nat := s.get F.TD_STATUS_FSTATE

/-- What a cycle works off of the correction, in 1/400,000,000 ns: SLEW ns in a second (R553).
DEDUCED, unsafe (notes/assumptions/73). -/
def adjWork (s : State) : Nat := min s.tod.adj.natAbs (tdSlew s)

/-- A correction of `a`, in its own units, in units of the TOD. -/
def adjUnits (a : Int) : Int := a * 65536

/-- `n` of the correction, with its sign.
DEDUCED, unsafe (notes/assumptions/73). -/
def adjPart (s : State) (n : Nat) : Int := if s.tod.adj < 0 then -(n : Int) else (n : Int)

/-- The TOD's advance in a cycle. -/
def todInc (s : State) : Nat := ((cycleUnits : Int) + adjUnits (adjPart s (adjWork s))).toNat

/-- TD_ADJ_LEFT and SLEWING show what is left; the magnitude is rounded up.
DEDUCED, unsafe (notes/assumptions/73). -/
def showAdj (s : State) : State :=
  let n := (s.tod.adj.natAbs + 399999999) / 400000000
  (putS s F.TD_ADJ_LEFT (adjPart s n)).put F.TD_STATUS_SLEWING (b2n (s.tod.adj != 0))

def setAdj (s : State) (a : Int) (track : Bool) : State := showAdj { s with tod.adj := a, tod.adjTrack := track }

/-- The seconds that begin at the next boundary (R554). -/
def nextSec (s : State) : Nat :=
  match s.tod.setTo with
  | some (t, 0) => t
  | _ => (s.tod.sec + 1) % 2 ^ 48

/-- VALID as sent (R555). -/
def tdValid (s : State) : Bool :=
  (tdRole s == 1 && s.on F.TD_STATUS_TIME_SET) || (tdRole s == 2 && tdState s == 2)

def showValid (s : State) : State := s.put F.TD_STATUS_VALID (b2n (tdValid s))

/-- A second boundary (R551, R554). -/
def secondBoundary (s : State) : State :=
  let s' : State := { s with tod.sec := nextSec s }
  match s.tod.setTo with
  | none => s'
  | some (t, n + 1) => { s' with tod.setTo := some (t, n) }
  | some (_, 0) =>
    let s' : State := { s' with tod.setTo := none }
    showValid (((s'.put F.TD_STATUS_SET_PENDING 0).put F.TD_STATUS_TIME_SET 1).raiseBit F.TD_EVENT_SET_DONE)

/-- How many of `n` cycles pass with one increment and no second boundary before the last; a boundary is passed alone. -/
def todRun (s : State) (n : Nat) : Nat :=
  let m := if s.tod.adj = 0 then n else max 1 (min n (s.tod.adj.natAbs / tdSlew s))
  let b := (secondUnits - todUnits s + todInc s - 1) / todInc s
  if b ≤ m then max 1 (b - 1) else m

/-- `m` such cycles: the TOD, its correction, and the timers (R568). -/
def todSpan (s : State) (m : Nat) : State :=
  let inc := todInc s
  let w := adjWork s
  let u := todUnits s + m * inc
  let sec := s.tod.sec
  let u0 := todUnits s
  let slewing := s.tod.adj != 0
  let s : State := { s with tod.adj := s.tod.adj - adjPart s (m * w) }
  let s := if secondUnits ≤ u then secondBoundary (setTodUnits s (u - secondUnits)) else setTodUnits s u
  let s := if slewing then (let s := showAdj s; if s.tod.adj = 0 then s.raiseBit F.TD_EVENT_ADJ_DONE else s) else s
  forN 8 (fun k s => tmPass sec u0 inc (todNs64 s) m k s) s

/-- `n` FCLK cycles of the TOD and the timers; the one in which block TM was written passes alone. -/
def todPass : Nat → Nat → State → State
  | 0, _, s => s
  | fuel + 1, n, s =>
    if n = 0 then s
    else
      let m := if s.tod.tmW = {} then todRun s n else 1
      todPass fuel (n - m) { todSpan s m with tod.tmW := {} }

/-- FCLK cycles from now to the end of the one in which the second ends: `n` with the slewing of now going on, `m` with all
of the correction worked off by then.
DEDUCED, unsafe (notes/assumptions/74). -/
def toBoundary (s : State) : Nat :=
  let left := secondUnits - todUnits s
  let n := (left + todInc s - 1) / todInc s
  let m := (((left : Int) - adjUnits s.tod.adj).toNat + cycleUnits - 1) / cycleUnits
  if s.tod.adj = 0 then n else if s.tod.adj < 0 then min n m else max n m

/-- FCLK cycles to the end of the correction. -/
def toAdjDone (s : State) : Nat := (s.tod.adj.natAbs + tdSlew s - 1) / tdSlew s

/-- The TOD as it will be, or was, `n` cycles from now, every correction and TD_SET due by then included: seconds, and the
rest in units.
DEDUCED, unsafe (notes/assumptions/75). -/
def todAt (s : State) (n : Int) : Nat × Nat :=
  let c : Int := adjUnits (adjPart s (min s.tod.adj.natAbs (n.toNat * tdSlew s)))
  let u : Int := todUnits s + n * cycleUnits + c
  if u < 0 then ((s.tod.sec + 2 ^ 48 - 1) % 2 ^ 48, (u + secondUnits).toNat)
  else if u < secondUnits then (s.tod.sec, u.toNat)
  else (nextSec s, (u - secondUnits).toNat)

/-! ### The time-of-day message (R556) -/

/-- The 12 words that port p sends in a multiframe that begins `phase` after the local frame start. -/
def todWords (s : State) (phase : Int) : List Nat :=
  let t := todAt s (3200000 + phase - (s.inFrame : Int))
  let ns := t.2 / todUnit
  let ws := [b2n (tdValid s) * 2 ^ 15, t.1 / 2 ^ 32 % 2 ^ 16, t.1 / 2 ^ 16 % 2 ^ 16, t.1 % 2 ^ 16,
    ns / 2 ^ 16, ns % 2 ^ 16, t.2 / 400000000 % 2 ^ 16, 0, 0, 0, 0]
  ws ++ [crc16 (ws.flatMap fun w => [BitVec.ofNat 8 (w / 256), BitVec.ofNat 8 w])]

/-! ### The follower (R557, R558) -/

/-- The TOD moved by −e ps in one cycle. -/
def todStep (s : State) (e : Int) : State :=
  let before := todNs64 s
  let u : Int := (s.tod.sec : Int) * secondUnits + todUnits s - e * psUnits
  let all : Nat := (u % ((2 ^ 48 * secondUnits : Nat) : Int)).toNat
  let s := setTodUnits { s with tod.sec := all / secondUnits } (all % secondUnits)
  tmTodMoved before ((s.raiseBit F.TD_EVENT_STEPPED).bumpSat F.TD_CNT_STEPS)

/-- The message of SRC that is usable now: its words (R557). -/
def usableMsg (s : State) : Option (List Nat) :=
  let p := s.tod.src
  let x := s.portX p
  match x.todMsg with
  | none => none
  | some (ws, n) =>
    if tdRole s == 2 && tdState s != 0 && bitOf (ws.getD 0 0) 15 && x.rxGood && portInSync s p && s.on F.LF_PSTATUS_IM p &&
        x.label == some n then some ws else none

/-- The follower error e in ps of a message, when word 0 of the frame it names arrived `pos` × 8 ps into its FCLK cycle; the
TOD is captured to 8 ps.
DEDUCED, unsafe (notes/assumptions/75). -/
def followErr (s : State) (ws : List Nat) (pos : Nat) : Int :=
  let p := s.tod.src
  let back := (s.frameTotal + 2 ^ 32 - (s.portX p).rxTotal) % 2 ^ 32
  let t := todAt s ((s.get F.LF_RX_PHASE_PHASE p : Int) - (back * frameCycles : Nat) - (s.inFrame : Int))
  let a8 : Int := (t.2 / (8 * psUnits) + pos : Nat)
  let w (i : Nat) : Nat := ws.getD i 0
  let tsec : Int := (w 1 * 2 ^ 32 + w 2 * 2 ^ 16 + w 3 : Nat)
  let tns := w 4 % 2 ^ 14 * 2 ^ 16 + w 5
  let tu : Int := (tns * todUnit + w 6 * 400000000 : Nat)
  (((t.1 : Int) - tsec) * secondUnits + a8 * (8 * psUnits) - tu) / psUnits - (s.get F.TD_PATH : Int)

/-- A usable message with the error e (Table 15.1). -/
def follow (s : State) (e : Int) : State :=
  let s := (putS s F.TD_ERR (clampInt (-2147483647) 2147483647 e)).bumpWrap F.TD_CNT_MSGS
  let s : State := { s with tod.lost := 0 }
  if tdState s = 1 then
    let s := ((todStep { s with tod.missX := 0 } e).put F.TD_STATUS_FSTATE 2).put F.TD_STATUS_TIME_SET 1
    showValid s
  else if e.natAbs ≤ s.get F.TD_CFG_STEP_LIM * 100000 then setAdj { s with tod.missX := 0 } (-e * 400000) true
  else if s.tod.missX < 2 then { s with tod.missX := s.tod.missX + 1 }
  else todStep { s with tod.missX := 0 } e

/-- Whether the tick in progress is the 31,250th without a usable message: one that still comes in it is taken (R584). -/
def msgLostDue (s : State) : Bool := tdState s == 2 && Nat.ble 31250 s.tod.lost

def msgLost (s : State) : State :=
  let s : State := { s with tod.lost := 0 }
  showValid ((s.put F.TD_STATUS_FSTATE 1).raiseBit F.TD_EVENT_MSG_LOST)

/-! ### Path delay (R559, R560, R572) -/

/-- A delay request or response waits to be sent: ahead of other messages (R292).
DEDUCED, unsafe (notes/assumptions/75). -/
def sendDelayMsg (s : State) (p : Nat) (m : McMsg) : State :=
  s.modPort p fun x =>
    { x with mcOut := (x.mcOut.takeWhile fun m => Nat.ble 3 m.ty) ++ [m] ++ (x.mcOut.dropWhile fun m => Nat.ble 3 m.ty) }

/-- The next exchange of a TD_DELAY begins. -/
def beginExchange (s : State) (kind : JobKind) (port left : Nat) (found : List Int) : State :=
  let id := s.tod.nextId
  let s : State := { s with
    tod.nextId := (id + 1) % 2 ^ 16
    tod.exch := s.tod.exch ++ [{ kind := kind, port := port, left := left, id := id, found := found }] }
  sendDelayMsg s port { ty := 3, bytes := toLE 2 id }

/-- A signed 32-bit value in reply data. -/
def signed4 (i : Int) : List Byte := toLE 4 (ofSigned 32 i)

/-- The exchanges are done: the result of the TD_DELAY (Table 15.4).
DEDUCED, unsafe (notes/assumptions/75). -/
def delayResult (s : State) (kind : JobKind) (found : List Int) : State :=
  match found with
  | [] => postResult s kind St.notPresent []
  | d :: ds =>
    let n := found.length
    postResult s kind St.ok (toLE 1 n ++ signed4 ((ds.foldl (· + ·) d) / n) ++ signed4 (ds.foldl min d) ++
      signed4 (ds.foldl max d))

/-- An exchange ended, with a delay or abandoned. -/
def endExchange (s : State) (j : DelayJob) (d : Option Int) : State :=
  let found := j.found ++ d.toList
  let s : State := { s with tod.exch := s.tod.exch.filter fun k => k.id != j.id }
  if j.left = 0 then delayResult s j.kind found else beginExchange s j.kind j.port (j.left - 1) found

/-- Exchanges that expire in the tick in progress, their 64th: a response that still comes in it is taken (R572). -/
def exchDue (s : State) : List DelayJob := s.tod.exch.filter fun j => Nat.ble 64 j.age

/-- TD_CFG as the tick takes it (Table 15.1).
DEDUCED, unsafe (notes/assumptions/74). -/
def tdConfig (s : State) : State :=
  let role := s.get F.TD_CFG_ROLE
  let anew := s.tod.restart
  let s : State := { s with tod.role := role, tod.src := s.get F.TD_CFG_SRC, tod.restart := false }
  let s := if role ≠ 2 then
      let s := s.put F.TD_STATUS_FSTATE 0
      (if s.tod.adjTrack then setAdj s 0 false else s)
    else if tdState s = 0 ∨ anew then ({ s with tod.missX := 0, tod.lost := 0 } : State).put F.TD_STATUS_FSTATE 1
    else s
  showValid s

/-- Block TD at a tick: its settings, the follower's loss count and the ages of exchanges. -/
def tdTick (s : State) : State :=
  let s := if tdState s = 2 then { s with tod.lost := s.tod.lost + 1 } else s
  tdConfig { s with tod.exch := s.tod.exch.map fun j => { j with age := j.age + 1 } }

/-- What expires with the tick that ends, its arrivals taken (R11). -/
def tdTickEnd (s : State) : State :=
  let s := if msgLostDue s then msgLost s else s
  forList (exchDue s) (fun j s => endExchange s j none) s

/-! ### Register writes -/

/-- What block TD refuses (R573). -/
def judgeTd (_ : State) (a v : Nat) : Nat :=
  rangeIf (a == 0x400C0000 && (bitsOf v 16 16 == 0 || bitsOf v 8 8 == 0 || bitsOf v 0 2 == 3))

/-- TD_CFG written over the word `old`: the next tick acts on it (R25), and starts the follower afresh when it was out of its role or SRC
has changed.
DEDUCED, unsafe (notes/assumptions/74). -/
def hookTdCfg (v old : Nat) (s : State) : State :=
  if bitsOf v 0 2 ≠ 2 ∨ bitsOf v 4 4 ≠ bitsOf old 4 4 then { s with tod.restart := true } else s

/-- What a write in block TD sets off. -/
def hookTd (a v old : Nat) (s : State) : State := if a = 0x400C0000 then hookTdCfg v old s else s

/-! ### Opcodes 0x70–0x72 (R571, R572) -/

/-- TD_SET.
DEDUCED, unsafe (notes/assumptions/74). -/
def bodyTdSet (ps : List Byte) (s : State) : Out :=
  if s.get F.TD_CFG_ROLE = 2 ∨ s.tod.setTo.isSome then refuse s St.wrongState
  else
    let target := leAt ps 0 6
    let skip := if 800 ≤ toBoundary s then 0 else 1
    let s' : State := { s with tod.setTo := some (target, skip) }
    .done (s'.put F.TD_STATUS_SET_PENDING 1) St.ok (toLE 6 ((s.tod.sec + 1 + skip) % 2 ^ 48) ++ toLE 6 target)

/-- TD_ADJUST. -/
def bodyTdAdjust (ps : List Byte) (s : State) : Out :=
  let c := toSigned 32 (leAt ps 0 4)
  if 999999999 < c.natAbs then refuse s St.range
  else if s.get F.TD_CFG_ROLE = 2 then refuse s St.wrongState
  else if 999999999 < (c + getS s F.TD_ADJ_LEFT).natAbs then refuse s St.range
  else
    let s := setAdj s (c * 400000000) false
    .done s St.ok (toLE 4 (s.get F.TD_ADJ_LEFT))

/-- TD_DELAY. -/
def bodyTdDelay (k : JobKind) (ps : List Byte) (s : State) : Out :=
  let p := byteAt ps 0
  let n := byteAt ps 1
  if 15 < p ∨ n = 0 ∨ 64 < n then refuse s St.badParam
  else if !portInSync s p then refuse s St.notPresent
  else .wait (beginExchange s k p (n - 1) [])

/-! ### The commands -/

/-- TD_CFG_WRITE (R555). -/
def execTdCfgWrite (value : Word) (s : State) : Host.Outcome State Fault Refusal :=
  act s (writeBy judgeTd hookTd s (F.TD_CFG.addr) value.toNat)

/-- TOD_MESSAGE (R557, R558): the frame that a usable message names arrived `pos` × 8 ps into its FCLK cycle. -/
def execTodMessage (pos : Fin 313) (s : State) : Host.Outcome State Fault Refusal :=
  act s (match usableMsg s with
    | none => s
    | some ws =>
      let e := followErr s ws pos
      follow (s.modPort s.tod.src fun x => { x with todMsg := none }) e)

/-- MSG_LOST (R558): in the tick that completes 31,250 without a usable message. -/
def execMsgLost (s : State) : Host.Outcome State Fault Refusal := act s (if msgLostDue s then msgLost s else s)

/-- DELAY_REQUEST (R559, R560): the request in port p's hands is answered; `turn` is t3 − t2 in ps. -/
def execDelayRequest (p : Fin 16) (turn : Nat) (s : State) : Host.Outcome State Fault Refusal :=
  act s (match (s.portX p).inbox with
    | some m =>
      if m.ty = 3 then
        let s := s.modPort p fun x => { x with inbox := none }
        if m.bytes.length = 2 ∧ s.on F.LF_PCTRL_MC_EN p then
          sendDelayMsg s p { ty := 4, bytes := m.bytes ++ toLE 6 turn }
        else s
      else s
    | none => s)

/-- DELAY_RESPONSE (R559, R560): `rtt` is t4 − t1 in ps. -/
def execDelayResponse (p : Fin 16) (rtt : Nat) (s : State) : Host.Outcome State Fault Refusal :=
  act s (match (s.portX p).inbox with
    | some m =>
      if m.ty = 4 then
        let s := s.modPort p fun x => { x with inbox := none }
        match s.tod.exch.find? (fun j => j.port == p.val && j.id == leAt m.bytes 0 2) with
        | some j =>
          if m.bytes.length = 8 then endExchange s j (some (((rtt : Int) - leAt m.bytes 2 6) / 2)) else s
        | none => s
      else s
    | none => s)

/-- DELAY_EXCHANGE_EXPIRY (R572): 64 basic frames have passed with the tick in progress. -/
def execDelayExchangeExpiry (s : State) : Host.Outcome State Fault Refusal :=
  act s (forList (exchDue s) (fun j s => endExchange s j none) s)

end Sys2Proof.Machine
end

