-- ==== Sys2Proof/Machine/Kf.lean ====
section
/-!
DEFINITION. Machine/Kf.lean: Kerf (chapter 15): event sources, timestamp capture, interval measurement.
-/
namespace Sys2Proof.Machine

/-! ### FIFOs (R563, R564, R566) -/

def kfFifo (s : State) (k : Nat) : List (List Nat) := SMap.get fifoDflt s.kf.fifo k

/-- FIFO k holds `l`: its depth and its head registers. 0–3 are the inputs', 4 the internal, 5 the interval FIFO. -/
def setFifo (s : State) (k : Nat) (l : List (List Nat)) : State :=
  let s : State := { s with kf.fifo := SMap.set fifoDflt s.kf.fifo k l }
  let h := l.headD []
  let head (f : Nat → State → State) (s : State) : State := forN 4 f s
  match k with
  | 4 => head (fun j s => s.put F.KF_INT_HEAD (h.getD j 0) j) (s.put F.KF_INT_STAT_DEPTH l.length)
  | 5 => head (fun j s => s.put F.KF_IV_HEAD (h.getD j 0) j) (s.put F.KF_IV_STAT_DEPTH l.length)
  | _ => head (fun j s => s.put F.KF_HEAD (h.getD j 0) k j) (s.put F.KF_IN_STAT_DEPTH l.length k)

/-- The TOD `pos` × 8 ps into the cycle in progress: seconds, nanoseconds, and 8 ps units below one. -/
def todCapture (s : State) (pos : Nat) : Nat × Nat × Nat :=
  let u := todUnits s + pos * (8 * psUnits)
  let t := if secondUnits ≤ u then (nextSec s, u - secondUnits) else (s.tod.sec, u)
  (t.1, t.2 / todUnit, t.2 % todUnit / (8 * psUnits))

/-- A capture entry (Table 15.3). -/
def captureEntry (s : State) (rise : Bool) (pos seq : Nat) : List Nat :=
  let t := todCapture s pos
  [t.1 % 2 ^ 32, 2 ^ 31 + b2n rise * 2 ^ 30 + t.1 / 2 ^ 32 % 2 ^ 16, t.2.1, seq * 256 + t.2.2]

/-- An edge offered to capture FIFO k (R563).
DEDUCED, unsafe (notes/assumptions/77). -/
def kfOffer (s : State) (k : Nat) (rise : Bool) (pos : Nat) : State :=
  let seq := if k = 4 then s.get F.KF_INT_STAT_NEXT_SEQ else s.get F.KF_IN_STAT_NEXT_SEQ k
  let full := Nat.ble 16 (kfFifo s k).length
  let e := captureEntry s rise pos seq
  let s := if k = 4 then s.put F.KF_INT_STAT_NEXT_SEQ (seq + 1) else s.put F.KF_IN_STAT_NEXT_SEQ (seq + 1) k
  if full then
    (if k = 4 then s.bumpSat F.KF_INT_OVR_COUNT else s.bumpSat F.KF_OVR_COUNT 1 k).raiseBit F.KF_EVENT_OVERRUN
  else
    let s := setFifo s k (kfFifo s k ++ [e])
    if k = 4 then s.raiseBit F.KF_EVENT_INT_CAPTURE
    else s.put F.KF_EVENT_CAPTURE (s.get F.KF_EVENT_CAPTURE ||| 2 ^ k)

/-! ### Interval unit (R565, R566) -/

/-- The unit armed: nothing taken, and the next event of a source that is both is a start. -/
def ivArm (s : State) : State :=
  ({ s with kf.start := none, kf.stop := none, kf.alt := false } : State).put F.KF_IV_STAT_STATE 1

/-- A result in 8 ps units (R566, R572).
DEDUCED, unsafe (notes/assumptions/77). -/
def ivResult (s : State) (r : Int) : State :=
  let v := clampInt (-549755813888) 549755813887 r
  let n := ofSigned 64 v
  let seq := s.kf.ivSeq
  let e := [n % 2 ^ 32, n / 2 ^ 32, b2n (r == 0) + 2 * b2n (v != r) + 256 * seq, 0]
  let s : State := { s with kf.ivSeq := (seq + 1) % 256 }
  let s := if Nat.ble 16 (kfFifo s 5).length then s.bumpSat F.KF_OVR_IV_COUNT
    else (setFifo s 5 (kfFifo s 5 ++ [e])).raiseBit F.KF_EVENT_IV_RESULT
  if s.on F.KF_IV_CFG_CONT then ivArm s
  else ({ s with kf.start := none, kf.stop := none, kf.alt := false } : State).put F.KF_IV_STAT_STATE 0

/-- A start, in the mode set. -/
def ivStart (s : State) (t : Int) : State :=
  if s.on F.KF_IV_CFG_MODE then
    match s.kf.start, s.kf.stop with
    | some _, _ => s.bumpSat F.KF_EARLY_STOP_IGNORED
    | none, some e => ivResult s (e - t)
    | none, none => ({ s with kf.start := some t } : State).put F.KF_IV_STAT_STATE 2
  else
    let s := if s.get F.KF_IV_STAT_STATE = 2 then s.bumpSat F.KF_EARLY_STOP_IGNORED else s
    ({ s with kf.start := some t } : State).put F.KF_IV_STAT_STATE 2

/-- A stop, in the mode set. -/
def ivStop (s : State) (t : Int) : State :=
  match s.on F.KF_IV_CFG_MODE, s.kf.start, s.kf.stop with
  | true, _, some _ => s.bumpSat F.KF_EARLY_STOP_IGNORED
  | true, some b, none => ivResult s (t - b)
  | true, none, none => ({ s with kf.stop := some t } : State).put F.KF_IV_STAT_STATE 2
  | false, some b, _ => ivResult s (t - b)
  | false, none, _ => s.bumpSat F.KF_EARLY_STOP_EARLY

/-- An accepted event of source `src` at time `t`.
DEDUCED, unsafe (notes/assumptions/77). -/
def ivEvent (s : State) (src : Nat) (t : Int) : State :=
  let start := s.get F.KF_IV_CFG_START_SRC == src
  let stop := s.get F.KF_IV_CFG_STOP_SRC == src
  if !s.on F.KF_IV_CFG_EN || s.get F.KF_IV_STAT_STATE == 0 then s
  else if start && stop then
    (if s.kf.alt then ivStop { s with kf.alt := false } t else ivStart { s with kf.alt := true } t)
  else if start then ivStart s t
  else if stop then ivStop s t
  else s

/-! ### Events (R561, R562) -/

/-- The time `pos` × 8 ps into the cycle in progress, in 4 ps units: 625 to one FCLK cycle. -/
def kfTime (s : State) (pos : Nat) : Nat := s.cyc * 625 + 2 * pos

/-- Table 15.2's codes. -/
def kfSource (c : Nat) : Bool := Nat.ble c 9 || (Nat.ble 16 c && Nat.ble c 23)

/-- A selected event offered to the internal FIFO and the interval unit. -/
def kfEvent (s : State) (src : Nat) (rise : Bool) (pos : Nat) : State :=
  let s := if s.on F.KF_INT_CFG_EN && s.get F.KF_INT_CFG_SRC == src then kfOffer s 4 rise pos else s
  ivEvent s src (kfTime s pos / 2 : Nat)

/-- EDGE of input e selects the edge. -/
def edgeSelected (s : State) (e : Nat) (rise : Bool) : Bool := (s.get F.KF_IN_CFG_EDGE e).testBit (if rise then 0 else 1)

/-- An edge of EVT[e]. -/
def evtEdge (s : State) (e : Nat) (rise : Bool) (pos : Nat) : State :=
  let t := kfTime s pos
  let last := SMap.get (fun _ => 0) s.kf.last e
  if last ≠ 0 ∧ t + 1 < last + 750 then (s.bumpSat F.KF_DEAD_LOST_COUNT 1 e).raiseBit F.KF_EVENT_DEAD_LOST
  else
    let s : State := { s with kf.last := SMap.set (fun _ => 0) s.kf.last e (t + 1) }
    if edgeSelected s e rise then
      let s := if s.on F.KF_IN_CFG_CAP_EN e then kfOffer s e rise pos else s
      let s := kfEvent s e rise pos
      forN 8 (fun k s => if tmEn s k && tmSrc s k == 3 && s.get F.TM_CFG_EVT_E k == e then tmCountOne s k else s) s
    else s

/-! ### Register writes -/

/-- What block KF refuses (R561). -/
def judgeKf (_ : State) (a v : Nat) : Nat :=
  if a = 0x400D0000 then rangeIf (!kfSource (bitsOf v 0 5) || !kfSource (bitsOf v 8 5))
  else if a = 0x400D0010 then rangeIf (!kfSource (bitsOf v 0 5))
  else St.ok

/-- Every KF counter cleared (R573). -/
def kfClear (s : State) : State :=
  let s := ((s.put F.KF_EARLY_STOP 0).put F.KF_OVR_IV 0).put F.KF_INT_OVR 0
  forN 4 (fun e s => (s.put F.KF_DEAD_LOST 0 e).put F.KF_OVR 0 e) s

/-- What a write in block KF sets off. -/
def hookKf (a v _old : Nat) (s : State) : State :=
  if a = 0x400D0000 then (if bitOf v 31 then s else s.put F.KF_IV_STAT_STATE 0)
  else if a = 0x400D0004 then
    let s := if bitOf v 0 && s.on F.KF_IV_CFG_EN then ivArm s else s
    if bitOf v 1 then kfClear s else s
  else s

/-! ### Opcode 0x73 -/

/-- KF_POP (R564, R572). -/
def bodyKfPop (ps : List Byte) (s : State) : Out :=
  let k := byteAt ps 0
  let n := byteAt ps 1
  if 5 < k ∨ n = 0 ∨ 16 < n then refuse s St.badParam
  else
    let l := kfFifo s k
    let es := l.take n
    .done (setFifo s k (l.drop n)) St.ok (toLE 1 es.length ++ es.flatMap fun e => e.flatMap (toLE 4))

/-! ### The commands -/

/-- EVT_EDGE (R76, R562): a rising or falling edge `pos` × 8 ps into the FCLK cycle in progress. -/
def execEvtEdge (e : Fin 4) (rise : Bool) (pos : Fin 313) (s : State) : Host.Outcome State Fault Refusal :=
  act s (if s.tapOwns then s else evtEdge s e rise pos)

/-- The second boundary just passed, offered at its own instant: the nanoseconds are 0 there (Table 15.2). -/
def secondEvent (s : State) (rise : Bool) : State :=
  let at_ : State := { s with tod.sub := 0, tod.frac := 0 }
  let s' := if s.on F.KF_INT_CFG_EN && s.get F.KF_INT_CFG_SRC == 6 then kfOffer at_ 4 rise 0 else s
  ivEvent { s' with tod := s.tod } 6 ((kfTime s 0 / 2 : Nat) - (todUnits s / (8 * psUnits) : Nat))

/-- Whether the state meets what Table 15.2 says of internal source `c`: a local frame or multiframe starts, a second has ended in the
cycle just passed, the DPLL has a candidate, and the ball is where the change leaves it.
DEDUCED, unsafe (notes/assumptions/77). -/
def sourceNow (s : State) (c : Nat) (rise : Bool) : Bool :=
  match c with
  | 4 => s.inFrame == 0
  | 5 => s.inFrame == 0 && s.frameNum.2 % 250 == 0
  | 6 => Nat.blt (todUnits s) (todInc s) && s.cyc != 0
  | 7 => true
  | 8 => tgSel s 0 != 31
  | 9 => tgSel s 1 != 31
  | _ => Nat.ble 16 c && Nat.ble c 23 && timerOut s (c - 16) == rise

/-- INTERNAL_EVENT (R561). Sources that are no edge have no polarity: RISE of their entry is open.
DEDUCED, unsafe (notes/assumptions/77). -/
def execInternalEvent (src : Fin 32) (rise : Bool) (pos : Fin 313) (s : State) : Host.Outcome State Fault Refusal :=
  act s (
    let c := src.val
    let open_ := bitOf s.drawn.toNat 0
    if !sourceNow s c rise then s
    else if c = 6 then secondEvent s.draw open_
    else if 16 ≤ c then kfEvent s c rise pos
    else kfEvent s.draw c open_ (if c < 6 then 0 else pos))

/-- ARM (R565). -/
def execArm (s : State) : Host.Outcome State Fault Refusal := act s (writeBy judgeKf hookKf s (F.KF_IV_CMD.addr) 1)

/-- KF_CNT_CLR (R573). -/
def execKfCntClr (s : State) : Host.Outcome State Fault Refusal := act s (writeBy judgeKf hookKf s (F.KF_IV_CMD.addr) 2)

end Sys2Proof.Machine
end

