-- ==== Sys2Proof/Machine/Sha256.lean ====
section
/-!
DEFINITION. Machine/Sha256.lean: the digest of FIPS 180-4 that R643 names: SHA-256 over a byte list.
-/
namespace Sys2Proof.Machine

/-- A 32-bit word turned right. -/
def rotr32 (n x : Nat) : Nat := (x >>> n ||| x <<< (32 - n)) % 2 ^ 32

def shaConstants : List Nat :=
  [0x428A2F98, 0x71374491, 0xB5C0FBCF, 0xE9B5DBA5, 0x3956C25B, 0x59F111F1, 0x923F82A4, 0xAB1C5ED5] ++
  [0xD807AA98, 0x12835B01, 0x243185BE, 0x550C7DC3, 0x72BE5D74, 0x80DEB1FE, 0x9BDC06A7, 0xC19BF174] ++
  [0xE49B69C1, 0xEFBE4786, 0x0FC19DC6, 0x240CA1CC, 0x2DE92C6F, 0x4A7484AA, 0x5CB0A9DC, 0x76F988DA] ++
  [0x983E5152, 0xA831C66D, 0xB00327C8, 0xBF597FC7, 0xC6E00BF3, 0xD5A79147, 0x06CA6351, 0x14292967] ++
  [0x27B70A85, 0x2E1B2138, 0x4D2C6DFC, 0x53380D13, 0x650A7354, 0x766A0ABB, 0x81C2C92E, 0x92722C85] ++
  [0xA2BFE8A1, 0xA81A664B, 0xC24B8B70, 0xC76C51A3, 0xD192E819, 0xD6990624, 0xF40E3585, 0x106AA070] ++
  [0x19A4C116, 0x1E376C08, 0x2748774C, 0x34B0BCB5, 0x391C0CB3, 0x4ED8AA4A, 0x5B9CCA4F, 0x682E6FF3] ++
  [0x748F82EE, 0x78A5636F, 0x84C87814, 0x8CC70208, 0x90BEFFFA, 0xA4506CEB, 0xBEF9A3F7, 0xC67178F2]

def shaInitial : List Nat :=
  [0x6A09E667, 0xBB67AE85, 0x3C6EF372, 0xA54FF53A, 0x510E527F, 0x9B05688C, 0x1F83D9AB, 0x5BE0CD19]

/-- The eight working variables. -/
structure ShaVars where
  a : Nat
  b : Nat
  c : Nat
  d : Nat
  e : Nat
  f : Nat
  g : Nat
  h : Nat
  deriving DecidableEq, Repr

/-- One round with its constant and its schedule word. -/
def shaRound (v : ShaVars) (k w : Nat) : ShaVars :=
  let s1 := rotr32 6 v.e ^^^ rotr32 11 v.e ^^^ rotr32 25 v.e
  let ch := (v.e &&& v.f) ^^^ ((0xFFFFFFFF ^^^ v.e) &&& v.g)
  let t1 := v.h + s1 + ch + k + w
  let s0 := rotr32 2 v.a ^^^ rotr32 13 v.a ^^^ rotr32 22 v.a
  let maj := (v.a &&& v.b) ^^^ (v.a &&& v.c) ^^^ (v.b &&& v.c)
  { a := (t1 + s0 + maj) % 2 ^ 32, b := v.a, c := v.b, d := v.c, e := (v.d + t1) % 2 ^ 32, f := v.e, g := v.f, h := v.g }

/-- The rounds of a block: the window holds schedule words t to t + 15. -/
def shaRounds : List Nat → List Nat → ShaVars → ShaVars
  | [], _, v => v
  | k :: ks, ws, v =>
    let w (i : Nat) : Nat := ws.getD i 0
    let s0 := rotr32 7 (w 1) ^^^ rotr32 18 (w 1) ^^^ (w 1 >>> 3)
    let s1 := rotr32 17 (w 14) ^^^ rotr32 19 (w 14) ^^^ (w 14 >>> 10)
    shaRounds ks (ws.drop 1 ++ [(s1 + w 9 + s0 + w 0) % 2 ^ 32]) (shaRound v k (w 0))

/-- The number whose bytes, most significant first, are `bs`. -/
def beNat (bs : List Byte) : Nat := bs.foldl (fun n b => n * 256 + b.toNat) 0

/-- `n` in `k` bytes, most significant first. -/
def toBE (k n : Nat) : List Byte := (toLE k n).reverse

/-- A block of 64 bytes taken into the hash value. -/
def shaBlock (h : List Nat) (bs : List Byte) : List Nat :=
  let g (i : Nat) : Nat := h.getD i 0
  let v0 : ShaVars := { a := g 0, b := g 1, c := g 2, d := g 3, e := g 4, f := g 5, g := g 6, h := g 7 }
  let v := shaRounds shaConstants ((List.range 16).map fun i => beNat ((bs.drop (4 * i)).take 4)) v0
  [(g 0 + v.a) % 2 ^ 32, (g 1 + v.b) % 2 ^ 32, (g 2 + v.c) % 2 ^ 32, (g 3 + v.d) % 2 ^ 32,
   (g 4 + v.e) % 2 ^ 32, (g 5 + v.f) % 2 ^ 32, (g 6 + v.g) % 2 ^ 32, (g 7 + v.h) % 2 ^ 32]

def shaBlocks : Nat → List Nat → List Byte → List Nat
  | 0, h, _ => h
  | n + 1, h, bs => shaBlocks n (shaBlock h bs) (bs.drop 64)

/-- The SHA-256 digest of a byte list, byte 0 first.
PRESUMED, unsafe (notes/assumptions/82). -/
def sha256 (bs : List Byte) : List Byte :=
  let n := bs.length
  let all := bs ++ [0x80] ++ List.replicate ((119 - n % 64) % 64) 0 ++ toBE 8 (8 * n)
  (shaBlocks (all.length / 64) shaInitial all).flatMap (toBE 4)

end Sys2Proof.Machine
end

