-- ==== Sys2Proof/Machine/Store.lean ====
section
/-!
DEFINITION. Machine/Store.lean: the configuration store: its directory, its pages and their wear, its check code, and the
order in which a store command writes (R212–R215, R219, R239, R240).
-/
namespace Sys2Proof.Machine

/-! ### Layout (Table 6.1) -/

def pageBytes : Nat := 512
/-- Bytes of a carcass copy and of the staging buffer. -/
def imageRoom : Nat := 44032
/-- The first logical page of a carcass copy, and of a stored veneer. -/
def copyPage (b : Bool) : Nat := if b then 90 else 4
def slotPage (v : Nat) : Nat := 176 + 4 * v
/-- Pages that `n` bytes take. -/
def pagesOf (n : Nat) : Nat := (n + 511) / 512

/-! ### Directory (R215) -/

/-- A directory copy counts while it was written whole and neither of its pages is uncorrectable. -/
def dirGood (s : State) (hi : Bool) : Option DirX :=
  let l := if hi then 2 else 0
  if s.store.bad.contains l || s.store.bad.contains (l + 1) then none
  else if hi then s.store.dir1 else s.store.dir0

/-- Whether directory copy 1 is the one in use, and the directory in use. -/
def dirUsed (s : State) : Bool × DirX :=
  match dirGood s false, dirGood s true with
  | some a, some b => if b.gen ≤ a.gen then (false, a) else (true, b)
  | none, some b => (true, b)
  | some a, none => (false, a)
  | none, none => (false, {})

/-- DESIGN CHOICE, unsafe (notes/assumptions/9). -/
def State.dir (s : State) : DirX := (dirUsed s).2

/-- Whether a page from `l` on of `n` bytes is uncorrectable. -/
def badWithin (s : State) (l n : Nat) : Bool := s.store.bad.any fun x => Nat.ble l x && Nat.blt x (l + pagesOf n)

/-- A carcass copy, while it is valid: listed, not half rewritten, no page of it uncorrectable (R215, Table 18.2). -/
def validCopy (s : State) (b : Bool) : Option CopyX :=
  match (if b then s.dir.copyB else s.dir.copyA) with
  | none => none
  | some c => if s.store.broken.contains (b2n b) || badWithin s (copyPage b) c.len then none else some c

/-- A stored veneer, while it is valid. -/
def validSlot (s : State) (v : Nat) : Option SlotX :=
  match (s.dir.slots.find? fun e => e.1 == v) with
  | none => none
  | some e => if s.store.broken.contains (2 + v) || badWithin s (slotPage v) e.2.len then none else some e.2

/-- The valid copy with the higher generation; A of two equal ones (R219, R244). -/
def newestCopy (s : State) : Option Bool :=
  match validCopy s false, validCopy s true with
  | some a, some b => some (Nat.blt a.gen b.gen)
  | some _, none => some false
  | none, some _ => some true
  | none, none => none

/-- The copy a save goes to, and its generation (R219); after 0xFFFFFFFF comes 0.
DESIGN CHOICE, unsafe (notes/assumptions/98). -/
def saveTarget (s : State) : Bool × Nat :=
  match validCopy s false, validCopy s true with
  | some a, some b => (Nat.ble b.gen a.gen, (max a.gen b.gen + 1) % 2 ^ 32)
  | some a, none => (true, (a.gen + 1) % 2 ^ 32)
  | none, some b => (false, (b.gen + 1) % 2 ^ 32)
  | none, none => (false, 1)

/-! ### Pages -/

/-- The physical page of a logical page, and the writes of a physical page.
DEDUCED, safe (notes/assumptions/39). -/
def physPage (s : State) (l : Nat) : Nat := SMap.get pageDflt s.store.map l
def pageWear (s : State) (p : Nat) : Nat := SMap.get zeroDflt s.store.wear p

/-- Bytes of the store window as they stand.
DESIGN CHOICE, safe (notes/assumptions/38). -/
def storeBytes (s : State) (off n : Nat) : List Byte :=
  openGet s.store.bytes (fun o => Config.storeOpen (pageWear s (physPage s (o / pageBytes))) o) off n

/-- One check of a 64-bit store word in logical page `l` (Table 18.5, j = 6), and whether it is uncorrectable; its page is
then found uncorrectable.
DEDUCED, safe (notes/assumptions/40). -/
def storeCheck (s : State) (l : Nat) : State × Bool :=
  let mask := s.jigMask 6
  let s := jigUse s 6
  let bits := popCount 8 mask
  if bits = 0 then (s, false)
  else if bits = 1 then (raise s 6 (physPage s l) true, false)
  else
    let s := raise s 7 (physPage s l) true
    ({ s with store.bad := if s.store.bad.contains l then s.store.bad else s.store.bad ++ [l] }, true)

/-- Checks of the 64-bit words `w`, `w + 1`, … of the store, `n` of them. -/
def storeChecks : Nat → Nat → State → State × Bool
  | 0, _, s => (s, false)
  | n + 1, w, s =>
    if s.get F.FA_JIG_LEFT 6 = 0 then (s, false)
    else
      let r := storeCheck s (w / 64)
      let t := storeChecks n (w + 1) r.1
      (t.1, r.2 || t.2)

/-- The bytes `off` … `off + n - 1` of the store read with their checks: none when one was uncorrectable. -/
def storeRead (s : State) (off n : Nat) : State × Option (List Byte) :=
  let r := storeChecks ((off + n + 7) / 8 - off / 8) (off / 8) s
  (r.1, if r.2 then none else some (storeBytes s off n))

/-- A read found physical page `p` uncorrectable (Table 18.2). -/
def pageFoundBad (s : State) (p : Nat) : State :=
  let l := match s.store.map.find? (fun e => e.2 == p) with
    | some e => e.1
    | none => p
  if 240 ≤ l ∨ physPage s l ≠ p ∨ s.store.bad.contains l then s else { s with store.bad := s.store.bad ++ [l] }

/-- Logical page `l` mapped to an unused spare (R214); false when none is left.
DEDUCED, safe (notes/assumptions/39). -/
def retirePage (s : State) (l : Nat) : State × Bool :=
  if 16 ≤ s.store.sparesUsed then (s.raiseBit F.CF_EVENT_STORE_WORN, false)
  else
    let old := physPage s l
    let spare := 240 + s.store.sparesUsed
    let s : State := { s with
      store.map := SMap.set pageDflt s.store.map l spare
      store.retired := s.store.retired ++ [old]
      store.sparesUsed := s.store.sparesUsed + 1
      store.bad := s.store.bad.filter fun x => x != l }
    (logPush (s.raiseBit F.CF_EVENT_PAGE_RETIRED) 0x14 0 (spare * 256 + old), true)

/-- What a logical page belongs to, once its rewriting begins: a directory copy, a carcass copy or a stored veneer.
DEDUCED, safe (notes/assumptions/40). -/
def breakOwner (s : State) (l : Nat) : State :=
  if l < 2 then { s with store.dir0 := none }
  else if l < 4 then { s with store.dir1 := none }
  else
    let k := if l < 90 then 0 else if l < 176 then 1 else 2 + (l - 176) / 4
    if s.store.broken.contains k then s else { s with store.broken := s.store.broken ++ [k] }

/-- The erase of a page write begins: it counts as a write, and the page's content is open until it ends (R214, R215). -/
def eraseBegins (s : State) (l : Nat) : State :=
  let p := physPage s l
  let s := breakOwner s l
  { s with
    store.wear := SMap.set zeroDflt s.store.wear p (pageWear s p + 1)
    store.bytes := SMap.restrict (fun o => o / pageBytes != l) s.store.bytes }

/-- A page write begun, its page retired first where R214 asks for it; false when it is abandoned, which leaves what the page
belongs to invalid or empty (R240) unless it is a directory copy, of which nothing was touched.
DEDUCED, safe (notes/assumptions/39). -/
def beginPage (s : State) (l : Nat) : State × Bool :=
  let r := if 10000000 ≤ pageWear s (physPage s l) ∨ s.store.bad.contains l then retirePage s l else (s, true)
  if r.2 then (eraseBegins r.1 l, true) else (if l < 4 then r.1 else breakOwner r.1 l, false)

/-! ### Store commands (R219, R232) -/

/-- The pages that `bs` takes from logical page `l` on. -/
def pageList : Nat → Nat → List Byte → List (Nat × List Byte)
  | 0, _, _ => []
  | n + 1, l, bs => (l, bs.take pageBytes) :: pageList n (l + 1) (bs.drop pageBytes)

/-- The directory copy that is not in use is the one written. -/
def dirPages (s : State) : List (Nat × List Byte) := if (dirUsed s).1 then [(0, []), (1, [])] else [(2, []), (3, [])]

/-- The pages of a command: its content, then the directory. -/
def jobPages (s : State) (w : StoreWhat) : List (Nat × List Byte) :=
  (match w with
    | .image bs => pageList (pagesOf bs.length) (copyPage (saveTarget s).1) bs
    | .veneer v _ bs => pageList (pagesOf bs.length) (slotPage v) bs
    | _ => []) ++ dirPages s

/-- The first command abandoned with STORE_WORN, or taken off without a result when it was cut. -/
def dropJob (s : State) (result : Option (Nat × List Byte)) : State :=
  match s.store.jobs with
  | [] => s
  | j :: js =>
    let s : State := { s with store.jobs := js }
    match result with
    | some (st, data) => if j.cut then s else postResult s j.kind st data
    | none => s

/-- The first of the waiting commands begun; one that cannot begin ends with STORE_WORN, and the next begins. -/
def beginJobs : Nat → State → State
  | 0, s => s
  | n + 1, s =>
    match s.store.jobs with
    | [] => s
    | j :: js =>
      let pages := jobPages s j.what
      match pages with
      | [] => s
      | (l, _) :: _ =>
        let r := beginPage { s with store.jobs := { j with copyB := (saveTarget s).1, pages := pages } :: js } l
        if r.2 then r.1 else beginJobs n (dropJob r.1 (some (St.worn, [])))

/-- A store command taken up: at once, or after those before it. -/
def storeStart (s : State) (k : JobKind) (w : StoreWhat) : State :=
  let idle := s.store.jobs.isEmpty
  let s : State := { s with store.jobs := s.store.jobs ++ [{ kind := k, what := w }] }
  if idle then beginJobs 4 s else s

/-- The first command ended, and the next begun. -/
def endJob (s : State) (result : Option (Nat × List Byte)) : State :=
  let s := dropJob s result
  beginJobs s.store.jobs.length s

/-- The new directory in effect: what the command wrote is valid from here (R219). -/
def writeDir (s : State) (j : StoreJob) : State × List Byte :=
  let d := s.dir
  let hi := !(dirUsed s).1
  let next : DirX := { d with gen := d.gen + 1 }
  let target := saveTarget s
  let fixed (k : Nat) (s : State) : State := { s with store.broken := s.store.broken.filter fun x => x != k }
  let set (next : DirX) (s : State) : State :=
    if hi then { s with store.dir1 := some next } else { s with store.dir0 := some next }
  match j.what with
  | .image bs =>
    let c : CopyX := { gen := target.2, len := bs.length }
    (fixed (b2n j.copyB) (set (if j.copyB then { next with copyB := some c } else { next with copyA := some c }) s),
      toLE 1 (b2n j.copyB) ++ toLE 4 target.2)
  | .veneer v count bs =>
    let slots := (d.slots.filter fun e => e.1 != v) ++ [(v, { count := count, len := bs.length })]
    (fixed (2 + v) (set { next with slots := slots } s), [])
  | .erase v => (set { next with slots := d.slots.filter fun e => e.1 != v } s, [])
  | .bootMode m => (set { next with bootMode := m } s, [])

/-- The page write in progress ends, verified or not (R213, R214). A command that was cut ends with the page (R143).
DEDUCED, safe (notes/assumptions/39). -/
def pageDone (s : State) (verified : Bool) : State :=
  match s.store.jobs with
  | [] => s
  | j :: js =>
    match j.pages with
    | [] => s
    | (l, bs) :: rest =>
      if !verified then
        let r := retirePage s l
        if r.2 then eraseBegins r.1 l else endJob r.1 (some (St.worn, []))
      else
        let s : State := { s with
          store.bytes := openPut s.store.bytes (pageBytes * l) bs
          store.bad := s.store.bad.filter fun x => x != l }
        if j.cut then endJob s none
        else
          match rest with
          | [] =>
            let r := writeDir s j
            endJob r.1 (some (St.ok, r.2))
          | (l2, _) :: _ =>
            let r := beginPage { s with store.jobs := { j with pages := rest } :: js } l2
            if r.2 then r.1 else endJob r.1 (some (St.worn, []))

/-- STORE_PAGE_WRITE_DONE (R213). -/
def execStorePageWriteDone (verified : Bool) (s : State) : Host.Outcome State Fault Refusal :=
  act s (pageDone s verified)

/-! ### What the CF registers show of the store (Tables 6.8, 6.9) -/

/-- CF_STATUS but for BOOT_LOAD, which is stored. -/
def cfStatusWord (s : State) : Nat :=
  let gen (b : Bool) : Nat := match validCopy s b with
    | some c => c.gen
    | none => 0
  (16 - s.store.sparesUsed) * 2 ^ 8 + b2n (!s.store.jobs.isEmpty) * 2 ^ 7 + b2n s.dir.bootMode * 2 ^ 6 +
    s.get F.CF_STATUS_BOOT_LOAD * 2 ^ 4 + b2n (Nat.blt (gen false) (gen true)) * 2 ^ 2 +
    b2n (validCopy s true).isSome * 2 + b2n (validCopy s false).isSome

/-- Generation, length and CRC-32 of a copy; 0 while it is invalid. -/
def copyGen (s : State) (b : Bool) : Nat := match validCopy s b with
  | some c => c.gen
  | none => 0
def copyLen (s : State) (b : Bool) : Nat := match validCopy s b with
  | some c => c.len
  | none => 0
def copyCrc (s : State) (b : Bool) : Nat := match validCopy s b with
  | some c => ofLE (storeBytes s (pageBytes * copyPage b + c.len - 4) 4)
  | none => 0

/-- CF_VSLOT_VALID. -/
def vslotWord (s : State) : Nat :=
  (List.range 16).foldl (fun n v => if (validSlot s v).isSome then n + 2 ^ v else n) 0

/-- CF_WEAR[p]. -/
def wearWord (s : State) (p : Nat) : Nat :=
  b2n (s.store.retired.contains p) * 2 ^ 31 + b2n (Nat.ble (240 + s.store.sparesUsed) p) * 2 ^ 30 + min (pageWear s p) 0xFFFFFF

end Sys2Proof.Machine
end

