-- ==== Sys2Proof/Machine/Bc.lean ====
section
/-!
DEFINITION. Machine/Bc.lean: bench cores, takeovers, and the firmware image with its stage and replacement (chapter 17).
-/
namespace Sys2Proof.Machine

/-! ### FW_READY (R142, R625, R626, R646) -/

/-- MP_STATUS.FW_READY follows what keeps firmware away. -/
def showFw (s : State) : State :=
  let absent := match s.bc.swap with
    | some w => w.absent
    | none => false
  s.put F.MP_STATUS_FW_READY (b2n (s.bc.booted && s.bc.takeover.isNone && s.bc.bare.isEmpty && !absent))

/-- A firmware-served command that commits now draws BUSY whatever is in progress (R142, R646). -/
def fwAway (s : State) : Bool := !s.on F.MP_STATUS_FW_READY || s.bc.swap.isSome

/-! ### Commands cut by the loss of their firmware (R143) -/

/-- What a firmware-served command of kind k has started no longer reports to it. A packet that QDMA was writing for it is
closed with ERR. -/
def detach (s : State) (k : JobKind) : State :=
  let mine (j : JobKind) : Bool := j == k
  let s := sliceAbandon s k
  let s : State := { s with
    tod.exch := s.tod.exch.filter fun j => !mine j.kind
    fe.chan := SMap.mapVals feDflt (fun _ x => { x with jobs := x.jobs.filter fun j => !mine j }) s.fe.chan
    mp.remote := s.mp.remote.filter fun r => !mine r.kind
    store.jobs := match s.store.jobs with
      | [] => []
      | j :: js => (if mine j.kind then { j with cut := true } else j) :: js.filter fun j => !mine j.kind }
  forN 64 (fun q s =>
    let x := s.queueX q
    let first := match x.qdma with
      | j :: _ => mine j.1 && x.cur.isSome
      | [] => false
    let s := if first then qClose s q true else s
    (qResetAbandon s q k).modQueue q fun x => { x with qdma := x.qdma.filter fun j => !mine j.1 }) s

/-- The kinds of firmware-served command in progress. -/
def jobsRunning (s : State) : List JobKind :=
  (if s.mp.job.isSome then [.chain] else []) ++ (if s.mp.bjob.isSome then [.broadcast] else []) ++
    (if s.mp.rjob.isSome then [.remote] else [])

/-- Every firmware-served command in progress completes with BUSY. -/
def cutJobs (s : State) : State :=
  forList (jobsRunning s) (fun k s =>
    if s.mp.ready.any (fun r => r.1 == k) then s else postResult (detach s k) k St.busy []) s

/-! ### Cores (R623–R626) -/

def coreState (s : State) (n : Nat) : Nat := s.get F.BC_CORE_STATE n

/-- Whether core n runs code: RUN or STANDIN. -/
def coreRuns (s : State) (n : Nat) : Bool := coreState s n == 0 || coreState s n == 2

/-- The sources that core n had in service return to pending; it serves nothing (R625). -/
def icIsolate (s : State) (n : Nat) : State :=
  let back := (SMap.get stackDflt s.ic.stack n).foldl (fun m e => m ||| 2 ^ e.1) 0
  let s : State := { s with ic.pend := s.ic.pend ||| back, ic.stack := SMap.set stackDflt s.ic.stack n [] }
  ((s.put F.IC_CORE_RUNPRIO 0 n).put F.IC_CORE_INNER 0x7F n).put F.IC_CORE_DEPTH 0 n

/-- BC[4] takes over role n (R625): the spare is gone, firmware is away till it resumes the role, and the repair engine logs
it (R681).
DEDUCED, unsafe (notes/assumptions/81). -/
def takeover (s : State) (n cause : Nat) : State :=
  let s := (s.put F.BC_CORE_STATE 2 4).put F.BC_CORE_STANDS_FOR n 4
  let s := s.raiseBit F.BC_EVENT_SPARE_LOST
  let s : State := { s with bc.takeover := some n, bc.takenAt := some s.cyc, bm.waiting := s.bm.waiting.filter fun r => r.m.val != n }
  logPush (cutJobs (showFw (icIsolate s n))) 0x15 n cause

/-- Role n has no core (R626).
DEDUCED, unsafe (notes/assumptions/81). -/
def bareRole (s : State) (n : Nat) : State :=
  let s := if s.bc.takeover = some n then holdEnds { s with bc.takeover := none } else s
  let s : State := { s with bc.bare := s.bc.bare ++ [n] }
  cutJobs (showFw (s.raiseBit F.BC_EVENT_SPARE_LOST))

/-- BC[4] turns from role m to role n in the cycle in which it took m over; m has no core (R654).
DEDUCED, unsafe (notes/assumptions/81). -/
def takeInstead (s : State) (m n cause : Nat) : State :=
  bareRole (takeover (s.put F.BC_CORE_STANDS_FOR 7 4) n cause) m

/-- A core in RUN, SPARE or STANDIN fails with a cause (Table 17.2); of two that expire in one cycle BC[4] stands in for the
lower-numbered (R654), and one that BC_PROMOTE retires in that cycle is FAILED (R656).
DEDUCED, unsafe (notes/assumptions/81). -/
def coreFail (s : State) (n cause : Nat) : State :=
  let st := coreState s n
  let now := s.bc.takenAt == some s.cyc
  if st = 4 && now && s.bc.takeover == some n && cause == 1 then
    raise (((s.put F.BC_CORE_STATE 3 n).put F.BC_CORE_CAUSE cause n).raiseBit F.BC_EVENT_CORE_FAIL) 18 n
  else if 3 ≤ st then s
  else
    let role := s.get F.BC_CORE_STANDS_FOR n
    let s := (s.put F.BC_CORE_STATE 3 n).put F.BC_CORE_CAUSE cause n
    let s := raise (s.raiseBit F.BC_EVENT_CORE_FAIL) 18 n
    if st = 0 then
      (if n ≤ 3 ∧ coreState s 4 = 1 ∧ s.on F.BC_CTRL_AUTO_PROMOTE then takeover s n cause
      else
        match s.bc.takeover with
        | some m =>
          if now && Nat.blt n m && cause == 1 && s.get F.BC_CORE_CAUSE m == 1 then takeInstead s m n cause else bareRole s n
        | none => bareRole s n)
    else if st = 2 then bareRole (s.put F.BC_CORE_STANDS_FOR 7 n) role
    else s.raiseBit F.BC_EVENT_SPARE_LOST

/-! ### The stage (R645) -/

/-- Bytes `off` to `off + n` − 1 of the stage.
DESIGN CHOICE, safe (notes/assumptions/37). -/
def stageBytes (s : State) (off n : Nat) : List Byte := openGet s.bc.stage (Config.stagingOpen true) off n

def stageState (s : State) : Nat := s.get F.BC_FW_STAT_STAGE

/-- The header of the stage is wrong (R645). -/
def headerWrong (s : State) : Bool :=
  let h := stageBytes s 0 64
  let len := leAt h 12 4
  h.take 4 != [0x4C, 0x5A, 0x46, 0x57] || leAt h 4 2 != 1 || leAt h 6 2 != 0x1664 ||
    Nat.blt len 144 || Nat.blt 196608 len || len % 16 != 0 || Nat.blt s.bc.loaded len ||
    Nat.blt 1 (byteAt h 16) || (h.drop 19).any (fun b => b != 0) || Nat.blt (byteAt h 18) (byteAt h 17)

/-- The stage is no longer verified: what was recorded of it reads 0. -/
def unverified (s : State) : State :=
  forN 8 (fun j s => s.put F.BC_STAGE_DIGEST 0 j) (s.put F.BC_STAGE_VER 0)

/-- The checks of a VERIFYING stage end (Table 17.8).
PRESUMED, unsafe (notes/assumptions/82). -/
def verifyEnd (s : State) : State :=
  let s := s.raiseBit F.BC_EVENT_VERIFY_DONE
  if headerWrong s then (s.put F.BC_FW_STAT_STAGE 4).put F.BC_FW_STAT_RESULT St.badParam
  else
    let len := leAt (stageBytes s 12 4) 0 4
    let d := sha256 (stageBytes s 0 (len - 64))
    if Config.signatureGood (byteAt (stageBytes s 16 1) 0) d (stageBytes s (len - 64) 64) then
      let s := (s.put F.BC_FW_STAT_STAGE 3).put F.BC_FW_STAT_RESULT St.ok
      let s := (s.put F.BC_STAGE_VER (leAt (stageBytes s 8 4) 0 4)).put F.BC_STAGE_LEN len
      forN 8 (fun j s => s.put F.BC_STAGE_DIGEST (leAt d (4 * j) 4) j) s
    else (s.put F.BC_FW_STAT_STAGE 4).put F.BC_FW_STAT_RESULT St.sigFail

/-- The stage emptied. -/
def stageEmpty (s : State) : State :=
  ((unverified { s with bc.stage := [], bc.loaded := 0 }).put F.BC_STAGE_LEN 0).put F.BC_FW_STAT_STAGE 0

/-! ### Opcodes 0xA0–0xA4 (R648, R649) -/

/-- FW_LOAD. -/
def bodyFwLoad (ps : List Byte) (s : State) : Out :=
  let off := leAt ps 0 4
  let bs := ps.drop 4
  if off % 16 ≠ 0 ∨ bs.length % 16 ≠ 0 then refuse s St.badParam
  else if 196608 < off + bs.length then refuse s St.range
  else if stageState s = 2 ∨ stageState s = 5 then refuse s St.wrongState
  else
    let s := unverified s
    let s : State := { s with bc.stage := openPut s.bc.stage off bs, bc.loaded := max s.bc.loaded (off + bs.length) }
    .done ((s.put F.BC_STAGE_LEN s.bc.loaded).put F.BC_FW_STAT_STAGE 1) St.ok []

/-- FW_VERIFY. -/
def bodyFwVerify (_ : List Byte) (s : State) : Out :=
  if stageState s = 2 ∨ stageState s = 5 ∨ stageState s = 0 then refuse s St.wrongState
  else
    let s := unverified s
    .done ((s.put F.BC_STAGE_LEN s.bc.loaded).put F.BC_FW_STAT_STAGE 2) St.ok []

/-- The stepping of the unit (R103). -/
def stepping (s : State) : Nat := s.get F.CH_ID_PART / 2 ^ 28

/-- FW_ACTIVATE.
DESIGN CHOICE, unsafe (notes/assumptions/13). -/
def bodyFwActivate (ps : List Byte) (s : State) : Out :=
  let flags := byteAt ps 0
  if 1 < flags then refuse s St.badParam
  else if s.locked 16 then refuseLocked s
  else if (stageState s ≠ 3 ∧ stageState s ≠ 4) ∨ s.bc.takeover.isSome then refuse s St.wrongState
  else if stageState s = 4 then refuse s (s.get F.BC_FW_STAT_RESULT)
  else
    let h := stageBytes s 0 64
    if stepping s < byteAt h 17 ∨ byteAt h 18 < stepping s ∨
        (s.get F.BC_STAGE_VER < s.get F.BC_FW_VER ∧ flags = 0) then refuse s St.range
    else
      let s : State := { s with bc.swap := some {} }
      .done (s.put F.BC_FW_STAT_STAGE 5) St.ok []

/-- FW_STATUS. -/
def bodyFwStatus (_ : List Byte) (s : State) : Out :=
  .done s St.ok (toLE 4 (s.get F.BC_FW_VER) ++ toLE 1 (s.get F.BC_FW_STAT_SOURCE) ++ toLE 1 (stageState s) ++
    toLE 1 (s.get F.BC_FW_STAT_RESULT) ++ toLE 4 (s.get F.BC_STAGE_VER) ++ toLE 4 (s.get F.BC_STAGE_LEN) ++
    (List.range 8).flatMap (fun j => toLE 4 (s.get F.BC_STAGE_DIGEST j)) ++ toLE 1 (s.get F.BC_FW_STAT_LAST_SWAP) ++
    toLE 4 (s.get F.BC_ABSENCE))

/-- BC_PROMOTE. -/
def bodyBcPromote (ps : List Byte) (s : State) : Out :=
  let n := byteAt ps 0
  if 3 < n then refuse s St.badParam
  else if s.locked 16 then refuseLocked s
  else if coreState s 4 ≠ 1 ∨ coreState s n ≠ 0 then refuse s St.wrongState
  else .done (takeover ((s.put F.BC_CORE_STATE 4 n).put F.BC_CORE_CAUSE 5 n) n 5) St.ok []

/-! ### The commands -/

/-- CORE_SELF_TEST (R623): a failing core fails with CAUSE 4, and BC[4] stands in for it from the start. -/
def execCoreSelfTest (n : Fin 5) (pass : Bool) (s : State) : Host.Outcome State Fault Refusal :=
  act s (if pass || s.bc.booted then s
  else
    let t := coreFail s n 4
    if t.bc.takeover = some n.val then showFw { t with bc.takeover := none } else t)

/-- FW_READY (R705): firmware first reports ready once the boot load has been applied, refused or skipped. -/
def execFwReady (s : State) : Host.Outcome State Fault Refusal :=
  act s (if !(s.cf.bootDone || s.cf.bootSkip || !s.dir.bootMode) then s else showFw { s with bc.booted := true })

/-- CORE_WATCHDOG_EXPIRY (R624).
DEDUCED, unsafe (notes/assumptions/81). -/
def execCoreWatchdogExpiry (n : Fin 5) (s : State) : Host.Outcome State Fault Refusal :=
  act s (coreFail s n 1)

/-- CORE_FAIL (R623): a lockup or an uncorrected error. -/
def execCoreFail (n : Fin 5) (uncorrected : Bool) (s : State) : Host.Outcome State Fault Refusal :=
  act s (coreFail s n (if uncorrected then 3 else 2))

/-- TAKEOVER_DONE (R625): the role resumes `us` µs after detection.
DEDUCED, unsafe (notes/assumptions/81). -/
def execTakeoverDone (us : Nat) (s : State) : Host.Outcome State Fault Refusal :=
  act s (match s.bc.takeover with
    | some n =>
      if us ≤ 2000 then
        let s := (s.put F.BC_TAKEOVER_US us n).put F.BC_ABSENCE us
        holdEnds (showFw (({ s with bc.takeover := none } : State).raiseBit F.BC_EVENT_TAKEOVER_DONE))
      else s
    | none => s)

/-- VERIFY_DONE (R645). -/
def execVerifyDone (s : State) : Host.Outcome State Fault Refusal := act s (if stageState s = 2 then verifyEnd s else s)

/-- FIRMWARE_ABSENCE_START (R646): the drain has ended. -/
def execFirmwareAbsenceStart (s : State) : Host.Outcome State Fault Refusal :=
  act s (if s.bc.swap = some { absent := false } ∧ jobsRunning s = [] then
    showFw { s with bc.swap := some { absent := true } }
  else s)

/-- SWAP_DONE (R646): the new image reports ready `us` µs after the absence began, a takeover within it completed (R655). -/
def execSwapDone (us : Nat) (s : State) : Host.Outcome State Fault Refusal :=
  act s (if s.bc.swap = some { absent := true } ∧ s.bc.takeover = none ∧ us ≤ 30000 then
    let s := ((s.put F.BC_FW_VER (s.get F.BC_STAGE_VER)).put F.BC_FW_STAT_SOURCE 1).put F.BC_FW_STAT_LAST_SWAP 1
    let s := (stageEmpty (s.put F.BC_ABSENCE us)).raiseBit F.BC_EVENT_SWAP_DONE
    holdEnds (showFw { s with bc.swap := none })
  else s)

/-- SWAP_REVERTED (R646): the previous image reports ready `us` µs after the absence began, a takeover within it completed
(R655). -/
def execSwapReverted (us : Nat) (s : State) : Host.Outcome State Fault Refusal :=
  act s (if s.bc.swap = some { absent := true } ∧ s.bc.takeover = none ∧ 30000 ≤ us ∧ us ≤ 48000 then
    let s := ((s.put F.BC_FW_STAT_STAGE 3).put F.BC_FW_STAT_LAST_SWAP 2).put F.BC_ABSENCE us
    holdEnds (showFw (({ s with bc.swap := none } : State).raiseBit F.BC_EVENT_SWAP_REVERTED))
  else s)

end Sys2Proof.Machine
end

