-- ==== Sys2Proof/Machine/Ic.lean ====
section
/-!
DEFINITION. Machine/Ic.lean: the interrupt controller (chapter 17): sources, pending, delivery, hold-off, end of
interrupt, and the host line.
-/
namespace Sys2Proof.Machine

/-! ### Sources (R636, Table 17.6) -/

/-- An event register ANDed with its enable register is not 0. -/
def evOn (s : State) (ev en : Field) (i : Nat := 0) : Bool := (s.reg (ev.addr i) &&& s.reg (en.addr i)) != 0

/-- PS_EVENT_SUM and FE_EVENT_SUM: bit i is 1 while instance i has an enabled event. -/
def eventSum (s : State) (ev en : Field) : Nat := (List.range 8).foldl (fun m i => m + b2n (evOn s ev en i) * 2 ^ i) 0

/-- Fault line FA[l] (Table 18.3). -/
def faLine (s : State) (l : Nat) : Bool :=
  (List.range 23).any fun z => s.isOpen z && (s.effRx z).testBit 0 && s.get F.FA_SRC_CFG_LINE z == l

def isEdge (h : Nat) : Bool := Nat.ble 76 h && Nat.ble h 79

/-- The blocks' own sources 0–15. -/
def blockActive (s : State) (h : Nat) : Bool :=
  match h with
  | 0 => (s.on F.MP_STATUS_RESULT_READY && s.on F.MP_IRQ_EN_RESULT_READY_IE) ||
         (s.on F.MP_LAST_ERR_VALID && s.on F.MP_IRQ_EN_LAST_ERR_IE)
  | 1 => evOn s F.CF_EVENT F.CF_IRQ_EN
  | 2 => evOn s F.LF_EVENT F.LF_IRQ_EN
  | 3 => evOn s F.XC_EVENT F.XC_IRQ_EN
  | 4 => evOn s F.GR_EVENT F.GR_IRQ_EN
  | 5 => evOn s F.QM_EVENT F.QM_IRQ_EN
  | 6 => evOn s F.DM_EVENT F.DM_IRQ_EN
  | 7 => eventSum s F.PS_GEVENT F.PS_GIRQ_EN != 0
  | 8 => evOn s F.TG_EVENT F.TG_IRQ_EN
  | 9 => evOn s F.TG_D_EVENT F.TG_D_IRQ_EN 0
  | 10 => evOn s F.TG_D_EVENT F.TG_D_IRQ_EN 1
  | 11 => evOn s F.TD_EVENT F.TD_IRQ_EN
  | 12 => evOn s F.KF_EVENT F.KF_IRQ_EN
  | 13 => eventSum s F.FE_EVENT F.FE_IRQ_EN != 0
  | 14 => evOn s F.BC_EVENT F.BC_IRQ_EN
  | _ => evOn s F.BM_EVENT F.BM_IRQ_EN

/-- Source h is asserted; an edge source's latched bit (R637). -/
def srcActive (s : State) (h : Nat) : Bool :=
  if isEdge h then s.ic.edge.testBit h
  else if h < 16 then blockActive s h
  else if h < 32 then evOn s F.LP_EVENT F.LP_IRQ_EN (h - 16)
  else if h < 48 then evOn s F.LF_PEVENT F.LF_PIRQ_EN (h - 32)
  else if h < 64 then evOn s F.DM_PEVENT F.DM_PIRQ_EN (h - 48)
  else if h < 72 then evOn s F.TM_EVENT F.TM_IRQ_EN (h - 64)
  else if h < 80 then evOn s F.CL_EVENT F.CL_IRQ_EN (h - 72)
  else faLine s (h - 80)

/-! ### Pending (R637) -/

def icStack (s : State) (n : Nat) : List (Nat × Nat) := SMap.get stackDflt s.ic.stack n

/-- Source h is in service at some core. -/
def inService (s : State) (h : Nat) : Bool := (List.range 5).any fun n => (icStack s n).any fun e => e.1 == h

def icPend (s : State) (h : Nat) : State := { s with ic.pend := s.ic.pend ||| 2 ^ h }

/-- An edge of source h. -/
def icEdge (s : State) (h : Nat) : State :=
  let busy := s.ic.pend.testBit h || inService s h
  let s : State := { s with ic.edge := s.ic.edge ||| 2 ^ h }
  if busy then { s with ic.again := s.ic.again ||| 2 ^ h } else icPend s h

/-- A level source that is asserted and neither pending nor in service becomes pending. -/
def icAssert (s : State) (h : Nat) : State :=
  if !isEdge h && srcActive s h && !s.ic.pend.testBit h && !inService s h then icPend s h else s

def icAssertAll (s : State) : State := forN 96 (fun h s => icAssert s h) s

/-! ### Delivery (R638–R640) -/

/-- Priority of source h. -/
def icPrio (s : State) (h : Nat) : Nat := s.get F.IC_GCFG_PRIO (h / 8)

/-- IC_ROUTE[h] names core n: its own bit, and for BC[4] the bit of the role that it took over (R625). -/
def routed (s : State) (h n : Nat) : Bool :=
  let r := s.get F.IC_ROUTE_CORES h
  r.testBit n || (n == 4 && coreState s 4 == 2 && r.testBit (s.get F.BC_CORE_STANDS_FOR 4))

/-- Core n can accept source h. -/
def accepts (s : State) (h n : Nat) : Bool :=
  coreRuns s n && routed s h n && s.on F.IC_CORE_IE n && Nat.blt (s.get F.IC_CORE_RUNPRIO n) (icPrio s h)

/-- The first core after LAST[h] that can accept source h and has had no delivery in this cycle. -/
def acceptor (s : State) (taken : List Nat) (h : Nat) : Option Nat :=
  ((List.range 5).map fun i => (s.get F.IC_ROUTE_LAST h + 1 + i) % 5).find? fun n => accepts s h n && !taken.contains n

def holding (s : State) (y : Nat) : Nat := SMap.get zeroDflt s.ic.hold y
def setHolding (s : State) (y n : Nat) : State := { s with ic.hold := SMap.set zeroDflt s.ic.hold y n }

/-- IC_CORE[n] shows the innermost source in service. -/
def showCore (s : State) (n : Nat) : State :=
  let l := icStack s n
  let top := l.headD (0x7F, 0)
  ((s.put F.IC_CORE_RUNPRIO top.2 n).put F.IC_CORE_INNER top.1 n).put F.IC_CORE_DEPTH l.length n

def setStack (s : State) (n : Nat) (l : List (Nat × Nat)) : State :=
  showCore { s with ic.stack := SMap.set stackDflt s.ic.stack n l } n

/-- Source h delivered to core n.
DEDUCED, unsafe (notes/assumptions/86). -/
def deliver (s : State) (h n : Nat) : State :=
  let bit := 2 ^ h
  let s : State := { s with ic.pend := s.ic.pend - bit, ic.edge := if s.ic.edge.testBit h then s.ic.edge - bit else s.ic.edge }
  let s := fetchAt s n (16 * h)
  let s := setStack (s.put F.IC_ROUTE_LAST n h) n ((h, icPrio s h) :: icStack s n)
  setHolding (s.bumpSat F.IC_GCNT_DELIVERED 1 (h / 8)) (h / 8) (400 * s.get F.IC_GCFG_HOLDOFF (h / 8))

/-- The pending sources that may be delivered, in order: highest PRIO, then lowest h. -/
def deliverOrder (s : State) : List Nat :=
  (List.range 15).flatMap fun i => (List.range 96).filter fun h => s.ic.pend.testBit h && icPrio s h == 15 - i

/-- One cycle's consideration of a list of sources: the state, the cores that had a delivery, and the groups of which one
waited for nothing but the hold-off. -/
def deliverAll : List Nat → State × List Nat × List Nat → State × List Nat × List Nat
  | [], r => r
  | h :: hs, (s, taken, held) =>
    match acceptor s taken h with
    | none => deliverAll hs (s, taken, held)
    | some n =>
      if holding s (h / 8) = 0 then deliverAll hs (deliver s h n, n :: taken, held)
      else deliverAll hs (s, taken, if held.contains (h / 8) then held else (h / 8) :: held)

/-- One cycle of the controller: the state it leaves, and the groups held off.
DEDUCED, unsafe (notes/assumptions/86). -/
def icCycle (s : State) : State × List Nat :=
  let s := icAssertAll s
  let r := deliverAll (deliverOrder s) (s, [], [])
  (r.1, r.2.2)

/-- `n` cycles of the controller: its decisions change only where a hold-off ends.
DEDUCED, unsafe (notes/assumptions/86). -/
def icPass : Nat → Nat → State → State
  | 0, _, s => s
  | fuel + 1, n, s =>
    if n = 0 then s
    else
      let r := icCycle s
      let s := r.1
      let m := s.ic.hold.foldl (fun m e => if e.2 = 0 then m else min m e.2) n
      let s := forList r.2 (fun y s => s.bumpSat F.IC_GCNT_DEFERRED m y) s
      let s : State := { s with ic.hold := SMap.mapVals zeroDflt (fun _ k => k - m) s.ic.hold }
      icPass fuel (n - m) s

/-! ### End of interrupt (R641) -/

/-- Core n ends service of source h.
DEDUCED, unsafe (notes/assumptions/86). -/
def icEnd (s : State) (n h : Nat) : State :=
  match icStack s n with
  | [] => s
  | e :: l =>
    if e.1 ≠ h then s
    else
      let s := setStack s n l
      if isEdge h then
        (if s.ic.again.testBit h then
          icPend { s with ic.again := s.ic.again - 2 ^ h, ic.edge := s.ic.edge ||| 2 ^ h } h else s)
      else icAssert s h

/-! ### What the host reads (R642) -/

/-- IC_ACTIVE and IC_PEND, word w. -/
def icActiveWord (s : State) (w : Nat) : Nat :=
  (List.range 32).foldl (fun m i => m + b2n (srcActive s (32 * w + i)) * 2 ^ i) 0
def icPendWord (s : State) (w : Nat) : Nat := s.ic.pend / 2 ^ (32 * w) % 2 ^ 32

/-- IC_HOST_STAT, word w: the level sources that are enabled to the host. -/
def icHostWord (s : State) (w : Nat) : Nat :=
  icActiveWord s w &&& (s.reg (F.IC_HOST_EN.addr w)).toNat &&& (if w = 2 then 0xFFFF0FFF else 0xFFFFFFFF)

/-- IRQ_N is driven low (R642, R102, R58). -/
def irqLow (s : State) : Bool :=
  !s.chip.held && !s.ioDip && !s.on F.CH_STATUS_QUIET_IRQ && (List.range 3).any fun w => icHostWord s w != 0

/-! ### Register writes -/

/-- What a write in block IC sets off. -/
def hookIc (a v _old : Nat) (s : State) : State :=
  if a = 0x40120004 then forN 4 (fun i s => if bitOf v i then icEdge s (76 + i) else s) s else s

/-! ### The commands -/

/-- INTERRUPT_ASSERT (R636): source h asserts. -/
def execInterruptAssert (h : Fin 96) (s : State) : Host.Outcome State Fault Refusal :=
  act s (if isEdge h then icEdge s h else icAssert s h)

/-- INTERRUPT_DELIVERY (R638): the controller's decisions in one cycle; `ie` is which cores have their interrupts enabled. -/
def execInterruptDelivery (ie : BitVec 5) (s : State) : Host.Outcome State Fault Refusal :=
  act s (icCycle (forN 5 (fun n s => s.put F.IC_CORE_IE (b2n (ie.toNat.testBit n)) n) s)).1

/-- IC_EOI (R641). -/
def execIcEoi (n : Fin 5) (h : BitVec 7) (s : State) : Host.Outcome State Fault Refusal := act s (icEnd s n h.toNat)

/-- IC_SWI (R636). -/
def execIcSwi (m : BitVec 4) (s : State) : Host.Outcome State Fault Refusal :=
  act s (writeBy (fun _ _ _ => St.ok) hookIc s (F.IC_SWI.addr) m.toNat)

end Sys2Proof.Machine
end

