-- ==== Sys2Proof/Machine/Fa.lean ====
section
/-!
DEFINITION. Machine/Fa.lean: the FA opcodes and registers, acknowledgement, the kick and ALIVE, paired inputs, and the
repair engine's row remaps (chapter 18).
-/
namespace Sys2Proof.Machine

/-! ### What FA_GSTAT shows -/

def aliveCode (s : State) : Nat :=
  match s.fa.alive with
  | .waiting => 0
  | .toggling => 1
  | .stopped => 2

/-- FA_GSTAT (Table 18.10). -/
def gstatWord (s : State) : Nat :=
  let cls (c : Nat) : Nat := b2n ((List.range 23).any fun z => s.isOpen z && s.effCls z == c)
  s.get F.FA_GSTAT_CAUSE_Z * 2 ^ 16 + s.get F.FA_GSTAT_LAST_RESET * 2 ^ 8 + cls 2 * 2 ^ 6 + cls 1 * 2 ^ 5 + cls 0 * 2 ^ 4 +
    b2n s.fa.aliveLevel * 2 ^ 3 + aliveCode s

/-! ### The kick and ALIVE (R674, R675) -/

/-- FCLK cycles from now to the cycle in which the kick expires, when the watch runs and nothing holds it. A kick that comes
in that cycle counts (R690). -/
def toKickLost (s : State) : Option Nat :=
  match s.fa.kickAge with
  | some n => if kickHeld s || Nat.blt 8000000 n then none else some (8000000 - n)
  | none => none

/-- The kick expires: FW_KICK_LOST, and a toggling ALIVE stops with cause 19. Table 18.5A logs ALIVE_STOP for an occurrence
with that reaction, so here only if FW_KICK_LOST has it (log 87).
DEDUCED, unsafe (notes/assumptions/87). -/
def kickLost (s : State) : State :=
  let s := raise { s with fa.kickAge := some 8000001 } 19 0
  if s.fa.alive = .toggling then aliveHold s 19 else s

/-- The kick expires if this cycle is the one and none has come in it. -/
def kickDue (s : State) : State := if toKickLost s = some 0 then kickLost s else s

/-- `n` cycles of the kick watch, which go no further than the one in which it expires. -/
def kickAgePass (n : Nat) (s : State) : State :=
  { s with fa.kickAge := s.fa.kickAge.map fun a =>
      if kickHeld s then 0 else if 8000000 < a then a else min (a + n) 8000000 }

/-- `n` cycles of ALIVE; it stops while the boundary register owns its ball (R76). -/
def alivePass (n : Nat) (s : State) : State :=
  if s.fa.alive ≠ .toggling ∨ s.tapOwns then s
  else if n < s.fa.aliveLeft then { s with fa.aliveLeft := s.fa.aliveLeft - n }
  else
    let overR := n - s.fa.aliveLeft
    { s with fa.aliveLevel := (s.fa.aliveLevel != (overR / 200000 % 2 == 0)), fa.aliveLeft := 200000 - overR % 200000 }

/-- `n` cycles of both, none of which but the first may be the one in which the kick expires. -/
def kickPass (n : Nat) (s : State) : State := kickAgePass n (alivePass n s)

/-- A kick (R674): it satisfies the watch; the first one starts ALIVE when health is good.
DEDUCED, unsafe (notes/assumptions/87). -/
def kick (s : State) : State :=
  let first := s.fa.kickAge.isNone
  let s : State := { s with fa.kickAge := some 0 }
  if first && s.fa.alive = .waiting && s.healthGood then { s with fa.alive := .toggling, fa.aliveLeft := 200000 } else s

/-! ### Ticks -/

/-- Occurrences whose automatic acknowledgement falls at the end of the tick in progress (R672). -/
def autoAckDue (s : State) (z : Nat) : Bool :=
  s.isOpen z && s.on F.FA_SRC_CFG_AUTO_ACK z && SMap.get zeroDflt s.fa.autoAge z == 1

/-- The end of a tick: automatic acknowledgements. -/
def autoAckAll (s : State) : State := forN 23 (fun z s => if autoAckDue s z then ackOne s z 1 else s) s

/-- A tick begins: the occurrences open before it are acknowledged automatically at its end (R672). -/
def autoAckBegin (s : State) : State :=
  { s with fa.autoAge := (List.range 23).foldl (fun m z => if s.isOpen z then SMap.set zeroDflt m z 1 else m) s.fa.autoAge }

/-- FA_UPTIME counts a tick (R12).
DEDUCED, unsafe (notes/assumptions/89). -/
def faTick (s : State) : State :=
  if 31250 ≤ s.fa.uptimeTick + 1 then ({ s with fa.uptimeTick := 0 } : State).bumpWrap F.FA_UPTIME
  else { s with fa.uptimeTick := s.fa.uptimeTick + 1 }

/-! ### Paired inputs (R676, Table 18.6) -/

/-- A sample of pair i agrees: A = B xor ANTI. -/
def pairAgrees (s : State) (i : Nat) (a b : Bool) : Bool := a == (b != s.on F.PAIR_CFG_ANTI i)

/-- This sample completes D: of disagreeing ones outside FALLBACK, or of agreeing ones in FALLBACK. -/
def pairCompletes (s : State) (i : Nat) : Bool :=
  let n := if pairState s i = 0 then 0 else s.get F.PAIR_STAT_COUNT i
  n + 1 == s.get F.PAIR_CFG_D i

def pairDiscDue (s : State) (i : Nat) (a b : Bool) : Bool :=
  !pairAgrees s i a b && pairState s i != 2 && pairCompletes s i
def pairAgreeDue (s : State) (i : Nat) (a b : Bool) : Bool := pairAgrees s i a b && pairState s i == 2 && pairCompletes s i

/-- Paired input i selects veneers (R230), and the one of its agreed state is due at the next frame start. -/
def vselPair (s : State) (i : Nat) : Bool := s.on F.CF_PAIR_VSEL_EN i && s.get F.PAIR_CFG_FUNC i == 3
def vselDue (s : State) (i : Nat) : State := if vselPair s i then s.modCache i fun x => { x with due := true } else s

/-- The agreed state taken; its changes count, and a pair that selects veneers applies the new state's (R230). -/
def pairTake (s : State) (i : Nat) (a : Bool) : State :=
  if s.on F.PAIR_STAT_AGREED i = a then s
  else vselDue ((s.put F.PAIR_STAT_AGREED (b2n a) i).bumpSat F.PAIR_CNT_CHANGES 1 i) i

def pairGo (s : State) (i st count : Nat) : State := (s.put F.PAIR_STAT_STATE st i).put F.PAIR_STAT_COUNT count i

/-- One sample of pair i. -/
def pairSample (s : State) (i : Nat) (a b : Bool) : State :=
  let done := pairCompletes s i
  let n := s.get F.PAIR_STAT_COUNT i
  let s := (s.put F.PAIR_STAT_A (b2n a) i).put F.PAIR_STAT_B (b2n b) i
  match pairState s i, pairAgrees s i a b with
  | 0, true => pairTake s i a
  | 1, true => pairTake (pairGo s i 0 0) i a
  | 2, true => if done then vselDue (pairTake (pairGo s i 0 0) i a) i else pairGo s i 2 (n + 1)
  | 2, false => pairGo s i 2 0
  | _, true => s
  | st, false =>
    if done then raise ((pairGo s i 2 0).bumpSat F.PAIR_CNT_DISC 1 i) 21 i
    else pairGo s i 1 (if st = 0 then 1 else n + 1)

/-- A write of PAIR_CFG[i] acted on: FALLBACK (R25, R695). -/
def pairFlush (s : State) (i : Nat) : State :=
  if s.fa.pairWritten.testBit i then pairGo { s with fa.pairWritten := s.fa.pairWritten - 2 ^ i } i 2 0 else s

/-- Pair i at a frame start, with this sample, unless a row has taken it (notes/assumptions/107). -/
def pairTurn (s : State) (i : Nat) (a b : Bool) : State :=
  if s.fa.pairJudged.testBit i then { s with fa.pairJudged := s.fa.pairJudged - 2 ^ i } else pairSample (pairFlush s i) i a b

/-- The sample of a row is that of the coming frame start. -/
def pairNow (s : State) (i : Nat) (a b : Bool) : State :=
  pairSample { s with fa.pairJudged := s.fa.pairJudged ||| 2 ^ i } i a b

/-- The four pairs at a frame start: PAIR_A in bits 3–0 and PAIR_B in bits 7–4. -/
def pairTick (s : State) (levels : BitVec 8) : State :=
  forN 4 (fun i s => pairTurn s i (levels.toNat.testBit i) (levels.toNat.testBit (4 + i))) s

/-! ### The repair engine (R680) -/

/-- The remap of a row completes: the decode switches, and the entry is logged.
DEDUCED, unsafe (notes/assumptions/88). -/
def rowRemapDone (s : State) : State :=
  match s.fa.remapping with
  | [] => s
  | r :: rest =>
    logPush { s with fa.remapping := rest, fa.remaps := s.fa.remaps ++ [r] } 0x10 r.1 (r.2.2 * 1024 + r.2.1)

/-- Rows of a region. -/
def regionRows (region : Nat) : Nat := if region = 1 then 1024 else 512

/-! ### Register writes -/

/-- What blocks FA and PAIR refuse (R669, R686). -/
def judgeFa (_ : State) (a v : Nat) : Nat :=
  if a < 0x40140000 then
    rangeIf (Nat.ble 0x40130100 a && a % 16 == 0 && bitOf v 2 && (ownerBlock ((a - 0x40130100) / 16)).isNone)
  else rangeIf (a % 16 == 0 && bitsOf v 0 16 == 0)

/-- Every FA_SRC_CNT and FA_LOG_LOST cleared. -/
def faClear (s : State) : State := forN 23 (fun z s => s.put F.FA_SRC_CNT 0 z) (s.put F.FA_LOG_LOST 0)

/-- What a write in blocks FA and PAIR sets off: an acknowledgement, CNT_CLR, a pair's return to FALLBACK at the coming tick (R25,
R695). -/
def hookFa (a v old : Nat) (s : State) : State :=
  if a = 0x40130004 then ackMask (s.put F.FA_OPEN old) v 0
  else if a = 0x40130030 then (if bitOf v 0 then faClear s else s)
  else if 0x40140000 ≤ a ∧ a % 16 = 0 then { s with fa.pairWritten := s.fa.pairWritten ||| 2 ^ ((a - 0x40140000) / 16) }
  else s

/-- A write of a register of blocks FA and PAIR. -/
def writeFa (s : State) (f : Field) (i v : Nat) : State := writeBy judgeFa hookFa s (f.addr i) v

/-! ### Opcodes 0x90–0x94 (R683, R684) -/

/-- FA_ACK. -/
def bodyFaAck (ps : List Byte) (s : State) : Out :=
  let m := leAt ps 0 4
  if 2 ^ 23 ≤ m then refuse s St.badParam
  else
    let s := ackMask s m 0
    .done s St.ok (toLE 4 (s.get F.FA_OPEN))

/-- FA_STATUS. -/
def bodyFaStatus (_ : List Byte) (s : State) : Out :=
  .done s St.ok (toLE 4 (s.get F.FA_OPEN) ++ toLE 4 (s.get F.FA_ESC) ++ toLE 4 (gstatWord s) ++ toLE 4 (s.get F.FA_LOG_SEQ))

/-- FA_ALIVE_RESUME. -/
def bodyFaAliveResume (_ : List Byte) (s : State) : Out :=
  if !s.healthGood then refuse s St.faultActive
  else if s.fa.alive ≠ .stopped ∨ !s.kickSatisfied then refuse s St.wrongState
  else .done (logPush { s with fa.alive := .toggling, fa.aliveLeft := 200000 } 0x09 0 0) St.ok []

/-- The MASK bits of checker j (Table 18.5). -/
def jigBits (j : Nat) : Nat := if j = 7 then 1 else if j ≤ 6 ∨ j = 12 then 8 else 16

/-- JIG_ARM. -/
def bodyJigArm (ps : List Byte) (s : State) : Out :=
  let j := byteAt ps 0
  let n := byteAt ps 1
  let mask := leAt ps 2 2
  let weight := popCount 16 mask
  if 13 < j ∨ (0 < n ∧ (mask = 0 ∨ 2 ^ jigBits j ≤ mask)) ∨ (j ≤ 6 ∧ weight % 2 = 1 ∧ 1 < weight) then refuse s St.badParam
  else if !s.on F.FA_CTRL_JIG_EN then refuse s St.wrongState
  else
    let before := s.get F.FA_JIG_LEFT j
    .done (logPush ((s.put F.FA_JIG_LEFT n j).put F.FA_JIG_MASK mask j) 0x20 j (n * 256 + mask % 256)) St.ok (toLE 1 before)

/-- RP_ROW_REMAP.
DEDUCED, unsafe (notes/assumptions/88). -/
def bodyRpRowRemap (ps : List Byte) (s : State) : Out :=
  let region := byteAt ps 0
  let row := leAt ps 1 2
  if 2 < region then refuse s St.badParam
  else if regionRows region ≤ row then refuse s St.range
  else if s.rowTaken region row || s.spareRows region == 0 then refuse s St.wrongState
  else .done (startRemap s region row) St.ok (toLE 1 (spareTotal region - s.spareRows region))

/-! ### The commands -/

/-- The condition of a level source is present: what the unit must find again after a reset (R666). -/
def conditionBegins (s : State) (z info : Nat) : State :=
  match z with
  | 16 => { s with chip.hot := some info }
  | 17 => { s with chip.railDip := s.chip.railDip ||| (if info < 7 then 2 ^ info else 0) }
  | 22 => { s with chip.unlock := true }
  | _ => s

/-- The address of word `w` of a row of a region (R679); none for the deskew memory, which has none.
DESIGN CHOICE, unsafe (notes/assumptions/110). -/
def rowWord (region row w : Nat) : Option Nat :=
  match region with
  | 0 => some (0x10000000 + 1024 * row + 8 * w)
  | 1 => some (0x20000000 + 1024 * row + 8 * w)
  | _ =>
    if row < 256 then some (0x30000000 + 1024 * row + 8 * w)
    else if row < 288 then some (0x38000000 + 1024 * (row - 256) + 8 * w)
    else if row < 352 then some (0x3C000000 + 1024 * (row - 288) + 8 * w)
    else none

/-- A genuine error found at word `w` of a row by source z: it stands in the memory until the word is rewritten, and the
repair engine notes the row (R679, R680).
DESIGN CHOICE, unsafe (notes/assumptions/110). -/
def wordFound (s : State) (z row w : Nat) : State :=
  let s := match rowWord (z / 2) row w with
    | some a => { s with fa.badWords := SMap.set (fun _ => 0) s.fa.badWords a (z % 2 + 1) }
    | none => s
  rowError s (z / 2) row (z % 2 == 1)

/-- FAULT_RAISE (R671): source z raises with its info; of a memory error, `loc` is the row and the word in it, and the store
page of a STORE_UE is no longer good (Table 18.2). A level source raises when its condition begins (R666).
DESIGN CHOICE, unsafe (notes/assumptions/109). -/
def execFaultRaise (z : Fin 23) (info : Word) (loc : Option (Nat × Nat)) (injected : Bool) (s : State) :
    Host.Outcome State Fault Refusal :=
  let level := z.val = 15 ∨ z.val = 16 ∨ z.val = 17 ∨ z.val = 22
  if level then
    let s := conditionBegins s z info.toNat
    act s (raiseLevel s z info.toNat)
  else act s (
    let s := raise s z info.toNat injected
    let s := if z.val = 7 && !injected then pageFoundBad s info.toNat else s
    match loc, injected with
    | some l, false => if z.val ≤ 5 then wordFound s z l.1 l.2 else s
    | _, _ => s)

/-- ROW_REMAP (R680). -/
def execRowRemap (s : State) : Host.Outcome State Fault Refusal := act s (rowRemapDone s)

/-- FAULT_ACK_WRITE (R672). -/
def execFaultAckWrite (mask : Word) (s : State) : Host.Outcome State Fault Refusal :=
  act s (writeFa s F.FA_OPEN 0 mask.toNat)

/-- AUTO_ACK (R672): at the end of the tick in progress. -/
def execAutoAck (z : Fin 23) (s : State) : Host.Outcome State Fault Refusal :=
  act s (if autoAckDue s z then ackOne s z 1 else s)

/-- KICK (R674). -/
def execKick (value : Word) (s : State) : Host.Outcome State Fault Refusal :=
  act s (kick (s.put F.FA_KICK value.toNat))

/-- FA_CNT_CLR (R685). -/
def execFaCntClr (s : State) : Host.Outcome State Fault Refusal := act s (writeFa s F.FA_CMD 0 1)

/-- PAIR_DISC (R676): the sample that completes D disagreeing ones. -/
def execPairDisc (i : Fin 4) (a b : Bool) (s : State) : Host.Outcome State Fault Refusal :=
  let t := pairFlush s i
  act s (if pairDiscDue t i a b && !t.fa.pairJudged.testBit i then pairNow t i a b else s)

/-- PAIR_AGREE (R676): the sample that completes D agreeing ones in FALLBACK. -/
def execPairAgree (i : Fin 4) (a b : Bool) (s : State) : Host.Outcome State Fault Refusal :=
  let t := pairFlush s i
  act s (if pairAgreeDue t i a b && !t.fa.pairJudged.testBit i then pairNow t i a b else s)

/-- PAIR_CFG_WRITE (R695). -/
def execPairCfgWrite (i : Fin 4) (value : Word) (s : State) : Host.Outcome State Fault Refusal :=
  act s (writeFa s F.PAIR_CFG i value.toNat)

end Sys2Proof.Machine
end

