-- ==== Sys2Proof/Machine/View.lean ====
section
/-!
DEFINITION. Machine/View.lean: what an address reads as (Table 5.1, R174–R181): the registers whose value is not stored
but shown, the memories, and the checks that a read makes.
-/
namespace Sys2Proof.Machine

/-! ### Stages (Tables 6.7, 6.8) -/

def stageCode (s : State) (j : Nat) : Nat :=
  match (s.stageX j).st with
  | .empty => 0
  | .staged => 1
  | .armed => 2
  | .applied => 3
  | .refused => 4
  | .missed => 5

/-- CF_STAGE_TS, TF, INFO and COUNT of stage j. -/
def stageWord (s : State) (j i : Nat) : Nat :=
  let x := s.stageX j
  match i with
  | 0 => x.ts
  | 1 => x.tf
  | 2 => x.result.toNat * 2 ^ 24 + x.armTag.toNat * 2 ^ 16 + x.origin.toNat * 2 ^ 8
  | _ => x.count

/-! ### Registers -/

/-- Registers of block CF as they read. -/
def cfView (s : State) (o : Nat) : Option Nat :=
  if o = 0 then some (cfStatusWord s)
  else if o = 0x04 then some (copyGen s false)
  else if o = 0x08 then some (copyGen s true)
  else if o = 0x0C then some (copyLen s true * 2 ^ 16 + copyLen s false)
  else if o = 0x10 then some (copyCrc s false)
  else if o = 0x14 then some (copyCrc s true)
  else if o = 0x28 then some ((List.range 4).foldl (fun n j => n + stageCode s j * 2 ^ (8 * j)) 0)
  else if 0x40 ≤ o ∧ o < 0x80 then some (stageWord s ((o - 0x40) / 16) (o % 16 / 4))
  else if o = 0x90 then some (vslotWord s)
  else if 0x400 ≤ o then some (wearWord s ((o - 0x400) / 4))
  else none

/-- Registers of the blocks QM, DM, PS and TG as they read. -/
def pathView (s : State) (a : Nat) : Option Nat :=
  if a = 0x40070000 then some (qmFree s * 2 ^ 16 + s.get F.QM_STATUS_REBUILDING * 2 ^ 15 + qmShared s)
  else if a = 0x40070010 then some (qmResSum s)
  else if 0x40098000 ≤ a ∧ a < 0x400A0000 then some (historyWord s a)
  else if a = 0x400A0000 then some (mergeUse s)
  else if a = 0x400A0004 then some (eventSum s F.PS_GEVENT F.PS_GIRQ_EN)
  else if 0x400B0100 ≤ a ∧ a < 0x400B0200 ∧ a % 0x80 = 0x28 then
    some (ofSigned 64 (hoFreqView s ((a - 0x400B0100) / 0x80)) % 2 ^ 32)
  else if 0x400B0100 ≤ a ∧ a < 0x400B0200 ∧ a % 0x80 = 0x2C then
    some (ofSigned 64 (hoFreqView s ((a - 0x400B0100) / 0x80)) / 2 ^ 32)
  else none

/-- Registers of the blocks TD to PAIR as they read. -/
def timeView (s : State) (a : Nat) : Option Nat :=
  if a = 0x400C0014 then some (s.tod.sec % 2 ^ 32)
  else if a = 0x400C0018 then some (s.tod.sec / 2 ^ 32 % 2 ^ 16)
  else if a = 0x400C001C then some s.todNanos
  else if a = 0x400C0020 then some (s.tod.sub % 2 ^ 16)
  else if 0x400E0000 ≤ a ∧ a < 0x400E0800 ∧ (a % 0x100 = 0x10 ∨ a % 0x100 = 0x14) then
    let k := (a - 0x400E0000) / 0x100
    let v := if tmSrc s k = 1 then todNs64 s else tmHeld s k
    some (if a % 0x100 = 0x10 then v % 2 ^ 32 else v / 2 ^ 32)
  else if a = 0x400F0008 then some (eventSum s F.FE_EVENT F.FE_IRQ_EN)
  else if 0x40120100 ≤ a ∧ a < 0x4012010C then some (icActiveWord s ((a - 0x40120100) / 4))
  else if 0x40120110 ≤ a ∧ a < 0x4012011C then some (icPendWord s ((a - 0x40120110) / 4))
  else if 0x40120130 ≤ a ∧ a < 0x4012013C then some (icHostWord s ((a - 0x40120130) / 4))
  else if a = 0x4013000C then some (gstatWord s)
  else none

/-- The registers that show what stands elsewhere. -/
def shownView (s : State) (a : Nat) : Option Nat :=
  if 0x70000000 ≤ a then
    (if 0x70000004 ≤ a ∧ a < 0x70000010 then some (s.otp.uid.toNat / 2 ^ (8 * (a - 0x70000004)) % 2 ^ 32) else none)
  else if a < 0x40020000 then none
  else if a < 0x40030000 then cfView s (a - 0x40020000)
  else if 0x40061000 ≤ a ∧ a < 0x40061400 ∧ a % 16 = 4 then
    some (insertBits (s.reg a).toNat 16 8 (recipeLatency s ((a - 0x40061004) / 16)))
  else if a < 0x40070000 then none
  else if a < 0x400C0000 then pathView s a
  else timeView s a

/-- What the register at `a` reads as. -/
def regView (s : State) (a : Nat) : Nat :=
  match shownView s a with
  | some v => v
  | none => (s.reg a).toNat

/-! ### Memories (R174, R175) -/

/-- What lies at an address of Table 5.1 that is no register. -/
inductive MemAt where
  | rom (off : Nat)
  | sram (off : Nat)
  | pool (off : Nat)
  | store (off : Nat)
  deriving DecidableEq, Repr

def memAt (s : State) (a : Nat) : Option MemAt :=
  let rom (off : Nat) : Option MemAt := if off < 0x10000 then some (.rom off) else none
  let ram (off : Nat) : Option MemAt := if off < 0x80000 then some (.sram off) else none
  let remap := s.on F.BM_CTRL_REMAP
  if a < 0x10000000 then (if remap then ram a else rom a)
  else if a < 0x20000000 then (if remap then rom (a - 0x10000000) else ram (a - 0x10000000))
  else if a < 0x20100000 then some (.pool (a - 0x20000000))
  else if 0x60000000 ≤ a ∧ a < 0x60020000 then some (.store (a - 0x60000000))
  else none

/-- Whether an address is defined (R176). -/
def addrDefined (s : State) (a : Nat) : Bool := (memAt s a).isSome || (specAt a).isSome

/-- The word of a memory.
DESIGN CHOICE, safe (notes/assumptions/85). -/
def memWord (s : State) (m : MemAt) : Nat :=
  match m with
  | .rom off => (Config.bootRom off).toNat
  | .sram off => ofLE ((List.range 4).map fun i => SMap.get byteDflt s.bm.sram (off + i))
  | .pool off => ofLE (poolBytes s off 4)
  | .store off => ofLE (storeBytes s off 4)

/-- The value an address reads as, without what reading it does. -/
def peek (s : State) (a : Nat) : Nat :=
  match memAt s a with
  | some m => memWord s m
  | none => if (specAt a).isSome then regView s a else 0

/-- The check that reading the word at `a` makes (Table 18.5), and whether it is uncorrectable.
DEDUCED, unsafe (notes/assumptions/31). DEDUCED, unsafe (notes/assumptions/57). -/
def readCheck (s : State) (a : Nat) : State × Bool :=
  match memAt s a with
  | some (.store off) => if off < 240 * pageBytes then storeCheck s (off / pageBytes) else (s, false)
  | _ =>
    let r := eccCheck s a
    (r.1, r.2 == 2)

/-- The value of a word that a command reads, and its status (R170, R176, R194).
DEDUCED, unsafe (notes/assumptions/31). -/
def wordRead (s : State) (a : Nat) : Nat × Nat := if addrDefined s a then (peek s a, St.ok) else (0, St.notPresent)

/-- The state after a command has read the words at `as`.
DEDUCED, unsafe (notes/assumptions/31). -/
def afterReads (as : List Nat) (s : State) : State := forList as (fun a s => if addrDefined s a then (readCheck s a).1 else s) s

end Sys2Proof.Machine
end

