-- ==== Sys2Proof/Machine/CfReg.lean ====
section
/-!
DEFINITION. Machine/CfReg.lean: what writes of the CF and MP registers are refused for and set off: veneers selected by
paired inputs (R230), BOOT_SKIP (R222), the MP counters and the record of the last error (R157).
-/
namespace Sys2Proof.Machine

/-! ### CF_PAIR_VSEL (R230) -/

/-- The stored veneers that a word of CF_PAIR_VSEL names. -/
def vselSlots (v : Nat) : List Nat := [bitsOf v 0 4, bitsOf v 4 4]

/-- A write of EN = 1 to CF_PAIR_VSEL copies two stored veneers: their pages are read with their checks. -/
def vselProbe (s : State) (a v : Nat) : State :=
  if 0x40020080 ≤ a ∧ a < 0x40020090 ∧ bitOf v 31 ∧ !s.locked 2 then
    forList (vselSlots v) (fun n s => match validSlot s n with
      | some x => (storeRead s (pageBytes * slotPage n) x.len).1
      | none => s) s
  else s

/-- What block CF refuses. -/
def judgeCf (s : State) (a v : Nat) : Nat :=
  rangeIf (Nat.ble 0x40020080 a && Nat.blt a 0x40020090 && bitOf v 31 && (vselSlots v).any fun n => (validSlot s n).isNone)

/-- The entries of a stored veneer as its pages hold them. -/
def slotBytes (s : State) (n : Nat) : List Byte :=
  match validSlot s n with
  | some x => storeBytes s (pageBytes * slotPage n) x.len
  | none => []

/-- CF_PAIR_VSEL[i] written: with EN = 1 both veneers are cached, and outside FALLBACK the one of the agreed state is due.
DEDUCED, unsafe (notes/assumptions/41). -/
def hookVsel (i v : Nat) (s : State) : State :=
  s.modCache i fun _ =>
    if bitOf v 31 then
      { zero := slotBytes s (bitsOf v 0 4), one := slotBytes s (bitsOf v 4 4), due := s.get F.PAIR_CFG_FUNC i == 3 && pairState s i != 2 }
    else {}

/-- What a write in block CF sets off. -/
def hookCf (a v _old : Nat) (s : State) : State :=
  if a = 0x4002002C then
    -- R222: before the boot load begins, in a boot with boot mode 1
    (if bitOf v 0 && !s.cf.bootDone && s.dir.bootMode then { s with cf.bootSkip := true } else s)
  else if 0x40020080 ≤ a ∧ a < 0x40020090 then hookVsel ((a - 0x40020080) / 4) v s
  else s

/-! ### Block MP (R157, R158) -/

/-- What block MP refuses. -/
def judgeMp (_ : State) (a v : Nat) : Nat := rangeIf (a == 0x40000004 && Nat.blt (bitsOf v 0 16) 256)

/-- What a write in block MP sets off. -/
def hookMp (a v _old : Nat) (s : State) : State :=
  if a = 0x4000000C then (if bitOf v 31 then s.put F.MP_LAST_ERR 0 else s)
  else if a = 0x40000020 then
    let s := if bitOf v 0 then s.put F.MP_BAD_CRC 0 else s
    let s := if bitOf v 1 then s.put F.MP_BCAST_DROP 0 else s
    if bitOf v 2 then s.put F.MP_LOCK_VIOL 0 else s
  else s

/-- A write of a register of block MP. -/
def writeMp (s : State) (f : Field) (v : Nat) : State := writeBy judgeMp hookMp s f.addr v

/-- CLEAR_MP_BAD_CRC (R157): MP_CNT_CLR bit 0. -/
def execClearMpBadCrc (s : State) : Host.Outcome State Fault Refusal := act s (writeMp s F.MP_CNT_CLR 1)

/-- CLEAR_MP_BCAST_DROP (R157): MP_CNT_CLR bit 1. -/
def execClearMpBcastDrop (s : State) : Host.Outcome State Fault Refusal := act s (writeMp s F.MP_CNT_CLR 2)

/-- CLEAR_MP_LOCK_VIOL (R157): MP_CNT_CLR bit 2. -/
def execClearMpLockViol (s : State) : Host.Outcome State Fault Refusal := act s (writeMp s F.MP_CNT_CLR 4)

/-- LAST_ERR_CLEAR (R157): MP_LAST_ERR.VALID written 1. -/
def execLastErrClear (s : State) : Host.Outcome State Fault Refusal := act s (writeMp s F.MP_LAST_ERR (2 ^ 31))

/-- BOOT_SKIP (R222). -/
def execBootSkip (s : State) : Host.Outcome State Fault Refusal :=
  act s (writeBy judgeCf hookCf s F.CF_BOOT_CTRL.addr 1)

/-- VSEL_ENABLE (R230): CF_PAIR_VSEL[i] written with EN = 1. -/
def execVselEnable (i : Fin 4) (vOne vZero : Fin 16) (s : State) : Host.Outcome State Fault Refusal :=
  let a := F.CF_PAIR_VSEL.addr i
  let v := 2 ^ 31 + vOne.val * 16 + vZero.val
  act s (writeBy judgeCf hookCf (vselProbe s a v) a v)

end Sys2Proof.Machine
end

