-- ==== Sys2Proof/Machine/Write.lean ====
section
/-!
DEFINITION. Machine/Write.lean: writes on behalf of commands (R173, R182, R184–R188, R194, R198, R220): what a word is
refused for, the words of one command stored together, and the register-access opcodes 0x10–0x16.
-/
namespace Sys2Proof.Machine

/-! ### The bus matrix's registers (R651) -/

/-- Whether master m has a path to target T (Table 17.4). -/
def busPath (m t : Nat) : Bool :=
  if m < 5 then t != 2 && Nat.ble t 6
  else if m = 5 then Nat.ble t 6
  else if m = 6 then t == 1 || t == 2
  else m == 7 && Nat.ble 1 t && Nat.ble t 5

/-- What block BM refuses. -/
def judgeBm (_ : State) (a v : Nat) : Nat :=
  rangeIf (a == 0x40110030 && (List.range 7).any fun t => !busPath (bitsOf v (4 * t) 4) t)

/-- What block BC refuses (R624). -/
def judgeBc (_ : State) (a v : Nat) : Nat :=
  rangeIf (a == 0x40100000 && (bitsOf v 16 14 < 100 || Nat.blt 10000 (bitsOf v 16 14)))

/-! ### All blocks -/

/-- A write of block XC by which more slots would be merged than the deskew buffer holds (R476). -/
def judgeMerge (s : State) (a v : Nat) : Nat :=
  let st := judgeXc s a v
  if st = St.ok then rangeIf (Nat.blt 160 (mergeUse (psLive (s.setReg a (BitVec.ofNat 32 v))))) else st

/-- What a value is refused for by the block that owns the register at `a` (R182). -/
def judgeAll (s : State) (a v : Nat) : Nat :=
  if a < 0x38000000 then (if bitOf a 13 then judgeMerge s a v else judgeXc s a v)
  else if a < 0x40000000 then judgeGr s a v
  else if 0x40150000 ≤ a then St.ok
  else
    match blockOf a with
    | 0 => judgeMp s a v
    | 2 => judgeCf s a v
    | 3 => judgeLp s a v
    | 4 => judgeLf s a v
    | 5 => if 0x40051000 ≤ a ∧ a % 16 = 0 then judgeMerge s a v else judgeXc s a v
    | 6 => judgeGr s a v
    | 7 => judgeQm s a v
    | 8 => judgeCl s a v
    | 9 => judgeDm s a v
    | 10 => judgePs s a v
    | 11 => judgeTg s a v
    | 12 => judgeTd s a v
    | 13 => judgeKf s a v
    | 14 => judgeTm s a v
    | 15 => judgeFe s a v
    | 16 => judgeBc s a v
    | 17 => judgeBm s a v
    | 19 | 20 => judgeFa s a v
    | _ => St.ok

/-- What a write of the register at `a` sets off. -/
def hookAll (a v old : Nat) (s : State) : State :=
  if a < 0x38000000 then hookXc a v old s
  else if a < 0x40000000 then hookGr a v old s
  else if 0x40150000 ≤ a then s
  else
    match blockOf a with
    | 0 => hookMp a v old s
    | 2 => hookCf a v old s
    | 3 => hookLp a v old s
    | 4 => hookLf a v old s
    | 5 => hookXc a v old s
    | 6 => hookGr a v old s
    | 7 => hookQm a v old s
    | 8 => hookCl a v old s
    | 9 => hookDm a v old s
    | 10 => hookPs a v old s
    | 11 => hookTg a v old s
    | 12 => hookTd a v old s
    | 13 => hookKf a v old s
    | 14 => hookTm a v old s
    | 15 => hookFe a v old s
    | 18 => hookIc a v old s
    | 19 | 20 => hookFa a v old s
    | _ => s

/-! ### The words of one command (R173, R193, R194, R198) -/

/-- The state against which a word is judged: FE_CFG[f] and FE_EXC[f] are one group, so each is judged with the other as
the command writes it (R173). -/
def judgeState (s : State) (ws : List (Nat × Nat)) (a : Nat) : State :=
  if 0x400F0100 ≤ a ∧ a < 0x400F0900 ∧ a % 0x100 < 8 then
    let other := if a % 8 = 0 then a + 4 else a - 4
    match ws.reverse.find? (fun w => w.1 == other) with
    | some w => s.setReg other (BitVec.ofNat 32 w.2)
    | none => s
  else s

/-- Why a word of a command is refused (R194); a word of a read-only memory changes nothing and is not (R19). -/
def wordReason (s : State) (ws : List (Nat × Nat)) (a v : Nat) : Nat :=
  if (memAt s a).isSome then St.ok else plainReason s a (judgeAll (judgeState s ws a) a v)

/-- The registers that share a limit with others: QM_Q_LIM (R399), PS_GCFG, PS_TRIB and XC_TRIB_CFG (R469, R476). -/
def sharesLimit (a : Nat) : Bool :=
  (Nat.ble 0x40071000 a && Nat.blt a 0x40072000 && a % 0x40 == 4) || (Nat.ble 0x400A0100 a && Nat.blt a 0x400A0300 && a % 0x40 == 0) ||
    Nat.ble 0x400A1000 a && Nat.blt a 0x400B0000 || (Nat.ble 0x40051000 a && Nat.blt a 0x40060000 && a % 16 == 0)

/-- The state against which a word of a register that shares a limit is judged: the words before it in the command that are
not refused count, since they take effect with it.
DEDUCED, unsafe (notes/assumptions/29). -/
def jointState (s : State) (good : List (Nat × Nat)) (a : Nat) : State :=
  if sharesLimit a then
    forList (good.filter fun w => sharesLimit w.1 && w.1 != a) (fun w s => storeWord s w.1 w.2) s
  else s

/-- The words of a command, each with the reason for which it is refused, judged in command order (R193, R194). -/
def judgeWords (s : State) (ws : List (Nat × Nat)) : List (Nat × Nat) → List (Nat × Nat) → List ((Nat × Nat) × Nat)
  | _, [] => []
  | good, w :: rest =>
    let st := wordReason (jointState s good w.1) ws w.1 w.2
    (w, st) :: judgeWords s ws (if st = St.ok then good ++ [w] else good) rest

/-- One write of a register that several pairs of a command name: RW bits as the last leaves them, W1C bits of all of them
(R198). Triggers act for each pair.
DEDUCED, unsafe (notes/assumptions/29). -/
def foldPairs : Nat → List (Nat × Nat) → List (Nat × Nat)
  | n + 1, (a, v) :: ws =>
    match specAt a with
    | none => foldPairs n ws
    | some r =>
      if r.wo = 0 ∧ ws.any (fun w => w.1 == a) then
        foldPairs n (if r.w1c = 0 then ws else ws.map fun w => if w.1 = a then (a, w.2 ||| (v &&& r.w1c)) else w)
      else (a, v) :: foldPairs n ws
  | _, _ => []

/-- Words stored together, then what they set off, each with the word as it stood (R173): an acknowledgement first, so that what
the others raise stays raised (R179, R203). -/
def storeWords (s : State) (ws : List (Nat × Nat)) : State :=
  let held := (foldPairs ws.length ws).map fun w => (w.1, w.2, (s.reg w.1).toNat)
  let acks (w : Nat × Nat × Nat) : Bool := w.1 == F.FA_OPEN.base
  runHooks hookAll (held.filter acks ++ held.filter fun w => !acks w) (forList ws (fun w s => storeWord s w.1 w.2) s)

/-- The words of a register-access command: each is judged at the end of S, and those not refused take effect together
(R182, R186, R193). Answers the state and the words refused, with their reasons. -/
def writeWords (s : State) (ws : List (Nat × Nat)) : State × List (Nat × Nat) :=
  let s := forList ws (fun w s => vselProbe s w.1 w.2) s
  let judged := judgeWords s ws [] ws
  let bad := (judged.filter fun j => j.2 != St.ok).map fun j => (j.1.1, j.2)
  let good := (judged.filter fun j => j.2 == St.ok).map fun j => j.1
  (storeWords (forList bad (fun b s => countLock s b.2) s) good, bad)

/-- The word that each register is left with by some words in order: the last for it. -/
def lastWords : List (Nat × Nat) → List (Nat × Nat)
  | [] => []
  | w :: ws => if ws.any (fun x => x.1 == w.1) then lastWords ws else w :: lastWords ws

/-- Words applied whole or not at all, as a carcass load or a veneer applies them: a lock refuses all of them, then each is
judged as they leave it, with every other field as they leave it (R220, R225). Answers the state and the status.
DEDUCED, unsafe (notes/assumptions/29). -/
def applyWords (s : State) (words : List (Nat × Nat)) : State × Nat :=
  let ws := lastWords words
  let locks (w : Nat × Nat) : Bool :=
    match specAt w.1 with
    | some r => r.lock && s.locked (lockBlock w.1)
    | none => false
  if ws.any locks then (countLock s St.locked, St.locked)
  else
    writesFirst (fun s =>
      let s := forList ws (fun w s => vselProbe s w.1 w.2) s
      let after := forList ws (fun w s => storeWord s w.1 w.2) s
      match ws.find? (fun w => judgeAll (after.setReg w.1 (s.reg w.1)) w.1 w.2 != St.ok) with
      | some w => (s, judgeAll (after.setReg w.1 (s.reg w.1)) w.1 w.2)
      | none => (storeWords s ws, St.ok)) s

/-! ### Values a field refuses on its own (R218, R224) -/

/-- FE_CFG or FE_EXC judged by its own fields (R595).
DEDUCED, unsafe (notes/assumptions/34). -/
def feOwnBad (a v : Nat) : Bool :=
  if a % 0x100 = 0 then
    let mode := bitsOf v 28 3
    let period := bitsOf v 8 8
    mode == 7 || period < 4 || Nat.blt 250 period || Nat.ble period (bitsOf v 0 8) || Nat.blt 8 (bitsOf v 17 4) ||
      !curveAdmitted mode (bitsOf v 21 5)
  else
    bitsOf v 16 7 == 0 || Nat.blt 64 (bitsOf v 16 7) || Nat.blt 64 (bitsOf v 24 6 + bitsOf v 16 7)

/-- What a value is refused for on its own, whatever the state.
DEDUCED, unsafe (notes/assumptions/34). -/
def judgeOwn (a v : Nat) : Nat :=
  if a / 0x10000 = 0x4002 then St.ok
  else if a / 0x1000 = 0x40030 ∧ a % 0x100 = 0x0C then rangeIf (Nat.blt 4 (bitsOf v 0 3) || Nat.blt 4 (bitsOf v 4 3))
  else if 0x400F0100 ≤ a ∧ a < 0x400F0900 ∧ a % 0x100 < 8 then rangeIf (feOwnBad a v)
  else if 0x400B0000 ≤ a ∧ a < 0x400B0200 ∧ a % 0x80 = 0x48 then St.ok
  else if 0x40071000 ≤ a ∧ a < 0x40072000 ∧ a % 0x40 = 4 then
    rangeIf (Nat.blt (bitsOf v 16 15) 144 || Nat.blt (bitsOf v 16 15) (bitsOf v 0 15) || Nat.blt 16384 (bitsOf v 0 15))
  else judgeAll State.reset a v

/-! ### Opcodes 0x10–0x16 (R195–R202) -/

/-- Whether a range of words breaks R177. -/
def rangeBroken (a n : Nat) : Bool := a % 4 != 0 || Nat.blt 0x100000000 (a + 4 * n)

/-- The tail that reports refused words (R196). -/
def refusalTail (bad : List (Nat × Nat)) : List Byte :=
  match bad with
  | [] => []
  | b :: _ => toLE 4 b.1 ++ toLE 2 bad.length

/-- The reply of a register-access command: its data, and what the refused words add (R196). -/
def accessReply (s : State) (data : List Byte) (bad : List (Nat × Nat)) : Out :=
  match bad with
  | [] => .done s St.ok data
  | b :: _ => .done s b.2 (data ++ refusalTail bad)

/-- The words `as` read in one snapshot. -/
def readReply (s : State) (as : List Nat) : Out :=
  let got := as.map fun a => (a, wordRead s a)
  accessReply (afterReads as s) (got.flatMap fun g => toLE 4 g.2.1)
    ((got.filter fun g => g.2.2 != St.ok).map fun g => (g.1, g.2.2))

/-- `k` words from `a` on, and pairs of address and value. -/
def wordRun (a k : Nat) : List Nat := (List.range k).map fun i => a + 4 * i
def writePairs : List Word → List (Nat × Nat)
  | a :: v :: ws => (a.toNat, v.toNat) :: writePairs ws
  | _ => []

/-- READ. -/
def bodyRead (ps : List Byte) (s : State) : Out :=
  let a := leAt ps 0 4
  if rangeBroken a 1 then refuse s St.badParam else readReply s [a]

/-- WRITE.
DEDUCED, unsafe (notes/assumptions/29). -/
def bodyWrite (ps : List Byte) (s : State) : Out :=
  let ws := writePairs (wordsLE ps)
  if ws.any fun w => rangeBroken w.1 1 then refuse s St.badParam
  else
    let r := writesFirst (fun s => writeWords s ws) s
    accessReply r.1 [] r.2

/-- READ_BLOCK. -/
def bodyReadBlock (ps : List Byte) (s : State) : Out :=
  let a := leAt ps 0 4
  let n := leAt ps 4 2
  if rangeBroken a n || n == 0 || Nat.blt 1022 n then refuse s St.badParam else readReply s (wordRun a n)

/-- WRITE_BLOCK. -/
def bodyWriteBlock (ps : List Byte) (s : State) : Out :=
  let a := leAt ps 0 4
  let vs := wordsLE (ps.drop 4)
  if rangeBroken a vs.length then refuse s St.badParam
  else
    let r := writesFirst (fun s => writeWords s ((wordRun a vs.length).zip (vs.map fun v => v.toNat))) s
    accessReply r.1 [] r.2

/-- MODIFY (R199): W1C and WO bits count as 0 in the old value that is written back.
DEDUCED, safe (notes/assumptions/30). -/
def bodyModify (ps : List Byte) (s : State) : Out :=
  let a := leAt ps 0 4
  let mask := leAt ps 4 4
  if rangeBroken a 1 then refuse s St.badParam
  else
    let old := (wordRead s a).1
    let kept := match specAt a with
      | some r => (s.reg a).toNat &&& (0xFFFFFFFF ^^^ (r.w1c ||| r.wo))
      | none => 0
    let r := writesFirst (fun s => writeWords (afterReads [a] s) [(a, (kept &&& (0xFFFFFFFF ^^^ mask)) ||| (leAt ps 8 4 &&& mask))]) s
    accessReply r.1 (toLE 4 old) r.2

/-- SNAPSHOT. -/
def bodySnapshot (ps : List Byte) (s : State) : Out :=
  let as := (wordsLE ps).map fun a => a.toNat
  if as.any fun a => rangeBroken a 1 then refuse s St.badParam else readReply s as

/-- LOCK (R185, R200). -/
def bodyLock (ps : List Byte) (s : State) : Out :=
  let m := leAt ps 0 4
  if 2 ^ 21 ≤ m then refuse s St.badParam
  else
    let s : State := { s with locks := s.locks ||| m }
    .done s St.ok (toLE 4 s.locks)

/-- REGISTER_WRITE (R182): one word written on behalf of a command. -/
def execRegisterWrite (addr value : Word) (s : State) : Host.Outcome State Fault Refusal :=
  act s (if addr.toNat % 4 != 0 then s else (writesFirst (fun s => writeWords s [(addr.toNat, value.toNat)]) s).1)

end Sys2Proof.Machine
end

