-- ==== Sys2Proof/Machine/Cf.lean ====
section
/-!
DEFINITION. Machine/Cf.lean: the carcass and veneers (chapter 6): images, the boot load, stages, timed and pair-selected
veneers, and the opcodes 0x20–0x2D.
-/
namespace Sys2Proof.Machine

/-! ### Carcass content (R216, R334, R727) -/

/-- What decides which map buffers a carcass holds: the words of XC_TX_SEL and XC_RX_SEL.
DEDUCED, unsafe (notes/assumptions/33). -/
def mapHeld (sel : Nat → Nat) (a : Nat) : Bool :=
  let p := (a - 0x30000000) / 0x4000
  let hi := a / 0x1000 % 2 == 1
  if a / 0x2000 % 2 = 0 then bitOf (sel (F.XC_TX_SEL_ACTIVE.addr p)) 16 == hi
  else bitOf (sel (F.XC_RX_SEL_ARM_A.addr p)) (if hi then 17 else 16)

/-- Whether the word at `a` holds a field of the carcass content (Table 6.2).
DEDUCED, unsafe (notes/assumptions/33). -/
def inCarcass (sel : Nat → Nat) (a : Nat) : Bool :=
  match specAt a with
  | none => false
  | some r =>
    r.rw != 0 && Nat.blt a 0x70000000 &&
      (if a < 0x38000000 then mapHeld sel a
       else if a / 0x10000 = 0x4002 then a == 0x40020024 || (Nat.ble 0x40020080 a && Nat.blt a 0x40020090)
       else a / 0x10000 != 0x4001)

/-- The addresses of a register family. -/
def dimAddrs : List (Nat × Nat) → List Nat → List Nat
  | [], as => as
  | (st, n) :: ds, as => dimAddrs ds (as.flatMap fun a => (List.range n).map fun i => a + st * i)

/-- Every register family that a carcass may hold a word of. -/
def carcassSpecs : List RegSpec :=
  ((List.range 21).flatMap fun b => regionSpecs (0x40000000 + 0x10000 * b)) ++ regsXCMAP ++ regsGRMEM

/-- The words a capture includes, with the fields the carcass holds, in increasing address order. -/
def captureWords (s : State) : List (Nat × Nat) :=
  let as := (carcassSpecs.filter fun r => r.rw != 0).flatMap fun r => (dimAddrs r.dims [r.base]).map fun a => (a, r.rw)
  let held := as.filter fun x => inCarcass (fun a => (s.reg a).toNat) x.1
  (held.mergeSort fun x y => Nat.ble x.1 y.1).map fun x => (x.1, (s.reg x.1).toNat &&& x.2)

/-! ### Images (R217, R218, R727) -/

/-- A record: its type, its first address, how many words, and its values. -/
structure ImageRec where
  ty : Nat
  addr : Nat
  n : Nat
  vals : List Nat
  deriving DecidableEq, Repr

/-- Maximal runs of consecutive words of one value: address, value and length; the last run first. -/
def valueRuns : List (Nat × Nat) → List (Nat × Nat × Nat) → List (Nat × Nat × Nat)
  | [], acc => acc
  | (a, v) :: ws, (b, w, n) :: acc =>
    if a = b + 4 * n ∧ v = w then valueRuns ws ((b, w, n + 1) :: acc) else valueRuns ws ((a, v, 1) :: (b, w, n) :: acc)
  | (a, v) :: ws, [] => valueRuns ws [(a, v, 1)]

/-- A FILL run in records of at most 4,096 words. -/
def fillRecs : Nat → Nat → Nat → Nat → List ImageRec
  | 0, _, _, _ => []
  | k + 1, a, v, n =>
    if n = 0 then []
    else { ty := 2, addr := a, n := min n 4096, vals := [v] } :: fillRecs k (a + 16384) v (n - 4096)

/-- A WORDS run in records of at most 4,096 words. -/
def wordRecs : Nat → Nat → List Nat → List ImageRec
  | 0, _, _ => []
  | k + 1, a, vs =>
    if vs.isEmpty then []
    else { ty := 1, addr := a, n := (vs.take 4096).length, vals := vs.take 4096 } :: wordRecs k (a + 16384) (vs.drop 4096)

/-- The records of a list of value runs; `open_` is the WORDS run that is being gathered. -/
def runRecs : List (Nat × Nat × Nat) → Nat → List Nat → List ImageRec
  | [], a, vs => wordRecs 16 a vs
  | (b, v, n) :: rs, a, vs =>
    if 4 ≤ n then wordRecs 16 a vs ++ fillRecs 16 b v n ++ runRecs rs 0 []
    else if b = a + 4 * vs.length ∧ !vs.isEmpty then runRecs rs a (vs ++ List.replicate n v)
    else wordRecs 16 a vs ++ runRecs rs b (List.replicate n v)

def recBytes (r : ImageRec) : List Byte :=
  toLE 1 r.ty ++ toLE 1 0 ++ toLE 2 r.n ++ toLE 4 r.addr ++ r.vals.flatMap (toLE 4)

/-- The image of the live configuration (R727). -/
def captureImage (s : State) (lockMask : Nat) : List Byte :=
  let body := (runRecs (valueRuns (captureWords s) []).reverse 0 []).flatMap recBytes ++ List.replicate 8 0
  let head := toLE 4 0x41435A4C ++ toLE 2 1 ++ toLE 2 0x1664 ++ toLE 4 0 ++ toLE 4 (36 + body.length) ++
    toLE 12 s.otp.uid.toNat ++ toLE 4 lockMask
  head ++ body ++ toLE 4 (crc32 (head ++ body))

/-- The records from offset `pos` on, each with its offset, up to the trailer at `stop`; and the offset of the first one
that is not well formed. -/
def parseRecs : Nat → List Byte → Nat → Nat → List (Nat × ImageRec) × Option Nat
  | 0, _, pos, _ => ([], some pos)
  | k + 1, bs, pos, stop =>
    let ty := byteAt bs 0
    let n := leAt bs 2 2
    let a := leAt bs 4 4
    let size := if ty = 1 then 4 * n else 4
    if stop < pos + 8 then ([], some pos)
    else if ty = 0 then
      (if byteAt bs 1 = 0 ∧ n = 0 ∧ a = 0 ∧ pos + 8 = stop then ([], none) else ([], some pos))
    else if 2 < ty ∨ byteAt bs 1 ≠ 0 ∨ n = 0 ∨ 4096 < n ∨ a % 4 ≠ 0 ∨ stop < pos + 8 + size then ([], some pos)
    else
      let vals := (wordsLE ((bs.drop 8).take size)).map fun w => w.toNat
      let t := parseRecs k (bs.drop (8 + size)) (pos + 8 + size) stop
      ((pos, { ty := ty, addr := a, n := n, vals := vals }) :: t.1, t.2)

/-- The words of a record. -/
def recWords (r : ImageRec) : List (Nat × Nat) :=
  (List.range r.n).map fun i => (r.addr + 4 * i, if r.ty = 1 then r.vals.getD i 0 else r.vals.headD 0)

/-- Why a record fails validation (R218): a word outside the content, then a value refused on its own.
DEDUCED, unsafe (notes/assumptions/33). -/
def recBad (sel : Nat → Nat) (r : ImageRec) : Nat :=
  match (recWords r).find? (fun w => !inCarcass sel w.1 || judgeOwn w.1 w.2 != St.ok) with
  | none => St.ok
  | some w => if inCarcass sel w.1 then judgeOwn w.1 w.2 else St.badParam

/-- An image judged (R218): its status and the offset of its first failure, or its words, LENGTH and LOCK_MASK. -/
inductive Judged where
  | bad (status off : Nat)
  | good (words : List (Nat × Nat)) (len lockMask : Nat)
  deriving DecidableEq, Repr

/-- The header fields in order, as far as the CRC; the offset of the first that is wrong. -/
def headerBad (img : List Byte) (avail : Nat) : Option Nat :=
  let len := leAt img 12 4
  if leAt img 0 4 ≠ 0x41435A4C then some 0
  else if leAt img 4 2 ≠ 1 then some 4
  else if leAt img 6 2 ≠ 0x1664 then some 6
  else
    match ((List.range 4).find? fun i => byteAt img (8 + i) != 0) with
    | some i => some (8 + i)
    | none =>
      if len < 44 ∨ imageRoom < len ∨ len % 4 ≠ 0 ∨ avail < len then some 12
      else if 2 ^ 21 ≤ leAt img 28 4 then some 28 else none

/-- Validation of the image whose bytes are `img`, of which `avail` are there (R218). -/
def validate (s : State) (img : List Byte) (avail : Nat) : State × Judged :=
  match headerBad img avail with
  | some off => (s, .bad St.badParam off)
  | none =>
    let len := leAt img 12 4
    let mask := s.jigMask 13
    let s := jigUse s 13
    if crc32 (img.take (len - 4)) ^^^ mask ≠ leAt img (len - 4) 4 then (s, .bad St.badParam (len - 4))
    else
      let got := parseRecs imageRoom (img.drop 32) 32 (len - 4)
      let words := got.1.flatMap fun r => recWords r.2
      -- the buffers in use are those the image itself selects, where it names them
      let sel (a : Nat) : Nat := match words.reverse.find? (fun w => w.1 == a) with
        | some w => w.2
        | none => (s.reg a).toNat
      match got.1.find? (fun r => recBad sel r.2 != St.ok), got.2 with
      | some r, _ => (s, .bad (recBad sel r.2) r.1)
      | none, some off => (s, .bad St.badParam off)
      | none, none => (s, .good words len (leAt img 28 4))

/-- The tail of a failed validation (R218). -/
def badImage (s : State) (status off : Nat) : Out := .done s status (toLE 4 off ++ toLE 2 0)

/-! ### Staging buffer (R217) -/

/-- DESIGN CHOICE, safe (notes/assumptions/37). -/
def stagingBytes (s : State) (off n : Nat) : List Byte := openGet s.cf.staging (Config.stagingOpen false) off n

/-- The staged image, as far as it may reach. -/
def stagedImage (s : State) : List Byte := stagingBytes s 0 imageRoom

/-! ### Loading (R220, R221) -/

/-- A valid image applied whole, with its locks, or refused (R220). -/
def applyImage (s : State) (words : List (Nat × Nat)) (lockMask : Nat) : State × Nat :=
  let r := applyWords s words
  if r.2 = St.ok then ({ r.1 with locks := r.1.locks ||| lockMask }, St.ok) else r

/-- A carcass copy read with its checks; none when it is, or is found, invalid. -/
def readCopy (s : State) (b : Bool) : State × Option (List Byte) :=
  match validCopy s b with
  | none => (s, none)
  | some c => storeRead s (pageBytes * copyPage b) c.len

/-- A copy loaded at boot (R221).
DEDUCED, unsafe (notes/assumptions/35). -/
def bootTry (s : State) (b : Bool) : State × Bool :=
  match readCopy s b with
  | (s, none) => (s, false)
  | (s, some img) =>
    match validate s img img.length with
    | (s, .bad _ _) => (s, false)
    | (s, .good words _ m) =>
      let r := applyImage s words m
      (r.1, r.2 == St.ok)

/-- The boot load (R221, R222, R714).
DEDUCED, unsafe (notes/assumptions/35). -/
def bootLoad (s : State) : State :=
  let s : State := { s with cf.bootDone := true }
  if !s.dir.bootMode || s.cf.bootSkip || !s.bc.bare.isEmpty then s.put F.CF_STATUS_BOOT_LOAD 0
  else
    let refused (s : State) : State := (s.put F.CF_STATUS_BOOT_LOAD 3).raiseBit F.CF_EVENT_BOOT_REFUSED
    match newestCopy s with
    | none => refused s
    | some b =>
      let r := bootTry s b
      if r.2 then r.1.put F.CF_STATUS_BOOT_LOAD (1 + b2n b)
      else
        let t := bootTry r.1 (!b)
        if t.2 then t.1.put F.CF_STATUS_BOOT_LOAD (1 + b2n (!b)) else refused t.1

/-- FCLK cycles from the release of internal reset, 2 ms after power-good, to the earliest boot load, 10 ms after it (R222). -/
def bootEarliest : Nat := 3200000

/-- BOOT_LOAD (R221, R222). -/
def execBootLoad (s : State) : Host.Outcome State Fault Refusal :=
  act s (if s.cf.bootDone || Nat.blt s.cyc bootEarliest then s else bootLoad s)

/-! ### Opcodes 0x20–0x25 (R231, R232) -/

/-- CARCASS_CAPTURE (R727). -/
def bodyCarcassCapture (ps : List Byte) (s : State) : Out :=
  let m := leAt ps 0 4
  if 2 ^ 21 ≤ m then refuse s St.badParam
  else
    let img := captureImage s m
    if imageRoom < img.length then refuse s St.range
    else
      let s : State := { s with cf.staging := openPut [] 0 img }
      .done (s.put F.CF_STAGE_LEN_LEN img.length) St.ok (toLE 4 img.length ++ img.drop (img.length - 4))

/-- CARCASS_PUT.
DEDUCED, unsafe (notes/assumptions/36). -/
def bodyCarcassPut (ps : List Byte) (s : State) : Out :=
  let off := leAt ps 0 4
  let data := ps.drop 4
  if imageRoom < off + data.length then refuse s St.range
  else
    let s : State := { s with cf.staging := openPut s.cf.staging off data }
    .done (s.put F.CF_STAGE_LEN_LEN (max (s.get F.CF_STAGE_LEN_LEN) (off + data.length))) St.ok []

/-- CARCASS_GET. -/
def bodyCarcassGet (ps : List Byte) (s : State) : Out :=
  let src := byteAt ps 0
  let off := leAt ps 1 4
  let n := leAt ps 5 2
  if src = 1 ∨ 3 < src ∨ n < 4 ∨ 4088 < n ∨ n % 4 ≠ 0 then refuse s St.badParam
  else if imageRoom < off + n then refuse s St.range
  else if src = 0 then .done s St.ok (stagingBytes s off n)
  else if (validCopy s (src == 3)).isNone then refuse s St.range
  else
    match storeRead s (pageBytes * copyPage (src == 3) + off) n with
    | (s, none) => refuse s St.range
    | (s, some bs) => .done s St.ok bs

/-- CARCASS_SAVE (R219). -/
def bodyCarcassSave (k : JobKind) (_ : List Byte) (s : State) : Out :=
  if s.locked 2 then refuseLocked s
  else if s.get F.CF_STAGE_LEN_LEN = 0 then refuse s St.range
  else
    let img := stagedImage s
    match validate s img (s.get F.CF_STAGE_LEN_LEN) with
    | (s, .bad st off) => badImage s st off
    | (s, .good _ len _) => .wait (storeStart s k (.image (img.take len)))

/-- CARCASS_LOAD (R220). -/
def bodyCarcassLoad (ps : List Byte) (s : State) : Out :=
  let src := byteAt ps 0
  let load (s : State) (img : List Byte) (avail : Nat) : Out :=
    match validate s img avail with
    | (s, .bad st off) => badImage s st off
    | (s, .good words _ m) =>
      let r := applyImage s words m
      .done r.1 r.2 []
  if 3 < src then refuse s St.badParam
  else if src = 0 then load s (stagedImage s) (s.get F.CF_STAGE_LEN_LEN)
  else
    match (if src = 1 then newestCopy s else some (src == 3)) with
    | none => refuse s St.range
    | some b =>
      match readCopy s b with
      | (s, none) => refuse s St.range
      | (s, some img) => load s img img.length

/-- CARCASS_BOOT. -/
def bodyCarcassBoot (k : JobKind) (ps : List Byte) (s : State) : Out :=
  if 1 < byteAt ps 0 then refuse s St.badParam
  else if s.locked 2 then refuseLocked s
  else .wait (storeStart s k (.bootMode (byteAt ps 0 == 1)))

/-! ### Veneer entries (R223, R224) -/

/-- An entry: its ADDRESS field, VALUE, and MASK where it has one. -/
structure VEntry where
  addr : Nat
  value : Nat
  mask : Option Nat
  deriving DecidableEq, Repr

/-- The ADDRESS field at the head of some bytes: 0 when its four bytes are not present. -/
def entryAddr (bs : List Byte) : Nat := if bs.length < 4 then 0 else leAt bs 0 4

/-- Bytes that an entry with this ADDRESS takes; an entry whose ADDRESS is not whole counts as one of 8 bytes.
DESIGN CHOICE, unsafe (notes/assumptions/97). -/
def entrySize (a : Nat) : Nat := if a % 2 = 1 then 12 else 8

/-- Entries `i` to `i + n - 1` of the bytes, which begin at offset `pos`: the first that does not fit within `limit` bytes
and its ADDRESS, or the entries and the bytes left.
DESIGN CHOICE, unsafe (notes/assumptions/97). -/
def takeEntries (limit : Nat) : Nat → Nat → List Byte → Nat → (Nat × Nat) ⊕ (List VEntry × List Byte)
  | 0, _, bs, _ => .inr ([], bs)
  | n + 1, i, bs, pos =>
    let a := entryAddr bs
    let k := entrySize a
    if limit < pos + k then .inl (i, a)
    else
      match takeEntries limit n (i + 1) (bs.drop k) (pos + k) with
      | .inl e => .inl e
      | .inr (es, rest) =>
        .inr ({ addr := a, value := leAt bs 4 4, mask := if a % 2 = 1 then some (leAt bs 8 4) else none } :: es, rest)

/-- The ADDRESS of entry `n` of the bytes. -/
def addrOfEntry : Nat → List Byte → Nat
  | 0, bs => entryAddr bs
  | n + 1, bs => addrOfEntry n (bs.drop (entrySize (entryAddr bs)))

/-- The entries of a veneer, or the index and ADDRESS of the entry that makes its length wrong, in the order of R224. -/
def parseEntries (count : Nat) (bs : List Byte) : (Nat × Nat) ⊕ List VEntry :=
  if count = 0 then .inl (0, entryAddr bs)
  else if 256 < count then .inl (256, addrOfEntry 256 bs)
  else
    match takeEntries 2048 count 0 bs 0 with
    | .inl e => .inl e
    | .inr _ =>
      match takeEntries bs.length count 0 bs 0 with
      | .inl e => .inl e
      | .inr (es, rest) => if rest.isEmpty then .inr es else .inl (count, entryAddr rest)

/-- The word address of an entry, and the bits it writes. -/
def VEntry.word (e : VEntry) : Nat := e.addr / 4 * 4
def VEntry.bits (e : VEntry) : Nat :=
  match e.mask with
  | some m => m
  | none => match specAt e.word with
    | some r => r.veneer
    | none => 0

/-- A word with the target bits of an entry replaced. -/
def VEntry.laid (e : VEntry) (old : Nat) : Nat := (old &&& (0xFFFFFFFF ^^^ e.bits)) ||| (e.value &&& e.bits)

/-- What the bits of a word that an entry does not write may hold: enough words that a value admitted with any of them is
admitted with one of these.
DEDUCED, unsafe (notes/assumptions/34). -/
def restWords (a : Nat) : List Nat :=
  [(resetWord a).toNat, 0, 0xFFFFFFFF] ++ (List.range 32).map (fun k => 2 ^ k) ++
    (List.range 4).flatMap fun ty => [ty * 2 ^ 30 + 1, ty * 2 ^ 30 + 2]

/-- Why an entry is refused when it is staged (R224): a value that its register would refuse whatever the bits it does not write
hold. What the state decides is judged at the application.
DEDUCED, unsafe (notes/assumptions/34). -/
def entryBad (e : VEntry) : Nat :=
  let vf := match specAt e.word with
    | some r => r.veneer
    | none => 0
  let outside (m : Nat) : Bool := m &&& (0xFFFFFFFF ^^^ vf) != 0
  if bitOf e.addr 1 || vf == 0 || e.word / 0x10000 == 0x4002 || (match e.mask with
    | some m => outside m
    | none => outside e.value) then St.badParam
  else if (restWords e.word).any (fun w => judgeOwn e.word (e.laid w) == St.ok) then St.ok
  else judgeOwn e.word (e.laid (resetWord e.word).toNat)

/-- The first entry refused: its index, its ADDRESS and the status.
DEDUCED, unsafe (notes/assumptions/34). -/
def firstBadEntry : Nat → List VEntry → Option (Nat × Nat × Nat)
  | _, [] => none
  | i, e :: es => if entryBad e = St.ok then firstBadEntry (i + 1) es else some (i, e.addr, entryBad e)

/-- The words that entries leave, in order, each over the ones before it. -/
def entryWords (s : State) : List VEntry → List (Nat × Nat) → List (Nat × Nat)
  | [], ws => ws.reverse
  | e :: es, ws =>
    let old := match ws.find? (fun w => w.1 == e.word) with
      | some w => w.2
      | none => (s.reg e.word).toNat
    let keep := match specAt e.word with
      | some r => r.rw
      | none => 0
    entryWords s es ((e.word, e.laid (old &&& keep)) :: ws)

/-- The words of a veneer's bytes, each register as the entries before leave it. -/
def veneerWords (s : State) (count : Nat) (bs : List Byte) : List (Nat × Nat) :=
  match parseEntries count bs with
  | .inl _ => []
  | .inr es => entryWords s es []

/-- A staging judged and carried out (R224, Table 6.5). -/
def stageContent (s : State) (j count : Nat) (bs : List Byte) (origin : Byte) : Out :=
  match parseEntries count bs with
  | .inl (i, a) => .done s St.badLength (toLE 2 i ++ toLE 4 a)
  | .inr es =>
    match firstBadEntry 0 es with
    | some (i, a, st) => .done s st (toLE 2 i ++ toLE 4 a)
    | none =>
      .done (s.modStage j fun x => { x with st := .staged, count := count, bytes := bs, origin := origin }) St.ok
        (toLE 4 (crc32 bs))

/-! ### Application (R227, R228, R230) -/

/-- Stage j applied in the first cycle of its frame, or refused (Table 6.5). -/
def stageApply (s : State) (j : Nat) : State :=
  let x := s.stageX j
  let r := applyWords s (veneerWords s x.count x.bytes)
  if r.2 = St.ok then (r.1.raiseBit F.CF_EVENT_VENEER_APPLIED).modStage j fun x => { x with st := .applied, result := 0 }
  else (r.1.raiseBit F.CF_EVENT_VENEER_REFUSED).modStage j fun x => { x with st := .refused, result := BitVec.ofNat 8 r.2 }

/-- Stage j, whose target was passed (R236). -/
def stageMissed (s : State) (j : Nat) : State :=
  (s.raiseBit F.CF_EVENT_VENEER_MISSED).modStage j fun x => { x with st := .missed, result := BitVec.ofNat 8 St.tooLate }

def stageArmed (s : State) (j : Nat) : Bool := (s.stageX j).st = .armed
def stageTarget (s : State) (j : Nat) : Nat × Nat := ((s.stageX j).ts, (s.stageX j).tf)

/-- The stages at the start of the frame with number `now`. -/
def stagesAt (s : State) (now : Nat × Nat) : State :=
  forN 4 (fun j s =>
    if !stageArmed s j then s
    else if stageTarget s j = now then stageApply s j
    else if numDiff (stageTarget s j) now < 0 then stageMissed s j else s) s

/-- How many entries a veneer's bytes hold. -/
def entryCount : Nat → List Byte → Nat
  | 0, _ => 0
  | n + 1, bs => if bs.isEmpty then 0 else 1 + entryCount n (bs.drop (entrySize (entryAddr bs)))

/-- The cached veneer of pair i's agreed state applied, where one is due (R230, R677).
DEDUCED, unsafe (notes/assumptions/41). -/
def pairVeneer (s : State) (i : Nat) : State :=
  let x := s.cacheX i
  if !x.due then s
  else
    let s := s.modCache i fun x => { x with due := false }
    if !vselPair s i || pairState s i == 2 then s
    else
      let one := s.on F.PAIR_STAT_AGREED i
      let bs := if one then x.one else x.zero
      let r := applyWords s (veneerWords s (entryCount 256 bs) bs)
      if r.2 = St.ok then r.1.put F.CF_PAIR_VSEL_LAST (1 + b2n one) i
      else r.1.raiseBit F.CF_EVENT_VENEER_REFUSED

/-- The veneers of a frame start: timed ones in stage order, then pair-selected ones (R228). -/
def veneersAt (s : State) (now : Nat × Nat) : State := forN 4 (fun i s => pairVeneer s i) (stagesAt s now)

/-- VENEER_APPLY (R227): the next local frame, which begins, is the target of stage j. -/
def execVeneerApply (j : Fin 4) (s : State) : Host.Outcome State Fault Refusal :=
  act s (if stageArmed s j ∧ stageTarget s j = s.nextFrameNum then stageApply s j else s)

/-- VENEER_MISSED (R236): the number of the next local frame passes the target of stage j. -/
def execVeneerMissed (j : Fin 4) (s : State) : Host.Outcome State Fault Refusal :=
  act s (if stageArmed s j ∧ numDiff (stageTarget s j) s.nextFrameNum < 0 then stageMissed s j else s)

/-- PAIR_VENEER_APPLY (R230). -/
def execPairVeneerApply (i : Fin 4) (s : State) : Host.Outcome State Fault Refusal :=
  act s (pairVeneer s i)

/-! ### Opcodes 0x26–0x2D (R231, R232) -/

/-- VENEER_STAGE.
DEDUCED, unsafe (notes/assumptions/36). -/
def bodyVeneerStage (ps : List Byte) (s : State) : Out :=
  let j := byteAt ps 0
  if 3 < j then refuse s St.badParam
  else if stageArmed s j then refuse s St.wrongState
  else stageContent s j (leAt ps 1 2) (ps.drop 3) 0xFF

/-- A stored veneer read with its checks. -/
def readSlot (s : State) (v : Nat) : State × Option (Nat × List Byte) :=
  match validSlot s v with
  | none => (s, none)
  | some x =>
    let r := storeRead s (pageBytes * slotPage v) x.len
    (r.1, r.2.map fun bs => (x.count, bs))

/-- VENEER_FETCH. -/
def bodyVeneerFetch (ps : List Byte) (s : State) : Out :=
  let j := byteAt ps 0
  let v := byteAt ps 1
  if 3 < j ∨ 15 < v then refuse s St.badParam
  else if stageArmed s j then refuse s St.wrongState
  else
    match readSlot s v with
    | (s, none) => refuse s St.notPresent
    | (s, some (count, bs)) => stageContent s j count bs (BitVec.ofNat 8 v)

/-- VENEER_SAVE. -/
def bodyVeneerSave (k : JobKind) (ps : List Byte) (s : State) : Out :=
  let j := byteAt ps 0
  let v := byteAt ps 1
  if 3 < j ∨ 15 < v then refuse s St.badParam
  else if s.locked 2 then refuseLocked s
  else if (s.stageX j).st = .empty then refuse s St.wrongState
  else .wait (storeStart s k (.veneer v (s.stageX j).count (s.stageX j).bytes))

/-- VENEER_ERASE. -/
def bodyVeneerErase (k : JobKind) (ps : List Byte) (s : State) : Out :=
  if 15 < byteAt ps 0 then refuse s St.badParam
  else if s.locked 2 then refuseLocked s
  else .wait (storeStart s k (.erase (byteAt ps 0)))

/-- Whether the frame with this number starts in cycle S + 1, which is the present one, or earlier, counted on from the frame in
progress (R226, R234).
DEDUCED, unsafe (notes/assumptions/111). -/
def startsTooSoon (s : State) (n : Nat × Nat) : Bool :=
  let d := numDiff n s.frameNum
  decide (d ≤ 0) || (decide (d = 1) && Nat.ble frameCycles s.inFrame)

/-- VENEER_COMMIT (R226). -/
def bodyVeneerCommit (tag : Byte) (ps : List Byte) (s : State) : Out :=
  let j := byteAt ps 0
  let target := (leAt ps 1 4, leAt ps 5 2)
  let x := s.stageX j
  let meetsLock := (veneerWords s x.count x.bytes).any fun w =>
    match specAt w.1 with
    | some r => r.lock && s.locked (lockBlock w.1)
    | none => false
  if 3 < j ∨ 31249 < target.2 then refuse s St.badParam
  else if x.st = .empty ∨ x.st = .armed then refuse s St.wrongState
  else if startsTooSoon s target then refuse s St.tooLate
  else if 2700000000 < numDiff target s.frameNum then refuse s St.range
  else if meetsLock then refuseLocked s
  else
    .done (s.modStage j fun x => { x with st := .armed, armTag := tag, ts := target.1, tf := target.2 }) St.ok
      (numBytes s.frameNum)

/-- VENEER_ABORT (R225, R238). -/
def bodyVeneerAbort (ps : List Byte) (s : State) : Out :=
  let j := byteAt ps 0
  if 3 < j then refuse s St.badParam
  else if !stageArmed s j then refuse s St.wrongState
  else if startsTooSoon s (stageTarget s j) then refuse s St.tooLate
  else .done (s.modStage j fun x => { x with st := .staged }) St.ok []

/-- VENEER_STATUS (Table 6.7). -/
def bodyVeneerStatus (ps : List Byte) (s : State) : Out :=
  let j := byteAt ps 0
  let x := s.stageX j
  if 3 < j then refuse s St.badParam
  else
    .done s St.ok (numBytes s.frameNum ++ [BitVec.ofNat 8 (stageCode s j), x.result, x.armTag, x.origin] ++
      toLE 2 x.count ++ toLE 4 x.ts ++ toLE 2 x.tf)

/-- VENEER_GET. -/
def bodyVeneerGet (ps : List Byte) (s : State) : Out :=
  let kind := byteAt ps 0
  let n := byteAt ps 1
  if 1 < kind ∨ (kind = 0 ∧ 3 < n) ∨ 15 < n then refuse s St.badParam
  else if kind = 0 then
    let x := s.stageX n
    if x.st = .empty then refuse s St.notPresent else .done s St.ok (toLE 2 x.count ++ x.bytes)
  else
    match readSlot s n with
    | (s, none) => refuse s St.notPresent
    | (s, some (count, bs)) => .done s St.ok (toLE 2 count ++ bs)

end Sys2Proof.Machine
end

