-- ==== Sys2Proof/Machine/Mp.lean ====
section
/-!
DEFINITION. Machine/Mp.lean: the Parast transport of the unit (chapter 4): the receive machine, the table of opcodes, replies,
the replay memories, MP_STATUS and the record of the last error.
-/
namespace Sys2Proof.Machine

/-! ### The receive machine (R128, Table 4.3) -/

/-- What the receive machine reports. -/
inductive RxEvent where
  /-- A command's last CRC bit: its bytes from ADDR to CRC. -/
  | command (bytes : List Byte)
  | replyEnd
  /-- A header whose LEN is above 4,096: its bytes from ADDR to LEN, and whether it is a command's. -/
  | tooLong (isCommand : Bool) (bytes : List Byte)
  deriving DecidableEq, Repr

def bitsByte (bs : List Bool) : Byte := BitVec.ofNat 8 (bs.foldl (fun n b => 2 * n + b2n b) 0)

/-- Trailing 0 bits of a byte. -/
def trailZeros (b : Byte) : Nat := ((List.range 8).find? fun i => b.toNat.testBit i).getD 8

/-- The machine after a whole byte of HEADER, BODY or CHECK. -/
def rxByte (x : RxX) (b : Byte) : RxX × Option RxEvent :=
  let bytes := x.bytes ++ [b]
  let isCommand := bytes.headD 0 == 0xD3
  let go (st : RxSt) (left : Nat) : RxX × Option RxEvent := ({ st := st, bytes := bytes, left := left }, none)
  if 1 < x.left then go x.st (x.left - 1)
  else
    match x.st with
    | .header =>
      let len := leAt bytes 4 2
      if 4096 < len then ({}, some (.tooLong isCommand (bytes.drop 1)))
      else if len = 0 then go .check 2 else go .body len
    | .body => go .check 2
    | _ => ({}, some (if isCommand then .command (bytes.drop 1) else .replyEnd))

/-- One bit sampled.
DEDUCED, safe (notes/assumptions/16). -/
def rxBit (x : RxX) (b : Bool) : RxX × Option RxEvent :=
  match x.st with
  | .hunt =>
    (if b then (if x.zeros < 8 then { x with zeros := 0 } else { st := .candidate, bits := [true] })
     else { x with zeros := min 8 (x.zeros + 1) }, none)
  | .candidate =>
    let bits := x.bits ++ [b]
    if bits.length < 8 then ({ x with bits := bits }, none)
    else
      let byte := bitsByte bits
      (if byte == 0xD3 || byte == 0xB4 then { st := .header, bytes := [byte], left := 5 } else { zeros := trailZeros byte }, none)
  | _ =>
    let bits := x.bits ++ [b]
    if bits.length < 8 then ({ x with bits := bits }, none) else rxByte { x with bits := [] } (bitsByte bits)

/-- Bits sampled in order, with what they report.
DEDUCED, safe (notes/assumptions/16). -/
def rxBits : RxX → List Bool → RxX × List RxEvent
  | x, [] => (x, [])
  | x, b :: bs =>
    let r := rxBit x b
    let t := rxBits r.1 bs
    (t.1, match r.2 with
      | some e => e :: t.2
      | none => t.2)

/-- Bits sampled in order from edge `e` on, with what they report and the edge at which each report is made. -/
def rxRun : Nat → RxX → List Bool → RxX × List (Nat × RxEvent)
  | _, x, [] => (x, [])
  | e, x, b :: bs =>
    let r := rxBit x b
    let t := rxRun (e + 1) r.1 bs
    (t.1, match r.2 with
      | some v => (e, v) :: t.2
      | none => t.2)

/-- `n` edges from edge `e` on at which PDAT reads 0. The longest packet ends within a bus flush, and what follows changes
nothing (R129). -/
def rxIdle (e : Nat) (x : RxX) (n : Nat) : RxX × List (Nat × RxEvent) :=
  match x.st with
  | .hunt => ({ x with zeros := min 8 (x.zeros + n) }, [])
  | _ => rxRun e x (List.replicate (min n 32840) false)

/-- HUNT with a zero count of 8: the next 1 begins a packet. -/
def RxX.ready (x : RxX) : Bool := x.st == .hunt && x.zeros == 8

/-- The bits of bytes, most significant first (R123). -/
def bitsOfBytes (bs : List Byte) : List Bool := bs.flatMap fun b => (List.range 8).map fun i => b.toNat.testBit (7 - i)

/-! ### The table of opcodes (R140, R719, Table 20.1) -/

/-- What the bridge knows of an opcode: served in firmware, broadcast-capable, and which LEN it accepts. -/
structure OpRow where
  fw : Bool := false
  bcast : Bool := false
  len : List Byte → Bool

/-- LEN is exactly n. -/
def lenIs (n : Nat) (ps : List Byte) : Bool := ps.length == n

/-- LEN is base + step × k with k from lo to hi. -/
def lenForm (base step lo hi : Nat) (ps : List Byte) : Bool :=
  Nat.ble (base + step * lo) ps.length && Nat.ble ps.length (base + step * hi) && (ps.length - base) % step == 0

/-- LEN is base + step × the count field of `n` bytes at `off` (R140). -/
def lenTied (off n base step : Nat) (ps : List Byte) : Bool :=
  Nat.ble (off + n) ps.length && ps.length == base + step * leAt ps off n

def hw (len : List Byte → Bool) (bcast : Bool := false) : Option OpRow := some { bcast := bcast, len := len }
def fw (len : List Byte → Bool) (bcast : Bool := false) : Option OpRow := some { fw := true, bcast := bcast, len := len }

/-- The rows of Table 20.1 from 0x00 to 0x2D. -/
def opRowLow (op : Nat) : Option OpRow :=
  match op with
  | 0x00 | 0x01 => hw (lenIs 0)
  | 0x02 => hw (lenIs 1)
  | 0x03 => hw (lenIs 13)
  | 0x04 => hw (lenIs 14) true
  | 0x05 | 0x06 => hw (lenIs 1) true
  | 0x07 | 0x08 => hw (lenIs 1)
  | 0x0E => fw (fun ps => Nat.ble 8 ps.length)
  | 0x10 => hw (lenIs 4)
  | 0x11 => hw (lenForm 0 8 1 256) true
  | 0x12 => hw (lenIs 6)
  | 0x13 => hw (lenForm 4 4 1 1023) true
  | 0x14 => hw (lenIs 12) true
  | 0x15 => hw (lenForm 0 4 1 256)
  | 0x16 => hw (lenIs 4) true
  | 0x17 => hw (lenIs 8)
  | 0x20 => fw (lenIs 4)
  | 0x21 => fw (lenForm 4 4 1 1022)
  | 0x22 => fw (lenIs 7)
  | 0x23 => fw (lenIs 0)
  | 0x24 | 0x25 => fw (lenIs 1)
  | 0x26 => fw (fun ps => Nat.ble 3 ps.length) true
  | 0x27 => fw (lenIs 2) true
  | 0x28 => fw (lenIs 2)
  | 0x29 => fw (lenIs 1)
  | 0x2A => hw (lenIs 7) true
  | 0x2B => hw (lenIs 1) true
  | 0x2C => hw (lenIs 1)
  | 0x2D => fw (lenIs 2)
  | _ => none

/-- The rows of Table 20.1 from 0x30 on. -/
def opRowHigh (op : Nat) : Option OpRow :=
  match op with
  | 0x30 => fw (lenTied 4 2 6 4)
  | 0x31 => fw (lenIs 1)
  | 0x32 => fw (lenIs 3)
  | 0x33 => fw (lenIs 2)
  | 0x34 => fw (lenIs 0)
  | 0x38 => fw (lenTied 1 1 2 16)
  | 0x39 => fw (lenIs 5)
  | 0x40 => fw (lenIs 1)
  | 0x41 => fw (lenForm 1 1 1 4095)
  | 0x42 => fw (lenIs 1)
  | 0x43 => fw (lenIs 0)
  | 0x44 => fw (lenIs 1)
  | 0x50 => hw (lenIs 3) true
  | 0x51 => hw (lenIs 1)
  | 0x52 => fw (lenIs 1)
  | 0x60 => hw (lenIs 6) true
  | 0x61 => hw (lenIs 11)
  | 0x62 => hw (lenIs 1)
  | 0x70 => hw (lenIs 6)
  | 0x71 => hw (lenIs 4)
  | 0x72 => fw (lenIs 2)
  | 0x73 => hw (lenIs 2)
  | 0x80 => fw (lenIs 1)
  | 0x81 => fw (lenTied 1 1 2 8)
  | 0x82 => fw (lenIs 5)
  | 0x90 => hw (lenIs 4) true
  | 0x91 => hw (lenIs 0)
  | 0x92 => hw (lenIs 0) true
  | 0x93 => hw (lenIs 4)
  | 0x94 => fw (lenIs 3)
  | 0xA0 => hw (lenForm 4 1 16 4080) true
  | 0xA1 => hw (lenIs 0) true
  | 0xA2 => hw (lenIs 1) true
  | 0xA3 => hw (lenIs 0)
  | 0xA4 => hw (lenIs 1)
  | _ => none

def opRow (op : Nat) : Option OpRow := if op < 0x30 then opRowLow op else opRowHigh op

/-! ### Records and replies -/

/-- MP_LAST_ERR overwritten with every status but OK and PENDING that is sent or recorded (R158).
DEDUCED, unsafe (notes/assumptions/22). DEDUCED, unsafe (notes/assumptions/24). -/
def recordErr (s : State) (addr : Byte) (op : Nat) (tag : Byte) (st : Nat) : State :=
  if st = St.ok ∨ st = St.pending then s
  else s.put F.MP_LAST_ERR (2 ^ 31 + addr.toNat % 128 * 2 ^ 24 + op % 256 * 2 ^ 16 + tag.toNat * 2 ^ 8 + st)

/-- A reply from its ADDR byte to its CRC (Table 4.2). -/
def mkReply (addr st : Nat) (tag : Byte) (data : List Byte) : List Byte :=
  let body := BitVec.ofNat 8 addr :: BitVec.ofNat 8 st :: tag :: (toLE 2 data.length ++ data)
  body ++ toLE 2 (crc16 body)

/-- The DATA of a reply that carries another, and its status (R155).
DEDUCED, unsafe (notes/assumptions/23). -/
def nested (bytes : List Byte) : Nat × List Byte :=
  if 4096 < bytes.length then (St.range, bytes.take 5) else (St.ok, bytes)

def ownAddr (s : State) : Nat := s.get F.CH_ADDR_ADDR
def addressed (s : State) : Bool := s.on F.CH_ADDR_ADDRESSED

/-! ### Replay memories (R146, R147, R153) -/

/-- The memory of a kind of command. -/
def memOf (s : State) (o : JobKind) : List Entry := if o = .remote then s.mp.rreplay else s.mp.replay

/-- MP_STATUS shows what is awaited, in progress and queued (Table 4.8). -/
def showMp (s : State) : State :=
  ((s.put F.MP_STATUS_RESULT_READY (b2n (s.mp.replay.any fun e => e.awaiting))).put F.MP_STATUS_WORKING (b2n s.mp.job.isSome)).put
    F.MP_STATUS_BCAST_DEPTH s.mp.bcast.length

def setMem (s : State) (o : JobKind) (m : List Entry) : State :=
  showMp (if o = .remote then { s with mp.rreplay := m } else { s with mp.replay := m })

def findEntry (s : State) (o : JobKind) (tag : Byte) : Option Entry := (memOf s o).find? fun e => e.tag == tag

/-- An entry with this tag is WORKING (R162). -/
def tagWorking (s : State) (o : JobKind) (tag : Byte) : Bool :=
  match findEntry s o tag with
  | some e => !e.done
  | none => false

/-- The memory with a new entry: in place of the one with its tag, else of the oldest that is not WORKING when 16 are held.
DEDUCED, unsafe (notes/assumptions/20). -/
def memEnter (m : List Entry) (e : Entry) : List Entry :=
  let m := m.filter fun x => x.tag != e.tag
  (if m.length < 16 then m else
    match m.findIdx? (fun x => x.done) with
    | some i => m.eraseIdx i
    | none => m) ++ [e]

/-- A command served at once enters with its reply, unless its tag is that of a WORKING entry (R146, R162).
DEDUCED, unsafe (notes/assumptions/20). -/
def enterDone (s : State) (o : JobKind) (tag : Byte) (reply : List Byte) : State :=
  if tagWorking s o tag then s else setMem s o (memEnter (memOf s o) { tag := tag, first := reply, final := reply })

/-- A firmware-served command enters WORKING.
DEDUCED, unsafe (notes/assumptions/20). -/
def enterWorking (s : State) (o : JobKind) (tag : Byte) : State :=
  setMem s o (memEnter (memOf s o) { tag := tag, firstSent := false, done := false })

/-- The entry with this tag changed. -/
def modEntry (s : State) (o : JobKind) (tag : Byte) (f : Entry → Entry) : State :=
  setMem s o ((memOf s o).map fun e => if e.tag = tag then f e else e)

/-! ### The bus -/

/-- The first edge of `n` bytes whose last bit is sampled at edge `e`. -/
def firstEdge (e n : Nat) : Nat := e + 1 - 8 * n

/-- The unit's driver is on at one of the edges `a … e` for a reply that waits: from edge Y − 3, the first after the falling
edge that follows Y − 4, to the last bit (R131, R159).
DEDUCED, safe (notes/assumptions/18). -/
def drivingIn (s : State) (a e : Nat) : Bool :=
  s.mp.out.any fun r => Nat.ble r.y (e + 3) && Nat.blt a (r.y + 8 * (r.bytes.length + 1))

/-- The unit samples every bit of `n` bytes whose last bit comes at edge `e` (R128, R159).
DEDUCED, safe (notes/assumptions/18). -/
def samples (s : State) (e n : Nat) : Bool :=
  s.live && Nat.ble (s.mp.rxEdge + 8 * n) (e + 1) && !drivingIn s (firstEdge e n) e

/-- The receive machine as the first bit of `n` bytes finds it, the bus having been idle (R124). -/
def rxBefore (s : State) (e n : Nat) : RxX × List (Nat × RxEvent) :=
  rxIdle s.mp.rxEdge s.mp.rx (firstEdge e n - s.mp.rxEdge)

/-- The unit follows a packet of `n` bytes with SYNC that ends at edge `e`: it samples all of it, and its receive machine is in
HUNT with a zero count of 8 when the packet begins (R124, R128).
DEDUCED, safe (notes/assumptions/18). -/
def hears (s : State) (e n : Nat) : Bool := samples s e n && (rxBefore s e n).1.ready

/-- A reply queued for its edge.
DEDUCED, unsafe (notes/assumptions/22). -/
def sendReply (s : State) (y : Nat) (bytes : List Byte) (release : Bool := false) : State :=
  { s with mp.out := s.mp.out ++ [{ y := y, bytes := bytes, release := release }] }

/-- A command with a bad CRC: counted and recorded, without a reply (R128). -/
def badCrcPacket (s : State) (addr : Byte) (op : Nat) (tag : Byte) : State :=
  recordErr (s.bumpSat F.MP_BAD_CRC_COUNT) addr op tag St.badCrc

end Sys2Proof.Machine
end

