-- ==== Sys2Proof/Machine/Session.lean ====
section
/-!
DEFINITION. Machine/Session.lean: what the session opcodes do at a unit (chapter 3, R148), REMOTE (R151), OTP_PROGRAM
(R189), and the action of every opcode of Table 20.1.
-/
namespace Sys2Proof.Machine

/-! ### Identity (R95, R105, R189–R191) -/

/-- IDENTIFY: CH_ID_PART, the unique ID and ASSET. -/
def bodyIdentify (s : State) : Out :=
  .done s St.ok (toLE 4 (s.get F.CH_ID_PART) ++ toLE 12 s.otp.uid.toNat ++
    (List.range 16).flatMap fun j => toLE 4 (s.get F.CH_ASSET j))

/-- OTP_PROGRAM: refused in the order of R190; a spent word takes the identical value only, and an interrupted one any value
with a 1 in every bit already burnt (R106, R191).
DEDUCED, safe (notes/assumptions/32). -/
def bodyOtpProgram (ps : List Byte) (s : State) : Out :=
  let a := leAt ps 0 4
  let v := leAt ps 4 4
  let j := (a - F.CH_ASSET.base) / 4
  let old := s.get F.CH_ASSET j
  if a < F.CH_ASSET.base ∨ F.CH_ASSET.base + 64 ≤ a ∨ a % 4 ≠ 0 then refuse s St.badParam
  else if s.otp.burn.isSome then refuse s St.wrongState
  else if bitOf (s.get F.CH_ASSET_SPENT_SPENT) j then (if v = old then refuse s St.ok else refuse s St.spent)
  else if old &&& v ≠ old then refuse s St.spent
  else
    let s : State := { s with otp.burn := some (j, s.reg (F.CH_ASSET.addr j)) }
    .done (s.put F.CH_ASSET v j) St.ok []

/-- OTP_BURN_COMPLETE (R189): the spent marker is burnt last.
DEDUCED, safe (notes/assumptions/32). -/
def execOtpBurnComplete (s : State) : Host.Outcome State Fault Refusal :=
  act s (match s.otp.burn with
    | none => s
    | some (j, _) =>
      let s : State := { s with otp.burn := none }
      s.put F.CH_ASSET_SPENT_SPENT (s.get F.CH_ASSET_SPENT_SPENT ||| 2 ^ j))

/-! ### Replay memories (R148, Table 4.5) -/

/-- PING: MP_TXN_COUNT, in which this PING has been counted. -/
def bodyPing (s : State) : Out := .done s St.ok (toLE 4 (s.get F.MP_TXN_COUNT))

/-- POLL: the final reply of an entry that is DONE; it is then collected (R147).
DEDUCED, unsafe (notes/assumptions/23). -/
def bodyPoll (o : JobKind) (ps : List Byte) (s : State) : Out :=
  match findEntry s o (ps.headD 0) with
  | none => refuse s St.notPresent
  | some e =>
    if !e.done then refuse s St.pending
    else
      let r := nested e.final
      .done (modEntry s o e.tag fun e => { e with awaiting := false }) r.1 r.2

/-- REPLAY: the first reply of an entry, once it has been sent. -/
def bodyReplay (o : JobKind) (ps : List Byte) (s : State) : Out :=
  match findEntry s o (ps.headD 0) with
  | none => refuse s St.notPresent
  | some e =>
    if !e.firstSent then refuse s St.pending
    else
      let r := nested e.first
      .done s r.1 r.2

/-! ### REMOTE (R151, R152) -/

/-- Whether bytes from an ADDR to a CRC are an inner command: ADDR 0, LEN as long as they are, and a good CRC. -/
def innerGood (bs : List Byte) : Bool :=
  Nat.ble 7 bs.length && bs.headD 0 == 0 && leAt bs 3 2 + 7 == bs.length &&
    crc16 (bs.take (bs.length - 2)) == leAt bs (bs.length - 2) 2

/-- A message queued for the management channel of port p. -/
def mcQueue (s : State) (p ty : Nat) (bs : List Byte) (ref : Option Nat := none) : State :=
  s.modPort p fun x => { x with mcOut := x.mcOut ++ [{ ty := ty, bytes := bs, ref := ref }] }

/-- REMOTE: refused, or its inner command is queued on the port and its reply awaited.
DEDUCED, unsafe (notes/assumptions/27). -/
def bodyRemote (o : JobKind) (oof : Bool) (ps : List Byte) (s : State) : Out :=
  let p := byteAt ps 0
  let inner := ps.drop 1
  if 15 < p ∨ !innerGood inner then refuse s St.badParam
  else if oof then refuse s St.notPresent
  else
    let n := s.mp.remoteSeq
    let s := mcQueue s p 1 inner (some n)
    .wait { s with mp.remote := s.mp.remote ++ [{ kind := o, port := p, id := n, tag := inner.getD 2 0 }], mp.remoteSeq := n + 1 }

/-! ### Addressing (Table 3.2, R93, R101, R102, R117) -/

/-- The replay memory emptied, and what is in progress no longer reports (R93, R117). -/
def sessionEmptied (s : State) : State :=
  setMem { s with mp.job := s.mp.job.map fun j => { j with orphan := true } } .chain []

/-- The unit takes the address `a` (Table 3.2).
DEDUCED, unsafe (notes/assumptions/25). -/
def takeAddress (s : State) (a : Nat) (byId : Bool) : State :=
  let s := (s.put F.CH_ADDR_ADDR a).put F.CH_ADDR_ADDRESSED 1
  let s := ((s.driveDowel 1).bumpSat F.CH_ASSIGN_LOG_ASSIGN_COUNT).put F.CH_ASSIGN_LOG_LAST_BY_ID (b2n byId)
  sessionEmptied s

/-- The unit leaves ADDRESSED, both quiet flags clear and DOWEL_OUT low (R93, R101); it drives no reply any more (R59).
DEDUCED, unsafe (notes/assumptions/25). -/
def leaveAddressed (s : State) : State :=
  let s := (s.put F.CH_ADDR 0).put F.CH_STATUS_QUIET_IRQ 0
  let s := sessionEmptied ((s.put F.CH_STATUS_QUIET_DISC 0).driveDowel 0)
  { s with mp.out := [], mp.leaveAt := none }

/-- RELEASE: a unicast one is answered first, and the unit leaves ADDRESSED at the end of its reply (R116). -/
def bodyRelease (o : JobKind) (ps : List Byte) (s : State) : Out :=
  if byteAt ps 0 ≠ 0x5A then refuse s St.badParam
  else .done (if o = .broadcast then leaveAddressed s else s) St.ok []

/-- QUIET replaces both flags (R102). -/
def bodyQuiet (ps : List Byte) (s : State) : Out :=
  let v := byteAt ps 0
  if 4 ≤ v then refuse s St.badParam
  else .done ((s.put F.CH_STATUS_QUIET_DISC (v % 2)).put F.CH_STATUS_QUIET_IRQ (v / 2)) St.ok []

/-! ### The action of every opcode -/

/-- The opcodes below 0x30. -/
def runLow (o : JobKind) (j : Job) (s : State) : Out :=
  let ps := j.params
  match j.op with
  | 0x00 => bodyPing s
  | 0x01 => bodyIdentify s
  | 0x05 => bodyRelease o ps s
  | 0x06 => bodyQuiet ps s
  | 0x07 => bodyPoll o ps s
  | 0x08 => bodyReplay o ps s
  | 0x0E => bodyRemote o j.oof ps s
  | 0x10 => bodyRead ps s
  | 0x11 => bodyWrite ps s
  | 0x12 => bodyReadBlock ps s
  | 0x13 => bodyWriteBlock ps s
  | 0x14 => bodyModify ps s
  | 0x15 => bodySnapshot ps s
  | 0x16 => bodyLock ps s
  | 0x17 => bodyOtpProgram ps s
  | 0x20 => bodyCarcassCapture ps s
  | 0x21 => bodyCarcassPut ps s
  | 0x22 => bodyCarcassGet ps s
  | 0x23 => bodyCarcassSave o ps s
  | 0x24 => bodyCarcassLoad ps s
  | 0x25 => bodyCarcassBoot o ps s
  | 0x26 => bodyVeneerStage ps s
  | 0x27 => bodyVeneerFetch ps s
  | 0x28 => bodyVeneerSave o ps s
  | 0x29 => bodyVeneerErase o ps s
  | 0x2A => bodyVeneerCommit j.tag ps s
  | 0x2B => bodyVeneerAbort ps s
  | 0x2C => bodyVeneerStatus ps s
  | 0x2D => bodyVeneerGet ps s
  | _ => refuse s St.badOpcode

/-- The opcodes from 0x30 to 0x5F. -/
def runMid (o : JobKind) (j : Job) (s : State) : Out :=
  let ps := j.params
  match j.op with
  | 0x30 => bodyXcMapLoad ps s
  | 0x31 => bodyXcMapSwap ps s
  | 0x32 => bodyXcMapCheck ps s
  | 0x33 => bodyXcSliceSwap o ps s
  | 0x34 => bodyXcSliceRestore o ps s
  | 0x38 => bodyGrRecipeLoad ps s
  | 0x39 => bodyGrRecipeTest ps s
  | 0x40 => bodyQmReset o ps s
  | 0x41 => bodyQmPktSend o ps s
  | 0x42 => bodyQmPktRecv o ps s
  | 0x43 => bodyQmAudit s
  | 0x44 => bodyClAnRestart ps s
  | 0x50 => bodyPsRequest ps s
  | 0x51 => bodyPsStatus ps s
  | 0x52 => bodyPsReskew ps s
  | _ => refuse s St.badOpcode

/-- The opcodes from 0x60 on. -/
def runHigh (o : JobKind) (j : Job) (s : State) : Out :=
  let ps := j.params
  match j.op with
  | 0x60 => bodyTgRealign ps s
  | 0x61 => bodyTgSteer ps s
  | 0x62 => bodyTgStatus ps s
  | 0x70 => bodyTdSet ps s
  | 0x71 => bodyTdAdjust ps s
  | 0x72 => bodyTdDelay o ps s
  | 0x73 => bodyKfPop ps s
  | 0x80 => bodyFeCheck o ps s
  | 0x81 => bodyFeSplineLoad ps s
  | 0x82 => bodyFeSplineEval ps s
  | 0x90 => bodyFaAck ps s
  | 0x91 => bodyFaStatus ps s
  | 0x92 => bodyFaAliveResume ps s
  | 0x93 => bodyJigArm ps s
  | 0x94 => bodyRpRowRemap ps s
  | 0xA0 => bodyFwLoad ps s
  | 0xA1 => bodyFwVerify ps s
  | 0xA2 => bodyFwActivate ps s
  | 0xA3 => bodyFwStatus ps s
  | 0xA4 => bodyBcPromote ps s
  | _ => refuse s St.badOpcode

/-- What command `j` does at the unit, once nothing of R726's first step refuses it. -/
def runBody (o : JobKind) (j : Job) (s : State) : Out :=
  if j.op < 0x30 then runLow o j s else if j.op < 0x60 then runMid o j s else runHigh o j s

end Sys2Proof.Machine
end

