-- ==== Sys2Proof/Machine/Bridge.lean ====
section
/-!
DEFINITION. Machine/Bridge.lean: how the bridge takes a command in (R126, R137–R145, R153, R159, R166, R726), answers it,
queues what firmware serves, and takes results in (R132, R133, R143, R154).
-/
namespace Sys2Proof.Machine

/-! ### Firmware-served commands in progress (R141, R145, R153) -/

/-- The command of a kind that is in progress. -/
def jobOf (s : State) (o : JobKind) : Option Job :=
  match o with
  | .chain => s.mp.job
  | .broadcast => s.mp.bjob
  | .remote => s.mp.rjob

def setJob (s : State) (o : JobKind) (j : Option Job) : State :=
  showMp (match o with
    | .chain => { s with mp.job := j }
    | .broadcast => { s with mp.bjob := j }
    | .remote => { s with mp.rjob := j })

/-- A command as it commits, in the order of commit points; of a REMOTE, whether its port is out of frame now (R152). -/
def jobFor (s : State) (op : Nat) (addr tag : Byte) (params : List Byte) (edge port : Nat) : Job :=
  { op := op, addr := addr, tag := tag, params := params, edge := edge, win := s.get F.MP_REPLY_WIN_WIN, port := port,
    seq := s.mp.seq, oof := op == 0x0E && !portInSync s (byteAt params 0) }

/-- The result of the chain's command taken in at edge `f` (R133, R146, R161, R165). -/
def finishChain (s : State) (j : Job) (f st : Nat) (data : List Byte) : State :=
  if j.orphan then s
  else
    let rep := mkReply (ownAddr s) st j.tag data
    let s := recordErr s j.addr j.op j.tag st
    if j.pended then modEntry s .chain j.tag fun e => { e with done := true, final := rep, awaiting := true }
    else if f + 8 ≤ j.edge + j.win then
      sendReply (modEntry s .chain j.tag fun e => { e with first := rep, firstSent := true, done := true, final := rep })
        (max (j.edge + 16) (f + 8)) rep
    else
      let p := mkReply (ownAddr s) St.pending j.tag []
      sendReply (modEntry s .chain j.tag fun e =>
        { e with first := p, firstSent := true, done := true, final := rep, awaiting := true }) (j.edge + j.win) p

/-- The result of a remote command: sent on its port, unless an inner PENDING has gone (R153, R154). -/
def finishRemote (s : State) (j : Job) (st : Nat) (data : List Byte) : State :=
  let rep := mkReply 0 st j.tag data
  let s := recordErr s j.addr j.op j.tag st
  if j.pended then modEntry s .remote j.tag fun e => { e with done := true, final := rep }
  else mcQueue (modEntry s .remote j.tag fun e => { e with first := rep, firstSent := true, done := true, final := rep }) j.port 2 rep

/-- A firmware-served command ends with a status and data. -/
def finishJob (s : State) (o : JobKind) (j : Job) (f st : Nat) (data : List Byte) : State :=
  let s := setJob { s with mp.ready := s.mp.ready.filter fun r => r.1 != o } o none
  match o with
  | .chain => finishChain s j f st data
  | .broadcast => recordErr s j.addr j.op j.tag st
  | .remote => finishRemote s j st data

/-- No command that committed before is still in progress or queued (R144).
DEDUCED, unsafe (notes/assumptions/19). -/
def jobsTurn (s : State) (n : Nat) : Bool :=
  let before (j : Job) : Bool := Nat.blt j.seq n
  !(s.mp.job.any before || s.mp.bjob.any before || s.mp.rjob.any before || s.mp.bcast.any before)

/-- The command of kind `o` completes at edge `f`: the result of an event of its own is taken in, or its action is carried
out now, in one cycle (R143), and either ends or waits for such an event.
DEDUCED, unsafe (notes/assumptions/22). DEDUCED, safe (notes/assumptions/28). -/
def completeJob (s : State) (o : JobKind) (f : Nat) : State :=
  match jobOf s o with
  | none => s
  | some j =>
    match s.mp.ready.find? (fun r => r.1 == o) with
    | some r => finishJob s o j f r.2.1 r.2.2
    | none =>
      if j.started || !s.on F.MP_STATUS_FW_READY || !jobsTurn s j.seq then s
      else
        match runBody o j s with
        | .done s st data => finishJob s o j f st data
        | .wait s => setJob s o (some { j with started := true })

/-- The oldest queued broadcast begins service when it is its turn: after any unicast command, of the chain or of the ring, that
was in progress (R145).
DEDUCED, unsafe (notes/assumptions/19). -/
def serveBroadcast (s : State) : State :=
  match s.mp.bcast with
  | [] => s
  | j :: js =>
    let before (u : Job) : Bool := Nat.blt u.seq j.seq
    let unicastFirst := s.mp.job.any before || s.mp.rjob.any before
    if s.mp.bjob.isSome || !s.on F.MP_STATUS_FW_READY || unicastFirst then s
    else setJob { s with mp.bcast := js } .broadcast (some j)

/-! ### Answers -/

/-- A command answered at once: its reply enters the replay memory, except that of POLL, REPLAY and a RELEASE that will empty
it (R146, R93), and goes out at C + 16, or on the port by which the command came (R132, R153). -/
def answer (s : State) (o : JobKind) (j : Job) (addr st : Nat) (data : List Byte) : State :=
  let rep := mkReply addr st j.tag data
  let released := j.op == 5 && st == St.ok
  let s := if j.op = 7 ∨ j.op = 8 ∨ released then s else enterDone s o j.tag rep
  let s := recordErr s j.addr j.op j.tag st
  if o = .remote then mcQueue s j.port 2 rep else sendReply s (j.edge + 16) rep released

/-- A firmware-served command begins; where `done` names the edge of its result, it completes there. -/
def startJob (s : State) (o : JobKind) (j : Job) (done : Option Nat) : State :=
  let s := setJob (enterWorking { s with mp.seq := s.mp.seq + 1 } o j.tag) o (some j)
  match done with
  | none => s
  | some f => completeJob s o f

/-- A command that this unit alone serves, after its address has been judged: the opcode, LEN, and what R141, R142 and R162
ask, then its action (R726). `row` is none where the opcode is not accepted here. -/
def serveOne (s : State) (o : JobKind) (j : Job) (row : Option OpRow) (done : Option Nat) : State :=
  let s := s.bumpWrap F.MP_TXN_COUNT
  let addr := if o = .remote then 0 else ownAddr s
  match row with
  | none => answer s o j addr St.badOpcode []
  | some r =>
    if !r.len j.params then answer s o j addr St.badLength []
    else if r.fw then
      (if fwAway s || (jobOf s o).isSome || tagWorking s o j.tag then answer s o j addr St.busy [] else startJob s o j done)
    else
      match runBody o j s with
      | .done s st data => answer s o j addr st data
      | .wait s => s

/-! ### Broadcasts (R138, R139, R145, R166) -/

/-- DISCOVER at 127 (R98, R100, R118): an admitted unit whose ID matches drives the slot of its next four ID bits.
DEDUCED, unsafe (notes/assumptions/21). DEDUCED, safe (notes/assumptions/26). -/
def discoverAct (s : State) (j : Job) : State :=
  let scope := byteAt j.params 0
  let l := byteAt j.params 1
  let uid := s.otp.uid.toNat
  if 1 < scope ∨ l % 4 ≠ 0 ∨ 92 < l then recordErr s j.addr j.op j.tag St.badParam
  else if (scope = 1 ∨ !addressed s) ∧ !s.on F.CH_STATUS_QUIET_DISC ∧
      uid / 2 ^ (96 - l) = leAt j.params 2 12 / 2 ^ (96 - l) then
    ({ s with ch.slot := if s.ioDip then none else some (j.edge, bitsOf uid (92 - l) 4) } : State).bumpWrap F.MP_TXN_COUNT
  else s

/-- RELEASE and QUIET at 127: one that is refused is ignored, and recorded by an ADDRESSED unit (R139).
DEDUCED, unsafe (notes/assumptions/21). -/
def sessionAll (s : State) (j : Job) : State :=
  match runBody .broadcast j s with
  | .done t st _ =>
    if st = St.ok then t.bumpWrap F.MP_TXN_COUNT
    else if addressed s then recordErr s j.addr j.op j.tag st else s
  | .wait t => t

/-- A broadcast-capable command with a LEN it accepts at an ADDRESSED unit. -/
def serveAll (s : State) (j : Job) (r : OpRow) (done : Option Nat) : State :=
  if r.fw then
    if 4 ≤ s.mp.bcast.length then recordErr (s.bumpSat F.MP_BCAST_DROP_COUNT) j.addr j.op j.tag St.busy
    else
      let s := showMp { s with mp.bcast := s.mp.bcast ++ [j], mp.seq := s.mp.seq + 1 }
      let s := s.bumpWrap F.MP_TXN_COUNT
      match done with
      | none => s
      | some f => completeJob (serveBroadcast s) .broadcast f
  else
    match runBody .broadcast j (s.bumpWrap F.MP_TXN_COUNT) with
    | .done s st _ => recordErr s j.addr j.op j.tag st
    | .wait s => s

/-- A command at 127.
DEDUCED, unsafe (notes/assumptions/19). DEDUCED, unsafe (notes/assumptions/21). DEDUCED, unsafe (notes/assumptions/24). -/
def broadcastCommand (s : State) (j : Job) (done : Option Nat) : State :=
  match opRow j.op with
  | none => recordErr s j.addr j.op j.tag St.badOpcode
  | some r =>
    if !r.bcast then recordErr s j.addr j.op j.tag St.badOpcode
    else if !r.len j.params then recordErr s j.addr j.op j.tag St.badLength
    else if j.op = 4 then discoverAct s j
    else if j.op = 6 ∨ (j.op = 5 ∧ addressed s) then sessionAll s j
    else if addressed s then serveAll s j r done else s

/-! ### Commands at address 0 (Table 3.2, R95–R97) -/

/-- ASSIGN_NEXT (false) or ASSIGN_BY_ID (true) at address 0.
DEDUCED, unsafe (notes/assumptions/25). -/
def assignAt0 (s : State) (j : Job) (byId : Bool) : State :=
  let n := if byId then 13 else 1
  let a := byteAt j.params (n - 1)
  let mine := if byId then leAt j.params 0 12 == s.otp.uid.toNat else s.on F.CH_STATUS_DOWEL_IN
  if j.params.length ≠ n then s
  else if addressed s then
    (if a = ownAddr s then (s.bumpWrap F.MP_TXN_COUNT).raiseBit F.CH_STATUS_ADDR_CONFLICT else s)
  else if !mine then s
  else
    let s := s.bumpWrap F.MP_TXN_COUNT
    if 1 ≤ a ∧ a ≤ 126 then
      sendReply (takeAddress s a byId) (j.edge + 16) (mkReply a St.ok j.tag (toLE 12 s.otp.uid.toNat))
    else sendReply (recordErr s 0 j.op j.tag St.range) (j.edge + 16) (mkReply 0 St.range j.tag [])

/-! ### The chain -/

/-- What a unit's own address accepts: DISCOVER draws BAD_OPCODE there (R95). -/
def ownRow (op : Nat) : Option OpRow := if op = 4 then none else opRow op

/-- The presence slot that still runs at edge `e`: it ends at the falling edge after its edge C + 10 + 4s (R98).
DEDUCED, safe (notes/assumptions/26). -/
def slotLeft (s : State) (e : Nat) : Option (Nat × Nat) := s.ch.slot.filter fun x => Nat.ble e (x.1 + 10 + 4 * x.2)

/-- PCLK has reached edge `e`: a RELEASE whose reply has ended has taken the unit out of ADDRESSED (R116), and a presence slot
may have ended.
DEDUCED, unsafe (notes/assumptions/25). -/
def pclkReach (e : Nat) (s : State) : State :=
  let s := match s.mp.leaveAt with
    | some y => if Nat.ble y e then leaveAddressed s else s
    | none => s
  { s with ch.slot := slotLeft s e }

/-- A packet with a good CRC commits: opcode `op` with LEN as its parameters are long (R126, R130, R137). -/
def commitPacket (s : State) (op : Nat) (k : Pkt) (done : Option Nat) : State :=
  if s.jigMask 11 ≠ 0 then badCrcPacket (jigUse s 11) k.addr op k.tag
  else
    let s := jigUse s 11
    let j := jobFor s op k.addr k.tag k.params k.edge 0
    let a := k.addr.toNat
    if a = 127 then broadcastCommand s j done
    else if a = 0 then
      (if op = 2 then assignAt0 s j false else if op = 3 then assignAt0 s j true else s)
    else if addressed s ∧ a = ownAddr s then
      -- R120: an address is not given at the unit's own address, whatever the LEN
      (if op = 2 ∨ op = 3 then answer (s.bumpWrap F.MP_TXN_COUNT) .chain j a St.wrongState []
       else serveOne s .chain j (ownRow op) done)
    else s

/-- What the unit does for a report of the receive machine at edge `e` (Table 4.3). -/
def rxAct (r : Nat × RxEvent) (s : State) : State :=
  match r.2 with
  | .command bs =>
    let n := bs.length - 2
    if crc16 (bs.take n) = leAt bs n 2 then
      commitPacket s (byteAt bs 1) { addr := bs.headD 0, tag := bs.getD 2 0, params := (bs.take n).drop 5, edge := r.1 } none
    else badCrcPacket (jigUse s 11) (bs.headD 0) (byteAt bs 1) (bs.getD 2 0)
  | .tooLong true bs => recordErr s (bs.headD 0) (byteAt bs 1) (bs.getD 2 0) St.badLength
  | _ => s

/-- Bytes on the bus, SYNC among them, whose last bit is sampled at edge `e`, go through the receive machine. -/
def busBytes (s : State) (bytes : List Byte) (e : Nat) : State :=
  let x := rxBefore s e bytes.length
  let r := rxRun (firstEdge e bytes.length) x.1 (bitsOfBytes bytes)
  forList (x.2 ++ r.2) rxAct { s with mp.rx := r.1, mp.rxEdge := e + 1 }

/-- The bytes of a command packet from SYNC to CRC (Table 4.1). -/
def packetBytes (op : Nat) (k : Pkt) : List Byte :=
  let body := k.addr :: BitVec.ofNat 8 op :: k.tag :: (toLE 2 k.params.length ++ k.params)
  0xD3 :: (body ++ toLE 2 (crc16 body))

/-- The unit as the last bit of a packet is sampled at edge `e`: its receiver is back in HUNT (Table 4.3). -/
def heard (s : State) (e : Nat) : State :=
  let s := pclkReach e s
  { s with mp.rx := {}, mp.rxEdge := e + 1 }

/-- The packet of command `op` passes on the bus. Where the receive machine stands ready for it, it is followed to its commit
point; else the machine makes of its bits what it can (R126, R128, R159).
DEDUCED, safe (notes/assumptions/16). -/
def chainCommand (s : State) (op : Nat) (k : Pkt) (done : Option Nat) : State :=
  let n := k.params.length + 8
  if !samples s k.edge n then s
  else if hears s k.edge n && Nat.ble k.params.length 4096 then
    commitPacket (heard s k.edge) op k done
  else busBytes (pclkReach k.edge s) (packetBytes op k) k.edge

/-- BAD_CRC (R128, R130): a packet that ends at `edge` goes through the receive machine; its bytes from ADDR to CRC. It may
also bring a command of an opcode that spec/ does not define (R140).
DESIGN CHOICE, safe (notes/assumptions/17). -/
def execBadCrc (bytes : List Byte) (edge : Nat) (s : State) : Host.Outcome State Fault Refusal :=
  act s (if samples s edge (bytes.length + 1) then busBytes (pclkReach edge s) (0xD3 :: bytes) edge else s)

/-- LEN_ABOVE_4096 (R128): a header whose LEN is above 4,096 and whose last bit comes at `edge`. -/
def execLenAbove4096 (reply : Bool) (addr op tag : Byte) (len : BitVec 16) (edge : Nat) (s : State) :
    Host.Outcome State Fault Refusal :=
  act s (if samples s edge 6 then
    busBytes (pclkReach edge s) ((if reply then 0xB4 else 0xD3) :: addr :: op :: tag :: toLE 2 len.toNat) edge
  else s)

/-- REPLY_FOLLOW (R128): another unit's reply, whose last bit comes at `edge`, goes through the receive machine; its bytes from
ADDR to CRC. -/
def execReplyFollow (bytes : List Byte) (edge : Nat) (s : State) : Host.Outcome State Fault Refusal :=
  act s (if samples s edge (bytes.length + 1) then busBytes (pclkReach edge s) (0xB4 :: bytes) edge else s)

/-- REPLY_START (R131, R136, R167): PCLK has reached `edge`, and the first of the replies that wait goes out if its edge Y has
come. The receive machine begins again behind it in HUNT with a zero count of 0 (R128); a unit that a RELEASE reached
leaves ADDRESSED at its end (R116). The driver is off where VDD_IO33 does not carry it (R58) and while the boundary
register owns the balls (R76).
DEDUCED, safe (notes/assumptions/18). -/
def execReplyStart (edge : Nat) (s : State) : Host.Outcome State Fault Refusal :=
  act s (match s.mp.out with
    | [] => pclkReach edge s
    | r :: rest =>
      if s.tapOwns || Nat.blt edge r.y then s
      else
        let bytes := 0xB4 :: r.bytes
        let last := r.y + 8 * bytes.length
        pclkReach edge { s with mp := { s.mp with
          out := rest, wire := if s.ioDip then none else some (r.y, bytes), rx := {}, rxEdge := max s.mp.rxEdge last,
          leaveAt := if r.release && addressed s then some (last - 1) else s.mp.leaveAt } })

/-- PENDING_REPLY (R133): no result by edge C + W − 8, so PENDING goes out at C + W. -/
def execPendingReply (s : State) : Host.Outcome State Fault Refusal :=
  act s (match s.mp.job with
    | none => s
    | some j =>
      if j.pended || j.orphan then s
      else
        let p := mkReply (ownAddr s) St.pending j.tag []
        let s := setJob s .chain (some { j with pended := true })
        sendReply (modEntry s .chain j.tag fun e => { e with first := p, firstSent := true }) (j.edge + j.win) p)

/-- FIRMWARE_COMMAND_COMPLETE (R143): at PCLK edge `edge`.
DEDUCED, safe (notes/assumptions/28). -/
def execFirmwareCommandComplete (k : JobKind) (edge : Nat) (s : State) : Host.Outcome State Fault Refusal :=
  act s (completeJob s k edge)

/-- BROADCAST_SERVE (R145). -/
def execBroadcastServe (s : State) : Host.Outcome State Fault Refusal := act s (serveBroadcast s)

/-- PRESENCE_SLOT_TIMEOUT (R99): the driver is off, and the rest of that DISCOVER is none of the unit's.
DEDUCED, safe (notes/assumptions/26). -/
def execPresenceSlotTimeout (s : State) : Host.Outcome State Fault Refusal := act s { s with ch.slot := none }

/-! ### Commands over the ring (R152–R154) -/

/-- The message that port p holds for the bridge taken out.
DEDUCED, unsafe (notes/assumptions/27). -/
def takeInbox (s : State) (p : Nat) : State := s.modPort p fun x => { x with inbox := none }

/-- What REMOTE does not admit inside: the session opcodes 0x01–0x06 (R153). -/
def innerRow (op : Nat) : Option OpRow := if 1 ≤ op ∧ op ≤ 6 then none else opRow op

/-- An inner command message accepted: with REMOTE_ACCEPT 0, or where it is no inner command, it is discarded. -/
def innerAccept (s : State) (p : Nat) : State :=
  match (s.portX p).inbox with
  | none => s
  | some m =>
    if m.ty ≠ 1 then s
    else
      let s := takeInbox s p
      if !s.on F.MP_CTRL_REMOTE_ACCEPT || !innerGood m.bytes then s
      else
        let op := byteAt m.bytes 1
        let j := jobFor s op 0 (m.bytes.getD 2 0) ((m.bytes.drop 5).take (m.bytes.length - 7)) 0 p
        serveOne s .remote j (innerRow op) none

/-- REMOTE_INNER_ACCEPT (R153). -/
def execRemoteInnerAccept (p : Fin 16) (s : State) : Host.Outcome State Fault Refusal :=
  act s (innerAccept s p.val)

/-- An inner PENDING goes out when 16 basic frames have passed without a result (R154). -/
def innerPending (s : State) : State :=
  match s.mp.rjob with
  | none => s
  | some j =>
    if j.pended || Nat.blt j.age 16 then s
    else
      let p := mkReply 0 St.pending j.tag []
      let s := setJob s .remote (some { j with pended := true })
      mcQueue (modEntry s .remote j.tag fun e => { e with first := p, firstSent := true }) j.port 2 p

/-- REMOTE_INNER_PENDING (R154). -/
def execRemoteInnerPending (s : State) : Host.Outcome State Fault Refusal := act s (innerPending s)

/-- An inner reply completes the REMOTE on its port whose tag it carries; any other is discarded (R152, R155).
DEDUCED, unsafe (notes/assumptions/27). -/
def innerReply (s : State) (p : Nat) : State :=
  match (s.portX p).inbox with
  | none => s
  | some m =>
    if m.ty ≠ 2 then s
    else
      let s := takeInbox s p
      match s.mp.remote.findIdx? (fun w => w.port == p && w.tag == m.bytes.getD 2 0 && w.sent) with
      | none => s
      | some i =>
        let k := match s.mp.remote[i]? with
          | some w => w.kind
          | none => .chain
        let r := nested m.bytes
        postResult { s with mp.remote := s.mp.remote.eraseIdx i } k r.1 r.2

/-- REMOTE_INNER_REPLY (R152). -/
def execRemoteInnerReply (p : Fin 16) (s : State) : Host.Outcome State Fault Refusal :=
  act s (innerReply s p.val)

/-- The inner reply that a REMOTE waits for is arriving, or has arrived: its tag stands in its first chunk (R164, R294). -/
def replyArriving (s : State) (w : RemoteWait) : Bool :=
  let x := s.portX w.port
  let isReply (m : McMsg) : Bool := m.ty == 2 && m.bytes[2]? == some w.tag
  x.inbox.any isReply || x.mcFull.any isReply || (match x.mcRx with
    | some (ty, _, bytes) => isReply { ty := ty, bytes := bytes }
    | none => false)

/-- Every REMOTE that has waited 64 basic frames completes with NOT_PRESENT, unless its reply arrives (R152, R164).
DEDUCED, unsafe (notes/assumptions/27). -/
def remoteExpire (s : State) : State :=
  let late (w : RemoteWait) : Bool := w.sent && Nat.ble 64 w.age && !replyArriving s w
  let gone := s.mp.remote.filter late
  forList gone (fun w s => postResult s w.kind St.notPresent []) { s with mp.remote := s.mp.remote.filter fun w => !late w }

/-- REMOTE_EXPIRY (R152). -/
def execRemoteExpiry (s : State) : Host.Outcome State Fault Refusal := act s (remoteExpire s)

/-- A tick of the waits of R152 and R154. -/
def remoteTick (s : State) : State :=
  { s with
    mp.remote := s.mp.remote.map fun w => if w.sent then { w with age := w.age + 1 } else w
    mp.rjob := s.mp.rjob.map fun j => { j with age := j.age + 1 } }

end Sys2Proof.Machine
end

