-- ==== Sys2Proof/Machine/Opcodes.lean ====
section
/-!
DEFINITION. Machine/Opcodes.lean: a Parast command commits (R130), one meaning for each opcode of Table 20.1.  What the
opcode does once it is accepted is its body in the file of its block; Machine/Session.lean names it.
-/
namespace Sys2Proof.Machine

/-! ### Session opcodes 0x00–0x0E (R95, R148, R151) -/

/-- PING (R148).
DEDUCED, safe (notes/assumptions/16). -/
def execPing (k : Pkt) (s : State) : Host.Outcome State Fault Refusal := act s (chainCommand s 0x00 k none)

/-- IDENTIFY (R95). -/
def execIdentify (k : Pkt) (s : State) : Host.Outcome State Fault Refusal := act s (chainCommand s 0x01 k none)

/-- ASSIGN_NEXT (R95). -/
def execAssignNext (k : Pkt) (s : State) : Host.Outcome State Fault Refusal := act s (chainCommand s 0x02 k none)

/-- ASSIGN_BY_ID (R97). -/
def execAssignById (k : Pkt) (s : State) : Host.Outcome State Fault Refusal := act s (chainCommand s 0x03 k none)

/-- DISCOVER (R98). -/
def execDiscover (k : Pkt) (s : State) : Host.Outcome State Fault Refusal := act s (chainCommand s 0x04 k none)

/-- RELEASE (R101). -/
def execRelease (k : Pkt) (s : State) : Host.Outcome State Fault Refusal := act s (chainCommand s 0x05 k none)

/-- QUIET (R102). -/
def execQuiet (k : Pkt) (s : State) : Host.Outcome State Fault Refusal := act s (chainCommand s 0x06 k none)

/-- POLL (R148). -/
def execPoll (k : Pkt) (s : State) : Host.Outcome State Fault Refusal := act s (chainCommand s 0x07 k none)

/-- REPLAY (R148). -/
def execReplay (k : Pkt) (s : State) : Host.Outcome State Fault Refusal := act s (chainCommand s 0x08 k none)

/-- REMOTE (R151). -/
def execRemote (k : Pkt) (done : Option Nat) (s : State) : Host.Outcome State Fault Refusal :=
  act s (chainCommand s 0x0E k done)

/-! ### Register access 0x10–0x17 (R197) -/

/-- READ (R197). -/
def execRead (k : Pkt) (s : State) : Host.Outcome State Fault Refusal := act s (chainCommand s 0x10 k none)

/-- WRITE (R198). -/
def execWrite (k : Pkt) (s : State) : Host.Outcome State Fault Refusal := act s (chainCommand s 0x11 k none)

/-- READ_BLOCK (R197). -/
def execReadBlock (k : Pkt) (s : State) : Host.Outcome State Fault Refusal := act s (chainCommand s 0x12 k none)

/-- WRITE_BLOCK (R197). -/
def execWriteBlock (k : Pkt) (s : State) : Host.Outcome State Fault Refusal := act s (chainCommand s 0x13 k none)

/-- MODIFY (R199). -/
def execModify (k : Pkt) (s : State) : Host.Outcome State Fault Refusal := act s (chainCommand s 0x14 k none)

/-- SNAPSHOT (R201). -/
def execSnapshot (k : Pkt) (s : State) : Host.Outcome State Fault Refusal := act s (chainCommand s 0x15 k none)

/-- LOCK (R185). -/
def execLock (k : Pkt) (s : State) : Host.Outcome State Fault Refusal := act s (chainCommand s 0x16 k none)

/-- OTP_PROGRAM (R189). -/
def execOtpProgram (k : Pkt) (s : State) : Host.Outcome State Fault Refusal := act s (chainCommand s 0x17 k none)

/-! ### Carcass and veneers 0x20–0x2D (R231) -/

/-- CARCASS_CAPTURE (R727). -/
def execCarcassCapture (k : Pkt) (done : Option Nat) (s : State) : Host.Outcome State Fault Refusal :=
  act s (chainCommand s 0x20 k done)

/-- CARCASS_PUT (R232). -/
def execCarcassPut (k : Pkt) (done : Option Nat) (s : State) : Host.Outcome State Fault Refusal :=
  act s (chainCommand s 0x21 k done)

/-- CARCASS_GET (R232). -/
def execCarcassGet (k : Pkt) (done : Option Nat) (s : State) : Host.Outcome State Fault Refusal :=
  act s (chainCommand s 0x22 k done)

/-- CARCASS_SAVE (R219). -/
def execCarcassSave (k : Pkt) (done : Option Nat) (s : State) : Host.Outcome State Fault Refusal :=
  act s (chainCommand s 0x23 k done)

/-- CARCASS_LOAD (R220). -/
def execCarcassLoad (k : Pkt) (done : Option Nat) (s : State) : Host.Outcome State Fault Refusal :=
  act s (chainCommand s 0x24 k done)

/-- CARCASS_BOOT (R231). -/
def execCarcassBoot (k : Pkt) (done : Option Nat) (s : State) : Host.Outcome State Fault Refusal :=
  act s (chainCommand s 0x25 k done)

/-- VENEER_STAGE (R224). -/
def execVeneerStage (k : Pkt) (done : Option Nat) (s : State) : Host.Outcome State Fault Refusal :=
  act s (chainCommand s 0x26 k done)

/-- VENEER_FETCH (R225). -/
def execVeneerFetch (k : Pkt) (done : Option Nat) (s : State) : Host.Outcome State Fault Refusal :=
  act s (chainCommand s 0x27 k done)

/-- VENEER_SAVE (R232). -/
def execVeneerSave (k : Pkt) (done : Option Nat) (s : State) : Host.Outcome State Fault Refusal :=
  act s (chainCommand s 0x28 k done)

/-- VENEER_ERASE (R232). -/
def execVeneerErase (k : Pkt) (done : Option Nat) (s : State) : Host.Outcome State Fault Refusal :=
  act s (chainCommand s 0x29 k done)

/-- VENEER_COMMIT (R226). -/
def execVeneerCommit (k : Pkt) (s : State) : Host.Outcome State Fault Refusal := act s (chainCommand s 0x2A k none)

/-- VENEER_ABORT (R225). -/
def execVeneerAbort (k : Pkt) (s : State) : Host.Outcome State Fault Refusal := act s (chainCommand s 0x2B k none)

/-- VENEER_STATUS (R231). -/
def execVeneerStatus (k : Pkt) (s : State) : Host.Outcome State Fault Refusal := act s (chainCommand s 0x2C k none)

/-- VENEER_GET (R231). -/
def execVeneerGet (k : Pkt) (done : Option Nat) (s : State) : Host.Outcome State Fault Refusal :=
  act s (chainCommand s 0x2D k done)

/-! ### Cross-connect and gearing 0x30–0x39 (R349–R352, R383) -/

/-- XC_MAP_LOAD (R349). -/
def execXcMapLoad (k : Pkt) (done : Option Nat) (s : State) : Host.Outcome State Fault Refusal :=
  act s (chainCommand s 0x30 k done)

/-- XC_MAP_SWAP (R351). -/
def execXcMapSwap (k : Pkt) (done : Option Nat) (s : State) : Host.Outcome State Fault Refusal :=
  act s (chainCommand s 0x31 k done)

/-- XC_MAP_CHECK (R350). -/
def execXcMapCheck (k : Pkt) (done : Option Nat) (s : State) : Host.Outcome State Fault Refusal :=
  act s (chainCommand s 0x32 k done)

/-- XC_SLICE_SWAP (R352). -/
def execXcSliceSwap (k : Pkt) (done : Option Nat) (s : State) : Host.Outcome State Fault Refusal :=
  act s (chainCommand s 0x33 k done)

/-- XC_SLICE_RESTORE (R352). -/
def execXcSliceRestore (k : Pkt) (done : Option Nat) (s : State) : Host.Outcome State Fault Refusal :=
  act s (chainCommand s 0x34 k done)

/-- GR_RECIPE_LOAD (R383). -/
def execGrRecipeLoad (k : Pkt) (done : Option Nat) (s : State) : Host.Outcome State Fault Refusal :=
  act s (chainCommand s 0x38 k done)

/-- GR_RECIPE_TEST (R384). -/
def execGrRecipeTest (k : Pkt) (done : Option Nat) (s : State) : Host.Outcome State Fault Refusal :=
  act s (chainCommand s 0x39 k done)

/-! ### Queues, clients and protection 0x40–0x52 (R423, R493) -/

/-- QM_RESET (R402). -/
def execQmReset (k : Pkt) (done : Option Nat) (s : State) : Host.Outcome State Fault Refusal :=
  act s (chainCommand s 0x40 k done)

/-- QM_PKT_SEND (R423). -/
def execQmPktSend (k : Pkt) (done : Option Nat) (s : State) : Host.Outcome State Fault Refusal :=
  act s (chainCommand s 0x41 k done)

/-- QM_PKT_RECV (R437). -/
def execQmPktRecv (k : Pkt) (done : Option Nat) (s : State) : Host.Outcome State Fault Refusal :=
  act s (chainCommand s 0x42 k done)

/-- QM_AUDIT (R423). -/
def execQmAudit (k : Pkt) (done : Option Nat) (s : State) : Host.Outcome State Fault Refusal :=
  act s (chainCommand s 0x43 k done)

/-- CL_AN_RESTART (R423). -/
def execClAnRestart (k : Pkt) (done : Option Nat) (s : State) : Host.Outcome State Fault Refusal :=
  act s (chainCommand s 0x44 k done)

/-- PS_REQUEST (R493). -/
def execPsRequest (k : Pkt) (s : State) : Host.Outcome State Fault Refusal := act s (chainCommand s 0x50 k none)

/-- PS_STATUS (R492). -/
def execPsStatus (k : Pkt) (s : State) : Host.Outcome State Fault Refusal := act s (chainCommand s 0x51 k none)

/-- PS_RESKEW (R493). -/
def execPsReskew (k : Pkt) (done : Option Nat) (s : State) : Host.Outcome State Fault Refusal :=
  act s (chainCommand s 0x52 k done)

/-! ### Gauge, time and Kerf 0x60–0x73 (R535, R571) -/

/-- TG_REALIGN (R532). -/
def execTgRealign (k : Pkt) (s : State) : Host.Outcome State Fault Refusal := act s (chainCommand s 0x60 k none)

/-- TG_STEER (R536). -/
def execTgSteer (k : Pkt) (s : State) : Host.Outcome State Fault Refusal := act s (chainCommand s 0x61 k none)

/-- TG_STATUS (R535). -/
def execTgStatus (k : Pkt) (s : State) : Host.Outcome State Fault Refusal := act s (chainCommand s 0x62 k none)

/-- TD_SET (R554). -/
def execTdSet (k : Pkt) (s : State) : Host.Outcome State Fault Refusal := act s (chainCommand s 0x70 k none)

/-- TD_ADJUST (R553). -/
def execTdAdjust (k : Pkt) (s : State) : Host.Outcome State Fault Refusal := act s (chainCommand s 0x71 k none)

/-- TD_DELAY (R572). -/
def execTdDelay (k : Pkt) (done : Option Nat) (s : State) : Host.Outcome State Fault Refusal :=
  act s (chainCommand s 0x72 k done)

/-- KF_POP (R564). -/
def execKfPop (k : Pkt) (s : State) : Host.Outcome State Fault Refusal := act s (chainCommand s 0x73 k none)

/-! ### Front end 0x80–0x82 (R610) -/

/-- FE_CHECK (R610). -/
def execFeCheck (k : Pkt) (done : Option Nat) (s : State) : Host.Outcome State Fault Refusal :=
  act s (chainCommand s 0x80 k done)

/-- FE_SPLINE_LOAD (R610). -/
def execFeSplineLoad (k : Pkt) (done : Option Nat) (s : State) : Host.Outcome State Fault Refusal :=
  act s (chainCommand s 0x81 k done)

/-- FE_SPLINE_EVAL (R610). -/
def execFeSplineEval (k : Pkt) (done : Option Nat) (s : State) : Host.Outcome State Fault Refusal :=
  act s (chainCommand s 0x82 k done)

/-! ### Faults and repair 0x90–0x94 (R683) -/

/-- FA_ACK (R672). -/
def execFaAck (k : Pkt) (s : State) : Host.Outcome State Fault Refusal := act s (chainCommand s 0x90 k none)

/-- FA_STATUS (R683). -/
def execFaStatus (k : Pkt) (s : State) : Host.Outcome State Fault Refusal := act s (chainCommand s 0x91 k none)

/-- FA_ALIVE_RESUME (R675). -/
def execFaAliveResume (k : Pkt) (s : State) : Host.Outcome State Fault Refusal := act s (chainCommand s 0x92 k none)

/-- JIG_ARM (R678). -/
def execJigArm (k : Pkt) (s : State) : Host.Outcome State Fault Refusal := act s (chainCommand s 0x93 k none)

/-- RP_ROW_REMAP (R680). -/
def execRpRowRemap (k : Pkt) (done : Option Nat) (s : State) : Host.Outcome State Fault Refusal :=
  act s (chainCommand s 0x94 k done)

/-! ### Firmware and cores 0xA0–0xA4 (R648) -/

/-- FW_LOAD (R645). -/
def execFwLoad (k : Pkt) (s : State) : Host.Outcome State Fault Refusal := act s (chainCommand s 0xA0 k none)

/-- FW_VERIFY (R645). -/
def execFwVerify (k : Pkt) (s : State) : Host.Outcome State Fault Refusal := act s (chainCommand s 0xA1 k none)

/-- FW_ACTIVATE (R646). -/
def execFwActivate (k : Pkt) (s : State) : Host.Outcome State Fault Refusal := act s (chainCommand s 0xA2 k none)

/-- FW_STATUS (R648). -/
def execFwStatus (k : Pkt) (s : State) : Host.Outcome State Fault Refusal := act s (chainCommand s 0xA3 k none)

/-- BC_PROMOTE (R623). -/
def execBcPromote (k : Pkt) (s : State) : Host.Outcome State Fault Refusal := act s (chainCommand s 0xA4 k none)

end Sys2Proof.Machine
end

