-- ==== Sys2Proof/Machine/Bus.lean ====
section
/-!
DEFINITION. Machine/Bus.lean: the bus matrix (R627–R635, R657–R659): paths, arbitration, hold-back, outstanding
transactions, and what a granted request does.
-/
namespace Sys2Proof.Machine

/-! ### Targets (R627, R629, Table 17.5) -/

/-- The target that an address belongs to under the mapping in force; none where it is undefined (R176).
DEDUCED, unsafe (notes/assumptions/83). -/
def busTarget (s : State) (a : Nat) : Option Nat :=
  match memAt s a with
  | some (.rom _) => some 0
  | some (.sram _) => some 1
  | some (.pool _) => some 2
  | some (.store _) => some 4
  | none =>
    if (specAt a).isNone then none
    else if a < 0x40000000 then some 3
    else if a / 0x10000 = 0x400F then some 6 else some 5

/-- Bytes of a beat at target T. -/
def busWidth (t : Nat) : Nat := if t < 4 then 16 else 4

/-- Read latency of target T, in FCLK cycles from the grant to the first beat. -/
def busLatency (t : Nat) : Nat := if t < 4 then 4 else if t = 5 then 3 else if t = 4 then 26 else 110

/-- Transactions that master m may have outstanding (R633). -/
def busShare (m : Nat) : Nat := if m < 5 then 32 else if m = 6 then 64 else 16

/-- Beats of a request. -/
def reqBeats (r : BusReq) : Nat := r.beats.val + 1

/-- The words that a request reaches, in order. -/
def reqWords (t : Nat) (r : BusReq) : List Nat := wordRun (r.addr.toNat / busWidth t * busWidth t) (reqBeats r * (busWidth t / 4))

/-- A burst that would cross a 4 KiB boundary, as its master splits it (R629).
DEDUCED, unsafe (notes/assumptions/83). -/
def splitReq (s : State) (r : BusReq) : List BusReq :=
  match busTarget s r.addr.toNat with
  | none => [r]
  | some t =>
    let w := busWidth t
    let first := (4096 - r.addr.toNat / w * w % 4096) / w
    if reqBeats r ≤ first then [r]
    else
      let n := first * (w / 4)
      [{ r with beats := Fin.ofNat 16 (first - 1), data := r.data.map (List.take n) },
       { r with addr := BitVec.ofNat 32 (r.addr.toNat / 4096 * 4096 + 4096), beats := Fin.ofNat 16 (reqBeats r - first - 1),
                data := r.data.map (List.drop n) }]

/-! ### Errors (R628) -/

/-- Why a request receives an error response: an undefined address (none), or a missing path to a target. -/
def busFault (s : State) (r : BusReq) : Option (Option Nat) :=
  match busTarget s r.addr.toNat with
  | none => some none
  | some t =>
    if !busPath r.m t then some (some t)
    else if (reqWords t r).all fun a => (busTarget s a).isSome then none else some none

/-- A request that fails: recorded, and BM_PATH_ERR raised; the bridge's own is its command's NOT_PRESENT. -/
def busError (s : State) (r : BusReq) (t : Option Nat) : State :=
  if r.m.val = 5 then s
  else
    let target := match t with
      | some n => n
      | none => 7
    let s := s.put F.BM_ERR_ADDR r.addr.toNat
    let s := s.put F.BM_ERR_INFO (b2n r.data.isSome * 2 ^ 24 + r.m.val * 2 ^ 16 + target * 2 ^ 8 + r.id.toNat)
    let s := match t with
      | some _ => s.raiseBit F.BM_EVENT_PATH_ERR
      | none => s.raiseBit F.BM_EVENT_DECODE_ERR
    raise s 20 r.m.val

/-! ### What a granted request does -/

/-- The bits that only a bench core writes: RO (FW) fields.
DEDUCED, unsafe (notes/assumptions/84). -/
def fwMask (a : Nat) : Nat :=
  if a = 0x40110000 then 1
  else if a = 0x40120000 then 0xFFFFF000
  else if 0x40120010 ≤ a ∧ a < 0x40120040 then 0xFFFFF
  else if 0x401200A0 ≤ a ∧ a < 0x401200B4 then 0x7F
  else if 0x40120400 ≤ a ∧ a < 0x40120580 then 0x71F
  else if a = 0x40130014 then 0xFFFFFFFF
  else 0

/-- A word that a bench core writes to RO (FW) fields (R635, R641, R674).
DEDUCED, unsafe (notes/assumptions/84). -/
def fwWrite (s : State) (a v : Nat) : State :=
  let old := (s.reg a).toNat
  let s := s.setReg a (BitVec.ofNat 32 ((old &&& (0xFFFFFFFF ^^^ fwMask a)) ||| (v &&& fwMask a)))
  if a = 0x40130014 then kick s
  else if 0x401200A0 ≤ a ∧ a < 0x401200B4 then icEnd s ((a - 0x401200A0) / 4) (v % 128) else s

/-- Words written to table memory and register windows: RO (FW) fields by a core, the rest as any write is judged. -/
def busWords (s : State) (m : Nat) (ws : List (Nat × Nat)) : State :=
  let own (w : Nat × Nat) : Bool := Nat.blt m 5 && fwMask w.1 != 0
  (writeWords (forList (ws.filter own) (fun w s => fwWrite s w.1 w.2) s) (ws.filter fun w => !own w)).1

/-- Bytes written to working SRAM.
DESIGN CHOICE, unsafe (notes/assumptions/10). -/
def sramPut (s : State) (off : Nat) : List Byte → State
  | [] => s
  | b :: bs => sramPut { s with bm.sram := SMap.set byteDflt s.bm.sram off b } (off + 1) bs

/-- One word written at a memory or a register. -/
def busWrite (s : State) (m : Nat) (ws : List (Nat × Nat)) : State :=
  let place (w : Nat × Nat) : Option MemAt := memAt s w.1
  let s := forList (ws.filter fun w => (place w).isSome) (fun w s =>
    match memAt s w.1 with
    | some (.sram off) => eccWritten (sramPut s off (toLE 4 w.2)) w.1
    | some (.pool off) => forN 4 (fun i s => poolPut s (off + i) (BitVec.ofNat 8 (w.2 / 2 ^ (8 * i)))) s
    | _ => s) s
  busWords s m (ws.filter fun w => (place w).isNone)

/-- The checks that a burst's reads make, one for each 64-bit word, or each word of the store; whether one of working SRAM
is uncorrectable.
DEDUCED, unsafe (notes/assumptions/84). -/
def busChecks (t : Nat) : List Nat → State × Bool → State × Bool
  | [], r => r
  | a :: as, (s, bad) =>
    if t < 4 ∧ a % 8 ≠ 0 then busChecks t as (s, bad)
    else
      let c := readCheck s a
      busChecks t as (c.1, bad || (c.2 && t == 1))

/-- A granted request takes effect: its words are written, or read with their checks; a core that reads an uncorrectable
word of working SRAM fails (R623, R667).
DEDUCED, unsafe (notes/assumptions/83). -/
def busEffect (s : State) (t : Nat) (r : BusReq) : State :=
  match r.data with
  | some ws => busWrite s r.m ((reqWords t r).zip (ws.map fun w => w.toNat))
  | none =>
    let c := busChecks t (reqWords t r) (s, false)
    if c.2 && Nat.blt r.m 5 then coreFail c.1 r.m 3 else c.1

/-! ### Arbitration (R630–R634) -/

def busBusy (s : State) (t : Nat) : Nat := SMap.get zeroDflt s.bm.busy t
def busLost (s : State) (t m : Nat) : Nat := SMap.get zeroDflt s.bm.lost (8 * t + m)

/-- BM_PRIO[T] and BM_PARK nibbles. -/
def busPrio (s : State) (t m : Nat) : Nat := bitsOf (s.reg (F.BM_PRIO_T0.base + 4 * t)).toNat (4 * m) 4
def busParked (s : State) (t : Nat) : Nat := bitsOf (s.get F.BM_PARK) (4 * t) 4

/-- A request to target T is held back (R634, R658).
DEDUCED, unsafe (notes/assumptions/83). -/
def busHeldBack (s : State) (t : Nat) (r : BusReq) : Bool :=
  !r.room || s.bm.out.any fun x => x.m == r.m.val && x.id == r.id.toNat && x.target != t

/-- A request waits for its master's share, or for the matrix as a whole (R633). -/
def busFull (s : State) (r : BusReq) : Bool :=
  Nat.ble (busShare r.m) (s.bm.out.filter fun x => x.m == r.m.val).length || Nat.ble 256 s.bm.out.length

/-- BM_OUTST shows the transactions outstanding. -/
def showOut (s : State) : State :=
  let n := s.bm.out.length
  (s.put F.BM_OUTST_NOW n).put F.BM_OUTST_PEAK (max n (s.get F.BM_OUTST_PEAK))

/-- Request r granted at target T.
DEDUCED, unsafe (notes/assumptions/83). -/
def busGrant (s : State) (t : Nat) (r : BusReq) : State :=
  let x : BusTx := { m := r.m, id := r.id.toNat, target := t, left := busLatency t + reqBeats r }
  let s : State := { s with
    bm.out := s.bm.out ++ [x]
    bm.last := SMap.set zeroDflt s.bm.last t (r.m + 1)
    bm.lost := SMap.set zeroDflt s.bm.lost (8 * t + r.m) 0
    bm.busy := SMap.set zeroDflt s.bm.busy t (reqBeats r) }
  busEffect (showOut s) t r

/-- The oldest request of every master that waits for target T. -/
def contenders (s : State) (t : Nat) : List BusReq :=
  (List.range 8).filterMap fun m =>
    match s.bm.waiting.find? fun r => r.m.val == m && busTarget s r.addr.toNat == some t with
    | some r => if busHeldBack s t r || busFull s r then none else some r
    | none => none

/-- The request that wins target T: of a master that has lost 32 arbitrations, else of the highest priority; among equals
the next after the master last granted. -/
def busWinner (s : State) (t : Nat) (rs : List BusReq) : Option BusReq :=
  let starved := rs.filter fun r => Nat.ble 32 (busLost s t r.m)
  let top := rs.foldl (fun n r => max n (busPrio s t r.m)) 0
  let pool := if starved.isEmpty then rs.filter fun r => busPrio s t r.m == top else starved
  let from_ := SMap.get zeroDflt s.bm.last t
  ((List.range 8).map fun i => (from_ + i) % 8).findSome? fun m => pool.find? fun r => r.m.val == m

/-- One arbitration at target T. -/
def arbitrate (s : State) (t : Nat) : State :=
  if busBusy s t ≠ 0 then s
  else
    let rs := contenders s t
    match busWinner s t rs with
    | none => s
    | some w =>
      let s := forList (rs.filter fun r => r.m != w.m) (fun r s =>
        { s with bm.lost := SMap.set zeroDflt s.bm.lost (8 * t + r.m) (busLost s t r.m + 1) }) s
      let i := s.bm.waiting.findIdx fun r => r == w
      busGrant { s with bm.waiting := s.bm.waiting.eraseIdx i } t w

/-- `n` cycles of the transactions outstanding and of the bursts that hold a target. -/
def busDrain (n : Nat) (s : State) : State :=
  if s.bm.out.isEmpty && s.bm.busy.isEmpty then s
  else
    showOut { s with
      bm.out := (s.bm.out.filter fun x => Nat.blt n x.left).map fun x => { x with left := x.left - n }
      bm.busy := SMap.mapVals zeroDflt (fun _ k => k - n) s.bm.busy }

/-- Parking at target T in the cycle that ends (R631, R657): an idle target grants the request made in it by the master that
its BM_PARK nibble names, when no other master requests the target.
DEDUCED, unsafe (notes/assumptions/83). -/
def parkGrant (s : State) (t : Nat) : State :=
  let mine (r : BusReq) : Bool := busTarget s r.addr.toNat == some t
  let rs := s.bm.waiting.filter mine
  let i := s.bm.waiting.findIdx mine
  match rs with
  | [] => s
  | r :: _ =>
    if busBusy s t == 0 && (rs.all fun x => x.m.val == busParked s t) && Nat.ble s.bm.waiting.length (i + s.bm.asked) &&
        !busHeldBack s t r && !busFull s r then
      busGrant { s with bm.waiting := s.bm.waiting.eraseIdx i, bm.asked := s.bm.asked - 1 } t r
    else s

/-- One cycle of the matrix ends and the next begins: parked masters are granted in the one that ends; a request that REMAP
has left without an address or a path fails, each idle target takes a request, and a cycle in which one is held back
counts. -/
def busCycle (s : State) : State :=
  let s := forN 7 (fun t s => parkGrant s t) s
  let s := busDrain 1 { s with bm.asked := 0 }
  let bad := s.bm.waiting.filter fun r => (busFault s r).isSome
  let s := forList bad (fun r s => match busFault s r with
    | some t => busError s r t
    | none => s) { s with bm.waiting := s.bm.waiting.filter fun r => (busFault s r).isNone }
  let held := s.bm.waiting.any fun r => match busTarget s r.addr.toNat with
    | some t => busHeldBack s t r
    | none => false
  let s := if held then s.bumpSat F.BM_HOLD_CNT else s
  forN 7 (fun t s => arbitrate s t) s

/-- A request reaches the matrix: it fails, or waits for its grant. The request that a master makes again with room found
ends its hold-back (R634). -/
def busOffer (s : State) (r : BusReq) : State :=
  match busFault s r with
  | some t => busError s r t
  | none =>
    if r.room && s.bm.waiting.contains { r with room := false } then
      { s with bm.waiting := s.bm.waiting.map fun w => if w = { r with room := false } then r else w }
    else { s with bm.waiting := s.bm.waiting ++ [r], bm.asked := s.bm.asked + 1 }

/-- BUS_REQUEST (R630, R631): the request is granted or held back as the cycles go on; a core that the matrix has isolated is not granted (R625). -/
def execBusRequest (r : BusReq) (s : State) : Host.Outcome State Fault Refusal :=
  act s (if Nat.blt r.m 5 && !coreRuns s r.m then s
  else forList (splitReq s r) (fun r s => busOffer s r) s)

/-- REMAP (R635): a bench core writes BM_CTRL.REMAP. -/
def execRemap (on : Bool) (s : State) : Host.Outcome State Fault Refusal :=
  act s (s.put F.BM_CTRL_REMAP (b2n on))

end Sys2Proof.Machine
end

