-- ==== Sys2Proof/Machine/Time.lean ====
section
/-!
DEFINITION. Machine/Time.lean: FCLK cycles that pass, with everything that counts them, and the events that such a count
brings: second boundaries, timers, ALIVE, the kick, hold-offs.
-/
namespace Sys2Proof.Machine

/-! ### Cycles -/

/-- Cycles to the next end of one of client c's pause times; `n` where none ends within them. -/
def clQuiet (s : State) (c n : Nat) : Nat :=
  let h := halfBits s c
  let x := s.clientX c
  [x.pauseLeft, x.refresh, x.lineLeft].foldl (fun m v => if v = 0 then m else min m ((v + h - 1) / h - 1)) n

/-- `n` cycles of client c (R419): a cycle in which something may end, then the quiet ones up to the next. -/
def clPass (c : Nat) : Nat → Nat → State → State
  | 0, _, s => s
  | fuel + 1, n, s =>
    if n = 0 then s
    else
      let s := clCycle s c
      let m := clQuiet s c (n - 1)
      let h := halfBits s c
      let x := s.clientX c
      let s := if (x.pauseLeft = 0 ∧ x.refresh = 0 ∧ x.lineLeft = 0) ∨ m = 0 then s
        else s.modClient c fun x => { x with
          pauseLeft := x.pauseLeft - m * h, refresh := x.refresh - m * h, lineLeft := x.lineLeft - m * h }
      clPass c fuel (n - 1 - m) s

/-- `n` cycles in which the matrix arbitrates nothing, or one. -/
def busSpan (n : Nat) (s : State) : State := if s.bm.waiting.isEmpty then busDrain n s else busCycle s

/-- `n` cycles that no wait of the matrix falls within, and no loss of the kick but in the first of them, in which held writes go on
(R400). -/
def passSpan (n : Nat) (s : State) : State :=
  let s := todPass (n + 1) n (qmPumpAll (kickDue s))
  let s := forN 4 (fun c s => clPass c (n + 1) n s) s
  let s := busSpan n (icPass (n + 1) n (kickPass n s))
  { s with cyc := s.cyc + n }

/-- DESIGN CHOICE, unsafe (notes/assumptions/2). -/
def passTime : Nat → Nat → State → State
  | 0, _, s => s
  | fuel + 1, n, s =>
    if n = 0 then s
    else
      let m := if !s.bm.waiting.isEmpty then 1
        else
          match toKickLost s with
          | some d => max 1 (min d n)
          | none => n
      passTime fuel (n - m) (passSpan m s)

/-- `n` FCLK cycles pass: with the first cycle of a local frame, the words that the frame works by are taken (R330, R373).
DESIGN CHOICE, unsafe (notes/assumptions/2). DEDUCED, unsafe (notes/assumptions/111). -/
def pass (n : Nat) (s : State) : State :=
  if s.chip.held || n == 0 then s else passTime n n (if s.inFrame = 0 then takeSnap s else s)

/-- One idle cycle of FCLK.
DESIGN CHOICE, unsafe (notes/assumptions/1). -/
def idle (s : State) : State := settle (pass 1 s)

/-! ### Events of a count -/

/-- FCLK cycles left of the local frame in progress. -/
def frameLeft (s : State) : Nat := frameCycles - s.inFrame

/-- An event that falls due `d` cycles from now, when it does so within the local frame in progress.
DESIGN CHOICE, safe (notes/assumptions/3). -/
def reach (s : State) (d : Option Nat) : State :=
  match d with
  | some d => if Nat.ble d (frameLeft s) then pass d s else s
  | none => s

/-- How many cycles pass before one of which `hit` says that the event falls in it, that one included. -/
def cyclesUntil (hit : State → State → Bool) : Nat → Nat → State → Option Nat
  | 0, _, _ => none
  | fuel + 1, n, s =>
    let t := todPass 2 1 s
    if hit s t then some (n + 1) else cyclesUntil hit fuel (n + 1) t

/-- SECOND_BOUNDARY (R551, R554).
DESIGN CHOICE, safe (notes/assumptions/3). -/
def execSecondBoundary (s : State) : Host.Outcome State Fault Refusal := act s (reach s (some (toBoundary s)))

/-- ADJ_DONE (R553).
DESIGN CHOICE, safe (notes/assumptions/3). -/
def execAdjDone (s : State) : Host.Outcome State Fault Refusal :=
  act s (reach s (if s.tod.adj = 0 ∨ tdSlew s = 0 then none else some (toAdjDone s)))

/-- TIMER_MATCH (R568, R569): timer k's counter crosses compare c.
DESIGN CHOICE, safe (notes/assumptions/3). -/
def execTimerMatch (k : Fin 8) (c : Fin 4) (s : State) : Host.Outcome State Fault Refusal :=
  act s (reach s (cyclesUntil (fun s t => tmHit s k (tmCount s k) (tmCount t k) c) (frameLeft s) 0 s))

/-- TIMER_OVERFLOW (R568): timer k's counter wraps forward.
DESIGN CHOICE, safe (notes/assumptions/3). -/
def execTimerOverflow (k : Fin 8) (s : State) : Host.Outcome State Fault Refusal :=
  act s (reach s (cyclesUntil (fun s t => tmWraps s k (tmCount s k) (tmCount t k)) (frameLeft s) 0 s))

/-- FW_KICK_LOST (R674): the cycle in which the kick expires, and none comes in it.
DESIGN CHOICE, safe (notes/assumptions/3). -/
def execFwKickLost (s : State) : Host.Outcome State Fault Refusal := act s (kickDue (reach s (toKickLost s)))

/-- Cycles in which `left` half bit times of client c's line pass. -/
def clCycles (s : State) (c left : Nat) : Option Nat :=
  if left = 0 then none else some ((left + halfBits s c - 1) / halfBits s c)

/-- PAUSE_EXPIRY (R419).
DESIGN CHOICE, safe (notes/assumptions/3). -/
def execPauseExpiry (c : Fin 4) (s : State) : Host.Outcome State Fault Refusal :=
  act s (reach s (clCycles s c (s.clientX c).pauseLeft))

/-- PAUSE_REFRESH (R419): half the pause time has passed.
DESIGN CHOICE, safe (notes/assumptions/3). -/
def execPauseRefresh (c : Fin 4) (s : State) : Host.Outcome State Fault Refusal :=
  act s (reach s (clCycles s c (s.clientX c).refresh))

/-- ALIVE_TOGGLE (R675).
DESIGN CHOICE, safe (notes/assumptions/3). -/
def execAliveToggle (s : State) : Host.Outcome State Fault Refusal :=
  act s (reach s (if s.fa.alive = .toggling then some s.fa.aliveLeft else none))

/-- HOLDOFF_END (R640): of group y.
DESIGN CHOICE, safe (notes/assumptions/3). -/
def execHoldoffEnd (y : Fin 12) (s : State) : Host.Outcome State Fault Refusal :=
  act s (reach s (if holding s y = 0 then none else some (holding s y)))

end Sys2Proof.Machine
end

