-- ==== Sys2Proof/Machine/Frame.lean ====
section
/-!
DEFINITION. Machine/Frame.lean: the frames: a local frame start and the tick that begins with it, the assembly of a
transmit frame, and a received frame (chapters 1, 8 and 9).
-/
namespace Sys2Proof.Machine

/-! ### A local frame start (R302, R307, Table 1.4) -/

/-- Code units that a row brings to port p: its receive coding layer takes them, and block DM counts the violations (R247). -/
def unitsReceived (s : State) (p : Nat) (us : List CodeUnit) : State :=
  let r := codeIn s p us
  if r.2 = 0 then r.1 else pmCv r.1 p r.2

/-- What ends with the tick in progress: evaluations, releases and waits that no command has carried out.
DEDUCED, unsafe (notes/assumptions/89). -/
def tickEnd (s : State) (i : FrameIn) : State :=
  let s := innerPending (remoteExpire (tdTickEnd (tgTickEnd (psTickEnd (qmTickEnd (grDue (mergeDue (feFrameEnd (autoAckAll s)) frameCycles) frameCycles))))))
  forN 16 (fun p s =>
    let o := i.obs.getD p {}
    let s := unitsReceived (prbsIn s p o.groups) p o.units
    lpTickEnd (lpObserve (if portRunning s p then pmCv s p o.codeViol else s) p o) p) s

/-- The blocks at the tick that begins, in an order in which each sees what the ones before it have found.
DEDUCED, unsafe (notes/assumptions/89). -/
def tickBegin (s : State) (i : FrameIn) : State :=
  let s := forN 16 (fun p s => lfSample s p) s
  let s := forN 16 (fun p s => lpTick s p) (numTick s)
  let s := forList s.liveTribs (fun t s => staleTick s t) s
  psTick (tgTick (dmTick (qmTick s)) i)

/-- The timers whose source is the local frame start count (R567). -/
def tmFrame (s : State) : State :=
  forN 8 (fun k s => if tmEn s k && tmSrc s k == 2 then tmCountOne s k else s) s

/-- The on-die sensor's reading in 0.001 °C, and TEMP_HIGH while it is 115 °C or more (R71, R606). -/
def dieReading (s : State) (t : Int) : State :=
  let s := s.put F.FE_DIE_TEMP (ofSigned 32 t)
  if 115000 ≤ t then
    let tenths := (t / 100).toNat
    raiseLevel { s with chip.hot := some tenths } 16 tenths
  else if s.chip.hot.isSome then endLevel { s with chip.hot := none } 16
  else s

/-- A local frame starts: the rest of the frame in progress passes, the number and LF_FRAME_TOTAL advance, veneers due
apply, and a slow-machine tick begins.
DESIGN CHOICE, unsafe (notes/assumptions/2). DESIGN CHOICE, safe (notes/assumptions/43). -/
def localFrame (s : State) (i : FrameIn) : State :=
  let s := autoAckBegin (tickEnd (pass (frameLeft s) s) i)
  let jumped := s.nextFrameNum != nextNum s.frameNum
  let s := advanceFrame { s with tod.frameAt := s.tod.frameAt + frameCycles }
  let s := veneersAt (pmFrame s s.frameNum.2) s.frameNum
  let s := dieReading (pairTick s i.pairs) i.dieTemp
  let s := tickBegin (refreshSplValid (mapErrTurn s)) i
  let s := forN 8 (fun f s => feFrame s f jumped) s
  let s := tdTick (faTick (grFollow (grTick (sliceFrame s))))
  remoteTick (tmFrame s)

/-- LOCAL_FRAME_START (R302). -/
def execLocalFrameStart (i : FrameIn) (s : State) : Host.Outcome State Fault Refusal :=
  act s (localFrame s i)

/-! ### Credit entries (R295, R483, R485, R488) -/

/-- An entry put in its place by SLOT. -/
def putEntry (e : Nat × Nat × Nat) : List (Nat × Nat × Nat) → List (Nat × Nat × Nat)
  | [] => [e]
  | x :: xs => if e.1 ≤ x.1 then e :: x :: xs else x :: putEntry e xs

/-- The entries that transmit port p may send, in increasing order of SLOT: those for what its receive port carries, as the
group that holds it moves them.
DEDUCED, unsafe (notes/assumptions/59). -/
def portCredits (s : State) (p : Nat) : List (Nat × Nat × Nat) :=
  match groupOf s p with
  | none => creditList s p
  | some u =>
    let x := sideOf s u p
    let q := sidePort s u (1 - x)
    let switched := psState s u == 1
    match psKind s u with
      | 3 => if x = 0 then (if switched then [] else creditList s p) else if switched then creditList s q else []
      | 2 =>
        let ws := s.psCfg F.PS_RWORK_WS u
        let n := s.psCfg F.PS_RWORK_N u
        let psl := s.psCfg F.PS_RPROT_PSL u
        let within (lo : Nat) (e : Nat × Nat × Nat) : Bool := Nat.ble lo e.1 && Nat.blt e.1 (lo + n)
        let own := (creditList s p).filter fun e => !within psl e
        let own := if switched && s.get F.PS_GSTAT_SW_SIDE u == x then own.filter fun e => !within ws e else own
        let moved : List (Nat × Nat × Nat) :=
          if switched && s.get F.PS_GSTAT_SW_SIDE u != x then
            ((creditList s q).filter fun e => within ws e).map fun e => (e.1 + psl - ws, e.2.1, e.2.2)
          else if psState s u = 2 then (s.portX q).credPass.map fun e => (e.1, 256, e.2)
          else []
        moved.foldl (fun l e => putEntry e l) own
      | _ => creditList s p

/-- A credit entry received on port p. -/
def creditEntry (s : State) (p slot cc : Nat) : State :=
  match groupOf s p with
  | none => creditTake s p slot cc
  | some u =>
    let x := sideOf s u p
    let q := sidePort s u (1 - x)
    let switched := psState s u == 1
    match psKind s u with
      | 3 => if x = 0 then creditTake s p slot cc else if switched then creditTake s q slot cc else s
      | 2 =>
        let ws := s.psCfg F.PS_RWORK_WS u
        let n := s.psCfg F.PS_RWORK_N u
        let psl := s.psCfg F.PS_RPROT_PSL u
        if slot < psl ∨ psl + n ≤ slot then creditTake s p slot cc
        else if switched && s.get F.PS_GSTAT_SW_SIDE u != x then creditTake s q (slot + ws - psl) cc
        else if psState s u = 2 then
          s.modPort p fun x => { x with credPass := (x.credPass.filter fun e => e.1 != slot) ++ [(slot, cc)] }
        else s
      | _ => creditTake s p slot cc

/-- Words 24–27 of a received frame: the first entry, then the second (R316).
DEDUCED, unsafe (notes/assumptions/59). -/
def creditsIn (s : State) (p : Nat) (ws : List LineWord) : State :=
  let passing := match groupOf s p with
    | some u => psState s u == 2
    | none => false
  let s := if passing then s else s.modPort p fun x => { x with credPass := [] }
  forN 2 (fun k s =>
    let w := wordAt ws (24 + 2 * k)
    if bitOf w 15 then creditEntry s p (w % 2 ^ 13) (wordAt ws (25 + 2 * k)) else s) s

/-! ### A received frame (R297, R298, R329, R332) -/

/-- The runs that a plan takes of those within the port's payload, and whether some reach beyond it (R357). -/
def planRuns (pl : RxPlan) (limit : Nat) (runs : List Run) : List Run × Bool :=
  let fit := fitRuns limit runs
  (cutRuns fit pl.lo pl.hi pl.lo, fit.length != runs.length)

/-- Whether the copy being received on port p is whole: CDR_LOCK and SIG_DET, and a correct alignment (R480). -/
def copyGood (s : State) (p : Nat) (start : Bool) (ws : List LineWord) : Bool :=
  aligned start ws && s.on F.LP_STATUS_CDR_LOCK p && s.on F.LP_STATUS_SIG_DET p

/-- Tributary t of a frame received on port p and demapped as on port `as`: its check word judged (R337), into the deskew buffer when
it is merged, otherwise a copy of its own, and its words to a queue. -/
def tribReceive (s : State) (p as t : Nat) (good : Bool) (slots : List (Nat × List LineWord)) : State :=
  let x := s.portX p
  let c := makeCopy s t x.rxAt (portRate s p) slots
  let s := noteCheck (copyChecked s t slots) t c
  match merging s t, x.label with
  | some u, some l => deskewTake s t (sideOf s u as) p l c good
  | some _, none => s
  | none, _ =>
    let s := takeCopy s t c
    if 2 ≤ s.tribType t then qmDemap s t (slots.flatMap fun e => e.2) else s

/-- The tributaries in the working range of port p, when its RING group has switched at the side `here` says. -/
def workingTribs (s : State) (p : Nat) (here : Bool) : List Nat :=
  match ringOf s p with
  | some (u, ws, n, _) =>
    let x := sideOf s u p
    let at_ := if here then x else 1 - x
    if psState s u = 1 ∧ s.get F.PS_GSTAT_SW_SIDE u = at_ then
      tribsOf (cutRuns (usedRuns s (sidePort s u at_)) ws (ws + n) ws)
    else []
  | none => []

/-- The tributaries that a frame received on port p as on port `as` should bring, and does not, are not received (R332). A
ring that has switched brings the working range of one port on the other. -/
def missOthers (s : State) (p as : Nat) (got : List Nat) : State :=
  let away := workingTribs s p true
  let due := ((tribsFrom s as).filter fun t => !away.contains t) ++ workingTribs s p false
  forList due (fun t s =>
    if got.contains t || (merging s t).isSome then s else missCopy s t (s.portX p).rxAt (portRate s p)) s

/-- A frame in SYNC demapped by one plan, with the buffer that its word 28 chooses. The list names what it brought.
DEDUCED, unsafe (notes/assumptions/58). -/
def demapPlan (s : State) (p : Nat) (good : Bool) (pl : RxPlan) : State × List Nat :=
  let x := s.portX p
  let v := wordAt x.rxWords 28 % 256
  let ring := pl.shift != 100000
  let c := if ring then (s, rxBuffer s pl.as v) else chooseRxBuffer s pl.as v
  let s := c.1
  match c.2 with
  | none => ((if ring then s else mapErr s F.XC_RX_STAT_MAP_ERR pl.as [] false), [])
  | some buf =>
    let m := mapRuns s pl.as 1 buf
    let s := m.1
    let limit := min (slotsPerFrame (portRate s p)) (slotsPerFrame (portRate s pl.as))
    let r := planRuns pl limit m.2.1
    let named := tribsOf r.1
    let fits := named.filter fun t => rxAdmits s pl.as t
    let bad := named.filter fun t => !rxAdmits s pl.as t || Nat.blt (s.tribWidth t) (namedBy r.1 t)
    let s := mapErr s F.XC_RX_STAT_MAP_ERR pl.as bad (!bad.isEmpty || r.2 || m.2.2)
    let word (k : Nat) : Option (Nat × List LineWord) :=
      let slot := k + pl.shift - 100000
      some (slot, frameSlot x.rxWords slot)
    (forList fits (fun t s => tribReceive s p pl.as t good (gather r.1 t (s.tribWidth t) word)) s, fits)

/-- Every plan of a frame received in SYNC on port p. -/
def demapFrame (s : State) (p : Nat) (good : Bool) : State :=
  let plans := rxPlans s p
  let r := plans.foldl (fun (r : State × List Nat) pl =>
    let d := demapPlan r.1 p good pl
    (d.1, r.2 ++ d.2)) (s, [])
  match plans.find? (fun pl => pl.shift == 100000) with
  | some pl => missOthers r.1 p pl.as r.2
  | none => r.1

/-- A frame at its expected position on port p, its word 0 taken `phase` FCLK after the local frame start.
DEDUCED, safe (notes/assumptions/46). -/
def frameReceived (s : State) (p : Nat) (start : Bool) (ws : List LineWord) (phase : Nat) : State :=
  let last := (s.portX p).lastPhase
  let bip := bipCompare s p ws
  let s := lfReceive s p start ws phase
  if !portInSync s p then s
  else
    let s := s.modPort p fun x => { x with
      reiAcc := min 16 (x.reiAcc + bip.getD 0), rxBip := some (bipOf (portRate s p) ws), lastPhase := some phase }
    let s := rxSlip (dmFrame s p ws bip) p last.isSome (last.getD 0) phase
    demapFrame (creditsIn s p ws) p (copyGood s p start ws)

/-- CODE_SYNC_GAINED (R247): the code units at which the synchronisation machine gains sync. -/
def execCodeSyncGained (p : Fin 16) (units : List CodeUnit) (s : State) : Host.Outcome State Fault Refusal :=
  act s (unitsReceived s p units)

/-- SYNC_LOST (R247): the code units at which the synchronisation machine loses sync. -/
def execSyncLost (p : Fin 16) (units : List CodeUnit) (s : State) : Host.Outcome State Fault Refusal :=
  act s (unitsReceived s p units)

/-- HI_BER_CHANGE (R247): the code units whose sync headers move HI_BER. -/
def execHiBerChange (p : Fin 16) (units : List CodeUnit) (s : State) : Host.Outcome State Fault Refusal :=
  act s (unitsReceived s p units)

/-- A received frame as the receiver delivers it (R283), with what taking it in does to the coding layer: in near-end loopback the
frame that the port sends, and in far-end loopback it is sent back (R259). -/
def frameIn (s : State) (p : Nat) (f : LineIn) : State × Bool × List LineWord :=
  let rate := portRate s p
  let near := s.get F.LP_CTRL_LOOPBACK p == 1
  match (if near then LineIn.units [] else f) with
  | .words start ws =>
    let us := if s.get F.LP_CTRL_LOOPBACK p = 2 then (sendUnits rate (s.portX p).rxCode.lane (ws.map fun w => w.toNat)).1 else []
    (if us.isEmpty then s else loopedBack s p us, start, ws)
  | .units us =>
    let got := unitsIn s p us
    let d := (takeUnits rate (s.portX p).rxCode.lane got).1
    let s := loopedBack (unitsReceived s p us) p got
    (s, d.start, d.words.map fun w => BitVec.ofNat 16 w)

/-- RECEIVED_FRAME (R297): a frame reaches the expected position of port p, with its phase. Outside the finder's search, or with other
than the frame's number of words, nothing reaches it.
DEDUCED, safe (notes/assumptions/46). -/
def execReceivedFrame (p : Fin 16) (frame : LineIn) (phase : Fin 12800) (s : State) : Host.Outcome State Fault Refusal :=
  let r := frameIn s p frame
  act s (if !finderRuns r.1 p || r.1.get F.LF_PSTATUS_FSTATE p == 0 || r.2.2.length != wordsPerFrame (portRate s p) then r.1
    else frameReceived r.1 p r.2.1 r.2.2 phase)

/-! ### A transmit frame: payload (R328, R330, R331) -/

/-- A run put in its place by its first slot. -/
def putRun (r : Run) : List Run → List Run
  | [] => [r]
  | x :: xs => if r.first ≤ x.first then r :: x :: xs else x :: putRun r xs

/-- A slot put in its place. -/
def putSlot (e : Nat × List LineWord) : List (Nat × List LineWord) → List (Nat × List LineWord)
  | [] => [e]
  | x :: xs => if e.1 ≤ x.1 then e :: x :: xs else x :: putSlot e xs

/-- The words of the locally sourced tributaries that the runs name, and the values that they are made of. -/
def txLocals (s : State) (p b t0 : Nat) (runs : List Run) : State × List (Nat × List LineWord) × List (Nat × List MadeT) :=
  (tribsOf runs).foldl (fun (r : State × List (Nat × List LineWord) × List (Nat × List MadeT)) t =>
    match r.1.tribKind t with
    | 2 | 3 =>
      let ms := grMades r.1 t
      (r.1, r.2.1 ++ [(t, localWords r.1 p t b t0 runs ms)], r.2.2 ++ [(t, ms)])
    | 4 =>
      let ms := feMades r.1 (r.1.tribIndex t)
      (r.1, r.2.1 ++ [(t, localWords r.1 p t b t0 runs ms)], r.2.2 ++ [(t, ms)])
    | 5 =>
      let q := qmSend r.1 t
      (q.1, r.2.1 ++ [(t, q.2)], r.2.2)
    | _ => r) (s, [], [])

/-- The port whose frames bring slot j of tributary t, received by port p: the other port of its group where a linear switch or a ring
wrap stands in for p (R485, R488).
DEDUCED, unsafe (notes/assumptions/58). -/
def feedPort (s : State) (p t j : Nat) : Nat :=
  match groupOf s p with
  | none => p
  | some u =>
    let q := sidePort s u (1 - sideOf s u p)
    if psState s u != 1 then p
    else match psKind s u with
      | 3 => if sideOf s u p = 0 then q else p
      | 2 =>
        let ws := s.psCfg F.PS_RWORK_WS u
        let m := slotNaming (usedRuns s p) t j
        if s.get F.PS_GSTAT_SW_SIDE u = sideOf s u p ∧ ws ≤ m ∧ m < ws + s.psCfg F.PS_RWORK_N u then q else p
      | _ => p

/-- Slot j of a received tributary carries the consequent-action pattern (R43, R446). A merged tributary has no single port. -/
def tribAis (s : State) (t j : Nat) : Bool :=
  s.tribKind t == 1 && (merging s t).isNone && aisDue s (feedPort s (s.tribIndex t) t j)

/-- The slots of a run while AIS_FORCE is 1 (R446). -/
def aisSlots (s : State) (r : Run) : List (Nat × List LineWord) :=
  (List.range r.count).map fun i =>
    (r.first + i,
      if r.trib < 256 ∧ r.j0 + i < s.tribWidth r.trib then slotOf (aisTrib s r.trib) (r.j0 + i) else List.replicate 4 0xFFFF)

/-- The slice that switches for transmit port p: the spare while it serves for the port's own (R33).
DEDUCED, unsafe (notes/assumptions/56). -/
def sliceOf (s : State) (p : Nat) : Nat := if s.xc.served = some (p / 2) then 8 else p / 2

/-- The words of a slot that differ from the idle pattern, counted in the shadow frame of the slice of port p: there the serving slice lost
them, and the other computes them (R346).
DEDUCED, unsafe (notes/assumptions/56). -/
def lostInShadow (p : Nat) (idle : LineWord) (ws : List LineWord) (s : State) : State :=
  if s.xc.shadowing && s.get F.XC_SLICE_STAT_TARGET == p / 2 then
    { s with xc.shadowDiff := s.xc.shadowDiff + (ws.filter fun w => w != idle).length }
  else s

/-- Slice parity over the words switched into listed slots (Table 18.5): each failing word raises XC_SLICE_ERR, and its slot
carries the idle pattern (R668).
DEDUCED, unsafe (notes/assumptions/56). -/
def sliceCheck (p : Nat) (idle : LineWord) : List (Nat × List LineWord) → State → State × List (Nat × List LineWord)
  | [], s => (s, [])
  | e :: es, s =>
    let hits := min (s.get F.FA_JIG_LEFT 7) 4
    if hits = 0 then (s, e :: es)
    else
      let s := forN hits (fun _ s => raise (jigUse s 7) 8 (sliceOf s p) true) (lostInShadow p idle e.2 s)
      let r := sliceCheck p idle es s
      (r.1, (e.1, List.replicate 4 idle) :: r.2)

/-- The payload of the frame of port p that begins at `t0`, class b, with the buffer whose version goes into word 28. -/
def txPayload (s : State) (p b t0 : Nat) : State × List LineWord :=
  let plan := txPlan s p
  let buf := activeBuf s plan.src
  let idle : LineWord := BitVec.ofNat 16 (s.get F.XC_IDLE_PATTERN)
  let own := slotsPerFrame b
  if !plan.filled then
    let s := mapErr s F.XC_TX_STAT_MAP_ERR p [] false
    let s := s.put F.XC_TX_STAT_SENT_VER (s.drawn.toNat % 256) p
    if s.on F.DM_PCFG_AIS_FORCE p then (s.draw, List.replicate (4 * own) 0xFFFF) else (s.draw, List.replicate (4 * own) idle)
  else
    let m := mapRuns s plan.src 0 buf
    let s := m.1
    let other := match ringOf s p with
      | some (u, _) => plainRuns s (sidePort s u (1 - sideOf s u p)) 0 (activeBuf s (sidePort s u (1 - sideOf s u p)))
      | none => []
    let runs := (ringTxRuns s p (fitRuns plan.limit m.2.1) (fitRuns plan.limit other)).foldl (fun l r => putRun r l) []
    let bad := txMapBad s m.2.1 plan.limit
    let s := mapErr s F.XC_TX_STAT_MAP_ERR p bad.1 (bad.2 || m.2.2)
    let s := s.put F.XC_TX_STAT_SENT_VER (txVersion s plan.src buf) p
    if s.on F.DM_PCFG_AIS_FORCE p then (s, layOut 0xFFFF own 0 (runs.flatMap fun r => aisSlots s r))
    else
      let l := txLocals s p b t0 runs
      let s := l.1
      let slots := runs.flatMap fun r => runSlots s p b t0 (tribAis s) l.2.1 r
      let through := passSlots s p b t0
      let slots := through.foldl (fun l e => putSlot e l) slots
      let s := noteCarried s p b t0 (runs.filter fun r => !tribAis s r.trib (s.tribWidth r.trib - 1)) l.2.2
      let c := sliceCheck p idle slots s
      (c.1, layOut idle own 0 c.2)

/-! ### A transmit frame: overhead (Table 8.2) -/

/-- The next message to send on port p begins, when none is in progress. -/
def mcStart (s : State) (p : Nat) : State :=
  let x := s.portX p
  match x.mcTx, x.mcOut with
  | none, m :: rest => s.modPort p fun x => { x with mcTx := some (m.ty, 0, m.bytes), mcRef := m.ref, mcOut := rest }
  | _, _ => s

/-- The REMOTE whose inner command's last chunk leaves is sent (R152, R294). -/
def markSent (ref : Option Nat) (ws : List RemoteWait) : List RemoteWait :=
  ws.map fun w => if ref = some w.id then { w with sent := true } else w

/-- Words 16–23: the chunk that port p sends, or the idle header (R292, R293). -/
def mcWords (s : State) (p : Nat) : State × List LineWord :=
  if !s.on F.LF_PCTRL_MC_EN p then (s, List.replicate 8 0)
  else
    let fresh := (s.portX p).mcTx.isNone
    let s := mcStart s p
    match (s.portX p).mcTx with
    | none => (s, List.replicate 8 0)
    | some (ty, seq, left) =>
      let data := left.take 14
      let rest := left.drop 14
      let last := rest.isEmpty
      let hdr := b2n fresh * 2 ^ 15 + b2n last * 2 ^ 14 + ty % 8 * 2 ^ 11 + seq % 16 * 2 ^ 4 + data.length
      let byte (i : Nat) : Nat := byteAt data i
      let ws := (List.range 7).map fun i => BitVec.ofNat 16 (byte (2 * i) * 256 + byte (2 * i + 1))
      let s := s.modPort p fun x => { x with mcTx := if last then none else some (ty, (seq + 1) % 16, rest) }
      let s : State := if last then { s with mp.remote := markSent (s.portX p).mcRef s.mp.remote } else s
      (s, BitVec.ofNat 16 hdr :: ws)

/-- Words 13–15 of frame M (R291): the message is made at the multiframe's first frame that the port sends. -/
def todOut (s : State) (p m phase : Nat) : State × List LineWord :=
  let first := addNum s.frameNum (-(m : Int))
  let s := if m < 4 ∧ (s.portX p).todTxOf ≠ some first then
      let ws := todWords s ((phase : Int) - (m * frameCycles : Nat))
      s.modPort p fun x => { x with todTx := ws, todTxOf := some first }
    else s
  let ws := (s.portX p).todTx
  (s, if m < 4 then (List.range 3).map fun i => BitVec.ofNat 16 (ws.getD (3 * m + i) 0) else [0, 0, 0])

/-- Words 11 and 12 of port p: those of its group, 0 outside any. -/
def protOut (s : State) (p : Nat) : Nat :=
  match groupOf s p with
  | some u => s.get F.PS_GTX u (sideOf s u p)
  | none => 0

/-- Word 7 of port p: BIP of its frame before; a transmitter that starts afresh has none, and the spec states no value.
DESIGN CHOICE, safe (notes/assumptions/48). -/
def bipOut (s : State) (p : Nat) : Nat :=
  let x := s.portX p
  (if x.txFresh then s.drawn.toNat % 2 ^ 16 else x.txBip) ^^^ b2n (x.bipInj != 0)

/-- The 32 overhead words of a frame of port p, whose word 28 carries version `ver`.
DESIGN CHOICE, safe (notes/assumptions/48). DEDUCED, safe (notes/assumptions/50). -/
def txOverhead (s : State) (p phase ver : Nat) : State × List LineWord :=
  let n := s.frameNum
  let m := n.2 % 250
  let x := s.portX p
  let word (k : Nat) : LineWord := BitVec.ofNat 16 k
  let trace := traceBytes s F.LF_TX_TRACE p
  let w6 := if m < 32 then byteAt trace (2 * m) * 256 + byteAt trace (2 * m + 1) else 0
  let w2 := if x.alignInj = 0 then 0x81C9 else 0x81C9 ^^^ 0xFFFF
  let w5 := b2n (s.get F.LF_NUM_STATUS_STATE != 1) * 2 ^ 15 + n.2
  let w7 := bipOut s p
  let w8 := b2n x.rdi * 2 ^ 15 + min 16 x.reiAcc
  let ql := portQl s p
  let prot := protOut s p
  let s := if x.txFresh then s.draw else s
  let s := s.modPort p fun x => { x with
    reiAcc := 0, alignInj := x.alignInj - 1, bipInj := x.bipInj - 1, txFresh := false }
  let s := s.put F.LF_PSTATUS_INJ_BUSY (b2n ((s.portX p).alignInj != 0 || (s.portX p).bipInj != 0)) p
  let tod := todOut s p m phase
  let mc := mcWords tod.1 p
  let cr := creditWords mc.1 p (portCredits mc.1 p)
  (cr.1, [word (startNominal (portRate s p)), 0x7E36, word w2, word (n.1 / 2 ^ 16), word n.1, word w5, word w6, word w7,
    word w8, word (ql / 2 ^ 16), word ql, word (prot / 2 ^ 16), word prot] ++ tod.2 ++ mc.2 ++ cr.2 ++ [word ver, 0, 0, 0])

/-- Port p sends frames of its own: RUNNING, without a test pattern and without far-end loopback (R256, R259), while no test-port
instruction holds traffic (R76). -/
def sendsFrames (s : State) (p : Nat) : Bool :=
  portRunning s p && s.get F.LP_PRBS_GEN p == 0 && s.get F.LP_CTRL_LOOPBACK p != 2 && !s.tapOwns

/-- The words of a frame coded and put on LTX, unless the CML transmitters do not drive (R49, R246, R255). -/
def onLine (s : State) (p rate : Nat) (ws : List LineWord) : State :=
  let c := sendUnits rate (s.portX p).txLane (ws.map fun w => w.toNat)
  let us := if s.cmlOff then [] else invertUnits (unitBits rate) (s.on F.LP_CTRL_TX_INV p) c.1
  s.modPort p fun x => { x with txWords := ws, txLane := c.2, txCode := us, txGroups := [] }

/-- The payload of the frame of port p that begins `phase` FCLK into the local frame, with what the releases, steps and evaluations still
to come in that frame will give its later slots (R34); those take effect in their own time. The maps, contexts and selects are those
of the frame's first cycle: the local frame's, or, loop timed, the one that it begins in (R330).
DEDUCED, unsafe (notes/assumptions/49). -/
def payloadAhead (s : State) (p rate phase : Nat) (loop : Bool) : State × List LineWord :=
  let look := grDue (mergeDue s frameCycles) frameCycles
  let fill (s : State) : State × List LineWord := txPayload s p rate (s.timeAt phase)
  let ahead : State := { s with xc.trib := look.xc.trib, gr := look.gr }
  let r := if loop then fill ahead else underFrame fill ahead
  ({ r.1 with xc.trib := s.xc.trib, gr := s.gr }, r.2)

/-- The transmit frame of port p that begins now, or, loop timed, `at_` FCLK into the local frame.
DEDUCED, unsafe (notes/assumptions/49). -/
def frameSent (s : State) (p at_ : Nat) : State :=
  let loop := loopTimed s p
  let phase := if loop then at_ else 0
  let s := grDue (mergeDue s phase) phase
  let s := if loop then txSlip s p phase else s.modPort p fun x => { x with txPhase := none }
  let s := s.modPort p fun x => { x with sentOf := some s.frameTotal }
  let rate := portRate s p
  let pay := payloadAhead s p rate phase loop
  let s := pay.1
  let overR := txOverhead s p phase (s.get F.XC_TX_STAT_SENT_VER p)
  let ws := overR.2 ++ pay.2
  onLine (overR.1.modPort p fun x => { x with txBip := bipOf rate ws }) p rate ws

/-- TRANSMIT_FRAME_START (R330, R331).
DEDUCED, unsafe (notes/assumptions/49). -/
def execTransmitFrameStart (p : Fin 16) (phase : Fin 12800) (s : State) : Host.Outcome State Fault Refusal :=
  act s (if sendsFrames s p then frameSent s p phase else s)

end Sys2Proof.Machine
end

