-- ==== Sys2Proof/Machine/Tap.lean ====
section
/-!
DEFINITION. Machine/Tap.lean: how the unit drives its outputs (R49, R58, R76, R77, Table 2.4), and the test port: the
controller of IEEE 1149.1, its registers and instructions (R73–R76).
-/
namespace Sys2Proof.Machine

/-! ### The outputs -/

/-- A level. -/
def Drive.ofBool (b : Bool) : Drive := if b then .high else .low

/-- How the unit's own functions drive an output once internal reset is released. -/
def ownDrive (s : State) (b : Sig) : Drive :=
  match b with
  | .ltx p _ => if portRunning s p && !s.cmlOff then .moving else .idle
  | .ctx c _ => if s.on F.CL_CFG_EN c && !s.cmlOff then .moving else .idle
  | .modTxdis p => .ofBool (s.on F.LP_STATUS_MOD_TXDIS p)
  | .timerOut k => .ofBool (timerOut s k)
  | .dowelOut => .ofBool (s.on F.CH_STATUS_DOWEL_OUT)
  | .alive => .ofBool (s.fa.alive == .toggling && s.fa.aliveLevel)
  | .irqN => if irqLow s then .low else .released
  | .clkout i _ => if s.on F.TG_CK_CFG_EN i then .moving else b.resetDrive
  | .fpout i => if s.tg.outs.getD (8 + i) 0 % 4 = 0 then .low else .moving
  | .tdo => if s.chip.tap.st = .shiftDr ∨ s.chip.tap.st = .shiftIr then .moving else .hiZ
  | .exc f _ => if s.on F.FE_CFG_EN f then .moving else .hiZ
  | _ => b.resetDrive

/-- The place of a covered ball's cell in the boundary register. -/
def cellOf (b : Sig) : Nat := boundaryBalls.findIdx fun c => c == b

/-- How the unit drives a ball: the boundary register where it owns it (R76), the reset state during internal reset (R49,
R77), else the function that owns the output. -/
def drive (s : State) (b : Sig) : Drive :=
  if s.tapOwns && b.covered then
    if b.resetDrive = .input then .input
    else if s.chip.tap.ir = .highz then .hiZ
    else .ofBool (s.chip.tap.cells.getD (cellOf b) false)
  else if s.chip.held then (if b = .tdo then ownDrive s b else b.resetDrive)
  else ownDrive s b

/-! ### The controller (IEEE 1149.1) -/

/-- The state that follows at a rising edge of TCK. -/
def TapSt.next (st : TapSt) (tms : Bool) : TapSt :=
  match st, tms with
  | .testLogicReset, true => .testLogicReset
  | .testLogicReset, false => .runTestIdle
  | .runTestIdle, false => .runTestIdle
  | .runTestIdle, true => .selectDr
  | .selectDr, false => .captureDr
  | .selectDr, true => .selectIr
  | .captureDr, false => .shiftDr
  | .captureDr, true => .exit1Dr
  | .shiftDr, false => .shiftDr
  | .shiftDr, true => .exit1Dr
  | .exit1Dr, false => .pauseDr
  | .exit1Dr, true => .updateDr
  | .pauseDr, false => .pauseDr
  | .pauseDr, true => .exit2Dr
  | .exit2Dr, false => .shiftDr
  | .exit2Dr, true => .updateDr
  | .updateDr, false => .runTestIdle
  | .updateDr, true => .selectDr
  | .selectIr, false => .captureIr
  | .selectIr, true => .testLogicReset
  | .captureIr, false => .shiftIr
  | .captureIr, true => .exit1Ir
  | .shiftIr, false => .shiftIr
  | .shiftIr, true => .exit1Ir
  | .exit1Ir, false => .pauseIr
  | .exit1Ir, true => .updateIr
  | .pauseIr, false => .pauseIr
  | .pauseIr, true => .exit2Ir
  | .exit2Ir, false => .shiftIr
  | .exit2Ir, true => .updateIr
  | .updateIr, false => .runTestIdle
  | .updateIr, true => .selectDr

/-- The registers that stand between TDI and TDO for an instruction: the boundary register, the IDCODE register, or the
bypass bit. -/
def tapBoundary : TapInstr → Bool
  | .sample | .extest | .extestPulse | .extestTrain => true
  | _ => false

/-- The instruction of a code; the codes are in the BSDL description.
DESIGN CHOICE, unsafe (notes/assumptions/94). -/
def tapOfCode (n : Nat) : TapInstr :=
  match n with
  | 0 => .idcode
  | 1 => .sample
  | 2 => .extest
  | 3 => .clamp
  | 4 => .highz
  | 5 => .extestPulse
  | 6 => .extestTrain
  | _ => .bypass

/-- The level that a cell captures: that of an output the unit holds, of a filtered or sampled input, else an open one.
DESIGN CHOICE, unsafe (notes/assumptions/94). -/
def captured (s : State) (b : Sig) (i : Nat) : Bool :=
  match drive s b with
  | .low => false
  | .high | .released => true
  | _ => (Config.freeValue (s.freeIx + i)).getLsbD 0

/-- What Capture-DR brings into the shift stage (R74, R75). -/
def tapCapture (s : State) : State :=
  let ir := s.chip.tap.ir
  if tapBoundary ir then
    let bits := (List.range boundaryLen).map fun i => captured s (boundaryBalls.getD i .gnd) i
    { s with chip.tap.dr := bits, freeIx := s.freeIx + boundaryLen }
  else if ir = .idcode then
    { s with chip.tap.dr := (List.range 32).map fun i => (s.get F.CH_ID_PART).testBit i }
  else { s with chip.tap.dr := [false] }

/-- Whether an instruction of the EXTEST class is or was in force: the unit must then go through RESET_N (R76). -/
def noteTap (s : State) : State := if s.tapOwns then { s with chip.tapUsed := true } else s

/-- One cycle of TCK: the action of the present state, then the state that follows. TDO is driven in Shift-DR and Shift-IR
only (Table 2.4).
DESIGN CHOICE, unsafe (notes/assumptions/94). -/
def tapClock (s : State) (tms tdi : Bool) : State :=
  let x := s.chip.tap
  let s := match x.st with
    | .captureDr => tapCapture s
    | .shiftDr =>
      { s with chip.tap := { x with dr := x.dr.drop 1 ++ [tdi], tdo := x.tdo ++ [x.dr.headD false] } }
    | .updateDr => if tapBoundary x.ir then { s with chip.tap.cells := x.dr } else s
    | .captureIr => { s with chip.tap.irShift := [] }
    | .shiftIr =>
      let n := x.irShift.length
      -- the two bits nearest TDO are captured as 01; the others are the BSDL description's
      let out := if n < 2 then n == 0 else s.drawn.getLsbD 0
      let s := if n < 2 then s else s.draw
      { s with chip.tap := { x with irShift := x.irShift ++ [tdi], tdo := x.tdo ++ [out] } }
    | .updateIr => noteTap { s with chip.tap.ir := tapOfCode (Config.tapCode x.irShift) }
    | _ => s
  let st := x.st.next tms
  if st = .testLogicReset then { s with chip.tap := { s.chip.tap with st := st, ir := .idcode } }
  else { s with chip.tap.st := st }

/-- Cycles of TCK, each with its TMS and TDI. -/
def tapRun (s : State) : List (Bool × Bool) → State
  | [] => s
  | c :: cs => tapRun (tapClock s c.1 c.2) cs

/-! ### The commands -/

/-- TAP_TEST_LOGIC_RESET (R73): IDCODE is selected, and the boundary register owns nothing. -/
def execTapTestLogicReset (s : State) : Host.Outcome State Fault Refusal :=
  .next { s with chip.tap := { s.chip.tap with st := .testLogicReset, ir := .idcode, tdo := [] } }

/-- TAP_INSTRUCTION (R73, R76): the controller goes through its instruction column to Run-Test/Idle and the instruction is
loaded; then the cycles of TCK that follow, each with its TMS and TDI, run. An instruction of the EXTEST class takes the
covered balls. -/
def execTapInstruction (i : TapInstr) (clocks : List (Bool × Bool)) (s : State) : Host.Outcome State Fault Refusal :=
  let s := noteTap { s with chip.tap := { s.chip.tap with st := .runTestIdle, ir := i, tdo := [] } }
  .next (tapRun s clocks)

end Sys2Proof.Machine
end

