-- ==== Sys2Proof/Machine/Dispatch.lean ====
section
/-!
DEFINITION. Machine/Dispatch.lean: which meaning each command has, one arm for each row of spec/opcode_table.json.
-/
namespace Sys2Proof.Machine

/-- The effect of a command on everything but the queue. -/
def exec (i : Instr) (s : State) : Host.Outcome State Fault Refusal :=
  match i with
  | .powerGood xoLast => Sys2Proof.Machine.execPowerGood xoLast s
  | .internalResetRelease dowelIn crefOk => Sys2Proof.Machine.execInternalResetRelease dowelIn crefOk s
  | .railLow rail => Sys2Proof.Machine.execRailLow rail s
  | .supplyDip rail => Sys2Proof.Machine.execSupplyDip rail s
  | .resetNLow ns => Sys2Proof.Machine.execResetNLow ns s
  | .testEnHigh => Sys2Proof.Machine.execTestEnHigh s
  | .tapTestLogicReset => Sys2Proof.Machine.execTapTestLogicReset s
  | .tapInstruction ir clocks => Sys2Proof.Machine.execTapInstruction ir clocks s
  | .xoInLost => Sys2Proof.Machine.execXoInLost s
  | .xoInReturn => Sys2Proof.Machine.execXoInReturn s
  | .tempHigh tenths => Sys2Proof.Machine.execTempHigh tenths s
  | .coreSelfTest n pass => Sys2Proof.Machine.execCoreSelfTest n pass s
  | .bootLoad => Sys2Proof.Machine.execBootLoad s
  | .fwReady => Sys2Proof.Machine.execFwReady s
  | .dowelInChange level => Sys2Proof.Machine.execDowelInChange level s
  | .identify k => Sys2Proof.Machine.execIdentify k s
  | .assignNext k => Sys2Proof.Machine.execAssignNext k s
  | .assignById k => Sys2Proof.Machine.execAssignById k s
  | .discover k => Sys2Proof.Machine.execDiscover k s
  | .presenceSlotTimeout => Sys2Proof.Machine.execPresenceSlotTimeout s
  | .release k => Sys2Proof.Machine.execRelease k s
  | .quiet k => Sys2Proof.Machine.execQuiet k s
  | .badCrc bytes edge => Sys2Proof.Machine.execBadCrc bytes edge s
  | .lenAbove4096 reply addr op tag len edge => Sys2Proof.Machine.execLenAbove4096 reply addr op tag len edge s
  | .replyFollow bytes edge => Sys2Proof.Machine.execReplyFollow bytes edge s
  | .replyStart edge => Sys2Proof.Machine.execReplyStart edge s
  | .pendingReply => Sys2Proof.Machine.execPendingReply s
  | .firmwareCommandComplete k edge => Sys2Proof.Machine.execFirmwareCommandComplete k edge s
  | .broadcastServe => Sys2Proof.Machine.execBroadcastServe s
  | .ping k => Sys2Proof.Machine.execPing k s
  | .poll k => Sys2Proof.Machine.execPoll k s
  | .replay k => Sys2Proof.Machine.execReplay k s
  | .remote k done => Sys2Proof.Machine.execRemote k done s
  | .remoteInnerAccept p => Sys2Proof.Machine.execRemoteInnerAccept p s
  | .remoteInnerPending => Sys2Proof.Machine.execRemoteInnerPending s
  | .remoteInnerReply p => Sys2Proof.Machine.execRemoteInnerReply p s
  | .remoteExpiry => Sys2Proof.Machine.execRemoteExpiry s
  | .clearMpBadCrc => Sys2Proof.Machine.execClearMpBadCrc s
  | .clearMpBcastDrop => Sys2Proof.Machine.execClearMpBcastDrop s
  | .clearMpLockViol => Sys2Proof.Machine.execClearMpLockViol s
  | .lastErrClear => Sys2Proof.Machine.execLastErrClear s
  | .read k => Sys2Proof.Machine.execRead k s
  | .write k => Sys2Proof.Machine.execWrite k s
  | .readBlock k => Sys2Proof.Machine.execReadBlock k s
  | .writeBlock k => Sys2Proof.Machine.execWriteBlock k s
  | .modify k => Sys2Proof.Machine.execModify k s
  | .snapshot k => Sys2Proof.Machine.execSnapshot k s
  | .lock k => Sys2Proof.Machine.execLock k s
  | .otpProgram k => Sys2Proof.Machine.execOtpProgram k s
  | .otpBurnComplete => Sys2Proof.Machine.execOtpBurnComplete s
  | .registerWrite addr value => Sys2Proof.Machine.execRegisterWrite addr value s
  | .carcassCapture k done => Sys2Proof.Machine.execCarcassCapture k done s
  | .carcassPut k done => Sys2Proof.Machine.execCarcassPut k done s
  | .carcassGet k done => Sys2Proof.Machine.execCarcassGet k done s
  | .carcassSave k done => Sys2Proof.Machine.execCarcassSave k done s
  | .carcassLoad k done => Sys2Proof.Machine.execCarcassLoad k done s
  | .carcassBoot k done => Sys2Proof.Machine.execCarcassBoot k done s
  | .storePageWriteDone verified => Sys2Proof.Machine.execStorePageWriteDone verified s
  | .bootSkip => Sys2Proof.Machine.execBootSkip s
  | .veneerStage k done => Sys2Proof.Machine.execVeneerStage k done s
  | .veneerFetch k done => Sys2Proof.Machine.execVeneerFetch k done s
  | .veneerSave k done => Sys2Proof.Machine.execVeneerSave k done s
  | .veneerErase k done => Sys2Proof.Machine.execVeneerErase k done s
  | .veneerCommit k => Sys2Proof.Machine.execVeneerCommit k s
  | .veneerAbort k => Sys2Proof.Machine.execVeneerAbort k s
  | .veneerStatus k => Sys2Proof.Machine.execVeneerStatus k s
  | .veneerGet k done => Sys2Proof.Machine.execVeneerGet k done s
  | .veneerApply j => Sys2Proof.Machine.execVeneerApply j s
  | .veneerMissed j => Sys2Proof.Machine.execVeneerMissed j s
  | .vselEnable ix vOne vZero => Sys2Proof.Machine.execVselEnable ix vOne vZero s
  | .pairVeneerApply ix => Sys2Proof.Machine.execPairVeneerApply ix s
  | .portEnable p => Sys2Proof.Machine.execPortEnable p s
  | .portDisable p => Sys2Proof.Machine.execPortDisable p s
  | .calibrationDone p => Sys2Proof.Machine.execCalibrationDone p s
  | .lpCalFail p => Sys2Proof.Machine.execLpCalFail p s
  | .cdrLost p => Sys2Proof.Machine.execCdrLost p s
  | .loopTimingReturn p => Sys2Proof.Machine.execLoopTimingReturn p s
  | .syncLost p units => Sys2Proof.Machine.execSyncLost p units s
  | .rxInvChange p v => Sys2Proof.Machine.execRxInvChange p v s
  | .loopbackChange p v => Sys2Proof.Machine.execLoopbackChange p v s
  | .prbsCntClr p => Sys2Proof.Machine.execPrbsCntClr p s
  | .errInject p => Sys2Proof.Machine.execErrInject p s
  | .cvCntClr p => Sys2Proof.Machine.execCvCntClr p s
  | .prbsLock p groups => Sys2Proof.Machine.execPrbsLock p groups s
  | .prbsLost p groups => Sys2Proof.Machine.execPrbsLost p groups s
  | .eyeStart p => Sys2Proof.Machine.execEyeStart p s
  | .eyeAbort p => Sys2Proof.Machine.execEyeAbort p s
  | .eyeDone p errs => Sys2Proof.Machine.execEyeDone p errs s
  | .modLosChange p level => Sys2Proof.Machine.execModLosChange p level s
  | .sigDetChange p level => Sys2Proof.Machine.execSigDetChange p level s
  | .modTransferStart p write dev count offset => Sys2Proof.Machine.execModTransferStart p write dev count offset s
  | .modDone p seen => Sys2Proof.Machine.execModDone p seen s
  | .modPoll p => Sys2Proof.Machine.execModPoll p s
  | .modPollDone p seen => Sys2Proof.Machine.execModPollDone p seen s
  | .modCfgWrite p value => Sys2Proof.Machine.execModCfgWrite p value s
  | .localFrameStart ix => Sys2Proof.Machine.execLocalFrameStart ix s
  | .transmitFrameStart p phase => Sys2Proof.Machine.execTransmitFrameStart p phase s
  | .huntStartWord p w1 w2 => Sys2Proof.Machine.execHuntStartWord p w1 w2 s
  | .receivedFrame p frame phase => Sys2Proof.Machine.execReceivedFrame p frame phase s
  | .traceAccepted p => Sys2Proof.Machine.execTraceAccepted p s
  | .mgmtMessageAccept p => Sys2Proof.Machine.execMgmtMessageAccept p s
  | .lofSet p => Sys2Proof.Machine.execLofSet p s
  | .lofClr p => Sys2Proof.Machine.execLofClr p s
  | .lomSet p => Sys2Proof.Machine.execLomSet p s
  | .lomClr p => Sys2Proof.Machine.execLomClr p s
  | .numLoad => Sys2Proof.Machine.execNumLoad s
  | .numAdopt => Sys2Proof.Machine.execNumAdopt s
  | .numberingModeWrite mode src => Sys2Proof.Machine.execNumberingModeWrite mode src s
  | .numAdopted => Sys2Proof.Machine.execNumAdopted s
  | .mismatchSet => Sys2Proof.Machine.execMismatchSet s
  | .mismatchClr => Sys2Proof.Machine.execMismatchClr s
  | .lfCntClr p => Sys2Proof.Machine.execLfCntClr p s
  | .alignInj p n => Sys2Proof.Machine.execAlignInj p n s
  | .bipInj p n => Sys2Proof.Machine.execBipInj p n s
  | .staleSet t => Sys2Proof.Machine.execStaleSet t s
  | .slipClr => Sys2Proof.Machine.execSlipClr s
  | .crcClr => Sys2Proof.Machine.execCrcClr s
  | .xcMapLoad k done => Sys2Proof.Machine.execXcMapLoad k done s
  | .xcMapSwap k done => Sys2Proof.Machine.execXcMapSwap k done s
  | .xcMapCheck k done => Sys2Proof.Machine.execXcMapCheck k done s
  | .xcSliceSwap k done => Sys2Proof.Machine.execXcSliceSwap k done s
  | .xcSliceRestore k done => Sys2Proof.Machine.execXcSliceRestore k done s
  | .sliceCopyComplete => Sys2Proof.Machine.execSliceCopyComplete s
  | .shadowFrameEnd diff => Sys2Proof.Machine.execShadowFrameEnd diff s
  | .gearEnWrite g en => Sys2Proof.Machine.execGearEnWrite g en s
  | .gearStep g => Sys2Proof.Machine.execGearStep g s
  | .gapRecapture g => Sys2Proof.Machine.execGapRecapture g s
  | .recapture g mode => Sys2Proof.Machine.execRecapture g mode s
  | .recipeEvaluate x => Sys2Proof.Machine.execRecipeEvaluate x s
  | .grRecipeLoad k done => Sys2Proof.Machine.execGrRecipeLoad k done s
  | .grRecipeTest k done => Sys2Proof.Machine.execGrRecipeTest k done s
  | .queueEnWrite q en => Sys2Proof.Machine.execQueueEnWrite q en s
  | .queueWriteAccept q upset => Sys2Proof.Machine.execQueueWriteAccept q upset s
  | .queueRead q upset => Sys2Proof.Machine.execQueueRead q upset s
  | .rebuildDone found => Sys2Proof.Machine.execRebuildDone found s
  | .queueResetDone q => Sys2Proof.Machine.execQueueResetDone q s
  | .qmReset k done => Sys2Proof.Machine.execQmReset k done s
  | .qmPktSend k done => Sys2Proof.Machine.execQmPktSend k done s
  | .qmPktRecv k done => Sys2Proof.Machine.execQmPktRecv k done s
  | .qmAudit k done => Sys2Proof.Machine.execQmAudit k done s
  | .starvedSet t => Sys2Proof.Machine.execStarvedSet t s
  | .clientFrameReceive c frame => Sys2Proof.Machine.execClientFrameReceive c frame s
  | .pauseExpiry c => Sys2Proof.Machine.execPauseExpiry c s
  | .pauseXoff c => Sys2Proof.Machine.execPauseXoff c s
  | .pauseRefresh c => Sys2Proof.Machine.execPauseRefresh c s
  | .pauseXon c => Sys2Proof.Machine.execPauseXon c s
  | .clientTransmit c => Sys2Proof.Machine.execClientTransmit c s
  | .linkChange c up => Sys2Proof.Machine.execLinkChange c up s
  | .crefLost => Sys2Proof.Machine.execCrefLost s
  | .anDone c tx rx => Sys2Proof.Machine.execAnDone c tx rx s
  | .clAnRestart k done => Sys2Proof.Machine.execClAnRestart k done s
  | .clCntClr c => Sys2Proof.Machine.execClCntClr c s
  | .defectDeclare trib n d => Sys2Proof.Machine.execDefectDeclare trib n d s
  | .defectClear trib n d => Sys2Proof.Machine.execDefectClear trib n d s
  | .bipWindowEnd p exc => Sys2Proof.Machine.execBipWindowEnd p exc s
  | .pmSecondEnd => Sys2Proof.Machine.execPmSecondEnd s
  | .recordFinal p => Sys2Proof.Machine.execRecordFinal p s
  | .fifteenMinuteBinClose p => Sys2Proof.Machine.execFifteenMinuteBinClose p s
  | .dailyBinClose p => Sys2Proof.Machine.execDailyBinClose p s
  | .binFinal p => Sys2Proof.Machine.execBinFinal p s
  | .dmCntClr => Sys2Proof.Machine.execDmCntClr s
  | .pmRestart => Sys2Proof.Machine.execPmRestart s
  | .groupConfigWrite u value => Sys2Proof.Machine.execGroupConfigWrite u value s
  | .mergeRelease u => Sys2Proof.Machine.execMergeRelease u s
  | .wtrExpired u => Sys2Proof.Machine.execWtrExpired u s
  | .endWtr u => Sys2Proof.Machine.execEndWtr u s
  | .psRequest k => Sys2Proof.Machine.execPsRequest k s
  | .psStatus k => Sys2Proof.Machine.execPsStatus k s
  | .psReskew k done => Sys2Proof.Machine.execPsReskew k done s
  | .referenceInactive j => Sys2Proof.Machine.execReferenceInactive j s
  | .referenceActive j => Sys2Proof.Machine.execReferenceActive j s
  | .frequencyGateComplete j offset => Sys2Proof.Machine.execFrequencyGateComplete j offset s
  | .referenceWtrExpiry j => Sys2Proof.Machine.execReferenceWtrExpiry j s
  | .dpllLocked d => Sys2Proof.Machine.execDpllLocked d s
  | .lockLost d => Sys2Proof.Machine.execLockLost d s
  | .hoEnter d => Sys2Proof.Machine.execHoEnter d s
  | .hoOutOfSpec d => Sys2Proof.Machine.execHoOutOfSpec d s
  | .dpllModeWrite d mode => Sys2Proof.Machine.execDpllModeWrite d mode s
  | .steerFrequencyWrite d f => Sys2Proof.Machine.execSteerFrequencyWrite d f s
  | .steerPhaseStep d step => Sys2Proof.Machine.execSteerPhaseStep d step s
  | .t1Realignment => Sys2Proof.Machine.execT1Realignment s
  | .rlDone => Sys2Proof.Machine.execRlDone s
  | .tgRealign k => Sys2Proof.Machine.execTgRealign k s
  | .tgSteer k => Sys2Proof.Machine.execTgSteer k s
  | .tgStatus k => Sys2Proof.Machine.execTgStatus k s
  | .secondBoundary => Sys2Proof.Machine.execSecondBoundary s
  | .adjDone => Sys2Proof.Machine.execAdjDone s
  | .tdCfgWrite value => Sys2Proof.Machine.execTdCfgWrite value s
  | .todMessage pos => Sys2Proof.Machine.execTodMessage pos s
  | .msgLost => Sys2Proof.Machine.execMsgLost s
  | .delayRequest p turn => Sys2Proof.Machine.execDelayRequest p turn s
  | .delayResponse p rtt => Sys2Proof.Machine.execDelayResponse p rtt s
  | .delayExchangeExpiry => Sys2Proof.Machine.execDelayExchangeExpiry s
  | .tdSet k => Sys2Proof.Machine.execTdSet k s
  | .tdAdjust k => Sys2Proof.Machine.execTdAdjust k s
  | .tdDelay k done => Sys2Proof.Machine.execTdDelay k done s
  | .evtEdge e rise pos => Sys2Proof.Machine.execEvtEdge e rise pos s
  | .internalEvent src rise pos => Sys2Proof.Machine.execInternalEvent src rise pos s
  | .arm => Sys2Proof.Machine.execArm s
  | .kfCntClr => Sys2Proof.Machine.execKfCntClr s
  | .kfPop k => Sys2Proof.Machine.execKfPop k s
  | .timerMatch k c => Sys2Proof.Machine.execTimerMatch k c s
  | .timerOverflow k => Sys2Proof.Machine.execTimerOverflow k s
  | .tmLoad k v => Sys2Proof.Machine.execTmLoad k v s
  | .timerEnWrite k en => Sys2Proof.Machine.execTimerEnWrite k en s
  | .excitationOn f => Sys2Proof.Machine.execExcitationOn f s
  | .sample f codes exc overR fault => Sys2Proof.Machine.execSample f codes exc overR fault s
  | .feConfigWrite f exc value => Sys2Proof.Machine.execFeConfigWrite f exc value s
  | .clamp f => Sys2Proof.Machine.execClamp f s
  | .checkDue f => Sys2Proof.Machine.execCheckDue f s
  | .checkStart f => Sys2Proof.Machine.execCheckStart f s
  | .chkDone f z phase leak => Sys2Proof.Machine.execChkDone f z phase leak s
  | .feCntClr => Sys2Proof.Machine.execFeCntClr s
  | .feCheck k done => Sys2Proof.Machine.execFeCheck k done s
  | .feSplineLoad k done => Sys2Proof.Machine.execFeSplineLoad k done s
  | .feSplineEval k done => Sys2Proof.Machine.execFeSplineEval k done s
  | .coreWatchdogExpiry n => Sys2Proof.Machine.execCoreWatchdogExpiry n s
  | .coreFail n uncorrected => Sys2Proof.Machine.execCoreFail n uncorrected s
  | .takeoverDone us => Sys2Proof.Machine.execTakeoverDone us s
  | .bcPromote k => Sys2Proof.Machine.execBcPromote k s
  | .busRequest r => Sys2Proof.Machine.execBusRequest r s
  | .remap on => Sys2Proof.Machine.execRemap on s
  | .interruptAssert h => Sys2Proof.Machine.execInterruptAssert h s
  | .interruptDelivery ie => Sys2Proof.Machine.execInterruptDelivery ie s
  | .holdoffEnd y => Sys2Proof.Machine.execHoldoffEnd y s
  | .icEoi n h => Sys2Proof.Machine.execIcEoi n h s
  | .icSwi m => Sys2Proof.Machine.execIcSwi m s
  | .fwLoad k => Sys2Proof.Machine.execFwLoad k s
  | .fwVerify k => Sys2Proof.Machine.execFwVerify k s
  | .verifyDone => Sys2Proof.Machine.execVerifyDone s
  | .fwActivate k => Sys2Proof.Machine.execFwActivate k s
  | .firmwareAbsenceStart => Sys2Proof.Machine.execFirmwareAbsenceStart s
  | .swapDone us => Sys2Proof.Machine.execSwapDone us s
  | .swapReverted us => Sys2Proof.Machine.execSwapReverted us s
  | .fwStatus k => Sys2Proof.Machine.execFwStatus k s
  | .faultRaise z info loc injected => Sys2Proof.Machine.execFaultRaise z info loc injected s
  | .rowRemap => Sys2Proof.Machine.execRowRemap s
  | .faultAckWrite mask => Sys2Proof.Machine.execFaultAckWrite mask s
  | .autoAck z => Sys2Proof.Machine.execAutoAck z s
  | .kick value => Sys2Proof.Machine.execKick value s
  | .fwKickLost => Sys2Proof.Machine.execFwKickLost s
  | .aliveToggle => Sys2Proof.Machine.execAliveToggle s
  | .faCntClr => Sys2Proof.Machine.execFaCntClr s
  | .pairDisc ix a b => Sys2Proof.Machine.execPairDisc ix a b s
  | .pairAgree ix a b => Sys2Proof.Machine.execPairAgree ix a b s
  | .pairCfgWrite ix value => Sys2Proof.Machine.execPairCfgWrite ix value s
  | .faAck k => Sys2Proof.Machine.execFaAck k s
  | .faStatus k => Sys2Proof.Machine.execFaStatus k s
  | .faAliveResume k => Sys2Proof.Machine.execFaAliveResume k s
  | .jigArm k => Sys2Proof.Machine.execJigArm k s
  | .rpRowRemap k done => Sys2Proof.Machine.execRpRowRemap k done s
  | .cdrLockGained p => Sys2Proof.Machine.execCdrLockGained p s
  | .codeSyncGained p units => Sys2Proof.Machine.execCodeSyncGained p units s
  | .hiBerChange p units => Sys2Proof.Machine.execHiBerChange p units s
  | .crefclkReturn => Sys2Proof.Machine.execCrefclkReturn s
  | .clampRelease f => Sys2Proof.Machine.execClampRelease f s
  | .levelConditionEnd z => Sys2Proof.Machine.execLevelConditionEnd z s

end Sys2Proof.Machine
end

