-- ==== Sys2Proof/WellFormed.lean ====
section
/-!
DEFINITION. WellFormed.lean: which terms of `Instr` are commands that spec/ gives the unit, and the opcode of those that
a Parast packet brings.
-/
namespace Sys2Proof

/-- A packet that the bus receiver can deliver: LEN is at most 4,096 (R128). -/
def Pkt.WellFormed (k : Pkt) : Bool := Nat.ble k.params.length 4096

/-- The bytes of a packet from ADDR through CRC: five of header, LEN of parameters or data, two of CRC (Tables 4.1, 4.2). -/
def rawPacket (bytes : List Byte) : Bool :=
  Nat.ble 7 bytes.length && Nat.ble bytes.length 4103 &&
    bytes.length == 7 + (bytes.getD 3 0).toNat + 256 * (bytes.getD 4 0).toNat

/-- Line words per basic frame of each rate class (Table 8.1). -/
def frameLengths : List Nat := [2000, 4000, 8000, 20000]

/-- A frame brings its number of line words, or of code units (Tables 7.1, 8.1). -/
def LineIn.WellFormed : LineIn → Bool
  | .words _ ws => frameLengths.contains ws.length
  | .units us => ([4000, 8000, 16000, 5000] : List Nat).contains us.length

/-- At most one observation for each port, and phases for candidates 0–20 only. -/
def FrameIn.WellFormed (i : FrameIn) : Bool :=
  Nat.ble i.obs.length 16 && i.cands.all fun c => Nat.ble c.1 20

/-- A write brings at least one word and at most the 16 beats of 128 bits that a burst has (R629). -/
def BusReq.WellFormed (r : BusReq) : Bool :=
  match r.data with
  | none => true
  | some ws => Nat.ble 1 ws.length && Nat.ble ws.length 64

/-- A row of the region whose errors source z reports, and a 64-bit word of it (R679). -/
def placeGood (z : Fin 23) (loc : Option (Nat × Nat)) : Bool :=
  match loc with
  | none => true
  | some (row, w) => Nat.ble z 5 && Nat.blt row (if z.val / 2 = 1 then 1024 else 512) && Nat.blt w 128

/-- The opcode and the packet of a command that a Parast packet brings (Table 20.1). -/
def Instr.packet : Instr → Option (Nat × Pkt)
  | .powerGood _ => none
  | .internalResetRelease _ _ => none
  | .railLow _ => none
  | .supplyDip _ => none
  | .resetNLow _ => none
  | .testEnHigh => none
  | .tapTestLogicReset => none
  | .tapInstruction _ _ => none
  | .xoInLost => none
  | .xoInReturn => none
  | .tempHigh _ => none
  | .coreSelfTest _ _ => none
  | .bootLoad => none
  | .fwReady => none
  | .dowelInChange _ => none
  | .identify k => some (0x01, k)
  | .assignNext k => some (0x02, k)
  | .assignById k => some (0x03, k)
  | .discover k => some (0x04, k)
  | .presenceSlotTimeout => none
  | .release k => some (0x05, k)
  | .quiet k => some (0x06, k)
  | .badCrc _ _ => none
  | .lenAbove4096 _ _ _ _ _ _ => none
  | .replyFollow _ _ => none
  | .replyStart _ => none
  | .pendingReply => none
  | .firmwareCommandComplete _ _ => none
  | .broadcastServe => none
  | .ping k => some (0x00, k)
  | .poll k => some (0x07, k)
  | .replay k => some (0x08, k)
  | .remote k _ => some (0x0E, k)
  | .remoteInnerAccept _ => none
  | .remoteInnerPending => none
  | .remoteInnerReply _ => none
  | .remoteExpiry => none
  | .clearMpBadCrc => none
  | .clearMpBcastDrop => none
  | .clearMpLockViol => none
  | .lastErrClear => none
  | .read k => some (0x10, k)
  | .write k => some (0x11, k)
  | .readBlock k => some (0x12, k)
  | .writeBlock k => some (0x13, k)
  | .modify k => some (0x14, k)
  | .snapshot k => some (0x15, k)
  | .lock k => some (0x16, k)
  | .otpProgram k => some (0x17, k)
  | .otpBurnComplete => none
  | .registerWrite _ _ => none
  | .carcassCapture k _ => some (0x20, k)
  | .carcassPut k _ => some (0x21, k)
  | .carcassGet k _ => some (0x22, k)
  | .carcassSave k _ => some (0x23, k)
  | .carcassLoad k _ => some (0x24, k)
  | .carcassBoot k _ => some (0x25, k)
  | .storePageWriteDone _ => none
  | .bootSkip => none
  | .veneerStage k _ => some (0x26, k)
  | .veneerFetch k _ => some (0x27, k)
  | .veneerSave k _ => some (0x28, k)
  | .veneerErase k _ => some (0x29, k)
  | .veneerCommit k => some (0x2A, k)
  | .veneerAbort k => some (0x2B, k)
  | .veneerStatus k => some (0x2C, k)
  | .veneerGet k _ => some (0x2D, k)
  | .veneerApply _ => none
  | .veneerMissed _ => none
  | .vselEnable _ _ _ => none
  | .pairVeneerApply _ => none
  | .portEnable _ => none
  | .portDisable _ => none
  | .calibrationDone _ => none
  | .lpCalFail _ => none
  | .cdrLost _ => none
  | .loopTimingReturn _ => none
  | .syncLost _ _ => none
  | .rxInvChange _ _ => none
  | .loopbackChange _ _ => none
  | .prbsCntClr _ => none
  | .errInject _ => none
  | .cvCntClr _ => none
  | .prbsLock _ _ => none
  | .prbsLost _ _ => none
  | .eyeStart _ => none
  | .eyeAbort _ => none
  | .eyeDone _ _ => none
  | .modLosChange _ _ => none
  | .sigDetChange _ _ => none
  | .modTransferStart _ _ _ _ _ => none
  | .modDone _ _ => none
  | .modPoll _ => none
  | .modPollDone _ _ => none
  | .modCfgWrite _ _ => none
  | .localFrameStart _ => none
  | .transmitFrameStart _ _ => none
  | .huntStartWord _ _ _ => none
  | .receivedFrame _ _ _ => none
  | .traceAccepted _ => none
  | .mgmtMessageAccept _ => none
  | .lofSet _ => none
  | .lofClr _ => none
  | .lomSet _ => none
  | .lomClr _ => none
  | .numLoad => none
  | .numAdopt => none
  | .numberingModeWrite _ _ => none
  | .numAdopted => none
  | .mismatchSet => none
  | .mismatchClr => none
  | .lfCntClr _ => none
  | .alignInj _ _ => none
  | .bipInj _ _ => none
  | .staleSet _ => none
  | .slipClr => none
  | .crcClr => none
  | .xcMapLoad k _ => some (0x30, k)
  | .xcMapSwap k _ => some (0x31, k)
  | .xcMapCheck k _ => some (0x32, k)
  | .xcSliceSwap k _ => some (0x33, k)
  | .xcSliceRestore k _ => some (0x34, k)
  | .sliceCopyComplete => none
  | .shadowFrameEnd _ => none
  | .gearEnWrite _ _ => none
  | .gearStep _ => none
  | .gapRecapture _ => none
  | .recapture _ _ => none
  | .recipeEvaluate _ => none
  | .grRecipeLoad k _ => some (0x38, k)
  | .grRecipeTest k _ => some (0x39, k)
  | .queueEnWrite _ _ => none
  | .queueWriteAccept _ _ => none
  | .queueRead _ _ => none
  | .rebuildDone _ => none
  | .queueResetDone _ => none
  | .qmReset k _ => some (0x40, k)
  | .qmPktSend k _ => some (0x41, k)
  | .qmPktRecv k _ => some (0x42, k)
  | .qmAudit k _ => some (0x43, k)
  | .starvedSet _ => none
  | .clientFrameReceive _ _ => none
  | .pauseExpiry _ => none
  | .pauseXoff _ => none
  | .pauseRefresh _ => none
  | .pauseXon _ => none
  | .clientTransmit _ => none
  | .linkChange _ _ => none
  | .crefLost => none
  | .anDone _ _ _ => none
  | .clAnRestart k _ => some (0x44, k)
  | .clCntClr _ => none
  | .defectDeclare _ _ _ => none
  | .defectClear _ _ _ => none
  | .bipWindowEnd _ _ => none
  | .pmSecondEnd => none
  | .recordFinal _ => none
  | .fifteenMinuteBinClose _ => none
  | .dailyBinClose _ => none
  | .binFinal _ => none
  | .dmCntClr => none
  | .pmRestart => none
  | .groupConfigWrite _ _ => none
  | .mergeRelease _ => none
  | .wtrExpired _ => none
  | .endWtr _ => none
  | .psRequest k => some (0x50, k)
  | .psStatus k => some (0x51, k)
  | .psReskew k _ => some (0x52, k)
  | .referenceInactive _ => none
  | .referenceActive _ => none
  | .frequencyGateComplete _ _ => none
  | .referenceWtrExpiry _ => none
  | .dpllLocked _ => none
  | .lockLost _ => none
  | .hoEnter _ => none
  | .hoOutOfSpec _ => none
  | .dpllModeWrite _ _ => none
  | .steerFrequencyWrite _ _ => none
  | .steerPhaseStep _ _ => none
  | .t1Realignment => none
  | .rlDone => none
  | .tgRealign k => some (0x60, k)
  | .tgSteer k => some (0x61, k)
  | .tgStatus k => some (0x62, k)
  | .secondBoundary => none
  | .adjDone => none
  | .tdCfgWrite _ => none
  | .todMessage _ => none
  | .msgLost => none
  | .delayRequest _ _ => none
  | .delayResponse _ _ => none
  | .delayExchangeExpiry => none
  | .tdSet k => some (0x70, k)
  | .tdAdjust k => some (0x71, k)
  | .tdDelay k _ => some (0x72, k)
  | .evtEdge _ _ _ => none
  | .internalEvent _ _ _ => none
  | .arm => none
  | .kfCntClr => none
  | .kfPop k => some (0x73, k)
  | .timerMatch _ _ => none
  | .timerOverflow _ => none
  | .tmLoad _ _ => none
  | .timerEnWrite _ _ => none
  | .excitationOn _ => none
  | .sample _ _ _ _ _ => none
  | .feConfigWrite _ _ _ => none
  | .clamp _ => none
  | .checkDue _ => none
  | .checkStart _ => none
  | .chkDone _ _ _ _ => none
  | .feCntClr => none
  | .feCheck k _ => some (0x80, k)
  | .feSplineLoad k _ => some (0x81, k)
  | .feSplineEval k _ => some (0x82, k)
  | .coreWatchdogExpiry _ => none
  | .coreFail _ _ => none
  | .takeoverDone _ => none
  | .bcPromote k => some (0xA4, k)
  | .busRequest _ => none
  | .remap _ => none
  | .interruptAssert _ => none
  | .interruptDelivery _ => none
  | .holdoffEnd _ => none
  | .icEoi _ _ => none
  | .icSwi _ => none
  | .fwLoad k => some (0xA0, k)
  | .fwVerify k => some (0xA1, k)
  | .verifyDone => none
  | .fwActivate k => some (0xA2, k)
  | .firmwareAbsenceStart => none
  | .swapDone _ => none
  | .swapReverted _ => none
  | .fwStatus k => some (0xA3, k)
  | .faultRaise _ _ _ _ => none
  | .rowRemap => none
  | .faultAckWrite _ => none
  | .autoAck _ => none
  | .kick _ => none
  | .fwKickLost => none
  | .aliveToggle => none
  | .faCntClr => none
  | .pairDisc _ _ _ => none
  | .pairAgree _ _ _ => none
  | .pairCfgWrite _ _ => none
  | .faAck k => some (0x90, k)
  | .faStatus k => some (0x91, k)
  | .faAliveResume k => some (0x92, k)
  | .jigArm k => some (0x93, k)
  | .rpRowRemap k _ => some (0x94, k)
  | .cdrLockGained _ => none
  | .codeSyncGained _ _ => none
  | .hiBerChange _ _ => none
  | .crefclkReturn => none
  | .clampRelease _ => none
  | .levelConditionEnd _ => none

/-- Whether the command can reach the unit as it stands. -/
def Instr.WellFormed : Instr → Bool
  | .powerGood _ => true
  | .internalResetRelease _ _ => true
  | .railLow _ => true
  | .supplyDip _ => true
  | .resetNLow _ => true
  | .testEnHigh => true
  | .tapTestLogicReset => true
  | .tapInstruction _ _ => true
  | .xoInLost => true
  | .xoInReturn => true
  | .tempHigh tenths => Nat.ble 1150 tenths
  | .coreSelfTest _ _ => true
  | .bootLoad => true
  | .fwReady => true
  | .dowelInChange _ => true
  | .identify k => k.WellFormed
  | .assignNext k => k.WellFormed
  | .assignById k => k.WellFormed
  | .discover k => k.WellFormed
  | .presenceSlotTimeout => true
  | .release k => k.WellFormed
  | .quiet k => k.WellFormed
  | .badCrc bytes _ => rawPacket bytes
  | .lenAbove4096 _ _ _ _ len _ => Nat.blt 4096 len.toNat
  | .replyFollow bytes _ => rawPacket bytes
  | .replyStart _ => true
  | .pendingReply => true
  | .firmwareCommandComplete _ _ => true
  | .broadcastServe => true
  | .ping k => k.WellFormed
  | .poll k => k.WellFormed
  | .replay k => k.WellFormed
  | .remote k _ => k.WellFormed
  | .remoteInnerAccept _ => true
  | .remoteInnerPending => true
  | .remoteInnerReply _ => true
  | .remoteExpiry => true
  | .clearMpBadCrc => true
  | .clearMpBcastDrop => true
  | .clearMpLockViol => true
  | .lastErrClear => true
  | .read k => k.WellFormed
  | .write k => k.WellFormed
  | .readBlock k => k.WellFormed
  | .writeBlock k => k.WellFormed
  | .modify k => k.WellFormed
  | .snapshot k => k.WellFormed
  | .lock k => k.WellFormed
  | .otpProgram k => k.WellFormed
  | .otpBurnComplete => true
  | .registerWrite addr _ => addr.toNat % 4 == 0
  | .carcassCapture k _ => k.WellFormed
  | .carcassPut k _ => k.WellFormed
  | .carcassGet k _ => k.WellFormed
  | .carcassSave k _ => k.WellFormed
  | .carcassLoad k _ => k.WellFormed
  | .carcassBoot k _ => k.WellFormed
  | .storePageWriteDone _ => true
  | .bootSkip => true
  | .veneerStage k _ => k.WellFormed
  | .veneerFetch k _ => k.WellFormed
  | .veneerSave k _ => k.WellFormed
  | .veneerErase k _ => k.WellFormed
  | .veneerCommit k => k.WellFormed
  | .veneerAbort k => k.WellFormed
  | .veneerStatus k => k.WellFormed
  | .veneerGet k _ => k.WellFormed
  | .veneerApply _ => true
  | .veneerMissed _ => true
  | .vselEnable _ _ _ => true
  | .pairVeneerApply _ => true
  | .portEnable _ => true
  | .portDisable _ => true
  | .calibrationDone _ => true
  | .lpCalFail _ => true
  | .cdrLost _ => true
  | .loopTimingReturn _ => true
  | .syncLost _ _ => true
  | .rxInvChange _ _ => true
  | .loopbackChange _ _ => true
  | .prbsCntClr _ => true
  | .errInject _ => true
  | .cvCntClr _ => true
  | .prbsLock _ _ => true
  | .prbsLost _ _ => true
  | .eyeStart _ => true
  | .eyeAbort _ => true
  | .eyeDone _ _ => true
  | .modLosChange _ _ => true
  | .sigDetChange _ _ => true
  | .modTransferStart _ _ _ _ _ => true
  | .modDone _ seen => Nat.ble seen.data.length 16
  | .modPoll _ => true
  | .modPollDone _ seen => seen.data.isEmpty || seen.data.length == 16
  | .modCfgWrite _ _ => true
  | .localFrameStart i => i.WellFormed
  | .transmitFrameStart _ _ => true
  | .huntStartWord _ _ _ => true
  | .receivedFrame _ frame _ => frame.WellFormed
  | .traceAccepted _ => true
  | .mgmtMessageAccept _ => true
  | .lofSet _ => true
  | .lofClr _ => true
  | .lomSet _ => true
  | .lomClr _ => true
  | .numLoad => true
  | .numAdopt => true
  | .numberingModeWrite _ _ => true
  | .numAdopted => true
  | .mismatchSet => true
  | .mismatchClr => true
  | .lfCntClr _ => true
  | .alignInj _ _ => true
  | .bipInj _ _ => true
  | .staleSet _ => true
  | .slipClr => true
  | .crcClr => true
  | .xcMapLoad k _ => k.WellFormed
  | .xcMapSwap k _ => k.WellFormed
  | .xcMapCheck k _ => k.WellFormed
  | .xcSliceSwap k _ => k.WellFormed
  | .xcSliceRestore k _ => k.WellFormed
  | .sliceCopyComplete => true
  | .shadowFrameEnd _ => true
  | .gearEnWrite _ _ => true
  | .gearStep _ => true
  | .gapRecapture _ => true
  | .recapture _ _ => true
  | .recipeEvaluate _ => true
  | .grRecipeLoad k _ => k.WellFormed
  | .grRecipeTest k _ => k.WellFormed
  | .queueEnWrite _ _ => true
  | .queueWriteAccept _ _ => true
  | .queueRead _ _ => true
  | .rebuildDone _ => true
  | .queueResetDone _ => true
  | .qmReset k _ => k.WellFormed
  | .qmPktSend k _ => k.WellFormed
  | .qmPktRecv k _ => k.WellFormed
  | .qmAudit k _ => k.WellFormed
  | .starvedSet _ => true
  | .clientFrameReceive _ frame => Nat.ble 1 frame.length
  | .pauseExpiry _ => true
  | .pauseXoff _ => true
  | .pauseRefresh _ => true
  | .pauseXon _ => true
  | .clientTransmit _ => true
  | .linkChange _ _ => true
  | .crefLost => true
  | .anDone _ _ _ => true
  | .clAnRestart k _ => k.WellFormed
  | .clCntClr _ => true
  | .defectDeclare trib n d => if trib then Nat.blt d.val 4 else Nat.blt n.toNat 16
  | .defectClear trib n d => if trib then Nat.blt d.val 4 else Nat.blt n.toNat 16
  | .bipWindowEnd _ _ => true
  | .pmSecondEnd => true
  | .recordFinal _ => true
  | .fifteenMinuteBinClose _ => true
  | .dailyBinClose _ => true
  | .binFinal _ => true
  | .dmCntClr => true
  | .pmRestart => true
  | .groupConfigWrite _ _ => true
  | .mergeRelease _ => true
  | .wtrExpired _ => true
  | .endWtr _ => true
  | .psRequest k => k.WellFormed
  | .psStatus k => k.WellFormed
  | .psReskew k _ => k.WellFormed
  | .referenceInactive _ => true
  | .referenceActive _ => true
  | .frequencyGateComplete _ _ => true
  | .referenceWtrExpiry _ => true
  | .dpllLocked _ => true
  | .lockLost _ => true
  | .hoEnter _ => true
  | .hoOutOfSpec _ => true
  | .dpllModeWrite _ _ => true
  | .steerFrequencyWrite _ _ => true
  | .steerPhaseStep _ _ => true
  | .t1Realignment => true
  | .rlDone => true
  | .tgRealign k => k.WellFormed
  | .tgSteer k => k.WellFormed
  | .tgStatus k => k.WellFormed
  | .secondBoundary => true
  | .adjDone => true
  | .tdCfgWrite _ => true
  | .todMessage _ => true
  | .msgLost => true
  | .delayRequest _ _ => true
  | .delayResponse _ _ => true
  | .delayExchangeExpiry => true
  | .tdSet k => k.WellFormed
  | .tdAdjust k => k.WellFormed
  | .tdDelay k _ => k.WellFormed
  | .evtEdge _ _ _ => true
  | .internalEvent _ _ _ => true
  | .arm => true
  | .kfCntClr => true
  | .kfPop k => k.WellFormed
  | .timerMatch _ _ => true
  | .timerOverflow _ => true
  | .tmLoad _ _ => true
  | .timerEnWrite _ _ => true
  | .excitationOn _ => true
  | .sample _ _ _ _ _ => true
  | .feConfigWrite _ _ _ => true
  | .clamp _ => true
  | .checkDue _ => true
  | .checkStart _ => true
  | .chkDone _ _ _ _ => true
  | .feCntClr => true
  | .feCheck k _ => k.WellFormed
  | .feSplineLoad k _ => k.WellFormed
  | .feSplineEval k _ => k.WellFormed
  | .coreWatchdogExpiry _ => true
  | .coreFail _ _ => true
  | .takeoverDone _ => true
  | .bcPromote k => k.WellFormed
  | .busRequest r => r.WellFormed
  | .remap _ => true
  | .interruptAssert _ => true
  | .interruptDelivery _ => true
  | .holdoffEnd _ => true
  | .icEoi _ _ => true
  | .icSwi _ => true
  | .fwLoad k => k.WellFormed
  | .fwVerify k => k.WellFormed
  | .verifyDone => true
  | .fwActivate k => k.WellFormed
  | .firmwareAbsenceStart => true
  | .swapDone _ => true
  | .swapReverted _ => true
  | .fwStatus k => k.WellFormed
  | .faultRaise z _ loc _ => placeGood z loc
  | .rowRemap => true
  | .faultAckWrite _ => true
  | .autoAck _ => true
  | .kick _ => true
  | .fwKickLost => true
  | .aliveToggle => true
  | .faCntClr => true
  | .pairDisc _ _ _ => true
  | .pairAgree _ _ _ => true
  | .pairCfgWrite _ _ => true
  | .faAck k => k.WellFormed
  | .faStatus k => k.WellFormed
  | .faAliveResume k => k.WellFormed
  | .jigArm k => k.WellFormed
  | .rpRowRemap k _ => k.WellFormed
  | .cdrLockGained _ => true
  | .codeSyncGained _ _ => true
  | .hiBerChange _ _ => true
  | .crefclkReturn => true
  | .clampRelease _ => true
  | .levelConditionEnd _ => true

end Sys2Proof
end

