-- ==== Sys2Proof/Safety.lean ====
section
/-!
DEFINITION. Safety.lean: the words that statements about the unit are written in: what a sound state is, when a command acts,
and what a step leaves as it was.
-/
namespace Sys2Proof.Machine

/-- The register store is in its canonical form: addresses strictly rising, no entry equal to its reset word. -/
def State.regsWf (s : State) : Prop := SMap.wf resetWord s.regs = true

/-- The records of the ports are in that form too. -/
def State.portsWf (s : State) : Prop := SMap.wf portDflt s.port = true

/-- Registers, ports and the two memories that the bus reaches byte by byte are in their canonical form. -/
def State.Canon (s : State) : Prop := s.regsWf ∧ s.portsWf ∧ Memory.wf s.bm.sram = true ∧ Memory.wf s.qm.pool = true

/-- The unit is out of internal reset and no fault has asked for one: commands act (R55, R669). -/
def State.Awake (s : State) : Prop := s.chip.held = false ∧ s.chip.resetDue = none

/-- The place of one instance of a field: its register's address, its lowest bit and its width. -/
def Field.at (f : Field) (i : Nat := 0) (j : Nat := 0) : Nat × Nat × Nat := (f.addr i j, f.lo, f.w)

/-- The whole register that holds one instance of a field. -/
def Field.word (f : Field) (i : Nat := 0) (j : Nat := 0) : Nat × Nat × Nat := (f.addr i j, 0, 32)

/-- Bit `b` of the register at `a` lies in one of the named fields. -/
def inFields (fs : List (Nat × Nat × Nat)) (a b : Nat) : Prop := ∃ f ∈ fs, f.1 = a ∧ f.2.1 ≤ b ∧ b < f.2.1 + f.2.2

/-- Every bit of every register outside the named fields is the same in `t` as in `s`. -/
def RegsKept (fs : List (Nat × Nat × Nat)) (s t : State) : Prop :=
  ∀ a b, ¬ inFields fs a b → (t.reg a).getLsbD b = (s.reg a).getLsbD b

/-- `t` is `s` but for the named fields of its registers: everything that is no register is the same too. -/
def Only (fs : List (Nat × Nat × Nat)) (s t : State) : Prop := t = { s with regs := t.regs } ∧ RegsKept fs s t

/-- The registers in which the event log stands (Tables 18.7, 18.8). -/
def logAddr (a : Nat) : Prop := a = 0x40130024 ∨ a = 0x4013002C ∨ (0x3C000000 ≤ a ∧ a < 0x3C010000)

/-! ### Parast commands for the unit itself -/

/-- A packet that the unit takes in as a command for its own address: it acts (R55), hears the bus (R159), is ADDRESSED with the
address that the packet carries (R137) and no RELEASE is taking it away (R116), and its packet checker is not armed (R678). -/
def Takes (s : State) (k : Pkt) : Prop :=
  s.Awake ∧ hears s k.edge (k.params.length + 8) = true ∧ s.get F.FA_JIG_LEFT 11 = 0 ∧ addressed s = true ∧
    k.addr.toNat = ownAddr s ∧ 1 ≤ ownAddr s ∧ ownAddr s ≤ 126 ∧ k.params.length ≤ 4096 ∧ s.mp.leaveAt = none

/-- What the unit makes of itself before such a command acts: the receiver is back in HUNT, a presence slot that has ended is over,
and the command is counted (R126, R158). -/
def taken (s : State) (k : Pkt) : State :=
  ({ s with mp.rx := {}, mp.rxEdge := k.edge + 1, ch.slot := slotLeft s k.edge } : State).bumpWrap F.MP_TXN_COUNT

/-- A packet that the unit takes in whose command firmware serves, with its result at edge `f` in time for the reply window
(R132, R133, R141, R142, R144). -/
def TakesFw (s : State) (k : Pkt) (f : Nat) : Prop :=
  Takes s k ∧ fwAway s = false ∧ tagWorking s .chain k.tag = false ∧ s.mp.ready = [] ∧ s.mp.job = none ∧ s.mp.bjob = none ∧
    s.mp.rjob = none ∧ s.mp.bcast = [] ∧ f + 8 ≤ k.edge + s.get F.MP_REPLY_WIN_WIN

/-- The fields in which the bridge keeps its own records (Table 4.8). -/
def bridgeFields : List (Nat × Nat × Nat) :=
  [F.MP_TXN_COUNT.word, F.MP_LAST_ERR.word, F.MP_STATUS_RESULT_READY.at, F.MP_STATUS_WORKING.at, F.MP_STATUS_BCAST_DEPTH.at]

/-- The command is counted and answered: one reply, with status `st` and `data`, is put behind those that wait, for edge `y`;
no register but the bridge's own and those of `fs` changes, and nothing else of the bridge but its replay memory. -/
def ServedAt (y : Nat) (fs : List (Nat × Nat × Nat)) (s t : State) (k : Pkt) (st : Nat) (data : List Byte) : Prop :=
  t.mp.out = s.mp.out ++ [{ y := y, bytes := mkReply (ownAddr s) st k.tag data }] ∧
  t.get F.MP_TXN_COUNT = (s.get F.MP_TXN_COUNT + 1) % 2 ^ 32 ∧
  RegsKept (bridgeFields ++ fs) s t ∧
  (st = St.ok → t.reg F.MP_LAST_ERR.addr = s.reg F.MP_LAST_ERR.addr)

/-- Answered at C + 16 (R132). -/
def Served (fs : List (Nat × Nat × Nat)) (s t : State) (k : Pkt) (st : Nat) (data : List Byte) : Prop :=
  ServedAt (k.edge + 16) fs s t k st data

/-- Answered by firmware, whose result comes at edge `f`: at F + 8, but not before C + 16 (R133). -/
def FwServed (f : Nat) (fs : List (Nat × Nat × Nat)) (s t : State) (k : Pkt) (st : Nat) (data : List Byte) : Prop :=
  ServedAt (max (k.edge + 16) (f + 8)) fs s t k st data

/-- Firmware has begun a command whose end is an event of its own (R143): counted, in progress, not answered yet. -/
def FwWaits (s t : State) (k : Pkt) : Prop :=
  (∃ j, t.mp.job = some j ∧ j.tag = k.tag ∧ j.params = k.params ∧ j.started = true ∧ j.pended = false ∧ j.orphan = false) ∧
  t.mp.out = s.mp.out ∧ t.get F.MP_TXN_COUNT = (s.get F.MP_TXN_COUNT + 1) % 2 ^ 32

/-- A store command of the chain as it begins: the copy it will write and its pages (R219). -/
def begunJob (s : State) (w : StoreWhat) : StoreJob :=
  { kind := .chain, what := w, copyB := (saveTarget s).1, pages := jobPages s w }

/-- Nothing but registers and the bridge differs. -/
def BusOnly (s t : State) : Prop := t = { s with regs := t.regs, mp := t.mp, ch := t.ch }

/-- A register whose writes set nothing off and are refused for no value (R182). -/
def PlainReg (a : Nat) : Prop :=
  a < 2 ^ 32 ∧ a % 4 = 0 ∧
  ∀ s v old, memAt s a = none ∧ judgeAll s a v = St.ok ∧ hookAll a v old s = s ∧ vselProbe s a v = s ∧ judgeState s [(a, v)] a = s

/-- The registers in which events of port p's receiver show: its status and events, its frame finder, its reference candidate. -/
def receiverFields (p : Nat) : List (Nat × Nat × Nat) :=
  [F.LP_STATUS.word p, F.LP_EVENT.word p, F.LP_EYE_BITS.word p, F.LP_EYE_ERR.word p, F.LP_MOD_STAT.word p, F.LF_PSTATUS.word p,
    F.LF_PEVENT.word p, F.LF_RX_NUM_F.word p, F.LF_RX_PHASE.word p, F.LF_FRAMING_CNT.word p, F.LF_MC_CNT.word p,
    F.TG_REF_STAT.word p, F.TG_REF_FREQ.word p]

/-- Nothing changes but those registers of port p and the fields of `fs`, the record of port p, the timing generator's marks
and the deskew copies. -/
def PortOnly (p : Nat) (fs : List (Nat × Nat × Nat)) (s t : State) : Prop :=
  t = { s with regs := t.regs, port := t.port, tg := t.tg, ps := t.ps } ∧ (∀ q, q ≠ p → t.portX q = s.portX q) ∧
  RegsKept (receiverFields p ++ fs) s t

/-- Nothing but registers and the record of port p differs. -/
def OnlyPort (p : Nat) (s t : State) : Prop :=
  t = { s with regs := t.regs, port := t.port } ∧ ∀ q, q ≠ p → t.portX q = s.portX q

/-- The checkers of these Jigs are not armed (R678). -/
def NoJig (js : List Nat) (s : State) : Prop := ∀ j ∈ js, s.get F.FA_JIG_LEFT j = 0

/-- A 64-bit counter in two registers, low half first (R172). -/
def State.get64 (s : State) (lo : Field) (i : Nat := 0) : Nat := s.get lo i + 2 ^ 32 * s.get { lo with base := lo.base + 4 } i

/-- The two registers of a 64-bit counter. -/
def Field.words64 (lo : Field) (i : Nat := 0) : List (Nat × Nat × Nat) :=
  [lo.word i, ({ lo with base := lo.base + 4 } : Field).word i]

/-- The consumer of queue q has not begun a packet, and the first that waits lies whole in one cell `c` (R398); no pointer or word of
the pool is bad. -/
def OneCell (s : State) (q : Nat) (p : QPkt) (ps : List QPkt) (c : Nat) : Prop :=
  (s.queueX q).pkts = p :: ps ∧ p.cells = [c] ∧ c < 16384 ∧ p.read = 0 ∧ 1 ≤ p.len ∧ p.len ≤ 64 ∧ (s.queueX q).rd = none ∧ (s.queueX q).buf = [] ∧
    qRunning s q = true ∧ NoJig [1, 8, 9, 10] s ∧ s.fa.badWords = [] ∧ s.qm.differ = []

/-- No producer holds a write (R400). -/
def NoWrites (s : State) : Prop :=
  (∀ e ∈ s.qm.trib, e.2.intake = []) ∧ (∀ e ∈ s.qm.client, e.2.store = []) ∧ ∀ e ∈ s.qm.queue, e.2.qdma = []

/-- The 16 bytes of LP_MOD_DATA[p] (R265). -/
def modBytes (s : State) (p : Nat) : List Byte := (List.range 4).flatMap fun j => toLE 4 (s.get F.LP_MOD_DATA p j)

/-- `n` cycles, all within the local frame in progress, in which nothing waits for the bus, no producer holds a write and the kick is
not lost; block TM has not been written in the first of them. -/
def Calm (s : State) (n : Nat) : Prop :=
  s.bm.waiting = [] ∧ NoWrites s ∧ (∀ d, toKickLost s = some d → n < d) ∧ n ≤ frameLeft s ∧
    s.tod.tmW = {}

/-- The same, with no correction of the time of day under way. -/
def Quiet (s : State) (n : Nat) : Prop := Calm s n ∧ s.tod.adj = 0

/-- The time of day in units of it since second 0. -/
def todTotal (s : State) : Int := (s.tod.sec : Int) * secondUnits + todUnits s

/-- The units after which the time of day comes back to 0. -/
def todTurn : Int := 2 ^ 48 * secondUnits

/-- The fields in which capture FIFO k, the internal one (4) or the interval FIFO (5) shows. -/
def fifoFields (k : Nat) : List (Nat × Nat × Nat) :=
  if k = 4 then F.KF_INT_STAT_DEPTH.at :: (List.range 4).map fun j => F.KF_INT_HEAD.word j
  else if k = 5 then F.KF_IV_STAT_DEPTH.at :: (List.range 4).map fun j => F.KF_IV_HEAD.word j
  else F.KF_IN_STAT_DEPTH.at k :: (List.range 4).map fun j => F.KF_HEAD.word k j

/-- FIFO k holds `l`, and its depth and head registers say so. -/
def FifoIs (t : State) (k : Nat) (l : List (List Nat)) : Prop :=
  kfFifo t k = l ∧
  (∀ j, j < 4 → (if k = 4 then t.get F.KF_INT_HEAD j else if k = 5 then t.get F.KF_IV_HEAD j else t.get F.KF_HEAD k j) =
    ((l.headD []).getD j 0) % 2 ^ 32) ∧
  (if k = 4 then t.get F.KF_INT_STAT_DEPTH else if k = 5 then t.get F.KF_IV_STAT_DEPTH else t.get F.KF_IN_STAT_DEPTH k) = l.length % 32

/-- Timer k counts edges of EVT[e] (R567). -/
def countsEdges (s : State) (k e : Nat) : Bool := tmEn s k && tmSrc s k == 3 && s.get F.TM_CFG_EVT_E k == e

/-- The fields of the event log (Tables 18.7, 18.8). -/
def logFields : List (Nat × Nat × Nat) :=
  F.FA_LOG_SEQ.word :: F.FA_LOG_LOST.word :: (List.range 4096).flatMap fun i => (List.range 4).map fun j => F.FA_LOG.word i j

/-- The entry of the event log whose SEQ is `n` says KIND, SUBJECT, DETAIL, INJECTED and ESCALATED (Table 18.7). -/
def Logged (t : State) (n kind subj detail : Nat) (inj esc : Bool := false) : Prop :=
  t.get F.FA_LOG (n % 4096) 0 = n ∧ t.get F.FA_LOG (n % 4096) 3 = kind * 2 ^ 24 + subj * 2 ^ 16 + detail % 65536 ∧
  (t.get F.FA_LOG (n % 4096) 2).testBit 31 = inj ∧ (t.get F.FA_LOG (n % 4096) 2).testBit 30 = esc

/-- One entry, of this content, is put at the end of the event log. -/
def LogsOne (s t : State) (kind subj detail : Nat) (inj esc : Bool := false) : Prop :=
  t.get F.FA_LOG_SEQ = (s.get F.FA_LOG_SEQ + 1) % 2 ^ 32 ∧ Logged t (s.get F.FA_LOG_SEQ) kind subj detail inj esc

/-- The registers in which an occurrence of source z shows (Table 18.10), beside the log. -/
def sourceFields (z : Nat) : List (Nat × Nat × Nat) :=
  [F.FA_OPEN.word, F.FA_ESC.word, F.FA_SRC_CNT.word z, F.FA_SRC_TIME.word z, F.FA_SRC_INFO.word z]

/-- Bits shifted through Shift-DR, the last of them on the way out of it. -/
def shiftBits : List Bool → List (Bool × Bool)
  | [] => []
  | [b] => [(true, b)]
  | b :: bs => (false, b) :: shiftBits bs

/-- From Run-Test/Idle through Capture-DR, Shift-DR and Update-DR back to it (IEEE 1149.1). -/
def drScan (tdi : List Bool) : List (Bool × Bool) :=
  [(true, false), (false, false), (false, false)] ++ shiftBits tdi ++ [(true, false), (false, false)]

/-- The command answers a next state of which `P` holds. -/
def Gives (c : Instr) (s : State) (P : State → Prop) : Prop := ∃ t, exec c s = .next t ∧ P t

end Sys2Proof.Machine
end

