-- ==== Sys2Proof/Certificates/Slice0/Obligations.lean ====
section
/-!
DEFINITION. Certificates/Slice0/Obligations.lean: what is claimed of the unit, family by family, from the numbered rules of
spec/.  `Gives c s P` says that command `c` answers a next state of which `P` holds; `Only fs s t` that `t` differs from
`s` in the named register fields only.
-/
open Sys2Proof Sys2Proof.Machine

/-- R55, R77, R91, R56, R80, Table 19.2: what begins a reset puts the unit into internal reset; a low rail takes the address
with it, a RESET_N or TEST_EN reset keeps it. Model's choices: register values at reset that the spec does not state are 0:
notes/assumptions/12. -/
def Obligations.ResetEntry : Prop := ∀ s : State,
  (∀ rail : Fin 7, Gives (.railLow rail) s fun t =>
    t.chip.held = true ∧ t.chip.counting = false ∧ t.chip.railLow.testBit rail.val = true ∧ t.get F.FA_GSTAT_LAST_RESET = 0 ∧
    t.pending = s.pending ∧ t.locks = 0 ∧ t.otp.uid = s.otp.uid ∧
    ∀ a, a < 0x70000000 → a ∉ [0x40010004, 0x400B0004, 0x4013000C, 0x40130004, 0x40130008] → ¬ logAddr a →
      t.reg a = resetWord a) ∧
  (s.chip.held = false → ∀ ns, 1000 ≤ ns → Gives (.resetNLow ns) s fun t =>
    t.chip.held = true ∧ t.chip.resetNLow = true ∧ t.get F.FA_GSTAT_LAST_RESET = 1 ∧ t.get F.FA_GSTAT_CAUSE_Z = 0xFF ∧
    t.pending = s.pending ∧ t.locks = 0 ∧ t.otp = s.otp ∧
    (s.fa.remapping = [] → t.reg 0x40130080 = s.reg 0x40130080) ∧
    ∀ a, a ∉ [0x40010004, 0x400B0004, 0x4013000C, 0x40130004, 0x40130008, 0x40130080] → ¬ logAddr a →
      t.reg a = if keptReg false a then s.reg a else resetWord a) ∧
  (∀ ns, ns ≤ 100 → Gives (.resetNLow ns) s fun t => t = s) ∧
  (s.chip.held = false → Gives .testEnHigh s fun t =>
    t.chip.held = true ∧ t.chip.testEn = true ∧ t.get F.FA_GSTAT_LAST_RESET = 2 ∧ t.pending = s.pending ∧ t.locks = 0 ∧
    (s.fa.remapping = [] → t.reg 0x40130080 = s.reg 0x40130080) ∧
    ∀ a, a ∉ [0x40010004, 0x400B0004, 0x4013000C, 0x40130004, 0x40130008, 0x40130080] → ¬ logAddr a →
      t.reg a = if keptReg false a then s.reg a else resetWord a) ∧
  (s.chip.held = true → Gives .testEnHigh s fun t =>
    t = { s with chip := t.chip } ∧ t.chip = { s.chip with counting := false, testEn := true })

/-- R55, R91, R701, R703: the last condition of R55 ends and 2 ms are counted; then internal reset is released, the DOWEL_IN
filter starts at the ball's level, DOWEL_OUT goes to the addressing state, CREF_OK and CREF_LOST show the clock, and the
cycles since the release start from 0. Model's choices: what POWER_GOOD and INTERNAL_RESET_RELEASE carry:
notes/assumptions/14; register values the spec does not state: notes/assumptions/12. -/
def Obligations.ResetRelease : Prop := ∀ s : State, s.chip.held = true →
  (∀ xo, Gives (.powerGood xo) s fun t =>
    t.chip.counting = true ∧ t.chip.railLow = 0 ∧ t.chip.resetNLow = false ∧ t.chip.testEn = false ∧ t.chip.xoBad = false ∧
    t.get F.FA_GSTAT_LAST_RESET = (if s.chip.lowRail && xo then 3 else s.get F.FA_GSTAT_LAST_RESET) ∧
    t = { s with chip := t.chip, regs := t.regs } ∧ RegsKept [F.FA_GSTAT_LAST_RESET.at] s t) ∧
  (∀ dowelIn cref, s.chip.counting = true → s.resetHeldBy = false → s.chip.hot = none → s.chip.railDip = 0 →
    s.chip.unlock = false → s.fa.remapping = [] →
    Gives (.internalResetRelease dowelIn cref) s fun t =>
      t.chip.held = false ∧ t.chip.counting = false ∧ t.cyc = 0 ∧ t.pending = s.pending ∧ t.locks = 0 ∧ t.otp = s.otp ∧
      t.get F.CH_STATUS_DOWEL_IN = b2n dowelIn ∧ (∀ c, c < 4 → t.get F.CL_STATUS_CREF_OK c = b2n cref ∧ (cref = false → t.get F.CL_EVENT_CREF_LOST c = 1)) ∧
      t.get F.CH_STATUS_DOWEL_OUT = t.get F.CH_ADDR_ADDRESSED ∧
      t.get F.FA_GSTAT_LAST_RESET = s.get F.FA_GSTAT_LAST_RESET ∧
      ∀ a, a ∉ [0x40010004, 0x400B0004, 0x4013000C, 0x40130004, 0x40130008] → ¬ logAddr a →
        (∀ c, c < 4 → a ≠ F.CL_STATUS_CREF_OK.addr c ∧ (cref = false → a ≠ F.CL_EVENT_CREF_LOST.addr c)) → t.reg a = if keptReg s.chip.lowRail a then s.reg a else resetWord a)

/-- R55, R73, R74, R76, R78, R71, R666: the events of the balls that do not reset the unit. A supply dip and a high
temperature raise SUPPLY_DIP (17) and TEMP_HIGH (16) once while their condition lasts; the end of the condition lets it raise
again. IDCODE shifts out CH_ID_PART, and BYPASS delays by one bit. Model's choices: the order of the boundary cells, and the
TAP after power-up: notes/assumptions/94 and 95. -/
def Obligations.BallEvents : Prop := ∀ s : State,
  Gives .tapTestLogicReset s (fun t =>
    t = { s with chip.tap := { s.chip.tap with st := .testLogicReset, ir := .idcode, tdo := [] } }) ∧
  (∀ i : TapInstr, Gives (.tapInstruction i []) s fun t =>
    t = { s with chip := { s.chip with
      tap := { s.chip.tap with st := .runTestIdle, ir := i, tdo := [] }
      tapUsed := s.chip.tapUsed || decide (i ∈ [.extest, .extestPulse, .extestTrain, .clamp, .highz]) } }) ∧
  (∀ tdi : List Bool, tdi.length = 32 → Gives (.tapInstruction .idcode (drScan tdi)) s fun t =>
    t.chip.tap.tdo = (List.range 32).map (fun i => (s.get F.CH_ID_PART).testBit i) ∧ t.chip.tap.st = .runTestIdle ∧
    t = { s with chip.tap := t.chip.tap }) ∧
  (∀ tdi : List Bool, tdi ≠ [] → Gives (.tapInstruction .bypass (drScan tdi)) s fun t =>
    t.chip.tap.tdo = false :: tdi.dropLast ∧ t = { s with chip.tap := t.chip.tap }) ∧
  (s.Awake → ∀ rail : Fin 7, s.chip.railLow.testBit rail.val = false → Gives (.supplyDip rail) s fun t =>
    let d : State := { s with chip.railDip := s.chip.railDip ||| 2 ^ rail.val }
    let d : State := if rail = 4 then d.driveDowel 0 else d
    (s.fa.level.testBit 17 = true → t = d) ∧
    (s.fa.level.testBit 17 = false → t = settle (raise { d with fa.level := s.fa.level ||| 2 ^ 17 } 17 rail.val)) ∧
    (rail = 4 → t.ioDip = true ∧ d.get F.CH_STATUS_DOWEL_OUT = 0)) ∧
  (s.Awake → ∀ tenths, 1150 ≤ tenths → Gives (.tempHigh tenths) s fun t =>
    (s.fa.level.testBit 16 = true → t = { s with chip.hot := some tenths }) ∧
    (s.fa.level.testBit 16 = false → t = settle (raise { s with
      chip.hot := some tenths, fa.level := s.fa.level ||| 2 ^ 16 } 16 tenths))) ∧
  (∀ z : Fin 23, Gives (.levelConditionEnd z) s fun t =>
    t.fa.level.testBit z.val = false ∧ (∀ y : Fin 23, y ≠ z → t.fa.level.testBit y.val = s.fa.level.testBit y.val) ∧
    t = { s with fa.level := t.fa.level, chip := t.chip, regs := t.regs } ∧
    t.chip = { s.chip with hot := t.chip.hot, railDip := t.chip.railDip, unlock := t.chip.unlock } ∧ (z ≠ 17 → t.regs = s.regs) ∧
    RegsKept [F.CH_STATUS_DOWEL_OUT.at] s t ∧
    (z = 22 → t.chip.unlock = false) ∧ (z = 17 → t.chip.railDip = 0 ∧ (s.chip.held = false → s.chip.railLow = 0 →
      t.get F.CH_STATUS_DOWEL_OUT = s.get F.CH_ADDR_ADDRESSED))) ∧
  (s.Awake → ∀ level, Gives (.dowelInChange level) s fun t =>
    t.get F.CH_STATUS_DOWEL_IN = b2n level ∧
    (s.on F.CH_STATUS_DOWEL_IN = true → level = false → addressed s = true → t.get F.CH_STATUS_UPSTREAM_DROP = 1) ∧
    (s.on F.CH_STATUS_DOWEL_IN = false ∨ level = true ∨ addressed s = false →
      t.get F.CH_STATUS_UPSTREAM_DROP = s.get F.CH_STATUS_UPSTREAM_DROP) ∧
    Only [F.CH_STATUS_DOWEL_IN.at, F.CH_STATUS_UPSTREAM_DROP.at] s t)

/-- R95, R102, R148: what PING, IDENTIFY, POLL, REPLAY and QUIET answer at the unit's own address. -/
def Obligations.SessionCommands : Prop := ∀ (s : State) (k : Pkt), Takes s k →
  (k.params = [] → Gives (.ping k) s fun t =>
    Served [] s t k St.ok (toLE 4 ((s.get F.MP_TXN_COUNT + 1) % 2 ^ 32)) ∧ BusOnly s t) ∧
  (k.params = [] → Gives (.identify k) s fun t =>
    Served [] s t k St.ok (toLE 4 (s.get F.CH_ID_PART) ++ toLE 12 s.otp.uid.toNat ++
      (List.range 16).flatMap fun j => toLE 4 (s.get F.CH_ASSET j)) ∧ BusOnly s t) ∧
  (∀ g e, k.params = [g] → findEntry s .chain g = some e → e.done = true → e.final.length ≤ 4096 →
    Gives (.poll k) s fun t => Served [] s t k St.ok e.final ∧ BusOnly s t) ∧
  (∀ g, k.params = [g] → findEntry s .chain g = none →
    (Gives (.poll k) s fun t => Served [] s t k St.notPresent [] ∧ BusOnly s t) ∧
    (Gives (.replay k) s fun t => Served [] s t k St.notPresent [] ∧ BusOnly s t)) ∧
  (∀ g e, k.params = [g] → findEntry s .chain g = some e → e.firstSent = true → e.first.length ≤ 4096 →
    Gives (.replay k) s fun t => Served [] s t k St.ok e.first ∧ BusOnly s t) ∧
  (∀ v : Byte, k.params = [v] → v.toNat < 4 → Gives (.quiet k) s fun t =>
    Served [F.CH_STATUS_QUIET_DISC.at, F.CH_STATUS_QUIET_IRQ.at] s t k St.ok [] ∧ BusOnly s t ∧
    t.get F.CH_STATUS_QUIET_DISC = v.toNat % 2 ∧ t.get F.CH_STATUS_QUIET_IRQ = v.toNat / 2)

/-- R93, R95, R97, R98, R99, R101, R116, Table 3.2: taking an address, leaving it, and the presence slot. A unicast RELEASE
is answered first; the unit leaves ADDRESSED at the end of its reply (`Obligations.ReplyTiming`). Model's choices: replies of
the ASSIGN commands and the presence slot: notes/assumptions/25 and 26. -/
def Obligations.Addressing : Prop := ∀ (s : State) (k : Pkt), s.Awake →
  hears s k.edge (k.params.length + 8) = true → s.get F.FA_JIG_LEFT 11 = 0 → s.mp.leaveAt = none → s.ioDip = false →
  (∀ a : Byte, k.addr = 0 → addressed s = false → 1 ≤ a.toNat → a.toNat ≤ 126 →
    (k.params = [a] → s.on F.CH_STATUS_DOWEL_IN = true → Gives (.assignNext k) s fun t =>
      ownAddr t = a.toNat ∧ addressed t = true ∧ t.get F.CH_STATUS_DOWEL_OUT = 1 ∧ t.get F.CH_ASSIGN_LOG_LAST_BY_ID = 0 ∧
      t.get F.CH_ASSIGN_LOG_ASSIGN_COUNT = min (s.get F.CH_ASSIGN_LOG_ASSIGN_COUNT + 1) 65535 ∧
      t.get F.MP_TXN_COUNT = (s.get F.MP_TXN_COUNT + 1) % 2 ^ 32 ∧ t.mp.replay = [] ∧
      t.mp.out = s.mp.out ++ [{ y := k.edge + 16, bytes := mkReply a.toNat St.ok k.tag (toLE 12 s.otp.uid.toNat) }] ∧ BusOnly s t) ∧
    (k.params = toLE 12 s.otp.uid.toNat ++ [a] → Gives (.assignById k) s fun t =>
      ownAddr t = a.toNat ∧ addressed t = true ∧ t.get F.CH_STATUS_DOWEL_OUT = 1 ∧ t.get F.CH_ASSIGN_LOG_LAST_BY_ID = 1 ∧
      t.get F.CH_ASSIGN_LOG_ASSIGN_COUNT = min (s.get F.CH_ASSIGN_LOG_ASSIGN_COUNT + 1) 65535 ∧
      t.get F.MP_TXN_COUNT = (s.get F.MP_TXN_COUNT + 1) % 2 ^ 32 ∧ t.mp.replay = [] ∧
      t.mp.out = s.mp.out ++ [{ y := k.edge + 16, bytes := mkReply a.toNat St.ok k.tag (toLE 12 s.otp.uid.toNat) }] ∧ BusOnly s t)) ∧
  (Takes s k → k.params = [0x5A] → Gives (.release k) s fun t =>
    t.mp.out = s.mp.out ++ [{ y := k.edge + 16, bytes := mkReply (ownAddr s) St.ok k.tag [], release := true }] ∧
    t.get F.MP_TXN_COUNT = (s.get F.MP_TXN_COUNT + 1) % 2 ^ 32 ∧ BusOnly s t ∧ RegsKept [F.MP_TXN_COUNT.word] s t) ∧
  (addressed s = true → k.addr = 127 → k.params = [0x5A] → Gives (.release k) s fun t =>
    ownAddr t = 0 ∧ addressed t = false ∧ t.get F.CH_STATUS_QUIET_DISC = 0 ∧ t.get F.CH_STATUS_QUIET_IRQ = 0 ∧
    t.get F.CH_STATUS_DOWEL_OUT = 0 ∧ t.mp.replay = [] ∧ t.mp.out = [] ∧ BusOnly s t) ∧
  (∀ (scope : Byte) (l : Byte) (prefix_ : List Byte), k.addr = 127 → k.params = scope :: l :: prefix_ → prefix_.length = 12 →
    scope.toNat ≤ 1 → l.toNat % 4 = 0 → l.toNat ≤ 92 → (scope = 1 ∨ addressed s = false) → s.on F.CH_STATUS_QUIET_DISC = false →
    Gives (.discover k) s fun t =>
      (s.otp.uid.toNat / 2 ^ (96 - l.toNat) = leAt prefix_ 0 12 / 2 ^ (96 - l.toNat) →
        t.ch.slot = some (k.edge, bitsOf s.otp.uid.toNat (92 - l.toNat) 4) ∧ t.get F.MP_TXN_COUNT = (s.get F.MP_TXN_COUNT + 1) % 2 ^ 32) ∧
      (s.otp.uid.toNat / 2 ^ (96 - l.toNat) ≠ leAt prefix_ 0 12 / 2 ^ (96 - l.toNat) →
        t.ch.slot = slotLeft s k.edge ∧ t.get F.MP_TXN_COUNT = s.get F.MP_TXN_COUNT) ∧
      BusOnly s t ∧ RegsKept [F.MP_TXN_COUNT.word] s t) ∧
  Gives .presenceSlotTimeout s (fun t => t = { s with ch.slot := none })

/-- R182, R185, R197, R198, R199: the register-access commands on one word that is a plain register of the unit: what is read
is what the register shows in the snapshot, RW bits take the value written and W1C bits written 1 clear; LOCK sets the locks
named in its mask, which only reset clears, and answers them all. Model's choices: the order of reading, storing and acting:
notes/assumptions/29 and 30. -/
def Obligations.RegisterAccess : Prop := ∀ (s : State) (k : Pkt), Takes s k →
  (∀ a : Nat, PlainReg a →
  (specAt a ≠ none → eccPlace s a = none →
    (k.params = toLE 4 a → Gives (.read k) s fun t =>
      Served [] s t k St.ok (toLE 4 (regView (taken s k) a)) ∧ BusOnly s t) ∧
    (k.params = toLE 4 a ++ toLE 2 1 → Gives (.readBlock k) s fun t =>
      Served [] s t k St.ok (toLE 4 (regView (taken s k) a)) ∧ BusOnly s t) ∧
    (k.params = toLE 4 a → Gives (.snapshot k) s fun t =>
      Served [] s t k St.ok (toLE 4 (regView (taken s k) a)) ∧ BusOnly s t)) ∧
  (∀ r (v : Word), specAt a = some r → (r.lock && s.locked (lockBlock a)) = false → r.otp = 0 →
    a ∉ [0x40000008, 0x4000000C, 0x40000010] →
    (k.params = toLE 4 a ++ toLE 4 v.toNat → Gives (.write k) s fun t =>
      Served [(a, 0, 32)] s t k St.ok [] ∧ t.reg a = BitVec.ofNat 32 (mergeWrite r (s.reg a).toNat v.toNat) ∧ BusOnly s t) ∧
    (k.params = toLE 4 a ++ toLE 4 v.toNat → Gives (.writeBlock k) s fun t =>
      Served [(a, 0, 32)] s t k St.ok [] ∧ t.reg a = BitVec.ofNat 32 (mergeWrite r (s.reg a).toNat v.toNat) ∧ BusOnly s t) ∧
    (∀ mask : Word, eccPlace s a = none → k.params = toLE 4 a ++ toLE 4 mask.toNat ++ toLE 4 v.toNat →
      Gives (.modify k) s fun t =>
        Served [(a, 0, 32)] s t k St.ok (toLE 4 (regView (taken s k) a)) ∧
        t.reg a = BitVec.ofNat 32 (mergeWrite r (s.reg a).toNat
          ((((s.reg a).toNat &&& (0xFFFFFFFF ^^^ (r.w1c ||| r.wo))) &&& (0xFFFFFFFF ^^^ mask.toNat)) ||| (v.toNat &&& mask.toNat))) ∧
        BusOnly s t) ∧
    (Gives (.registerWrite (BitVec.ofNat 32 a) v) s fun t =>
      t = s.setReg a (BitVec.ofNat 32 (mergeWrite r (s.reg a).toNat v.toNat)))) ∧
  (∀ r (v : Word), specAt a = some r → r.lock = true → s.locked (lockBlock a) = true → a ≠ 0x4000001C →
    (k.params = toLE 4 a ++ toLE 4 v.toNat → Gives (.write k) s fun t =>
      Served [F.MP_LOCK_VIOL_COUNT.at] s t k St.locked (toLE 4 a ++ toLE 2 1) ∧ t.reg a = s.reg a ∧
      t.get F.MP_LOCK_VIOL_COUNT = min (s.get F.MP_LOCK_VIOL_COUNT + 1) 65535 ∧ BusOnly s t))) ∧
  (∀ m, m < 2 ^ 21 → k.params = toLE 4 m → Gives (.lock k) s fun t =>
    Served [] s t k St.ok (toLE 4 (s.locks ||| m)) ∧ t.locks = s.locks ||| m ∧
    t = { s with regs := t.regs, mp := t.mp, ch := t.ch, locks := t.locks })

/-- R105, R106, R189, R191: a CH_ASSET word that is not spent takes a value that keeps every bit already burnt; the burn then
runs, and its end burns the spent marker. -/
def Obligations.AssetProgramming : Prop := ∀ (s : State) (k : Pkt), 
  (Takes s k → ∀ j (v : Word), j < 16 → k.params = toLE 4 (0x70000040 + 4 * j) ++ toLE 4 v.toNat → s.otp.burn = none →
    bitOf (s.get F.CH_ASSET_SPENT_SPENT) j = false → s.get F.CH_ASSET j &&& v.toNat = s.get F.CH_ASSET j →
    Gives (.otpProgram k) s fun t =>
      Served [F.CH_ASSET.at j] s t k St.ok [] ∧ t.get F.CH_ASSET j = v.toNat ∧
      t.otp = { s.otp with burn := some (j, s.reg (0x70000040 + 4 * j)) } ∧
      t = { s with regs := t.regs, mp := t.mp, ch := t.ch, otp := t.otp }) ∧
  (Takes s k → ∀ j (v : Word), j < 16 → k.params = toLE 4 (0x70000040 + 4 * j) ++ toLE 4 v.toNat → s.otp.burn = none →
    bitOf (s.get F.CH_ASSET_SPENT_SPENT) j = true → v.toNat ≠ s.get F.CH_ASSET j →
    Gives (.otpProgram k) s fun t => Served [] s t k St.spent [] ∧ BusOnly s t) ∧
  (s.Awake → ∀ j w, j < 16 → s.otp.burn = some (j, w) → Gives .otpBurnComplete s fun t =>
    t.otp = { s.otp with burn := none } ∧ t.get F.CH_ASSET_SPENT_SPENT = s.get F.CH_ASSET_SPENT_SPENT ||| 2 ^ j ∧
    t = { s with otp := t.otp, regs := t.regs } ∧ RegsKept [F.CH_ASSET_SPENT_SPENT.at] s t)

/-- R128, Table 4.3: from its idle state the receive machine takes a whole command packet back as it was sent, follows a
whole reply to its end, and gives up a header whose LEN is above 4,096. Model's choices: what the opcode rows carry:
notes/assumptions/16. -/
def Obligations.ReceiveMachine : Prop :=
  (∀ bytes, rawPacket bytes = true →
    rxBits { zeros := 8 } (bitsOfBytes (0xD3 :: bytes)) = ({}, [.command bytes]) ∧
    rxBits { zeros := 8 } (bitsOfBytes (0xB4 :: bytes)) = ({}, [.replyEnd])) ∧
  (∀ (reply : Bool) (addr op tag : Byte) (len : BitVec 16), 4096 < len.toNat →
    rxBits { zeros := 8 } (bitsOfBytes ((if reply then 0xB4 else 0xD3) :: addr :: op :: tag :: toLE 2 len.toNat)) =
      ({}, [.tooLong (!reply) (addr :: op :: tag :: toLE 2 len.toNat)]))

/-- R128, R158: a command whose CRC is wrong has no effect but its count and its record; a LEN above 4,096 is recorded
BAD_LENGTH for a command and leaves nothing else; another unit's reply is followed to its end; a packet whose opcode is not
defined draws BAD_OPCODE (R140); MP_CNT_CLR clears the counts of block MP one by one, and a 1 written to MP_LAST_ERR.VALID
the whole record (R157). Model's choices: what the rows of the receiver carry: notes/assumptions/16. -/
def Obligations.BusErrors : Prop := ∀ s : State,
  (s.Awake → s.mp.leaveAt = none → ∀ edge : Nat,
    (∀ bytes, rawPacket bytes = true → hears s edge (bytes.length + 1) = true → s.get F.FA_JIG_LEFT 11 = 0 →
      crc16 (bytes.take (bytes.length - 2)) ≠ leAt bytes (bytes.length - 2) 2 →
      Gives (.badCrc bytes edge) s fun t =>
        t.get F.MP_BAD_CRC_COUNT = min (s.get F.MP_BAD_CRC_COUNT + 1) 65535 ∧
        t.get F.MP_LAST_ERR = 2 ^ 31 + (bytes.headD 0).toNat % 128 * 2 ^ 24 + byteAt bytes 1 * 2 ^ 16 +
          (bytes.getD 2 0).toNat * 2 ^ 8 + St.badCrc ∧
        t = { s with regs := t.regs, mp.rx := {}, mp.rxEdge := edge + 1, ch.slot := slotLeft s edge } ∧
        RegsKept [F.MP_BAD_CRC_COUNT.at, F.MP_LAST_ERR.word] s t) ∧
    (∀ addr op tag (len : BitVec 16), hears s edge 6 = true → 4096 < len.toNat →
      (Gives (.lenAbove4096 false addr op tag len edge) s fun t =>
        t.get F.MP_LAST_ERR = 2 ^ 31 + addr.toNat % 128 * 2 ^ 24 + op.toNat * 2 ^ 16 + tag.toNat * 2 ^ 8 + St.badLength ∧
        t = { s with regs := t.regs, mp.rx := {}, mp.rxEdge := edge + 1, ch.slot := slotLeft s edge } ∧
        RegsKept [F.MP_LAST_ERR.word] s t) ∧
      (Gives (.lenAbove4096 true addr op tag len edge) s fun t =>
        t = { s with mp.rx := {}, mp.rxEdge := edge + 1, ch.slot := slotLeft s edge })) ∧
    (∀ bytes, hears s edge (bytes.length + 1) = true → rawPacket bytes = true → Gives (.replyFollow bytes edge) s fun t =>
      t = { s with mp.rx := {}, mp.rxEdge := edge + 1, ch.slot := slotLeft s edge })) ∧
  (∀ (k : Pkt) (op : Byte), Takes s k → ownRow op.toNat = none →
    Gives (.badCrc ((packetBytes op.toNat k).drop 1) k.edge) s fun t => Served [] s t k St.badOpcode [] ∧ BusOnly s t) ∧
  (s.Awake →
    (Gives .clearMpBadCrc s fun t => t.reg F.MP_BAD_CRC.addr = 0 ∧ Only [F.MP_BAD_CRC.word] s t) ∧
    (Gives .clearMpBcastDrop s fun t => t.reg F.MP_BCAST_DROP.addr = 0 ∧ Only [F.MP_BCAST_DROP.word] s t) ∧
    (Gives .clearMpLockViol s fun t => t.reg F.MP_LOCK_VIOL.addr = 0 ∧ Only [F.MP_LOCK_VIOL.word] s t) ∧
    (Gives .lastErrClear s fun t => t.reg F.MP_LAST_ERR.addr = 0 ∧ Only [F.MP_LAST_ERR.word] s t))

/-- R93, R116, R131, R133: at its edge the first of the waiting replies goes out after SYNC; at the end of the reply to
RELEASE the unit leaves ADDRESSED, and not before; where no result has come in time the unit answers PENDING at the end of
the reply window. Model's choices: when PCLK has reached an edge: notes/assumptions/25. -/
def Obligations.ReplyTiming : Prop := ∀ s : State, s.Awake →
  (∀ r rest edge, s.mp.out = r :: rest → r.y ≤ edge → s.tapOwns = false → s.mp.leaveAt = none →
    let last := r.y + 8 * (r.bytes.length + 1)
    Gives (.replyStart edge) s fun t =>
      (r.release = false ∨ addressed s = false → t = { s with
        mp := { s.mp with
          out := rest, wire := if s.ioDip then none else some (r.y, 0xB4 :: r.bytes), rx := {}, rxEdge := max s.mp.rxEdge last }
        ch.slot := slotLeft s edge }) ∧
      (r.release = true → addressed s = true → edge + 1 < last →
        addressed t = true ∧ ownAddr t = ownAddr s ∧ t.mp.leaveAt = some (last - 1) ∧ t.mp.out = rest ∧ t.regs = s.regs) ∧
      (r.release = true → addressed s = true → last ≤ edge + 1 →
        addressed t = false ∧ ownAddr t = 0 ∧ t.get F.CH_STATUS_DOWEL_OUT = 0 ∧ t.get F.CH_STATUS_QUIET_DISC = 0 ∧
        t.get F.CH_STATUS_QUIET_IRQ = 0 ∧ t.mp.replay = [] ∧ t.mp.out = []) ∧
      t = { s with regs := t.regs, mp := t.mp, ch := t.ch } ∧
      RegsKept (F.CH_STATUS_DOWEL_OUT.at :: F.CH_ADDR.word :: F.CH_STATUS_QUIET_DISC.at :: F.CH_STATUS_QUIET_IRQ.at ::
        [F.MP_STATUS_RESULT_READY.at, F.MP_STATUS_WORKING.at, F.MP_STATUS_BCAST_DEPTH.at]) s t) ∧
  (∀ j, s.mp.job = some j → j.pended = false → j.orphan = false → Gives .pendingReply s fun t =>
    t.mp.job = some { j with pended := true } ∧
    t.mp.out = s.mp.out ++ [{ y := j.edge + j.win, bytes := mkReply (ownAddr s) St.pending j.tag [] }] ∧
    t = { s with regs := t.regs, mp := { s.mp with job := t.mp.job, replay := t.mp.replay, out := t.mp.out } } ∧
    RegsKept [F.MP_STATUS_RESULT_READY.at, F.MP_STATUS_WORKING.at, F.MP_STATUS_BCAST_DEPTH.at] s t)

/-- R141, R143, R144, R145: the result of a firmware-served command whose action an event of its own has ended is taken in
and answered; the oldest queued broadcast begins service when no older command is in progress. Model's choices: how a result
comes to the unit and which command goes first: notes/assumptions/19 and 28. -/
def Obligations.FirmwareService : Prop := ∀ s : State, s.Awake →
  (∀ j st data f, s.mp.job = some j → j.orphan = false → j.pended = false → f + 8 ≤ j.edge + j.win →
    s.mp.ready = [(.chain, st, data)] → Gives (.firmwareCommandComplete .chain f) s fun t =>
      t.mp.job = none ∧ t.mp.ready = [] ∧
      t.mp.out = s.mp.out ++ [{ y := max (j.edge + 16) (f + 8), bytes := mkReply (ownAddr s) st j.tag data }] ∧
      t = { s with regs := t.regs, mp := { s.mp with job := none, ready := [], replay := t.mp.replay, out := t.mp.out } } ∧
      RegsKept bridgeFields s t) ∧
  (∀ j js, s.mp.bcast = j :: js → s.mp.bjob = none → s.mp.job = none → s.mp.rjob = none → s.on F.MP_STATUS_FW_READY = true →
    Gives .broadcastServe s fun t =>
      t.mp = { s.mp with bjob := some j, bcast := js } ∧ t = { s with regs := t.regs, mp := t.mp } ∧
      RegsKept [F.MP_STATUS_RESULT_READY.at, F.MP_STATUS_WORKING.at, F.MP_STATUS_BCAST_DEPTH.at] s t)

/-- R151, R152, R153, R154: a REMOTE sends its inner command on its port and waits; the far unit executes an inner command
that it accepts and answers on the port, with PENDING after 16 frames; the inner reply completes the REMOTE with OK, and 64
frames without one complete it with NOT_PRESENT. Model's choices: how an inner reply is matched: notes/assumptions/27. -/
def Obligations.RemoteCommands : Prop := ∀ s : State,
  (∀ (k : Pkt) f (p : Byte) inner, TakesFw s k f → k.params = p :: inner → p.toNat < 16 → innerGood inner = true →
    portInSync s p.toNat = true → Gives (.remote k (some f)) s fun t =>
      (t.portX p.toNat).mcOut = (s.portX p.toNat).mcOut ++ [{ ty := 1, bytes := inner, ref := some s.mp.remoteSeq }] ∧
      t.mp.remote = s.mp.remote ++ [{ kind := .chain, port := p.toNat, id := s.mp.remoteSeq, tag := inner.getD 2 0 }] ∧
      t.mp.remoteSeq = s.mp.remoteSeq + 1 ∧
      t.mp.job.isSome = true ∧ t.mp.out = s.mp.out ∧ t = { s with regs := t.regs, mp := t.mp, ch := t.ch, port := t.port } ∧
      RegsKept bridgeFields s t) ∧
  (s.Awake → ∀ (p : Fin 16) tag, (s.portX p).inbox = some { ty := 1, bytes := mkReply 0 0 tag [] } →
    s.on F.MP_CTRL_REMOTE_ACCEPT = true → tagWorking s .remote tag = false → Gives (.remoteInnerAccept p) s fun t =>
      (t.portX p).inbox = none ∧
      (t.portX p).mcOut = (s.portX p).mcOut ++
        [{ ty := 2, bytes := mkReply 0 St.ok tag (toLE 4 ((s.get F.MP_TXN_COUNT + 1) % 2 ^ 32)) }] ∧
      t.get F.MP_TXN_COUNT = (s.get F.MP_TXN_COUNT + 1) % 2 ^ 32 ∧
      t = { s with regs := t.regs, mp := t.mp, port := t.port } ∧ RegsKept bridgeFields s t) ∧
  (s.Awake → ∀ j, s.mp.rjob = some j → j.pended = false → 16 ≤ j.age → Gives .remoteInnerPending s fun t =>
    t.mp.rjob = some { j with pended := true } ∧
    (t.portX j.port).mcOut = (s.portX j.port).mcOut ++ [{ ty := 2, bytes := mkReply 0 St.pending j.tag [] }] ∧
    t = { s with regs := t.regs, mp := t.mp, port := t.port } ∧ RegsKept bridgeFields s t) ∧
  (s.Awake → ∀ (p : Fin 16) w bytes, (s.portX p).inbox = some { ty := 2, bytes := bytes } → bytes.length ≤ 4096 →
    s.mp.remote = [w] → w.port = p.val → w.tag = bytes.getD 2 0 → w.sent = true → Gives (.remoteInnerReply p) s fun t =>
      (t.portX p).inbox = none ∧ t.mp = { s.mp with remote := [], ready := s.mp.ready ++ [(w.kind, St.ok, bytes)] } ∧
      t = { s with mp := t.mp, port := t.port }) ∧
  (s.Awake → ∀ w, s.mp.remote = [w] → w.sent = true → 64 ≤ w.age → replyArriving s w = false →
    Gives .remoteExpiry s fun t =>
      t = { s with mp.remote := [], mp.ready := s.mp.ready ++ [(w.kind, St.notPresent, [])] })

/-- R221, R222, R623, R705: a core that passes its self-test changes nothing; the boot load falls 8 ms after the release or
later, and ends with BOOT_LOAD 0 where it is skipped, with BOOT_REFUSED and 3 where no copy is valid, and with the copy it
took; firmware reports ready after it; and BOOT_SKIP counts only before it. Model's choices: a boot load with a role left
without a core: notes/assumptions/35. -/
def Obligations.BootSequence : Prop := ∀ s : State, s.Awake →
  (∀ n, Gives (.coreSelfTest n true) s fun t => t = s) ∧
  (s.cf.bootDone = true ∨ s.cyc < bootEarliest → Gives .bootLoad s fun t => t = s) ∧
  (s.cf.bootDone = false → bootEarliest ≤ s.cyc → s.dir.bootMode = false ∨ s.cf.bootSkip = true ∨ s.bc.bare ≠ [] → Gives .bootLoad s fun t =>
    t.get F.CF_STATUS_BOOT_LOAD = 0 ∧ t = { s with cf.bootDone := true, regs := t.regs } ∧ RegsKept [F.CF_STATUS_BOOT_LOAD.at] s t) ∧
  (s.cf.bootDone = false → bootEarliest ≤ s.cyc → s.dir.bootMode = true → s.cf.bootSkip = false → s.bc.bare = [] →
    (newestCopy s = none → Gives .bootLoad s fun t =>
      t.get F.CF_STATUS_BOOT_LOAD = 3 ∧ t.get F.CF_EVENT_BOOT_REFUSED = 1 ∧ t = { s with cf.bootDone := true, regs := t.regs } ∧
      RegsKept [F.CF_STATUS_BOOT_LOAD.at, F.CF_EVENT_BOOT_REFUSED.at] s t) ∧
    (∀ b u, newestCopy s = some b → bootTry { s with cf.bootDone := true } b = (u, true) → u.chip.resetDue = none →
      Gives .bootLoad s fun t => t.get F.CF_STATUS_BOOT_LOAD = 1 + b2n b ∧ Only [F.CF_STATUS_BOOT_LOAD.at] u t)) ∧
  (s.cf.bootDone = true ∨ s.cf.bootSkip = true ∨ s.dir.bootMode = false → Gives .fwReady s fun t =>
    (s.bc.takeover = none → s.bc.bare = [] → s.bc.swap = none → t.get F.MP_STATUS_FW_READY = 1) ∧
    t = { s with bc.booted := true, regs := t.regs } ∧ RegsKept [F.MP_STATUS_FW_READY.at] s t) ∧
  (s.cf.bootDone = false → s.dir.bootMode = true → Gives .bootSkip s fun t =>
    t = { s with cf.bootSkip := true, regs := t.regs } ∧ RegsKept [] s t) ∧
  (s.cf.bootDone = true → Gives .bootSkip s fun t => Only [] s t)

/-- R216, R217, R220, R231: the carcass opcodes that end at once: the staging buffer filled by capture or by the host and
read back, a copy read, an image of one plain register loaded with its locks. Model's choices: what the row of a
firmware-served command carries: notes/assumptions/28. -/
def Obligations.CarcassCommands : Prop := ∀ (s : State) (k : Pkt) (f : Nat), TakesFw s k f →
  (∀ m, m < 2 ^ 21 → k.params = toLE 4 m → Gives (.carcassCapture k (some f)) s fun t =>
    ((captureImage s m).length ≤ imageRoom →
      FwServed f [F.CF_STAGE_LEN_LEN.at] s t k St.ok
        (toLE 4 (captureImage s m).length ++ (captureImage s m).drop ((captureImage s m).length - 4)) ∧
      t.get F.CF_STAGE_LEN_LEN = (captureImage s m).length ∧
      t = { s with regs := t.regs, mp := t.mp, ch := t.ch, cf.staging := openPut [] 0 (captureImage s m) }) ∧
    (imageRoom < (captureImage s m).length → FwServed f [] s t k St.range [] ∧ BusOnly s t)) ∧
  (∀ off data, k.params = toLE 4 off ++ data → 4 ≤ data.length → data.length % 4 = 0 → data.length ≤ 4088 →
    off + data.length ≤ imageRoom → Gives (.carcassPut k (some f)) s fun t =>
      FwServed f [F.CF_STAGE_LEN_LEN.at] s t k St.ok [] ∧
      t.get F.CF_STAGE_LEN_LEN = max (s.get F.CF_STAGE_LEN_LEN) (off + data.length) ∧
      t = { s with regs := t.regs, mp := t.mp, ch := t.ch, cf.staging := openPut s.cf.staging off data } ∧
      stagingBytes t off data.length = data) ∧
  (∀ off n, off + n ≤ imageRoom → 4 ≤ n → n ≤ 4088 → n % 4 = 0 →
    (k.params = 0 :: (toLE 4 off ++ toLE 2 n) → Gives (.carcassGet k (some f)) s fun t =>
      FwServed f [] s t k St.ok (stagingBytes s off n) ∧ BusOnly s t) ∧
    (∀ b, k.params = (if b then 3 else 2) :: (toLE 4 off ++ toLE 2 n) → (validCopy s b).isSome = true → s.get F.FA_JIG_LEFT 6 = 0 →
      Gives (.carcassGet k (some f)) s fun t =>
        FwServed f [] s t k St.ok (storeBytes s (pageBytes * copyPage b + off) n) ∧ BusOnly s t)) ∧
  (∀ a v len m r, k.params = [0] → PlainReg a → specAt a = some r → (r.lock && s.locked (lockBlock a)) = false →
    s.get F.FA_JIG_LEFT 13 = 0 → a ∉ [0x40000008, 0x4000000C, 0x40000010] →
    (validate s (stagedImage s) (s.get F.CF_STAGE_LEN_LEN)).2 = .good [(a, v)] len m → Gives (.carcassLoad k (some f)) s fun t =>
      FwServed f [(a, 0, 32)] s t k St.ok [] ∧ t.reg a = BitVec.ofNat 32 (mergeWrite r (s.reg a).toNat v) ∧
      t.locks = s.locks ||| m ∧ t = { s with regs := t.regs, mp := t.mp, ch := t.ch, locks := t.locks })

/-- R213, R214, R219, R231, R232: the opcodes that write the store begin its first page at once, are refused LOCKED with
block CF locked, and a page that verifies or does not carries the command on, ends it, or moves the page to a spare. Model's
choices: retirement and a second store command: notes/assumptions/39. -/
def Obligations.StoreCommands : Prop := ∀ s : State,
  (∀ (k : Pkt) (f : Nat), TakesFw s k f → s.locked 2 = false → s.store.jobs = [] →
    (∀ l, pageWear s (physPage s l) < 10000000) → s.store.bad = [] →
    (∀ words len m, k.params = [] → s.get F.CF_STAGE_LEN_LEN ≠ 0 → s.get F.FA_JIG_LEFT 13 = 0 →
      (validate s (stagedImage s) (s.get F.CF_STAGE_LEN_LEN)).2 = .good words len m → Gives (.carcassSave k (some f)) s fun t =>
        FwWaits s t k ∧ t.store.jobs = [begunJob s (.image ((stagedImage s).take len))] ∧
        t = { s with regs := t.regs, mp := t.mp, ch := t.ch, store := t.store } ∧ RegsKept bridgeFields s t) ∧
    (∀ m : Byte, m.toNat < 2 → k.params = [m] → Gives (.carcassBoot k (some f)) s fun t =>
      FwWaits s t k ∧ t.store.jobs = [begunJob s (.bootMode (m.toNat == 1))] ∧
      t = { s with regs := t.regs, mp := t.mp, ch := t.ch, store := t.store } ∧ RegsKept bridgeFields s t) ∧
    (∀ j v : Byte, j.toNat < 4 → v.toNat < 16 → k.params = [j, v] → (s.stageX j.toNat).st ≠ .empty →
      Gives (.veneerSave k (some f)) s fun t =>
        FwWaits s t k ∧ t.store.jobs = [begunJob s (.veneer v.toNat (s.stageX j.toNat).count (s.stageX j.toNat).bytes)] ∧
        t = { s with regs := t.regs, mp := t.mp, ch := t.ch, store := t.store } ∧ RegsKept bridgeFields s t) ∧
    (∀ v : Byte, v.toNat < 16 → k.params = [v] → Gives (.veneerErase k (some f)) s fun t =>
      FwWaits s t k ∧ t.store.jobs = [begunJob s (.erase v.toNat)] ∧
      t = { s with regs := t.regs, mp := t.mp, ch := t.ch, store := t.store } ∧ RegsKept bridgeFields s t)) ∧
  (∀ (k : Pkt) (f : Nat), TakesFw s k f → s.locked 2 = true → ∀ m : Byte, m.toNat < 2 → k.params = [m] →
    Gives (.carcassBoot k (some f)) s fun t =>
      FwServed f [F.MP_LOCK_VIOL_COUNT.at] s t k St.locked [] ∧
      t.get F.MP_LOCK_VIOL_COUNT = min (s.get F.MP_LOCK_VIOL_COUNT + 1) 65535 ∧ BusOnly s t) ∧
  (s.Awake → ∀ j l bs, s.store.jobs = [j] → j.cut = false →
    (∀ l2 b2 rest, j.pages = (l, bs) :: (l2, b2) :: rest → pageWear s (physPage s l2) < 10000000 → s.store.bad = [] →
      Gives (.storePageWriteDone true) s fun t =>
        t.store.jobs = [{ j with pages := (l2, b2) :: rest }] ∧ t = { s with store := t.store } ∧
        pageWear t (physPage t l2) = pageWear s (physPage s l2) + 1) ∧
    (j.pages = [(l, bs)] → s.store.bad = [] → ∀ m, j.what = .bootMode m → Gives (.storePageWriteDone true) s fun t =>
      t.store.jobs = [] ∧ t.dir.bootMode = m ∧ t.mp.ready = s.mp.ready ++ [(j.kind, St.ok, [])] ∧
      t = { s with store := t.store, mp.ready := t.mp.ready }) ∧
    (∀ rest, j.pages = (l, bs) :: rest → s.store.sparesUsed < 16 → Gives (.storePageWriteDone false) s fun t =>
      physPage t l = 240 + s.store.sparesUsed ∧ t.store.retired = s.store.retired ++ [physPage s l] ∧
      t.store.sparesUsed = s.store.sparesUsed + 1 ∧ t.get F.CF_EVENT_PAGE_RETIRED = 1 ∧ t.store.jobs = [j]))

/-- R224–R227, R229–R232: a veneer of one entry that writes a whole plain register, staged, committed, read, aborted, and
fetched from the store; pair-selected veneers, cached when selected and applied when due. Model's choices: a pair-selected
veneer sets no VENEER_APPLIED: notes/assumptions/41. -/
def Obligations.VeneerCommands : Prop :=
  (∀ (s : State) (k : Pkt), Takes s k → ∀ (j : Byte), j.toNat < 4 →
  (∀ f count bytes es, TakesFw s k f → stageArmed s j.toNat = false → count < 2 ^ 16 → bytes.length ≤ 2048 →
    parseEntries count bytes = .inr es → firstBadEntry 0 es = none →
    (k.params = j :: (toLE 2 count ++ bytes) → Gives (.veneerStage k (some f)) s fun t =>
      FwServed f [] s t k St.ok (toLE 4 (crc32 bytes)) ∧
      t.stageX j.toNat = { s.stageX j.toNat with st := .staged, count := count, bytes := bytes, origin := 0xFF } ∧
      t = { s with regs := t.regs, mp := t.mp, ch := t.ch, cf.stages := t.cf.stages } ∧
      ∀ i, i ≠ j.toNat → t.stageX i = s.stageX i) ∧
    (∀ v : Byte, v.toNat < 16 → k.params = [j, v] → s.get F.FA_JIG_LEFT 6 = 0 →
      validSlot s v.toNat = some { count := count, len := bytes.length } →
      storeBytes s (pageBytes * slotPage v.toNat) bytes.length = bytes → Gives (.veneerFetch k (some f)) s fun t =>
        FwServed f [] s t k St.ok (toLE 4 (crc32 bytes)) ∧
        t.stageX j.toNat = { s.stageX j.toNat with st := .staged, count := count, bytes := bytes, origin := v } ∧
        t = { s with regs := t.regs, mp := t.mp, ch := t.ch, cf.stages := t.cf.stages })) ∧
  (∀ ts tf, ts < 2 ^ 32 → tf < 31250 → k.params = j :: (toLE 4 ts ++ toLE 2 tf) → (s.stageX j.toNat).st ≠ .empty →
    stageArmed s j.toNat = false → startsTooSoon s (ts, tf) = false → numDiff (ts, tf) s.frameNum ≤ 2700000000 → s.locks = 0 →
    Gives (.veneerCommit k) s fun t =>
      Served [] s t k St.ok (toLE 4 s.frameNum.1 ++ toLE 2 s.frameNum.2) ∧
      t.stageX j.toNat = { s.stageX j.toNat with st := .armed, armTag := k.tag, ts := ts, tf := tf } ∧
      t = { s with regs := t.regs, mp := t.mp, ch := t.ch, cf.stages := t.cf.stages }) ∧
  (k.params = [j] → stageArmed s j.toNat = true → startsTooSoon s (stageTarget s j.toNat) = false →
    Gives (.veneerAbort k) s fun t =>
      Served [] s t k St.ok [] ∧ t.stageX j.toNat = { s.stageX j.toNat with st := .staged } ∧
      t = { s with regs := t.regs, mp := t.mp, ch := t.ch, cf.stages := t.cf.stages }) ∧
  (k.params = [j] → Gives (.veneerStatus k) s fun t =>
    Served [] s t k St.ok (toLE 4 s.frameNum.1 ++ toLE 2 s.frameNum.2 ++
      [BitVec.ofNat 8 (stageCode s j.toNat), (s.stageX j.toNat).result, (s.stageX j.toNat).armTag, (s.stageX j.toNat).origin] ++
      toLE 2 (s.stageX j.toNat).count ++ toLE 4 (s.stageX j.toNat).ts ++ toLE 2 (s.stageX j.toNat).tf) ∧ BusOnly s t) ∧
  (∀ f, TakesFw s k f → k.params = [0, j] → (s.stageX j.toNat).st ≠ .empty →
    Gives (.veneerGet k (some f)) s fun t =>
      FwServed f [] s t k St.ok (toLE 2 (s.stageX j.toNat).count ++ (s.stageX j.toNat).bytes) ∧ BusOnly s t)) ∧
  (∀ s : State, s.Awake →
  (∀ (i : Fin 4) (a b : Fin 16), s.locked 2 = false → s.get F.FA_JIG_LEFT 6 = 0 → (validSlot s a).isSome = true →
    (validSlot s b).isSome = true → Gives (.vselEnable i a b) s fun t =>
      t.on F.CF_PAIR_VSEL_EN i = true ∧ (t.cacheX i).one = slotBytes s a ∧ (t.cacheX i).zero = slotBytes s b ∧
      ((t.cacheX i).due = true ↔ s.get F.PAIR_CFG_FUNC i = 3 ∧ pairState s i ≠ 2) ∧
      t = { s with regs := t.regs, cf.caches := t.cf.caches } ∧ RegsKept [(F.CF_PAIR_VSEL.addr i, 0, 32)] s t) ∧
  (∀ (i : Fin 4) x bs a v r, s.cacheX i = x → x.due = true → vselPair s i = true → pairState s i ≠ 2 →
    bs = (if s.on F.PAIR_STAT_AGREED i then x.one else x.zero) → PlainReg a → specAt a = some r →
    (r.lock && s.locked (lockBlock a)) = false → a ≠ F.CF_PAIR_VSEL.addr i → veneerWords s (entryCount 256 bs) bs = [(a, v)] →
    Gives (.pairVeneerApply i) s fun t =>
      t.reg a = BitVec.ofNat 32 (mergeWrite r (s.reg a).toNat v) ∧
      (t.cacheX i).due = false ∧ t.get F.CF_PAIR_VSEL_LAST i = 1 + s.get F.PAIR_STAT_AGREED i ∧
      t = { s with regs := t.regs, cf.caches := t.cf.caches } ∧ RegsKept [(a, 0, 32), F.CF_PAIR_VSEL_LAST.at i] s t))

/-- R225, R227, R236: a veneer takes effect in the first cycle of its target frame, all words or none; a target that the frame
number passes is MISSED, and nothing of it is applied. -/
def Obligations.VeneerApplication : Prop := ∀ s : State, s.Awake →
  (∀ (j : Fin 4) a v r, stageArmed s j = true → stageTarget s j = s.nextFrameNum → PlainReg a → specAt a = some r →
    (r.lock && s.locked (lockBlock a)) = false → a ≠ F.CF_EVENT_VENEER_APPLIED.addr →
    veneerWords s (s.stageX j).count (s.stageX j).bytes = [(a, v)] → Gives (.veneerApply j) s fun t =>
      t.reg a = BitVec.ofNat 32 (mergeWrite r (s.reg a).toNat v) ∧ t.get F.CF_EVENT_VENEER_APPLIED = 1 ∧
      t.stageX j = { s.stageX j with st := .applied, result := 0 } ∧ t = { s with regs := t.regs, cf.stages := t.cf.stages } ∧
      RegsKept [(a, 0, 32), F.CF_EVENT_VENEER_APPLIED.at] s t) ∧
  (∀ (j : Fin 4) ws, stageArmed s j = true → stageTarget s j = s.nextFrameNum →
    veneerWords s (s.stageX j).count (s.stageX j).bytes = ws →
    (∃ w ∈ ws, ∃ r, specAt w.1 = some r ∧ r.lock = true ∧ s.locked (lockBlock w.1) = true) → Gives (.veneerApply j) s fun t =>
      t.get F.CF_EVENT_VENEER_REFUSED = 1 ∧ t.get F.MP_LOCK_VIOL_COUNT = min (s.get F.MP_LOCK_VIOL_COUNT + 1) 65535 ∧
      t.stageX j = { s.stageX j with st := .refused, result := 7 } ∧ t = { s with regs := t.regs, cf.stages := t.cf.stages } ∧
      RegsKept [F.CF_EVENT_VENEER_REFUSED.at, F.MP_LOCK_VIOL_COUNT.at] s t) ∧
  (∀ j : Fin 4, stageArmed s j = true → numDiff (stageTarget s j) s.nextFrameNum < 0 → Gives (.veneerMissed j) s fun t =>
    t.get F.CF_EVENT_VENEER_MISSED = 1 ∧ t.stageX j = { s.stageX j with st := .missed, result := 0x0C } ∧
    t = { s with regs := t.regs, cf.stages := t.cf.stages } ∧ RegsKept [F.CF_EVENT_VENEER_MISSED.at] s t)

/-- R248, R250, R270: a port's states: EN takes it to STARTING, calibration to RUNNING or, to FAILED with fault 14, and EN 0
back to DISABLED, its receiver out of lock, sync and frame. Model's choices: what a disabled port leaves:
notes/assumptions/45. -/
def Obligations.PortStates : Prop := ∀ (s : State) (p : Fin 16), s.Awake →
  (s.locked 3 = false → s.get F.LP_CTRL_LOOPBACK p ≠ 3 →
    (s.get F.LP_STATUS_STATE p = 0 → Gives (.portEnable p) s fun t =>
      t.get F.LP_STATUS_STATE p = 1 ∧ t.get F.LP_CTRL_EN p = 1 ∧ t.get F.LP_STATUS_MOD_TXDIS p = 1 ∧
      t.get F.LP_STATUS_RCLK_VALID p = 0 ∧ (t.portX p).pollTicks = 0 ∧ PortOnly p [F.LP_CTRL_EN.at p] s t) ∧
    (Gives (.portDisable p) s fun t =>
      t.get F.LP_STATUS_STATE p = 0 ∧ t.get F.LP_CTRL_EN p = 0 ∧ t.get F.LP_STATUS_MOD_TXDIS p = 1 ∧
      t.get F.LP_STATUS_RCLK_VALID p = 0 ∧ t.get F.TG_REF_STAT_ACTIVE p = 0 ∧ PortOnly p [F.LP_CTRL_EN.at p] s t ∧
      (s.get F.LP_STATUS_STATE p ≠ 0 → t.get F.LP_STATUS_EYE_BUSY p = 0 ∧ t.get F.LP_STATUS_PRBS_LOCK p = 0 ∧
        t.get F.LP_STATUS_LOOP_FALLBACK p = 0 ∧ (t.portX p).modXfer = none) ∧
      (s.get F.LP_STATUS_STATE p = 2 → t.get F.LP_STATUS_CDR_LOCK p = 0 ∧ t.get F.LP_STATUS_CODE_SYNC p = 0 ∧
        t.get F.LF_PSTATUS_FSTATE p = 0 ∧ t.get F.LF_PSTATUS_LOF p = 0 ∧ t.get F.LF_PSTATUS_LOM p = 0))) ∧
  (s.get F.LP_STATUS_STATE p = 1 →
    (Gives (.calibrationDone p) s fun t =>
      t.get F.LP_STATUS_STATE p = 2 ∧ t.get F.LP_STATUS_MOD_TXDIS p = s.get F.LP_CTRL_TXDIS_FORCE p ∧
      t.get F.LF_PSTATUS_FSTATE p = 0 ∧ t.get F.LF_PSTATUS_TRACE_VALID p = 0 ∧ (t.portX p).txFresh = true ∧ PortOnly p [] s t) ∧
    (Gives (.lpCalFail p) s fun t =>
      t = settle (raise ((s.put F.LP_STATUS_STATE 3 p).raiseBit F.LP_EVENT_CAL_FAIL p) 14 p)))

/-- R247, R251, R252, R262, R263, R268, R276: what the receiver's events do: lock and sync gained and lost, the recovered
clock, the return to loop timing, HI_BER, and the two sources of LOS_RAW. Model's choices: RCLK_VALID follows in the same
command: notes/assumptions/44. -/
def Obligations.ReceiverEvents : Prop := ∀ (s : State) (p : Fin 16), s.Awake →
  (s.get F.LP_STATUS_STATE p = 2 →
    (Gives (.cdrLockGained p) s fun t =>
      t.get F.LP_STATUS_CDR_LOCK p = 1 ∧
      t.get F.LP_STATUS_RCLK_VALID p = b2n (s.on F.LP_STATUS_CODE_SYNC p && s.get F.LP_CTRL_LOOPBACK p != 1) ∧
      t.get F.TG_REF_STAT_ACTIVE p = t.get F.LP_STATUS_RCLK_VALID p ∧ PortOnly p [] s t) ∧
    (s.get F.LP_STATUS_CDR_LOCK p = 1 → s.tapOwns = false → ∀ units y,
      y = codeRun (s.get F.LP_CTRL_RATE p) (s.portX p).rxCode (unitsIn s p units) →
      (codeHolds (s.get F.LP_CTRL_RATE p) y = true → s.get F.LP_STATUS_CODE_SYNC p = 0 →
        Gives (.codeSyncGained p units) s fun t =>
          t.get F.LP_STATUS_CODE_SYNC p = 1 ∧ t.get F.LP_STATUS_RCLK_VALID p = b2n (s.get F.LP_CTRL_LOOPBACK p != 1) ∧
          t.get F.TG_REF_STAT_ACTIVE p = t.get F.LP_STATUS_RCLK_VALID p ∧ (t.portX p).rxCode = y ∧
          PortOnly p [F.LP_CV_CNT.word p] s { t with dm := s.dm }) ∧
      (codeHolds (s.get F.LP_CTRL_RATE p) y = false → s.get F.LP_STATUS_CODE_SYNC p = 1 →
        Gives (.syncLost p units) s fun t =>
          t.get F.LP_STATUS_CODE_SYNC p = 0 ∧ t.get F.LP_EVENT_SYNC_LOST p = 1 ∧ t.get F.LF_PSTATUS_FSTATE p = 0 ∧
          t.get F.LP_STATUS_RCLK_VALID p = 0 ∧ PortOnly p [F.LP_CV_CNT.word p] s { t with dm := s.dm } ∧
          (s.get F.LF_PSTATUS_FSTATE p = 2 → t.get F.LF_PEVENT_OOF p = 1 ∧
            t.get F.LF_FRAMING_CNT_OOF_EVENTS p = min (s.get F.LF_FRAMING_CNT_OOF_EVENTS p + 1) 65535)) ∧
      Gives (.hiBerChange p units) s fun t =>
        t.get F.LP_CV_CNT p = min (s.get F.LP_CV_CNT p +
          (takeUnits (s.get F.LP_CTRL_RATE p) (s.portX p).rxCode.lane (unitsIn s p units)).1.violations) (2 ^ 32 - 1) ∧
        (s.get F.LP_CTRL_RATE p = 3 → t.get F.LP_STATUS_HI_BER p = b2n (berHigh y)) ∧
        (s.get F.LP_CTRL_RATE p ≠ 3 → t.get F.LP_STATUS_HI_BER p = s.get F.LP_STATUS_HI_BER p) ∧
        PortOnly p [F.LP_CV_CNT.word p] s { t with dm := s.dm })) ∧
  (s.get F.LP_STATUS_CDR_LOCK p = 1 → Gives (.cdrLost p) s fun t =>
    t.get F.LP_STATUS_CDR_LOCK p = 0 ∧ t.get F.LP_EVENT_CDR_LOST p = 1 ∧ t.get F.LP_STATUS_RCLK_VALID p = 0 ∧
    t.get F.TG_REF_STAT_ACTIVE p = 0 ∧ PortOnly p [] s t ∧
    (s.get F.LP_STATUS_STATE p = 2 → s.get F.LP_CTRL_TX_TIMING p = 1 → s.get F.LP_CTRL_LOOPBACK p ≠ 2 →
      s.get F.LP_STATUS_LOOP_FALLBACK p = 0 → t.get F.LP_STATUS_LOOP_FALLBACK p = 1 ∧
        t.get F.LP_EVENT_LOOP_FALLBACK p = 1 ∧ (t.portX p).txFresh = true) ∧
    (s.get F.LP_STATUS_EYE_BUSY p = 1 → t.get F.LP_STATUS_EYE_BUSY p = 0 ∧ t.get F.LP_STATUS_EYE_ABORTED p = 1 ∧
      t.get F.LP_EVENT_EYE_DONE p = 1)) ∧
  (s.get F.LP_STATUS_LOOP_FALLBACK p = 1 → s.get F.LP_STATUS_CDR_LOCK p = 1 → s.get F.LP_STATUS_CODE_SYNC p = 1 →
    s.get F.LP_CTRL_LOOPBACK p ≠ 2 → 32 ≤ (s.portX p).loopTicks → Gives (.loopTimingReturn p) s fun t =>
      t.get F.LP_STATUS_LOOP_FALLBACK p = 0 ∧ (t.portX p).txFresh = true ∧ (t.portX p).mcTx = none ∧ (t.portX p).mcRx = none ∧
      (t.portX p).loopTicks = 0 ∧ PortOnly p [] s t ∧ t.ps = s.ps ∧ t.tg = s.tg) ∧
  (∀ level, Gives (.modLosChange p level) s fun t =>
    t.get F.LP_STATUS_MOD_LOS p = b2n level ∧
    t.get F.LP_STATUS_LOS_RAW p = b2n (s.on F.LP_CTRL_LOS_PIN_EN p && level != s.on F.LP_CTRL_LOS_PIN_INV p ||
      s.on F.LP_CTRL_LOS_ELEC_EN p && !s.on F.LP_STATUS_SIG_DET p) ∧
    (t.get F.LP_STATUS_LOS_RAW p = 1 → s.get F.LP_STATUS_LOS_RAW p = 0 → t.get F.LP_EVENT_LOS_ROSE p = 1) ∧
    (t.get F.LP_STATUS_LOS_RAW p = 0 ∨ s.get F.LP_STATUS_LOS_RAW p = 1 → t.get F.LP_EVENT_LOS_ROSE p = s.get F.LP_EVENT_LOS_ROSE p) ∧
    Only [F.LP_STATUS_MOD_LOS.at p, F.LP_STATUS_LOS_RAW.at p, F.LP_EVENT_LOS_ROSE.at p] s t) ∧
  (∀ level, Gives (.sigDetChange p level) s fun t =>
    t.get F.LP_STATUS_SIG_DET p = b2n level ∧
    t.get F.LP_STATUS_LOS_RAW p = b2n (s.on F.LP_CTRL_LOS_PIN_EN p && s.on F.LP_STATUS_MOD_LOS p != s.on F.LP_CTRL_LOS_PIN_INV p ||
      s.on F.LP_CTRL_LOS_ELEC_EN p && !level) ∧
    (t.get F.LP_STATUS_LOS_RAW p = 1 → s.get F.LP_STATUS_LOS_RAW p = 0 → t.get F.LP_EVENT_LOS_ROSE p = 1) ∧
    PortOnly p [] s t ∧ t.port = s.port ∧ t.tg = s.tg)

/-- R255, R259, R273: RX_INV and LOOPBACK of a RUNNING port written: the receiver must regain its stream. -/
def Obligations.ReceiverControls : Prop := ∀ (s : State) (p : Fin 16), s.Awake → s.locked 3 = false →
  s.get F.LP_STATUS_STATE p = 2 → s.get F.LP_CTRL_EN p = 1 →
  (∀ v, s.get F.LP_CTRL_LOOPBACK p ≠ 3 → s.on F.LP_CTRL_RX_INV p ≠ v → Gives (.rxInvChange p v) s fun t =>
    t.get F.LP_CTRL_RX_INV p = b2n v ∧ t.get F.LP_STATUS_CODE_SYNC p = 0 ∧ t.get F.LP_STATUS_PRBS_LOCK p = 0 ∧
    PortOnly p [F.LP_CTRL_RX_INV.at p] s t) ∧
  (∀ v : Fin 4, v ≠ 3 → Gives (.loopbackChange p v) s fun t =>
    t.get F.LP_CTRL_LOOPBACK p = v ∧ PortOnly p [F.LP_CTRL_LOOPBACK.at p] s t ∧
    ((v = 1) ≠ (s.get F.LP_CTRL_LOOPBACK p = 1) → t.get F.LP_STATUS_CDR_LOCK p = 0 ∧ t.get F.LP_STATUS_CODE_SYNC p = 0 ∧
      t.get F.LP_STATUS_RCLK_VALID p = 0))

/-- R247, R257, R258, R261: the port's measurements: PRBS lock, the counts and the triggers that clear them, one injected
error, and the eye scan. Model's choices: what a receiver saw and eye results come as operands: notes/assumptions/43; the
seed of the checker: notes/assumptions/100. -/
def Obligations.PortMeasurements : Prop := ∀ (s : State) (p : Fin 16), s.Awake →
  (Gives (.prbsCntClr p) s fun t =>
    t.reg (F.LP_PRBS_ERR.addr p) = 0 ∧ t.reg (F.LP_PRBS_BITS_LO.addr p) = 0 ∧ t.reg (F.LP_PRBS_BITS_HI.addr p) = 0 ∧
    Only [F.LP_PRBS_ERR.word p, F.LP_PRBS_BITS_LO.word p, F.LP_PRBS_BITS_HI.word p] s t) ∧
  (Gives (.cvCntClr p) s fun t => t.reg (F.LP_CV_CNT.addr p) = 0 ∧ Only [F.LP_CV_CNT.word p] s t) ∧
  (s.on F.LP_PRBS_GEN p = true → Gives (.errInject p) s fun t =>
    t.portX p = { s.portX p with errInject := true } ∧ OnlyPort p s t ∧ RegsKept [] s t) ∧
  (∀ groups g st e, s.get F.LP_STATUS_STATE p = 2 → s.on F.LP_PRBS_CHK p = true → portInSync s p = false → s.tapOwns = false →
    invertUnits 32 (s.on F.LP_PRBS_CHK_INV p) (invertUnits 32 (s.on F.LP_CTRL_RX_INV p)
      (if s.get F.LP_CTRL_LOOPBACK p = 1 then (s.portX p).txGroups else groups.map fun w => w.toNat)) = [g] →
    (s.portX p).chk.st = some st → e = onesIn 32 ((prbsRun (s.get F.LP_PRBS_CHK p) 32 st 0).1 ^^^ g) →
    (s.get F.LP_STATUS_PRBS_LOCK p = 0 → (s.portX p).chk.clean = 3 → e = 0 → Gives (.prbsLock p groups) s fun t =>
      t.get F.LP_STATUS_PRBS_LOCK p = 1 ∧ OnlyPort p s t ∧ RegsKept [F.LP_STATUS_PRBS_LOCK.at p] s t) ∧
    (s.get F.LP_STATUS_PRBS_LOCK p = 1 → Gives (.prbsLost p groups) s fun t =>
      t.get64 F.LP_PRBS_BITS_LO p = (s.get64 F.LP_PRBS_BITS_LO p + 32) % 2 ^ 64 ∧
      t.get F.LP_PRBS_ERR p = min (s.get F.LP_PRBS_ERR p + e) (2 ^ 32 - 1) ∧
      t.get F.LP_STATUS_PRBS_LOCK p = b2n !((s.portX p).chk.dirty == 7 && decide (4 ≤ e)) ∧
      ((s.portX p).chk.dirty = 7 ∧ 4 ≤ e → t.get F.LP_EVENT_PRBS_LOST p = 1) ∧
      OnlyPort p s t ∧ RegsKept ([F.LP_STATUS_PRBS_LOCK.at p, F.LP_EVENT_PRBS_LOST.at p, F.LP_PRBS_ERR.word p] ++
        F.LP_PRBS_BITS_LO.words64 p) s t)) ∧
  (s.get F.LP_STATUS_EYE_BUSY p = 0 → s.get F.LP_STATUS_CDR_LOCK p = 1 → Gives (.eyeStart p) s fun t =>
    t.get F.LP_STATUS_EYE_BUSY p = 1 ∧ t.get F.LP_STATUS_EYE_ABORTED p = 0 ∧
    t.portX p = { s.portX p with eyeBits := 0, eyeErrs := 0, eyeDwell := s.get F.LP_EYE_CTRL_DWELL p } ∧
    OnlyPort p s t ∧ RegsKept [F.LP_STATUS_EYE_BUSY.at p, F.LP_STATUS_EYE_ABORTED.at p] s t) ∧
  (s.get F.LP_STATUS_EYE_BUSY p = 1 →
    (Gives (.eyeAbort p) s fun t =>
      t.get F.LP_EYE_BITS p = (s.portX p).eyeBits % 2 ^ 32 ∧ t.get F.LP_EYE_ERR p = min (s.portX p).eyeErrs (2 ^ 32 - 1) ∧
      t.get F.LP_STATUS_EYE_BUSY p = 0 ∧ t.get F.LP_EVENT_EYE_DONE p = 1 ∧
      Only [F.LP_EYE_BITS.word p, F.LP_EYE_ERR.word p, F.LP_STATUS_EYE_BUSY.at p, F.LP_EVENT_EYE_DONE.at p] s t) ∧
    (∀ errs, Gives (.eyeDone p errs) s fun t =>
      t.get F.LP_EYE_BITS p = 2 ^ ((s.portX p).eyeDwell + 16) % 2 ^ 32 ∧ t.get F.LP_EYE_ERR p = min errs (2 ^ 32 - 1) ∧
      t.get F.LP_STATUS_EYE_BUSY p = 0 ∧ t.get F.LP_EVENT_EYE_DONE p = 1 ∧
      Only [F.LP_EYE_BITS.word p, F.LP_EYE_ERR.word p, F.LP_STATUS_EYE_BUSY.at p, F.LP_EVENT_EYE_DONE.at p] s t))

/-- R264–R267, R271: a module transfer started and ended, with its bytes, and the polls of the diagnostics. Model's choices:
what the module does comes as an operand: notes/assumptions/43; how a transfer fails: notes/assumptions/103. -/
def Obligations.ModuleBus : Prop := ∀ (s : State) (p : Fin 16), s.Awake →
  (∀ (write dev : Bool) (count : Fin 16) (offset : Byte), s.get F.LP_MOD_STAT_BUSY p = 0 → offset.toNat + count.val ≤ 255 →
    Gives (.modTransferStart p write dev count offset) s fun t =>
      t.get F.LP_MOD_STAT_BUSY p = 1 ∧ (t.portX p).modWait = (s.portX p).polling ∧
      (∃ m, (t.portX p).modXfer = some m ∧ m.write = write ∧ m.dev = dev ∧ m.count = count ∧ m.offset = offset.toNat ∧
        m.data = if write then (modBytes s p).take (count.val + 1) else []) ∧
      OnlyPort p s t ∧ RegsKept [F.LP_MOD_STAT_BUSY.at p] s t) ∧
  (∀ seen m r, (s.portX p).modXfer = some m → (s.portX p).modWait = false → m.count ≤ 15 →
    m.count + 1 ≤ seen.data.length → r = xferRun m seen → Gives (.modDone p seen) s fun t =>
      t.get F.LP_MOD_STAT_BUSY p = 0 ∧ t.get F.LP_MOD_STAT_RESULT p = r.1 ∧ t.get F.LP_EVENT_MOD_DONE p = 1 ∧
      (r.1 ≠ 0 → t.get F.LP_EVENT_MOD_ERR p = 1) ∧
      modBytes t p = (if m.write = false ∧ r.1 = 0 then seen.data.take (m.count + 1) ++ (modBytes s p).drop (m.count + 1)
        else modBytes s p) ∧
      t.portX p = { s.portX p with
        modXfer := none, modWait := false, polling := (s.portX p).pollDue, pollDue := false, modBus := r.2 } ∧
      OnlyPort p s t ∧
      RegsKept ([F.LP_MOD_STAT_BUSY.at p, F.LP_MOD_STAT_RESULT.at p, F.LP_EVENT_MOD_DONE.at p, F.LP_EVENT_MOD_ERR.at p] ++
        (List.range 4).map fun j => F.LP_MOD_DATA.word p j) s t) ∧
  (∀ (m : ModXfer) data,
    (xferRun m { data := data }).1 = 0 ∧ (xferRun m { nack := some 0, data := data }).1 = 1 ∧
    (xferRun m { nack := some 1, data := data }).1 = 2 ∧ (xferRun m { stretched := some 0, data := data }).1 = 3 ∧
    xferRun m { sdaLow := none, data := data } = (4, List.replicate 9 .pulse) ∧
    (m.write = false → (xferRun m { data := data }).2 =
      [.start, .send (2 * (0x50 + b2n m.dev)) true, .send m.offset true, .restart, .send (2 * (0x50 + b2n m.dev) + 1) true] ++
      (List.range (m.count + 1)).map (fun i => .take (byteAt data i) (i != m.count)) ++ [.stop])) ∧
  (pollDueNow s p = true →
    ((s.portX p).modXfer = none → (s.portX p).polling = false → Gives (.modPoll p) s fun t =>
      t = s.modPort p fun x => { x with pollTicks := x.pollTicks - pollPeriod s p, polling := true }) ∧
    (∀ m, (s.portX p).modXfer = some m → (s.portX p).modWait = false → Gives (.modPoll p) s fun t =>
      t = s.modPort p fun x => { x with pollTicks := x.pollTicks - pollPeriod s p, pollDue := true })) ∧
  (∀ seen r, (s.portX p).polling = true → r = (xferRun pollXfer seen).1 → Gives (.modPollDone p seen) s fun t =>
    t.get F.LP_MOD_STAT_LAST_POLL p = r ∧
    (r = 0 → (∀ j, j < 4 → t.get F.LP_MOD_DIAG p j = leAt seen.data (4 * j) 4) ∧ t.get F.LP_MOD_DIAG_AGE p = 0) ∧
    (r ≠ 0 → t.get F.LP_EVENT_MOD_ERR p = 1 ∧ ∀ j, j < 4 → t.get F.LP_MOD_DIAG p j = s.get F.LP_MOD_DIAG p j) ∧
    OnlyPort p s t ∧
    RegsKept ([F.LP_MOD_STAT_LAST_POLL.at p, F.LP_EVENT_MOD_ERR.at p, F.LP_MOD_DIAG_AGE.word p] ++
      (List.range 4).map fun j => F.LP_MOD_DIAG.word p j) s t) ∧
  (∀ v : Word, s.locked 3 = false → v.toNat / 256 % 256 ≠ 0 → Gives (.modCfgWrite p v) s fun t =>
    t.get F.LP_MOD_CFG_POLL_PERIOD p = v.toNat / 256 % 256 ∧ t.get F.LP_MOD_CFG_POLL_EN p = v.toNat / 2 % 2 ∧
    t.get F.LP_MOD_CFG_SPEED p = v.toNat % 2 ∧ (t.portX p).pollTicks = 0 ∧
    (t.portX p).pollDue = ((s.portX p).pollDue && v.toNat.testBit 1) ∧
    OnlyPort p s t ∧
    RegsKept [F.LP_MOD_CFG_POLL_PERIOD.at p, F.LP_MOD_CFG_POLL_EN.at p, F.LP_MOD_CFG_SPEED.at p] s t)

/-- R76, R285, R297, R298, R299, R303, Tables 8.5, 8.6: HUNT_START_WORD and RECEIVED_FRAME answer a next state on every awake
unit whose port is RUNNING in code sync with no test-port instruction at work: a start word found in HUNT, an errored
alignment that sends the finder back, and, for a frame received in SYNC, what LF keeps of it: its phase, its overhead words,
its label. `r` is the frame as the receiver delivers it. Model's choices: when a received frame is given and what HUNT looks
at: notes/assumptions/46 and 47. -/
def Obligations.FrameFinder : Prop := ∀ (s : State) (p : Fin 16), s.Awake →
  (s.get F.LP_STATUS_STATE p = 2 → s.get F.LP_STATUS_CODE_SYNC p = 1 → s.tapOwns = false → s.get F.LF_PSTATUS_FSTATE p = 0 →
    (∃ t, exec (.huntStartWord p 0x7E36 0x81C9) s = .next t ∧ t = s.put F.LF_PSTATUS_FSTATE 1 p) ∧
    (∀ w1 w2, w1 ≠ 0x7E36 ∨ w2 ≠ 0x81C9 → ∃ t, exec (.huntStartWord p w1 w2) s = .next t ∧ t = s)) ∧
  (∀ start ws, s.get F.LP_CTRL_LOOPBACK p ≠ 1 → s.get F.LP_CTRL_LOOPBACK p ≠ 2 →
    frameIn s p (.words start ws) = (s, start, ws)) ∧
  (∀ frame (phase : Fin 12800) r, r = frameIn s p frame →
    (finderRuns r.1 p = false ∨ r.1.get F.LF_PSTATUS_FSTATE p = 0 → ∃ t, exec (.receivedFrame p frame phase) s = .next t ∧
      t = settle r.1) ∧
    (r.1.get F.LP_STATUS_STATE p = 2 → r.1.get F.LP_STATUS_CODE_SYNC p = 1 → r.1.tapOwns = false → r.1.chip.resetDue = none →
      r.2.2.length = wordsPerFrame (r.1.get F.LP_CTRL_RATE p) →
      (r.1.get F.LF_PSTATUS_FSTATE p = 1 → aligned r.2.1 r.2.2 = false →
        ∃ t, exec (.receivedFrame p frame phase) s = .next t ∧ t.get F.LF_PSTATUS_FSTATE p = 0 ∧ PortOnly p [] r.1 t) ∧
      (r.1.get F.LF_PSTATUS_FSTATE p = 2 → r.1.get F.LF_PSTATUS_E p = 3 → aligned r.2.1 r.2.2 = false →
        ∃ t, exec (.receivedFrame p frame phase) s = .next t ∧
          t.get F.LF_PSTATUS_FSTATE p = 0 ∧ t.get F.LF_PSTATUS_IM p = 0 ∧ t.get F.LF_PEVENT_OOF p = 1 ∧
          t.get F.LF_FRAMING_CNT_ALIGN_ERR p = min (r.1.get F.LF_FRAMING_CNT_ALIGN_ERR p + 1) 65535 ∧
          t.get F.LF_FRAMING_CNT_OOF_EVENTS p = min (r.1.get F.LF_FRAMING_CNT_OOF_EVENTS p + 1) 65535 ∧ PortOnly p [] r.1 t) ∧
      (∀ u, u = lfReceive r.1 p r.2.1 r.2.2 phase →
        r.1.get F.LF_PSTATUS_FSTATE p = 1 ∧ aligned r.2.1 r.2.2 = true ∨
          r.1.get F.LF_PSTATUS_FSTATE p = 2 ∧ (aligned r.2.1 r.2.2 = true ∨ r.1.get F.LF_PSTATUS_E p < 3) →
        (∃ t, exec (.receivedFrame p frame phase) s = .next t ∧ t = settle (frameReceived r.1 p r.2.1 r.2.2 phase)) ∧
        u.get F.LF_PSTATUS_FSTATE p = 2 ∧
        u.get F.LF_PSTATUS_E p = (if aligned r.2.1 r.2.2 then 0 else r.1.get F.LF_PSTATUS_E p + 1) ∧
        (r.1.get F.LF_PSTATUS_FSTATE p = 1 → u.get F.LF_PEVENT_IN_FRAME p = 1) ∧
        u.get F.LF_RX_PHASE_PHASE p = phase ∧
        u.get F.LF_RX_QL p = wordAt r.2.2 9 * 2 ^ 16 + wordAt r.2.2 10 ∧
        u.get F.LF_RX_PROT p = wordAt r.2.2 11 * 2 ^ 16 + wordAt r.2.2 12 ∧
        u.get F.LF_RX_MISC_SMV p = wordAt r.2.2 28 % 256 ∧ u.get F.LF_RX_MISC_RDI p = wordAt r.2.2 8 / 2 ^ 15 ∧
        u.get F.LF_RX_MISC_REI p = reiOf r.2.2 ∧ u.get F.LF_RX_NUM_F_NV p = wordAt r.2.2 5 / 2 ^ 15 ∧
        (∀ l, r.1.get F.LF_PSTATUS_FSTATE p = 2 → r.1.get F.LF_PSTATUS_IM p = 1 → (r.1.portX p).label = some l →
          numberOf r.2.2 = some (nextNum l) → (u.portX p).label = some (nextNum l)))))

/-- R76, R256, R259, R281, R283, R287, R289, R290, R299, R310, Table 8.2: TRANSMIT_FRAME_START answers a next state on every
awake unit: a RUNNING port with neither a test pattern nor far-end loopback sends a frame, any other port nothing. The
overhead of a frame sent: start and alignment words, an injected alignment error, the local frame's number, BIP, RDI and REI,
and the version. Model's choices: the phase of a port that is not loop timed, and REI: notes/assumptions/49 and 50. -/
def Obligations.FrameOverhead : Prop := ∀ (s : State) (p : Fin 16),
  (∀ phase : Fin 12800, s.Awake →
    (s.get F.LP_STATUS_STATE p = 2 → s.get F.LP_PRBS_GEN p = 0 → s.get F.LP_CTRL_LOOPBACK p ≠ 2 → s.tapOwns = false →
      ∃ t, exec (.transmitFrameStart p phase) s = .next t ∧ t = settle (frameSent s p phase)) ∧
    (s.get F.LP_STATUS_STATE p ≠ 2 ∨ s.get F.LP_PRBS_GEN p ≠ 0 ∨ s.get F.LP_CTRL_LOOPBACK p = 2 ∨ s.tapOwns = true →
      ∃ t, exec (.transmitFrameStart p phase) s = .next t ∧ t = s)) ∧
  (∀ phase ver ws, ws = (txOverhead s p phase ver).2 → s.get F.LF_NOW_F < 2 ^ 15 →
    ws.length = 32 ∧ wordAt ws 0 = (if s.get F.LP_CTRL_RATE p = 3 then 0xA55A else 0xBCB5) ∧ wordAt ws 1 = 0x7E36 ∧
    wordAt ws 2 = (if (s.portX p).alignInj = 0 then 0x81C9 else 0x7E36) ∧
    wordAt ws 3 * 2 ^ 16 + wordAt ws 4 = s.get F.LF_NOW_S ∧
    wordAt ws 5 = b2n (s.get F.LF_NUM_STATUS_STATE != 1) * 2 ^ 15 + s.get F.LF_NOW_F ∧
    ((s.portX p).txFresh = false → (s.portX p).bipInj = 0 → wordAt ws 7 = (s.portX p).txBip % 2 ^ 16) ∧
    wordAt ws 8 = b2n (s.portX p).rdi * 2 ^ 15 + min 16 (s.portX p).reiAcc ∧ wordAt ws 28 = ver % 2 ^ 16 ∧
    ((txOverhead s p phase ver).1.portX p).reiAcc = 0 ∧ ((txOverhead s p phase ver).1.portX p).txFresh = false)

/-- R25, R280, R302, R304, R305, R307, R320, R321, Table 8.8: LOCAL_FRAME_START, NUM_LOAD, NUM_ADOPT, NUMBERING_MODE_WRITE,
NUM_ADOPTED, MISMATCH_SET and MISMATCH_CLR answer a next state: a frame start takes the next number; NUM_LOAD gives the
number of the first frame after S + 1; MODE, SRC and NUM_ADOPT wait for the next tick; a good source is adopted; MISMATCH is
set and cleared. Model's choices: counts restarted by SRC, and MISMATCH: notes/assumptions/52; the order at a frame start:
notes/assumptions/89. -/
def Obligations.LocalNumbering : Prop := ∀ s : State,
  (s.Awake → ∀ i, ∃ t, exec (.localFrameStart i) s = .next t ∧ t = settle (localFrame s i)) ∧
  ((advanceFrame s).get F.LF_NOW_S = s.nextFrameNum.1 % 2 ^ 32 ∧ (advanceFrame s).get F.LF_NOW_F = s.nextFrameNum.2 % 2 ^ 32 ∧
    (advanceFrame s).get F.LF_FRAME_TOTAL = (s.get F.LF_FRAME_TOTAL + 1) % 2 ^ 32 ∧
    (advanceFrame s).num = { s.num with next := s.num.late, late := none } ∧
    (∀ n, s.num.next = some n → s.nextFrameNum = n) ∧
    (s.num.next = none → s.nextFrameNum =
      if s.get F.LF_NOW_F < 31249 then (s.get F.LF_NOW_S, s.get F.LF_NOW_F + 1) else ((s.get F.LF_NOW_S + 1) % 2 ^ 32, 0))) ∧
  (s.Awake →
    (s.get F.LF_NUM_STATUS_STATE = 0 → ∃ t, exec .numLoad s = .next t ∧
      t.num = (if s.inFrame < 12800 then { s.num with next := some (s.get F.LF_NUM_SET_S, s.get F.LF_NUM_SET_F_F) }
        else { s.num with late := some (s.get F.LF_NUM_SET_S, s.get F.LF_NUM_SET_F_F) }) ∧ t.get F.LF_EVENT_NUM_LOADED = 1 ∧
      t = { s with regs := t.regs, num := t.num } ∧ RegsKept [F.LF_EVENT_NUM_LOADED.at] s t) ∧
    (s.get F.LF_NUM_STATUS_STATE ≠ 0 → ∃ t, exec .numLoad s = .next t ∧ t = s) ∧
    (∃ t, exec .numAdopt s = .next t ∧ t = { s with num.adopt := true }) ∧
    (∀ mode (src : Fin 16), s.locked 4 = false → ∃ t, exec (.numberingModeWrite mode src) s = .next t ∧
      t.get F.LF_NUM_CTRL_MODE = b2n mode ∧ t.get F.LF_NUM_CTRL_SRC = src ∧
      Only [F.LF_NUM_CTRL_MODE.at, F.LF_NUM_CTRL_SRC.at] s t) ∧
    (∀ l, adoptDue s = true → (s.portX s.num.src).label = some l → ∃ t, exec .numAdopted s = .next t ∧
      t.get F.LF_NUM_STATUS_STATE = 2 ∧ t.get F.LF_EVENT_NUM_ADOPTED = 1 ∧
      (∃ k : Int, t.num.next = some (addNum l k) ∧
        -6400 ≤ k * 12800 - ((((s.frameTotal + 2 ^ 32 - (s.portX s.num.src).rxTotal) % 2 ^ 32 + 1 : Nat) : Int) * 12800
          + s.get F.LF_NUM_DELAY_D - s.get F.LF_RX_PHASE_PHASE s.num.src) ∧
        k * 12800 - ((((s.frameTotal + 2 ^ 32 - (s.portX s.num.src).rxTotal) % 2 ^ 32 + 1 : Nat) : Int) * 12800
          + s.get F.LF_NUM_DELAY_D - s.get F.LF_RX_PHASE_PHASE s.num.src) < 6400) ∧
      t = { s with regs := t.regs, num := t.num } ∧ RegsKept [F.LF_NUM_STATUS_STATE.at, F.LF_EVENT_NUM_ADOPTED.at] s t) ∧
    (mismatchSetDue s = true → ∃ t, exec .mismatchSet s = .next t ∧
      t.get F.LF_NUM_STATUS_MISMATCH = 1 ∧ t.get F.LF_EVENT_MISMATCH_SET = 1 ∧
      t = { s with regs := t.regs, num := { s.num with far := 0, near := 0 } } ∧
      RegsKept [F.LF_NUM_STATUS_MISMATCH.at, F.LF_EVENT_MISMATCH_SET.at] s t) ∧
    (mismatchClrDue s = true → ∃ t, exec .mismatchClr s = .next t ∧
      t.get F.LF_NUM_STATUS_MISMATCH = 0 ∧ t.get F.LF_EVENT_MISMATCH_CLR = 1 ∧
      t = { s with regs := t.regs, num := { s.num with far := 0, near := 0 } } ∧
      RegsKept [F.LF_NUM_STATUS_MISMATCH.at, F.LF_EVENT_MISMATCH_CLR.at] s t)) ∧
  ((numWritten s).num.adopt = false ∧ (numWritten s).num.src = s.get F.LF_NUM_CTRL_SRC ∧
    (numWritten s).get F.LF_NUM_STATUS_STATE = (if s.get F.LF_NUM_CTRL_MODE = 0 then 0
      else if s.get F.LF_NUM_STATUS_STATE = 0 then 1
      else if s.num.adopt = true ∧ s.get F.LF_NUM_STATUS_STATE = 2 then 1 else s.get F.LF_NUM_STATUS_STATE) ∧
    (s.get F.LF_NUM_CTRL_MODE = 1 → s.get F.LF_NUM_STATUS_STATE ≠ 0 → s.num.src ≠ s.get F.LF_NUM_CTRL_SRC →
      (numWritten s).num.good = 0 ∧ (numWritten s).num.far = 0 ∧ (numWritten s).num.near = 0))

/-- R288, R293, R301, R309, R310, Table 8.7: a port's LOF and LOM set and cleared by 96 samples, its trace and its messages
accepted, its counts cleared, and errors injected into its frames; each of these commands answers a next state. Model's
choices: a message that meets a full inbox: notes/assumptions/51. -/
def Obligations.PortFraming : Prop := ∀ (s : State) (p : Fin 16), s.Awake →
  (s.get F.LP_STATUS_STATE p = 2 →
    (s.get F.LF_PSTATUS_LOF p = 0 → s.get F.LF_PSTATUS_FSTATE p ≠ 2 → 95 ≤ (s.portX p).lofA → ∃ t, exec (.lofSet p) s = .next t ∧
      t.get F.LF_PSTATUS_LOF p = 1 ∧ t.get F.LF_PEVENT_LOF_SET p = 1 ∧ t.get F.LF_PSTATUS_LOM p = 0 ∧
      (s.get F.LF_PSTATUS_LOM p = 1 → t.get F.LF_PEVENT_LOM_CLR p = 1) ∧ OnlyPort p s t ∧
      RegsKept [F.LF_PSTATUS_LOF.at p, F.LF_PSTATUS_LOM.at p, F.LF_PEVENT_LOF_SET.at p, F.LF_PEVENT_LOM_CLR.at p] s t) ∧
    (s.get F.LF_PSTATUS_LOF p = 1 → s.get F.LF_PSTATUS_FSTATE p = 2 → 95 ≤ (s.portX p).lofB → ∃ t, exec (.lofClr p) s = .next t ∧
      t.get F.LF_PSTATUS_LOF p = 0 ∧ t.get F.LF_PEVENT_LOF_CLR p = 1 ∧ OnlyPort p s t ∧
      RegsKept [F.LF_PSTATUS_LOF.at p, F.LF_PEVENT_LOF_CLR.at p] s t) ∧
    (s.get F.LF_PSTATUS_LOM p = 0 → s.get F.LF_PSTATUS_FSTATE p = 2 → s.get F.LF_PSTATUS_IM p = 0 → 95 ≤ (s.portX p).lomA →
      ∃ t, exec (.lomSet p) s = .next t ∧
        t.get F.LF_PSTATUS_LOM p = 1 ∧ t.get F.LF_PEVENT_LOM_SET p = 1 ∧ OnlyPort p s t ∧
        RegsKept [F.LF_PSTATUS_LOM.at p, F.LF_PEVENT_LOM_SET.at p] s t) ∧
    (s.get F.LF_PSTATUS_LOM p = 1 → s.get F.LF_PSTATUS_FSTATE p = 2 → s.get F.LF_PSTATUS_IM p = 1 → 95 ≤ (s.portX p).lomB →
      ∃ t, exec (.lomClr p) s = .next t ∧
        t.get F.LF_PSTATUS_LOM p = 0 ∧ t.get F.LF_PEVENT_LOM_CLR p = 1 ∧ OnlyPort p s t ∧
        RegsKept [F.LF_PSTATUS_LOM.at p, F.LF_PEVENT_LOM_CLR.at p] s t)) ∧
  (3 ≤ (s.portX p).traceCount → ∃ t, exec (.traceAccepted p) s = .next t ∧
    (∀ j, j < 16 → t.get F.LF_RX_TRACE p j = leAt (s.portX p).tracePrev (4 * j) 4) ∧ t.get F.LF_PSTATUS_TRACE_VALID p = 1 ∧
    ((s.portX p).tracePrev ≠ traceBytes s F.LF_RX_TRACE p → t.get F.LF_PEVENT_TRACE_NEW p = 1) ∧
    ((s.portX p).tracePrev = traceBytes s F.LF_RX_TRACE p → t.get F.LF_PEVENT_TRACE_NEW p = s.get F.LF_PEVENT_TRACE_NEW p) ∧
    t = { s with regs := t.regs } ∧
    RegsKept ([F.LF_PSTATUS_TRACE_VALID.at p, F.LF_PEVENT_TRACE_NEW.at p, F.DM_PRAW.word p] ++
      (List.range 16).map fun j => F.LF_RX_TRACE.word p j) s t) ∧
  (∀ m, (s.portX p).mcFull = some m →
    ((s.portX p).inbox = none → ∃ t, exec (.mgmtMessageAccept p) s = .next t ∧
      t.portX p = { s.portX p with mcFull := none, inbox := some m } ∧
      t.get F.LF_MC_CNT_MSGS p = (s.get F.LF_MC_CNT_MSGS p + 1) % 65536 ∧ OnlyPort p s t ∧ RegsKept [F.LF_MC_CNT_MSGS.at p] s t) ∧
    ((s.portX p).inbox ≠ none → ∃ t, exec (.mgmtMessageAccept p) s = .next t ∧
      t.portX p = { s.portX p with mcFull := none, mcRx := none } ∧
      t.get F.LF_MC_CNT_DROPS p = min (s.get F.LF_MC_CNT_DROPS p + 1) 65535 ∧ t.get F.LF_PEVENT_MC_DROP p = 1 ∧
      OnlyPort p s t ∧ RegsKept [F.LF_MC_CNT_DROPS.at p, F.LF_PEVENT_MC_DROP.at p] s t)) ∧
  (∃ t, exec (.lfCntClr p) s = .next t ∧
    t.reg (F.LF_FRAMING_CNT.addr p) = 0 ∧ t.reg (F.LF_MC_CNT.addr p) = 0 ∧ OnlyPort p s t ∧ t.portX p = s.portX p ∧
    RegsKept [F.LF_FRAMING_CNT.word p, F.LF_MC_CNT.word p, F.LF_PSTATUS_INJ_BUSY.at p] s t) ∧
  (∀ n : Byte, n ≠ 0 →
    (∃ t, exec (.alignInj p n) s = .next t ∧
      t.portX p = { s.portX p with alignInj := n.toNat } ∧ t.get F.LF_PSTATUS_INJ_BUSY p = 1 ∧ OnlyPort p s t ∧
      RegsKept [F.LF_PSTATUS_INJ_BUSY.at p] s t) ∧
    (∃ t, exec (.bipInj p n) s = .next t ∧
      t.portX p = { s.portX p with bipInj := n.toNat } ∧ t.get F.LF_PSTATUS_INJ_BUSY p = 1 ∧ OnlyPort p s t ∧
      RegsKept [F.LF_PSTATUS_INJ_BUSY.at p] s t))

/-- R326, R339, R348–R351, R353: the watchdog's STALE, the counters cleared, and the map opcodes: a load replaces a buffer
whole, a bad run refuses it, a swap of a consistent buffer takes it into use. Model's choices: reserved bits of a run word,
and reading maps by command: notes/assumptions/55 and 57. -/
def Obligations.CrossConnect : Prop := ∀ s : State,
  (s.Awake →
    (∀ t : Byte, staleDue s t.toNat = true → Gives (.staleSet t) s fun u =>
      u.get F.XC_TRIB_STAT_STALE t.toNat = 1 ∧ u.get F.XC_EVENT_STALE_SET = 1 ∧ (∀ q, q ≠ t.toNat → u.tribX q = s.tribX q) ∧
      u.tribX t.toNat = { s.tribX t.toNat with staleN := (s.tribX t.toNat).staleN + 1 } ∧
      u = { s with regs := u.regs, xc.trib := u.xc.trib } ∧ RegsKept [F.XC_TRIB_STAT_STALE.at t.toNat, F.XC_EVENT_STALE_SET.at] s u) ∧
    (Gives .slipClr s fun t =>
      (∀ p, p < 16 → t.reg (F.XC_RX_SLIP.addr p) = 0 ∧ t.reg (F.XC_TX_SLIP.addr p) = 0) ∧
      Only ((List.range 16).flatMap fun p => [F.XC_RX_SLIP.word p, F.XC_TX_SLIP.word p]) s t) ∧
    (Gives .crcClr s fun t =>
      (∀ i, i < 256 → t.reg (F.XC_TRIB_CRC.addr i) = 0) ∧ Only ((List.range 256).map fun i => F.XC_TRIB_CRC.word i) s t)) ∧
  (∀ (k : Pkt) (f : Nat), TakesFw s k f → ∀ (dir p buf : Byte), dir.toNat < 2 → p.toNat < 16 → buf.toNat < 2 →
    (∀ (ver : Byte) (ws : List Word), ws.length ≤ 1022 →
      k.params = [dir, p, buf, ver] ++ toLE 2 ws.length ++ bytesOfWords ws → s.locked 5 = false →
      (dir = 0 → activeBuf s p.toNat ≠ buf.toNat) →
      (dir = 1 → s.on (if buf = 0 then F.XC_RX_SEL_ARM_A else F.XC_RX_SEL_ARM_B) p.toNat = false) →
      ((∀ w ∈ ws, 1 ≤ bitsOf w.toNat 16 13 ∧ bitsOf w.toNat 16 13 ≤ 4992 ∧ bitsOf w.toNat 0 9 ≤ 256) →
        (ws.map fun w => bitsOf w.toNat 16 13).sum ≤ slotsPerFrame (s.get F.LP_CTRL_RATE p.toNat) →
        Gives (.xcMapLoad k (some f)) s fun t =>
          FwServed f (((List.range 1024).map fun i => (mapAddr p.toNat dir.toNat buf.toNat i, 0, 32)) ++
            [if dir = 0 then (if buf = 0 then F.XC_TX_SEL_VER_A.at p.toNat else F.XC_TX_SEL_VER_B.at p.toNat)
             else (if buf = 0 then F.XC_RX_SEL_VER_A.at p.toNat else F.XC_RX_SEL_VER_B.at p.toNat)]) s t k St.ok [] ∧
          (∀ i, i < 1024 → t.reg (mapAddr p.toNat dir.toNat buf.toNat i) = (ws.getD i 0) &&& 0x1FFF01FF) ∧
          t.get (if dir = 0 then (if buf = 0 then F.XC_TX_SEL_VER_A else F.XC_TX_SEL_VER_B)
            else (if buf = 0 then F.XC_RX_SEL_VER_A else F.XC_RX_SEL_VER_B)) p.toNat = ver.toNat ∧
          t = { s with regs := t.regs, mp := t.mp, ch := t.ch, fa.badWords := t.fa.badWords }) ∧
      (∀ i w, badRun (slotsPerFrame (s.get F.LP_CTRL_RATE p.toNat)) 0 0 ws = some (i, w) → Gives (.xcMapLoad k (some f)) s fun t =>
        FwServed f [] s t k St.badParam (toLE 2 i ++ toLE 4 w.toNat) ∧ BusOnly s t)) ∧
    (k.params = [p] → s.locked 5 = false →
      (checkRuns s 0 p.toNat (plainRuns s p.toNat 0 (1 - activeBuf s p.toNat)) = List.replicate 8 0 →
        Gives (.xcMapSwap k (some f)) s fun t =>
          FwServed f [F.XC_TX_SEL_ACTIVE.at p.toNat] s t k St.ok
            (numBytes (nextSent s p.toNat) ++ toLE 1 (txVersion s p.toNat (1 - activeBuf s p.toNat))) ∧
          t.get F.XC_TX_SEL_ACTIVE p.toNat = 1 - activeBuf s p.toNat ∧ BusOnly s t) ∧
      ((checkRuns s 0 p.toNat (plainRuns s p.toNat 0 (1 - activeBuf s p.toNat))).headD 0 ≠ 0 →
        Gives (.xcMapSwap k (some f)) s fun t =>
          FwServed f [] s t k St.wrongState (checkRuns s 0 p.toNat (plainRuns s p.toNat 0 (1 - activeBuf s p.toNat))) ∧
          BusOnly s t)) ∧
    (k.params = [dir, p, buf] → Gives (.xcMapCheck k (some f)) s fun t =>
      FwServed f [] s t k St.ok (checkRuns s dir.toNat p.toNat (plainRuns s p.toNat dir.toNat buf.toNat)) ∧ BusOnly s t))

/-- R346, R348, R352, Table 9.6: XC_SLICE_SWAP, XC_SLICE_RESTORE, SLICE_COPY_COMPLETE and SHADOW_FRAME_END answer a next
state: the spare slice is asked for and given back by command, copied, and shadows until no word differs or the attempts run
out. Model's choices: the log of the outcome: notes/assumptions/87. -/
def Obligations.SpareSlice : Prop := ∀ s : State,
  (∀ (k : Pkt) (f : Nat), TakesFw s k f →
    (∀ n force : Byte, n.toNat < 8 → force.toNat < 2 → k.params = [n, force] →
      (s.locked 5 = false → s.get F.XC_SLICE_STAT_SPARE_STATE = 0 → ∃ t, exec (.xcSliceSwap k (some f)) s = .next t ∧
        FwWaits s t k ∧ t.get F.XC_SLICE_STAT_SPARE_STATE = 1 ∧ t.get F.XC_SLICE_STAT_TARGET = n.toNat ∧
        t.get F.XC_SLICE_STAT_ATTEMPTS = 0 ∧ t.xc.force = (force.toNat == 1) ∧
        t = { s with regs := t.regs, mp := t.mp, ch := t.ch, xc := t.xc } ∧
        RegsKept (bridgeFields ++ [F.XC_SLICE_STAT_SPARE_STATE.at, F.XC_SLICE_STAT_TARGET.at, F.XC_SLICE_STAT_ATTEMPTS.at]) s t) ∧
      (s.locked 5 = false → s.get F.XC_SLICE_STAT_SPARE_STATE ≠ 0 → ∃ t, exec (.xcSliceSwap k (some f)) s = .next t ∧
        FwServed f [] s t k St.wrongState [] ∧ BusOnly s t) ∧
      (s.locked 5 = true → ∃ t, exec (.xcSliceSwap k (some f)) s = .next t ∧
        FwServed f [F.MP_LOCK_VIOL_COUNT.at] s t k St.locked [] ∧
        t.get F.MP_LOCK_VIOL_COUNT = min (s.get F.MP_LOCK_VIOL_COUNT + 1) 65535 ∧ BusOnly s t)) ∧
    (k.params = [] → s.locked 5 = false → s.get F.XC_SLICE_STAT_SPARE_STATE = 3 → ∃ t, exec (.xcSliceRestore k (some f)) s = .next t ∧
      FwWaits s t k ∧ t.get F.XC_SLICE_STAT_SPARE_STATE = 4 ∧ t.get F.XC_SLICE_STAT_ATTEMPTS = 0 ∧
      t = { s with regs := t.regs, mp := t.mp, ch := t.ch, xc := t.xc } ∧
      RegsKept (bridgeFields ++ [F.XC_SLICE_STAT_SPARE_STATE.at, F.XC_SLICE_STAT_ATTEMPTS.at]) s t)) ∧
  (s.Awake →
    (s.get F.XC_SLICE_STAT_SPARE_STATE = 1 ∨ s.get F.XC_SLICE_STAT_SPARE_STATE = 4 → ∃ t, exec .sliceCopyComplete s = .next t ∧
      t = s.put F.XC_SLICE_STAT_SPARE_STATE (s.get F.XC_SLICE_STAT_SPARE_STATE + 1)) ∧
    (s.xc.shadowing = true → ∀ more diff, diff = more + s.xc.shadowDiff →
      (s.get F.XC_SLICE_STAT_SPARE_STATE = 2 → diff = 0 ∨ s.xc.force = true → ∃ t, exec (.shadowFrameEnd more) s = .next t ∧
        t.get F.XC_SLICE_STAT_SPARE_STATE = 3 ∧ t.get F.XC_SLICE_STAT_FORCED = b2n s.xc.force ∧
        t.get F.XC_SLICE_STAT_MISMATCH = min diff 65535 ∧ t.get F.XC_EVENT_SWAP_DONE = 1 ∧
        t.get F.XC_SLICE_STAT_TARGET = s.get F.XC_SLICE_STAT_TARGET ∧ t.xc.handover = some (2, true) ∧ t.xc.shadowing = false ∧
        (∀ j, s.xc.sliceJob = some j → t.mp.ready = s.mp.ready ++ [(j, St.ok, numBytes s.secondNext)])) ∧
      (s.get F.XC_SLICE_STAT_SPARE_STATE = 5 → diff = 0 → ∃ t, exec (.shadowFrameEnd more) s = .next t ∧
        t.get F.XC_SLICE_STAT_SPARE_STATE = 0 ∧ t.get F.XC_SLICE_STAT_FORCED = 0 ∧ t.get F.XC_SLICE_STAT_TARGET = 15 ∧
        t.get F.XC_EVENT_RESTORE_DONE = 1 ∧ t.xc.handover = some (2, false) ∧
        (∀ j, s.xc.sliceJob = some j → t.mp.ready = s.mp.ready ++ [(j, St.ok, numBytes s.secondNext)])) ∧
      (s.get F.XC_SLICE_STAT_SPARE_STATE = 2 ∧ s.xc.force = false ∨ s.get F.XC_SLICE_STAT_SPARE_STATE = 5 → diff ≠ 0 →
        (s.get F.XC_SLICE_STAT_ATTEMPTS < 15 → ∃ t, exec (.shadowFrameEnd more) s = .next t ∧
          t.get F.XC_SLICE_STAT_ATTEMPTS = s.get F.XC_SLICE_STAT_ATTEMPTS + 1 ∧
          t.get F.XC_SLICE_STAT_MISMATCH = min diff 65535 ∧ t = { s with regs := t.regs, xc.shadowing := false, xc.shadowDiff := 0 } ∧
          RegsKept [F.XC_SLICE_STAT_ATTEMPTS.at, F.XC_SLICE_STAT_MISMATCH.at] s t) ∧
        (15 ≤ s.get F.XC_SLICE_STAT_ATTEMPTS → ∃ t u, exec (.shadowFrameEnd more) s = .next t ∧
          t = settle (logPush (raise u 9 (s.get F.XC_SLICE_STAT_TARGET)) (if s.get F.XC_SLICE_STAT_SPARE_STATE = 2 then 0x12 else 0x13)
            (s.get F.XC_SLICE_STAT_TARGET) 2) ∧
          u.get F.XC_SLICE_STAT_SPARE_STATE = (if s.get F.XC_SLICE_STAT_SPARE_STATE = 2 then 0 else 3) ∧
          u.get F.XC_EVENT_SWAP_FAIL = 1 ∧ u.get F.XC_SLICE_STAT_MISMATCH = min diff 65535 ∧
          (∀ j, s.xc.sliceJob = some j → u.mp.ready = s.mp.ready ++ [(j, St.wrongState, toLE 4 (min diff 65535))])))))

/-- R366, R368–R370, R372–R374, Table 10.1: gearing channels: EN written, which the channel follows from the next local frame, or
the one in whose first cycle it is written; RECAPTURE, the gap limit, the capture, and one step: the exact move of the input
times the ratio with the remainder carried, the offset moved by at most SLEW, and the velocity. -/
def Obligations.Gearing : Prop := ∀ (s : State) (g : Fin 64), s.Awake →
  (s.locked 6 = false →
    (s.inFrame ≠ 0 → ∀ en, Gives (.gearEnWrite g en) s fun t => t.get F.GR_G_CFG_EN g = b2n en ∧ Only [F.GR_G_CFG_EN.at g] s t) ∧
    (s.inFrame = 0 → ∀ en, Gives (.gearEnWrite g en) s fun t =>
      t.get F.GR_G_CFG_EN g = b2n en ∧
      (en = true → s.get F.GR_G_STAT_STATE g = 0 →
        t.get F.GR_G_STAT_STATE g = 1 ∧ t.get F.GR_G_STAT_GAP g = 0 ∧ t.gearX g = { s.gearX g with load := true, outs := [] }) ∧
      (en = true → s.get F.GR_G_STAT_STATE g ≠ 0 → Only [F.GR_G_CFG_EN.at g] s t) ∧
      (en = false → t.get F.GR_G_STAT_STATE g = 0 ∧
        (s.get F.GR_G_STAT_STATE g ≠ 0 → t.get F.GR_G_STAT_IN_ERR g = 0 ∧ (t.gearX g).outs = [])) ∧
      t = { s with regs := t.regs, gr.gear := t.gr.gear } ∧
      RegsKept [F.GR_G_CFG_EN.at g, F.GR_G_STAT_STATE.at g, F.GR_G_STAT_GAP.at g, F.GR_G_STAT_IN_ERR.at g] s t)) ∧
  ((gearFollow s g).get F.GR_G_STAT_STATE g = (if s.get F.GR_G_CFG_EN g = 0 then 0
    else if s.get F.GR_G_STAT_STATE g = 0 then 1 else s.get F.GR_G_STAT_STATE g)) ∧
  (∀ mode, s.get F.GR_G_STAT_STATE g ≠ 0 → Gives (.recapture g mode) s fun t =>
    t.get F.GR_G_STAT_STATE g = 1 ∧ t.gearX g = { s.gearX g with load := mode } ∧
    t = { s with regs := t.regs, gr.gear := t.gr.gear } ∧ RegsKept [F.GR_G_STAT_STATE.at g] s t) ∧
  (gapDue s g = true → Gives (.gapRecapture g) s fun t =>
    t.get F.GR_G_STAT_STATE g = 1 ∧ t.get F.GR_G_STAT_GAP g = 0 ∧ t.get F.GR_EVENT_RECAPTURED = 1 ∧
    Only [F.GR_G_STAT_STATE.at g, F.GR_G_STAT_GAP.at g, F.GR_EVENT_RECAPTURED.at] s t) ∧
  (∀ i rest, gearInputs s g frameCycles = i :: rest → s.get F.FA_JIG_LEFT 3 = 0 → s.fa.badWords = [] →
    (s.get F.GR_G_STAT_STATE g = 1 → Gives (.gearStep g) s fun t =>
      t.get F.GR_G_STAT_STATE g = 2 ∧ gearWord t g 0 = i.value % 2 ^ 32 ∧ gearWord t g 2 = 0 ∧ gearWord t g 5 = 0 ∧
      ((s.gearX g).load = true → gearWord t g 1 = s.snap F.GR_G_PRESET g ∧ gearWord t g 3 = s.snap F.GR_G_OFS g) ∧
      ((s.gearX g).load = false → gearWord t g 1 = gearWord s g 1 ∧ gearWord t g 3 = gearWord s g 3) ∧
      gearWord t g 4 = (gearWord t g 1 + gearWord t g 3) % 2 ^ 32 ∧ (t.gearX g).seen = i.base + 1 ∧
      t = { s with regs := t.regs, gr.gear := t.gr.gear, xc.trib := t.xc.trib } ∧
      RegsKept ([F.GR_G_STAT.word g] ++ (List.range 6).map (fun j => F.GR_STATE.word g j) ++
        (List.range 256).map fun j => F.XC_TRIB_STAT_AGE.at j) s t) ∧
    (s.get F.GR_G_STAT_STATE g = 2 → Gives (.gearStep g) s fun t =>
      let d := toSigned 32 (i.value + 2 ^ 32 - gearWord s g 0)
      let r0 := if (s.gearX g).ratio = none ∨ (s.gearX g).ratio = some (s.snap F.GR_G_NUM g, s.snap F.GR_G_DEN g) then
        gearWord s g 2 else 0
      let p := d * toSigned 32 (s.snap F.GR_G_NUM g) + (r0 : Int)
      let move := offsetMove (gearWord s g 3) (s.snap F.GR_G_OFS g) (s.snap F.GR_G_SLEW g)
      let v := p / (s.snap F.GR_G_DEN g : Int) + move
      gearWord t g 0 = i.value % 2 ^ 32 ∧
      gearWord t g 1 = ofSigned 32 ((gearWord s g 1 : Int) + p / (s.snap F.GR_G_DEN g : Int)) ∧
      (s.snap F.GR_G_DEN g ≠ 0 → (gearWord t g 2 : Int) = p % (s.snap F.GR_G_DEN g : Int)) ∧
      gearWord t g 3 = ofSigned 32 ((gearWord s g 3 : Int) + move) ∧
      gearWord t g 4 = (gearWord t g 1 + gearWord t g 3) % 2 ^ 32 ∧
      gearWord t g 5 = ofSigned 32 (clampInt (-2147483648) 2147483647 v) ∧
      gearWord t g 6 = (gearWord s g 6 + 1) % 2 ^ 32 ∧
      t.get F.GR_G_STAT_STATE g = 2 ∧ t.get F.GR_G_STAT_AGE g = 0 ∧ t.get F.GR_G_STAT_GAP g = 0 ∧
      t.get F.GR_G_STAT_VEL_SAT g = b2n (decide (v < -2147483648 ∨ 2147483647 < v)) ∧
      t.get F.GR_EVENT_VEL_SAT = (if v < -2147483648 ∨ 2147483647 < v then 1 else s.get F.GR_EVENT_VEL_SAT) ∧
      t.get F.GR_G_STAT_SLEWING g = b2n (gearWord t g 3 != s.snap F.GR_G_OFS g) ∧
      t = { s with regs := t.regs, gr.gear := t.gr.gear, xc.trib := t.xc.trib } ∧
      RegsKept ([F.GR_G_STAT.word g, F.GR_EVENT_VEL_SAT.at] ++ (List.range 7).map (fun j => F.GR_STATE.word g j) ++
        (List.range 256).map fun j => F.XC_TRIB_STAT_AGE.at j) s t))

/-- R375–R379, R381, R383, R384, Table 10.2: scaling recipes: an evaluation runs the steps on the input, keeps the result and
makes its flags sticky; a load writes all 32 step words; a test runs the steps and changes nothing; and whatever the steps
and the table, the result is a signed 32-bit number with the four flags of Table 10.3. Model's choices: when a value becomes
an input: notes/assumptions/60. -/
def Obligations.Recipes : Prop := ∀ s : State,
  (s.Awake → ∀ (x : Fin 64) i m rest, recipeInputs s x frameCycles = (i, m) :: rest → s.get F.FA_JIG_LEFT 3 = 0 → s.fa.badWords = [] →
    Gives (.recipeEvaluate x) s fun t =>
      let r := runSteps (splineNow s) (recipeSteps (fun f i j => s.snap f i j) x) (toSigned 32 i.value) 0
      t.get F.GR_R_OUT x = ofSigned 32 r.1 ∧ t.get F.GR_R_STAT_FLAGS x = r.2 % 16 ∧ t.get F.GR_R_STAT_AGE x = 0 ∧
      t.get F.GR_R_FLAGS x = (s.get F.GR_R_FLAGS x ||| r.2) % 2 ^ 32 ∧ (t.recipeX x).seen = i.base + 1 ∧
      t.get F.GR_EVENT = (s.get F.GR_EVENT ||| r.2 * 2 ^ 3) % 2 ^ 32 ∧
      t = { s with regs := t.regs, gr.recipe := t.gr.recipe, xc.trib := t.xc.trib } ∧
      RegsKept ([F.GR_R_STAT_FLAGS.at x, F.GR_R_STAT_AGE.at x, F.GR_R_OUT.word x, F.GR_R_FLAGS.word x, F.GR_EVENT.word] ++
        (List.range 256).map fun j => F.XC_TRIB_STAT_AGE.at j) s t) ∧
  (∀ (k : Pkt) (f : Nat), TakesFw s k f → ∀ x : Byte, x.toNat < 64 →
    (∀ ws : List (Word × Word × Word × Word), ws.length ≤ 8 → s.locked 6 = false →
      k.params = [x, BitVec.ofNat 8 ws.length] ++ bytesOfWords (ws.flatMap fun w => [w.1, w.2.1, w.2.2.1, w.2.2.2]) →
      ((∀ w ∈ ws, stepBad w.1.toNat = false) → Gives (.grRecipeLoad k (some f)) s fun t =>
        FwServed f ([F.GR_R_CFG_COUNT.at x.toNat] ++ (List.range 32).map fun j => F.GR_STEP.word x.toNat j) s t k St.ok
          (toLE 1 (recipeLatency t x.toNat)) ∧
        t.get F.GR_R_CFG_COUNT x.toNat = ws.length ∧
        (∀ j (m : Word), j < 32 → m = (if j % 4 = 0 then 0xFF001FFF else if j % 4 = 3 then 0 else 0xFFFFFFFF) →
          t.reg (F.GR_STEP.addr x.toNat j) = ((ws.flatMap fun w => [w.1, w.2.1, w.2.2.1, w.2.2.2]).getD j 0 &&& m) |||
            (s.reg (F.GR_STEP.addr x.toNat j) &&& ~~~m)) ∧
        t = { s with regs := t.regs, mp := t.mp, ch := t.ch, fa.badWords := t.fa.badWords }) ∧
      (∀ i w, ws[i]? = some w → stepBad w.1.toNat = true → (∀ j w', j < i → ws[j]? = some w' → stepBad w'.1.toNat = false) →
        Gives (.grRecipeLoad k (some f)) s fun t =>
          FwServed f [] s t k St.badParam (toLE 2 i ++ toLE 4 w.1.toNat) ∧ BusOnly s t)) ∧
    (∀ a, k.params = [x] ++ toLE 4 a → a < 2 ^ 32 → Gives (.grRecipeTest k (some f)) s fun t =>
      let r := runSteps (splineNow s) (recipeSteps (fun f i j => s.get f i j) x.toNat) (toSigned 32 a) 0
      FwServed f [] s t k St.ok (toLE 4 (ofSigned 32 r.1) ++ toLE 1 r.2) ∧ BusOnly s t)) ∧
  (∀ (lut : Nat → Int → Option (Int × Bool)) (sts : List Machine.Step) (a : Int), -2147483648 ≤ a → a ≤ 2147483647 →
    -2147483648 ≤ (runSteps lut sts a 0).1 ∧ (runSteps lut sts a 0).1 ≤ 2147483647 ∧ (runSteps lut sts a 0).2 < 16)

/-- R398–R404, R414, Table 11.1: queues: EN written, a byte written or held, a word read and its cell returned, a queue reset
and a rebuild completed, starvation. Model's choices: the free cell taken is the lowest-numbered one: notes/assumptions/61. -/
def Obligations.Queues : Prop := ∀ (s : State) (q : Fin 64),
  (s.Awake →
    (s.locked 7 = false → (s.get F.QM_Q_CFG_PROD_KIND q = 2 → s.get F.QM_Q_CFG_PROD_INDEX q ≤ 3) →
      (s.get F.QM_Q_STAT_STATE q = 0 → s.get F.QM_Q_CFG_EN q = 0 → s.get F.QM_Q_CFG_PROD_KIND q = 0 →
        Gives (.queueEnWrite q true) s fun t =>
          t.get F.QM_Q_STAT_STATE q = 1 ∧ t.get F.QM_Q_CFG_EN q = 1 ∧ Only [F.QM_Q_CFG_EN.at q, F.QM_Q_STAT_STATE.at q] s t) ∧
      (Gives (.queueEnWrite q false) s fun t =>
        t.get F.QM_Q_STAT_STATE q = (if s.get F.QM_Q_STAT_STATE q = 1 then 2 else s.get F.QM_Q_STAT_STATE q) ∧
        t.get F.QM_Q_CFG_EN q = 0 ∧ Only [F.QM_Q_CFG_EN.at q, F.QM_Q_STAT_STATE.at q] s t)) ∧
    (∀ upset, Gives (.queueWriteAccept q upset) s fun t =>
      t = settle (qPump (ptrUpset s upset (tailId q) (tailId q) freeHeadId) q)) ∧
    (∀ p ps c, OneCell s q p ps c → hasConsumer s q = true → Gives (.queueRead q .sound) s fun t =>
      (t.queueX q).buf = poolBytes s (64 * c) (min 16 p.len) ∧
      t.get64 F.QM_Q_DEQ_BYTES_LO q = (s.get64 F.QM_Q_DEQ_BYTES_LO q + min 16 p.len) % 2 ^ 64 ∧
      (t.queueX q).pkts = (if p.len ≤ 16 then ps else { p with read := 16 } :: ps) ∧
      (16 < p.len → t.get F.QM_Q_STAT_CELLS q = s.get F.QM_Q_STAT_CELLS q) ∧
      (p.len ≤ 16 → t.get F.QM_Q_STAT_CELLS q = (s.get F.QM_Q_STAT_CELLS q - 1) ∧ t.get F.QM_Q_PKTS q = s.get F.QM_Q_PKTS q - 1) ∧
      t = { s with regs := t.regs, qm := t.qm } ∧
      RegsKept (F.QM_Q_DEQ_BYTES_LO.words64 q ++ [F.QM_Q_PKTS.word q, F.QM_Q_STAT_CELLS.at q]) s t) ∧
    (∀ p ps c upset, OneCell s q p ps c → hasConsumer s q = true →
      (upset = .link ∨ upset = .queue → Gives (.queueRead q upset) s fun t => ∃ u,
        t = settle (raise u 10 q) ∧ u.get F.QM_Q_STAT_STATE q = 2 ∧ u.get F.QM_EVENT_PTR_FAULT = 1 ∧
        u.get F.QM_STATUS_REBUILDING = 1 ∧ u.qm.rebuilding = true ∧ (u.queueX q).faulted = true) ∧
      (upset = .free → p.len ≤ 16 → Gives (.queueRead q upset) s fun t => ∃ u,
        t = settle (raise u 11 0) ∧ u.get F.QM_EVENT_FREE_FAULT = 1 ∧ u.get F.QM_STATUS_REBUILDING = 1 ∧ u.qm.rebuilding = true ∧
        (u.queueX q).pkts = ps)) ∧
    (hasConsumer s q = false → ∀ upset, Gives (.queueRead q upset) s fun t => t = s) ∧
    (s.get F.QM_Q_STAT_STATE q = 2 → (s.queueX q).faulted = false → Gives (.queueResetDone q) s fun t =>
      t.get F.QM_Q_STAT_STATE q = s.get F.QM_Q_CFG_EN q ∧ t.get F.QM_Q_STAT_CELLS q = 0 ∧ t.get F.QM_Q_PKTS q = 0 ∧
      t.get F.QM_Q_STAT_FULL q = 0 ∧ t.get F.QM_Q_FAULT_RESETS q = min (s.get F.QM_Q_FAULT_RESETS q + 1) 65535 ∧
      t.get F.QM_Q_LOST_LOST q = min (s.get F.QM_Q_LOST_LOST q + discardedPkts (s.queueX q)) 65535 ∧
      (t.queueX q).pkts = [] ∧ (t.queueX q).cur = none ∧ (t.queueX q).skip = midPacket s q ∧
      (∀ j, (s.queueX q).qdma = [] → (s.queueX q).recvJobs = [] → (s.queueX q).resetJobs = [j] →
        t.mp.ready = s.mp.ready ++ [(j, St.ok, toLE 2 (s.get F.QM_Q_STAT_CELLS q) ++ toLE 2 (discardedPkts (s.queueX q)))]) ∧
      (∀ q', q' ≠ q.val → t.queueX q' = s.queueX q') ∧ t = { s with regs := t.regs, qm := t.qm, mp := t.mp } ∧
      RegsKept [F.QM_Q_STAT.word q, F.QM_Q_PKTS.word q, F.QM_Q_FAULT_RESETS.at q, F.QM_Q_LOST_LOST.at q] s t) ∧
    (s.qm.rebuilding = true → s.qm.differ = [] → NoJig [8, 9, 10] s → (∀ q', q' < 64 → s.get F.QM_Q_STAT_STATE q' ≠ 2) →
      (∀ e ∈ s.qm.queue, e.2.recvJobs = []) → Gives (.rebuildDone 0) s fun t =>
      t.get F.QM_STATUS_REBUILDING = 0 ∧ t.get F.QM_EVENT_REBUILD_DONE = 1 ∧ t.qm.rebuilding = false ∧
      t.qm.genBase = (s.qm.genBase + 1) % 16 ∧ t.qm.queue = s.qm.queue ∧ t = { s with regs := t.regs, qm := t.qm } ∧
      RegsKept [F.QM_STATUS_REBUILDING.at, F.QM_EVENT_REBUILD_DONE.at] s t) ∧
    (∀ x : Byte, starveDue s x.toNat = true → (s.pktTrib x.toNat).judged = false → Gives (.starvedSet x) s fun t =>
      t.get F.QM_T_TX_STARVED x.toNat = 1 ∧ t.get F.QM_EVENT_STARVED_SET = 1 ∧
      t = { s with regs := t.regs, qm.trib := t.qm.trib } ∧ RegsKept [F.QM_T_TX_STARVED.at x.toNat, F.QM_EVENT_STARVED_SET.at] s t)) ∧
  (∀ (b : Byte), qRunning s q = true → (s.queueX q).skip = false → NoJig [9, 10] s → s.fa.badWords = [] → s.qm.differ = [] →
    (∀ p c, (s.queueX q).cur = some p → p.len % 64 ≠ 0 → p.cells.getLast? = some c →
      (qPutByte s q b).2 = true ∧ ((qPutByte s q b).1.queueX q).cur = some { p with len := p.len + 1 } ∧
      poolBytes (qPutByte s q b).1 (64 * c + p.len % 64) 1 = [b] ∧
      (qPutByte s q b).1.get64 F.QM_Q_ENQ_BYTES_LO q = (s.get64 F.QM_Q_ENQ_BYTES_LO q + 1) % 2 ^ 64) ∧
    ((s.queueX q).cur = none → qCanTake s q = true →
      (qPutByte s q b).2 = true ∧ ((qPutByte s q b).1.queueX q).cur = some { cells := [nextCell s], len := 1 } ∧
      poolBytes (qPutByte s q b).1 (64 * nextCell s) 1 = [b] ∧ nextCell s ∉ heldCells s ∧
      (qPutByte s q b).1.get F.QM_Q_STAT_FULL q = 0) ∧
    ((s.queueX q).cur = none → qCanTake s q = false →
      (qPutByte s q b).2 = false ∧ (qPutByte s q b).1.get F.QM_Q_STAT_FULL q = 1 ∧ Only [F.QM_Q_STAT_FULL.at q] s (qPutByte s q b).1))

/-- R402, R421–R423, R437, Table 11.3: the queue opcodes: a reset waits for its queue, or answers at once where the queue is
OFF; a send waits for room; a packet is received whole or is not present; the audit counts cells and differences. Model's
choices: free cells and queues that are OFF: notes/assumptions/61 and 62. -/
def Obligations.QueueOpcodes : Prop := ∀ (s : State) (k : Pkt) (f : Nat), TakesFw s k f →
  (∀ q : Byte, q.toNat < 64 →
    (k.params = [q] →
      (s.get F.QM_Q_STAT_STATE q.toNat = 0 → Gives (.qmReset k (some f)) s fun t =>
        FwServed f [] s t k St.ok [0, 0, 0, 0] ∧ BusOnly s t) ∧
      (s.get F.QM_Q_STAT_STATE q.toNat = 1 → Gives (.qmReset k (some f)) s fun t =>
        FwWaits s t k ∧ t.get F.QM_Q_STAT_STATE q.toNat = 2 ∧
        t.queueX q.toNat = { s.queueX q.toNat with resetJobs := (s.queueX q.toNat).resetJobs ++ [.chain] } ∧
        t = { s with regs := t.regs, mp := t.mp, ch := t.ch, qm.queue := t.qm.queue } ∧
        RegsKept (bridgeFields ++ [F.QM_Q_STAT_STATE.at q.toNat]) s t) ∧
      (s.get F.QM_Q_CFG_CONS_KIND q.toNat = 3 →
        (s.get F.QM_Q_STAT_STATE q.toNat = 2 → Gives (.qmPktRecv k (some f)) s fun t =>
          FwServed f [] s t k St.queueReset [] ∧ BusOnly s t) ∧
        (s.get F.QM_Q_STAT_STATE q.toNat = 1 → (s.queueX q.toNat).pkts = [] → (s.queueX q.toNat).rd = none →
          Gives (.qmPktRecv k (some f)) s fun t => FwServed f [] s t k St.notPresent [] ∧ BusOnly s t) ∧
        (s.get F.QM_Q_STAT_STATE q.toNat = 1 → s.qm.rebuilding = true → (s.queueX q.toNat).pkts ≠ [] →
          Gives (.qmPktRecv k (some f)) s fun t => FwWaits s t k ∧
            t.queueX q.toNat = { s.queueX q.toNat with recvJobs := (s.queueX q.toNat).recvJobs ++ [.chain] }) ∧
        (∀ p ps c, OneCell s q.toNat p ps c → Gives (.qmPktRecv k (some f)) s fun t =>
          FwServed f (F.QM_Q_DEQ_BYTES_LO.words64 q.toNat ++ [F.QM_Q_PKTS.word q.toNat, F.QM_Q_STAT_CELLS.at q.toNat]) s t k St.ok
            (toLE 1 (b2n p.err) ++ toLE 2 p.len ++ poolBytes s (64 * c) p.len) ∧
          (t.queueX q.toNat).pkts = ps ∧ t.get F.QM_Q_PKTS q.toNat = s.get F.QM_Q_PKTS q.toNat - 1 ∧
          t.get F.QM_Q_STAT_CELLS q.toNat = s.get F.QM_Q_STAT_CELLS q.toNat - 1 ∧
          t = { s with regs := t.regs, mp := t.mp, ch := t.ch, qm := t.qm }))) ∧
    (∀ bs : List Byte, 1 ≤ bs.length → bs.length ≤ 64 → k.params = q :: bs → s.get F.QM_Q_CFG_PROD_KIND q.toNat = 3 →
      (qRunning s q.toNat = false → (∀ e ∈ (s.queueX q.toNat).qdma, e.2 ≠ []) → Gives (.qmPktSend k (some f)) s fun t =>
        FwWaits s t k ∧ t.queueX q.toNat = { s.queueX q.toNat with qdma := (s.queueX q.toNat).qdma ++ [(.chain, bs)] } ∧
        t = { s with regs := t.regs, mp := t.mp, ch := t.ch, qm.queue := t.qm.queue } ∧ RegsKept bridgeFields s t) ∧
      (qRunning s q.toNat = true → (s.queueX q.toNat).skip = false → (s.queueX q.toNat).cur = none → (s.queueX q.toNat).qdma = [] →
        qCanTake s q.toNat = true → NoJig [9, 10] s → s.fa.badWords = [] → s.qm.differ = [] → Gives (.qmPktSend k (some f)) s fun t =>
          (t.queueX q.toNat).pkts = (s.queueX q.toNat).pkts ++ [{ cells := [nextCell s], len := bs.length }] ∧
          poolBytes t (64 * nextCell s) bs.length = bs ∧ t.mp.ready = [(.chain, St.ok, [])] ∧ t.mp.out = s.mp.out ∧
          t.get F.QM_Q_PKTS q.toNat = (s.get F.QM_Q_PKTS q.toNat + 1) % 2 ^ 32 ∧
          t.get64 F.QM_Q_ENQ_BYTES_LO q.toNat = (s.get64 F.QM_Q_ENQ_BYTES_LO q.toNat + bs.length) % 2 ^ 64))) ∧
  (k.params = [] → NoJig [8, 9, 10] s → s.qm.differ = [] → Gives (.qmAudit k (some f)) s fun t =>
    FwServed f [] s t k St.ok (toLE 2 (poolCells - qmFree s) ++ toLE 2 (qmFree s) ++ [0]) ∧ BusOnly s t)

/-- R416–R420, R423, R425, R434: client ports: their link, frames received and counted, PAUSE received and sent, a packet
sent with its pad and FCS, auto-negotiation and the counters cleared. Model's choices: the order of the checks, and what a
fall of the link clears: notes/assumptions/65 and 66; how long a frame keeps the line: notes/assumptions/106. -/
def Obligations.ClientPorts : Prop := ∀ (s : State) (c : Fin 4), s.Awake →
  (s.get F.CL_CFG_EN c = 1 →
    (s.get F.CL_STATUS_LINK c = 1 → s.tapOwns = false → ∀ frame, 4 ≤ frame.length →
      (leAt frame (frame.length - 4) 4 ≠ crc32 (frame.take (frame.length - 4)) → Gives (.clientFrameReceive c frame) s fun t =>
        t.get F.CL_RX_FCS_ERR c = min (s.get F.CL_RX_FCS_ERR c + 1) (2 ^ 32 - 1) ∧ Only [F.CL_RX_FCS_ERR.word c] s t) ∧
      (leAt frame (frame.length - 4) 4 = crc32 (frame.take (frame.length - 4)) →
        (frame.length < 64 ∨ 9216 < frame.length → Gives (.clientFrameReceive c frame) s fun t =>
          t.get F.CL_RX_LEN_ERR c = min (s.get F.CL_RX_LEN_ERR c + 1) (2 ^ 32 - 1) ∧ Only [F.CL_RX_LEN_ERR.word c] s t) ∧
        (64 ≤ frame.length → frame.length ≤ 9216 →
          (be16 frame 12 = 0x8808 → be16 frame 14 = 1 → frame.take 6 = pauseAddr → s.get F.CL_CFG_RX_PAUSE_EN c = 1 →
            clNegotiates s c = false → Gives (.clientFrameReceive c frame) s fun t =>
              t.get F.CL_STATUS_PAUSED c = b2n (be16 frame 16 != 0) ∧
              t.get F.CL_PAUSE_RX c = min (s.get F.CL_PAUSE_RX c + 1) (2 ^ 32 - 1) ∧
              t.clientX c = { s.clientX c with pauseLeft := be16 frame 16 * 1024 } ∧
              t = { s with regs := t.regs, qm.client := t.qm.client } ∧
              RegsKept [F.CL_STATUS_PAUSED.at c, F.CL_PAUSE_RX.word c] s t) ∧
          (be16 frame 12 ≠ 0x8808 → 16384 < storeFill s c + frame.length → Gives (.clientFrameReceive c frame) s fun t => ∃ u,
            t = settle (raise u 13 c) ∧ u.get F.CL_RX_OVF c = min (s.get F.CL_RX_OVF c + 1) (2 ^ 32 - 1) ∧
            u.get F.CL_EVENT_RX_OVF c = 1 ∧ Only [F.CL_RX_OVF.word c, F.CL_EVENT_RX_OVF.at c] s u) ∧
          (be16 frame 12 ≠ 0x8808 → storeFill s c + frame.length ≤ 16384 → Gives (.clientFrameReceive c frame) s fun t => ∃ u,
            t = settle (queueFrame u c (frame.take (frame.length - 4))) ∧
            u.get64 F.CL_RX_FRAMES c = (s.get64 F.CL_RX_FRAMES c + 1) % 2 ^ 64 ∧
            u.get64 F.CL_RX_BYTES c = (s.get64 F.CL_RX_BYTES c + (frame.length - 4)) % 2 ^ 64 ∧
            Only (F.CL_RX_FRAMES.words64 c ++ F.CL_RX_BYTES.words64 c) s u)))) ∧
    (∀ p ps x, OneCell s (s.get F.CL_CFG_TXQ c) p ps x → clConsumes s c (s.get F.CL_CFG_TXQ c) = true →
      s.get F.CL_STATUS_PAUSED c = 0 → lineFree s c = true → Gives (.clientTransmit c) s fun t =>
        (t.queueX (s.get F.CL_CFG_TXQ c)).pkts = ps ∧
        (s.get F.CL_STATUS_LINK c = 1 →
          (t.clientX c).sent = txFrame (poolBytes s (64 * x) p.len) p.err ∧
          (t.clientX c).lineLeft = (24 + max 60 p.len) * 16 ∧
          t.get64 F.CL_TX_FRAMES c = (s.get64 F.CL_TX_FRAMES c + 1) % 2 ^ 64 ∧
          t.get64 F.CL_TX_BYTES c = (s.get64 F.CL_TX_BYTES c + max 60 p.len) % 2 ^ 64 ∧
          t.get F.CL_TX_ERR c = min (s.get F.CL_TX_ERR c + b2n p.err) (2 ^ 32 - 1)) ∧
        (s.get F.CL_STATUS_LINK c = 0 → t.get F.CL_TX_ERR c = min (s.get F.CL_TX_ERR c + 1) (2 ^ 32 - 1) ∧
          t.qm.client = s.qm.client))) ∧
  (∀ d, s.get F.CL_STATUS_PAUSED c = 1 → clCycles s c (s.clientX c).pauseLeft = some d → Calm s d →
    Gives (.pauseExpiry c) s fun t => ∃ u, t = settle u ∧ u.get F.CL_STATUS_PAUSED c = 0 ∧ (u.clientX c).pauseLeft = 0) ∧
  (clPauses s c = true → ∀ quanta frame, quanta = s.get F.CL_PAUSE_Q_QUANTA c → frame = pauseFrame s c quanta →
    (s.get F.CL_STATUS_XOFF_SENT c = 0 → belowXoff s c = true → Gives (.pauseXoff c) s fun t =>
      t.get F.CL_STATUS_XOFF_SENT c = 1 ∧ t.get F.CL_PAUSE_TX c = min (s.get F.CL_PAUSE_TX c + 1) (2 ^ 32 - 1) ∧
      t.clientX c = { s.clientX c with
        sent := frame, sentPause := some quanta, refresh := quanta * 512, lineLeft := lineTime 64, linePkt := false } ∧
      t = { s with regs := t.regs, qm.client := t.qm.client } ∧ RegsKept [F.CL_STATUS_XOFF_SENT.at c, F.CL_PAUSE_TX.word c] s t) ∧
    (s.get F.CL_STATUS_XOFF_SENT c = 1 → atXon s c = false → belowXoff s c = true →
      clCycles s c (s.clientX c).refresh = some 1 → Calm s 1 → Gives (.pauseRefresh c) s fun t => ∃ u, t = settle u ∧
        u.get F.CL_PAUSE_TX c = min (s.get F.CL_PAUSE_TX c + 1) (2 ^ 32 - 1) ∧ u.get F.CL_STATUS_XOFF_SENT c = 1 ∧
        (u.clientX c).sent = frame ∧ (u.clientX c).sentPause = some quanta ∧ (u.clientX c).refresh = quanta * 512) ∧
    (s.get F.CL_STATUS_XOFF_SENT c = 1 → atXon s c = true → Gives (.pauseXon c) s fun t =>
      t.get F.CL_STATUS_XOFF_SENT c = 0 ∧ t.get F.CL_PAUSE_TX c = min (s.get F.CL_PAUSE_TX c + 1) (2 ^ 32 - 1) ∧
      t.clientX c = { s.clientX c with
        sent := pauseFrame s c 0, sentPause := some 0, refresh := 0, lineLeft := lineTime 64, linePkt := false } ∧
      t = { s with regs := t.regs, qm.client := t.qm.client } ∧ RegsKept [F.CL_STATUS_XOFF_SENT.at c, F.CL_PAUSE_TX.word c] s t)) ∧
  (s.get F.CL_CFG_EN c = 1 → s.get F.CL_STATUS_CREF_OK c = 1 →
    (s.get F.CL_STATUS_LINK c = 0 → Gives (.linkChange c true) s fun t =>
      t = (s.put F.CL_STATUS_LINK 1 c).raiseBit F.CL_EVENT_LINK_UP c) ∧
    (∀ tx rx, clNegotiates s c = true → Gives (.anDone c tx rx) s fun t =>
      t.get F.CL_STATUS_AN_DONE c = 1 ∧ t.get F.CL_STATUS_TX_PAUSE c = b2n tx ∧ t.get F.CL_STATUS_RX_PAUSE c = b2n rx ∧
      t.get F.CL_EVENT_AN_DONE c = 1 ∧
      Only [F.CL_STATUS_AN_DONE.at c, F.CL_STATUS_TX_PAUSE.at c, F.CL_STATUS_RX_PAUSE.at c, F.CL_EVENT_AN_DONE.at c] s t)) ∧
  (s.get F.CL_STATUS_LINK c = 1 → Gives (.linkChange c false) s fun t =>
    t.get F.CL_STATUS_LINK c = 0 ∧ t.get F.CL_EVENT_LINK_DOWN c = 1 ∧ t.get F.CL_STATUS_AN_DONE c = 0 ∧
    t.get F.CL_STATUS_PAUSED c = 0 ∧ t.get F.CL_STATUS_XOFF_SENT c = 0 ∧
    t.clientX c = { s.clientX c with pauseLeft := 0, refresh := 0, lineLeft := 0, linePkt := false } ∧
    t.get F.CL_TX_ERR c = min (s.get F.CL_TX_ERR c + b2n ((s.clientX c).lineLeft != 0 && (s.clientX c).linePkt)) (2 ^ 32 - 1) ∧
    t = { s with regs := t.regs, qm.client := t.qm.client } ∧
    RegsKept [F.CL_STATUS.word c, F.CL_EVENT_LINK_DOWN.at c, F.CL_TX_ERR.word c] s t) ∧
  (Gives .crefLost s fun t =>
    (∀ d, d < 4 → t.get F.CL_STATUS_CREF_OK d = 0 ∧ t.get F.CL_EVENT_CREF_LOST d = 1 ∧ t.get F.CL_STATUS_LINK d = 0) ∧
    t = { s with regs := t.regs, qm.client := t.qm.client, chip.crefBad := true } ∧
    RegsKept ((List.range 4).flatMap fun d =>
      [F.CL_STATUS.word d, F.CL_EVENT_LINK_DOWN.at d, F.CL_EVENT_CREF_LOST.at d, F.CL_TX_ERR.word d]) s t) ∧
  (Gives .crefclkReturn s fun t =>
    (∀ d, d < 4 → t.get F.CL_STATUS_CREF_OK d = 1) ∧ t = { s with regs := t.regs, chip.crefBad := false } ∧
    RegsKept ((List.range 4).map fun d => F.CL_STATUS_CREF_OK.at d) s t) ∧
  (Gives (.clCntClr c) s fun t =>
    (∀ a, 0x400800A0 + 0x100 * c.val ≤ a → a < 0x400800C0 + 0x100 * c.val → a % 4 = 0 → t.reg a = 0) ∧
    Only ((List.range 8).map fun i => (0x400800A0 + 0x100 * c.val + 4 * i, 0, 32)) s t) ∧
  (∀ (k : Pkt) (f : Nat), TakesFw s k f → k.params = [BitVec.ofNat 8 c.val] →
    (clNegotiates s c = true → Gives (.clAnRestart k (some f)) s fun t =>
      FwServed f [F.CL_STATUS_AN_DONE.at c, F.CL_STATUS_TX_PAUSE.at c, F.CL_STATUS_RX_PAUSE.at c] s t k St.ok [] ∧
      t.get F.CL_STATUS_AN_DONE c = 0 ∧ BusOnly s t) ∧
    (clNegotiates s c = false → Gives (.clAnRestart k (some f)) s fun t =>
      FwServed f [] s t k St.wrongState [] ∧ BusOnly s t))

/-- A declared flag after a sample's verdict (R438): 1 declares it, 2 clears it, 0 leaves it. -/
def afterVerdict (declared : Bool) (v : Nat) : Bool := if v = 1 then true else if v = 2 then false else declared

/-- Every sample of one tick of RUNNING port p, and the reports that follow from the declared defects (Tables 12.1, 12.2). -/
def PortSampled (s t : State) (p : Nat) : Prop :=
  (∀ (e : Fin 14) lim, defLimits e = some lim →
    defCnt t (16 * p + e) = sampleCount (rawCond s p e) (defCnt s (16 * p + e)) ∧
    defDecl t p e = afterVerdict (defDecl s p e) (sampleVerdict (defDecl s p e) (rawCond s p e) (defCnt s (16 * p + e)) lim)) ∧
  (∀ e : Fin 14, e = 6 ∨ e = 7 → defDecl t p e = defDecl s p e) ∧
  (defDecl t p 8 = (defDecl s p 8 && s.on F.DM_PCFG_TIM_EN p &&
    !(traceBytes s F.LF_RX_TRACE p == traceBytes s F.DM_EXP_TRACE p))) ∧
  (∀ e : Fin 14, e = 9 ∨ e = 10 → defDecl t p e = (defDecl s p e && !defDecl t p 4)) ∧
  t.get F.DM_PSTATUS_DEF p = reportedOf (t.get F.DM_PRAW p) ∧
  (∀ e : Fin 14, (defRep t p e = true → defRep s p e = false → (t.get F.DM_PEVENT p).testBit e = true) ∧
    (defRep t p e = false → defRep s p e = true → (t.get F.DM_PEVENT p).testBit (e + 16) = true)) ∧
  t.get F.DM_PSTATUS_SF p = b2n (sfOf s p (t.get F.DM_PSTATUS_DEF p)) ∧
  t.get F.DM_PSTATUS_SD p = b2n (sdOf s p (t.get F.DM_PSTATUS_DEF p)) ∧
  t.port = (s.modPort p fun x => { x with rdi := rdiDue t p }).port ∧
  t = { s with regs := t.regs, dm.cnt := t.dm.cnt, dm.win := t.dm.win, dm.judged := s.dm.judged ||| 2 ^ p, port := t.port } ∧
  (∀ q exc, winOf t q exc = if q = p ∧ defDecl t p 4 = true then {} else winOf s q exc) ∧
  (∀ k, (∀ e : Fin 14, defLimits e ≠ none → k ≠ 16 * p + e) → defCnt t k = defCnt s k) ∧
  RegsKept ([F.DM_PRAW.word p, F.DM_PEVENT.word p, F.DM_PSTATUS_DEF.at p, F.DM_PSTATUS_SF.at p, F.DM_PSTATUS_SD.at p] ++
    (List.range 7).map fun j => F.DM_POCC.word p j) s t

/-- Every sample of one tick of tributary n, and its report (R449). -/
def TribSampled (s t : State) (n : Nat) : Prop :=
  (∀ e : Fin 14, e < 4 →
    defCnt t (4096 + 4 * n + e) = sampleCount (tribRaw s n e) (defCnt s (4096 + 4 * n + e)) ∧
    tribDecl t n e = afterVerdict (tribDecl s n e)
      (sampleVerdict (tribDecl s n e) (tribRaw s n e) (defCnt s (4096 + 4 * n + e)) (tribLimits e))) ∧
  (∀ k, (∀ e : Fin 14, e < 4 → k ≠ 4096 + 4 * n + e) → defCnt t k = defCnt s k) ∧
  t.get F.DM_TDEF_REP n = (if s.tribKind n == 1 && s.on F.DM_PSTATUS_SF (s.tribIndex n) then t.get F.DM_TDEF_DECL n &&& 4
    else t.get F.DM_TDEF_DECL n) ∧
  ((∃ e : Fin 4, (t.get F.DM_TDEF_REP n).testBit e = true ∧ (s.get F.DM_TDEF_REP n).testBit e = false) →
    (t.get F.DM_TSET (n / 32)).testBit (n % 32) = true ∧ t.get F.DM_EVENT_TRIB_DEF = 1) ∧
  t = { s with regs := t.regs, dm.cnt := t.dm.cnt, dm.judgedT := n :: s.dm.judgedT } ∧
  RegsKept [F.DM_TDEF_DECL.at n, F.DM_TDEF_REP.at n, F.DM_TSET.word (n / 32), F.DM_EVENT_TRIB_DEF.at] s t

/-- R438, R439, R443, R447–R449, R467, Tables 12.1, 12.2: defects of ports and tributaries declared and cleared by their
samples, reports masked by lower ones, and the windows of SD and EXC judged. Model's choices: defects counted in frames are
judged at the tick: notes/assumptions/67; a row that names a sample is the coming tick: notes/assumptions/107. -/
def Obligations.Defects : Prop :=
  (∀ decl d, d < 14 → (reportedOf decl).testBit d = (decl.testBit d && decide (reportedOf decl &&& maskedBy d = 0))) ∧
  (∀ s : State, s.Awake →
    (∀ (p : Fin 16) (n : Byte) (d : Fin 14) lim, n.toNat = p → s.get F.LP_STATUS_STATE p = 2 → s.dm.judged.testBit p = false →
      defLimits d = some lim →
      (defDecl s p d = false → rawCond s p d = true → lim.1 ≤ (defCnt s (16 * p + d)).a + 1 →
        Gives (.defectDeclare false n d) s fun t => defDecl t p d = true ∧ PortSampled s t p) ∧
      (defDecl s p d = true → rawCond s p d = false → lim.2 ≤ (defCnt s (16 * p + d)).b + 1 →
        Gives (.defectClear false n d) s fun t => defDecl t p d = false ∧ PortSampled s t p)) ∧
    (∀ (n : Byte) (d : Fin 14), d < 4 → n.toNat ∉ s.dm.judgedT →
      (tribDecl s n.toNat d = false → tribRaw s n.toNat d = true → (tribLimits d).1 ≤ (defCnt s (4096 + 4 * n.toNat + d)).a + 1 →
        Gives (.defectDeclare true n d) s fun t => tribDecl t n.toNat d = true ∧ TribSampled s t n.toNat) ∧
      (tribDecl s n.toNat d = true → tribRaw s n.toNat d = false → (tribLimits d).2 ≤ (defCnt s (4096 + 4 * n.toNat + d)).b + 1 →
        Gives (.defectClear true n d) s fun t =>
          tribDecl t n.toNat d = false ∧ (t.get F.DM_TDEF_REP n.toNat).testBit d = false ∧ TribSampled s t n.toNat)) ∧
    (∀ (p : Fin 16) exc, winDue s p exc = true → Gives (.bipWindowEnd p exc) s fun t =>
      winOf t p exc = {} ∧ t = { s with regs := t.regs, dm.win := t.dm.win } ∧ RegsKept [(F.DM_PRAW.addr p, if exc then 10 else 9, 1)] s t ∧
      (defDecl s p 4 = true → t.regs = s.regs) ∧
      (defDecl s p 4 = false → defDecl t p (if exc then 10 else 9) =
        (decide (10 ≤ (winOf s p exc).sum) || (decide (2 ≤ (winOf s p exc).sum) && defDecl s p (if exc then 10 else 9))))))

/-- R450–R453, R466, Tables 12.4–12.6: performance history: a second ends with one record a port, bins close and records and
bins become FINAL 10 s later; history begun afresh. Model's choices: raw ES and SES and revised UAS: notes/assumptions/67;
PM_SECOND_END is the coming tick: notes/assumptions/107. -/
def Obligations.PerformanceHistory : Prop := ∀ s : State, s.Awake →
  (pmEndDue s s.nextFrameNum.2 = true → Gives .pmSecondEnd s fun t =>
    t.get F.DM_PM_SEQ = s.dm.pmSeq % 2 ^ 32 ∧ t.get F.DM_EVENT_PM_SECOND = 1 ∧ t.dm.pmSeq = s.dm.pmSeq + 1 ∧ t.dm.pmTicks = 0 ∧
    (∀ p, p < 16 → (∃ u, secRec t p s.dm.pmSeq = { classifySec (pmPort s p) s.dm.pmSeq s.dm.pmTicks with uas := u }) ∧
      ((pmPort s p).run < 9 → secRec t p s.dm.pmSeq = classifySec (pmPort s p) s.dm.pmSeq s.dm.pmTicks) ∧
      (pmPort t p).bip = 0 ∧ (pmPort t p).errFrames = 0 ∧ (pmPort t p).ran = false) ∧
    t = { s with regs := t.regs, dm := t.dm } ∧
    RegsKept [F.DM_PM_SEQ.word, F.DM_EVENT_PM_SECOND.at, F.DM_EVENT_PM_BIN.at, F.DM_EVENT_PM_DAY.at] s t) ∧
  (∀ p : Fin 16,
    (recordFinalDue s p (s.dm.pmSeq - 1) = true → Gives (.recordFinal p) s fun t =>
      secRec t p (s.dm.pmSeq - 11) = { secRec s p (s.dm.pmSeq - 11) with final := true } ∧ t = { s with dm.secs := t.dm.secs } ∧
      ∀ seq, seq % 900 ≠ (s.dm.pmSeq - 11) % 900 → secRec t p seq = secRec s p seq) ∧
    (900 ≤ (pmPort s p).curBin.seconds → Gives (.fifteenMinuteBinClose p) s fun t =>
      binAt t p (pmPort s p).curBin.n = { (pmPort s p).curBin with valid := true } ∧
      pmPort t p = { pmPort s p with curBin := { n := (pmPort s p).curBin.n + 1 } } ∧ t.get F.DM_EVENT_PM_BIN = 1 ∧
      t = { s with regs := t.regs, dm.bins := t.dm.bins, dm.port := t.dm.port } ∧ RegsKept [F.DM_EVENT_PM_BIN.at] s t) ∧
    (86400 ≤ (pmPort s p).curDay.seconds → Gives (.dailyBinClose p) s fun t =>
      dayAt t p (pmPort s p).curDay.n = { (pmPort s p).curDay with valid := true } ∧
      pmPort t p = { pmPort s p with curDay := { n := (pmPort s p).curDay.n + 1 } } ∧ t.get F.DM_EVENT_PM_DAY = 1 ∧
      t = { s with regs := t.regs, dm.days := t.dm.days, dm.port := t.dm.port } ∧ RegsKept [F.DM_EVENT_PM_DAY.at] s t) ∧
    (∀ k, s.dm.pmSeq = k + 11 → Gives (.binFinal p) s fun t =>
      t = { s with dm.bins := t.dm.bins, dm.days := t.dm.days } ∧
      (k % 900 = 899 → (binAt s p (k / 900)).valid = true → (binAt s p (k / 900)).n = k / 900 →
        binAt t p (k / 900) = { binAt s p (k / 900) with final := true }) ∧
      (k % 86400 = 86399 → (dayAt s p (k / 86400)).valid = true → (dayAt s p (k / 86400)).n = k / 86400 →
        dayAt t p (k / 86400) = { dayAt s p (k / 86400) with final := true }) ∧
      (k % 900 ≠ 899 → t = s))) ∧
  (Gives .pmRestart s fun t =>
    t.get F.DM_PM_SEQ = 0xFFFFFFFF ∧ t.dm = { s.dm with
      pmSeq := 0, pmTicks := 0, pmWait := true, pmFrom := s.cyc, port := [], secs := [], bins := [], days := [] } ∧
    t = { s with regs := t.regs, dm := t.dm } ∧ RegsKept [F.DM_PM_SEQ.word] s t)

/-- R456: DM_CMD.CNT_CLR clears the BIP and REI counts, the count of quality level changes and the occurrence counts of every
port, and nothing else: history is not affected. -/
def Obligations.PerformanceCountersCleared : Prop := ∀ s : State, s.Awake → Gives .dmCntClr s fun t =>
  (∀ p, p < 16 → t.get F.DM_BIP_CNT p = 0 ∧ t.get F.DM_REI_CNT p = 0 ∧ t.get F.DM_QL_QL_CHG p = 0 ∧
    ∀ j, j < 7 → t.get F.DM_POCC p j = 0) ∧
  Only ((List.range 16).flatMap fun p => [F.DM_BIP_CNT.word p, F.DM_REI_CNT.word p, F.DM_QL_QL_CHG.at p] ++
    (List.range 7).map fun j => F.DM_POCC.word p j) s t

/-- R469, R473, R478, R489, R492, R493, R504, Tables 13.1, 13.6: protection groups: a group turned on, or off at the next
tick, by its configuration, refused with equal ports, the wait-to-restore ended, releases in their order, and the opcodes.
The local top is the highest of the requests that stand. Model's choices: sides and WTR: notes/assumptions/68; when a timer
of N ticks acts: notes/assumptions/108. -/
def Obligations.ProtectionGroups : Prop := ∀ (s : State) (u : Fin 8),
  (s.Awake →
    (∀ v : Word, s.locked 10 = false →
      (bitsOf v.toNat 30 2 = 0 → Gives (.groupConfigWrite u v) s fun t =>
        t.get F.PS_GCFG_KIND u = 0 ∧ t.groupX u = { s.groupX u with stop := true } ∧ (∀ w, w ≠ u.val → t.groupX w = s.groupX w) ∧
        t = { s with regs := t.regs, ps.group := t.ps.group } ∧ RegsKept [F.PS_GCFG.word u] s t) ∧
      (bitsOf v.toNat 30 2 ≠ 0 → bitsOf v.toNat 16 4 = bitsOf v.toNat 20 4 → Gives (.groupConfigWrite u v) s fun t => t = s) ∧
      (bitsOf v.toNat 30 2 ≠ 0 → bitsOf v.toNat 16 4 ≠ bitsOf v.toNat 20 4 → bitsOf v.toNat 25 5 ≠ 0 → bitsOf v.toNat 0 12 ≤ 3600 →
        (∀ w, w < 8 → s.get F.PS_GCFG_KIND w = 0) → mergeUse (psLive (s.setReg (F.PS_GCFG.addr u) v)) ≤ 160 → Gives (.groupConfigWrite u v) s fun t =>
          t.get F.PS_GCFG_KIND u = bitsOf v.toNat 30 2 ∧ t.get F.PS_GCFG_P0 u = bitsOf v.toNat 16 4 ∧
          t.get F.PS_GCFG_P1 u = bitsOf v.toNat 20 4 ∧
          t.get F.PS_GCFG_GID u = bitsOf v.toNat 25 5 ∧ t.get F.PS_GCFG_WTR u = bitsOf v.toNat 0 12 ∧ Only [F.PS_GCFG.word u] s t)) ∧
    (wtrDue s u = true → Gives (.wtrExpired u) s fun t =>
      t.get F.PS_GEVENT_WTR_EXPIRED u = 1 ∧ t.get F.PS_GWTR u = 0 ∧ t.groupX u = { s.groupX u with wtr := none } ∧
      t = { s with regs := t.regs, ps.group := t.ps.group } ∧ RegsKept [F.PS_GEVENT_WTR_EXPIRED.at u, F.PS_GWTR.word u] s t) ∧
    (Gives (.endWtr u) s fun t => t.groupX u = { s.groupX u with endWtr := true } ∧ (∀ w, w ≠ u.val → t.groupX w = s.groupX w) ∧
      t = { s with regs := t.regs, ps.group := t.ps.group } ∧ RegsKept [] s t) ∧
    (Gives (.mergeRelease u) s fun t => t = settle (releaseDue s u 12800))) ∧
  (psKind (groupStop s u) u = psKind s u ∧ (groupStop s u).get F.PS_GSTAT u = 0 ∧
    (∀ x, x < 2 → (groupStop s u).get F.PS_GTX u x = 0) ∧ (groupStop s u).get F.PS_GWTR u = 0 ∧
    (groupStop s u).get F.PS_MRG_RO u = 0x80000000 ∧ (groupStop s u).groupX u = {} ∧
    RegsKept [F.PS_GSTAT.word u, F.PS_GTX.word u 0, F.PS_GTX.word u 1, F.PS_GWTR.word u, F.PS_MRG_RO.word u] s (groupStop s u)) ∧
  (psKind s u ≠ 1 → ((s.groupX u).endWtr = true ∧ (s.groupX u).failed = none) ∨ discards s u = true →
    (wtrTick s u).get F.PS_GWTR u = 0 ∧ (wtrTick s u).groupX u = { s.groupX u with endWtr := false, wtr := none } ∧
    RegsKept [F.PS_GWTR.word u] s (wtrTick s u)) ∧
  (∀ k upto, k ∈ releasesDue s u upto → ((k : Int) - s.frameTotal) * 12800 + roOf s u < upto ∧
    ∀ r, (s.groupX u).relTotal = some r → r < k) ∧
  (psKind s u ≠ 0 → (localLo s u = true → (localTop s u).1 = 0xE) ∧
    (s.psCfg F.PS_GCMD_CMD u = 2 → 0xC ≤ (localTop s u).1) ∧
    (∀ x, x < 2 → (localSf s u x = true → 0xA ≤ (localTop s u).1) ∧ (localSd s u x = true → 8 ≤ (localTop s u).1)) ∧
    (s.psCfg F.PS_GCMD_CMD u = 1 → 6 ≤ (localTop s u).1) ∧
    (∀ n x, (s.groupX u).wtr = some (n, x) → n ≠ 0 → 4 ≤ (localTop s u).1)) ∧
  (∀ k : Pkt, Takes s k →
    (s.get F.PS_GCFG_KIND u ≠ 0 → ∀ cmd side : Byte, side.toNat < 2 → k.params = [BitVec.ofNat 8 u.val, cmd, side] →
      (cmd.toNat < 4 → Gives (.psRequest k) s fun t =>
        Served [F.PS_GCMD_CMD.at u, F.PS_GCMD_SIDE.at u] s t k St.ok (toLE 4 (s.get F.PS_GSTAT u)) ∧
        t.get F.PS_GCMD_CMD u = cmd.toNat ∧ t.get F.PS_GCMD_SIDE u = side.toNat ∧
        (2 ≤ cmd.toNat → t.groupX u = { s.groupX u with endWtr := true }) ∧ (cmd.toNat < 2 → t.ps = s.ps) ∧
        t = { s with regs := t.regs, mp := t.mp, ch := t.ch, ps.group := t.ps.group }) ∧
      (cmd = 4 → Gives (.psRequest k) s fun t =>
        Served [] s t k St.ok (toLE 4 (s.get F.PS_GSTAT u)) ∧ t.groupX u = { s.groupX u with endWtr := true } ∧
        t = { s with regs := t.regs, mp := t.mp, ch := t.ch, ps.group := t.ps.group })) ∧
    (k.params = [BitVec.ofNat 8 u.val] → Gives (.psStatus k) s fun t =>
      Served [] s t k St.ok (toLE 4 (s.get F.PS_GSTAT u) ++ toLE 4 (s.get F.PS_GWTR u) ++ toLE 4 (s.get F.PS_MRG_RO u) ++
        toLE 4 (s.get F.LF_RX_PROT (s.get F.PS_GCFG_P0 u)) ++ toLE 4 (s.get F.LF_RX_PROT (s.get F.PS_GCFG_P1 u)) ++
        toLE 4 (s.get F.PS_GTX u 0) ++ toLE 4 (s.get F.PS_GTX u 1)) ∧ BusOnly s t)) ∧
  (∀ (k : Pkt) (f : Nat), TakesFw s k f → k.params = [BitVec.ofNat 8 u.val] →
    (s.locked 10 = false → s.get F.PS_GCFG_KIND u = 1 ∨ s.get F.PS_GCFG_KIND u = 2 →
      (∀ ro x, firstRo (psLive s) u = some (ro, x) → Gives (.psReskew k (some f)) s fun t =>
        FwServed f [] s t k St.ok (toLE 4 (s.get F.PS_MRG_RO u) ++ toLE 4 (ofSigned 32 ro)) ∧
        t.groupX u = { s.groupX u with reskew := true } ∧ t = { s with regs := t.regs, mp := t.mp, ch := t.ch, ps.group := t.ps.group }) ∧
      (firstRo (psLive s) u = none → Gives (.psReskew k (some f)) s fun t => FwServed f [] s t k St.wrongState [] ∧ BusOnly s t)) ∧
    (s.locked 10 = true → Gives (.psReskew k (some f)) s fun t =>
      FwServed f [F.MP_LOCK_VIOL_COUNT.at] s t k St.locked [] ∧
      t.get F.MP_LOCK_VIOL_COUNT = min (s.get F.MP_LOCK_VIOL_COUNT + 1) 65535 ∧ BusOnly s t))

/-- R510–R512, R534, R538: reference candidates: their activity, the frequency gate and the end of their wait; XO_IN lost,
which disqualifies them all and puts both DPLLs into HOLDOVER out of spec, and back. Model's choices: frequencies come as
operands: notes/assumptions/43; MODE written while XO_IN is lost: notes/assumptions/72; when a wait ends:
notes/assumptions/108. -/
def Obligations.ReferenceCandidates : Prop := ∀ s : State, s.Awake →
  (∀ j : Fin 20,
    (16 ≤ j.val ∨ s.get F.LP_STATUS_RCLK_VALID j = 0 → Gives (.referenceInactive j) s fun t => t = s.put F.TG_REF_STAT_ACTIVE 0 j) ∧
    (16 ≤ j.val ∨ s.get F.LP_STATUS_RCLK_VALID j = 1 → s.get F.TG_REF_STAT_ACTIVE j = 0 → Gives (.referenceActive j) s fun t =>
      t.get F.TG_REF_STAT_ACTIVE j = 1 ∧ t.get F.TG_REF_FREQ j = 0x80000000 ∧ t.tg.seen.testBit j = false ∧
      SMap.get (fun _ => 0) t.tg.gate j = s.frameTotal ∧ t = { s with regs := t.regs, tg.seen := t.tg.seen, tg.gate := t.tg.gate } ∧
      RegsKept [F.TG_REF_STAT_ACTIVE.at j, F.TG_REF_FREQ.word j] s t) ∧
    (∀ offset, s.get F.TG_REF_STAT_ACTIVE j = 1 → xoOk s = true →
      gateTicks s j ≤ framesSince s (SMap.get (fun _ => 0) s.tg.gate j) → Gives (.frequencyGateComplete j offset) s fun t =>
        getS t F.TG_REF_FREQ j = clampInt (-2147483647) 2147483647 offset ∧ SMap.get (fun _ => 0) t.tg.gate j = s.frameTotal ∧
        t = { s with regs := t.regs, tg.gate := t.tg.gate } ∧ RegsKept [F.TG_REF_FREQ.word j] s t) ∧
    (s.get F.TG_REF_STAT_QSTATE j = 1 → s.get F.TG_REF_WTR j = 0 → candFails s j = false →
      Gives (.referenceWtrExpiry j) s fun t =>
        t.get F.TG_REF_STAT_QSTATE j = 2 ∧ t.get F.TG_EVENT_REF_CHANGE = 1 ∧
        Only [F.TG_REF_STAT_QSTATE.at j, F.TG_EVENT_REF_CHANGE.at] s t) ∧
    (s.get F.TG_REF_STAT_QSTATE j = 0 → s.get F.TG_REF_STAT_ACTIVE j = 1 → gateWithin s j 90 = true →
      (candTick s j).get F.TG_REF_STAT_QSTATE j = 1 ∧ (candTick s j).get F.TG_EVENT_REF_CHANGE = 1 ∧
      (candTick s j).get F.TG_REF_WTR j = s.get F.TG_REF_CFG_WTR j * 31250) ∧
    (s.get F.TG_REF_STAT_QSTATE j = 1 → candFails s j = false →
      candTick s j = s.put F.TG_REF_WTR (s.get F.TG_REF_WTR j - 1) j) ∧
    (s.get F.TG_REF_STAT_QSTATE j = 1 ∨ s.get F.TG_REF_STAT_QSTATE j = 2 → candFails s j = true →
      (candTick s j).get F.TG_REF_STAT_QSTATE j = 0 ∧ (candTick s j).get F.TG_EVENT_REF_CHANGE = 1)) ∧
  (xoOk s = true → Gives .xoInLost s fun t => ∃ u, t = settle (raiseLevel u 15 0) ∧ xoOk u = false ∧ u.chip.xoBad = true ∧
    u.get F.TG_EVENT_XO_LOST = 1 ∧ (∀ j, j < 20 → u.get F.TG_REF_STAT_QSTATE j = 0 ∧ u.get F.TG_REF_FREQ j = 0x80000000) ∧
    (∀ d, d < 2 → tgState u d = 4 ∧ tgSel u d = 31 ∧ u.get F.TG_D_STAT_HO_OUT_OF_SPEC d = 1 ∧
      (dpllX u d).saved = ((dpllX s d).base, 0)) ∧ u.get F.TG_QL_OUT / 2 ^ 28 = 15) ∧
  (xoOk s = false → Gives .xoInReturn s fun t =>
    xoOk t = true ∧ t.get F.TG_EVENT_XO_BACK = 1 ∧ t.chip.xoBad = false ∧ t.fa.level.testBit 15 = false ∧
    (∀ j, j < 20 → SMap.get (fun _ => 0) t.tg.gate j = s.frameTotal) ∧ (∀ d, d < 2 → dpllX t d = { dpllX s d with modeW := true }) ∧
    t = { s with regs := t.regs, chip.xoBad := false, fa.level := t.fa.level, tg := t.tg } ∧
    RegsKept [F.TG_GSTAT_XO_OK.at, F.TG_EVENT_XO_BACK.at] s t)

/-- R516, R521–R523, R545, R548, Table 14.4: the DPLLs: locked and lost, HOLDOVER entered and out of spec, MODE written and
taken at the next tick, and steering with its bound. Model's choices: the holdover average and MODE: notes/assumptions/71 and
72. -/
def Obligations.Dplls : Prop := ∀ (s : State) (d : Fin 2), s.Awake →
  (dueIs s d 1 = true → Gives (.dpllLocked d) s fun t =>
    tgState t d = 2 ∧ t.get F.TG_D_EVENT_LOCKED d = 1 ∧ dpllX t d = { dpllX s d with lockN := 0, lostN := 0, due := 0 } ∧
    t = { s with regs := t.regs, tg := t.tg } ∧ RegsKept [F.TG_D_STAT_STATE.at d, F.TG_D_EVENT_LOCKED.at d] s t) ∧
  (dueIs s d 2 = true → Gives (.lockLost d) s fun t =>
    tgState t d = 1 ∧ t.get F.TG_D_EVENT_LOCK_LOST d = 1 ∧ dpllX t d = { dpllX s d with lockN := 0, lostN := 0, due := 0 } ∧
    t = { s with regs := t.regs, tg := t.tg } ∧ RegsKept [F.TG_D_STAT_STATE.at d, F.TG_D_EVENT_LOCK_LOST.at d] s t) ∧
  (dueIs s d 3 = true → Gives (.hoEnter d) s fun t =>
    tgState t d = 4 ∧ tgSel t d = 31 ∧ t.get F.TG_D_EVENT_HO_ENTER d = 1 ∧ t.get F.TG_D_HO_SEC d = 0 ∧
    t.get F.TG_D_STAT_HO_SHORT d = b2n ((dpllX s d).saved.2 == 1) ∧ t.get F.TG_D_STAT_HO_NO_HIST d = b2n ((dpllX s d).saved.2 == 2) ∧
    dpllX t d = { dpllX s d with hoTicks := 0, due := 0 } ∧ (s.get F.TG_D_HO d = 0 → t.get F.TG_D_STAT_HO_OUT_OF_SPEC d = 1) ∧
    t = { s with regs := t.regs, tg := t.tg } ∧
    RegsKept [F.TG_D_STAT.word d, F.TG_D_EVENT_HO_ENTER.at d, F.TG_D_EVENT_HO_OOS.at d, F.TG_D_HO_SEC.word d] s t) ∧
  (dueIs s d 4 = true → Gives (.hoOutOfSpec d) s fun t =>
    t.get F.TG_D_STAT_HO_OUT_OF_SPEC d = 1 ∧ t.get F.TG_D_EVENT_HO_OOS d = 1 ∧ dpllX t d = { dpllX s d with due := 0 } ∧
    t = { s with regs := t.regs, tg := t.tg } ∧ RegsKept [F.TG_D_STAT_HO_OUT_OF_SPEC.at d, F.TG_D_EVENT_HO_OOS.at d] s t) ∧
  (tgState s d = 1 → phaseAbs s d ≤ lockWin s d → 31249 ≤ (dpllX s d).lockN → dueIs (lockTick s d) d 1 = true) ∧
  (tgState s d = 2 → 4 * lockWin s d < phaseAbs s d → 31 ≤ (dpllX s d).lostN → dueIs (lockTick s d) d 2 = true) ∧
  (s.get F.TG_D_CFG_HO_GRACE d ≤ (dpllX s d).grace + 1 → dueIs (bridgeTick s d) d 3 = true) ∧
  (s.get F.TG_D_STAT_HO_OUT_OF_SPEC d = 0 → s.get F.TG_D_HO d * 31250 ≤ (dpllX s d).hoTicks + 1 → dueIs (hoTick s d) d 4 = true) ∧
  (s.locked 11 = false → s.get F.TG_D_CTRL_FREF d ≤ 19 + d.val → s.get F.TG_D_CTRL_PREF_A d ≤ 19 + d.val →
    s.get F.TG_D_CTRL_PREF_B d ≤ 19 + d.val →
    (∀ mode : Fin 8, mode < 6 ∨ (mode = 6 ∧ d = 1) → Gives (.dpllModeWrite d mode) s fun t =>
      tgMode t d = mode ∧ dpllX t d = { dpllX s d with modeW := true } ∧ t = { s with regs := t.regs, tg := t.tg } ∧
      RegsKept [F.TG_D_CTRL_MODE.at d] s t) ∧
    (Gives (.dpllModeWrite d 7) s fun t => t = s) ∧ (d = 0 → Gives (.dpllModeWrite d 6) s fun t => t = s)) ∧
  (∀ i : FrameIn, (dpllX s d).modeW = true →
    (tgMode s d = 3 → tgState (dpllMachine s i d) d = 5 ∧ tgSel (dpllMachine s i d) d = 31) ∧
    (tgMode s d = 5 → tgState (dpllMachine s i d) d = 0 ∧ tgSel (dpllMachine s i d) d = 31) ∧
    (tgMode s d = 4 → tgState s d ≠ 4 → tgState (dpllMachine s i d) d = 4 ∧ tgSel (dpllMachine s i d) d = 31 ∧
      (dpllMachine s i d).get F.TG_D_EVENT_HO_ENTER d = 1 ∧ (dpllX (dpllMachine s i d) d).saved = hoFrequency s d ∧
      (dpllX (dpllMachine s i d) d).hoTicks = 0) ∧
    (tgMode s d = 6 → d = 1 → tgState s d ≠ 6 → tgState (dpllMachine s i d) d = 6 ∧ tgSel (dpllMachine s i d) d = 20)) ∧
  (∀ f : BitVec 64, Gives (.steerFrequencyWrite d f) s fun t =>
    getS64 t F.TG_D_STEER_F d = clampInt (-steerBound) steerBound (toSigned 48 f.toNat) ∧
    (getS64 t F.TG_D_STEER_F d ≠ toSigned 48 f.toNat → t.get F.TG_EVENT_STEER_CLAMP = 1) ∧
    (getS64 t F.TG_D_STEER_F d = toSigned 48 f.toNat → t.get F.TG_EVENT_STEER_CLAMP = s.get F.TG_EVENT_STEER_CLAMP) ∧
    Only [F.TG_D_STEER_F.word d 0, F.TG_D_STEER_F.word d 1, F.TG_EVENT_STEER_CLAMP.at] s t) ∧
  (∀ step : Word,
    (tgState s d = 5 → Gives (.steerPhaseStep d step) s fun t =>
      dpllX t d = { dpllX s d with left := (dpllX s d).left + toSigned 32 step.toNat * 1000 } ∧
      getS t F.TG_D_STEER_LEFT d = sat32 ((dpllX t d).left / 1000) ∧ t = { s with regs := t.regs, tg := t.tg } ∧
      RegsKept [F.TG_D_STEER_LEFT.word d] s t) ∧
    (tgState s d ≠ 5 → Gives (.steerPhaseStep d step) s fun t => t = s))

/-- R531, R532, R535, R536: realignments, begun by command and done, and the opcodes of the timing generator. Model's
choices: realignment runs at exactly the rate of the spec: notes/assumptions/70. -/
def Obligations.Realignment : Prop := ∀ s : State,
  (s.Awake →
    (s.tg.t1Due = true → Gives .t1Realignment s fun t =>
      t.get F.TG_T1_OFS = s.get F.TG_OUT_OFS ∧ t.get F.TG_EVENT_T1_ALIGNED = 1 ∧
      t.tg = { s.tg with t1In := 0, t1Due := false, t1num := s.frameNum, outs := outWords s } ∧ t = { s with regs := t.regs, tg := t.tg } ∧
      RegsKept [F.TG_T1_OFS.word, F.TG_EVENT_T1_ALIGNED.at] s t) ∧
    (rlDue s = true → Gives .rlDone s fun t =>
      t.get F.TG_GSTAT_REALIGNING = 0 ∧ t.get F.TG_RL_LEFT = 0 ∧ t.get F.TG_EVENT_RL_DONE = 1 ∧ t.tg = { s.tg with rl := 0 } ∧
      t.num = { s.num with moved := true, moving := false } ∧ t = { s with regs := t.regs, tg := t.tg, num := t.num } ∧
      RegsKept [F.TG_GSTAT_REALIGNING.at, F.TG_RL_LEFT.word, F.TG_EVENT_RL_DONE.at] s t)) ∧
  (∀ k : Pkt, Takes s k →
    (∀ (w : Word) (both : Bool), (toSigned 32 w.toNat).natAbs ≤ 12799 →
      k.params = [if both then 3 else 1, 1] ++ toLE 4 w.toNat → let soon := decide (frameCycles ≤ s.inFrame)
      (s.get F.TG_GSTAT_REALIGNING = 0 → Gives (.tgRealign k) s fun t =>
        Served [F.TG_GSTAT_REALIGNING.at, F.TG_RL_LEFT.word] s t k St.ok
          (toLE 4 w.toNat ++ if both then numBytes (if soon then nextNum s.secondNext else s.secondNext) else [0, 0, 0, 0, 0, 0]) ∧
        t.get F.TG_GSTAT_REALIGNING = 1 ∧ t.get F.TG_RL_LEFT = w.toNat ∧ t.num.moving = true ∧
        t.tg = { s.tg with rl := toSigned 32 w.toNat * 2500000, t1In := if !both then s.tg.t1In else if soon then 3 else 2 } ∧
        t = { s with regs := t.regs, mp := t.mp, ch := t.ch, tg := t.tg, num.moving := true }) ∧
      (s.get F.TG_GSTAT_REALIGNING = 1 → Gives (.tgRealign k) s fun t => Served [] s t k St.wrongState [] ∧ BusOnly s t)) ∧
    (∀ (w : Word), 12799 < (toSigned 32 w.toNat).natAbs → k.params = [1, 1] ++ toLE 4 w.toNat → Gives (.tgRealign k) s fun t =>
      Served [] s t k St.range [] ∧ BusOnly s t) ∧
    (∀ (d : Fin 2) f (step : Word), f < 2 ^ 48 → k.params = [BitVec.ofNat 8 d.val] ++ toLE 6 f ++ toLE 4 step.toNat →
      (step = 0 ∨ tgState s d = 5 → Gives (.tgSteer k) s fun t =>
        Served [F.TG_D_STEER_F.word d 0, F.TG_D_STEER_F.word d 1, F.TG_EVENT_STEER_CLAMP.at, F.TG_D_STEER_LEFT.word d] s t k St.ok
          (toLE 6 (ofSigned 48 (clampInt (-steerBound) steerBound (toSigned 48 f))) ++ toLE 4 (t.get F.TG_D_STEER_LEFT d) ++
            [BitVec.ofNat 8 (b2n (clampInt (-steerBound) steerBound (toSigned 48 f) != toSigned 48 f))]) ∧
        getS64 t F.TG_D_STEER_F d = clampInt (-steerBound) steerBound (toSigned 48 f) ∧
        (dpllX t d).left = (dpllX s d).left + toSigned 32 step.toNat * 1000 ∧
        t = { s with regs := t.regs, mp := t.mp, ch := t.ch, tg := t.tg }) ∧
      (step ≠ 0 → tgState s d ≠ 5 → Gives (.tgSteer k) s fun t => Served [] s t k St.wrongState [] ∧ BusOnly s t)) ∧
    (∀ d : Fin 2, k.params = [BitVec.ofNat 8 d.val] → Gives (.tgStatus k) s fun t =>
      Served [] s t k St.ok (toLE 4 (s.get F.TG_D_STAT d) ++ toLE 4 (s.get F.TG_D_PHERR d) ++ toLE 4 (s.get F.TG_D_FREQ d 0) ++
        toLE 4 (s.get F.TG_D_FREQ d 1) ++ toLE 4 (s.get F.TG_D_HO_SEC d) ++ toLE 4 (s.get F.TG_QL_OUT) ++
        toLE 4 (s.get F.TG_D_ABS_LAST d)) ∧ BusOnly s t))

/-- R551, R553: while `n` cycles of FCLK pass and no TD_SET waits, the time of day goes on by 2.5 ns in each of them, modulo
2^48 seconds, and by what they work off of the correction, SLEW ns in a second; ADJ_DONE where the correction reaches 0.
Model's choices: how a correction is spread over the cycles: notes/assumptions/73. -/
def Obligations.TimeCounts : Prop := ∀ (s : State) (n : Nat), todUnits s < secondUnits → s.tod.frac < 400000000 → s.tod.setTo = none →
  s.tod.sec < 2 ^ 48 → ∃ t, t = todPass (n + 1) n s ∧
    t.tod.adj.natAbs = s.tod.adj.natAbs - n * s.get F.TD_CFG_SLEW ∧
    todTotal t = (todTotal s + (n * cycleUnits : Nat) + adjUnits (s.tod.adj - t.tod.adj)) % todTurn ∧
    todUnits t < secondUnits ∧
    (s.tod.adj ≠ 0 → t.tod.adj = 0 → t.get F.TD_EVENT_ADJ_DONE = 1 ∧ t.get F.TD_STATUS_SLEWING = 0 ∧ t.get F.TD_ADJ_LEFT = 0)

/-- R551, R553–R555, R571, R572, R574, Table 15.1: a second boundary, with the seconds that a TD_SET set for it; the end of a
correction; TD_SET, applied at the first boundary 800 cycles off or more; TD_ADJUST; and TD_CFG written, and taken at the
next tick. Model's choices: the rows that name a moment: notes/assumptions/3; corrections and TD_SET: notes/assumptions/73
and 74. -/
def Obligations.TimeOfDay : Prop := ∀ s : State, s.Awake →
  (Quiet s (toBoundary s) → todUnits s < secondUnits → s.tod.frac < 400000000 → Gives .secondBoundary s fun t => ∃ u, t = settle u ∧
    u.cyc = s.cyc + toBoundary s ∧ todUnits u + secondUnits = todUnits s + toBoundary s * cycleUnits ∧ todUnits u < cycleUnits ∧
    (s.tod.setTo = none → u.tod.sec = (s.tod.sec + 1) % 2 ^ 48 ∧ u.tod.setTo = none) ∧
    (∀ x n, s.tod.setTo = some (x, n + 1) → u.tod.sec = (s.tod.sec + 1) % 2 ^ 48 ∧ u.tod.setTo = some (x, n)) ∧
    (∀ x, s.tod.setTo = some (x, 0) → u.tod.sec = x ∧ u.tod.setTo = none ∧ u.get F.TD_STATUS_SET_PENDING = 0 ∧
      u.get F.TD_STATUS_TIME_SET = 1 ∧ u.get F.TD_EVENT_SET_DONE = 1)) ∧
  (s.tod.adj ≠ 0 → s.get F.TD_CFG_SLEW ≠ 0 → toAdjDone s < toBoundary s → Calm s (toAdjDone s) →
    Gives .adjDone s fun t => ∃ u, t = settle u ∧
      u.cyc = s.cyc + toAdjDone s ∧ u.tod.adj = 0 ∧ u.tod.sec = s.tod.sec ∧
      (todUnits u : Int) = todUnits s + (toAdjDone s * cycleUnits : Nat) + adjUnits s.tod.adj ∧
      u.get F.TD_EVENT_ADJ_DONE = 1 ∧ u.get F.TD_STATUS_SLEWING = 0 ∧ u.get F.TD_ADJ_LEFT = 0) ∧
  (∀ k : Pkt, Takes s k →
    (∀ x, x < 2 ^ 48 → k.params = toLE 6 x →
      (s.get F.TD_CFG_ROLE ≠ 2 → s.tod.setTo = none → Gives (.tdSet k) s fun t => ∃ skip, (skip = 0 ↔ 800 ≤ toBoundary s) ∧ skip < 2 ∧
        Served [F.TD_STATUS_SET_PENDING.at] s t k St.ok (toLE 6 ((s.tod.sec + 1 + skip) % 2 ^ 48) ++ toLE 6 x) ∧
        t.get F.TD_STATUS_SET_PENDING = 1 ∧ t.tod = { s.tod with setTo := some (x, skip) } ∧
        t = { s with regs := t.regs, mp := t.mp, ch := t.ch, tod := t.tod }) ∧
      (s.get F.TD_CFG_ROLE = 2 ∨ s.tod.setTo.isSome = true → Gives (.tdSet k) s fun t =>
        Served [] s t k St.wrongState [] ∧ BusOnly s t)) ∧
    (∀ w : Word, k.params = toLE 4 w.toNat →
      (s.get F.TD_CFG_ROLE ≠ 2 → (toSigned 32 w.toNat).natAbs ≤ 999999999 →
        (toSigned 32 w.toNat + getS s F.TD_ADJ_LEFT).natAbs ≤ 999999999 → Gives (.tdAdjust k) s fun t =>
          Served [F.TD_ADJ_LEFT.word, F.TD_STATUS_SLEWING.at] s t k St.ok (toLE 4 w.toNat) ∧
          t.reg F.TD_ADJ_LEFT.addr = w ∧ t.tod = { s.tod with adj := toSigned 32 w.toNat * 400000000, adjTrack := false } ∧
          t = { s with regs := t.regs, mp := t.mp, ch := t.ch, tod := t.tod }) ∧
      (s.get F.TD_CFG_ROLE = 2 → (toSigned 32 w.toNat).natAbs ≤ 999999999 → Gives (.tdAdjust k) s fun t =>
        Served [] s t k St.wrongState [] ∧ BusOnly s t) ∧
      (999999999 < (toSigned 32 w.toNat).natAbs → Gives (.tdAdjust k) s fun t => Served [] s t k St.range [] ∧ BusOnly s t))) ∧
  (s.locked 12 = false → ∀ v : Word, bitsOf v.toNat 16 16 ≠ 0 → bitsOf v.toNat 8 8 ≠ 0 →
    (bitsOf v.toNat 0 2 ≠ 3 → Gives (.tdCfgWrite v) s fun t =>
      t.get F.TD_CFG_ROLE = bitsOf v.toNat 0 2 ∧ t.get F.TD_CFG_SRC = bitsOf v.toNat 4 4 ∧ t.get F.TD_CFG_SLEW = bitsOf v.toNat 16 16 ∧
      t.get F.TD_CFG_STEP_LIM = bitsOf v.toNat 8 8 ∧
      t.tod = { s.tod with restart := s.tod.restart || decide (bitsOf v.toNat 0 2 ≠ 2 ∨ bitsOf v.toNat 4 4 ≠ s.get F.TD_CFG_SRC) } ∧
      t = { s with regs := t.regs, tod := t.tod } ∧ RegsKept [F.TD_CFG.word] s t) ∧
    (bitsOf v.toNat 0 2 = 3 → Gives (.tdCfgWrite v) s fun t => t = s)) ∧
  ((tdConfig s).tod.role = s.get F.TD_CFG_ROLE ∧ (tdConfig s).tod.src = s.get F.TD_CFG_SRC ∧ (tdConfig s).tod.restart = false ∧
    RegsKept [F.TD_STATUS.word, F.TD_ADJ_LEFT.word] s (tdConfig s) ∧
    (s.get F.TD_CFG_ROLE ≠ 2 → (tdConfig s).get F.TD_STATUS_FSTATE = 0 ∧
      (tdConfig s).get F.TD_STATUS_VALID = b2n (s.get F.TD_CFG_ROLE == 1 && s.on F.TD_STATUS_TIME_SET) ∧
      (s.tod.adjTrack = true → (tdConfig s).tod.adj = 0 ∧ (tdConfig s).get F.TD_ADJ_LEFT = 0) ∧
      (s.tod.adjTrack = false → (tdConfig s).tod.adj = s.tod.adj)) ∧
    (s.get F.TD_CFG_ROLE = 2 → (tdConfig s).tod.adj = s.tod.adj ∧ (tdConfig s).get F.TD_STATUS_FSTATE =
      (if s.get F.TD_STATUS_FSTATE = 0 ∨ s.tod.restart = true then 1 else s.get F.TD_STATUS_FSTATE) ∧
      (tdConfig s).get F.TD_STATUS_VALID = b2n (s.get F.TD_STATUS_FSTATE == 2 && !s.tod.restart)))

/-- R557, R558, R583, Table 15.1: the follower: the first usable message steps the time and starts TRACKING, one within
STEP_LIM sets a correction, the third in a row beyond it steps; and 31,250 ticks without one end TRACKING. Model's choices:
the measured error is floored to picoseconds: notes/assumptions/75; corrections: notes/assumptions/73. -/
def Obligations.Following : Prop := ∀ s : State, s.Awake →
  (∀ (pos : Fin 313) ws, usableMsg s = some ws → (∀ k, k < 8 → (tmEn s k && tmSrc s k == 1) = false) →
    ∀ e, followErr s ws pos = e → e.natAbs < 2 ^ 31 →
    (s.get F.TD_STATUS_FSTATE = 1 → Gives (.todMessage pos) s fun t =>
      getS t F.TD_ERR = e ∧ t.get F.TD_STATUS_FSTATE = 2 ∧ t.get F.TD_STATUS_TIME_SET = 1 ∧ t.get F.TD_EVENT_STEPPED = 1 ∧
      todTotal t = (todTotal s - e * psUnits) % todTurn ∧ t.tod.missX = 0 ∧ t.tod.lost = 0 ∧
      t.get F.TD_CNT_STEPS = min (s.get F.TD_CNT_STEPS + 1) 65535 ∧ t.get F.TD_CNT_MSGS = (s.get F.TD_CNT_MSGS + 1) % 65536 ∧
      t = { s with regs := t.regs, tod := t.tod, port := t.port } ∧
      RegsKept [F.TD_ERR.word, F.TD_STATUS.word, F.TD_EVENT_STEPPED.at, F.TD_CNT.word] s t) ∧
    (s.get F.TD_STATUS_FSTATE = 2 → e.natAbs ≤ s.get F.TD_CFG_STEP_LIM * 100000 → Gives (.todMessage pos) s fun t =>
      getS t F.TD_ERR = e ∧ t.tod = { s.tod with adj := -e * 400000, adjTrack := true, missX := 0, lost := 0 } ∧
      t.get F.TD_STATUS_SLEWING = b2n (e != 0) ∧ t.get F.TD_CNT_MSGS = (s.get F.TD_CNT_MSGS + 1) % 65536 ∧
      t = { s with regs := t.regs, tod := t.tod, port := t.port } ∧
      RegsKept [F.TD_ERR.word, F.TD_STATUS_SLEWING.at, F.TD_ADJ_LEFT.word, F.TD_CNT_MSGS.at] s t) ∧
    (s.get F.TD_STATUS_FSTATE = 2 → s.get F.TD_CFG_STEP_LIM * 100000 < e.natAbs → s.tod.missX < 2 → Gives (.todMessage pos) s fun t =>
      getS t F.TD_ERR = e ∧ t.tod = { s.tod with missX := s.tod.missX + 1, lost := 0 } ∧
      t = { s with regs := t.regs, tod := t.tod, port := t.port } ∧ RegsKept [F.TD_ERR.word, F.TD_CNT_MSGS.at] s t) ∧
    (s.get F.TD_STATUS_FSTATE = 2 → s.get F.TD_CFG_STEP_LIM * 100000 < e.natAbs → s.tod.missX = 2 → Gives (.todMessage pos) s fun t =>
      todTotal t = (todTotal s - e * psUnits) % todTurn ∧ t.tod.missX = 0 ∧ t.get F.TD_EVENT_STEPPED = 1 ∧
      t.get F.TD_STATUS_FSTATE = 2 ∧ t.tod.adj = s.tod.adj)) ∧
  (∀ pos : Fin 313, usableMsg s = none → Gives (.todMessage pos) s fun t => t = s) ∧
  (s.get F.TD_STATUS_FSTATE = 2 → 31250 ≤ s.tod.lost → Gives .msgLost s fun t =>
    t.get F.TD_STATUS_FSTATE = 1 ∧ t.get F.TD_EVENT_MSG_LOST = 1 ∧ t.tod = { s.tod with lost := 0 } ∧
    (s.tod.role = 2 → t.get F.TD_STATUS_VALID = 0) ∧ t = { s with regs := t.regs, tod := t.tod } ∧
    RegsKept [F.TD_STATUS.word, F.TD_EVENT_MSG_LOST.at] s t)

/-- R292, R559, R560, R571, R572, Table 15.4: the path-delay exchange: a request answered with its turnaround ahead of other
messages, a response that gives a delay and begins the next exchange or ends the TD_DELAY, and an exchange abandoned. Model's
choices: delays floored, exchange IDs from 0: notes/assumptions/75. -/
def Obligations.PathDelay : Prop := ∀ s : State,
  (s.Awake → ∀ p : Fin 16,
    (∀ b : List Byte, b.length = 2 → s.on F.LF_PCTRL_MC_EN p = true → (s.portX p).inbox = some { ty := 3, bytes := b } →
      ∀ turn, turn < 2 ^ 48 → Gives (.delayRequest p turn) s fun t =>
        (t.portX p).inbox = none ∧ (∃ ms ns, (s.portX p).mcOut = ms ++ ns ∧ (∀ m ∈ ms, 3 ≤ m.ty) ∧ (∀ m, ns.head? = some m → m.ty < 3) ∧
          (t.portX p).mcOut = ms ++ [{ ty := 4, bytes := b ++ toLE 6 turn }] ++ ns) ∧ OnlyPort p s t ∧ t.regs = s.regs) ∧
    (∀ j ∈ s.tod.exch, j.port = p.val → (s.tod.exch.filter fun i => i.port == p.val && i.id == j.id) = [j] → ∀ rtt turn : Nat,
      j.id < 65536 → turn < 2 ^ 48 → (s.portX p).inbox = some { ty := 4, bytes := toLE 2 j.id ++ toLE 6 turn } →
      (j.left = 0 → Gives (.delayResponse p rtt) s fun t =>
        (∃ d ds, d :: ds = j.found ++ [((rtt : Int) - turn) / 2] ∧ t.mp.ready = s.mp.ready ++ [(j.kind, St.ok,
          toLE 1 (ds.length + 1) ++ signed4 ((ds.foldl (· + ·) d) / ((ds.length + 1 : Nat) : Int)) ++ signed4 (ds.foldl min d) ++
            signed4 (ds.foldl max d))]) ∧
        t.tod.exch = s.tod.exch.filter (fun i => i.id != j.id) ∧ (t.portX p).inbox = none ∧
        t = { s with mp := { s.mp with ready := t.mp.ready }, tod := { s.tod with exch := t.tod.exch }, port := t.port }) ∧
      (0 < j.left → Gives (.delayResponse p rtt) s fun t =>
        (∃ f, f = j.found ++ [((rtt : Int) - turn) / 2] ∧ t.tod.exch = s.tod.exch.filter (fun i => i.id != j.id) ++
          [{ j with left := j.left - 1, id := s.tod.nextId, age := 0, found := f }]) ∧
        { ty := 3, bytes := toLE 2 s.tod.nextId } ∈ (t.portX p).mcOut ∧ t.tod.nextId = (s.tod.nextId + 1) % 65536 ∧ t.mp = s.mp ∧
        t = { s with tod := t.tod, port := t.port } ∧ ∀ q, q ≠ p.val → t.portX q = s.portX q)) ∧
    (∀ j, s.tod.exch = [j] → 64 ≤ j.age → j.left = 0 → j.found = [] → Gives .delayExchangeExpiry s fun t =>
      t.tod.exch = [] ∧ t.mp.ready = s.mp.ready ++ [(j.kind, St.notPresent, [])] ∧
      t = { s with mp.ready := t.mp.ready, tod.exch := [] })) ∧
  (∀ (k : Pkt) f, TakesFw s k f → ∀ p n : Byte, k.params = [p, n] →
    (p.toNat < 16 → 1 ≤ n.toNat → n.toNat ≤ 64 → portInSync s p.toNat = true → Gives (.tdDelay k (some f)) s fun t =>
      FwWaits s t k ∧ t.tod.exch = s.tod.exch ++ [{ kind := .chain, port := p.toNat, left := n.toNat - 1, id := s.tod.nextId }] ∧
      { ty := 3, bytes := toLE 2 s.tod.nextId } ∈ (t.portX p.toNat).mcOut ∧
      t = { s with regs := t.regs, mp := t.mp, ch := t.ch, tod := t.tod, port := t.port } ∧ RegsKept bridgeFields s t) ∧
    (p.toNat < 16 → 1 ≤ n.toNat → n.toNat ≤ 64 → portInSync s p.toNat = false → Gives (.tdDelay k (some f)) s fun t =>
      FwServed f [] s t k St.notPresent [] ∧ BusOnly s t) ∧
    (16 ≤ p.toNat ∨ n = 0 ∨ 64 < n.toNat → Gives (.tdDelay k (some f)) s fun t => FwServed f [] s t k St.badParam [] ∧ BusOnly s t))

/-- R561–R566, R571–R573, R577, R579, Tables 15.2, 15.3, 15.6: Kerf: an edge lost in the dead time; one captured, with its
time and sequence number, and counted by timers; internal sources; intervals armed, started and ended; and KF_POP. Model's
choices: starts and stops in one cycle, and internal sources: notes/assumptions/77. -/
def Obligations.Kerf : Prop := ∀ s : State,
  (s.Awake →
    (∀ (e : Fin 4) (rise : Bool) (pos : Fin 313),
      (s.tapOwns = true → Gives (.evtEdge e rise pos) s fun t => t = s) ∧ (s.tapOwns = false →
      (SMap.get (fun _ => 0) s.kf.last e ≠ 0 → kfTime s pos + 1 < SMap.get (fun _ => 0) s.kf.last e + 750 →
        Gives (.evtEdge e rise pos) s fun t =>
          t.get F.KF_DEAD_LOST_COUNT e = min (s.get F.KF_DEAD_LOST_COUNT e + 1) 65535 ∧ t.get F.KF_EVENT_DEAD_LOST = 1 ∧
          Only [F.KF_DEAD_LOST_COUNT.at e, F.KF_EVENT_DEAD_LOST.at] s t) ∧
      (SMap.get (fun _ => 0) s.kf.last e = 0 ∨ SMap.get (fun _ => 0) s.kf.last e + 750 ≤ kfTime s pos + 1 →
        (edgeSelected s e rise = false → Gives (.evtEdge e rise pos) s fun t =>
          SMap.get (fun _ => 0) t.kf.last e = kfTime s pos + 1 ∧ t = { s with kf.last := t.kf.last }) ∧
        (edgeSelected s e rise = true → s.get F.KF_IN_CFG_CAP_EN e = 1 → s.get F.KF_INT_CFG_EN = 0 → s.get F.KF_IV_CFG_EN = 0 →
          (∀ k, k < 8 → countsEdges s k e = false) →
          ((kfFifo s e).length < 16 → Gives (.evtEdge e rise pos) s fun t =>
            FifoIs t e (kfFifo s e ++ [captureEntry s rise pos (s.get F.KF_IN_STAT_NEXT_SEQ e)]) ∧
            t.get F.KF_IN_STAT_NEXT_SEQ e = (s.get F.KF_IN_STAT_NEXT_SEQ e + 1) % 256 ∧ (t.get F.KF_EVENT_CAPTURE).testBit e = true ∧
            t = { s with regs := t.regs, kf := t.kf } ∧
            RegsKept (fifoFields e ++ [F.KF_IN_STAT_NEXT_SEQ.at e, F.KF_EVENT_CAPTURE.at]) s t) ∧
          (16 ≤ (kfFifo s e).length → Gives (.evtEdge e rise pos) s fun t =>
            t.get F.KF_IN_STAT_NEXT_SEQ e = (s.get F.KF_IN_STAT_NEXT_SEQ e + 1) % 256 ∧
            t.get F.KF_OVR_COUNT e = min (s.get F.KF_OVR_COUNT e + 1) 65535 ∧ t.get F.KF_EVENT_OVERRUN = 1 ∧
            t = { s with regs := t.regs, kf.last := t.kf.last } ∧
            RegsKept [F.KF_IN_STAT_NEXT_SEQ.at e, F.KF_OVR_COUNT.at e, F.KF_EVENT_OVERRUN.at] s t)) ∧
        (edgeSelected s e rise = true → ∀ k : Fin 8, countsEdges s k e = true → s.get F.TM_CFG_CMP_EN k = 0 → s.get F.TM_STAT_CATCHUP k = 0 →
          Gives (.evtEdge e rise pos) s fun t => tmHeld t k = (tmHeld s k + 1) % 2 ^ 64)))) ∧
    (∀ (src : Fin 32) (rise : Bool) (pos : Fin 313),
      (sourceNow s src rise = false → Gives (.internalEvent src rise pos) s fun t => t = s) ∧
      (src.val < 4 ∨ (10 ≤ src.val ∧ src.val < 16) ∨ 24 ≤ src.val → sourceNow s src rise = false) ∧
      (src.val = 7 ∨ (src.val = 8 ∧ tgSel s 0 ≠ 31) ∨ (src.val = 9 ∧ tgSel s 1 ≠ 31) ∨ (src.val = 4 ∧ s.inFrame = 0) ∨
          (src.val = 5 ∧ s.inFrame = 0 ∧ s.frameNum.2 % 250 = 0) →
        s.get F.KF_INT_CFG_EN = 1 → s.get F.KF_INT_CFG_SRC = src.val → s.get F.KF_IV_CFG_EN = 0 → (kfFifo s 4).length < 16 →
        Gives (.internalEvent src rise pos) s fun t =>
          FifoIs t 4 (kfFifo s 4 ++ [captureEntry s (bitOf s.drawn.toNat 0) (if src.val < 6 then 0 else pos) (s.get F.KF_INT_STAT_NEXT_SEQ)]) ∧
          t = { s.draw with regs := t.regs, kf.fifo := t.kf.fifo }) ∧
      (src.val = 6 → s.cyc ≠ 0 → todUnits s < todInc s → s.get F.KF_INT_CFG_EN = 1 → s.get F.KF_INT_CFG_SRC = 6 →
        s.get F.KF_IV_CFG_EN = 0 → (kfFifo s 4).length < 16 → Gives (.internalEvent src rise pos) s fun t =>
          FifoIs t 4 (kfFifo s 4 ++ [captureEntry { s with tod.sub := 0, tod.frac := 0 } (bitOf s.drawn.toNat 0) 0
            (s.get F.KF_INT_STAT_NEXT_SEQ)]) ∧ t = { s.draw with regs := t.regs, kf.fifo := t.kf.fifo }) ∧
      (16 ≤ src.val → src.val ≤ 23 → timerOut s (src.val - 16) = rise →
        (s.get F.KF_INT_CFG_EN = 1 → s.get F.KF_INT_CFG_SRC = src.val → s.get F.KF_IV_CFG_EN = 0 → (kfFifo s 4).length < 16 →
          Gives (.internalEvent src rise pos) s fun t =>
            FifoIs t 4 (kfFifo s 4 ++ [captureEntry s rise pos (s.get F.KF_INT_STAT_NEXT_SEQ)]) ∧ t.get F.KF_EVENT_INT_CAPTURE = 1 ∧
            t = { s with regs := t.regs, kf.fifo := t.kf.fifo } ∧
            RegsKept (fifoFields 4 ++ [F.KF_INT_STAT_NEXT_SEQ.at, F.KF_EVENT_INT_CAPTURE.at]) s t) ∧
        (s.get F.KF_INT_CFG_EN = 0 → s.get F.KF_IV_CFG_EN = 1 →
          (s.get F.KF_IV_CFG_MODE = 0 → s.get F.KF_IV_STAT_STATE = 1 → s.get F.KF_IV_CFG_START_SRC = src.val →
            s.get F.KF_IV_CFG_STOP_SRC ≠ src.val → Gives (.internalEvent src rise pos) s fun t =>
              t.kf.start = some ((kfTime s pos / 2 : Nat) : Int) ∧ t.get F.KF_IV_STAT_STATE = 2 ∧
              t = { s with regs := t.regs, kf.start := t.kf.start } ∧ RegsKept [F.KF_IV_STAT_STATE.at] s t) ∧
          (s.get F.KF_IV_CFG_STOP_SRC = src.val → s.get F.KF_IV_CFG_START_SRC ≠ src.val → s.get F.KF_IV_STAT_STATE ≠ 0 →
            (∀ b : Int, s.kf.start = some b → s.kf.stop = none → s.get F.KF_IV_CFG_CONT = 0 → (kfFifo s 5).length < 16 →
              ∀ r, r = ((kfTime s pos / 2 : Nat) : Int) - b → -549755813888 ≤ r → r ≤ 549755813887 →
              Gives (.internalEvent src rise pos) s fun t =>
                FifoIs t 5 (kfFifo s 5 ++ [[ofSigned 64 r % 2 ^ 32, ofSigned 64 r / 2 ^ 32, b2n (r == 0) + 256 * s.kf.ivSeq, 0]]) ∧
                t.get F.KF_IV_STAT_STATE = 0 ∧ t.get F.KF_EVENT_IV_RESULT = 1 ∧ t.kf.start = none ∧ t.kf.ivSeq = (s.kf.ivSeq + 1) % 256 ∧
                t = { s with regs := t.regs, kf := t.kf } ∧
                RegsKept (fifoFields 5 ++ [F.KF_IV_STAT_STATE.at, F.KF_EVENT_IV_RESULT.at]) s t) ∧
            (s.kf.start = none → s.get F.KF_IV_CFG_MODE = 0 → Gives (.internalEvent src rise pos) s fun t =>
              t.get F.KF_EARLY_STOP_EARLY = min (s.get F.KF_EARLY_STOP_EARLY + 1) 65535 ∧ Only [F.KF_EARLY_STOP_EARLY.at] s t))))) ∧
    (s.get F.KF_IV_CFG_EN = 1 → Gives .arm s fun t =>
      t.get F.KF_IV_STAT_STATE = 1 ∧ t.kf = { s.kf with start := none, stop := none, alt := false } ∧ t = { s with regs := t.regs, kf := t.kf } ∧
      RegsKept [F.KF_IV_STAT_STATE.at] s t) ∧
    (Gives .kfCntClr s fun t =>
      t.get F.KF_EARLY_STOP = 0 ∧ t.get F.KF_OVR_IV = 0 ∧ t.get F.KF_INT_OVR = 0 ∧
      (∀ e, e < 4 → t.get F.KF_DEAD_LOST e = 0 ∧ t.get F.KF_OVR e = 0) ∧
      Only ([F.KF_EARLY_STOP.word, F.KF_OVR_IV.word, F.KF_INT_OVR.word] ++
        (List.range 4).flatMap fun e => [F.KF_DEAD_LOST.word e, F.KF_OVR.word e]) s t)) ∧
  (∀ k : Pkt, Takes s k → ∀ i n : Byte, k.params = [i, n] →
    (i.toNat ≤ 5 → 1 ≤ n.toNat → n.toNat ≤ 16 → Gives (.kfPop k) s fun t =>
      Served (fifoFields i.toNat) s t k St.ok (toLE 1 ((kfFifo s i.toNat).take n.toNat).length ++
        ((kfFifo s i.toNat).take n.toNat).flatMap fun e => e.flatMap (toLE 4)) ∧
      FifoIs t i.toNat ((kfFifo s i.toNat).drop n.toNat) ∧ t = { s with regs := t.regs, mp := t.mp, ch := t.ch, kf.fifo := t.kf.fifo }) ∧
    (5 < i.toNat ∨ n = 0 ∨ 16 < n.toNat → Gives (.kfPop k) s fun t => Served [] s t k St.badParam [] ∧ BusOnly s t))

/-- R567–R570, Table 15.7: a timer that counts FCLK crosses a compare, which acts on the pin level and moves on by its INC;
it overflows; TM_LOAD, refused while the counter is the time of day; EN written, which sets the level. Model's choices: the
rows that name a moment: notes/assumptions/3; the count kept when EN falls: notes/assumptions/76. -/
def Obligations.Timers : Prop := ∀ (s : State) (k : Fin 8), s.Awake →
  (tmEn s k = true → tmSrc s k = 0 → s.get F.TM_STAT_CATCHUP k = 0 →
    (∀ (c : Fin 4) d, s.get F.TM_CFG_CMP_EN k = 2 ^ c.val → d = aheadBy (tmCmp s k c) (tmHeld s k) → 1 ≤ d → Quiet s d → d < toBoundary s →
      tmHeld s k + d < 2 ^ 64 → Gives (.timerMatch k c) s fun t => ∃ u, t = settle u ∧
        u.cyc = s.cyc + d ∧ tmHeld u k = tmCmp s k c ∧ (u.get F.TM_EVENT_MATCH k).testBit c = true ∧
        u.get F.TM_STAT_LEVEL k = (match bitsOf (s.get F.TM_CFG_ACT k) (2 * c.val) 2 with
          | 0 => s.get F.TM_STAT_LEVEL k
          | 1 => 1
          | 2 => 0
          | _ => 1 - s.get F.TM_STAT_LEVEL k) ∧
        tmCmp u k c = (tmCmp s k c + s.get F.TM_INC k c) % 2 ^ 64 ∧ (∀ i : Fin 4, i ≠ c → tmCmp u k i = tmCmp s k i)) ∧
    (∀ d, s.get F.TM_CFG_CMP_EN k = 0 → d = 2 ^ 64 - tmHeld s k → Quiet s d → d < toBoundary s → Gives (.timerOverflow k) s fun t =>
      ∃ u, t = settle u ∧ u.cyc = s.cyc + d ∧ tmHeld u k = 0 ∧ u.get F.TM_EVENT_OVF k = 1 ∧
        u.get F.TM_STAT_LEVEL k = (match s.get F.TM_CFG_OVF_ACT k with
          | 0 => s.get F.TM_STAT_LEVEL k
          | 1 => 1
          | 2 => 0
          | _ => 1 - s.get F.TM_STAT_LEVEL k))) ∧
  (∀ v : BitVec 64,
    (tmSrc s k ≠ 1 → Gives (.tmLoad k v) s fun t => tmHeld t k = v.toNat ∧
      t = { s with regs := t.regs, tod.tmW.loaded := s.tod.tmW.loaded ||| 2 ^ k.val } ∧ RegsKept [F.TM_CNT.word k 0, F.TM_CNT.word k 1] s t) ∧
    (tmSrc s k = 1 → Gives (.tmLoad k v) s fun t => t = s)) ∧
  (s.locked 14 = false → ∀ en : Bool, Gives (.timerEnWrite k en) s fun t =>
    t.get F.TM_CFG_EN k = b2n en ∧
    (en = true → t.get F.TM_STAT_LEVEL k = s.get F.TM_CFG_OUT_INIT k) ∧
    (en = false → t.get F.TM_STAT_LEVEL k = s.get F.TM_STAT_LEVEL k) ∧
    (en = false → tmHeld t k = tmCount s k) ∧ (tmSrc s k ≠ 1 ∨ en = true → tmHeld t k = tmHeld s k) ∧
    t = { s with regs := t.regs, tod.tmW.anew := s.tod.tmW.anew ||| (if en = true ∧ tmEn s k = false then 2 ^ k.val else 0) } ∧
    RegsKept [F.TM_CFG_EN.at k, F.TM_STAT_LEVEL.at k, F.TM_CNT.word k 0, F.TM_CNT.word k 1] s t)

/-- R590, R591, R594–R596, R601, R607, R608, R617: excitation on its schedule; the sample of a window, with its stamp, its
words and OVR where the input is over range; FE_CFG written, which skips a window in progress; clamps and their end. Model's
choices: readings come as operands: notes/assumptions/43; the first SEQ and skipped windows: notes/assumptions/80. -/
def Obligations.FrontEnd : Prop := ∀ (s : State) (f : Fin 8), s.Awake →
  (feExcDue s f = true → Gives (.excitationOn f) s fun t => t.get F.FE_STAT_EXC_ON f = 1 ∧ Only [F.FE_STAT_EXC_ON.at f] s t) ∧
  (∀ (cfg drive : Nat) (codes : List Int) (exc : Int) (overR : Option Bool) (fault : Bool), (s.feX f).ready = some (cfg, drive) →
    codes.length = 2 * bitsOf drive 16 7 → ∀ code, code = windowCode (bitsOf cfg 28 3) codes →
    (cjAwaited s f = true → Gives (.sample f codes exc overR fault) s fun t =>
      t.feX f = { s.feX f with ready := none, held := some { code, exc, overR, fault, cfg, drive } } ∧ t = { s with fe := t.fe } ∧
      ∀ g, g ≠ f.val → t.feX g = s.feX g) ∧
    (cjAwaited s f = false → (∀ g, g < 8 → g ≠ f.val → (s.feX g).held = none ∨ s.get F.FE_CFG_CJ_SRC g ≠ f) →
      Gives (.sample f codes exc overR fault) s fun t =>
      t.get F.FE_EVENT_SAMPLE f = 1 ∧ t.get F.FE_STAMP_S f = s.get F.LF_NOW_S ∧ t.get F.FE_STAMP_F_F f = s.get F.LF_NOW_F_F % 2 ^ 15 ∧
      getS t F.FE_RAW f = clampInt (-8388607) 8388607 code ∧
      (t.feX f).made = (s.feX f).made + 1 ∧ (t.feX f).out1 = (s.feX f).out0 ∧ (t.feX f).ready = none ∧
      (∃ m, (t.feX f).out0 = some m ∧ m.words = m.sample ∧ m.base = (s.timeAt 12800 + timeTurn - 2500) % timeTurn ∧
        m.words.map BitVec.toNat = [t.get F.FE_VAL f / 65536, t.get F.FE_VAL f % 65536, s.get F.LF_NOW_S / 65536, s.get F.LF_NOW_S % 65536,
          (b2n (s.get F.LF_NUM_STATUS_STATE != 1) * 2 ^ 15 + s.get F.LF_NOW_F_F) % 65536, t.get F.FE_STAT_WORD5 f,
          (f * 2 ^ 13 + s.get F.FE_CFG_CURVE f * 2 ^ 8) % 65536, 0]) ∧
      t.get F.FE_STAT_WORD5 f % 256 = (t.feX f).made % 256 ∧
      (overR = none → fault = false → -8388607 ≤ code → code ≤ 8388607 → bitsOf cfg 28 3 = 0 →
        bitsOf drive 16 7 ≤ (s.feX f).clean → s.get F.FE_CFG_CURVE f = 0 → (s.feX f).impFault = false →
          getS t F.FE_VAL f = roundHalfUp (code * fullScale (bitsOf cfg 26 2)) 8388608 ∧
          t.get F.FE_STAT_WORD5 f = (t.feX f).made % 256 ∧ t.get F.FE_CNT_OVR f = s.get F.FE_CNT_OVR f) ∧
      (∀ b, overR = some b → t.get F.FE_VAL f = (if b then 0x7FFFFFFF else 0x80000000) ∧ (t.get F.FE_STAT_WORD5 f).testBit 15 = true ∧
        t.get F.FE_EVENT_OVR f = 1 ∧ t.get F.FE_CNT_OVR f = min (s.get F.FE_CNT_OVR f + 1) 65535) ∧
      ((s.feX f).clean < bitsOf drive 16 7 → (t.get F.FE_STAT_WORD5 f).testBit 14 = true ∧ (t.get F.FE_STAT_WORD5 f).testBit 15 = true) ∧
      t = { s with regs := t.regs, freeIx := t.freeIx, fe := t.fe, xc := t.xc } ∧
      RegsKept ([F.FE_RAW.word f, F.FE_VAL.word f, F.FE_STAMP_S.word f, F.FE_STAMP_F.word f, F.FE_STAT_WORD5.at f, F.FE_EVENT.word f,
        F.FE_CNT_OVR.at f] ++ (List.range 256).map fun j => F.XC_TRIB_STAT_AGE.at j) s t)) ∧
  (∀ mode (codes : List Int), codes ≠ [] →
    (mode ≠ 2 → mode ≠ 3 → windowCode mode codes = roundHalfUp codes.sum codes.length) ∧
    (∀ a b as bs, codes = a :: as ++ b :: bs → as.length = bs.length →
      windowCode 2 codes = roundHalfUp (as.sum + bs.sum) ((as.length + bs.length : Nat) : Int) ∧
      windowCode 3 codes = roundHalfUp (as.sum - bs.sum) ((as.length + bs.length : Nat) : Int))) ∧
  (s.locked 15 = false → ∀ (exc : Bool) (v : Word),
    (if exc then feCfgBad (s.get F.FE_CFG f) v.toNat else feCfgBad v.toNat (s.get F.FE_EXC f)) = false →
    (if exc then s.get F.FE_CFG_EN f = 1 ∧ v.toNat &&& 0xBF7F17FF = v.toNat ∧ v.toNat ≠ s.get F.FE_EXC f &&& 0xBF7F17FF
      else v.toNat / 2 ^ 31 = 1 ∧ v.toNat &&& 0x10000 = 0 ∧ v.toNat &&& 0xFC00FFFF ≠ s.get F.FE_CFG f &&& 0xFC00FFFF) →
    Gives (.feConfigWrite f exc v) s fun t =>
      t.reg (if exc then F.FE_EXC.addr f else F.FE_CFG.addr f) = v ∧ t.get F.FE_STAT_EXC_ON f = 0 ∧
      t.feX f = { s.feX f with
        busy := false, inWindow := false, overlap := false, stood := if frameCycles ≤ s.inFrame then 0 else 1 } ∧
      ((s.feX f).busy = true → t.get F.FE_CNT_SKIPS f = min (s.get F.FE_CNT_SKIPS f + 1) 65535 ∧ t.get F.FE_EVENT_SKIP f = 1) ∧
      t = { s with regs := t.regs, fe := t.fe } ∧
      RegsKept [if exc then F.FE_EXC.word f else F.FE_CFG.word f, F.FE_STAT_EXC_ON.at f, F.FE_CNT_SKIPS.at f, F.FE_EVENT_SKIP.at f] s t) ∧
  (∀ v : Word, feCfgBad v.toNat (s.get F.FE_EXC f) = true → Gives (.feConfigWrite f false v) s fun t =>
    s.locked 15 = false → t = s) ∧
  Gives (.clamp f) s (fun t =>
    t.get F.FE_STAT_CLAMP_NOW f = 1 ∧ t.get F.FE_EVENT_CLAMP f = 1 ∧
    t.feX f = { s.feX f with
      clamped := (s.feX f).clamped || decide (s.inFrame < frameCycles), chkClamp := (s.feX f).chkClamp || feChecking s f } ∧
    t = { s with regs := t.regs, fe := t.fe } ∧ RegsKept [F.FE_STAT_CLAMP_NOW.at f, F.FE_EVENT_CLAMP.at f] s t) ∧
  Gives (.clampRelease f) s fun t => t.get F.FE_STAT_CLAMP_NOW f = 0 ∧ Only [F.FE_STAT_CLAMP_NOW.at f] s t

/-- R602–R605, R610, R611, R618, R619, Table 16.7: impedance checks, made due, started and ended with the first verdict that
applies, which answers the commands that wait for it; the counters cleared; FE_CHECK. Model's choices: CHECK_DUE needs
FW_READY: notes/assumptions/80. -/
def Obligations.ImpedanceChecks : Prop := ∀ (s : State),
  (s.Awake →
    (∀ f : Fin 8,
      (feOn s f = true → s.get F.FE_CHK_CHK_PERIOD f ≠ 0 → s.get F.MP_STATUS_FW_READY = 1 → (s.feX f).chk = none →
        Gives (.checkDue f) s fun t => t.feX f = { s.feX f with chkDue := true } ∧ t = { s with fe := t.fe } ∧
          ∀ g, g ≠ f.val → t.feX g = s.feX g) ∧
      (s.get F.MP_STATUS_FW_READY = 0 → Gives (.checkDue f) s fun t => t = s) ∧
      (s.inFrame = 0 → feOn s f = true → checkWanted s f = true → checkMayStart s f = true → Gives (.checkStart f) s fun t =>
        (t.feX f).chk = some (s.frameTotal, (s.frameTotal + checkFrames (s.get F.FE_CHK_TONE f)) % 2 ^ 32) ∧ (t.feX f).chkDue = false ∧
        (t.feX f).chkClamp = s.on F.FE_STAT_CLAMP_NOW f ∧
        t.get F.FE_STAT_CHK_BUSY f = 1 ∧ t.get F.FE_STAT_EXC_ON f = 0 ∧ t = { s with regs := t.regs, fe := t.fe } ∧
        RegsKept [F.FE_STAT_CHK_BUSY.at f, F.FE_STAT_EXC_ON.at f] s t) ∧
      (s.inFrame ≠ 0 → Gives (.checkStart f) s fun t => t = s) ∧
      (∀ b e z leak (phase : Int), (s.feX f).chk = some (b, e) → seqLater e s.frameTotal = false → z < 2 ^ 32 → leak < 2 ^ 32 →
        Gives (.chkDone f z phase leak) s fun t => ∃ v,
          v = (if (s.feX f).chkClamp then 5 else if s.get F.FE_ZLIM_Z_MAX f * 1000 < z then 2 else if z < s.get F.FE_ZLIM_Z_MIN f * 100 then 3
            else if leak < s.get F.FE_LEAK_LEAK_MIN f then 4 else 1) ∧
          t.get F.FE_ZPH_VERDICT f = v ∧ t.get F.FE_ZRES f = z ∧ t.get F.FE_LRES f = leak ∧
          t.get F.FE_ZPH_PHASE f = ofSigned 16 phase % 65536 ∧ t.get F.FE_STAT_CHK_BUSY f = 0 ∧ t.get F.FE_EVENT_CHK_DONE f = 1 ∧
          (v ≠ 1 → t.get F.FE_EVENT_CHK_FAULT f = 1) ∧ (t.feX f).chk = none ∧ (t.feX f).impFault = (v != 1) ∧ (t.feX f).jobs = [] ∧
          t.mp.ready = s.mp.ready ++ (s.feX f).jobs.map fun k => (k, St.ok, toLE 4 z ++ toLE 4 (t.get F.FE_ZPH f) ++ toLE 4 leak)) ∧
      (∀ b e z leak (phase : Int), (s.feX f).chk = some (b, e) → seqLater e s.frameTotal = true →
        Gives (.chkDone f z phase leak) s fun t => t = s)) ∧
    (Gives .feCntClr s fun t => (∀ f, f < 8 → t.get F.FE_CNT f = 0) ∧ Only ((List.range 8).map fun f => F.FE_CNT.word f) s t)) ∧
  (∀ (k : Pkt) (e : Nat), TakesFw s k e → ∀ f : Byte, k.params = [f] →
    (f.toNat < 8 → feOn s f.toNat = true → Gives (.feCheck k (some e)) s fun t =>
      FwWaits s t k ∧ (t.feX f.toNat).jobs = (s.feX f.toNat).jobs ++ [.chain] ∧
      t = { s with regs := t.regs, mp := t.mp, ch := t.ch, fe := t.fe } ∧ RegsKept bridgeFields s t) ∧
    (f.toNat < 8 → feOn s f.toNat = false → Gives (.feCheck k (some e)) s fun t => FwServed e [] s t k St.wrongState [] ∧ BusOnly s t) ∧
    (8 ≤ f.toNat → Gives (.feCheck k (some e)) s fun t => FwServed e [] s t k St.badParam [] ∧ BusOnly s t))

/-- R599, R600, R610, Table 16.7: Spline tables: at a knot of a table whose X rise strictly the value is its Y; between two knots
that of the line, halves toward +∞; beyond them that of the nearest; FE_SPLINE_LOAD and FE_SPLINE_EVAL. -/
def Obligations.SplineTables : Prop :=
  (∀ ks : List (Int × Int), rising ks = true → 2 ≤ ks.length →
    (∀ k ∈ ks, interpolate ks k.1 = (k.2, false)) ∧
    (∀ x, (∀ k ∈ ks, x < k.1) → interpolate ks x = ((ks.headD (0, 0)).2, true)) ∧
    (∀ x, (∀ k ∈ ks, k.1 < x) → interpolate ks x = ((ks.getLastD (0, 0)).2, true)) ∧
    (∀ pre a b post x, ks = pre ++ a :: b :: post → a.1 ≤ x → x < b.1 →
      interpolate ks x = (a.2 + roundHalfUp ((x - a.1) * (b.2 - a.2)) (b.1 - a.1), false))) ∧
  (∀ (s : State) (k : Pkt) (e : Nat), TakesFw s k e → ∀ n : Byte,
    (∀ prs : List (Nat × Nat), 2 ≤ prs.length → prs.length ≤ 32 → n.toNat < 16 → (∀ p ∈ prs, p.1 < 2 ^ 32 ∧ p.2 < 2 ^ 32) →
      k.params = n :: BitVec.ofNat 8 prs.length :: prs.flatMap (fun p => toLE 4 p.1 ++ toLE 4 p.2) →
      (s.locked 15 = false → rising (prs.map fun p => (toSigned 32 p.1, toSigned 32 p.2)) = true →
        Gives (.feSplineLoad k (some e)) s fun t =>
          FwServed e (F.FE_SPL_K_K.at n.toNat :: (List.range 32).flatMap fun i => [F.FE_SPL_X.word n.toNat i, F.FE_SPL_Y.word n.toNat i])
            s t k St.ok [] ∧
          t.get F.FE_SPL_K_K n.toNat = prs.length ∧
          (∀ i, i < 32 → t.get F.FE_SPL_X n.toNat i = (prs.getD i (0, 0)).1 ∧ t.get F.FE_SPL_Y n.toNat i = (prs.getD i (0, 0)).2) ∧
          BusOnly s t) ∧
      (s.locked 15 = true → Gives (.feSplineLoad k (some e)) s fun t =>
        FwServed e [F.MP_LOCK_VIOL_COUNT.at] s t k St.locked [] ∧
        t.get F.MP_LOCK_VIOL_COUNT = min (s.get F.MP_LOCK_VIOL_COUNT + 1) 65535 ∧ BusOnly s t)) ∧
    (∀ x : Word, n.toNat < 16 → k.params = n :: toLE 4 x.toNat →
      (∀ y out, splineLive s n.toNat (toSigned 32 x.toNat) = some (y, out) → Gives (.feSplineEval k (some e)) s fun t =>
        FwServed e [] s t k St.ok (toLE 4 (ofSigned 32 y) ++ [BitVec.ofNat 8 (b2n out)]) ∧ BusOnly s t) ∧
      (splineLive s n.toNat (toSigned 32 x.toNat) = none → Gives (.feSplineEval k (some e)) s fun t =>
        FwServed e [] s t k St.ok (toLE 4 x.toNat ++ [2]) ∧ BusOnly s t)))

/-- R623–R626, R648, R649, R681, Tables 17.2, 17.10: a bench core that fails: the spare takes over its role, or the role is
left with no core; the spare and a stand-in that fail; the end of a takeover; and BC_PROMOTE. Model's choices: stand-ins,
SPARE_LOST and the log: notes/assumptions/81. -/
def Obligations.BenchCores : Prop := ∀ s : State,
  (s.Awake →
    (∀ n : Fin 5, s.get F.BC_CORE_STATE n = 0 → ∀ cause c,
      (c = .coreWatchdogExpiry n ∧ cause = 1) ∨ (c = .coreFail n false ∧ cause = 2) ∨ (c = .coreFail n true ∧ cause = 3) →
      (n.val < 4 → s.get F.BC_CORE_STATE 4 = 1 → s.get F.BC_CTRL_AUTO_PROMOTE = 1 → Gives c s fun t => ∃ u, t = settle u ∧
        u.get F.BC_CORE_STATE n = 3 ∧ u.get F.BC_CORE_CAUSE n = cause ∧ u.get F.BC_EVENT_CORE_FAIL = 1 ∧ u.isOpen 18 = true ∧
        u.get F.FA_SRC_INFO 18 = n ∧ u.get F.BC_CORE_STATE 4 = 2 ∧ u.get F.BC_CORE_STANDS_FOR 4 = n ∧ u.get F.BC_EVENT_SPARE_LOST = 1 ∧
        u.bc.takeover = some n.val ∧ u.bc.takenAt = some s.cyc ∧ u.get F.MP_STATUS_FW_READY = 0 ∧ icStack u n = []) ∧
      (∀ m, n.val < m → m < 4 → s.get F.BC_CORE_STATE 4 ≠ 1 → s.bc.takeover = some m → s.bc.takenAt = some s.cyc →
        s.get F.BC_CORE_CAUSE m = 1 → cause = 1 → Gives c s fun t => ∃ u, t = settle u ∧
          u.get F.BC_CORE_STATE n = 3 ∧ u.get F.BC_CORE_CAUSE n = 1 ∧ u.get F.BC_CORE_STATE 4 = 2 ∧ u.get F.BC_CORE_STANDS_FOR 4 = n ∧
          u.bc.takeover = some n.val ∧ m ∈ u.bc.bare ∧ u.get F.MP_STATUS_FW_READY = 0) ∧
      (n.val = 4 ∨ s.get F.BC_CORE_STATE 4 ≠ 1 ∨ s.get F.BC_CTRL_AUTO_PROMOTE = 0 →
        s.bc.takeover = none ∨ s.bc.takenAt ≠ some s.cyc ∨ cause ≠ 1 → Gives c s fun t => ∃ u, t = settle u ∧
        u.get F.BC_CORE_STATE n = 3 ∧ u.get F.BC_CORE_CAUSE n = cause ∧ u.isOpen 18 = true ∧ u.get F.BC_EVENT_SPARE_LOST = 1 ∧
        n.val ∈ u.bc.bare ∧ u.get F.MP_STATUS_FW_READY = 0)) ∧
    (∀ u, s.get F.BC_CORE_STATE 4 = 1 → Gives (.coreFail 4 u) s fun t => ∃ w, t = settle w ∧
      w.get F.BC_CORE_STATE 4 = 3 ∧ w.get F.BC_CORE_CAUSE 4 = (if u then 3 else 2) ∧ w.get F.BC_EVENT_SPARE_LOST = 1 ∧
      w.isOpen 18 = true ∧ w.bc = s.bc) ∧
    (∀ u, s.get F.BC_CORE_STATE 4 = 2 → Gives (.coreFail 4 u) s fun t => ∃ w, t = settle w ∧
      w.get F.BC_CORE_STATE 4 = 3 ∧ s.get F.BC_CORE_STANDS_FOR 4 ∈ w.bc.bare ∧ w.get F.MP_STATUS_FW_READY = 0) ∧
    (∀ (n : Fin 5) u, 3 ≤ s.get F.BC_CORE_STATE n → Gives (.coreFail n u) s fun t => t = s) ∧
    (∀ n : Fin 5, s.get F.BC_CORE_STATE n = 4 → s.bc.takeover = some n.val → s.bc.takenAt = some s.cyc →
      Gives (.coreWatchdogExpiry n) s fun t => ∃ u, t = settle u ∧
        u.get F.BC_CORE_STATE n = 3 ∧ u.get F.BC_CORE_CAUSE n = 1 ∧ u.get F.BC_EVENT_CORE_FAIL = 1 ∧ u.isOpen 18 = true) ∧
    (∀ n us, s.bc.takeover = some n → n < 4 → us ≤ 2000 → Gives (.takeoverDone us) s fun t =>
      t.bc = { s.bc with takeover := none } ∧ t.get F.BC_TAKEOVER_US n = us ∧ t.get F.BC_ABSENCE = us ∧ t.get F.BC_EVENT_TAKEOVER_DONE = 1 ∧
      t.get F.MP_STATUS_FW_READY = b2n (s.bc.booted && s.bc.bare.isEmpty && (s.bc.swap != some { absent := true })) ∧
      t.fa = { s.fa with kickAge := s.fa.kickAge.map fun _ => 0 } ∧ t = { s with regs := t.regs, bc := t.bc, fa := t.fa } ∧
      RegsKept [F.BC_TAKEOVER_US.word n, F.BC_ABSENCE.word, F.BC_EVENT_TAKEOVER_DONE.at, F.MP_STATUS_FW_READY.at] s t)) ∧
  (∀ k : Pkt, Takes s k → ∀ n : Byte, k.params = [n] →
    (n.toNat < 4 → s.locked 16 = false → s.get F.BC_CORE_STATE 4 = 1 → s.get F.BC_CORE_STATE n.toNat = 0 → jobsRunning s = [] →
      Gives (.bcPromote k) s fun t =>
        Served (logFields ++ [F.BC_CORE.word n.toNat, F.BC_CORE.word 4, F.BC_EVENT_SPARE_LOST.at, F.IC_CORE.word n.toNat,
          F.MP_STATUS_FW_READY.at]) s t k St.ok [] ∧
        t.get F.BC_CORE_STATE n.toNat = 4 ∧ t.get F.BC_CORE_CAUSE n.toNat = 5 ∧ t.get F.BC_CORE_STATE 4 = 2 ∧
        t.get F.BC_CORE_STANDS_FOR 4 = n.toNat ∧ t.bc = { s.bc with takeover := some n.toNat, takenAt := some s.cyc } ∧ LogsOne s t 0x15 n.toNat 5) ∧
    (n.toNat < 4 → s.locked 16 = false → s.get F.BC_CORE_STATE 4 ≠ 1 → Gives (.bcPromote k) s fun t =>
      Served [] s t k St.wrongState [] ∧ BusOnly s t) ∧
    (n.toNat < 4 → s.locked 16 = true → Gives (.bcPromote k) s fun t =>
      Served [F.MP_LOCK_VIOL_COUNT.at] s t k St.locked [] ∧
      t.get F.MP_LOCK_VIOL_COUNT = min (s.get F.MP_LOCK_VIOL_COUNT + 1) 65535 ∧ BusOnly s t) ∧
    (4 ≤ n.toNat → Gives (.bcPromote k) s fun t => Served [] s t k St.badParam [] ∧ BusOnly s t))

/-- R645, R646, R648, R649, Tables 17.8–17.10: the firmware stage loaded, verified with its three outcomes, activated; the
absence, the swap done or reverted; FW_STATUS. Model's choices: SHA-256 and the verdict of a signature: notes/assumptions/82;
bytes of the stage never written: notes/assumptions/37. -/
def Obligations.FirmwareImage : Prop := ∀ s : State,
  (s.Awake →
    (s.get F.BC_FW_STAT_STAGE = 2 → Gives .verifyDone s fun t =>
      t.get F.BC_EVENT_VERIFY_DONE = 1 ∧ t = { s with regs := t.regs } ∧
      RegsKept ([F.BC_EVENT_VERIFY_DONE.at, F.BC_FW_STAT_STAGE.at, F.BC_FW_STAT_RESULT.at, F.BC_STAGE_VER.word, F.BC_STAGE_LEN.word] ++
        (List.range 8).map fun j => F.BC_STAGE_DIGEST.word j) s t ∧
      (headerWrong s = true → t.get F.BC_FW_STAT_STAGE = 4 ∧ t.get F.BC_FW_STAT_RESULT = St.badParam) ∧
      (∀ len d, headerWrong s = false → len = leAt (stageBytes s 12 4) 0 4 → d = sha256 (stageBytes s 0 (len - 64)) →
        (Config.signatureGood (byteAt (stageBytes s 16 1) 0) d (stageBytes s (len - 64) 64) = true →
          t.get F.BC_FW_STAT_STAGE = 3 ∧ t.get F.BC_FW_STAT_RESULT = St.ok ∧ t.get F.BC_STAGE_LEN = len ∧
          t.get F.BC_STAGE_VER = leAt (stageBytes s 8 4) 0 4 ∧ ∀ j, j < 8 → t.get F.BC_STAGE_DIGEST j = leAt d (4 * j) 4) ∧
        (Config.signatureGood (byteAt (stageBytes s 16 1) 0) d (stageBytes s (len - 64) 64) = false →
          t.get F.BC_FW_STAT_STAGE = 4 ∧ t.get F.BC_FW_STAT_RESULT = St.sigFail))) ∧
    (s.bc.swap = some { absent := false } → jobsRunning s = [] → Gives .firmwareAbsenceStart s fun t =>
      t.get F.MP_STATUS_FW_READY = 0 ∧ t.bc = { s.bc with swap := some { absent := true } } ∧ t = { s with regs := t.regs, bc := t.bc } ∧
      RegsKept [F.MP_STATUS_FW_READY.at] s t) ∧
    (∀ us, s.bc.swap = some { absent := true } → s.bc.takeover = none → us ≤ 30000 → Gives (.swapDone us) s fun t =>
      t.get F.BC_FW_VER = s.get F.BC_STAGE_VER ∧ t.get F.BC_FW_STAT_SOURCE = 1 ∧ t.get F.BC_FW_STAT_LAST_SWAP = 1 ∧
      t.get F.BC_ABSENCE = us ∧ t.get F.BC_FW_STAT_STAGE = 0 ∧ t.get F.BC_STAGE_VER = 0 ∧ t.get F.BC_STAGE_LEN = 0 ∧
      t.get F.BC_EVENT_SWAP_DONE = 1 ∧ t.bc = { s.bc with swap := none, stage := [], loaded := 0 } ∧
      t.get F.MP_STATUS_FW_READY = b2n (s.bc.booted && s.bc.bare.isEmpty) ∧
      t.fa = { s.fa with kickAge := s.fa.kickAge.map fun _ => 0 } ∧ t = { s with regs := t.regs, bc := t.bc, fa := t.fa }) ∧
    (∀ us, s.bc.swap = some { absent := true } → s.bc.takeover = none → 30000 ≤ us → us ≤ 48000 → Gives (.swapReverted us) s fun t =>
      t.get F.BC_FW_STAT_STAGE = 3 ∧ t.get F.BC_FW_STAT_LAST_SWAP = 2 ∧ t.get F.BC_ABSENCE = us ∧ t.get F.BC_EVENT_SWAP_REVERTED = 1 ∧
      t.bc = { s.bc with swap := none } ∧ t.get F.BC_FW_VER = s.get F.BC_FW_VER ∧
      t.fa = { s.fa with kickAge := s.fa.kickAge.map fun _ => 0 } ∧ t = { s with regs := t.regs, bc := t.bc, fa := t.fa } ∧
      RegsKept [F.BC_FW_STAT_STAGE.at, F.BC_FW_STAT_LAST_SWAP.at, F.BC_ABSENCE.word, F.BC_EVENT_SWAP_REVERTED.at, F.MP_STATUS_FW_READY.at]
        s t)) ∧
  (∀ k : Pkt, Takes s k →
    (∀ off bs, off % 16 = 0 → bs.length % 16 = 0 → 16 ≤ bs.length → bs.length ≤ 4080 → off + bs.length ≤ 196608 →
      k.params = toLE 4 off ++ bs →
      (s.get F.BC_FW_STAT_STAGE ≠ 2 → s.get F.BC_FW_STAT_STAGE ≠ 5 → Gives (.fwLoad k) s fun t =>
        Served ([F.BC_FW_STAT_STAGE.at, F.BC_STAGE_VER.word, F.BC_STAGE_LEN.word] ++ (List.range 8).map fun j => F.BC_STAGE_DIGEST.word j)
          s t k St.ok [] ∧
        t.get F.BC_FW_STAT_STAGE = 1 ∧ t.bc.loaded = max s.bc.loaded (off + bs.length) ∧ stageBytes t off bs.length = bs ∧
        t.bc = { s.bc with stage := t.bc.stage, loaded := t.bc.loaded } ∧ t = { s with regs := t.regs, mp := t.mp, ch := t.ch, bc := t.bc }) ∧
      (s.get F.BC_FW_STAT_STAGE = 2 ∨ s.get F.BC_FW_STAT_STAGE = 5 → Gives (.fwLoad k) s fun t =>
        Served [] s t k St.wrongState [] ∧ BusOnly s t)) ∧
    (k.params = [] →
      (s.get F.BC_FW_STAT_STAGE = 1 ∨ s.get F.BC_FW_STAT_STAGE = 3 ∨ s.get F.BC_FW_STAT_STAGE = 4 → Gives (.fwVerify k) s fun t =>
        Served ([F.BC_FW_STAT_STAGE.at, F.BC_STAGE_VER.word, F.BC_STAGE_LEN.word] ++ (List.range 8).map fun j => F.BC_STAGE_DIGEST.word j)
          s t k St.ok [] ∧
        t.get F.BC_FW_STAT_STAGE = 2 ∧ BusOnly s t) ∧
      (s.get F.BC_FW_STAT_STAGE = 0 → Gives (.fwVerify k) s fun t => Served [] s t k St.wrongState [] ∧ BusOnly s t) ∧
      (Gives (.fwStatus k) s fun t =>
        Served [] s t k St.ok (toLE 4 (s.get F.BC_FW_VER) ++ [BitVec.ofNat 8 (s.get F.BC_FW_STAT_SOURCE),
          BitVec.ofNat 8 (s.get F.BC_FW_STAT_STAGE), BitVec.ofNat 8 (s.get F.BC_FW_STAT_RESULT)] ++ toLE 4 (s.get F.BC_STAGE_VER) ++
          toLE 4 (s.get F.BC_STAGE_LEN) ++ (List.range 8).flatMap (fun j => toLE 4 (s.get F.BC_STAGE_DIGEST j)) ++
          [BitVec.ofNat 8 (s.get F.BC_FW_STAT_LAST_SWAP)] ++ toLE 4 (s.get F.BC_ABSENCE)) ∧ BusOnly s t)) ∧
    (∀ fl : Byte, k.params = [fl] → fl.toNat < 2 → s.locked 16 = false → s.bc.takeover = none →
      (s.get F.BC_FW_STAT_STAGE = 3 → (byteAt (stageBytes s 0 64) 17) ≤ stepping s → stepping s ≤ byteAt (stageBytes s 0 64) 18 →
        (s.get F.BC_FW_VER ≤ s.get F.BC_STAGE_VER ∨ fl.toNat = 1) → Gives (.fwActivate k) s fun t =>
          Served [F.BC_FW_STAT_STAGE.at] s t k St.ok [] ∧ t.get F.BC_FW_STAT_STAGE = 5 ∧
          t.bc = { s.bc with swap := some { absent := false } } ∧ t = { s with regs := t.regs, mp := t.mp, ch := t.ch, bc := t.bc }) ∧
      (s.get F.BC_FW_STAT_STAGE = 3 → s.get F.BC_STAGE_VER < s.get F.BC_FW_VER → fl.toNat = 0 → Gives (.fwActivate k) s fun t =>
        Served [] s t k St.range [] ∧ BusOnly s t) ∧
      (s.get F.BC_FW_STAT_STAGE = 4 → s.get F.BC_FW_STAT_RESULT = St.sigFail → Gives (.fwActivate k) s fun t =>
        Served [] s t k St.sigFail [] ∧ BusOnly s t) ∧
      (s.get F.BC_FW_STAT_STAGE = 1 → Gives (.fwActivate k) s fun t => Served [] s t k St.wrongState [] ∧ BusOnly s t)))

/-- R625, R627–R631, R635, Table 17.5: a request to the bus matrix: one to an address that no block gives a register or
memory is an error, any other waits; in the cycle's end an idle target grants its parked master, and else it arbitrates; a
granted write of working SRAM stores its bytes; REMAP. Model's choices: when a request is decoded and how it waits:
notes/assumptions/83; content never written: notes/assumptions/10. -/
def Obligations.BusMatrix : Prop := ∀ s : State, s.Awake →
  (∀ r : BusReq, r.m.val < 5 → coreRuns s r.m = false → Gives (.busRequest r) s fun t => t = s) ∧
  (∀ r : BusReq, r.m.val ≠ 5 → (r.m.val < 5 → coreRuns s r.m = true) → busTarget s r.addr.toNat = none → Gives (.busRequest r) s fun t =>
    ∃ u v, t = settle v ∧ v = raise u 20 r.m ∧ u.get F.BM_ERR_ADDR = r.addr.toNat ∧ u.get F.BM_ERR_INFO_MASTER = r.m ∧
    u.get F.BM_ERR_INFO_TARGET = 7 ∧ u.get F.BM_ERR_INFO_ID = r.id.toNat ∧ u.get F.BM_ERR_INFO_WRITE = b2n r.data.isSome ∧
    u.get F.BM_EVENT_DECODE_ERR = 1 ∧ Only [F.BM_ERR_ADDR.word, F.BM_ERR_INFO.word, F.BM_EVENT_DECODE_ERR.at] s u) ∧
  (∀ r : BusReq, (r.m.val < 5 → coreRuns s r.m = true) → splitReq s r = [r] → busFault s r = none → r.room = true →
    { r with room := false } ∉ s.bm.waiting → Gives (.busRequest r) s fun t =>
      t = { s with bm.waiting := s.bm.waiting ++ [r], bm.asked := s.bm.asked + 1 }) ∧
  (∀ (r : BusReq) tgt, s.bm.waiting = [r] → busTarget s r.addr.toNat = some tgt → busHeldBack s tgt r = false → busFull s r = false →
    busBusy s tgt = 0 →
      (busParked s tgt = r.m.val → 1 ≤ s.bm.asked →
        parkGrant s tgt = busGrant { s with bm.waiting := [], bm.asked := s.bm.asked - 1 } tgt r) ∧
      (busParked s tgt ≠ r.m.val → parkGrant s tgt = s) ∧
      arbitrate s tgt = busGrant { s with bm.waiting := [] } tgt r) ∧
  (∀ (r : BusReq) (w : List Word) t off, busTarget s r.addr.toNat = some 1 → splitReq s r = [r] → busFault s r = none → r.data = some w →
    w.length = 4 * (r.beats.val + 1) → t = busGrant s 1 r →
    off = (r.addr.toNat - (if s.on F.BM_CTRL_REMAP then 0 else 0x10000000)) / 16 * 16 →
      t.bm.out = s.bm.out ++ [{ m := r.m, id := r.id.toNat, target := 1, left := busLatency 1 + r.beats.val + 1 }] ∧
      t.get F.BM_OUTST_NOW = (s.bm.out.length + 1) % 2 ^ F.BM_OUTST_NOW.w ∧ busBusy t 1 = r.beats.val + 1 ∧ busLost t 1 r.m = 0 ∧
      (∀ i, i < 4 * w.length → SMap.get byteDflt t.bm.sram (off + i) = (w.flatMap fun x => toLE 4 x.toNat).getD i 0) ∧
      (∀ a, (∀ i, i < 4 * w.length → a ≠ off + i) → SMap.get byteDflt t.bm.sram a = SMap.get byteDflt s.bm.sram a) ∧
      t = { s with regs := t.regs, bm := t.bm, fa.badWords := t.fa.badWords } ∧ RegsKept [F.BM_OUTST.word] s t) ∧
  (∀ on, Gives (.remap on) s fun t => t.get F.BM_CTRL_REMAP = b2n on ∧ Only [F.BM_CTRL_REMAP.at] s t)

/-- R636–R641, Table 17.6: interrupts: edges and levels become pending; one that a core can accept is delivered to it, served
until its end, and holds its group off; a source whose group is held off waits; level and edge sources after their end.
Model's choices: the enables of the cores come with INTERRUPT_DELIVERY: notes/assumptions/86; HOLDOFF_END:
notes/assumptions/3. -/
def Obligations.Interrupts : Prop := ∀ s : State, s.Awake →
  (∀ h : Fin 96,
    (isEdge h = true → s.ic.pend.testBit h = false → inService s h = false → Gives (.interruptAssert h) s fun t =>
      t.ic = { s.ic with pend := s.ic.pend ||| 2 ^ h.val, edge := s.ic.edge ||| 2 ^ h.val } ∧ t = { s with ic := t.ic }) ∧
    (isEdge h = true → s.ic.pend.testBit h = true ∨ inService s h = true → Gives (.interruptAssert h) s fun t =>
      t.ic = { s.ic with edge := s.ic.edge ||| 2 ^ h.val, again := s.ic.again ||| 2 ^ h.val } ∧ t = { s with ic := t.ic }) ∧
    (isEdge h = false → srcActive s h = true → inService s h = false → Gives (.interruptAssert h) s fun t =>
      t.ic.pend = s.ic.pend ||| 2 ^ h.val ∧ t = { s with ic := { s.ic with pend := t.ic.pend } }) ∧
    (isEdge h = false → srcActive s h = false → Gives (.interruptAssert h) s fun t => t = s)) ∧
  (∀ (h : Fin 96) (n : Fin 5) (ie : BitVec 5), s.ic.pend = 2 ^ h.val → (∀ x, x < 96 → isEdge x = false → srcActive s x = true → x = h.val) →
    s.get F.IC_ROUTE_CORES h = 2 ^ n.val → coreState s n = 0 → coreState s 4 ≠ 2 → ie.getLsbD n = true →
    s.get F.IC_CORE_RUNPRIO n < s.get F.IC_GCFG_PRIO (h / 8) →
    (holding s (h / 8) = 0 → (icStack s n).length < 15 → Gives (.interruptDelivery ie) s fun t =>
      t.ic.pend = 0 ∧ t.ic.edge.testBit h = false ∧ icStack t n = (h.val, s.get F.IC_GCFG_PRIO (h / 8)) :: icStack s n ∧
      t.get F.IC_CORE_RUNPRIO n = s.get F.IC_GCFG_PRIO (h / 8) ∧ t.get F.IC_CORE_INNER n = h ∧
      t.get F.IC_CORE_DEPTH n = (icStack s n).length + 1 ∧ t.get F.IC_ROUTE_LAST h = n ∧
      SMap.get (fun _ => 0) (t.ic.vector) n = (s.get F.IC_VBASE_BASE * 2 ^ 12 + 16 * h) % 2 ^ 32 ∧
      t.get F.IC_GCNT_DELIVERED (h / 8) = min (s.get F.IC_GCNT_DELIVERED (h / 8) + 1) 65535 ∧
      holding t (h / 8) = 400 * s.get F.IC_GCFG_HOLDOFF (h / 8) ∧ t = { s with regs := t.regs, ic := t.ic } ∧
      RegsKept ([F.IC_CORE.word n, F.IC_ROUTE_LAST.at h, F.IC_GCNT_DELIVERED.at (h / 8)] ++ (List.range 5).map fun i => F.IC_CORE_IE.at i) s t) ∧
    (0 < holding s (h / 8) → Gives (.interruptDelivery ie) s fun t =>
      t = { s with regs := t.regs } ∧ RegsKept ((List.range 5).map fun i => F.IC_CORE_IE.at i) s t)) ∧
  (∀ y : Fin 12, 1 ≤ holding s y → Calm s (holding s y) → Gives (.holdoffEnd y) s fun t => ∃ u, t = settle u ∧
    u.cyc = s.cyc + holding s y ∧ holding u y = 0) ∧
  (∀ (n : Fin 5) (h : BitVec 7) e l, icStack s n = e :: l →
    (e.1 ≠ h.toNat → Gives (.icEoi n h) s fun t => t = s) ∧
    (e.1 = h.toNat → e.1 < 96 → l.length < 16 → (∀ x ∈ l, x.1 < 128 ∧ x.2 < 16) → Gives (.icEoi n h) s fun t =>
      icStack t n = l ∧ t.get F.IC_CORE_DEPTH n = l.length ∧ t.get F.IC_CORE_RUNPRIO n = (l.headD (0x7F, 0)).2 ∧
      t.get F.IC_CORE_INNER n = (l.headD (0x7F, 0)).1 ∧ t = { s with regs := t.regs, ic := t.ic } ∧ RegsKept [F.IC_CORE.word n] s t ∧
      (isEdge h.toNat = true → t.ic.pend.testBit h.toNat = (s.ic.pend.testBit h.toNat || s.ic.again.testBit h.toNat)) ∧
      (isEdge h.toNat = false → srcActive s h.toNat = true → inService t h.toNat = false → t.ic.pend.testBit h.toNat = true))) ∧
  (∀ m : BitVec 4, Gives (.icSwi m) s fun t =>
    (∀ i : Fin 4, (m.getLsbD i = true → t.ic.edge.testBit (76 + i) = true ∧
        (t.ic.pend.testBit (76 + i) = (s.ic.pend.testBit (76 + i) || !inService s (76 + i))) ∧
        (t.ic.again.testBit (76 + i) = (s.ic.again.testBit (76 + i) || s.ic.pend.testBit (76 + i) || inService s (76 + i)))) ∧
      (m.getLsbD i = false → t.ic.pend.testBit (76 + i) = s.ic.pend.testBit (76 + i))) ∧
    t = { s with regs := t.regs, ic := t.ic } ∧ RegsKept [] s t)

/-- R665, R666, R671, R682, Tables 18.3, 18.4, 18.7: an occurrence opens with its class and reactions; it escalates one level
where another of its class is open; a repeat is logged and does not escalate; a second fatal one forces a chip reset; and a
level source raises once while its condition lasts; a memory error stands in the word it was found in. Model's choices: a
reset is entered at the end of the command: notes/assumptions/7; raises of one cycle: notes/assumptions/109; the word a
memory error stands in: notes/assumptions/110. -/
def Obligations.FaultOccurrences : Prop := ∀ (s : State) (z : Fin 23) (info : Word) (inj : Bool), s.Awake →
  z.val ∉ [7, 8, 15, 16, 17, 22] →
  (s.isOpen z = false → s.otherOpen z (s.get F.FA_SRC_CFG_CLASS z) = false → s.get F.FA_SRC_CFG_RX z &&& 0x1E = 0 →
    s.get F.FA_SRC_CFG_CLASS z < 3 → Gives (.faultRaise z info none inj) s fun t =>
      (∀ y, y < 23 → t.isOpen y = (s.isOpen y || y == z.val)) ∧ t.effCls z = s.get F.FA_SRC_CFG_CLASS z ∧
      t.effRx z = s.get F.FA_SRC_CFG_RX z ∧ t.get F.FA_SRC_INFO z = info.toNat ∧ t.get F.FA_SRC_TIME z = s.frameTotal ∧
      t.get F.FA_SRC_CNT_OCCURRENCES z = min (s.get F.FA_SRC_CNT_OCCURRENCES z + 1) 65535 ∧
      t.get F.FA_SRC_CNT_ESCALATIONS z = s.get F.FA_SRC_CNT_ESCALATIONS z ∧ t.get F.FA_ESC = s.get F.FA_ESC ∧
      LogsOne s t 0x01 z info.toNat inj false ∧ t = { s with regs := t.regs, fa := t.fa } ∧ RegsKept (logFields ++ sourceFields z) s t) ∧
  (s.isOpen z = false → s.get F.FA_SRC_CFG_CLASS z < 2 → s.otherOpen z (s.get F.FA_SRC_CFG_CLASS z) = true →
    s.otherOpen z 2 = false → ∀ rx, rx = s.get F.FA_SRC_CFG_RX z ||| s.get F.FA_CLASS_RX_RX (s.get F.FA_SRC_CFG_CLASS z) → rx &&& 0x1E = 0 →
      Gives (.faultRaise z info none inj) s fun t =>
        t.isOpen z = true ∧ t.effCls z = s.get F.FA_SRC_CFG_CLASS z + 1 ∧ t.effRx z = rx ∧ (t.get F.FA_ESC).testBit z = true ∧
        t.get F.FA_SRC_CNT_ESCALATIONS z = min (s.get F.FA_SRC_CNT_ESCALATIONS z + 1) 65535 ∧ LogsOne s t 0x01 z info.toNat inj true ∧
        t = { s with regs := t.regs, fa := t.fa } ∧ RegsKept (logFields ++ sourceFields z) s t) ∧
  (∀ row w : Nat, z.val ≤ 5 → s.isOpen z = false → s.otherOpen z (s.get F.FA_SRC_CFG_CLASS z) = false →
    s.get F.FA_SRC_CFG_RX z &&& 0x1E = 0 → s.get F.FA_SRC_CFG_CLASS z < 3 → s.on F.FA_CTRL_AUTO_ROW = false →
    Gives (.faultRaise z info (some (row, w)) false) s fun t =>
      t.isOpen z = true ∧ LogsOne s t 0x01 z info.toNat false false ∧
      (∀ a, rowWord (z.val / 2) row w = some a → SMap.get (fun _ => 0) t.fa.badWords a = z.val % 2 + 1) ∧
      t.fa.remapping = s.fa.remapping ∧ t = { s with regs := t.regs, fa := t.fa } ∧ RegsKept (logFields ++ sourceFields z) s t) ∧
  (s.isOpen z = true → s.get F.FA_SRC_CFG_RX z &&& 0x1E = 0 → Gives (.faultRaise z info none inj) s fun t =>
    (∀ y, y < 23 → t.isOpen y = s.isOpen y) ∧ t.effCls z = s.effCls z ∧ t.effRx z = s.effRx z ∧
    t.get F.FA_SRC_CNT_OCCURRENCES z = min (s.get F.FA_SRC_CNT_OCCURRENCES z + 1) 65535 ∧
    t.get F.FA_SRC_CNT_ESCALATIONS z = s.get F.FA_SRC_CNT_ESCALATIONS z ∧ LogsOne s t 0x02 z info.toNat inj false ∧
    t = { s with regs := t.regs, fa := t.fa }) ∧
  (s.isOpen z = false → s.get F.FA_SRC_CFG_CLASS z = 2 → s.otherOpen z 2 = true → s.get F.FA_SRC_CFG_RX z &&& 0x1E = 0 →
    Gives (.faultRaise z info none inj) s fun t =>
      t.chip.held = true ∧ t.get F.FA_GSTAT_LAST_RESET = 5 ∧ t.get F.FA_GSTAT_CAUSE_Z = z) ∧
  (s.isOpen z = false → s.otherOpen z (s.get F.FA_SRC_CFG_CLASS z) = false → s.get F.FA_SRC_CFG_RX z &&& 0x1E = 8 →
    Gives (.faultRaise z info none inj) s fun t =>
      t.chip.held = true ∧ t.get F.FA_GSTAT_LAST_RESET = 4 ∧ t.get F.FA_GSTAT_CAUSE_Z = z) ∧
  (∀ y : Fin 23, y.val ∈ [15, 16, 17, 22] →
    (s.fa.level.testBit y = true → Gives (.faultRaise y info none inj) s fun t => t = conditionBegins s y info.toNat) ∧
    (s.fa.level.testBit y = false → s.isOpen y = false → s.otherOpen y (s.get F.FA_SRC_CFG_CLASS y) = false →
      s.get F.FA_SRC_CFG_RX y &&& 0x1E = 0 → s.get F.FA_SRC_CFG_CLASS y < 3 → Gives (.faultRaise y info none inj) s fun t =>
        t.isOpen y = true ∧ t.fa.level.testBit y = true ∧ t.chip = (conditionBegins s y info.toNat).chip ∧
        LogsOne s t 0x01 y info.toNat false false))

/-- R672–R675, R684, R685, Tables 18.5A, 18.9: occurrences acknowledged by register, by command and by themselves; the kick,
its loss and ALIVE, which toggles, stops and resumes; the counters cleared; FA_STATUS. Model's choices: the rows that name a
moment: notes/assumptions/3; the first kick and the order of the log: notes/assumptions/87. -/
def Obligations.AcknowledgeAndAlive : Prop := ∀ s : State,
  (s.Awake →
    (∀ m : Word, Gives (.faultAckWrite m) s fun t =>
      (∀ z, z < 23 → t.isOpen z = (s.isOpen z && !m.getLsbD z) ∧
        (t.get F.FA_ESC).testBit z = ((s.get F.FA_ESC).testBit z && !(s.isOpen z && m.getLsbD z))) ∧
      t = { s with regs := t.regs, fa := t.fa } ∧ RegsKept (logFields ++ [F.FA_OPEN.word, F.FA_ESC.word]) s t) ∧
    (∀ z : Fin 23, autoAckDue s z = true → Gives (.autoAck z) s fun t =>
      t.isOpen z = false ∧ (∀ y, y < 23 → y ≠ z.val → t.isOpen y = s.isOpen y) ∧ (t.get F.FA_ESC).testBit z = false ∧
      LogsOne s t 0x03 z 1 ∧ t = { s with regs := t.regs, fa := t.fa } ∧ RegsKept (logFields ++ [F.FA_OPEN.word, F.FA_ESC.word]) s t) ∧
    (∀ v : Word, Gives (.kick v) s fun t =>
      t.reg F.FA_KICK.addr = v ∧ t.fa.kickAge = some 0 ∧
      (s.fa.kickAge = none → s.fa.alive = .waiting → s.healthGood = true → t.fa.alive = .toggling ∧ t.fa.aliveLeft = 200000) ∧
      (s.fa.kickAge ≠ none ∨ s.fa.alive ≠ .waiting ∨ s.healthGood = false → t.fa = { s.fa with kickAge := some 0 }) ∧
      t = { s with regs := t.regs, fa := t.fa } ∧ RegsKept [F.FA_KICK.word] s t) ∧
    (∀ d, toKickLost s = some d → d ≤ frameLeft s → s.bm.waiting = [] → NoWrites s → Gives .fwKickLost s fun t => ∃ u, t = settle u ∧
      u.cyc = s.cyc + d ∧ u.isOpen 19 = true ∧ u.fa.alive ≠ .toggling ∧ u.fa.kickAge = some 8000001 ∧
      u.get F.FA_SRC_CNT_OCCURRENCES 19 = min (s.get F.FA_SRC_CNT_OCCURRENCES 19 + 1) 65535) ∧
    (s.fa.alive = .toggling → 1 ≤ s.fa.aliveLeft → s.tapOwns = false → Calm s s.fa.aliveLeft →
      Gives .aliveToggle s fun t => ∃ u, t = settle u ∧
        u.fa.aliveLevel = !s.fa.aliveLevel ∧ u.fa.aliveLeft = 200000 ∧ u.fa.alive = .toggling ∧ u.cyc = s.cyc + s.fa.aliveLeft) ∧
    (Gives .faCntClr s fun t => (∀ z, z < 23 → t.get F.FA_SRC_CNT z = 0) ∧ t.get F.FA_LOG_LOST = 0 ∧
      Only (F.FA_LOG_LOST.word :: (List.range 23).map fun z => F.FA_SRC_CNT.word z) s t)) ∧
  (∀ k : Pkt, Takes s k →
    (∀ m : Word, k.params = toLE 4 m.toNat →
      (m.toNat < 2 ^ 23 → Gives (.faAck k) s fun t =>
        Served (logFields ++ [F.FA_OPEN.word, F.FA_ESC.word]) s t k St.ok (toLE 4 (t.get F.FA_OPEN)) ∧
        (∀ z, z < 23 → t.isOpen z = (s.isOpen z && !m.getLsbD z)) ∧ t = { s with regs := t.regs, mp := t.mp, ch := t.ch, fa := t.fa }) ∧
      (2 ^ 23 ≤ m.toNat → Gives (.faAck k) s fun t => Served [] s t k St.badParam [] ∧ BusOnly s t)) ∧
    (k.params = [] →
      (Gives (.faStatus k) s fun t =>
        Served [] s t k St.ok (toLE 4 (s.get F.FA_OPEN) ++ toLE 4 (s.get F.FA_ESC) ++ toLE 4 (gstatWord s) ++ toLE 4 (s.get F.FA_LOG_SEQ)) ∧
        BusOnly s t) ∧
      (s.healthGood = true → s.fa.alive = .stopped → s.kickSatisfied = true → Gives (.faAliveResume k) s fun t =>
        Served logFields s t k St.ok [] ∧ t.fa.alive = .toggling ∧ t.fa.aliveLeft = 200000 ∧ LogsOne s t 0x09 0 0 ∧
        t = { s with regs := t.regs, mp := t.mp, ch := t.ch, fa := t.fa }) ∧
      (s.healthGood = false → Gives (.faAliveResume k) s fun t => Served [] s t k St.faultActive [] ∧ BusOnly s t) ∧
      (s.healthGood = true → s.fa.alive ≠ .stopped → Gives (.faAliveResume k) s fun t =>
        Served [] s t k St.wrongState [] ∧ BusOnly s t)))

/-- R676, R678–R680, R683, R684, R695, Tables 18.5, 18.6: paired inputs, that fall back on disagreement and agree again; Jigs
armed; rows remapped by command, and the end of a remap. A written PAIR_CFG acts at the coming tick, with that tick's sample.
Model's choices: RP_ROW_REMAP answers when the remap has started: notes/assumptions/88; the sample of a row is that of the
coming tick: notes/assumptions/107. -/
def Obligations.PairsAndRepair : Prop := ∀ s : State,
  (s.Awake →
    (∀ (i : Fin 4) (a b : Bool), s.get F.PAIR_CFG_D i ≠ 0 → s.fa.pairWritten.testBit i = false → s.fa.pairJudged.testBit i = false →
      ∀ fa, fa = { s.fa with pairJudged := s.fa.pairJudged ||| 2 ^ i.val } →
      (pairAgrees s i a b = false → s.get F.PAIR_STAT_STATE i < 2 →
        (if s.get F.PAIR_STAT_STATE i = 0 then 0 else s.get F.PAIR_STAT_COUNT i) + 1 = s.get F.PAIR_CFG_D i → Gives (.pairDisc i a b) s fun t =>
          ∃ u, t = settle (raise u 21 i) ∧ u.get F.PAIR_STAT_STATE i = 2 ∧ u.get F.PAIR_STAT_COUNT i = 0 ∧
          u.get F.PAIR_STAT_AGREED i = s.get F.PAIR_STAT_AGREED i ∧ u.get F.PAIR_STAT_A i = b2n a ∧ u.get F.PAIR_STAT_B i = b2n b ∧
          u.get F.PAIR_CNT_DISC i = min (s.get F.PAIR_CNT_DISC i + 1) 65535 ∧
          u = { s with regs := u.regs, fa := fa } ∧ RegsKept [F.PAIR_STAT.word i, F.PAIR_CNT_DISC.at i] s u) ∧
      (pairAgrees s i a b = true → s.get F.PAIR_STAT_STATE i = 2 → s.get F.PAIR_STAT_COUNT i + 1 = s.get F.PAIR_CFG_D i →
        Gives (.pairAgree i a b) s fun t =>
          t.get F.PAIR_STAT_STATE i = 0 ∧ t.get F.PAIR_STAT_COUNT i = 0 ∧ t.get F.PAIR_STAT_AGREED i = b2n a ∧
          t.get F.PAIR_CNT_CHANGES i = (if s.on F.PAIR_STAT_AGREED i = a then s.get F.PAIR_CNT_CHANGES i
            else min (s.get F.PAIR_CNT_CHANGES i + 1) 65535) ∧
          (vselPair s i = false → t.cf = s.cf) ∧ (vselPair s i = true → (t.cacheX i).due = true) ∧
          t = { s with regs := t.regs, cf := t.cf, fa := fa } ∧ RegsKept [F.PAIR_STAT.word i, F.PAIR_CNT_CHANGES.at i] s t)) ∧
    (∀ i : Fin 4, s.fa.pairWritten.testBit i = true → ∀ u, u = pairFlush s i →
      u.get F.PAIR_STAT_STATE i = 2 ∧ u.get F.PAIR_STAT_COUNT i = 0 ∧ u.fa.pairWritten.testBit i = false ∧
      (∀ y, y ≠ i.val → u.fa.pairWritten.testBit y = s.fa.pairWritten.testBit y) ∧
      u = { s with regs := u.regs, fa.pairWritten := u.fa.pairWritten } ∧
      RegsKept [F.PAIR_STAT_STATE.at i, F.PAIR_STAT_COUNT.at i] s u) ∧
    (∀ (i : Fin 4) (a b : Bool), s.fa.pairJudged.testBit i = true →
      Gives (.pairDisc i a b) s (fun t => t = s) ∧ Gives (.pairAgree i a b) s (fun t => t = s) ∧
      pairTurn s i a b = { s with fa.pairJudged := s.fa.pairJudged - 2 ^ i.val }) ∧
    (s.locked 20 = false → ∀ (i : Fin 4) (v : Word),
      (v.toNat % 65536 ≠ 0 → v.toNat &&& 0x3FFE0000 = 0 → Gives (.pairCfgWrite i v) s fun t =>
        t.reg (F.PAIR_CFG.addr i) = v ∧ pairState t i = 2 ∧
        t = { s with regs := t.regs, fa.pairWritten := s.fa.pairWritten ||| 2 ^ i.val } ∧ RegsKept [F.PAIR_CFG.word i] s t) ∧
      (v.toNat % 65536 = 0 → Gives (.pairCfgWrite i v) s fun t => t = s)) ∧
    (∀ r row spare rest, s.fa.remapping = (r, row, spare) :: rest → r < 3 → row < 1024 → spare < 64 → Gives .rowRemap s fun t =>
      t.fa.remapping = rest ∧ t.fa.remaps = s.fa.remaps ++ [(r, row, spare)] ∧ LogsOne s t 0x10 r (spare * 1024 + row) ∧
      t = { s with regs := t.regs, fa := t.fa } ∧ RegsKept logFields s t)) ∧
  (∀ k : Pkt, Takes s k → ∀ (j n : Byte) m, m < 65536 → k.params = [j, n] ++ toLE 2 m →
    (j.toNat ≤ 13 → m ≠ 0 → m < 2 ^ jigBits j.toNat → (j.toNat ≤ 6 → popCount 16 m % 2 = 0 ∨ popCount 16 m = 1) →
      (s.get F.FA_CTRL_JIG_EN = 1 → Gives (.jigArm k) s fun t =>
        Served (logFields ++ [F.FA_JIG.word j.toNat]) s t k St.ok [BitVec.ofNat 8 (s.get F.FA_JIG_LEFT j.toNat)] ∧
        t.get F.FA_JIG_LEFT j.toNat = n.toNat ∧ t.get F.FA_JIG_MASK j.toNat = m ∧ LogsOne s t 0x20 j.toNat (n.toNat * 256 + m % 256) ∧
        t = { s with regs := t.regs, mp := t.mp, ch := t.ch, fa := t.fa }) ∧
      (s.get F.FA_CTRL_JIG_EN = 0 → Gives (.jigArm k) s fun t => Served [] s t k St.wrongState [] ∧ BusOnly s t)) ∧
    (13 < j.toNat ∨ (n ≠ 0 ∧ m = 0) → Gives (.jigArm k) s fun t => Served [] s t k St.badParam [] ∧ BusOnly s t)) ∧
  (∀ (k : Pkt) (f : Nat), TakesFw s k f → ∀ (g : Byte) row, row < 65536 → k.params = g :: toLE 2 row →
    (g.toNat < 3 → row < regionRows g.toNat → s.rowTaken g.toNat row = false → 0 < s.spareRows g.toNat →
      s.spareRows g.toNat ≤ spareTotal g.toNat → Gives (.rpRowRemap k (some f)) s fun t =>
        FwServed f [F.FA_RP_ROWS.word] s t k St.ok [BitVec.ofNat 8 (spareTotal g.toNat - s.spareRows g.toNat)] ∧
        t.spareRows g.toNat = s.spareRows g.toNat - 1 ∧
        t.fa.remapping = s.fa.remapping ++ [(g.toNat, row, spareTotal g.toNat - s.spareRows g.toNat)] ∧
        t = { s with regs := t.regs, mp := t.mp, ch := t.ch, fa.remapping := t.fa.remapping }) ∧
    (g.toNat < 3 → regionRows g.toNat ≤ row → Gives (.rpRowRemap k (some f)) s fun t => FwServed f [] s t k St.range [] ∧ BusOnly s t) ∧
    (g.toNat < 3 → row < regionRows g.toNat → s.spareRows g.toNat = 0 → Gives (.rpRowRemap k (some f)) s fun t =>
      FwServed f [] s t k St.wrongState [] ∧ BusOnly s t))

/-- A step takes the command at the front of the queue and carries it out on the state with the queue's rest; with an empty
queue it passes one cycle of FCLK (the model's own choice: notes/assumptions/1). Model's choices: the queue is the model, and
what an empty queue does is notes/assumptions/1. -/
def Obligations.StepTakesFront : Prop :=
  (∀ (s : State) c rest, s.pending = c :: rest → step s = exec c { s with pending := rest }) ∧
  (∀ s : State, s.pending = [] → step s = .next (idle s))

/-- R55, R669, R701: a command that begins with no reset asked for leaves none behind: a chip reset that a fault asks for is
entered by the end of the command that raised it. Model's choices: a reset is entered at the end of the command:
notes/assumptions/7. -/
def Obligations.ResetsAreEntered : Prop := ∀ s t : State, s.chip.resetDue = none → step s = .next t → t.chip.resetDue = none

/-- Every step keeps the register store, the records of the ports, working SRAM and the cell pool in their canonical form, so
that equal contents are equal data. Model's choices: the form is that of the model: notes/assumptions/10. -/
def Obligations.StoresStayCanonical : Prop := ∀ s t : State, s.Canon → step s = .next t → t.Canon

/-- R55, R185: the state after reset is canonical, runs, asks for no reset, has no command waiting and no block locked, and
every register but TG_HASH_OWN, which shows the unit's own UID, reads its reset value. Model's choices: the unique ID and the
reset values the spec does not state: notes/assumptions/8 and 12. -/
def Obligations.ResetIsSound : Prop :=
  State.reset.Canon ∧ State.reset.Awake ∧ State.reset.pending = [] ∧ State.reset.locks = 0 ∧
  (∀ a, a ≠ 0x400B0004 → State.reset.reg a = resetWord a) ∧ State.reset.get F.TG_HASH_OWN_HASH = uidHash State.reset.otp.uid
end

