-- ==== Sys2Proof/Laws/SMap.lean ====
section
/-!
SUPPORT. Laws/SMap.lean: a read after a write gives the value written, a write leaves every other key alone, and every
operation keeps the canonical form.
-/
namespace Sys2Proof.Machine.SMap

variable {α : Type}

/-! ### Reads -/

@[simp] theorem get_erase_same (d : Nat → α) (m : List (Nat × α)) (k : Nat) : get d (erase k m) k = d k := by
  induction m with
  | nil => rfl
  | cons e m ih =>
    by_cases h : e.1 = k
    · simp [erase, h, ih]
    · simp [erase, get, h, ih]

theorem get_erase_other (d : Nat → α) (m : List (Nat × α)) {k j : Nat} (h : j ≠ k) :
    get d (erase k m) j = get d m j := by
  induction m with
  | nil => rfl
  | cons e m ih =>
    by_cases h1 : e.1 = k
    · have h2 : ¬ e.1 = j := fun x => h (x ▸ h1)
      simp [erase, get, h1, ih]
      intro x
      exact absurd (h1.trans x) h2
    · simp [erase, get, h1, ih]

theorem get_insert_other (d : Nat → α) (m : List (Nat × α)) {k j : Nat} (v : α) (h : j ≠ k) :
    get d (insert k v m) j = get d m j := by
  have hk : ¬ k = j := fun x => h x.symm
  induction m with
  | nil => simp [insert, get, hk]
  | cons e m ih =>
    by_cases h1 : k < e.1
    · simp [insert, get, h1, hk]
    · simp [insert, get, h1, ih]

theorem get_insert_erase (d : Nat → α) (m : List (Nat × α)) (k : Nat) (v : α) :
    get d (insert k v (erase k m)) k = v := by
  induction m with
  | nil => simp [insert, erase, get]
  | cons e m ih =>
    by_cases h1 : e.1 = k
    · simp [erase, h1, ih]
    · by_cases h2 : k < e.1
      · simp [erase, insert, get, h1, h2]
      · simp [erase, insert, get, h1, h2, ih]

variable [DecidableEq α]

@[simp] theorem get_set_same (d : Nat → α) (m : List (Nat × α)) (k : Nat) (v : α) : get d (set d m k v) k = v := by
  by_cases h : v = d k
  · simp [set, h]
  · simp [set, h, get_insert_erase]

theorem get_set_other (d : Nat → α) (m : List (Nat × α)) {k j : Nat} (v : α) (h : j ≠ k) :
    get d (set d m k v) j = get d m j := by
  by_cases h1 : v = d k
  · simp [set, h1, get_erase_other d m h]
  · simp [set, h1, get_insert_other d _ v h, get_erase_other d m h]

theorem get_set (d : Nat → α) (m : List (Nat × α)) (k j : Nat) (v : α) :
    get d (set d m k v) j = if j = k then v else get d m j := by
  by_cases h : j = k
  · subst h; simp
  · simp [h, get_set_other d m v h]

omit [DecidableEq α] in
theorem get_restrict (d : Nat → α) (keep : Nat → Bool) (m : List (Nat × α)) (j : Nat) :
    get d (restrict keep m) j = if keep j then get d m j else d j := by
  induction m with
  | nil => simp [restrict, get]
  | cons e m ih =>
    by_cases h : keep e.1 <;> by_cases hj : e.1 = j
    · subst hj; simp [restrict, get, h]
    · simp [restrict, get, h, hj, ih]
    · subst hj; simp [restrict, h, ih]
    · simp [restrict, get, h, hj, ih]

/-! ### The canonical form -/

omit [DecidableEq α] in
theorem risingFrom_mono {lo lo' : Nat} {m : List (Nat × α)} (h : lo' ≤ lo) (hm : risingFrom lo m = true) :
    risingFrom lo' m = true := by
  cases m with
  | nil => rfl
  | cons e m =>
    simp only [risingFrom, Bool.and_eq_true, Nat.ble_eq] at hm ⊢
    exact ⟨h.trans hm.1, hm.2⟩

omit [DecidableEq α] in
theorem risingFrom_erase {lo : Nat} (k : Nat) {m : List (Nat × α)} (hm : risingFrom lo m = true) :
    risingFrom lo (erase k m) = true := by
  induction m generalizing lo with
  | nil => rfl
  | cons e m ih =>
    simp only [risingFrom, Bool.and_eq_true, Nat.ble_eq] at hm
    by_cases h : e.1 = k
    · rw [erase, if_pos h]
      exact risingFrom_mono (by omega) (ih hm.2)
    · rw [erase, if_neg h]
      simp only [risingFrom, Bool.and_eq_true, Nat.ble_eq]
      exact ⟨hm.1, ih hm.2⟩

omit [DecidableEq α] in
theorem risingFrom_insert_erase {lo k : Nat} (v : α) {m : List (Nat × α)} (hk : lo ≤ k) (hm : risingFrom lo m = true) :
    risingFrom lo (insert k v (erase k m)) = true := by
  induction m generalizing lo with
  | nil => simp [erase, insert, risingFrom, hk]
  | cons e m ih =>
    simp only [risingFrom, Bool.and_eq_true, Nat.ble_eq] at hm
    by_cases h : e.1 = k
    · rw [erase, if_pos h]
      exact ih hk (risingFrom_mono (by omega) hm.2)
    · rw [erase, if_neg h]
      by_cases h2 : k < e.1
      · rw [insert, if_pos h2]
        simp only [risingFrom, Bool.and_eq_true, Nat.ble_eq]
        exact ⟨hk, h2, risingFrom_erase k hm.2⟩
      · rw [insert, if_neg h2]
        simp only [risingFrom, Bool.and_eq_true, Nat.ble_eq]
        exact ⟨hm.1, ih (by omega) hm.2⟩

theorem all_erase {d : Nat → α} (k : Nat) {m : List (Nat × α)} (h : m.all (fun e => decide (e.2 ≠ d e.1)) = true) :
    (erase k m).all (fun e => decide (e.2 ≠ d e.1)) = true := by
  induction m with
  | nil => rfl
  | cons e m ih =>
    simp only [List.all_cons, Bool.and_eq_true] at h
    by_cases hk : e.1 = k
    · rw [erase, if_pos hk]; exact ih h.2
    · rw [erase, if_neg hk]; simp only [List.all_cons, Bool.and_eq_true]; exact ⟨h.1, ih h.2⟩

theorem all_insert {d : Nat → α} {k : Nat} {v : α} (hv : v ≠ d k) {m : List (Nat × α)}
    (h : m.all (fun e => decide (e.2 ≠ d e.1)) = true) :
    (insert k v m).all (fun e => decide (e.2 ≠ d e.1)) = true := by
  induction m with
  | nil => simp [insert, hv]
  | cons e m ih =>
    simp only [List.all_cons, Bool.and_eq_true] at h
    by_cases hk : k < e.1
    · rw [insert, if_pos hk]; simp only [List.all_cons, Bool.and_eq_true]
      exact ⟨by simpa using hv, h.1, h.2⟩
    · rw [insert, if_neg hk]; simp only [List.all_cons, Bool.and_eq_true]; exact ⟨h.1, ih h.2⟩

theorem wf_nil (d : Nat → α) : wf d ([] : List (Nat × α)) = true := rfl

/-- Every write keeps the canonical form. -/
theorem wf_set {d : Nat → α} {m : List (Nat × α)} (k : Nat) (v : α) (h : wf d m = true) : wf d (set d m k v) = true := by
  simp only [wf, Bool.and_eq_true] at h ⊢
  by_cases hv : v = d k
  · rw [set, if_pos hv]; exact ⟨risingFrom_erase k h.1, all_erase k h.2⟩
  · rw [set, if_neg hv]
    exact ⟨risingFrom_insert_erase v (Nat.zero_le _) h.1, all_insert hv (all_erase k h.2)⟩

theorem wf_cons {d : Nat → α} {e : Nat × α} {m : List (Nat × α)} (h : wf d (e :: m) = true) :
    risingFrom (e.1 + 1) m = true ∧ e.2 ≠ d e.1 ∧ wf d m = true := by
  simp only [wf, risingFrom, List.all_cons, Bool.and_eq_true, decide_eq_true_eq] at h ⊢
  exact ⟨h.1.2, h.2.1, risingFrom_mono (Nat.zero_le _) h.1.2, h.2.2⟩

omit [DecidableEq α] in
theorem risingFrom_restrict {lo : Nat} (keep : Nat → Bool) {m : List (Nat × α)} (hm : risingFrom lo m = true) :
    risingFrom lo (restrict keep m) = true := by
  induction m generalizing lo with
  | nil => rfl
  | cons e m ih =>
    simp only [risingFrom, Bool.and_eq_true, Nat.ble_eq] at hm
    by_cases h : keep e.1
    · rw [restrict, if_pos h]; simp only [risingFrom, Bool.and_eq_true, Nat.ble_eq]; exact ⟨hm.1, ih hm.2⟩
    · rw [restrict, if_neg h]; exact risingFrom_mono (by omega) (ih hm.2)

/-- A restriction keeps the canonical form. -/
theorem wf_restrict {d : Nat → α} (keep : Nat → Bool) {m : List (Nat × α)} (h : wf d m = true) :
    wf d (restrict keep m) = true := by
  simp only [wf, Bool.and_eq_true] at h ⊢
  refine ⟨risingFrom_restrict keep h.1, ?_⟩
  have h2 := h.2
  clear h
  induction m with
  | nil => rfl
  | cons e m ih =>
    simp only [List.all_cons, Bool.and_eq_true] at h2
    by_cases hk : keep e.1
    · rw [restrict, if_pos hk]; simp only [List.all_cons, Bool.and_eq_true]; exact ⟨h2.1, ih h2.2⟩
    · rw [restrict, if_neg hk]; exact ih h2.2

/-- A change of every value keeps the canonical form. -/
theorem wf_mapVals {d : Nat → α} (f : Nat → α → α) {m : List (Nat × α)} (h : wf d m = true) :
    wf d (mapVals d f m) = true := by
  simp only [wf, Bool.and_eq_true] at h ⊢
  have hr : ∀ lo, risingFrom lo m = true → risingFrom lo (mapVals d f m) = true := by
    intro lo
    clear h
    induction m generalizing lo with
    | nil => exact fun _ => rfl
    | cons e m ih =>
      intro hm
      simp only [risingFrom, Bool.and_eq_true, Nat.ble_eq] at hm
      by_cases hv : f e.1 e.2 = d e.1
      · simp only [mapVals, hv, if_true]; exact risingFrom_mono (by omega) (ih _ hm.2)
      · simp only [mapVals, hv, if_false, risingFrom, Bool.and_eq_true, Nat.ble_eq]; exact ⟨hm.1, ih _ hm.2⟩
  refine ⟨hr 0 h.1, ?_⟩
  clear hr h
  induction m with
  | nil => rfl
  | cons e m ih =>
    by_cases hv : f e.1 e.2 = d e.1
    · simp only [mapVals, hv, if_true]; exact ih
    · simp only [mapVals, hv, if_false, List.all_cons, Bool.and_eq_true]; exact ⟨by simpa using hv, ih⟩

end Sys2Proof.Machine.SMap
end

