-- ==== Sys2Proof/Laws/State.lean ====
section
/-!
SUPPORT. Laws/State.lean: what each named operation over the state leaves as it was, field by field, and what it makes of
registers, fields and records.
-/
namespace Sys2Proof.Machine.State

variable (s : State)

/-! ### setReg -/

@[simp] theorem setReg_pending (a : Nat) (v : Word) : (s.setReg a v).pending = s.pending := rfl
@[simp] theorem setReg_locks (a : Nat) (v : Word) : (s.setReg a v).locks = s.locks := rfl
@[simp] theorem setReg_freeIx (a : Nat) (v : Word) : (s.setReg a v).freeIx = s.freeIx := rfl
@[simp] theorem setReg_cyc (a : Nat) (v : Word) : (s.setReg a v).cyc = s.cyc := rfl
@[simp] theorem setReg_chip (a : Nat) (v : Word) : (s.setReg a v).chip = s.chip := rfl
@[simp] theorem setReg_otp (a : Nat) (v : Word) : (s.setReg a v).otp = s.otp := rfl
@[simp] theorem setReg_ch (a : Nat) (v : Word) : (s.setReg a v).ch = s.ch := rfl
@[simp] theorem setReg_mp (a : Nat) (v : Word) : (s.setReg a v).mp = s.mp := rfl
@[simp] theorem setReg_store (a : Nat) (v : Word) : (s.setReg a v).store = s.store := rfl
@[simp] theorem setReg_cf (a : Nat) (v : Word) : (s.setReg a v).cf = s.cf := rfl
@[simp] theorem setReg_fa (a : Nat) (v : Word) : (s.setReg a v).fa = s.fa := rfl
@[simp] theorem setReg_port (a : Nat) (v : Word) : (s.setReg a v).port = s.port := rfl
@[simp] theorem setReg_num (a : Nat) (v : Word) : (s.setReg a v).num = s.num := rfl
@[simp] theorem setReg_xc (a : Nat) (v : Word) : (s.setReg a v).xc = s.xc := rfl
@[simp] theorem setReg_gr (a : Nat) (v : Word) : (s.setReg a v).gr = s.gr := rfl
@[simp] theorem setReg_qm (a : Nat) (v : Word) : (s.setReg a v).qm = s.qm := rfl
@[simp] theorem setReg_dm (a : Nat) (v : Word) : (s.setReg a v).dm = s.dm := rfl
@[simp] theorem setReg_ps (a : Nat) (v : Word) : (s.setReg a v).ps = s.ps := rfl
@[simp] theorem setReg_tod (a : Nat) (v : Word) : (s.setReg a v).tod = s.tod := rfl
@[simp] theorem setReg_kf (a : Nat) (v : Word) : (s.setReg a v).kf = s.kf := rfl
@[simp] theorem setReg_fe (a : Nat) (v : Word) : (s.setReg a v).fe = s.fe := rfl
@[simp] theorem setReg_tg (a : Nat) (v : Word) : (s.setReg a v).tg = s.tg := rfl
@[simp] theorem setReg_bc (a : Nat) (v : Word) : (s.setReg a v).bc = s.bc := rfl
@[simp] theorem setReg_bm (a : Nat) (v : Word) : (s.setReg a v).bm = s.bm := rfl
@[simp] theorem setReg_ic (a : Nat) (v : Word) : (s.setReg a v).ic = s.ic := rfl

/-! ### put -/

@[simp] theorem put_pending (f : Field) (v i j : Nat) : (s.put f v i j).pending = s.pending := rfl
@[simp] theorem put_locks (f : Field) (v i j : Nat) : (s.put f v i j).locks = s.locks := rfl
@[simp] theorem put_freeIx (f : Field) (v i j : Nat) : (s.put f v i j).freeIx = s.freeIx := rfl
@[simp] theorem put_cyc (f : Field) (v i j : Nat) : (s.put f v i j).cyc = s.cyc := rfl
@[simp] theorem put_chip (f : Field) (v i j : Nat) : (s.put f v i j).chip = s.chip := rfl
@[simp] theorem put_otp (f : Field) (v i j : Nat) : (s.put f v i j).otp = s.otp := rfl
@[simp] theorem put_ch (f : Field) (v i j : Nat) : (s.put f v i j).ch = s.ch := rfl
@[simp] theorem put_mp (f : Field) (v i j : Nat) : (s.put f v i j).mp = s.mp := rfl
@[simp] theorem put_store (f : Field) (v i j : Nat) : (s.put f v i j).store = s.store := rfl
@[simp] theorem put_cf (f : Field) (v i j : Nat) : (s.put f v i j).cf = s.cf := rfl
@[simp] theorem put_fa (f : Field) (v i j : Nat) : (s.put f v i j).fa = s.fa := rfl
@[simp] theorem put_port (f : Field) (v i j : Nat) : (s.put f v i j).port = s.port := rfl
@[simp] theorem put_num (f : Field) (v i j : Nat) : (s.put f v i j).num = s.num := rfl
@[simp] theorem put_xc (f : Field) (v i j : Nat) : (s.put f v i j).xc = s.xc := rfl
@[simp] theorem put_gr (f : Field) (v i j : Nat) : (s.put f v i j).gr = s.gr := rfl
@[simp] theorem put_qm (f : Field) (v i j : Nat) : (s.put f v i j).qm = s.qm := rfl
@[simp] theorem put_dm (f : Field) (v i j : Nat) : (s.put f v i j).dm = s.dm := rfl
@[simp] theorem put_ps (f : Field) (v i j : Nat) : (s.put f v i j).ps = s.ps := rfl
@[simp] theorem put_tod (f : Field) (v i j : Nat) : (s.put f v i j).tod = s.tod := rfl
@[simp] theorem put_kf (f : Field) (v i j : Nat) : (s.put f v i j).kf = s.kf := rfl
@[simp] theorem put_fe (f : Field) (v i j : Nat) : (s.put f v i j).fe = s.fe := rfl
@[simp] theorem put_tg (f : Field) (v i j : Nat) : (s.put f v i j).tg = s.tg := rfl
@[simp] theorem put_bc (f : Field) (v i j : Nat) : (s.put f v i j).bc = s.bc := rfl
@[simp] theorem put_bm (f : Field) (v i j : Nat) : (s.put f v i j).bm = s.bm := rfl
@[simp] theorem put_ic (f : Field) (v i j : Nat) : (s.put f v i j).ic = s.ic := rfl

/-! ### raiseBit -/

@[simp] theorem raiseBit_pending (f : Field) (i j : Nat) : (s.raiseBit f i j).pending = s.pending := rfl
@[simp] theorem raiseBit_locks (f : Field) (i j : Nat) : (s.raiseBit f i j).locks = s.locks := rfl
@[simp] theorem raiseBit_freeIx (f : Field) (i j : Nat) : (s.raiseBit f i j).freeIx = s.freeIx := rfl
@[simp] theorem raiseBit_cyc (f : Field) (i j : Nat) : (s.raiseBit f i j).cyc = s.cyc := rfl
@[simp] theorem raiseBit_chip (f : Field) (i j : Nat) : (s.raiseBit f i j).chip = s.chip := rfl
@[simp] theorem raiseBit_otp (f : Field) (i j : Nat) : (s.raiseBit f i j).otp = s.otp := rfl
@[simp] theorem raiseBit_ch (f : Field) (i j : Nat) : (s.raiseBit f i j).ch = s.ch := rfl
@[simp] theorem raiseBit_mp (f : Field) (i j : Nat) : (s.raiseBit f i j).mp = s.mp := rfl
@[simp] theorem raiseBit_store (f : Field) (i j : Nat) : (s.raiseBit f i j).store = s.store := rfl
@[simp] theorem raiseBit_cf (f : Field) (i j : Nat) : (s.raiseBit f i j).cf = s.cf := rfl
@[simp] theorem raiseBit_fa (f : Field) (i j : Nat) : (s.raiseBit f i j).fa = s.fa := rfl
@[simp] theorem raiseBit_port (f : Field) (i j : Nat) : (s.raiseBit f i j).port = s.port := rfl
@[simp] theorem raiseBit_num (f : Field) (i j : Nat) : (s.raiseBit f i j).num = s.num := rfl
@[simp] theorem raiseBit_xc (f : Field) (i j : Nat) : (s.raiseBit f i j).xc = s.xc := rfl
@[simp] theorem raiseBit_gr (f : Field) (i j : Nat) : (s.raiseBit f i j).gr = s.gr := rfl
@[simp] theorem raiseBit_qm (f : Field) (i j : Nat) : (s.raiseBit f i j).qm = s.qm := rfl
@[simp] theorem raiseBit_dm (f : Field) (i j : Nat) : (s.raiseBit f i j).dm = s.dm := rfl
@[simp] theorem raiseBit_ps (f : Field) (i j : Nat) : (s.raiseBit f i j).ps = s.ps := rfl
@[simp] theorem raiseBit_tod (f : Field) (i j : Nat) : (s.raiseBit f i j).tod = s.tod := rfl
@[simp] theorem raiseBit_kf (f : Field) (i j : Nat) : (s.raiseBit f i j).kf = s.kf := rfl
@[simp] theorem raiseBit_fe (f : Field) (i j : Nat) : (s.raiseBit f i j).fe = s.fe := rfl
@[simp] theorem raiseBit_tg (f : Field) (i j : Nat) : (s.raiseBit f i j).tg = s.tg := rfl
@[simp] theorem raiseBit_bc (f : Field) (i j : Nat) : (s.raiseBit f i j).bc = s.bc := rfl
@[simp] theorem raiseBit_bm (f : Field) (i j : Nat) : (s.raiseBit f i j).bm = s.bm := rfl
@[simp] theorem raiseBit_ic (f : Field) (i j : Nat) : (s.raiseBit f i j).ic = s.ic := rfl

/-! ### bumpSat -/

@[simp] theorem bumpSat_pending (f : Field) (k i j : Nat) : (s.bumpSat f k i j).pending = s.pending := rfl
@[simp] theorem bumpSat_locks (f : Field) (k i j : Nat) : (s.bumpSat f k i j).locks = s.locks := rfl
@[simp] theorem bumpSat_freeIx (f : Field) (k i j : Nat) : (s.bumpSat f k i j).freeIx = s.freeIx := rfl
@[simp] theorem bumpSat_cyc (f : Field) (k i j : Nat) : (s.bumpSat f k i j).cyc = s.cyc := rfl
@[simp] theorem bumpSat_chip (f : Field) (k i j : Nat) : (s.bumpSat f k i j).chip = s.chip := rfl
@[simp] theorem bumpSat_otp (f : Field) (k i j : Nat) : (s.bumpSat f k i j).otp = s.otp := rfl
@[simp] theorem bumpSat_ch (f : Field) (k i j : Nat) : (s.bumpSat f k i j).ch = s.ch := rfl
@[simp] theorem bumpSat_mp (f : Field) (k i j : Nat) : (s.bumpSat f k i j).mp = s.mp := rfl
@[simp] theorem bumpSat_store (f : Field) (k i j : Nat) : (s.bumpSat f k i j).store = s.store := rfl
@[simp] theorem bumpSat_cf (f : Field) (k i j : Nat) : (s.bumpSat f k i j).cf = s.cf := rfl
@[simp] theorem bumpSat_fa (f : Field) (k i j : Nat) : (s.bumpSat f k i j).fa = s.fa := rfl
@[simp] theorem bumpSat_port (f : Field) (k i j : Nat) : (s.bumpSat f k i j).port = s.port := rfl
@[simp] theorem bumpSat_num (f : Field) (k i j : Nat) : (s.bumpSat f k i j).num = s.num := rfl
@[simp] theorem bumpSat_xc (f : Field) (k i j : Nat) : (s.bumpSat f k i j).xc = s.xc := rfl
@[simp] theorem bumpSat_gr (f : Field) (k i j : Nat) : (s.bumpSat f k i j).gr = s.gr := rfl
@[simp] theorem bumpSat_qm (f : Field) (k i j : Nat) : (s.bumpSat f k i j).qm = s.qm := rfl
@[simp] theorem bumpSat_dm (f : Field) (k i j : Nat) : (s.bumpSat f k i j).dm = s.dm := rfl
@[simp] theorem bumpSat_ps (f : Field) (k i j : Nat) : (s.bumpSat f k i j).ps = s.ps := rfl
@[simp] theorem bumpSat_tod (f : Field) (k i j : Nat) : (s.bumpSat f k i j).tod = s.tod := rfl
@[simp] theorem bumpSat_kf (f : Field) (k i j : Nat) : (s.bumpSat f k i j).kf = s.kf := rfl
@[simp] theorem bumpSat_fe (f : Field) (k i j : Nat) : (s.bumpSat f k i j).fe = s.fe := rfl
@[simp] theorem bumpSat_tg (f : Field) (k i j : Nat) : (s.bumpSat f k i j).tg = s.tg := rfl
@[simp] theorem bumpSat_bc (f : Field) (k i j : Nat) : (s.bumpSat f k i j).bc = s.bc := rfl
@[simp] theorem bumpSat_bm (f : Field) (k i j : Nat) : (s.bumpSat f k i j).bm = s.bm := rfl
@[simp] theorem bumpSat_ic (f : Field) (k i j : Nat) : (s.bumpSat f k i j).ic = s.ic := rfl

/-! ### bumpWrap -/

@[simp] theorem bumpWrap_pending (f : Field) (k i j : Nat) : (s.bumpWrap f k i j).pending = s.pending := rfl
@[simp] theorem bumpWrap_locks (f : Field) (k i j : Nat) : (s.bumpWrap f k i j).locks = s.locks := rfl
@[simp] theorem bumpWrap_freeIx (f : Field) (k i j : Nat) : (s.bumpWrap f k i j).freeIx = s.freeIx := rfl
@[simp] theorem bumpWrap_cyc (f : Field) (k i j : Nat) : (s.bumpWrap f k i j).cyc = s.cyc := rfl
@[simp] theorem bumpWrap_chip (f : Field) (k i j : Nat) : (s.bumpWrap f k i j).chip = s.chip := rfl
@[simp] theorem bumpWrap_otp (f : Field) (k i j : Nat) : (s.bumpWrap f k i j).otp = s.otp := rfl
@[simp] theorem bumpWrap_ch (f : Field) (k i j : Nat) : (s.bumpWrap f k i j).ch = s.ch := rfl
@[simp] theorem bumpWrap_mp (f : Field) (k i j : Nat) : (s.bumpWrap f k i j).mp = s.mp := rfl
@[simp] theorem bumpWrap_store (f : Field) (k i j : Nat) : (s.bumpWrap f k i j).store = s.store := rfl
@[simp] theorem bumpWrap_cf (f : Field) (k i j : Nat) : (s.bumpWrap f k i j).cf = s.cf := rfl
@[simp] theorem bumpWrap_fa (f : Field) (k i j : Nat) : (s.bumpWrap f k i j).fa = s.fa := rfl
@[simp] theorem bumpWrap_port (f : Field) (k i j : Nat) : (s.bumpWrap f k i j).port = s.port := rfl
@[simp] theorem bumpWrap_num (f : Field) (k i j : Nat) : (s.bumpWrap f k i j).num = s.num := rfl
@[simp] theorem bumpWrap_xc (f : Field) (k i j : Nat) : (s.bumpWrap f k i j).xc = s.xc := rfl
@[simp] theorem bumpWrap_gr (f : Field) (k i j : Nat) : (s.bumpWrap f k i j).gr = s.gr := rfl
@[simp] theorem bumpWrap_qm (f : Field) (k i j : Nat) : (s.bumpWrap f k i j).qm = s.qm := rfl
@[simp] theorem bumpWrap_dm (f : Field) (k i j : Nat) : (s.bumpWrap f k i j).dm = s.dm := rfl
@[simp] theorem bumpWrap_ps (f : Field) (k i j : Nat) : (s.bumpWrap f k i j).ps = s.ps := rfl
@[simp] theorem bumpWrap_tod (f : Field) (k i j : Nat) : (s.bumpWrap f k i j).tod = s.tod := rfl
@[simp] theorem bumpWrap_kf (f : Field) (k i j : Nat) : (s.bumpWrap f k i j).kf = s.kf := rfl
@[simp] theorem bumpWrap_fe (f : Field) (k i j : Nat) : (s.bumpWrap f k i j).fe = s.fe := rfl
@[simp] theorem bumpWrap_tg (f : Field) (k i j : Nat) : (s.bumpWrap f k i j).tg = s.tg := rfl
@[simp] theorem bumpWrap_bc (f : Field) (k i j : Nat) : (s.bumpWrap f k i j).bc = s.bc := rfl
@[simp] theorem bumpWrap_bm (f : Field) (k i j : Nat) : (s.bumpWrap f k i j).bm = s.bm := rfl
@[simp] theorem bumpWrap_ic (f : Field) (k i j : Nat) : (s.bumpWrap f k i j).ic = s.ic := rfl

/-! ### clearRegs -/

@[simp] theorem clearRegs_pending (d : Nat → Bool) : (s.clearRegs d).pending = s.pending := rfl
@[simp] theorem clearRegs_locks (d : Nat → Bool) : (s.clearRegs d).locks = s.locks := rfl
@[simp] theorem clearRegs_freeIx (d : Nat → Bool) : (s.clearRegs d).freeIx = s.freeIx := rfl
@[simp] theorem clearRegs_cyc (d : Nat → Bool) : (s.clearRegs d).cyc = s.cyc := rfl
@[simp] theorem clearRegs_chip (d : Nat → Bool) : (s.clearRegs d).chip = s.chip := rfl
@[simp] theorem clearRegs_otp (d : Nat → Bool) : (s.clearRegs d).otp = s.otp := rfl
@[simp] theorem clearRegs_ch (d : Nat → Bool) : (s.clearRegs d).ch = s.ch := rfl
@[simp] theorem clearRegs_mp (d : Nat → Bool) : (s.clearRegs d).mp = s.mp := rfl
@[simp] theorem clearRegs_store (d : Nat → Bool) : (s.clearRegs d).store = s.store := rfl
@[simp] theorem clearRegs_cf (d : Nat → Bool) : (s.clearRegs d).cf = s.cf := rfl
@[simp] theorem clearRegs_fa (d : Nat → Bool) : (s.clearRegs d).fa = s.fa := rfl
@[simp] theorem clearRegs_port (d : Nat → Bool) : (s.clearRegs d).port = s.port := rfl
@[simp] theorem clearRegs_num (d : Nat → Bool) : (s.clearRegs d).num = s.num := rfl
@[simp] theorem clearRegs_xc (d : Nat → Bool) : (s.clearRegs d).xc = s.xc := rfl
@[simp] theorem clearRegs_gr (d : Nat → Bool) : (s.clearRegs d).gr = s.gr := rfl
@[simp] theorem clearRegs_qm (d : Nat → Bool) : (s.clearRegs d).qm = s.qm := rfl
@[simp] theorem clearRegs_dm (d : Nat → Bool) : (s.clearRegs d).dm = s.dm := rfl
@[simp] theorem clearRegs_ps (d : Nat → Bool) : (s.clearRegs d).ps = s.ps := rfl
@[simp] theorem clearRegs_tod (d : Nat → Bool) : (s.clearRegs d).tod = s.tod := rfl
@[simp] theorem clearRegs_kf (d : Nat → Bool) : (s.clearRegs d).kf = s.kf := rfl
@[simp] theorem clearRegs_fe (d : Nat → Bool) : (s.clearRegs d).fe = s.fe := rfl
@[simp] theorem clearRegs_tg (d : Nat → Bool) : (s.clearRegs d).tg = s.tg := rfl
@[simp] theorem clearRegs_bc (d : Nat → Bool) : (s.clearRegs d).bc = s.bc := rfl
@[simp] theorem clearRegs_bm (d : Nat → Bool) : (s.clearRegs d).bm = s.bm := rfl
@[simp] theorem clearRegs_ic (d : Nat → Bool) : (s.clearRegs d).ic = s.ic := rfl

/-! ### draw -/

@[simp] theorem draw_pending : (s.draw).pending = s.pending := rfl
@[simp] theorem draw_regs : (s.draw).regs = s.regs := rfl
@[simp] theorem draw_locks : (s.draw).locks = s.locks := rfl
@[simp] theorem draw_cyc : (s.draw).cyc = s.cyc := rfl
@[simp] theorem draw_chip : (s.draw).chip = s.chip := rfl
@[simp] theorem draw_otp : (s.draw).otp = s.otp := rfl
@[simp] theorem draw_ch : (s.draw).ch = s.ch := rfl
@[simp] theorem draw_mp : (s.draw).mp = s.mp := rfl
@[simp] theorem draw_store : (s.draw).store = s.store := rfl
@[simp] theorem draw_cf : (s.draw).cf = s.cf := rfl
@[simp] theorem draw_fa : (s.draw).fa = s.fa := rfl
@[simp] theorem draw_port : (s.draw).port = s.port := rfl
@[simp] theorem draw_num : (s.draw).num = s.num := rfl
@[simp] theorem draw_xc : (s.draw).xc = s.xc := rfl
@[simp] theorem draw_gr : (s.draw).gr = s.gr := rfl
@[simp] theorem draw_qm : (s.draw).qm = s.qm := rfl
@[simp] theorem draw_dm : (s.draw).dm = s.dm := rfl
@[simp] theorem draw_ps : (s.draw).ps = s.ps := rfl
@[simp] theorem draw_tod : (s.draw).tod = s.tod := rfl
@[simp] theorem draw_kf : (s.draw).kf = s.kf := rfl
@[simp] theorem draw_fe : (s.draw).fe = s.fe := rfl
@[simp] theorem draw_tg : (s.draw).tg = s.tg := rfl
@[simp] theorem draw_bc : (s.draw).bc = s.bc := rfl
@[simp] theorem draw_bm : (s.draw).bm = s.bm := rfl
@[simp] theorem draw_ic : (s.draw).ic = s.ic := rfl
@[simp] theorem draw_reg (r : Nat) : (s.draw).reg r = s.reg r := rfl
@[simp] theorem draw_get (h : Field) (m l : Nat) : (s.draw).get h m l = s.get h m l := rfl
@[simp] theorem draw_on (h : Field) (m l : Nat) : (s.draw).on h m l = s.on h m l := rfl

/-! ### modPort -/

@[simp] theorem modPort_pending (p : Nat) (g : PortX → PortX) : (s.modPort p g).pending = s.pending := rfl
@[simp] theorem modPort_regs (p : Nat) (g : PortX → PortX) : (s.modPort p g).regs = s.regs := rfl
@[simp] theorem modPort_locks (p : Nat) (g : PortX → PortX) : (s.modPort p g).locks = s.locks := rfl
@[simp] theorem modPort_freeIx (p : Nat) (g : PortX → PortX) : (s.modPort p g).freeIx = s.freeIx := rfl
@[simp] theorem modPort_cyc (p : Nat) (g : PortX → PortX) : (s.modPort p g).cyc = s.cyc := rfl
@[simp] theorem modPort_chip (p : Nat) (g : PortX → PortX) : (s.modPort p g).chip = s.chip := rfl
@[simp] theorem modPort_otp (p : Nat) (g : PortX → PortX) : (s.modPort p g).otp = s.otp := rfl
@[simp] theorem modPort_ch (p : Nat) (g : PortX → PortX) : (s.modPort p g).ch = s.ch := rfl
@[simp] theorem modPort_mp (p : Nat) (g : PortX → PortX) : (s.modPort p g).mp = s.mp := rfl
@[simp] theorem modPort_store (p : Nat) (g : PortX → PortX) : (s.modPort p g).store = s.store := rfl
@[simp] theorem modPort_cf (p : Nat) (g : PortX → PortX) : (s.modPort p g).cf = s.cf := rfl
@[simp] theorem modPort_fa (p : Nat) (g : PortX → PortX) : (s.modPort p g).fa = s.fa := rfl
@[simp] theorem modPort_num (p : Nat) (g : PortX → PortX) : (s.modPort p g).num = s.num := rfl
@[simp] theorem modPort_xc (p : Nat) (g : PortX → PortX) : (s.modPort p g).xc = s.xc := rfl
@[simp] theorem modPort_gr (p : Nat) (g : PortX → PortX) : (s.modPort p g).gr = s.gr := rfl
@[simp] theorem modPort_qm (p : Nat) (g : PortX → PortX) : (s.modPort p g).qm = s.qm := rfl
@[simp] theorem modPort_dm (p : Nat) (g : PortX → PortX) : (s.modPort p g).dm = s.dm := rfl
@[simp] theorem modPort_ps (p : Nat) (g : PortX → PortX) : (s.modPort p g).ps = s.ps := rfl
@[simp] theorem modPort_tod (p : Nat) (g : PortX → PortX) : (s.modPort p g).tod = s.tod := rfl
@[simp] theorem modPort_kf (p : Nat) (g : PortX → PortX) : (s.modPort p g).kf = s.kf := rfl
@[simp] theorem modPort_fe (p : Nat) (g : PortX → PortX) : (s.modPort p g).fe = s.fe := rfl
@[simp] theorem modPort_tg (p : Nat) (g : PortX → PortX) : (s.modPort p g).tg = s.tg := rfl
@[simp] theorem modPort_bc (p : Nat) (g : PortX → PortX) : (s.modPort p g).bc = s.bc := rfl
@[simp] theorem modPort_bm (p : Nat) (g : PortX → PortX) : (s.modPort p g).bm = s.bm := rfl
@[simp] theorem modPort_ic (p : Nat) (g : PortX → PortX) : (s.modPort p g).ic = s.ic := rfl
@[simp] theorem modPort_reg (p : Nat) (g : PortX → PortX) (r : Nat) : (s.modPort p g).reg r = s.reg r := rfl
@[simp] theorem modPort_get (p : Nat) (g : PortX → PortX) (h : Field) (m l : Nat) : (s.modPort p g).get h m l = s.get h m l := rfl
@[simp] theorem modPort_on (p : Nat) (g : PortX → PortX) (h : Field) (m l : Nat) : (s.modPort p g).on h m l = s.on h m l := rfl

/-! ### modTrib -/

@[simp] theorem modTrib_pending (t : Nat) (g : TribX → TribX) : (s.modTrib t g).pending = s.pending := rfl
@[simp] theorem modTrib_regs (t : Nat) (g : TribX → TribX) : (s.modTrib t g).regs = s.regs := rfl
@[simp] theorem modTrib_locks (t : Nat) (g : TribX → TribX) : (s.modTrib t g).locks = s.locks := rfl
@[simp] theorem modTrib_freeIx (t : Nat) (g : TribX → TribX) : (s.modTrib t g).freeIx = s.freeIx := rfl
@[simp] theorem modTrib_cyc (t : Nat) (g : TribX → TribX) : (s.modTrib t g).cyc = s.cyc := rfl
@[simp] theorem modTrib_chip (t : Nat) (g : TribX → TribX) : (s.modTrib t g).chip = s.chip := rfl
@[simp] theorem modTrib_otp (t : Nat) (g : TribX → TribX) : (s.modTrib t g).otp = s.otp := rfl
@[simp] theorem modTrib_ch (t : Nat) (g : TribX → TribX) : (s.modTrib t g).ch = s.ch := rfl
@[simp] theorem modTrib_mp (t : Nat) (g : TribX → TribX) : (s.modTrib t g).mp = s.mp := rfl
@[simp] theorem modTrib_store (t : Nat) (g : TribX → TribX) : (s.modTrib t g).store = s.store := rfl
@[simp] theorem modTrib_cf (t : Nat) (g : TribX → TribX) : (s.modTrib t g).cf = s.cf := rfl
@[simp] theorem modTrib_fa (t : Nat) (g : TribX → TribX) : (s.modTrib t g).fa = s.fa := rfl
@[simp] theorem modTrib_port (t : Nat) (g : TribX → TribX) : (s.modTrib t g).port = s.port := rfl
@[simp] theorem modTrib_num (t : Nat) (g : TribX → TribX) : (s.modTrib t g).num = s.num := rfl
@[simp] theorem modTrib_gr (t : Nat) (g : TribX → TribX) : (s.modTrib t g).gr = s.gr := rfl
@[simp] theorem modTrib_qm (t : Nat) (g : TribX → TribX) : (s.modTrib t g).qm = s.qm := rfl
@[simp] theorem modTrib_dm (t : Nat) (g : TribX → TribX) : (s.modTrib t g).dm = s.dm := rfl
@[simp] theorem modTrib_ps (t : Nat) (g : TribX → TribX) : (s.modTrib t g).ps = s.ps := rfl
@[simp] theorem modTrib_tod (t : Nat) (g : TribX → TribX) : (s.modTrib t g).tod = s.tod := rfl
@[simp] theorem modTrib_kf (t : Nat) (g : TribX → TribX) : (s.modTrib t g).kf = s.kf := rfl
@[simp] theorem modTrib_fe (t : Nat) (g : TribX → TribX) : (s.modTrib t g).fe = s.fe := rfl
@[simp] theorem modTrib_tg (t : Nat) (g : TribX → TribX) : (s.modTrib t g).tg = s.tg := rfl
@[simp] theorem modTrib_bc (t : Nat) (g : TribX → TribX) : (s.modTrib t g).bc = s.bc := rfl
@[simp] theorem modTrib_bm (t : Nat) (g : TribX → TribX) : (s.modTrib t g).bm = s.bm := rfl
@[simp] theorem modTrib_ic (t : Nat) (g : TribX → TribX) : (s.modTrib t g).ic = s.ic := rfl
@[simp] theorem modTrib_reg (t : Nat) (g : TribX → TribX) (r : Nat) : (s.modTrib t g).reg r = s.reg r := rfl
@[simp] theorem modTrib_get (t : Nat) (g : TribX → TribX) (h : Field) (m l : Nat) : (s.modTrib t g).get h m l = s.get h m l := rfl
@[simp] theorem modTrib_on (t : Nat) (g : TribX → TribX) (h : Field) (m l : Nat) : (s.modTrib t g).on h m l = s.on h m l := rfl

/-! ### modGear -/

@[simp] theorem modGear_pending (x : Nat) (g : GearX → GearX) : (s.modGear x g).pending = s.pending := rfl
@[simp] theorem modGear_regs (x : Nat) (g : GearX → GearX) : (s.modGear x g).regs = s.regs := rfl
@[simp] theorem modGear_locks (x : Nat) (g : GearX → GearX) : (s.modGear x g).locks = s.locks := rfl
@[simp] theorem modGear_freeIx (x : Nat) (g : GearX → GearX) : (s.modGear x g).freeIx = s.freeIx := rfl
@[simp] theorem modGear_cyc (x : Nat) (g : GearX → GearX) : (s.modGear x g).cyc = s.cyc := rfl
@[simp] theorem modGear_chip (x : Nat) (g : GearX → GearX) : (s.modGear x g).chip = s.chip := rfl
@[simp] theorem modGear_otp (x : Nat) (g : GearX → GearX) : (s.modGear x g).otp = s.otp := rfl
@[simp] theorem modGear_ch (x : Nat) (g : GearX → GearX) : (s.modGear x g).ch = s.ch := rfl
@[simp] theorem modGear_mp (x : Nat) (g : GearX → GearX) : (s.modGear x g).mp = s.mp := rfl
@[simp] theorem modGear_store (x : Nat) (g : GearX → GearX) : (s.modGear x g).store = s.store := rfl
@[simp] theorem modGear_cf (x : Nat) (g : GearX → GearX) : (s.modGear x g).cf = s.cf := rfl
@[simp] theorem modGear_fa (x : Nat) (g : GearX → GearX) : (s.modGear x g).fa = s.fa := rfl
@[simp] theorem modGear_port (x : Nat) (g : GearX → GearX) : (s.modGear x g).port = s.port := rfl
@[simp] theorem modGear_num (x : Nat) (g : GearX → GearX) : (s.modGear x g).num = s.num := rfl
@[simp] theorem modGear_xc (x : Nat) (g : GearX → GearX) : (s.modGear x g).xc = s.xc := rfl
@[simp] theorem modGear_qm (x : Nat) (g : GearX → GearX) : (s.modGear x g).qm = s.qm := rfl
@[simp] theorem modGear_dm (x : Nat) (g : GearX → GearX) : (s.modGear x g).dm = s.dm := rfl
@[simp] theorem modGear_ps (x : Nat) (g : GearX → GearX) : (s.modGear x g).ps = s.ps := rfl
@[simp] theorem modGear_tod (x : Nat) (g : GearX → GearX) : (s.modGear x g).tod = s.tod := rfl
@[simp] theorem modGear_kf (x : Nat) (g : GearX → GearX) : (s.modGear x g).kf = s.kf := rfl
@[simp] theorem modGear_fe (x : Nat) (g : GearX → GearX) : (s.modGear x g).fe = s.fe := rfl
@[simp] theorem modGear_tg (x : Nat) (g : GearX → GearX) : (s.modGear x g).tg = s.tg := rfl
@[simp] theorem modGear_bc (x : Nat) (g : GearX → GearX) : (s.modGear x g).bc = s.bc := rfl
@[simp] theorem modGear_bm (x : Nat) (g : GearX → GearX) : (s.modGear x g).bm = s.bm := rfl
@[simp] theorem modGear_ic (x : Nat) (g : GearX → GearX) : (s.modGear x g).ic = s.ic := rfl
@[simp] theorem modGear_reg (x : Nat) (g : GearX → GearX) (r : Nat) : (s.modGear x g).reg r = s.reg r := rfl
@[simp] theorem modGear_get (x : Nat) (g : GearX → GearX) (h : Field) (m l : Nat) : (s.modGear x g).get h m l = s.get h m l := rfl
@[simp] theorem modGear_on (x : Nat) (g : GearX → GearX) (h : Field) (m l : Nat) : (s.modGear x g).on h m l = s.on h m l := rfl

/-! ### modRecipe -/

@[simp] theorem modRecipe_pending (x : Nat) (g : RecipeX → RecipeX) : (s.modRecipe x g).pending = s.pending := rfl
@[simp] theorem modRecipe_regs (x : Nat) (g : RecipeX → RecipeX) : (s.modRecipe x g).regs = s.regs := rfl
@[simp] theorem modRecipe_locks (x : Nat) (g : RecipeX → RecipeX) : (s.modRecipe x g).locks = s.locks := rfl
@[simp] theorem modRecipe_freeIx (x : Nat) (g : RecipeX → RecipeX) : (s.modRecipe x g).freeIx = s.freeIx := rfl
@[simp] theorem modRecipe_cyc (x : Nat) (g : RecipeX → RecipeX) : (s.modRecipe x g).cyc = s.cyc := rfl
@[simp] theorem modRecipe_chip (x : Nat) (g : RecipeX → RecipeX) : (s.modRecipe x g).chip = s.chip := rfl
@[simp] theorem modRecipe_otp (x : Nat) (g : RecipeX → RecipeX) : (s.modRecipe x g).otp = s.otp := rfl
@[simp] theorem modRecipe_ch (x : Nat) (g : RecipeX → RecipeX) : (s.modRecipe x g).ch = s.ch := rfl
@[simp] theorem modRecipe_mp (x : Nat) (g : RecipeX → RecipeX) : (s.modRecipe x g).mp = s.mp := rfl
@[simp] theorem modRecipe_store (x : Nat) (g : RecipeX → RecipeX) : (s.modRecipe x g).store = s.store := rfl
@[simp] theorem modRecipe_cf (x : Nat) (g : RecipeX → RecipeX) : (s.modRecipe x g).cf = s.cf := rfl
@[simp] theorem modRecipe_fa (x : Nat) (g : RecipeX → RecipeX) : (s.modRecipe x g).fa = s.fa := rfl
@[simp] theorem modRecipe_port (x : Nat) (g : RecipeX → RecipeX) : (s.modRecipe x g).port = s.port := rfl
@[simp] theorem modRecipe_num (x : Nat) (g : RecipeX → RecipeX) : (s.modRecipe x g).num = s.num := rfl
@[simp] theorem modRecipe_xc (x : Nat) (g : RecipeX → RecipeX) : (s.modRecipe x g).xc = s.xc := rfl
@[simp] theorem modRecipe_qm (x : Nat) (g : RecipeX → RecipeX) : (s.modRecipe x g).qm = s.qm := rfl
@[simp] theorem modRecipe_dm (x : Nat) (g : RecipeX → RecipeX) : (s.modRecipe x g).dm = s.dm := rfl
@[simp] theorem modRecipe_ps (x : Nat) (g : RecipeX → RecipeX) : (s.modRecipe x g).ps = s.ps := rfl
@[simp] theorem modRecipe_tod (x : Nat) (g : RecipeX → RecipeX) : (s.modRecipe x g).tod = s.tod := rfl
@[simp] theorem modRecipe_kf (x : Nat) (g : RecipeX → RecipeX) : (s.modRecipe x g).kf = s.kf := rfl
@[simp] theorem modRecipe_fe (x : Nat) (g : RecipeX → RecipeX) : (s.modRecipe x g).fe = s.fe := rfl
@[simp] theorem modRecipe_tg (x : Nat) (g : RecipeX → RecipeX) : (s.modRecipe x g).tg = s.tg := rfl
@[simp] theorem modRecipe_bc (x : Nat) (g : RecipeX → RecipeX) : (s.modRecipe x g).bc = s.bc := rfl
@[simp] theorem modRecipe_bm (x : Nat) (g : RecipeX → RecipeX) : (s.modRecipe x g).bm = s.bm := rfl
@[simp] theorem modRecipe_ic (x : Nat) (g : RecipeX → RecipeX) : (s.modRecipe x g).ic = s.ic := rfl
@[simp] theorem modRecipe_reg (x : Nat) (g : RecipeX → RecipeX) (r : Nat) : (s.modRecipe x g).reg r = s.reg r := rfl
@[simp] theorem modRecipe_get (x : Nat) (g : RecipeX → RecipeX) (h : Field) (m l : Nat) : (s.modRecipe x g).get h m l = s.get h m l := rfl
@[simp] theorem modRecipe_on (x : Nat) (g : RecipeX → RecipeX) (h : Field) (m l : Nat) : (s.modRecipe x g).on h m l = s.on h m l := rfl

/-! ### modQueue -/

@[simp] theorem modQueue_pending (q : Nat) (g : QueueX → QueueX) : (s.modQueue q g).pending = s.pending := rfl
@[simp] theorem modQueue_regs (q : Nat) (g : QueueX → QueueX) : (s.modQueue q g).regs = s.regs := rfl
@[simp] theorem modQueue_locks (q : Nat) (g : QueueX → QueueX) : (s.modQueue q g).locks = s.locks := rfl
@[simp] theorem modQueue_freeIx (q : Nat) (g : QueueX → QueueX) : (s.modQueue q g).freeIx = s.freeIx := rfl
@[simp] theorem modQueue_cyc (q : Nat) (g : QueueX → QueueX) : (s.modQueue q g).cyc = s.cyc := rfl
@[simp] theorem modQueue_chip (q : Nat) (g : QueueX → QueueX) : (s.modQueue q g).chip = s.chip := rfl
@[simp] theorem modQueue_otp (q : Nat) (g : QueueX → QueueX) : (s.modQueue q g).otp = s.otp := rfl
@[simp] theorem modQueue_ch (q : Nat) (g : QueueX → QueueX) : (s.modQueue q g).ch = s.ch := rfl
@[simp] theorem modQueue_mp (q : Nat) (g : QueueX → QueueX) : (s.modQueue q g).mp = s.mp := rfl
@[simp] theorem modQueue_store (q : Nat) (g : QueueX → QueueX) : (s.modQueue q g).store = s.store := rfl
@[simp] theorem modQueue_cf (q : Nat) (g : QueueX → QueueX) : (s.modQueue q g).cf = s.cf := rfl
@[simp] theorem modQueue_fa (q : Nat) (g : QueueX → QueueX) : (s.modQueue q g).fa = s.fa := rfl
@[simp] theorem modQueue_port (q : Nat) (g : QueueX → QueueX) : (s.modQueue q g).port = s.port := rfl
@[simp] theorem modQueue_num (q : Nat) (g : QueueX → QueueX) : (s.modQueue q g).num = s.num := rfl
@[simp] theorem modQueue_xc (q : Nat) (g : QueueX → QueueX) : (s.modQueue q g).xc = s.xc := rfl
@[simp] theorem modQueue_gr (q : Nat) (g : QueueX → QueueX) : (s.modQueue q g).gr = s.gr := rfl
@[simp] theorem modQueue_dm (q : Nat) (g : QueueX → QueueX) : (s.modQueue q g).dm = s.dm := rfl
@[simp] theorem modQueue_ps (q : Nat) (g : QueueX → QueueX) : (s.modQueue q g).ps = s.ps := rfl
@[simp] theorem modQueue_tod (q : Nat) (g : QueueX → QueueX) : (s.modQueue q g).tod = s.tod := rfl
@[simp] theorem modQueue_kf (q : Nat) (g : QueueX → QueueX) : (s.modQueue q g).kf = s.kf := rfl
@[simp] theorem modQueue_fe (q : Nat) (g : QueueX → QueueX) : (s.modQueue q g).fe = s.fe := rfl
@[simp] theorem modQueue_tg (q : Nat) (g : QueueX → QueueX) : (s.modQueue q g).tg = s.tg := rfl
@[simp] theorem modQueue_bc (q : Nat) (g : QueueX → QueueX) : (s.modQueue q g).bc = s.bc := rfl
@[simp] theorem modQueue_bm (q : Nat) (g : QueueX → QueueX) : (s.modQueue q g).bm = s.bm := rfl
@[simp] theorem modQueue_ic (q : Nat) (g : QueueX → QueueX) : (s.modQueue q g).ic = s.ic := rfl
@[simp] theorem modQueue_reg (q : Nat) (g : QueueX → QueueX) (r : Nat) : (s.modQueue q g).reg r = s.reg r := rfl
@[simp] theorem modQueue_get (q : Nat) (g : QueueX → QueueX) (h : Field) (m l : Nat) : (s.modQueue q g).get h m l = s.get h m l := rfl
@[simp] theorem modQueue_on (q : Nat) (g : QueueX → QueueX) (h : Field) (m l : Nat) : (s.modQueue q g).on h m l = s.on h m l := rfl

/-! ### modPktTrib -/

@[simp] theorem modPktTrib_pending (t : Nat) (g : PktTrib → PktTrib) : (s.modPktTrib t g).pending = s.pending := rfl
@[simp] theorem modPktTrib_regs (t : Nat) (g : PktTrib → PktTrib) : (s.modPktTrib t g).regs = s.regs := rfl
@[simp] theorem modPktTrib_locks (t : Nat) (g : PktTrib → PktTrib) : (s.modPktTrib t g).locks = s.locks := rfl
@[simp] theorem modPktTrib_freeIx (t : Nat) (g : PktTrib → PktTrib) : (s.modPktTrib t g).freeIx = s.freeIx := rfl
@[simp] theorem modPktTrib_cyc (t : Nat) (g : PktTrib → PktTrib) : (s.modPktTrib t g).cyc = s.cyc := rfl
@[simp] theorem modPktTrib_chip (t : Nat) (g : PktTrib → PktTrib) : (s.modPktTrib t g).chip = s.chip := rfl
@[simp] theorem modPktTrib_otp (t : Nat) (g : PktTrib → PktTrib) : (s.modPktTrib t g).otp = s.otp := rfl
@[simp] theorem modPktTrib_ch (t : Nat) (g : PktTrib → PktTrib) : (s.modPktTrib t g).ch = s.ch := rfl
@[simp] theorem modPktTrib_mp (t : Nat) (g : PktTrib → PktTrib) : (s.modPktTrib t g).mp = s.mp := rfl
@[simp] theorem modPktTrib_store (t : Nat) (g : PktTrib → PktTrib) : (s.modPktTrib t g).store = s.store := rfl
@[simp] theorem modPktTrib_cf (t : Nat) (g : PktTrib → PktTrib) : (s.modPktTrib t g).cf = s.cf := rfl
@[simp] theorem modPktTrib_fa (t : Nat) (g : PktTrib → PktTrib) : (s.modPktTrib t g).fa = s.fa := rfl
@[simp] theorem modPktTrib_port (t : Nat) (g : PktTrib → PktTrib) : (s.modPktTrib t g).port = s.port := rfl
@[simp] theorem modPktTrib_num (t : Nat) (g : PktTrib → PktTrib) : (s.modPktTrib t g).num = s.num := rfl
@[simp] theorem modPktTrib_xc (t : Nat) (g : PktTrib → PktTrib) : (s.modPktTrib t g).xc = s.xc := rfl
@[simp] theorem modPktTrib_gr (t : Nat) (g : PktTrib → PktTrib) : (s.modPktTrib t g).gr = s.gr := rfl
@[simp] theorem modPktTrib_dm (t : Nat) (g : PktTrib → PktTrib) : (s.modPktTrib t g).dm = s.dm := rfl
@[simp] theorem modPktTrib_ps (t : Nat) (g : PktTrib → PktTrib) : (s.modPktTrib t g).ps = s.ps := rfl
@[simp] theorem modPktTrib_tod (t : Nat) (g : PktTrib → PktTrib) : (s.modPktTrib t g).tod = s.tod := rfl
@[simp] theorem modPktTrib_kf (t : Nat) (g : PktTrib → PktTrib) : (s.modPktTrib t g).kf = s.kf := rfl
@[simp] theorem modPktTrib_fe (t : Nat) (g : PktTrib → PktTrib) : (s.modPktTrib t g).fe = s.fe := rfl
@[simp] theorem modPktTrib_tg (t : Nat) (g : PktTrib → PktTrib) : (s.modPktTrib t g).tg = s.tg := rfl
@[simp] theorem modPktTrib_bc (t : Nat) (g : PktTrib → PktTrib) : (s.modPktTrib t g).bc = s.bc := rfl
@[simp] theorem modPktTrib_bm (t : Nat) (g : PktTrib → PktTrib) : (s.modPktTrib t g).bm = s.bm := rfl
@[simp] theorem modPktTrib_ic (t : Nat) (g : PktTrib → PktTrib) : (s.modPktTrib t g).ic = s.ic := rfl
@[simp] theorem modPktTrib_reg (t : Nat) (g : PktTrib → PktTrib) (r : Nat) : (s.modPktTrib t g).reg r = s.reg r := rfl
@[simp] theorem modPktTrib_get (t : Nat) (g : PktTrib → PktTrib) (h : Field) (m l : Nat) : (s.modPktTrib t g).get h m l = s.get h m l := rfl
@[simp] theorem modPktTrib_on (t : Nat) (g : PktTrib → PktTrib) (h : Field) (m l : Nat) : (s.modPktTrib t g).on h m l = s.on h m l := rfl

/-! ### modClient -/

@[simp] theorem modClient_pending (c : Nat) (g : ClientX → ClientX) : (s.modClient c g).pending = s.pending := rfl
@[simp] theorem modClient_regs (c : Nat) (g : ClientX → ClientX) : (s.modClient c g).regs = s.regs := rfl
@[simp] theorem modClient_locks (c : Nat) (g : ClientX → ClientX) : (s.modClient c g).locks = s.locks := rfl
@[simp] theorem modClient_freeIx (c : Nat) (g : ClientX → ClientX) : (s.modClient c g).freeIx = s.freeIx := rfl
@[simp] theorem modClient_cyc (c : Nat) (g : ClientX → ClientX) : (s.modClient c g).cyc = s.cyc := rfl
@[simp] theorem modClient_chip (c : Nat) (g : ClientX → ClientX) : (s.modClient c g).chip = s.chip := rfl
@[simp] theorem modClient_otp (c : Nat) (g : ClientX → ClientX) : (s.modClient c g).otp = s.otp := rfl
@[simp] theorem modClient_ch (c : Nat) (g : ClientX → ClientX) : (s.modClient c g).ch = s.ch := rfl
@[simp] theorem modClient_mp (c : Nat) (g : ClientX → ClientX) : (s.modClient c g).mp = s.mp := rfl
@[simp] theorem modClient_store (c : Nat) (g : ClientX → ClientX) : (s.modClient c g).store = s.store := rfl
@[simp] theorem modClient_cf (c : Nat) (g : ClientX → ClientX) : (s.modClient c g).cf = s.cf := rfl
@[simp] theorem modClient_fa (c : Nat) (g : ClientX → ClientX) : (s.modClient c g).fa = s.fa := rfl
@[simp] theorem modClient_port (c : Nat) (g : ClientX → ClientX) : (s.modClient c g).port = s.port := rfl
@[simp] theorem modClient_num (c : Nat) (g : ClientX → ClientX) : (s.modClient c g).num = s.num := rfl
@[simp] theorem modClient_xc (c : Nat) (g : ClientX → ClientX) : (s.modClient c g).xc = s.xc := rfl
@[simp] theorem modClient_gr (c : Nat) (g : ClientX → ClientX) : (s.modClient c g).gr = s.gr := rfl
@[simp] theorem modClient_dm (c : Nat) (g : ClientX → ClientX) : (s.modClient c g).dm = s.dm := rfl
@[simp] theorem modClient_ps (c : Nat) (g : ClientX → ClientX) : (s.modClient c g).ps = s.ps := rfl
@[simp] theorem modClient_tod (c : Nat) (g : ClientX → ClientX) : (s.modClient c g).tod = s.tod := rfl
@[simp] theorem modClient_kf (c : Nat) (g : ClientX → ClientX) : (s.modClient c g).kf = s.kf := rfl
@[simp] theorem modClient_fe (c : Nat) (g : ClientX → ClientX) : (s.modClient c g).fe = s.fe := rfl
@[simp] theorem modClient_tg (c : Nat) (g : ClientX → ClientX) : (s.modClient c g).tg = s.tg := rfl
@[simp] theorem modClient_bc (c : Nat) (g : ClientX → ClientX) : (s.modClient c g).bc = s.bc := rfl
@[simp] theorem modClient_bm (c : Nat) (g : ClientX → ClientX) : (s.modClient c g).bm = s.bm := rfl
@[simp] theorem modClient_ic (c : Nat) (g : ClientX → ClientX) : (s.modClient c g).ic = s.ic := rfl
@[simp] theorem modClient_reg (c : Nat) (g : ClientX → ClientX) (r : Nat) : (s.modClient c g).reg r = s.reg r := rfl
@[simp] theorem modClient_get (c : Nat) (g : ClientX → ClientX) (h : Field) (m l : Nat) : (s.modClient c g).get h m l = s.get h m l := rfl
@[simp] theorem modClient_on (c : Nat) (g : ClientX → ClientX) (h : Field) (m l : Nat) : (s.modClient c g).on h m l = s.on h m l := rfl

/-! ### modFe -/

@[simp] theorem modFe_pending (x : Nat) (g : FeChan → FeChan) : (s.modFe x g).pending = s.pending := rfl
@[simp] theorem modFe_regs (x : Nat) (g : FeChan → FeChan) : (s.modFe x g).regs = s.regs := rfl
@[simp] theorem modFe_locks (x : Nat) (g : FeChan → FeChan) : (s.modFe x g).locks = s.locks := rfl
@[simp] theorem modFe_freeIx (x : Nat) (g : FeChan → FeChan) : (s.modFe x g).freeIx = s.freeIx := rfl
@[simp] theorem modFe_cyc (x : Nat) (g : FeChan → FeChan) : (s.modFe x g).cyc = s.cyc := rfl
@[simp] theorem modFe_chip (x : Nat) (g : FeChan → FeChan) : (s.modFe x g).chip = s.chip := rfl
@[simp] theorem modFe_otp (x : Nat) (g : FeChan → FeChan) : (s.modFe x g).otp = s.otp := rfl
@[simp] theorem modFe_ch (x : Nat) (g : FeChan → FeChan) : (s.modFe x g).ch = s.ch := rfl
@[simp] theorem modFe_mp (x : Nat) (g : FeChan → FeChan) : (s.modFe x g).mp = s.mp := rfl
@[simp] theorem modFe_store (x : Nat) (g : FeChan → FeChan) : (s.modFe x g).store = s.store := rfl
@[simp] theorem modFe_cf (x : Nat) (g : FeChan → FeChan) : (s.modFe x g).cf = s.cf := rfl
@[simp] theorem modFe_fa (x : Nat) (g : FeChan → FeChan) : (s.modFe x g).fa = s.fa := rfl
@[simp] theorem modFe_port (x : Nat) (g : FeChan → FeChan) : (s.modFe x g).port = s.port := rfl
@[simp] theorem modFe_num (x : Nat) (g : FeChan → FeChan) : (s.modFe x g).num = s.num := rfl
@[simp] theorem modFe_xc (x : Nat) (g : FeChan → FeChan) : (s.modFe x g).xc = s.xc := rfl
@[simp] theorem modFe_gr (x : Nat) (g : FeChan → FeChan) : (s.modFe x g).gr = s.gr := rfl
@[simp] theorem modFe_qm (x : Nat) (g : FeChan → FeChan) : (s.modFe x g).qm = s.qm := rfl
@[simp] theorem modFe_dm (x : Nat) (g : FeChan → FeChan) : (s.modFe x g).dm = s.dm := rfl
@[simp] theorem modFe_ps (x : Nat) (g : FeChan → FeChan) : (s.modFe x g).ps = s.ps := rfl
@[simp] theorem modFe_tod (x : Nat) (g : FeChan → FeChan) : (s.modFe x g).tod = s.tod := rfl
@[simp] theorem modFe_kf (x : Nat) (g : FeChan → FeChan) : (s.modFe x g).kf = s.kf := rfl
@[simp] theorem modFe_tg (x : Nat) (g : FeChan → FeChan) : (s.modFe x g).tg = s.tg := rfl
@[simp] theorem modFe_bc (x : Nat) (g : FeChan → FeChan) : (s.modFe x g).bc = s.bc := rfl
@[simp] theorem modFe_bm (x : Nat) (g : FeChan → FeChan) : (s.modFe x g).bm = s.bm := rfl
@[simp] theorem modFe_ic (x : Nat) (g : FeChan → FeChan) : (s.modFe x g).ic = s.ic := rfl
@[simp] theorem modFe_reg (x : Nat) (g : FeChan → FeChan) (r : Nat) : (s.modFe x g).reg r = s.reg r := rfl
@[simp] theorem modFe_get (x : Nat) (g : FeChan → FeChan) (h : Field) (m l : Nat) : (s.modFe x g).get h m l = s.get h m l := rfl
@[simp] theorem modFe_on (x : Nat) (g : FeChan → FeChan) (h : Field) (m l : Nat) : (s.modFe x g).on h m l = s.on h m l := rfl

/-! ### modGroup -/

@[simp] theorem modGroup_pending (u : Nat) (g : GroupX → GroupX) : (s.modGroup u g).pending = s.pending := rfl
@[simp] theorem modGroup_regs (u : Nat) (g : GroupX → GroupX) : (s.modGroup u g).regs = s.regs := rfl
@[simp] theorem modGroup_locks (u : Nat) (g : GroupX → GroupX) : (s.modGroup u g).locks = s.locks := rfl
@[simp] theorem modGroup_freeIx (u : Nat) (g : GroupX → GroupX) : (s.modGroup u g).freeIx = s.freeIx := rfl
@[simp] theorem modGroup_cyc (u : Nat) (g : GroupX → GroupX) : (s.modGroup u g).cyc = s.cyc := rfl
@[simp] theorem modGroup_chip (u : Nat) (g : GroupX → GroupX) : (s.modGroup u g).chip = s.chip := rfl
@[simp] theorem modGroup_otp (u : Nat) (g : GroupX → GroupX) : (s.modGroup u g).otp = s.otp := rfl
@[simp] theorem modGroup_ch (u : Nat) (g : GroupX → GroupX) : (s.modGroup u g).ch = s.ch := rfl
@[simp] theorem modGroup_mp (u : Nat) (g : GroupX → GroupX) : (s.modGroup u g).mp = s.mp := rfl
@[simp] theorem modGroup_store (u : Nat) (g : GroupX → GroupX) : (s.modGroup u g).store = s.store := rfl
@[simp] theorem modGroup_cf (u : Nat) (g : GroupX → GroupX) : (s.modGroup u g).cf = s.cf := rfl
@[simp] theorem modGroup_fa (u : Nat) (g : GroupX → GroupX) : (s.modGroup u g).fa = s.fa := rfl
@[simp] theorem modGroup_port (u : Nat) (g : GroupX → GroupX) : (s.modGroup u g).port = s.port := rfl
@[simp] theorem modGroup_num (u : Nat) (g : GroupX → GroupX) : (s.modGroup u g).num = s.num := rfl
@[simp] theorem modGroup_xc (u : Nat) (g : GroupX → GroupX) : (s.modGroup u g).xc = s.xc := rfl
@[simp] theorem modGroup_gr (u : Nat) (g : GroupX → GroupX) : (s.modGroup u g).gr = s.gr := rfl
@[simp] theorem modGroup_qm (u : Nat) (g : GroupX → GroupX) : (s.modGroup u g).qm = s.qm := rfl
@[simp] theorem modGroup_dm (u : Nat) (g : GroupX → GroupX) : (s.modGroup u g).dm = s.dm := rfl
@[simp] theorem modGroup_tod (u : Nat) (g : GroupX → GroupX) : (s.modGroup u g).tod = s.tod := rfl
@[simp] theorem modGroup_kf (u : Nat) (g : GroupX → GroupX) : (s.modGroup u g).kf = s.kf := rfl
@[simp] theorem modGroup_fe (u : Nat) (g : GroupX → GroupX) : (s.modGroup u g).fe = s.fe := rfl
@[simp] theorem modGroup_tg (u : Nat) (g : GroupX → GroupX) : (s.modGroup u g).tg = s.tg := rfl
@[simp] theorem modGroup_bc (u : Nat) (g : GroupX → GroupX) : (s.modGroup u g).bc = s.bc := rfl
@[simp] theorem modGroup_bm (u : Nat) (g : GroupX → GroupX) : (s.modGroup u g).bm = s.bm := rfl
@[simp] theorem modGroup_ic (u : Nat) (g : GroupX → GroupX) : (s.modGroup u g).ic = s.ic := rfl
@[simp] theorem modGroup_reg (u : Nat) (g : GroupX → GroupX) (r : Nat) : (s.modGroup u g).reg r = s.reg r := rfl
@[simp] theorem modGroup_get (u : Nat) (g : GroupX → GroupX) (h : Field) (m l : Nat) : (s.modGroup u g).get h m l = s.get h m l := rfl
@[simp] theorem modGroup_on (u : Nat) (g : GroupX → GroupX) (h : Field) (m l : Nat) : (s.modGroup u g).on h m l = s.on h m l := rfl

/-! ### modStage -/

@[simp] theorem modStage_pending (j : Nat) (g : StageX → StageX) : (s.modStage j g).pending = s.pending := rfl
@[simp] theorem modStage_regs (j : Nat) (g : StageX → StageX) : (s.modStage j g).regs = s.regs := rfl
@[simp] theorem modStage_locks (j : Nat) (g : StageX → StageX) : (s.modStage j g).locks = s.locks := rfl
@[simp] theorem modStage_freeIx (j : Nat) (g : StageX → StageX) : (s.modStage j g).freeIx = s.freeIx := rfl
@[simp] theorem modStage_cyc (j : Nat) (g : StageX → StageX) : (s.modStage j g).cyc = s.cyc := rfl
@[simp] theorem modStage_chip (j : Nat) (g : StageX → StageX) : (s.modStage j g).chip = s.chip := rfl
@[simp] theorem modStage_otp (j : Nat) (g : StageX → StageX) : (s.modStage j g).otp = s.otp := rfl
@[simp] theorem modStage_ch (j : Nat) (g : StageX → StageX) : (s.modStage j g).ch = s.ch := rfl
@[simp] theorem modStage_mp (j : Nat) (g : StageX → StageX) : (s.modStage j g).mp = s.mp := rfl
@[simp] theorem modStage_store (j : Nat) (g : StageX → StageX) : (s.modStage j g).store = s.store := rfl
@[simp] theorem modStage_fa (j : Nat) (g : StageX → StageX) : (s.modStage j g).fa = s.fa := rfl
@[simp] theorem modStage_port (j : Nat) (g : StageX → StageX) : (s.modStage j g).port = s.port := rfl
@[simp] theorem modStage_num (j : Nat) (g : StageX → StageX) : (s.modStage j g).num = s.num := rfl
@[simp] theorem modStage_xc (j : Nat) (g : StageX → StageX) : (s.modStage j g).xc = s.xc := rfl
@[simp] theorem modStage_gr (j : Nat) (g : StageX → StageX) : (s.modStage j g).gr = s.gr := rfl
@[simp] theorem modStage_qm (j : Nat) (g : StageX → StageX) : (s.modStage j g).qm = s.qm := rfl
@[simp] theorem modStage_dm (j : Nat) (g : StageX → StageX) : (s.modStage j g).dm = s.dm := rfl
@[simp] theorem modStage_ps (j : Nat) (g : StageX → StageX) : (s.modStage j g).ps = s.ps := rfl
@[simp] theorem modStage_tod (j : Nat) (g : StageX → StageX) : (s.modStage j g).tod = s.tod := rfl
@[simp] theorem modStage_kf (j : Nat) (g : StageX → StageX) : (s.modStage j g).kf = s.kf := rfl
@[simp] theorem modStage_fe (j : Nat) (g : StageX → StageX) : (s.modStage j g).fe = s.fe := rfl
@[simp] theorem modStage_tg (j : Nat) (g : StageX → StageX) : (s.modStage j g).tg = s.tg := rfl
@[simp] theorem modStage_bc (j : Nat) (g : StageX → StageX) : (s.modStage j g).bc = s.bc := rfl
@[simp] theorem modStage_bm (j : Nat) (g : StageX → StageX) : (s.modStage j g).bm = s.bm := rfl
@[simp] theorem modStage_ic (j : Nat) (g : StageX → StageX) : (s.modStage j g).ic = s.ic := rfl
@[simp] theorem modStage_reg (j : Nat) (g : StageX → StageX) (r : Nat) : (s.modStage j g).reg r = s.reg r := rfl
@[simp] theorem modStage_get (j : Nat) (g : StageX → StageX) (h : Field) (m l : Nat) : (s.modStage j g).get h m l = s.get h m l := rfl
@[simp] theorem modStage_on (j : Nat) (g : StageX → StageX) (h : Field) (m l : Nat) : (s.modStage j g).on h m l = s.on h m l := rfl

/-! ### modCache -/

@[simp] theorem modCache_pending (i : Nat) (g : PairCache → PairCache) : (s.modCache i g).pending = s.pending := rfl
@[simp] theorem modCache_regs (i : Nat) (g : PairCache → PairCache) : (s.modCache i g).regs = s.regs := rfl
@[simp] theorem modCache_locks (i : Nat) (g : PairCache → PairCache) : (s.modCache i g).locks = s.locks := rfl
@[simp] theorem modCache_freeIx (i : Nat) (g : PairCache → PairCache) : (s.modCache i g).freeIx = s.freeIx := rfl
@[simp] theorem modCache_cyc (i : Nat) (g : PairCache → PairCache) : (s.modCache i g).cyc = s.cyc := rfl
@[simp] theorem modCache_chip (i : Nat) (g : PairCache → PairCache) : (s.modCache i g).chip = s.chip := rfl
@[simp] theorem modCache_otp (i : Nat) (g : PairCache → PairCache) : (s.modCache i g).otp = s.otp := rfl
@[simp] theorem modCache_ch (i : Nat) (g : PairCache → PairCache) : (s.modCache i g).ch = s.ch := rfl
@[simp] theorem modCache_mp (i : Nat) (g : PairCache → PairCache) : (s.modCache i g).mp = s.mp := rfl
@[simp] theorem modCache_store (i : Nat) (g : PairCache → PairCache) : (s.modCache i g).store = s.store := rfl
@[simp] theorem modCache_fa (i : Nat) (g : PairCache → PairCache) : (s.modCache i g).fa = s.fa := rfl
@[simp] theorem modCache_port (i : Nat) (g : PairCache → PairCache) : (s.modCache i g).port = s.port := rfl
@[simp] theorem modCache_num (i : Nat) (g : PairCache → PairCache) : (s.modCache i g).num = s.num := rfl
@[simp] theorem modCache_xc (i : Nat) (g : PairCache → PairCache) : (s.modCache i g).xc = s.xc := rfl
@[simp] theorem modCache_gr (i : Nat) (g : PairCache → PairCache) : (s.modCache i g).gr = s.gr := rfl
@[simp] theorem modCache_qm (i : Nat) (g : PairCache → PairCache) : (s.modCache i g).qm = s.qm := rfl
@[simp] theorem modCache_dm (i : Nat) (g : PairCache → PairCache) : (s.modCache i g).dm = s.dm := rfl
@[simp] theorem modCache_ps (i : Nat) (g : PairCache → PairCache) : (s.modCache i g).ps = s.ps := rfl
@[simp] theorem modCache_tod (i : Nat) (g : PairCache → PairCache) : (s.modCache i g).tod = s.tod := rfl
@[simp] theorem modCache_kf (i : Nat) (g : PairCache → PairCache) : (s.modCache i g).kf = s.kf := rfl
@[simp] theorem modCache_fe (i : Nat) (g : PairCache → PairCache) : (s.modCache i g).fe = s.fe := rfl
@[simp] theorem modCache_tg (i : Nat) (g : PairCache → PairCache) : (s.modCache i g).tg = s.tg := rfl
@[simp] theorem modCache_bc (i : Nat) (g : PairCache → PairCache) : (s.modCache i g).bc = s.bc := rfl
@[simp] theorem modCache_bm (i : Nat) (g : PairCache → PairCache) : (s.modCache i g).bm = s.bm := rfl
@[simp] theorem modCache_ic (i : Nat) (g : PairCache → PairCache) : (s.modCache i g).ic = s.ic := rfl
@[simp] theorem modCache_reg (i : Nat) (g : PairCache → PairCache) (r : Nat) : (s.modCache i g).reg r = s.reg r := rfl
@[simp] theorem modCache_get (i : Nat) (g : PairCache → PairCache) (h : Field) (m l : Nat) : (s.modCache i g).get h m l = s.get h m l := rfl
@[simp] theorem modCache_on (i : Nat) (g : PairCache → PairCache) (h : Field) (m l : Nat) : (s.modCache i g).on h m l = s.on h m l := rfl

/-! ### Reads of a state whose other parts were updated -/

@[simp] theorem reg_mk (x_pending : List Instr) (x_locks : Nat) (x_freeIx : Nat) (x_cyc : Nat) (x_chip : ChipX) (x_otp : OtpX) (x_ch : ChX) (x_mp : MpX) (x_store : StoreX) (x_cf : CfX) (x_fa : FaX) (x_port : List (Nat × PortX)) (x_num : NumX) (x_xc : XcX) (x_gr : GrX) (x_qm : QmX) (x_dm : DmX) (x_ps : PsX) (x_tod : TodX) (x_kf : KfX) (x_fe : FeX) (x_tg : TgX) (x_bc : BcX) (x_bm : BmX) (x_ic : IcX) (a : Nat) :
    (State.mk x_pending s.regs x_locks x_freeIx x_cyc x_chip x_otp x_ch x_mp x_store x_cf x_fa x_port x_num x_xc x_gr x_qm x_dm x_ps x_tod x_kf x_fe x_tg x_bc x_bm x_ic).reg a = s.reg a := rfl
@[simp] theorem get_mk (x_pending : List Instr) (x_locks : Nat) (x_freeIx : Nat) (x_cyc : Nat) (x_chip : ChipX) (x_otp : OtpX) (x_ch : ChX) (x_mp : MpX) (x_store : StoreX) (x_cf : CfX) (x_fa : FaX) (x_port : List (Nat × PortX)) (x_num : NumX) (x_xc : XcX) (x_gr : GrX) (x_qm : QmX) (x_dm : DmX) (x_ps : PsX) (x_tod : TodX) (x_kf : KfX) (x_fe : FeX) (x_tg : TgX) (x_bc : BcX) (x_bm : BmX) (x_ic : IcX) (f : Field) (i j : Nat) :
    (State.mk x_pending s.regs x_locks x_freeIx x_cyc x_chip x_otp x_ch x_mp x_store x_cf x_fa x_port x_num x_xc x_gr x_qm x_dm x_ps x_tod x_kf x_fe x_tg x_bc x_bm x_ic).get f i j = s.get f i j := rfl
@[simp] theorem on_mk (x_pending : List Instr) (x_locks : Nat) (x_freeIx : Nat) (x_cyc : Nat) (x_chip : ChipX) (x_otp : OtpX) (x_ch : ChX) (x_mp : MpX) (x_store : StoreX) (x_cf : CfX) (x_fa : FaX) (x_port : List (Nat × PortX)) (x_num : NumX) (x_xc : XcX) (x_gr : GrX) (x_qm : QmX) (x_dm : DmX) (x_ps : PsX) (x_tod : TodX) (x_kf : KfX) (x_fe : FeX) (x_tg : TgX) (x_bc : BcX) (x_bm : BmX) (x_ic : IcX) (f : Field) (i j : Nat) :
    (State.mk x_pending s.regs x_locks x_freeIx x_cyc x_chip x_otp x_ch x_mp x_store x_cf x_fa x_port x_num x_xc x_gr x_qm x_dm x_ps x_tod x_kf x_fe x_tg x_bc x_bm x_ic).on f i j = s.on f i j := rfl
@[simp] theorem portX_mk (x_pending : List Instr) (x_regs : List (Nat × Word)) (x_locks : Nat) (x_freeIx : Nat) (x_cyc : Nat) (x_chip : ChipX) (x_otp : OtpX) (x_ch : ChX) (x_mp : MpX) (x_store : StoreX) (x_cf : CfX) (x_fa : FaX) (x_num : NumX) (x_xc : XcX) (x_gr : GrX) (x_qm : QmX) (x_dm : DmX) (x_ps : PsX) (x_tod : TodX) (x_kf : KfX) (x_fe : FeX) (x_tg : TgX) (x_bc : BcX) (x_bm : BmX) (x_ic : IcX) (k : Nat) :
    (State.mk x_pending x_regs x_locks x_freeIx x_cyc x_chip x_otp x_ch x_mp x_store x_cf x_fa s.port x_num x_xc x_gr x_qm x_dm x_ps x_tod x_kf x_fe x_tg x_bc x_bm x_ic).portX k = s.portX k := rfl
/-! ### Records read after a change -/

@[simp] theorem portX_modPort (k : Nat) (g : PortX → PortX) : (s.modPort k g).portX k = g (s.portX k) := by
  simp [portX, modPort]
theorem portX_modPort_other (g : PortX → PortX) {k l : Nat} (h : l ≠ k) : (s.modPort k g).portX l = s.portX l := by
  simp [portX, modPort, SMap.get_set_other _ _ _ h]
@[simp] theorem portX_setReg (a : Nat) (v : Word) (l : Nat) : (s.setReg a v).portX l = s.portX l := rfl
@[simp] theorem portX_put (f : Field) (v i j : Nat) (l : Nat) : (s.put f v i j).portX l = s.portX l := rfl
@[simp] theorem portX_raiseBit (f : Field) (i j : Nat) (l : Nat) : (s.raiseBit f i j).portX l = s.portX l := rfl
@[simp] theorem portX_bumpSat (f : Field) (k i j : Nat) (l : Nat) : (s.bumpSat f k i j).portX l = s.portX l := rfl
@[simp] theorem portX_bumpWrap (f : Field) (k i j : Nat) (l : Nat) : (s.bumpWrap f k i j).portX l = s.portX l := rfl
@[simp] theorem tribX_modTrib (k : Nat) (g : TribX → TribX) : (s.modTrib k g).tribX k = g (s.tribX k) := by
  simp [tribX, modTrib]
theorem tribX_modTrib_other (g : TribX → TribX) {k l : Nat} (h : l ≠ k) : (s.modTrib k g).tribX l = s.tribX l := by
  simp [tribX, modTrib, SMap.get_set_other _ _ _ h]
@[simp] theorem tribX_setReg (a : Nat) (v : Word) (l : Nat) : (s.setReg a v).tribX l = s.tribX l := rfl
@[simp] theorem tribX_put (f : Field) (v i j : Nat) (l : Nat) : (s.put f v i j).tribX l = s.tribX l := rfl
@[simp] theorem tribX_raiseBit (f : Field) (i j : Nat) (l : Nat) : (s.raiseBit f i j).tribX l = s.tribX l := rfl
@[simp] theorem tribX_bumpSat (f : Field) (k i j : Nat) (l : Nat) : (s.bumpSat f k i j).tribX l = s.tribX l := rfl
@[simp] theorem tribX_bumpWrap (f : Field) (k i j : Nat) (l : Nat) : (s.bumpWrap f k i j).tribX l = s.tribX l := rfl
@[simp] theorem gearX_modGear (k : Nat) (g : GearX → GearX) : (s.modGear k g).gearX k = g (s.gearX k) := by
  simp [gearX, modGear]
theorem gearX_modGear_other (g : GearX → GearX) {k l : Nat} (h : l ≠ k) : (s.modGear k g).gearX l = s.gearX l := by
  simp [gearX, modGear, SMap.get_set_other _ _ _ h]
@[simp] theorem gearX_setReg (a : Nat) (v : Word) (l : Nat) : (s.setReg a v).gearX l = s.gearX l := rfl
@[simp] theorem gearX_put (f : Field) (v i j : Nat) (l : Nat) : (s.put f v i j).gearX l = s.gearX l := rfl
@[simp] theorem gearX_raiseBit (f : Field) (i j : Nat) (l : Nat) : (s.raiseBit f i j).gearX l = s.gearX l := rfl
@[simp] theorem gearX_bumpSat (f : Field) (k i j : Nat) (l : Nat) : (s.bumpSat f k i j).gearX l = s.gearX l := rfl
@[simp] theorem gearX_bumpWrap (f : Field) (k i j : Nat) (l : Nat) : (s.bumpWrap f k i j).gearX l = s.gearX l := rfl
@[simp] theorem recipeX_modRecipe (k : Nat) (g : RecipeX → RecipeX) : (s.modRecipe k g).recipeX k = g (s.recipeX k) := by
  simp [recipeX, modRecipe]
theorem recipeX_modRecipe_other (g : RecipeX → RecipeX) {k l : Nat} (h : l ≠ k) : (s.modRecipe k g).recipeX l = s.recipeX l := by
  simp [recipeX, modRecipe, SMap.get_set_other _ _ _ h]
@[simp] theorem recipeX_setReg (a : Nat) (v : Word) (l : Nat) : (s.setReg a v).recipeX l = s.recipeX l := rfl
@[simp] theorem recipeX_put (f : Field) (v i j : Nat) (l : Nat) : (s.put f v i j).recipeX l = s.recipeX l := rfl
@[simp] theorem recipeX_raiseBit (f : Field) (i j : Nat) (l : Nat) : (s.raiseBit f i j).recipeX l = s.recipeX l := rfl
@[simp] theorem recipeX_bumpSat (f : Field) (k i j : Nat) (l : Nat) : (s.bumpSat f k i j).recipeX l = s.recipeX l := rfl
@[simp] theorem recipeX_bumpWrap (f : Field) (k i j : Nat) (l : Nat) : (s.bumpWrap f k i j).recipeX l = s.recipeX l := rfl
@[simp] theorem queueX_modQueue (k : Nat) (g : QueueX → QueueX) : (s.modQueue k g).queueX k = g (s.queueX k) := by
  simp [queueX, modQueue]
theorem queueX_modQueue_other (g : QueueX → QueueX) {k l : Nat} (h : l ≠ k) : (s.modQueue k g).queueX l = s.queueX l := by
  simp [queueX, modQueue, SMap.get_set_other _ _ _ h]
@[simp] theorem queueX_setReg (a : Nat) (v : Word) (l : Nat) : (s.setReg a v).queueX l = s.queueX l := rfl
@[simp] theorem queueX_put (f : Field) (v i j : Nat) (l : Nat) : (s.put f v i j).queueX l = s.queueX l := rfl
@[simp] theorem queueX_raiseBit (f : Field) (i j : Nat) (l : Nat) : (s.raiseBit f i j).queueX l = s.queueX l := rfl
@[simp] theorem queueX_bumpSat (f : Field) (k i j : Nat) (l : Nat) : (s.bumpSat f k i j).queueX l = s.queueX l := rfl
@[simp] theorem queueX_bumpWrap (f : Field) (k i j : Nat) (l : Nat) : (s.bumpWrap f k i j).queueX l = s.queueX l := rfl
@[simp] theorem pktTrib_modPktTrib (k : Nat) (g : PktTrib → PktTrib) : (s.modPktTrib k g).pktTrib k = g (s.pktTrib k) := by
  simp [pktTrib, modPktTrib]
theorem pktTrib_modPktTrib_other (g : PktTrib → PktTrib) {k l : Nat} (h : l ≠ k) : (s.modPktTrib k g).pktTrib l = s.pktTrib l := by
  simp [pktTrib, modPktTrib, SMap.get_set_other _ _ _ h]
@[simp] theorem pktTrib_setReg (a : Nat) (v : Word) (l : Nat) : (s.setReg a v).pktTrib l = s.pktTrib l := rfl
@[simp] theorem pktTrib_put (f : Field) (v i j : Nat) (l : Nat) : (s.put f v i j).pktTrib l = s.pktTrib l := rfl
@[simp] theorem pktTrib_raiseBit (f : Field) (i j : Nat) (l : Nat) : (s.raiseBit f i j).pktTrib l = s.pktTrib l := rfl
@[simp] theorem pktTrib_bumpSat (f : Field) (k i j : Nat) (l : Nat) : (s.bumpSat f k i j).pktTrib l = s.pktTrib l := rfl
@[simp] theorem pktTrib_bumpWrap (f : Field) (k i j : Nat) (l : Nat) : (s.bumpWrap f k i j).pktTrib l = s.pktTrib l := rfl
@[simp] theorem clientX_modClient (k : Nat) (g : ClientX → ClientX) : (s.modClient k g).clientX k = g (s.clientX k) := by
  simp [clientX, modClient]
theorem clientX_modClient_other (g : ClientX → ClientX) {k l : Nat} (h : l ≠ k) : (s.modClient k g).clientX l = s.clientX l := by
  simp [clientX, modClient, SMap.get_set_other _ _ _ h]
@[simp] theorem clientX_setReg (a : Nat) (v : Word) (l : Nat) : (s.setReg a v).clientX l = s.clientX l := rfl
@[simp] theorem clientX_put (f : Field) (v i j : Nat) (l : Nat) : (s.put f v i j).clientX l = s.clientX l := rfl
@[simp] theorem clientX_raiseBit (f : Field) (i j : Nat) (l : Nat) : (s.raiseBit f i j).clientX l = s.clientX l := rfl
@[simp] theorem clientX_bumpSat (f : Field) (k i j : Nat) (l : Nat) : (s.bumpSat f k i j).clientX l = s.clientX l := rfl
@[simp] theorem clientX_bumpWrap (f : Field) (k i j : Nat) (l : Nat) : (s.bumpWrap f k i j).clientX l = s.clientX l := rfl
@[simp] theorem feX_modFe (k : Nat) (g : FeChan → FeChan) : (s.modFe k g).feX k = g (s.feX k) := by
  simp [feX, modFe]
theorem feX_modFe_other (g : FeChan → FeChan) {k l : Nat} (h : l ≠ k) : (s.modFe k g).feX l = s.feX l := by
  simp [feX, modFe, SMap.get_set_other _ _ _ h]
@[simp] theorem feX_setReg (a : Nat) (v : Word) (l : Nat) : (s.setReg a v).feX l = s.feX l := rfl
@[simp] theorem feX_put (f : Field) (v i j : Nat) (l : Nat) : (s.put f v i j).feX l = s.feX l := rfl
@[simp] theorem feX_raiseBit (f : Field) (i j : Nat) (l : Nat) : (s.raiseBit f i j).feX l = s.feX l := rfl
@[simp] theorem feX_bumpSat (f : Field) (k i j : Nat) (l : Nat) : (s.bumpSat f k i j).feX l = s.feX l := rfl
@[simp] theorem feX_bumpWrap (f : Field) (k i j : Nat) (l : Nat) : (s.bumpWrap f k i j).feX l = s.feX l := rfl
@[simp] theorem groupX_modGroup (k : Nat) (g : GroupX → GroupX) : (s.modGroup k g).groupX k = g (s.groupX k) := by
  simp [groupX, modGroup]
theorem groupX_modGroup_other (g : GroupX → GroupX) {k l : Nat} (h : l ≠ k) : (s.modGroup k g).groupX l = s.groupX l := by
  simp [groupX, modGroup, SMap.get_set_other _ _ _ h]
@[simp] theorem groupX_setReg (a : Nat) (v : Word) (l : Nat) : (s.setReg a v).groupX l = s.groupX l := rfl
@[simp] theorem groupX_put (f : Field) (v i j : Nat) (l : Nat) : (s.put f v i j).groupX l = s.groupX l := rfl
@[simp] theorem groupX_raiseBit (f : Field) (i j : Nat) (l : Nat) : (s.raiseBit f i j).groupX l = s.groupX l := rfl
@[simp] theorem groupX_bumpSat (f : Field) (k i j : Nat) (l : Nat) : (s.bumpSat f k i j).groupX l = s.groupX l := rfl
@[simp] theorem groupX_bumpWrap (f : Field) (k i j : Nat) (l : Nat) : (s.bumpWrap f k i j).groupX l = s.groupX l := rfl
@[simp] theorem stageX_modStage (k : Nat) (g : StageX → StageX) : (s.modStage k g).stageX k = g (s.stageX k) := by
  simp [stageX, modStage]
theorem stageX_modStage_other (g : StageX → StageX) {k l : Nat} (h : l ≠ k) : (s.modStage k g).stageX l = s.stageX l := by
  simp [stageX, modStage, SMap.get_set_other _ _ _ h]
@[simp] theorem stageX_setReg (a : Nat) (v : Word) (l : Nat) : (s.setReg a v).stageX l = s.stageX l := rfl
@[simp] theorem stageX_put (f : Field) (v i j : Nat) (l : Nat) : (s.put f v i j).stageX l = s.stageX l := rfl
@[simp] theorem stageX_raiseBit (f : Field) (i j : Nat) (l : Nat) : (s.raiseBit f i j).stageX l = s.stageX l := rfl
@[simp] theorem stageX_bumpSat (f : Field) (k i j : Nat) (l : Nat) : (s.bumpSat f k i j).stageX l = s.stageX l := rfl
@[simp] theorem stageX_bumpWrap (f : Field) (k i j : Nat) (l : Nat) : (s.bumpWrap f k i j).stageX l = s.stageX l := rfl
@[simp] theorem cacheX_modCache (k : Nat) (g : PairCache → PairCache) : (s.modCache k g).cacheX k = g (s.cacheX k) := by
  simp [cacheX, modCache]
theorem cacheX_modCache_other (g : PairCache → PairCache) {k l : Nat} (h : l ≠ k) : (s.modCache k g).cacheX l = s.cacheX l := by
  simp [cacheX, modCache, SMap.get_set_other _ _ _ h]
@[simp] theorem cacheX_setReg (a : Nat) (v : Word) (l : Nat) : (s.setReg a v).cacheX l = s.cacheX l := rfl
@[simp] theorem cacheX_put (f : Field) (v i j : Nat) (l : Nat) : (s.put f v i j).cacheX l = s.cacheX l := rfl
@[simp] theorem cacheX_raiseBit (f : Field) (i j : Nat) (l : Nat) : (s.raiseBit f i j).cacheX l = s.cacheX l := rfl
@[simp] theorem cacheX_bumpSat (f : Field) (k i j : Nat) (l : Nat) : (s.bumpSat f k i j).cacheX l = s.cacheX l := rfl
@[simp] theorem cacheX_bumpWrap (f : Field) (k i j : Nat) (l : Nat) : (s.bumpWrap f k i j).cacheX l = s.cacheX l := rfl

/-! ### Registers -/

@[simp] theorem reg_setReg (a : Nat) (v : Word) : (s.setReg a v).reg a = v := by simp [reg, setReg]

theorem reg_setReg_other (v : Word) {a b : Nat} (h : b ≠ a) : (s.setReg a v).reg b = s.reg b := by
  simp [reg, setReg, SMap.get_set_other _ _ _ h]

/-- A field written leaves every other register alone. -/
theorem reg_put_other (f : Field) (v i j : Nat) {b : Nat} (h : b ≠ f.addr i j) : (s.put f v i j).reg b = s.reg b :=
  reg_setReg_other _ _ h

theorem reg_put (f : Field) (v i j : Nat) :
    (s.put f v i j).reg (f.addr i j) = BitVec.ofNat 32 (insertBits (s.reg (f.addr i j)).toNat f.lo f.w v) :=
  reg_setReg _ _ _

theorem reg_raiseBit_other (f : Field) (i j : Nat) {b : Nat} (h : b ≠ f.addr i j) : (s.raiseBit f i j).reg b = s.reg b :=
  reg_put_other _ _ _ _ _ h

theorem reg_bumpSat_other (f : Field) (k i j : Nat) {b : Nat} (h : b ≠ f.addr i j) : (s.bumpSat f k i j).reg b = s.reg b :=
  reg_put_other _ _ _ _ _ h

theorem reg_bumpWrap_other (f : Field) (k i j : Nat) {b : Nat} (h : b ≠ f.addr i j) : (s.bumpWrap f k i j).reg b = s.reg b :=
  reg_put_other _ _ _ _ _ h

/-- A field in another register reads as before. -/
theorem get_put_otherReg (f g : Field) (v i j m l : Nat) (h : g.addr m l ≠ f.addr i j) :
    (s.put f v i j).get g m l = s.get g m l := by
  simp only [get, reg_put_other s f v i j h]

theorem bitsOf_insertBits (n lo w v : Nat) : bitsOf (insertBits n lo w v) lo w = v % 2 ^ w := by
  have h : n % 2 ^ lo < 2 ^ lo := Nat.mod_lt _ (Nat.two_pow_pos _)
  have e : insertBits n lo w v = n % 2 ^ lo + 2 ^ lo * (v % 2 ^ w + 2 ^ w * (n / 2 ^ (lo + w))) := by
    rw [insertBits, Nat.pow_add]; ring
  rw [bitsOf, e, Nat.add_mul_div_left _ _ (Nat.two_pow_pos _), Nat.div_eq_of_lt h, Nat.zero_add, Nat.add_mul_mod_self_left,
    Nat.mod_mod]

theorem insertBits_lt {n lo w v : Nat} (hn : n < 2 ^ 32) (h : lo + w ≤ 32) : insertBits n lo w v < 2 ^ 32 := by
  have h1 : n % 2 ^ lo < 2 ^ lo := Nat.mod_lt _ (Nat.two_pow_pos _)
  have h2 : v % 2 ^ w < 2 ^ w := Nat.mod_lt _ (Nat.two_pow_pos _)
  have h3 : n / 2 ^ (lo + w) < 2 ^ (32 - (lo + w)) := by
    rw [Nat.div_lt_iff_lt_mul (Nat.two_pow_pos _), ← Nat.pow_add]
    rwa [Nat.sub_add_cancel h]
  have e : insertBits n lo w v = n % 2 ^ lo + 2 ^ lo * (v % 2 ^ w + 2 ^ w * (n / 2 ^ (lo + w))) := by
    rw [insertBits, Nat.pow_add]; ring
  have h4 : v % 2 ^ w + 2 ^ w * (n / 2 ^ (lo + w)) < 2 ^ w * 2 ^ (32 - (lo + w)) := by
    calc v % 2 ^ w + 2 ^ w * (n / 2 ^ (lo + w)) < 2 ^ w * (n / 2 ^ (lo + w) + 1) := by rw [Nat.mul_add_one]; omega
      _ ≤ 2 ^ w * 2 ^ (32 - (lo + w)) := Nat.mul_le_mul_left _ h3
  rw [e]
  calc n % 2 ^ lo + 2 ^ lo * (v % 2 ^ w + 2 ^ w * (n / 2 ^ (lo + w)))
      < 2 ^ lo * (v % 2 ^ w + 2 ^ w * (n / 2 ^ (lo + w)) + 1) := by rw [Nat.mul_add_one]; omega
    _ ≤ 2 ^ lo * (2 ^ w * 2 ^ (32 - (lo + w))) := Nat.mul_le_mul_left _ h4
    _ = 2 ^ 32 := by rw [← Nat.pow_add, ← Nat.pow_add]; congr 1; omega

/-- A field written reads as the low bits of what was written. -/
theorem get_put (f : Field) (v i j : Nat) (h : f.lo + f.w ≤ 32) : (s.put f v i j).get f i j = v % 2 ^ f.w := by
  rw [get, reg_put, BitVec.toNat_ofNat, Nat.mod_eq_of_lt (insertBits_lt (s.reg _).isLt h), bitsOf_insertBits]

theorem get_raiseBit (f : Field) (i j : Nat) (h : f.lo + f.w ≤ 32) (hw : 0 < f.w) : (s.raiseBit f i j).get f i j = 1 := by
  rw [raiseBit, get_put _ _ _ _ _ h]
  exact Nat.mod_eq_of_lt (Nat.one_lt_two_pow (by omega))

theorem testBit_insertBits (n lo w v i : Nat) :
    (insertBits n lo w v).testBit i = if lo ≤ i ∧ i < lo + w then v.testBit (i - lo) else n.testBit i := by
  have h1 : n % 2 ^ lo < 2 ^ lo := Nat.mod_lt _ (Nat.two_pow_pos _)
  have e : insertBits n lo w v = 2 ^ lo * (2 ^ w * (n / 2 ^ (lo + w)) + v % 2 ^ w) + n % 2 ^ lo := by
    rw [insertBits, Nat.pow_add]; ring
  rw [e, Nat.testBit_two_pow_mul_add _ h1]
  by_cases a : i < lo
  · simp [a, show ¬ lo ≤ i by omega]
  · rw [if_neg a, Nat.testBit_two_pow_mul_add _ (Nat.mod_lt _ (Nat.two_pow_pos _))]
    by_cases b : i - lo < w
    · simp [b, show lo ≤ i by omega, show i < lo + w by omega]
    · rw [if_neg b]
      have c : ¬ (lo ≤ i ∧ i < lo + w) := by omega
      rw [if_neg c, Nat.testBit_div_two_pow]
      congr 1
      omega

theorem testBit_bitsOf (n lo w i : Nat) : (bitsOf n lo w).testBit i = (decide (i < w) && n.testBit (i + lo)) := by
  rw [bitsOf, Nat.testBit_mod_two_pow, Nat.testBit_div_two_pow]

theorem bitsOf_insertBits_disjoint (n lo w v l u : Nat) (h : l + u ≤ lo ∨ lo + w ≤ l) :
    bitsOf (insertBits n lo w v) l u = bitsOf n l u := by
  apply Nat.eq_of_testBit_eq
  intro i
  rw [testBit_bitsOf, testBit_bitsOf, testBit_insertBits]
  by_cases hi : i < u
  · have c : ¬ (lo ≤ i + l ∧ i + l < lo + w) := by omega
    rw [if_neg c]
  · simp [hi]

/-- A field of the same register that shares no bit reads as before. -/
theorem get_put_disjoint (f g : Field) (v i j m l : Nat) (ha : g.addr m l = f.addr i j) (hf : f.lo + f.w ≤ 32)
    (h : g.lo + g.w ≤ f.lo ∨ f.lo + f.w ≤ g.lo) : (s.put f v i j).get g m l = s.get g m l := by
  rw [get, get, ha, reg_put, BitVec.toNat_ofNat, Nat.mod_eq_of_lt (insertBits_lt (s.reg _).isLt hf),
    bitsOf_insertBits_disjoint _ _ _ _ _ _ h]

/-- A field holds no more than its width. -/
theorem get_lt (f : Field) (i j : Nat) : s.get f i j < 2 ^ f.w := Nat.mod_lt _ (Nat.two_pow_pos _)

theorem get_mod (f : Field) (i j : Nat) : s.get f i j % 2 ^ f.w = s.get f i j := Nat.mod_eq_of_lt (get_lt s f i j)

/-- A one-bit field written from a truth value. -/
theorem get_put_bit (f : Field) (b : Bool) (i j : Nat) (h : f.lo + f.w ≤ 32) (hw : 0 < f.w) :
    (s.put f (b2n b) i j).get f i j = b2n b := by
  rw [get_put _ _ _ _ _ h]
  refine Nat.mod_eq_of_lt (lt_of_lt_of_le ?_ (Nat.pow_le_pow_right (by decide) hw))
  cases b <;> decide

/-- A field that shares no bit with the one written reads as before. -/
theorem get_put_ne (f g : Field) (v i j m l : Nat)
    (h : g.addr m l ≠ f.addr i j ∨ (f.lo + f.w ≤ 32 ∧ (g.lo + g.w ≤ f.lo ∨ f.lo + f.w ≤ g.lo))) :
    (s.put f v i j).get g m l = s.get g m l := by
  by_cases e : g.addr m l = f.addr i j
  · rcases h with h | h
    · exact absurd e h
    · exact get_put_disjoint _ _ _ _ _ _ _ _ e h.1 h.2
  · exact get_put_otherReg _ _ _ _ _ _ _ _ e

/-- A register reads as written, or as before. -/
theorem reg_put_if (f : Field) (v i j b : Nat) :
    (s.put f v i j).reg b = if b = f.addr i j then BitVec.ofNat 32 (insertBits (s.reg b).toNat f.lo f.w v) else s.reg b := by
  by_cases e : b = f.addr i j
  · rw [if_pos e, e, reg_put]
  · rw [if_neg e, reg_put_other _ _ _ _ _ e]

theorem reg_setReg_if (a b : Nat) (v : Word) : (s.setReg a v).reg b = if b = a then v else s.reg b := by
  by_cases e : b = a
  · rw [if_pos e, e, reg_setReg]
  · rw [if_neg e, reg_setReg_other _ _ e]

/-! ### The canonical form of the register store -/

/-- The register store is in its canonical form. -/
theorem wf_setReg (a : Nat) (v : Word) (h : SMap.wf resetWord s.regs = true) :
    SMap.wf resetWord (s.setReg a v).regs = true := SMap.wf_set _ _ h

theorem wf_put (f : Field) (v i j : Nat) (h : SMap.wf resetWord s.regs = true) :
    SMap.wf resetWord (s.put f v i j).regs = true := SMap.wf_set _ _ h

theorem wf_raiseBit (f : Field) (i j : Nat) (h : SMap.wf resetWord s.regs = true) :
    SMap.wf resetWord (s.raiseBit f i j).regs = true := SMap.wf_set _ _ h

theorem wf_bumpSat (f : Field) (k i j : Nat) (h : SMap.wf resetWord s.regs = true) :
    SMap.wf resetWord (s.bumpSat f k i j).regs = true := SMap.wf_set _ _ h

theorem wf_bumpWrap (f : Field) (k i j : Nat) (h : SMap.wf resetWord s.regs = true) :
    SMap.wf resetWord (s.bumpWrap f k i j).regs = true := SMap.wf_set _ _ h

theorem wf_clearRegs (d : Nat → Bool) (h : SMap.wf resetWord s.regs = true) :
    SMap.wf resetWord (s.clearRegs d).regs = true := SMap.wf_restrict _ h

end Sys2Proof.Machine.State

namespace Sys2Proof.Machine

/-! ### Repetition -/

theorem forN_succ (n : Nat) (f : Nat → State → State) (s : State) : forN (n + 1) f s = f n (forN n f s) := rfl

/-- What one repetition keeps, all of them keep. -/
theorem forN_keeps (P : State → Prop) (n : Nat) (f : Nat → State → State) (hf : ∀ i, i < n → ∀ s, P s → P (f i s)) (s : State)
    (h : P s) : P (forN n f s) := by
  induction n with
  | zero => exact h
  | succ n ih => exact hf n (Nat.lt_succ_self n) _ (ih fun i hi => hf i (hi.trans (Nat.lt_succ_self n)))

theorem forList_keeps {α : Type} (P : State → Prop) (l : List α) (f : α → State → State)
    (hf : ∀ x, x ∈ l → ∀ s, P s → P (f x s)) (s : State) (h : P s) : P (forList l f s) := by
  induction l generalizing s with
  | nil => exact h
  | cons x l ih =>
    exact ih (fun y hy => hf y (List.mem_cons_of_mem _ hy)) _ (hf x (List.mem_cons_self) _ h)

end Sys2Proof.Machine
end

