-- ==== Sys2Proof/Laws/Only.lean ====
section
/-!
SUPPORT. Laws/Only.lean: a command that acts answers its effect, and which bits of which registers an update touches.
-/
namespace Sys2Proof.Machine

variable {s t u : State} {fs gs : List (Nat × Nat × Nat)}

/-! ### Acting -/

theorem settle_of_none (h : t.chip.resetDue = none) : settle t = t := by simp [settle, h]

theorem act_of_awake (h : s.Awake) : act s t = .next (settle t) := by simp [act, h.1]

theorem act_next (h : s.Awake) (h' : t.chip.resetDue = none) : act s t = .next t := by
  rw [act_of_awake h, settle_of_none h']

/-- A command held back by internal reset changes nothing. -/
theorem act_held (h : s.chip.held = true) : act s t = .next s := by simp [act, h]

theorem gives_of_act {c : Instr} {P : State → Prop} (h : s.Awake) (e : exec c s = act s t) (h' : t.chip.resetDue = none)
    (p : P t) : Gives c s P := ⟨t, e.trans (act_next h h'), p⟩

/-! ### Which bits change -/

theorem RegsKept.refl (s : State) : RegsKept fs s s := fun _ _ _ => rfl

theorem RegsKept.trans (h : RegsKept fs s t) (k : RegsKept fs t u) : RegsKept fs s u := fun a b n => (k a b n).trans (h a b n)

theorem RegsKept.mono (h : RegsKept fs s t) (sub : ∀ f ∈ fs, f ∈ gs) : RegsKept gs s t :=
  fun a b n => h a b fun ⟨f, m, e⟩ => n ⟨f, sub f m, e⟩

/-- Fields that lie within other fields are kept with them. -/
theorem RegsKept.trans' (h : RegsKept fs s t) (sub : ∀ a b, inFields fs a b → inFields gs a b) : RegsKept gs s t :=
  fun a b n => h a b fun i => n (sub a b i)

theorem RegsKept.of_regs (h : t.regs = s.regs) : RegsKept fs s t := fun a _ _ => by simp only [State.reg, h]

theorem regsKept_setReg {a : Nat} {v : Word} (m : (a, 0, 32) ∈ fs) : RegsKept fs s (s.setReg a v) := by
  intro b i n
  by_cases e : b = a
  · subst e
    have : ¬ i < 32 := fun l => n ⟨_, m, rfl, Nat.zero_le _, by simpa using l⟩
    rw [BitVec.getLsbD_of_ge _ _ (by omega), BitVec.getLsbD_of_ge _ _ (by omega)]
  · rw [State.reg_setReg_other _ _ e]

theorem regsKept_put {f : Field} {v i j : Nat} (m : f.at i j ∈ fs) : RegsKept fs s (s.put f v i j) := by
  intro a b n
  by_cases e : a = f.addr i j
  · subst e
    have h : ¬ (f.lo ≤ b ∧ b < f.lo + f.w) := fun h => n ⟨_, m, rfl, h.1, h.2⟩
    by_cases l : b < 32
    · rw [State.reg_put, BitVec.getLsbD_ofNat, State.testBit_insertBits, if_neg h]
      simp [l, BitVec.getLsbD]
    · rw [BitVec.getLsbD_of_ge _ _ (by omega), BitVec.getLsbD_of_ge _ _ (by omega)]
  · rw [State.reg_put_other _ _ _ _ _ e]

theorem regsKept_raiseBit {f : Field} {i j : Nat} (m : f.at i j ∈ fs) : RegsKept fs s (s.raiseBit f i j) := regsKept_put m
theorem regsKept_bumpSat {f : Field} {k i j : Nat} (m : f.at i j ∈ fs) : RegsKept fs s (s.bumpSat f k i j) := regsKept_put m
theorem regsKept_bumpWrap {f : Field} {k i j : Nat} (m : f.at i j ∈ fs) : RegsKept fs s (s.bumpWrap f k i j) := regsKept_put m

/-- A field written within a register that is named whole. -/
theorem regsKept_put_word {f g : Field} {v i j : Nat} (m : g.word i j ∈ fs) (e : f.addr i j = g.addr i j) (h : f.lo + f.w ≤ 32) :
    RegsKept fs s (s.put f v i j) := by
  refine (regsKept_put (List.mem_singleton.mpr rfl)).trans' ?_
  rintro a b ⟨x, mx, ha, hl, hu⟩
  rw [List.mem_singleton.mp mx] at ha hl hu
  exact ⟨_, m, e.symm.trans ha, Nat.zero_le _, by have := lt_of_lt_of_le hu h; simpa [Field.word] using this⟩

theorem only_refl (s : State) : Only fs s s := ⟨rfl, RegsKept.refl s⟩

theorem Only.trans (h : Only fs s t) (k : Only fs t u) : Only fs s u := by
  refine ⟨?_, h.2.trans k.2⟩
  rw [k.1, h.1]

theorem only_setReg {a : Nat} {v : Word} (m : (a, 0, 32) ∈ fs) : Only fs s (s.setReg a v) := ⟨rfl, regsKept_setReg m⟩
theorem only_put {f : Field} {v i j : Nat} (m : f.at i j ∈ fs) : Only fs s (s.put f v i j) := ⟨rfl, regsKept_put m⟩
theorem only_raiseBit {f : Field} {i j : Nat} (m : f.at i j ∈ fs) : Only fs s (s.raiseBit f i j) := ⟨rfl, regsKept_put m⟩
theorem only_bumpSat {f : Field} {k i j : Nat} (m : f.at i j ∈ fs) : Only fs s (s.bumpSat f k i j) := ⟨rfl, regsKept_put m⟩
theorem only_bumpWrap {f : Field} {k i j : Nat} (m : f.at i j ∈ fs) : Only fs s (s.bumpWrap f k i j) := ⟨rfl, regsKept_put m⟩

theorem only_put_word {f g : Field} {v i j : Nat} (m : g.word i j ∈ fs) (e : f.addr i j = g.addr i j) (h : f.lo + f.w ≤ 32) :
    Only fs s (s.put f v i j) := ⟨rfl, regsKept_put_word m e h⟩

/-- A register that no named field covers reads the same. -/
theorem RegsKept.reg (h : RegsKept fs s t) {a : Nat} (n : ∀ f ∈ fs, f.1 ≠ a) : t.reg a = s.reg a := by
  refine BitVec.eq_of_getLsbD_eq fun b _ => h a b ?_
  rintro ⟨f, m, e, _⟩
  exact n f m e

/-- A field that meets no named field reads the same. -/
theorem RegsKept.get (h : RegsKept fs s t) (f : Field) (i j : Nat)
    (n : ∀ g ∈ fs, g.1 ≠ f.addr i j ∨ g.2.1 + g.2.2 ≤ f.lo ∨ f.lo + f.w ≤ g.2.1) : t.get f i j = s.get f i j := by
  refine Nat.eq_of_testBit_eq fun b => ?_
  rw [State.get, State.get, State.testBit_bitsOf, State.testBit_bitsOf]
  by_cases hb : b < f.w
  · have := h (f.addr i j) (b + f.lo) (by
      rintro ⟨g, m, e, l, u⟩
      rcases n g m with x | x | x
      · exact x e
      · omega
      · omega)
    rw [BitVec.getLsbD, BitVec.getLsbD] at this
    rw [this]
  · simp [hb]

theorem RegsKept.on (h : RegsKept fs s t) (f : Field) (i j : Nat)
    (n : ∀ g ∈ fs, g.1 ≠ f.addr i j ∨ g.2.1 + g.2.2 ≤ f.lo ∨ f.lo + f.w ≤ g.2.1) : t.on f i j = s.on f i j := by
  rw [State.on, State.on, h.get f i j n]

end Sys2Proof.Machine
end

