-- ==== Sys2Proof/Laws/Faults.lean ====
section
/-!
SUPPORT. Laws/Faults.lean: what logging, acknowledging and entering internal reset leave as it was.
-/
namespace Sys2Proof.Machine

variable (s : State)

/-! ### Registers kept and cleared -/

theorem reg_restrict (keep : Nat → Bool) (a : Nat) :
    ({ s with regs := SMap.restrict keep s.regs } : State).reg a = if keep a then s.reg a else resetWord a :=
  SMap.get_restrict _ _ _ _

theorem reg_of_regs {s t : State} {a : Nat} (h : t.regs = s.regs) : t.reg a = s.reg a := by rw [State.reg, State.reg, h]

/-! ### The event log -/

@[simp] theorem reg_eccWritten (a b : Nat) : (eccWritten s a).reg b = s.reg b := rfl

/-- A log entry writes the log's registers only. -/
theorem reg_logPush (kind subj detail : Nat) (inj esc : Bool) {a : Nat} (h : ¬ logAddr a) :
    (logPush s kind subj detail inj esc).reg a = s.reg a := by
  have hl : (s.get F.FA_LOG_SEQ) % 4096 < 4096 := Nat.mod_lt _ (by decide)
  simp only [logAddr, not_or, not_and, Nat.not_lt] at h
  obtain ⟨h1, h2, h3⟩ := h
  have e : ∀ j, j < 4 → a ≠ F.FA_LOG.addr (s.get F.FA_LOG_SEQ % 4096) j := by
    intro j hj e
    simp only [F.FA_LOG, Field.addr] at e
    omega
  have q : a ≠ F.FA_LOG_SEQ.addr := h1
  have w : a ≠ F.FA_LOG_LOST_LOST.addr := h2
  unfold logPush
  dsimp only
  split
  · rw [State.reg_bumpSat_other _ _ _ _ _ w, reg_eccWritten, reg_eccWritten, State.reg_put_other _ _ _ _ _ q,
      State.reg_put_other _ _ _ _ _ (e 3 (by decide)), State.reg_put_other _ _ _ _ _ (e 2 (by decide)),
      State.reg_put_other _ _ _ _ _ (e 1 (by decide)), State.reg_put_other _ _ _ _ _ (e 0 (by decide))]
  · rw [reg_eccWritten, reg_eccWritten, State.reg_put_other _ _ _ _ _ q,
      State.reg_put_other _ _ _ _ _ (e 3 (by decide)), State.reg_put_other _ _ _ _ _ (e 2 (by decide)),
      State.reg_put_other _ _ _ _ _ (e 1 (by decide)), State.reg_put_other _ _ _ _ _ (e 0 (by decide))]

/-- An acknowledgement writes FA_OPEN, FA_ESC and the log only. -/
theorem reg_ackOne (z who : Nat) {a : Nat} (h : ¬ logAddr a) (ho : a ≠ 0x40130004) (he : a ≠ 0x40130008) :
    (ackOne s z who).reg a = s.reg a := by
  have he' : a ≠ F.FA_ESC.addr 0 0 := by simpa [F.FA_ESC, Field.addr] using he
  have ho' : a ≠ F.FA_OPEN.addr 0 0 := by simpa [F.FA_OPEN, Field.addr] using ho
  unfold ackOne
  split
  · rw [reg_logPush _ _ _ _ _ _ h]
    rw [State.reg_mk, State.reg_put_other _ _ _ _ _ he', State.reg_put_other _ _ _ _ _ ho']
  · rfl

theorem reg_ackMask (mask who : Nat) {a : Nat} (h : ¬ logAddr a) (ho : a ≠ 0x40130004) (he : a ≠ 0x40130008) :
    (ackMask s mask who).reg a = s.reg a := by
  refine forN_keeps (fun t => t.reg a = s.reg a) 23 _ ?_ s rfl
  intro z _ t e
  split
  · rw [reg_ackOne _ _ _ h ho he, e]
  · exact e

/-! ### Internal reset -/

/-- Giving spares back writes FA_RP_ROWS alone. -/
theorem reg_sparesBack {a : Nat} (h : a ≠ 0x40130080) : (sparesBack s).reg a = s.reg a := by
  refine forList_keeps (fun t => t.reg a = s.reg a) _ _ ?_ s rfl
  intro r _ t e
  rw [← e]
  simp only [putSpares]
  split <;> exact State.reg_put_other _ _ _ _ _ (by simpa [Field.addr, F.FA_RP_ROWS_R0, F.FA_RP_ROWS_R1, F.FA_RP_ROWS_R2] using h)

/-- After internal reset a register reads as kept (Table 19.2), or as at reset. -/
theorem reg_enterReset (code z : Nat) (lowRail : Bool) {a : Nat} (hl : ¬ logAddr a) (h1 : a ≠ 0x40010004) (h2 : a ≠ 0x400B0004)
    (h3 : a ≠ 0x4013000C) (ho : a ≠ 0x40130004) (he : a ≠ 0x40130008) (hr : a ≠ 0x40130080) :
    (enterReset s code z lowRail).reg a = if keptReg lowRail a then s.reg a else resetWord a := by
  have h1' : a ≠ F.CH_STATUS_DOWEL_OUT.addr 0 0 := by simpa [F.CH_STATUS_DOWEL_OUT, Field.addr] using h1
  have h2' : a ≠ F.TG_HASH_OWN_HASH.addr 0 0 := by simpa [F.TG_HASH_OWN_HASH, Field.addr] using h2
  have h3' : a ≠ F.FA_GSTAT_LAST_RESET.addr 0 0 := by simpa [F.FA_GSTAT_LAST_RESET, Field.addr] using h3
  have h4' : a ≠ F.FA_GSTAT_CAUSE_Z.addr 0 0 := by simpa [F.FA_GSTAT_CAUSE_Z, Field.addr] using h3
  unfold enterReset
  dsimp only
  rw [State.reg_put_other _ _ _ _ _ h4', State.reg_put_other _ _ _ _ _ h3', State.reg_put_other _ _ _ _ _ h2',
    State.reg_put_other _ _ _ _ _ h1']
  refine (SMap.get_restrict resetWord _ _ _).trans ?_
  split
  · split
    · rfl
    · exact (reg_sparesBack _ hr).trans (reg_ackMask _ _ _ hl ho he)
  · rfl

section
variable (code z : Nat) (lowRail : Bool)

theorem enterReset_cause : (enterReset s code z lowRail).get F.FA_GSTAT_CAUSE_Z = z % 256 := by
  unfold enterReset
  rw [State.get_put _ _ _ _ _ (by decide)]
  rfl

theorem enterReset_lastReset : (enterReset s code z lowRail).get F.FA_GSTAT_LAST_RESET = code % 256 := by
  unfold enterReset
  rw [State.get_put_ne _ _ _ _ _ _ _ _ (by decide), State.get_put _ _ _ _ _ (by decide)]
  rfl

@[simp] theorem enterReset_pending : (enterReset s code z lowRail).pending = s.pending := by
  unfold enterReset
  rw [State.put_pending, State.put_pending, State.put_pending, State.put_pending]
@[simp] theorem enterReset_freeIx : (enterReset s code z lowRail).freeIx = s.freeIx := by
  unfold enterReset
  rw [State.put_freeIx, State.put_freeIx, State.put_freeIx, State.put_freeIx]
@[simp] theorem enterReset_locks : (enterReset s code z lowRail).locks = 0 := by
  unfold enterReset
  rw [State.put_locks, State.put_locks, State.put_locks, State.put_locks]
  rfl
@[simp] theorem enterReset_otp : (enterReset s code z lowRail).otp = s.otp := by
  unfold enterReset
  rw [State.put_otp, State.put_otp, State.put_otp, State.put_otp]
@[simp] theorem enterReset_store : (enterReset s code z lowRail).store = cutStore s.store := by
  unfold enterReset
  rw [State.put_store, State.put_store, State.put_store, State.put_store]
@[simp] theorem enterReset_held : (enterReset s code z lowRail).chip.held = true := by
  unfold enterReset
  rw [State.put_chip, State.put_chip, State.put_chip, State.put_chip]
@[simp] theorem enterReset_counting : (enterReset s code z lowRail).chip.counting = false := by
  unfold enterReset
  rw [State.put_chip, State.put_chip, State.put_chip, State.put_chip]
@[simp] theorem enterReset_resetDue : (enterReset s code z lowRail).chip.resetDue = none := by
  unfold enterReset
  rw [State.put_chip, State.put_chip, State.put_chip, State.put_chip]
@[simp] theorem enterReset_hot : (enterReset s code z lowRail).chip.hot = s.chip.hot := by
  unfold enterReset
  rw [State.put_chip, State.put_chip, State.put_chip, State.put_chip]
@[simp] theorem enterReset_railDip : (enterReset s code z lowRail).chip.railDip = s.chip.railDip := by
  unfold enterReset
  rw [State.put_chip, State.put_chip, State.put_chip, State.put_chip]
@[simp] theorem enterReset_railLow : (enterReset s code z lowRail).chip.railLow = s.chip.railLow := by
  unfold enterReset
  rw [State.put_chip, State.put_chip, State.put_chip, State.put_chip]
end

/-- What a command leaves is settled: no reset is due any more. -/
theorem settle_resetDue : (settle s).chip.resetDue = none := by
  unfold settle
  split
  · assumption
  · exact enterReset_resetDue _ _ _ _

end Sys2Proof.Machine
end

