-- ==== Sys2Proof/Laws/Memory.lean ====
section
/-!
SUPPORT. Laws/Memory.lean: the memories that are held byte by byte, working SRAM and the cell pool: reads after writes, and
that every write keeps the canonical form.
-/
namespace Sys2Proof.Machine

/-- One byte written keeps the canonical form. -/
theorem Memory.wf_set {m : List Host.Cell} (a : Nat) (b : Byte) (h : Memory.wf m = true) : Memory.wf (SMap.set byteDflt m a b) = true :=
  SMap.wf_set a b h

/-- A run of bytes written to working SRAM changes nothing else. -/
theorem sramPut_eq (s : State) (off : Nat) (bs : List Byte) : sramPut s off bs = { s with bm.sram := (sramPut s off bs).bm.sram } := by
  induction bs generalizing s off with
  | nil => rfl
  | cons b bs ih => rw [sramPut, ih]

/-- A run of bytes written to working SRAM keeps the canonical form. -/
theorem sramPut_wf (s : State) (off : Nat) (bs : List Byte) (h : Memory.wf s.bm.sram = true) :
    Memory.wf (sramPut s off bs).bm.sram = true := by
  induction bs generalizing s off with
  | nil => exact h
  | cons b bs ih => exact ih _ _ (Memory.wf_set off b h)

/-- Each byte of the run reads back; every other byte reads as before. -/
theorem sramPut_read (s : State) (off : Nat) (bs : List Byte) (a : Nat) :
    SMap.get byteDflt (sramPut s off bs).bm.sram a =
      if off ≤ a ∧ a < off + bs.length then bs.getD (a - off) 0 else SMap.get byteDflt s.bm.sram a := by
  induction bs generalizing s off with
  | nil => simp [sramPut]
  | cons b bs ih =>
    rw [sramPut, ih]
    by_cases h1 : a = off
    · subst h1; simp
    · by_cases h2 : off + 1 ≤ a ∧ a < off + 1 + bs.length
      · rw [if_pos h2, if_pos (by simp only [List.length_cons]; omega)]
        obtain ⟨d, hd⟩ : ∃ d, a - off = d + 1 := ⟨a - off - 1, by omega⟩
        rw [hd, List.getD_cons_succ]; congr 1; omega
      · rw [if_neg h2, if_neg (by simp only [List.length_cons]; omega), SMap.get_set_other _ _ _ h1]

/-- A byte written to the cell pool keeps the canonical form. -/
theorem poolPut_wf (s : State) (off : Nat) (b : Byte) (h : Memory.wf s.qm.pool = true) : Memory.wf (poolPut s off b).qm.pool = true :=
  Memory.wf_set off b h

/-- A byte written to the cell pool reads back, and every other byte reads as before. -/
theorem poolPut_read (s : State) (off : Nat) (b : Byte) (a : Nat) :
    SMap.get byteDflt (poolPut s off b).qm.pool a = if a = off then b else SMap.get byteDflt s.qm.pool a :=
  SMap.get_set _ _ _ _ _

/-- The memories of the state after reset list nothing. -/
theorem reset_memories : Memory.wf State.reset.bm.sram = true ∧ Memory.wf State.reset.qm.pool = true := ⟨rfl, rfl⟩

end Sys2Proof.Machine
end

