-- ==== Sys2Proof/Laws/Parast.lean ====
section
/-!
SUPPORT. Laws/Parast.lean: how a command for the unit's own address is answered, in terms of what its action leaves.
-/
namespace Sys2Proof.Machine

variable {s t u : State} {k : Pkt} {op st f : Nat} {data : List Byte} {r : OpRow}

/-- `t` is `s` but for registers and, in the bridge, the chain's command, results not yet taken in, the chain's replay memory
and the replies that wait. -/
def BridgeOnly (s t : State) : Prop :=
  ∃ r j q p o, t = { s with regs := r, mp := { s.mp with job := j, ready := q, replay := p, out := o } }

theorem BridgeOnly.refl (s : State) : BridgeOnly s s := ⟨_, _, _, _, _, rfl⟩

theorem BridgeOnly.trans (h : BridgeOnly s t) (k : BridgeOnly t u) : BridgeOnly s u := by
  obtain ⟨_, _, _, _, _, rfl⟩ := h
  obtain ⟨_, _, _, _, _, rfl⟩ := k
  exact ⟨_, _, _, _, _, rfl⟩

theorem BridgeOnly.eq (h : BridgeOnly s t) : t = { s with
    regs := t.regs, mp := { s.mp with job := t.mp.job, ready := t.mp.ready, replay := t.mp.replay, out := t.mp.out } } := by
  obtain ⟨_, _, _, _, _, rfl⟩ := h
  rfl

theorem Only.bridge {fs : List (Nat × Nat × Nat)} (h : Only fs s t) : BridgeOnly s t := ⟨_, _, _, _, _, h.1⟩

theorem Only.mp {fs : List (Nat × Nat × Nat)} (h : Only fs s t) : t.mp = s.mp := (congrArg State.mp h.1).trans rfl

theorem Only.chip {fs : List (Nat × Nat × Nat)} (h : Only fs s t) : t.chip = s.chip := (congrArg State.chip h.1).trans rfl

theorem BridgeOnly.chip (h : BridgeOnly s t) : t.chip = s.chip := by
  obtain ⟨_, _, _, _, _, rfl⟩ := h
  rfl

/-! ### What the bridge's own operations leave -/

/-- The fields of MP_STATUS that follow the bridge's memories. -/
def shownFields : List (Nat × Nat × Nat) := [F.MP_STATUS_RESULT_READY.at, F.MP_STATUS_WORKING.at, F.MP_STATUS_BCAST_DEPTH.at]

/-- Those and MP_LAST_ERR. -/
def answerFields : List (Nat × Nat × Nat) := F.MP_LAST_ERR.word :: shownFields

theorem showMp_kept (s : State) : Only shownFields s (showMp s) := by
  have h1 : ∀ (t : State) (v : Nat), Only shownFields t (t.put F.MP_STATUS_RESULT_READY v) := fun t v => only_put (by simp [shownFields])
  have h2 : ∀ (t : State) (v : Nat), Only shownFields t (t.put F.MP_STATUS_WORKING v) := fun t v => only_put (by simp [shownFields])
  have h3 : ∀ (t : State) (v : Nat), Only shownFields t (t.put F.MP_STATUS_BCAST_DEPTH v) := fun t v => only_put (by simp [shownFields])
  exact ((h1 s _).trans (h2 _ _)).trans (h3 _ _)

theorem recordErr_kept (s : State) (a : Byte) (o : Nat) (g : Byte) (n : Nat) : Only [F.MP_LAST_ERR.word] s (recordErr s a o g n) := by
  unfold recordErr
  split
  · exact only_refl s
  · exact only_put (List.mem_singleton.mpr rfl)

theorem recordErr_ok (s : State) (a : Byte) (o : Nat) (g : Byte) : recordErr s a o g St.ok = s := by simp [recordErr]

/-- What is put into the chain's replay memory. -/
theorem setMem_chain (s : State) (m : List Entry) :
    BridgeOnly s (setMem s .chain m) ∧ RegsKept shownFields s (setMem s .chain m) ∧ (setMem s .chain m).mp = { s.mp with replay := m } := by
  have e : setMem s .chain m = showMp { s with mp.replay := m } := by simp [setMem]
  have h := showMp_kept { s with mp.replay := m }
  rw [e]
  exact ⟨BridgeOnly.trans (t := { s with mp.replay := m }) ⟨_, _, _, _, _, rfl⟩ h.bridge,
    (RegsKept.of_regs (t := { s with mp.replay := m }) rfl).trans h.2, h.mp⟩

/-- The chain's command. -/
theorem setJob_chain (s : State) (j : Option Job) :
    BridgeOnly s (setJob s .chain j) ∧ RegsKept shownFields s (setJob s .chain j) ∧ (setJob s .chain j).mp = { s.mp with job := j } := by
  have h := showMp_kept { s with mp.job := j }
  exact ⟨BridgeOnly.trans (t := { s with mp.job := j }) ⟨_, _, _, _, _, rfl⟩ h.bridge,
    (RegsKept.of_regs (t := { s with mp.job := j }) rfl).trans h.2, h.mp⟩

/-- The replay memory emptied, the command in progress an orphan (R93, R117). -/
theorem sessionEmptied_kept (s : State) : BridgeOnly s (sessionEmptied s) ∧ RegsKept shownFields s (sessionEmptied s) ∧
    (sessionEmptied s).mp.out = s.mp.out ∧ (sessionEmptied s).mp.replay = [] := by
  have m := setMem_chain { s with mp.job := s.mp.job.map fun j => { j with orphan := true } } []
  have a : BridgeOnly s { s with mp.job := s.mp.job.map fun j => { j with orphan := true } } := ⟨_, _, _, _, _, rfl⟩
  have b : RegsKept shownFields s { s with mp.job := s.mp.job.map fun j => { j with orphan := true } } := RegsKept.of_regs rfl
  exact ⟨a.trans m.1, b.trans m.2.1, (congrArg MpX.out m.2.2).trans rfl, (congrArg MpX.replay m.2.2).trans rfl⟩

theorem enterDone_chain (s : State) (g : Byte) (rep : List Byte) :
    BridgeOnly s (enterDone s .chain g rep) ∧ RegsKept shownFields s (enterDone s .chain g rep) ∧
      (enterDone s .chain g rep).mp.out = s.mp.out := by
  unfold enterDone
  split
  · exact ⟨BridgeOnly.refl s, RegsKept.refl s, rfl⟩
  · have h := setMem_chain s (memEnter (memOf s .chain) { tag := g, first := rep, final := rep })
    exact ⟨h.1, h.2.1, by rw [h.2.2]⟩

theorem modEntry_chain (s : State) (g : Byte) (e : Entry → Entry) :
    BridgeOnly s (modEntry s .chain g e) ∧ RegsKept shownFields s (modEntry s .chain g e) ∧
      (modEntry s .chain g e).mp.out = s.mp.out ∧ (modEntry s .chain g e).mp.job = s.mp.job := by
  have h := setMem_chain s ((memOf s .chain).map fun x => if x.tag = g then e x else x)
  exact ⟨h.1, h.2.1, (congrArg MpX.out h.2.2).trans rfl, (congrArg MpX.job h.2.2).trans rfl⟩

theorem sendReply_kept (s : State) (y : Nat) (bs : List Byte) (l : Bool) : BridgeOnly s (sendReply s y bs l) := ⟨_, _, _, _, _, rfl⟩

theorem shown_lastErr (h : RegsKept shownFields s t) : t.reg F.MP_LAST_ERR.addr = s.reg F.MP_LAST_ERR.addr :=
  h.reg (by decide)

/-- A reply is put behind those that wait, for edge `y`, and nothing changes but the bridge's own records. -/
def Replied (s t : State) (y : Nat) (bytes : List Byte) (n : Nat) : Prop :=
  BridgeOnly s t ∧ t.mp.out = s.mp.out ++ [{ y := y, bytes := bytes }] ∧ RegsKept answerFields s t ∧
    (n = St.ok → t.reg F.MP_LAST_ERR.addr = s.reg F.MP_LAST_ERR.addr)

/-- A command answered on the chain (R132). -/
theorem answer_chain (s : State) (j : Job) (a n : Nat) (data : List Byte) (ho : j.op ≠ 5 ∨ n ≠ St.ok) :
    Replied s (answer s .chain j a n data) (j.edge + 16) (mkReply a n j.tag data) n := by
  have hr : (j.op == 5 && n == St.ok) = false := by
    rcases ho with h | h <;> simp [h]
  have key : ∀ e : State, BridgeOnly s e → RegsKept shownFields s e → e.mp.out = s.mp.out →
      Replied s (sendReply (recordErr e j.addr j.op j.tag n) (j.edge + 16) (mkReply a n j.tag data)) (j.edge + 16)
        (mkReply a n j.tag data) n := by
    intro e h1 h2 h3
    have h4 := recordErr_kept e j.addr j.op j.tag n
    refine ⟨h1.trans (h4.bridge.trans (sendReply_kept _ _ _ _)), ?_, ?_, ?_⟩
    · simp only [sendReply, h4.mp, h3]
    · have q1 : RegsKept answerFields s e := h2.mono (fun f m => List.mem_cons_of_mem _ m)
      have q2 : RegsKept answerFields e (recordErr e j.addr j.op j.tag n) := h4.2.mono (by simp [answerFields])
      exact q1.trans (q2.trans (RegsKept.of_regs rfl))
    · rintro rfl
      rw [recordErr_ok]
      exact (reg_of_regs rfl).trans (shown_lastErr h2)
  unfold answer
  simp only [hr, reduceCtorEq, if_false, or_false, Bool.false_eq_true]
  split
  · exact key s (BridgeOnly.refl s) (RegsKept.refl s) rfl
  · have h := enterDone_chain s j.tag (mkReply a n j.tag data)
    exact key _ h.1 h.2.1 h.2.2

/-! ### Commands for the unit's own address -/

/-- The receiver back in HUNT, before a command is looked at. -/
def readied (s : State) (k : Pkt) : State := { s with mp.rx := {}, mp.rxEdge := k.edge + 1, ch.slot := slotLeft s k.edge }

theorem heard_eq (h : s.mp.leaveAt = none) : heard s k.edge = readied s k := by
  have e : pclkReach k.edge s = { s with ch.slot := slotLeft s k.edge } := by
    unfold pclkReach
    rw [h]
  unfold heard
  rw [e]
  rfl

theorem hears_samples {e n : Nat} (h : hears s e n = true) : samples s e n = true := by
  unfold hears at h
  exact (Bool.and_eq_true_iff.mp h).1

/-- The job that a packet makes. -/
def ownJob (s : State) (op : Nat) (k : Pkt) : Job :=
  jobFor (readied s k) op k.addr k.tag k.params k.edge 0

theorem chainCommand_commits (hh : hears s k.edge (k.params.length + 8) = true) (hl : k.params.length ≤ 4096)
    (hv : s.mp.leaveAt = none) (done : Option Nat) : chainCommand s op k done = commitPacket (readied s k) op k done := by
  have hb : Nat.ble k.params.length 4096 = true := Nat.ble_eq.mpr hl
  simp only [chainCommand, hears_samples hh, hh, hb, heard_eq hv, Bool.not_true, Bool.false_eq_true, if_false, Bool.and_self,
    if_true]

theorem chainCommand_own (h : Takes s k) (done : Option Nat) (h2 : op ≠ 2) (h3 : op ≠ 3) (h4 : op ≠ 4) :
    chainCommand s op k done = serveOne (readied s k) .chain (ownJob s op k) (opRow op) done := by
  obtain ⟨-, hh, hj, ha, hk, h1, h126, hl, hv⟩ := h
  have hj' : (readied s k).get F.FA_JIG_LEFT 11 = 0 := hj
  have hm : (readied s k).jigMask 11 = 0 := by simp [State.jigMask, hj']
  have hu : jigUse (readied s k) 11 = readied s k := by simp [jigUse, hj']
  have a0 : k.addr.toNat ≠ 127 := by omega
  have a1 : k.addr.toNat ≠ 0 := by omega
  have hr : ownRow op = opRow op := by simp [ownRow, h4]
  have e1 : addressed (readied s k) = true := ha
  have e2 : k.addr.toNat = ownAddr (readied s k) := hk
  rw [chainCommand_commits hh hl hv]
  simp only [commitPacket, hm, hu, if_neg a0, if_neg a1, h2, h3, or_self, hr, if_false, ne_eq, not_true_eq_false]
  rw [if_pos ⟨e1, e2⟩]
  rfl

/-- Whatever the address, once the bus has been heard (R137). -/
theorem chainCommand_heard (hh : hears s k.edge (k.params.length + 8) = true) (hj : s.get F.FA_JIG_LEFT 11 = 0)
    (hl : k.params.length ≤ 4096) (hv : s.mp.leaveAt = none) (done : Option Nat) :
    chainCommand s op k done =
      if k.addr.toNat = 127 then broadcastCommand (readied s k) (ownJob s op k) done
      else if k.addr.toNat = 0 then
        (if op = 2 then assignAt0 (readied s k) (ownJob s op k) false
         else if op = 3 then assignAt0 (readied s k) (ownJob s op k) true else readied s k)
      else if addressed (readied s k) ∧ k.addr.toNat = ownAddr (readied s k) then
        (if op = 2 ∨ op = 3 then
          answer ((readied s k).bumpWrap F.MP_TXN_COUNT) .chain (ownJob s op k) k.addr.toNat St.wrongState []
         else serveOne (readied s k) .chain (ownJob s op k) (ownRow op) done)
      else readied s k := by
  have hj' : (readied s k).get F.FA_JIG_LEFT 11 = 0 := hj
  have hm : (readied s k).jigMask 11 = 0 := by simp [State.jigMask, hj']
  have hu : jigUse (readied s k) 11 = readied s k := by simp [jigUse, hj']
  rw [chainCommand_commits hh hl hv]
  simp only [commitPacket, hm, hu, if_false, ne_eq, not_true_eq_false]
  rfl

theorem serveOne_hw (x : State) (j : Job) (hf : r.fw = false) (hl : r.len j.params = true) :
    serveOne x .chain j (some r) none = match runBody .chain j (x.bumpWrap F.MP_TXN_COUNT) with
      | .done t st data => answer t .chain j (ownAddr (x.bumpWrap F.MP_TXN_COUNT)) st data
      | .wait t => t := by
  simp only [serveOne, hl, hf, Bool.not_true, Bool.false_eq_true, if_false, reduceCtorEq]
    <;> cases runBody .chain j (x.bumpWrap F.MP_TXN_COUNT) <;> rfl

theorem taken_kept (s : State) (k : Pkt) : taken s k = { s with regs := (taken s k).regs, mp.rx := {}, mp.rxEdge := k.edge + 1, ch.slot := slotLeft s k.edge } ∧
    RegsKept [F.MP_TXN_COUNT.word] s (taken s k) :=
  ⟨rfl, (RegsKept.of_regs (t := { s with mp.rx := {}, mp.rxEdge := k.edge + 1, ch.slot := slotLeft s k.edge }) rfl).trans
    (regsKept_bumpWrap (List.mem_singleton.mpr rfl))⟩

theorem taken_count (s : State) (k : Pkt) : (taken s k).get F.MP_TXN_COUNT = (s.get F.MP_TXN_COUNT + 1) % 2 ^ 32 := by
  unfold taken
  rw [State.bumpWrap, State.get_put _ _ _ _ _ (by decide)]
  rfl

theorem ownAddr_taken (s : State) (k : Pkt) : ownAddr (taken s k) = ownAddr s := (taken_kept s k).2.get _ _ _ (by decide)

/-- A command that the bridge serves itself answers with what its action gives (R132, R726). -/
theorem chainCommand_hw (h : Takes s k) (h2 : op ≠ 2) (h3 : op ≠ 3) (h4 : op ≠ 4) (hr : opRow op = some r) (hf : r.fw = false)
    (hl : r.len k.params = true) (hb : runBody .chain (ownJob s op k) (taken s k) = .done u st data) :
    chainCommand s op k none = answer u .chain (ownJob s op k) (ownAddr s) st data := by
  rw [chainCommand_own h none h2 h3 h4, hr, serveOne_hw _ _ hf hl]
  show (match runBody .chain (ownJob s op k) (taken s k) with
    | .done t st data => answer t .chain (ownJob s op k) (ownAddr (taken s k)) st data
    | .wait t => t) = _
  rw [hb, ownAddr_taken]

/-- The whole of it for a command's row: a next state, which is what the action left, but for the bridge's own records. -/
theorem served_hw {c : Instr} (h : Takes s k) (hc : exec c s = act s (chainCommand s op k none)) (h2 : op ≠ 2) (h3 : op ≠ 3)
    (h4 : op ≠ 4) (h5 : op ≠ 5 ∨ st ≠ St.ok) (hr : opRow op = some r) (hf : r.fw = false) (hl : r.len k.params = true)
    (hb : runBody .chain (ownJob s op k) (taken s k) = .done u st data) (hd : u.chip.resetDue = none) :
    ∃ t, exec c s = .next t ∧ Replied u t (k.edge + 16) (mkReply (ownAddr s) st k.tag data) st := by
  have a := answer_chain u (ownJob s op k) (ownAddr s) st data h5
  refine ⟨_, ?_, a⟩
  rw [hc, chainCommand_hw h h2 h3 h4 hr hf hl hb]
  exact act_next h.1 (by rw [a.1.chip]; exact hd)

/-! ### Commands that firmware serves -/

/-- The state in which the action of a firmware-served command of the chain is carried out: it is in progress, and WORKING in
the replay memory (R141, R146). -/
def begun (s : State) (op : Nat) (k : Pkt) : State :=
  setJob (enterWorking { taken s k with mp.seq := s.mp.seq + 1 } .chain k.tag) .chain (some (ownJob s op k))

theorem begun_kept (s : State) (op : Nat) (k : Pkt) :
    BridgeOnly { s with mp := { s.mp with rx := {}, rxEdge := k.edge + 1, seq := s.mp.seq + 1 }, ch.slot := slotLeft s k.edge } (begun s op k) ∧
    RegsKept (F.MP_TXN_COUNT.word :: shownFields) s (begun s op k) ∧
    (begun s op k).mp = { s.mp with rx := {}, rxEdge := k.edge + 1, seq := s.mp.seq + 1, job := some (ownJob s op k), replay := (begun s op k).mp.replay } ∧
    (begun s op k).get F.MP_TXN_COUNT = (s.get F.MP_TXN_COUNT + 1) % 2 ^ 32 := by
  have m := setMem_chain { taken s k with mp.seq := s.mp.seq + 1 }
    (memEnter (memOf { taken s k with mp.seq := s.mp.seq + 1 } .chain) { tag := k.tag, firstSent := false, done := false })
  have j := setJob_chain (enterWorking { taken s k with mp.seq := s.mp.seq + 1 } .chain k.tag) (some (ownJob s op k))
  have t0 : BridgeOnly { s with mp := { s.mp with rx := {}, rxEdge := k.edge + 1, seq := s.mp.seq + 1 }, ch.slot := slotLeft s k.edge } { taken s k with mp.seq := s.mp.seq + 1 } :=
    ⟨_, _, _, _, _, rfl⟩
  have r1 : RegsKept (F.MP_TXN_COUNT.word :: shownFields) s { taken s k with mp.seq := s.mp.seq + 1 } :=
    ((taken_kept s k).2.mono (by simp)).trans (RegsKept.of_regs rfl)
  have r2 := m.2.1.trans j.2.1
  refine ⟨t0.trans (m.1.trans j.1), r1.trans (r2.mono (fun f m => List.mem_cons_of_mem _ m)), ?_, ?_⟩
  · have e1 : (begun s op k).mp = { (enterWorking { taken s k with mp.seq := s.mp.seq + 1 } .chain k.tag).mp with job := some (ownJob s op k) } := j.2.2
    have e2 : (enterWorking { taken s k with mp.seq := s.mp.seq + 1 } .chain k.tag).mp = { s.mp with
      rx := {}, rxEdge := k.edge + 1, seq := s.mp.seq + 1, replay := (memEnter (memOf { taken s k with mp.seq := s.mp.seq + 1 } .chain) { tag := k.tag, firstSent := false, done := false }) } := m.2.2
    rw [e1, e2]
  · have e : (begun s op k).get F.MP_TXN_COUNT = (taken s k).get F.MP_TXN_COUNT := r2.get _ _ _ (by decide)
    rw [e, taken_count]

/-- The result of the chain's command, taken in before its window ends (R132, R133). -/
theorem finishChain_in_time (b : State) (j : Job) (f n : Nat) (data : List Byte) (ho : j.orphan = false) (hp : j.pended = false)
    (hw : f + 8 ≤ j.edge + j.win) :
    Replied b (finishChain b j f n data) (max (j.edge + 16) (f + 8)) (mkReply (ownAddr b) n j.tag data) n := by
  have h4 := recordErr_kept b j.addr j.op j.tag n
  have m := modEntry_chain (recordErr b j.addr j.op j.tag n) j.tag fun e =>
    { e with first := mkReply (ownAddr b) n j.tag data, firstSent := true, done := true, final := mkReply (ownAddr b) n j.tag data }
  unfold finishChain
  simp only [ho, hp, hw, if_true, Bool.false_eq_true, if_false]
  refine ⟨h4.bridge.trans (m.1.trans (sendReply_kept _ _ _ _)), ?_, ?_, ?_⟩
  · simp only [sendReply, m.2.2.1, h4.mp]
  · have q1 : RegsKept answerFields b (recordErr b j.addr j.op j.tag n) := h4.2.mono (by simp [answerFields])
    have q2 := m.2.1.mono (gs := answerFields) (fun f m => List.mem_cons_of_mem _ m)
    exact q1.trans (q2.trans (RegsKept.of_regs rfl))
  · rintro rfl
    rw [recordErr_ok] at m
    exact (reg_of_regs (by rw [recordErr_ok]; rfl)).trans (shown_lastErr m.2.1)

theorem finishJob_in_time (s : State) (j : Job) (f n : Nat) (data : List Byte) (ho : j.orphan = false) (hp : j.pended = false)
    (hw : f + 8 ≤ j.edge + j.win) :
    Replied s (finishJob s .chain j f n data) (max (j.edge + 16) (f + 8)) (mkReply (ownAddr s) n j.tag data) n := by
  have hb := setJob_chain { s with mp.ready := s.mp.ready.filter fun r => r.1 != .chain } none
  have hs : BridgeOnly s { s with mp.ready := s.mp.ready.filter fun r => r.1 != .chain } := ⟨_, _, _, _, _, rfl⟩
  have hk : RegsKept shownFields s (setJob { s with mp.ready := s.mp.ready.filter fun r => r.1 != .chain } .chain none) :=
    (RegsKept.of_regs (t := { s with mp.ready := s.mp.ready.filter fun r => r.1 != .chain }) rfl).trans hb.2.1
  have hown : ownAddr (setJob { s with mp.ready := s.mp.ready.filter fun r => r.1 != .chain } .chain none) = ownAddr s :=
    hk.get _ _ _ (by decide)
  have h := finishChain_in_time (setJob { s with mp.ready := s.mp.ready.filter fun r => r.1 != .chain } .chain none) j f n data ho hp hw
  rw [hown] at h
  refine ⟨hs.trans (hb.1.trans h.1), h.2.1.trans ?_, (hk.mono (fun f m => List.mem_cons_of_mem _ m)).trans h.2.2.1, fun e =>
    (h.2.2.2 e).trans (shown_lastErr hk)⟩
  rw [hb.2.2]

theorem begun_jobsTurn (h : TakesFw s k f) : jobsTurn (begun s op k) (ownJob s op k).seq = true := by
  obtain ⟨-, -, -, -, hj, hbj, hrj, hbc, -⟩ := h
  have l : Nat.blt s.mp.seq s.mp.seq = false := by
    rw [Bool.eq_false_iff, ne_eq, Nat.blt_eq]
    omega
  unfold jobsTurn
  rw [(begun_kept s op k).2.2.1]
  simp [hbj, hrj, hbc, ownJob, jobFor, readied, l]

theorem completeJob_begun (h : TakesFw s k f) (hb : runBody .chain (ownJob s op k) (begun s op k) = .done u st data) :
    completeJob (begun s op k) .chain f = finishJob u .chain (ownJob s op k) f st data := by
  have f4 := begun_jobsTurn (op := op) h
  have f5 : (ownJob s op k).started = false := rfl
  obtain ⟨-, ha, -, hre, -⟩ := h
  have b := begun_kept s op k
  have f1 : jobOf (begun s op k) .chain = some (ownJob s op k) := congrArg MpX.job b.2.2.1
  have f2 : (begun s op k).mp.ready = [] := (congrArg MpX.ready b.2.2.1).trans hre
  have f3 : (begun s op k).on F.MP_STATUS_FW_READY = true := by
    rw [b.2.1.on _ _ _ (by decide)]
    simp only [fwAway, Bool.or_eq_false_iff, Bool.not_eq_false'] at ha
    exact ha.1
  unfold completeJob
  simp only [f1, f2, f3, f4, f5, hb, List.find?_nil, Bool.not_true, Bool.or_self, Bool.false_eq_true, if_false]

theorem serveOne_fw (x : State) (j : Job) (done : Option Nat) (hf : r.fw = true) (hl : r.len j.params = true)
    (x1 : fwAway (x.bumpWrap F.MP_TXN_COUNT) = false) (x2 : (x.bumpWrap F.MP_TXN_COUNT).mp.job = none)
    (x3 : tagWorking (x.bumpWrap F.MP_TXN_COUNT) .chain j.tag = false) :
    serveOne x .chain j (some r) done = startJob (x.bumpWrap F.MP_TXN_COUNT) .chain j done := by
  have x4 : jobOf (x.bumpWrap F.MP_TXN_COUNT) .chain = none := x2
  simp only [serveOne, hl, hf, x1, x3, x4, Bool.not_true, Bool.false_eq_true, if_false, if_true, Option.isSome_none, Bool.or_self]

/-- What a packet for the unit does when firmware serves its command at once and its result comes in time. -/
theorem chainCommand_fw (h : TakesFw s k f) (h2 : op ≠ 2) (h3 : op ≠ 3) (h4 : op ≠ 4) (hr : opRow op = some r)
    (hf : r.fw = true) (hl : r.len k.params = true) (done : Option Nat) :
    chainCommand s op k done = match done with
      | none => begun s op k
      | some f => completeJob (begun s op k) .chain f := by
  obtain ⟨ht, ha, hw, -, hj, -⟩ := h
  have k1 := taken_kept s k
  have e1 : fwAway (taken s k) = false := by
    have : (taken s k).on F.MP_STATUS_FW_READY = s.on F.MP_STATUS_FW_READY := k1.2.on _ _ _ (by decide)
    rw [fwAway, this]
    exact ha
  have hw' : tagWorking (taken s k) .chain (ownJob s op k).tag = false := hw
  have hl' : r.len (ownJob s op k).params = true := hl
  rw [chainCommand_own ht _ h2 h3 h4, hr, serveOne_fw (readied s k) (ownJob s op k) done hf hl' e1 hj hw']
  cases done <;> rfl

/-- The whole of it for the row of a firmware-served command whose action ends at once. -/
theorem served_fw {c : Instr} (h : TakesFw s k f) (hc : exec c s = act s (chainCommand s op k (some f))) (h2 : op ≠ 2)
    (h3 : op ≠ 3) (h4 : op ≠ 4) (hr : opRow op = some r) (hf : r.fw = true) (hl : r.len k.params = true)
    (hb : runBody .chain (ownJob s op k) (begun s op k) = .done u st data) (hd : u.chip.resetDue = none)
    (ha : ownAddr u = ownAddr s) :
    ∃ t, exec c s = .next t ∧ Replied u t (max (k.edge + 16) (f + 8)) (mkReply (ownAddr s) st k.tag data) st := by
  have a := finishJob_in_time u (ownJob s op k) f st data rfl rfl h.2.2.2.2.2.2.2.2
  rw [ha] at a
  refine ⟨_, ?_, a⟩
  rw [hc, chainCommand_fw h h2 h3 h4 hr hf hl]
  dsimp only
  rw [completeJob_begun h hb]
  exact act_next h.1.1 (by rw [a.1.chip]; exact hd)

/-! ### From what the action left to what the command gives -/

theorem Replied.served {s u t : State} {k : Pkt} {y n : Nat} {data : List Byte} {fs : List (Nat × Nat × Nat)}
     (h : Replied u t y (mkReply (ownAddr s) n k.tag data) n)
    (ho : u.mp.out = s.mp.out) (hc : u.get F.MP_TXN_COUNT = (s.get F.MP_TXN_COUNT + 1) % 2 ^ 32)
    (hk : RegsKept (F.MP_TXN_COUNT.word :: shownFields ++ fs) s u) (hm : u.reg F.MP_LAST_ERR.addr = s.reg F.MP_LAST_ERR.addr) :
    ServedAt y fs s t k n data := by
  refine ⟨by rw [h.2.1, ho], ?_, ?_, fun e => (h.2.2.2 e).trans hm⟩
  · rw [← hc]
    exact h.2.2.1.get _ _ _ (by decide)
  · refine RegsKept.trans (t := u) (hk.mono ?_) (h.2.2.1.mono ?_)
    · intro f m
      simp only [shownFields, bridgeFields, List.mem_cons, List.cons_append, List.nil_append] at *
      tauto
    · intro f m
      simp only [shownFields, answerFields, bridgeFields, List.mem_cons, List.cons_append, List.nil_append, List.not_mem_nil] at *
      tauto
theorem taken_lastErr (s : State) (k : Pkt) : (taken s k).reg F.MP_LAST_ERR.addr = s.reg F.MP_LAST_ERR.addr :=
  (taken_kept s k).2.reg (by decide)
theorem Replied.served0 {s t : State} {k : Pkt} {y n : Nat} {data : List Byte}
    (h : Replied (taken s k) t y (mkReply (ownAddr s) n k.tag data) n) :
    ServedAt y [] s t k n data :=
  h.served rfl (taken_count s k) ((taken_kept s k).2.mono (by simp)) (taken_lastErr s k)
theorem Replied.bus0 {s t : State} {y n : Nat} {b : List Byte} (h : Replied (taken s k) t y b n) : BusOnly s t := by
  obtain ⟨_, _, _, _, _, rfl⟩ := h.1
  rfl
theorem taken_get (s : State) (k : Pkt) (f : Field) (i j : Nat) (h : f.addr i j ≠ 0x40000010) : (taken s k).get f i j = s.get f i j :=
  (taken_kept s k).2.get f i j (by intro g m; rw [List.mem_singleton.mp m]; exact Or.inl (fun e => h (by rw [← e]; rfl)))
theorem taken_reg (s : State) (k : Pkt) (a : Nat) (h : a ≠ 0x40000010) : (taken s k).reg a = s.reg a :=
  (taken_kept s k).2.reg (by intro g m; rw [List.mem_singleton.mp m]; exact fun e => h (by rw [← e]; rfl))


/-! ### The same with what else the action leaves -/

/-- A firmware-served command whose action changes registers away from the bridge, and what is neither register nor bridge. -/
theorem served_fw_kept {s u : State} {k : Pkt} {f op st : Nat} {data : List Byte} {c : Instr} {r : OpRow} {fs : List (Nat × Nat × Nat)} (h : TakesFw s k f) (hc : exec c s = act s (chainCommand s op k (some f)))
    (h2 : op ≠ 2) (h3 : op ≠ 3) (h4 : op ≠ 4) (hr : opRow op = some r) (hf : r.fw = true) (hl : r.len k.params = true)
    (hb : runBody .chain (ownJob s op k) (begun s op k) = .done u st data) (hm : u.mp = (begun s op k).mp) (hk : RegsKept fs (begun s op k) u)
    (hn : ∀ g ∈ fs, g.1 ≠ 0x40000010 ∧ g.1 ≠ 0x4000000C ∧ g.1 ≠ F.CH_ADDR_ADDR.addr) (hd : u.chip.resetDue = none) :
    ∃ t, exec c s = .next t ∧ FwServed f fs s t k st data ∧ BridgeOnly u t ∧ RegsKept answerFields u t := by
  have b := begun_kept s op k
  have ha : ownAddr u = ownAddr s := by
    have e1 : ownAddr u = ownAddr (begun s op k) := hk.get _ _ _ (fun g m => Or.inl (fun e => (hn g m).2.2 e))
    have e2 : ownAddr (begun s op k) = ownAddr s := b.2.1.get _ _ _ (by decide)
    rw [e1, e2]
  obtain ⟨t, e, R⟩ := served_fw h hc h2 h3 h4 hr hf hl hb hd ha
  refine ⟨t, e, R.served (fs := fs) ?_ ?_ ?_ ?_, R.1, R.2.2.1⟩
  · rw [hm, b.2.2.1]
  · rw [← b.2.2.2]; exact hk.get _ _ _ (fun g m => Or.inl (fun e => (hn g m).1 e))
  · exact (b.2.1.mono (fun g m => List.mem_append_left _ m)).trans (hk.mono (fun g m => List.mem_append_right _ m))
  · have e1 : u.reg F.MP_LAST_ERR.addr = (begun s op k).reg F.MP_LAST_ERR.addr := hk.reg (fun g m e => (hn g m).2.1 e)
    rw [e1]; exact b.2.1.reg (by decide)

theorem begun_eq (s : State) (op : Nat) (k : Pkt) : begun s op k = { s with regs := (begun s op k).regs, mp := (begun s op k).mp, ch := (begun s op k).ch } := by
  have := (begun_kept s op k).1.eq
  rw [this]

/-- A firmware-served command whose action waits for an event of its own (R143). -/
theorem waits_fw {s W : State} {k : Pkt} {f op : Nat} {c : Instr} {r : OpRow} (h : TakesFw s k f) (hc : exec c s = act s (chainCommand s op k (some f)))
    (h2 : op ≠ 2) (h3 : op ≠ 3) (h4 : op ≠ 4) (hr : opRow op = some r) (hf : r.fw = true) (hl : r.len k.params = true)
    (hb : runBody .chain (ownJob s op k) (begun s op k) = .wait W) {fs : List (Nat × Nat × Nat)} (hm : W.mp.out = (begun s op k).mp.out) (hk : RegsKept fs (begun s op k) W) (hn : ∀ g ∈ fs, g.1 ≠ 0x40000010) (hd : W.chip.resetDue = none) :
    ∃ t, exec c s = .next t ∧ FwWaits s t k ∧ t = { W with regs := t.regs, mp := { W.mp with job := t.mp.job } } ∧ RegsKept shownFields W t := by
  have b := begun_kept s op k
  have e0 : chainCommand s op k (some f) = setJob W .chain (some { ownJob s op k with started := true }) := by
    rw [chainCommand_fw h h2 h3 h4 hr hf hl]
    have f4 := begun_jobsTurn (op := op) h
    have f1 : jobOf (begun s op k) .chain = some (ownJob s op k) := congrArg MpX.job (begun_kept s op k).2.2.1
    have f2 : (begun s op k).mp.ready = [] := (congrArg MpX.ready (begun_kept s op k).2.2.1).trans h.2.2.2.1
    have f3 : (begun s op k).on F.MP_STATUS_FW_READY = true := by
      rw [b.2.1.on _ _ _ (by decide)]
      have ha := h.2.1
      simp only [fwAway, Bool.or_eq_false_iff, Bool.not_eq_false'] at ha
      exact ha.1
    have f5 : (ownJob s op k).started = false := rfl
    dsimp only
    unfold completeJob
    simp only [f1, f2, f3, f4, f5, hb, List.find?_nil, Bool.not_true, Bool.or_self, Bool.false_eq_true, if_false]
  have o := showMp_kept { W with mp.job := some { ownJob s op k with started := true } }
  have o' : Only shownFields { W with mp.job := some { ownJob s op k with started := true } } (setJob W .chain (some { ownJob s op k with started := true })) := o
  generalize setJob W .chain (some { ownJob s op k with started := true }) = t at *
  refine ⟨t, ?_, ⟨⟨_, congrArg MpX.job o'.mp, rfl, rfl, rfl, rfl, rfl⟩, ?_, ?_⟩, ?_, ?_⟩
  · rw [hc, e0]; exact act_next h.1.1 (by rw [o'.chip]; exact hd)
  · rw [o'.mp]; show W.mp.out = _; rw [hm, b.2.2.1]
  · rw [← b.2.2.2, ← hk.get F.MP_TXN_COUNT 0 0 (fun g m => Or.inl (fun e => hn g m e))]; exact (o'.2.get _ _ _ (by decide)).trans rfl
  · have z := o'.1
    have y := o'.mp
    rw [z]
  · exact (RegsKept.of_regs (t := { W with mp.job := some { ownJob s op k with started := true } }) rfl).trans o'.2

end Sys2Proof.Machine
end

