-- ==== Sys2Proof/Laws/Writes.lean ====
section
/-!
SUPPORT. Laws/Writes.lean: what one accepted word write leaves (R182, R194).
-/
namespace Sys2Proof.Machine

variable {s : State} {a v : Nat} {r : RegSpec} {fs : List (Nat × Nat × Nat)}

theorem storeWord_eq (s : State) (v : Nat) (h : specAt a = some r) :
    storeWord s a v = s.setReg a (BitVec.ofNat 32 (mergeWrite r (s.reg a).toNat v)) := by
  simp only [storeWord, h]

/-- A write touches no register but its own. -/
theorem storeWord_only (s : State) (a v : Nat) : Only [(a, 0, 32)] s (storeWord s a v) := by
  cases h : specAt a with
  | none =>
    have e : storeWord s a v = s := by unfold storeWord; rw [h]
    rw [e]
    exact only_refl s
  | some r =>
    rw [storeWord_eq s v h]
    exact only_setReg (by simp)

/-- A write that no bit of the register takes up leaves every register as it was. -/
theorem storeWord_kept (s : State) (h : specAt a = some r) (h1 : r.rw = 0) (h2 : r.w1c &&& v = 0) (b : Nat) :
    (storeWord s a v).reg b = s.reg b := by
  rw [storeWord_eq s v h]
  by_cases e : b = a
  · subst e
    rw [State.reg_setReg, mergeWrite, h1, h2]
    refine BitVec.eq_of_getLsbD_eq fun i hi => ?_
    have f : (4294967295 : Nat) = 2 ^ 32 - 1 := by norm_num
    simp only [Nat.and_zero, Nat.zero_or, Nat.or_zero, Nat.xor_zero, BitVec.getLsbD_ofNat, Nat.testBit_and, f,
      Nat.testBit_two_pow_sub_one]
    simp [hi, BitVec.getLsbD]
  · rw [State.reg_setReg_other _ _ e]

theorem storeWord_kept_only (s : State) (h : specAt a = some r) (h1 : r.rw = 0) (h2 : r.w1c &&& v = 0) :
    Only fs s (storeWord s a v) :=
  ⟨(storeWord_only s a v).1, fun b i _ => by rw [storeWord_kept s h h1 h2]⟩

/-- A word write that nothing refuses. -/
theorem writeBy_ok {judge : State → Nat → Nat → Nat} {hook : Nat → Nat → Nat → State → State} (h : specAt a = some r)
    (hl : (r.lock && s.locked (lockBlock a)) = false) (hj : judge s a v = St.ok) (ho : r.otp = 0) :
    writeBy judge hook s a v = hook a v (s.reg a).toNat (storeWord s a v) := by
  have e : plainReason s a (judge s a v) = St.ok := by
    unfold plainReason
    simp [h, hl, hj, ho]
  unfold writeBy
  simp only [e, if_true]

/-- A whole register written. -/
theorem reg_put_word (s : State) (f : Field) (v i j : Nat) (h1 : f.lo = 0) (h2 : f.w = 32) :
    (s.put f v i j).reg (f.addr i j) = BitVec.ofNat 32 v := by
  have : (s.reg (f.addr i j)).toNat < 2 ^ 32 := (s.reg (f.addr i j)).isLt
  rw [State.reg_put, insertBits, h1, h2, Nat.zero_add, Nat.div_eq_of_lt this]
  simp only [Nat.pow_zero, Nat.mod_one, Nat.mul_zero, Nat.add_zero, Nat.mul_one]
  apply BitVec.eq_of_toNat_eq
  simp

/-- What the register table says of one address, from a check of it that evaluates. -/
theorem specAt_of_any {P : RegSpec → Bool} (h : (specAt a).any P = true) : ∃ r, specAt a = some r ∧ P r = true := by
  cases e : specAt a with
  | none => simp [e] at h
  | some r => exact ⟨r, rfl, by simpa [e] using h⟩

end Sys2Proof.Machine
end

