-- ==== Sys2Proof/Tests/Slice0.lean ====
section
/-!
SUPPORT. Tests/Slice0.lean: terms that WellFormed refuses, examples that spec/ works out, and for each obligation a state and
operands that meet the hypotheses of each of its clauses (`witness_<name of the obligation>`).
-/
namespace Sys2Proof.Tests
open Sys2Proof Sys2Proof.Machine

set_option Elab.async false

/-! ### Small states -/

/-- The state that an outcome answers; the tests look at `next` outcomes only. -/
def nx (o : Host.Outcome State Fault Refusal) : State :=
  match o with
  | .next t => t
  | _ => State.reset

/-- The state after a command. -/
def ex (c : Instr) (s : State) : State := nx (exec c s)

/-- A packet for address 6. -/
def pk (ps : List Byte) (e : Nat := 1000) : Pkt := ⟨6, 0x21, ps, e⟩

/-- A packet to another address than 6. -/
def pkAt (a : Byte) (ps : List Byte) : Pkt := ⟨a, 0x21, ps, 1000⟩

/-- The unit at address 6, with no firmware yet. -/
def six : State := (State.reset.put F.CH_ADDR_ADDR 6).put F.CH_ADDR_ADDRESSED 1

/-- The unit at address 6 with its firmware ready. -/
def sixFw : State := { six.put F.MP_STATUS_FW_READY 1 with bc.booted := true, cf.bootDone := true }

/-- The replies of a state sent away. -/
def clr (s : State) : State := { s with mp.out := [], mp.wire := none, mp.rx := {}, mp.rxEdge := 0 }

theorem six_hears : ∀ n, n ≤ 110 → hears six 1000 (n + 8) = true := by decide +kernel

theorem six_takes (ps : List Byte) (h : ps.length ≤ 110) : Takes six (pk ps) := by
  have e : six.Awake ∧ six.get F.FA_JIG_LEFT 11 = 0 ∧ addressed six = true ∧ ownAddr six = 6 := by
    unfold State.Awake; decide +kernel
  exact ⟨e.1, six_hears _ h, e.2.1, e.2.2.1, by rw [e.2.2.2]; rfl, by rw [e.2.2.2]; decide, by rw [e.2.2.2]; decide,
    Nat.le_trans h (by decide), rfl⟩

/-! ### Hypotheses of the obligations -/

/-- The 1.0 V rail has gone low. -/
def downS : State := ex (.railLow 0) State.reset

theorem witness_ResetEntry : State.reset.chip.held = false ∧ 1000 ≤ 1000 ∧ 100 ≤ 100 ∧ downS.chip.held = true := by
  decide +kernel

/-- The rail is back and the 2 ms are counted. -/
def countingS : State := ex (.powerGood true) downS

theorem witness_ResetRelease : downS.chip.held = true ∧ countingS.chip.held = true ∧ countingS.chip.counting = true ∧
    countingS.resetHeldBy = false ∧ countingS.chip.hot = none ∧ countingS.chip.railDip = 0 ∧
    countingS.chip.unlock = false ∧ countingS.fa.remapping = [] := by
  decide +kernel

theorem witness_BallEvents : State.reset.Awake ∧ State.reset.chip.railLow.testBit 6 = false ∧
    State.reset.fa.level.testBit 17 = false ∧ (ex (.supplyDip 0) State.reset).fa.level.testBit 17 = true ∧
    (ex (.supplyDip 0) State.reset).chip.railLow.testBit 6 = false ∧ 1150 ≤ 1150 ∧ State.reset.fa.level.testBit 16 = false ∧
    (ex (.tempHigh 1150) State.reset).fa.level.testBit 16 = true ∧
    ((six.put F.CH_STATUS_DOWEL_IN 1).on F.CH_STATUS_DOWEL_IN = true ∧ addressed (six.put F.CH_STATUS_DOWEL_IN 1) = true) := by
  unfold State.Awake; decide +kernel

/-- Table 2.5 and R75: the balls of each supply, in the order of the table, and the cells of the boundary register. -/
theorem test_ball_totals : ((List.range 7).map fun rail => (allBalls.filter fun b => b == Sig.supply rail).length) =
    [172, 24, 24, 8, 12, 4, 4] ∧ boundaryBalls.length = boundaryLen ∧ allBalls.length = 900 := by decide +kernel

/-- TM_INC[0] is a plain register of block TM (Table 15.5). -/
theorem plain_TM_INC : PlainReg 0x400E0028 := by
  have hb : blockOf 0x400E0028 = 14 := by decide
  refine ⟨by decide, by decide, fun s v old => ⟨?_, ?_, ?_, ?_, ?_⟩⟩
  · unfold memAt
    rw [if_neg (by decide), if_neg (by decide), if_neg (by decide), if_neg (by decide)]
  · unfold judgeAll
    rw [if_neg (by decide), if_neg (by decide), if_neg (by decide), hb]
    rfl
  · unfold hookAll
    rw [if_neg (by decide), if_neg (by decide), if_neg (by decide), hb]
    rfl
  · unfold vselProbe
    rw [if_neg (by rintro ⟨_, h, _⟩; revert h; decide)]
  · unfold judgeState
    rw [if_neg (by rintro ⟨_, _, h⟩; revert h; decide)]

theorem some_of {α : Type} {o : Option α} {p : α → Bool} (h : o.any p = true) : ∃ e, o = some e ∧ p e = true := by
  cases o with
  | none => cases h
  | some e => exact ⟨e, rfl, h⟩

/-- A PING has been answered and its reply has gone out. -/
def pinged : State := clr (ex (.replyStart 5000) (ex (.ping (pk [])) six))

theorem witness_SessionCommands :
    Takes six (pk []) ∧ (pk []).params = [] ∧
    (Takes pinged (pk [0x21]) ∧ ∃ e, findEntry pinged .chain 0x21 = some e ∧ (e.done && Nat.ble e.final.length 4096) = true) ∧
    (Takes six (pk [0x55]) ∧ findEntry six .chain 0x55 = none) ∧
    (∃ e, findEntry pinged .chain 0x21 = some e ∧ (e.firstSent && Nat.ble e.first.length 4096) = true) ∧
    (Takes six (pk [3]) ∧ (3 : Byte).toNat < 4) :=
  ⟨six_takes _ (by decide), rfl, ⟨by unfold Takes State.Awake; decide +kernel, some_of (by decide +kernel)⟩,
    ⟨six_takes _ (by decide), by decide +kernel⟩, some_of (by decide +kernel), six_takes _ (by decide), by decide⟩

/-- The unit after release, its DOWEL_IN ball high. -/
def upS : State := State.reset.put F.CH_STATUS_DOWEL_IN 1

theorem witness_Addressing :
    (upS.Awake ∧ hears upS 1000 9 = true ∧ hears upS 1000 21 = true ∧ hears upS 1000 22 = true ∧
      upS.get F.FA_JIG_LEFT 11 = 0 ∧ upS.mp.leaveAt = none ∧ upS.ioDip = false ∧ addressed upS = false ∧
      upS.on F.CH_STATUS_DOWEL_IN = true) ∧
    (pkAt 0 [126]).addr = 0 ∧ (pkAt 0 [126]).params = [126] ∧ 1 ≤ (126 : Byte).toNat ∧ (126 : Byte).toNat ≤ 126 ∧
    (pkAt 0 (toLE 12 upS.otp.uid.toNat ++ [1])).params = toLE 12 upS.otp.uid.toNat ++ [1] ∧ 1 ≤ (1 : Byte).toNat ∧
    (Takes six (pk [0x5A]) ∧ six.get F.FA_JIG_LEFT 11 = 0) ∧
    ((pkAt 127 (0 :: 92 :: toLE 12 upS.otp.uid.toNat)).addr = 127 ∧ (toLE 12 upS.otp.uid.toNat).length = 12 ∧
      (0 : Byte).toNat ≤ 1 ∧ (92 : Byte).toNat % 4 = 0 ∧ (92 : Byte).toNat ≤ 92 ∧ upS.on F.CH_STATUS_QUIET_DISC = false ∧
      upS.otp.uid.toNat / 2 ^ (96 - 92) = leAt (toLE 12 upS.otp.uid.toNat) 0 12 / 2 ^ (96 - 92)) ∧
    (six.on F.CH_STATUS_QUIET_DISC = false ∧ six.otp.uid.toNat / 2 ^ (96 - 4) ≠ leAt (toLE 12 (5 * 2 ^ 92)) 0 12 / 2 ^ (96 - 4)) :=
  ⟨by unfold State.Awake; decide +kernel, rfl, rfl, by decide, by decide, rfl, by decide,
    ⟨six_takes _ (by decide), by decide +kernel⟩, by decide +kernel, by decide +kernel⟩

/-- Every block's registers are locked. -/
def lockedS : State := { six with locks := 2 ^ 21 - 1 }

theorem witness_RegisterAccess :
    Takes six (pk (toLE 4 0x400E0028)) ∧ PlainReg 0x400E0028 ∧ specAt 0x400E0028 ≠ none ∧ eccPlace six 0x400E0028 = none ∧
    (∃ r, specAt 0x400E0028 = some r ∧ (!(r.lock && six.locked (lockBlock 0x400E0028)) && r.otp == 0) = true) ∧
    0x400E0028 ∉ [0x40000008, 0x4000000C, 0x40000010] ∧
    Takes lockedS (pk (toLE 4 0x400E0028 ++ toLE 4 7)) ∧
    (∃ r, specAt 0x400E0028 = some r ∧ (r.lock && lockedS.locked (lockBlock 0x400E0028)) = true) ∧
    0x400E0028 ≠ 0x4000001C ∧
    (2 ^ 21 - 1 < 2 ^ 21 ∧ Takes six (pk (toLE 4 (2 ^ 21 - 1)))) :=
  ⟨six_takes _ (by decide), plain_TM_INC, by decide +kernel, by decide +kernel, some_of (by decide +kernel), by decide,
    by unfold Takes State.Awake; decide +kernel, some_of (by decide +kernel), by decide, by decide, six_takes _ (by decide)⟩

/-- CH_ASSET[15] is being burnt. -/
def burningS : State := clr (ex (.otpProgram (pk (toLE 4 0x7000007C ++ toLE 4 5))) six)

/-- It is burnt and spent. -/
def burntS : State := ex .otpBurnComplete burningS

theorem witness_AssetProgramming :
    (Takes six (pk (toLE 4 (0x70000040 + 4 * 15) ++ toLE 4 (5 : Word).toNat)) ∧ 15 < 16 ∧ six.otp.burn = none ∧
      bitOf (six.get F.CH_ASSET_SPENT_SPENT) 15 = false ∧ six.get F.CH_ASSET 15 &&& (5 : Word).toNat = six.get F.CH_ASSET 15) ∧
    (Takes burntS (pk (toLE 4 (0x70000040 + 4 * 15) ++ toLE 4 (7 : Word).toNat)) ∧ burntS.otp.burn = none ∧
      bitOf (burntS.get F.CH_ASSET_SPENT_SPENT) 15 = true ∧ (7 : Word).toNat ≠ burntS.get F.CH_ASSET 15) ∧
    (burningS.Awake ∧ burningS.otp.burn = some (15, 0)) :=
  ⟨⟨six_takes _ (by decide), by decide +kernel⟩, by unfold Takes State.Awake; decide +kernel,
    by unfold State.Awake; decide +kernel⟩

theorem witness_ReceiveMachine : rawPacket [6, 0, 0x21, 0, 0, 0x12, 0x34] = true ∧ 4096 < (4097 : BitVec 16).toNat := by
  decide +kernel

theorem witness_BusErrors :
    (rawPacket [6, 0, 0x21, 0, 0, 0x12, 0x34] = true ∧ hears six 1000 8 = true ∧ six.get F.FA_JIG_LEFT 11 = 0 ∧
      crc16 (([6, 0, 0x21, 0, 0, 0x12, 0x34] : List Byte).take 5) ≠ leAt [6, 0, 0x21, 0, 0, 0x12, 0x34] 5 2) ∧
    (hears six 1000 6 = true ∧ 4096 < (4097 : BitVec 16).toNat) ∧ (six.Awake ∧ six.mp.leaveAt = none) ∧
    ownRow 0x0F = none := by
  unfold State.Awake; decide +kernel

/-- A PING is answered; its reply has not gone out yet. -/
def pingWaits : State := ex (.ping (pk [])) six

/-- RELEASE is answered; the unit has not left ADDRESSED. -/
def releaseWaits : State := ex (.release (pk [0x5A])) six

/-- A CARCASS_BOOT is in progress. -/
def bootWaits : State := ex (.carcassBoot (pk [1]) (some 1200)) sixFw

theorem witness_ReplyTiming :
    (pingWaits.Awake ∧ pingWaits.mp.out = [{ y := 1016, bytes := mkReply 6 St.ok 0x21 (toLE 4 1) }] ∧ addressed pingWaits = true ∧
      pingWaits.tapOwns = false ∧ pingWaits.mp.leaveAt = none) ∧
    (releaseWaits.Awake ∧ releaseWaits.mp.out = [{ y := 1016, bytes := mkReply 6 St.ok 0x21 [], release := true }] ∧
      addressed releaseWaits = true ∧ releaseWaits.tapOwns = false ∧ releaseWaits.mp.leaveAt = none ∧
      1016 + 1 < 1016 + 8 * ((mkReply 6 St.ok 0x21 []).length + 1)) ∧
    (bootWaits.Awake ∧ ∃ j, bootWaits.mp.job = some j ∧ (!j.pended && !j.orphan) = true) :=
  ⟨by unfold State.Awake; decide +kernel, by unfold State.Awake; decide +kernel,
    by unfold State.Awake; decide +kernel, some_of (by decide +kernel)⟩

/-- The pages of the CARCASS_BOOT are written. -/
def bootWritten : State := ex (.storePageWriteDone true) (ex (.storePageWriteDone true) bootWaits)

/-- A broadcast CARCASS_CAPTURE waits for firmware. -/
def bcastWaits : State :=
  { sixFw with mp.bcast := [{ op := 0x20, addr := 127, tag := 0x30, params := [0, 0, 0, 0] }] }

theorem witness_FirmwareService :
    (bootWritten.Awake ∧ bootWritten.mp.ready = [(.chain, St.ok, [])] ∧
      ∃ j, bootWritten.mp.job = some j ∧ (!j.orphan && !j.pended && Nat.ble (1300 + 8) (j.edge + j.win)) = true) ∧
    (bcastWaits.Awake ∧ bcastWaits.mp.bcast = [{ op := 0x20, addr := 127, tag := 0x30, params := [0, 0, 0, 0] }] ∧
      bcastWaits.mp.bjob = none ∧ bcastWaits.mp.job = none ∧ bcastWaits.on F.MP_STATUS_FW_READY = true) :=
  ⟨⟨by unfold State.Awake; decide +kernel, by decide +kernel, some_of (by decide +kernel)⟩, by unfold State.Awake; decide +kernel⟩

/-- An inner PING as a REMOTE carries it (Table 4.7). -/
def innerPing : List Byte := mkReply 0 0 0x44 []

/-- Port 15 is in frame. -/
def framedFw : State := sixFw.put F.LF_PSTATUS_FSTATE 2 15

/-- A REMOTE through port 15 waits for its inner reply. -/
def remoteS : State := ex (.remote (pk (15 :: innerPing)) (some 1200)) framedFw

/-- The far unit: the inner PING has come by port 3. -/
def farS : State :=
  (six.put F.MP_CTRL_REMOTE_ACCEPT 1).modPort 3 fun x => { x with inbox := some { ty := 1, bytes := innerPing } }

/-- The far unit works at a remote command. -/
def farJobS : State := { six with mp.rjob := some { op := 0x20, addr := 0, tag := 0x44, params := [0, 0, 0, 0], port := 3, age := 16 } }

/-- The inner reply has come back by port 15. -/
def backS : State :=
  { remoteS.modPort 15 (fun x => { x with inbox := some { ty := 2, bytes := mkReply 0 0 0x44 [] } }) with
    mp.remote := [{ kind := .chain, port := 15, tag := 0x44, sent := true }] }

/-- No inner reply has come in 64 frames. -/
def lateS : State := { remoteS with mp.remote := [{ kind := .chain, port := 15, tag := 0x44, sent := true, age := 64 }] }

theorem witness_RemoteCommands :
    (TakesFw framedFw (pk (15 :: innerPing)) 1200 ∧ (15 : Byte).toNat < 16 ∧ innerGood innerPing = true ∧
      portInSync framedFw 15 = true) ∧
    (farS.Awake ∧ (farS.portX 3).inbox = some { ty := 1, bytes := mkReply 0 0 0x44 [] } ∧
      farS.on F.MP_CTRL_REMOTE_ACCEPT = true ∧ tagWorking farS .remote 0x44 = false) ∧
    (farJobS.Awake ∧ ∃ j, farJobS.mp.rjob = some j ∧ (!j.pended && Nat.ble 16 j.age) = true) ∧
    (backS.Awake ∧ (backS.portX 15).inbox = some { ty := 2, bytes := mkReply 0 0 0x44 [] } ∧ (mkReply 0 0 0x44 []).length ≤ 4096 ∧
      backS.mp.remote = [{ kind := .chain, port := 15, tag := 0x44, sent := true }] ∧ (mkReply 0 0 0x44 []).getD 2 0 = 0x44) ∧
    (lateS.Awake ∧ lateS.mp.remote = [{ kind := .chain, port := 15, tag := 0x44, sent := true, age := 64 }] ∧
      replyArriving lateS { kind := .chain, port := 15, tag := 0x44, sent := true, age := 64 } = false) :=
  ⟨by unfold TakesFw Takes State.Awake; decide +kernel, by unfold State.Awake; decide +kernel,
    ⟨by unfold State.Awake; decide +kernel, some_of (by decide +kernel)⟩, by unfold State.Awake; decide +kernel,
    by unfold State.Awake; decide +kernel⟩

/-- An image of one word, MP_IRQ_EN = 3, with the lock mask 0x10 (Table 5.3). -/
def imageBody : List Byte := toLE 1 2 ++ toLE 1 0 ++ toLE 2 1 ++ toLE 4 0x40000024 ++ toLE 4 0x3 ++ List.replicate 8 0

def imageHead : List Byte :=
  toLE 4 0x41435A4C ++ toLE 2 1 ++ toLE 2 0x1664 ++ toLE 4 0 ++ toLE 4 (36 + imageBody.length) ++ toLE 12 7 ++ toLE 4 0x10

def imageBytes : List Byte := imageHead ++ imageBody ++ toLE 4 (crc32 (imageHead ++ imageBody))

/-- The image lies in the staging buffer. -/
def stagedS : State := clr (ex (.carcassPut (pk (toLE 4 0 ++ imageBytes)) (some 1200)) sixFw)

/-- MP_IRQ_EN is a plain register of block MP (Table 4.8). -/
theorem plain_MP_IRQ_EN : PlainReg 0x40000024 := by
  have hb : blockOf 0x40000024 = 0 := by decide
  refine ⟨by decide, by decide, fun s v old => ⟨?_, ?_, ?_, ?_, ?_⟩⟩
  · unfold memAt
    rw [if_neg (by decide), if_neg (by decide), if_neg (by decide), if_neg (by decide)]
  · unfold judgeAll
    rw [if_neg (by decide), if_neg (by decide), if_neg (by decide), hb]
    rfl
  · unfold hookAll
    rw [if_neg (by decide), if_neg (by decide), if_neg (by decide), hb]
    rfl
  · unfold vselProbe
    rw [if_neg (by rintro ⟨h, _⟩; revert h; decide)]
  · unfold judgeState
    rw [if_neg (by rintro ⟨h, _⟩; revert h; decide)]

/-- CARCASS_SAVE of that image is in progress, and then finished. -/
def savingS : State := clr (ex (.carcassSave (pk []) (some 1200)) stagedS)
def savedS : State :=
  clr (ex (.firmwareCommandComplete .chain 1300)
    (ex (.storePageWriteDone true) (ex (.storePageWriteDone true) (ex (.storePageWriteDone true) savingS))))

/-- BOOT_SKIP written before the boot load; a boot with boot mode 1 and the copy saved before. -/
def bootTime : State := { State.reset with cyc := 3200000, tod.frameAt := 3200000 }
def bootSkipped : State := ex .bootSkip bootTime
def bootCopy : State := { savedS with cyc := 3200000, tod.frameAt := 3200000, store.dir0 := some { savedS.dir with bootMode := true, gen := 9 }, cf.bootDone := false }

theorem witness_BootSequence :
    (State.reset.Awake ∧ State.reset.cyc < bootEarliest ∧ State.reset.cf.bootDone = false ∧ bootSkipped.Awake ∧ bootEarliest ≤ bootSkipped.cyc ∧ bootSkipped.cf.bootDone = false ∧ bootSkipped.cf.bootSkip = true) ∧
    (bootTime.Awake ∧ bootEarliest ≤ bootTime.cyc ∧ bootTime.cf.bootDone = false ∧ bootTime.dir.bootMode = true ∧
      bootTime.cf.bootSkip = false ∧ bootTime.bc.bare = [] ∧ newestCopy bootTime = none) ∧
    (bootCopy.Awake ∧ bootEarliest ≤ bootCopy.cyc ∧ bootCopy.cf.bootDone = false ∧ bootCopy.dir.bootMode = true ∧ bootCopy.cf.bootSkip = false ∧
      bootCopy.bc.bare = [] ∧ newestCopy bootCopy = some false ∧
      (bootTry { bootCopy with cf.bootDone := true } false).2 = true ∧
      (bootTry { bootCopy with cf.bootDone := true } false).1.chip.resetDue = none) ∧
    (sixFw.Awake ∧ sixFw.cf.bootDone = true ∧ sixFw.bc.takeover = none ∧ sixFw.bc.bare = [] ∧ sixFw.bc.swap = none) := by
  unfold State.Awake; decide +kernel

theorem witness_CarcassCommands :
    TakesFw sixFw (pk (toLE 4 (2 ^ 21 - 1))) 1200 ∧
    (TakesFw sixFw (pk (toLE 4 16 ++ [1, 2, 3, 4])) 1200 ∧ 16 + 4 ≤ imageRoom) ∧
    (TakesFw savedS (pk (0 :: (toLE 4 0 ++ toLE 2 4088))) 1200 ∧ 0 + 4088 ≤ imageRoom ∧ 4088 % 4 = 0) ∧
    (TakesFw savedS (pk (2 :: (toLE 4 0 ++ toLE 2 4))) 1200 ∧ (validCopy savedS false).isSome = true ∧
      savedS.get F.FA_JIG_LEFT 6 = 0) ∧
    (TakesFw stagedS (pk [0]) 1200 ∧ PlainReg 0x40000024 ∧
      (∃ r, specAt 0x40000024 = some r ∧ (!(r.lock && stagedS.locked (lockBlock 0x40000024))) = true) ∧
      stagedS.get F.FA_JIG_LEFT 13 = 0 ∧ 0x40000024 ∉ [0x40000008, 0x4000000C, 0x40000010] ∧
      (validate stagedS (stagedImage stagedS) (stagedS.get F.CF_STAGE_LEN_LEN)).2 = .good [(0x40000024, 3)] 56 0x10) :=
  ⟨by unfold TakesFw Takes State.Awake; decide +kernel, by unfold TakesFw Takes State.Awake; decide +kernel,
    by unfold TakesFw Takes State.Awake; decide +kernel, by unfold TakesFw Takes State.Awake; decide +kernel,
    by unfold TakesFw Takes State.Awake; decide +kernel, plain_MP_IRQ_EN, some_of (by decide +kernel), by decide +kernel⟩

/-- Block CF is locked. -/
def cfLocked : State := { sixFw with locks := 4 }

/-- A CARCASS_BOOT whose second page is being written. -/
def bootHalf : State := ex (.storePageWriteDone true) bootWaits

/-- A veneer of one entry: TM_INC[0] = 0x12345678 (Table 5.6). -/
def entryBytes : List Byte := toLE 4 0x400E0028 ++ toLE 4 0x12345678

/-- That veneer staged in stage 2, and armed for frame (1, 9). -/
def veneerS : State := clr (ex (.veneerStage (pk (2 :: (toLE 2 1 ++ entryBytes))) (some 1200)) sixFw)
def armedS : State := clr (ex (.veneerCommit (pk (2 :: (toLE 4 1 ++ toLE 2 9)))) veneerS)

theorem bad_wear (s : State) (h : s.store.wear = []) (q : Nat) : pageWear s q < 10000000 := by
  unfold pageWear SMap.get
  rw [h]
  exact (by decide : 0 < 10000000)

theorem witness_StoreCommands :
    (TakesFw stagedS (pk []) 1200 ∧ stagedS.locked 2 = false ∧ stagedS.store.jobs = [] ∧ stagedS.store.bad = [] ∧
      stagedS.get F.CF_STAGE_LEN_LEN ≠ 0 ∧ stagedS.get F.FA_JIG_LEFT 13 = 0 ∧
      (validate stagedS (stagedImage stagedS) (stagedS.get F.CF_STAGE_LEN_LEN)).2 = .good [(0x40000024, 3)] 56 0x10) ∧
    (∀ l, pageWear stagedS (physPage stagedS l) < 10000000) ∧
    (TakesFw sixFw (pk [1]) 1200 ∧ sixFw.locked 2 = false ∧ sixFw.store.jobs = [] ∧ sixFw.store.bad = [] ∧ (1 : Byte).toNat < 2) ∧
    (∀ l, pageWear sixFw (physPage sixFw l) < 10000000) ∧
    (TakesFw veneerS (pk [2, 15]) 1200 ∧ (2 : Byte).toNat < 4 ∧ (15 : Byte).toNat < 16 ∧ veneerS.locked 2 = false ∧
      veneerS.store.jobs = [] ∧ veneerS.store.bad = [] ∧ (veneerS.stageX 2).st ≠ .empty) ∧
    (∀ l, pageWear veneerS (physPage veneerS l) < 10000000) ∧
    (TakesFw cfLocked (pk [0]) 1200 ∧ cfLocked.locked 2 = true) ∧
    (bootWaits.Awake ∧ bootWaits.store.bad = [] ∧ bootWaits.store.sparesUsed < 16 ∧
      (bootWaits.store.jobs.map fun j => (j.pages.length, j.cut)) = [(2, false)] ∧
      bootWaits.store.jobs.all (fun j => j.pages.all fun q => Nat.blt (pageWear bootWaits (physPage bootWaits q.1)) 10000000) = true) ∧
    (bootHalf.Awake ∧ bootHalf.store.bad = [] ∧
      (bootHalf.store.jobs.map fun j => (j.pages.length, j.cut, j.what)) = [(1, false, .bootMode true)]) :=
  ⟨by unfold TakesFw Takes State.Awake; decide +kernel, fun _ => bad_wear _ (by decide +kernel) _,
    by unfold TakesFw Takes State.Awake; decide +kernel, fun _ => bad_wear _ (by decide +kernel) _,
    by unfold TakesFw Takes State.Awake; decide +kernel, fun _ => bad_wear _ (by decide +kernel) _,
    by unfold TakesFw Takes State.Awake; decide +kernel, by unfold State.Awake; decide +kernel,
    by unfold State.Awake; decide +kernel⟩

/-- The veneer of stage 2 saved in slot 7. -/
def slotS : State :=
  clr (ex (.firmwareCommandComplete .chain 1300) (ex (.storePageWriteDone true) (ex (.storePageWriteDone true)
    (ex (.storePageWriteDone true) (ex (.veneerSave (pk [2, 7]) (some 1200)) veneerS)))))

/-- The entries of that veneer as they parse. -/
def entryList : List VEntry :=
  match parseEntries 1 entryBytes with
  | .inr es => es
  | .inl _ => []

theorem witness_VeneerCommands :
    (TakesFw sixFw (pk (3 :: (toLE 2 1 ++ entryBytes))) 1200 ∧ (3 : Byte).toNat < 4 ∧ stageArmed sixFw 3 = false ∧
      entryBytes.length ≤ 2048 ∧ parseEntries 1 entryBytes = .inr entryList ∧ firstBadEntry 0 entryList = none) ∧
    (TakesFw slotS (pk [1, 7]) 1200 ∧ stageArmed slotS 1 = false ∧ firstBadEntry 0 entryList = none ∧
      slotS.get F.FA_JIG_LEFT 6 = 0 ∧ validSlot slotS 7 = some { count := 1, len := entryBytes.length } ∧
      storeBytes slotS (pageBytes * slotPage 7) entryBytes.length = entryBytes) ∧
    (Takes veneerS (pk (2 :: (toLE 4 1 ++ toLE 2 9))) ∧ (veneerS.stageX 2).st ≠ .empty ∧ stageArmed veneerS 2 = false ∧
      startsTooSoon veneerS (1, 9) = false ∧ numDiff (1, 9) veneerS.frameNum ≤ 2700000000 ∧ veneerS.locks = 0) ∧
    (Takes armedS (pk [2]) ∧ stageArmed armedS 2 = true ∧ startsTooSoon armedS (stageTarget armedS 2) = false) ∧
    (TakesFw armedS (pk [0, 2]) 1200 ∧ (armedS.stageX 2).st ≠ .empty) :=
  ⟨by unfold TakesFw Takes State.Awake; decide +kernel, by unfold TakesFw Takes State.Awake; decide +kernel,
    by unfold Takes State.Awake; decide +kernel, by unfold Takes State.Awake; decide +kernel,
    by unfold TakesFw Takes State.Awake; decide +kernel⟩

/-- The frame before the target of stage 2, with block TM unlocked and locked, and the frame after it. -/
def dueS : State := { armedS with num.next := some (1, 9) }
def dueLocked : State := { dueS with locks := 2 ^ 14 }
def pastS : State := { armedS with num.next := some (1, 10) }

/-- Pair 1 selects veneers, and slot 7 is cached for both its states. -/
def pairS : State := (slotS.put F.PAIR_CFG_FUNC 3 1).put F.PAIR_STAT_STATE 0 1
def cachedS : State := ex (.vselEnable 1 7 7) pairS

theorem witness_VeneerApplication :
    (dueS.Awake ∧ stageArmed dueS 2 = true ∧ stageTarget dueS 2 = dueS.nextFrameNum ∧ PlainReg 0x400E0028 ∧
      0x400E0028 ≠ F.CF_EVENT_VENEER_APPLIED.addr) ∧
    (∃ r, specAt 0x400E0028 = some r ∧ (!(r.lock && dueS.locked (lockBlock 0x400E0028))) = true) ∧
    veneerWords dueS (dueS.stageX 2).count (dueS.stageX 2).bytes = [(0x400E0028, 0x12345678)] ∧
    (dueLocked.Awake ∧ stageArmed dueLocked 2 = true ∧ stageTarget dueLocked 2 = dueLocked.nextFrameNum ∧
      veneerWords dueLocked (dueLocked.stageX 2).count (dueLocked.stageX 2).bytes = [(0x400E0028, 0x12345678)]) ∧
    (∃ r, specAt 0x400E0028 = some r ∧ (r.lock && dueLocked.locked (lockBlock 0x400E0028)) = true) ∧
    (pastS.Awake ∧ stageArmed pastS 2 = true ∧ numDiff (stageTarget pastS 2) pastS.nextFrameNum < 0) :=
  ⟨⟨by unfold State.Awake; decide +kernel, by decide +kernel, by decide +kernel, plain_TM_INC, by decide⟩,
    some_of (by decide +kernel), by decide +kernel, by unfold State.Awake; decide +kernel, some_of (by decide +kernel),
    by unfold State.Awake; decide +kernel⟩

theorem witness_VeneerCommands_pairs :
    (pairS.Awake ∧ pairS.locked 2 = false ∧ pairS.get F.FA_JIG_LEFT 6 = 0 ∧ (validSlot pairS 7).isSome = true) ∧
    (cachedS.Awake ∧ (cachedS.cacheX 1).due = true ∧ vselPair cachedS 1 = true ∧ pairState cachedS 1 ≠ 2 ∧
      (if cachedS.on F.PAIR_STAT_AGREED 1 then (cachedS.cacheX 1).one else (cachedS.cacheX 1).zero) = entryBytes ∧
      0x400E0028 ≠ F.CF_PAIR_VSEL.addr 1 ∧
      veneerWords cachedS (entryCount 256 entryBytes) entryBytes = [(0x400E0028, 0x12345678)] ∧
      cachedS.locked (lockBlock 0x400E0028) = false) :=
  ⟨by unfold State.Awake; decide +kernel, by unfold State.Awake; decide +kernel⟩

/-- Port 3 enabled, then RUNNING, with its receiver in CDR lock and code sync. -/
def startingS : State := ex (.portEnable 3) six
def runningS : State := ex (.calibrationDone 3) startingS
def lockS : State := nx (execCdrLockGained 3 (ex (.sigDetChange 3 true) runningS))
def blocks : List CodeUnit := List.replicate 64 (BitVec.ofNat 66 (2 ^ 64))
def syncS : State := nx (execCodeSyncGained 3 blocks lockS)
def badUnits : List CodeUnit := List.replicate 16 0

/-- Its receiver's coding layer after those blocks. -/
def gainedY : RxCode := codeRun (lockS.get F.LP_CTRL_RATE 3) (lockS.portX 3).rxCode (unitsIn lockS 3 blocks)

/-- It is in frame, loop timed, and scans its eye. -/
def framedS : State := (syncS.put F.LF_PSTATUS_FSTATE 2 3).put F.LP_CTRL_TX_TIMING 1 3
def eyeS : State := ex (.eyeStart 3) framedS

theorem witness_PortStates :
    (six.Awake ∧ six.locked 3 = false ∧ six.get F.LP_CTRL_LOOPBACK 3 ≠ 3 ∧ six.get F.LP_STATUS_STATE 3 = 0) ∧
    (framedS.Awake ∧ framedS.locked 3 = false ∧ framedS.get F.LP_CTRL_LOOPBACK 3 ≠ 3 ∧ framedS.get F.LP_STATUS_STATE 3 = 2) ∧
    (startingS.Awake ∧ startingS.get F.LP_STATUS_STATE 3 = 1) := by
  unfold State.Awake; decide +kernel

theorem witness_ReceiverEvents :
    (runningS.Awake ∧ runningS.get F.LP_STATUS_STATE 3 = 2) ∧
    (lockS.Awake ∧ lockS.get F.LP_STATUS_STATE 3 = 2 ∧ lockS.get F.LP_STATUS_CDR_LOCK 3 = 1 ∧
      lockS.tapOwns = false ∧ codeHolds (lockS.get F.LP_CTRL_RATE 3) gainedY = true ∧ lockS.get F.LP_STATUS_CODE_SYNC 3 = 0 ∧
      (lockS.put F.LP_CTRL_RATE 3 3).get F.LP_CTRL_RATE 3 = 3 ∧ (lockS.put F.LP_CTRL_RATE 3 3).get F.LP_STATUS_STATE 3 = 2) ∧
    (eyeS.Awake ∧ eyeS.get F.LP_STATUS_CDR_LOCK 3 = 1 ∧ eyeS.get F.LP_STATUS_STATE 3 = 2 ∧ eyeS.get F.LP_CTRL_TX_TIMING 3 = 1 ∧
      eyeS.get F.LP_CTRL_LOOPBACK 3 ≠ 2 ∧ eyeS.get F.LP_STATUS_LOOP_FALLBACK 3 = 0 ∧ eyeS.get F.LP_STATUS_EYE_BUSY 3 = 1) ∧
    (framedS.Awake ∧ framedS.get F.LP_STATUS_CODE_SYNC 3 = 1 ∧ framedS.get F.LF_PSTATUS_FSTATE 3 = 2 ∧ framedS.tapOwns = false ∧
      framedS.get F.LP_STATUS_STATE 3 = 2 ∧ framedS.get F.LP_STATUS_CDR_LOCK 3 = 1 ∧
      codeHolds (framedS.get F.LP_CTRL_RATE 3)
        (codeRun (framedS.get F.LP_CTRL_RATE 3) (framedS.portX 3).rxCode (unitsIn framedS 3 badUnits)) = false) ∧
    (let s := (framedS.put F.LP_STATUS_LOOP_FALLBACK 1 3).modPort 3 fun x => { x with loopTicks := 32 }
     s.Awake ∧ s.get F.LP_STATUS_LOOP_FALLBACK 3 = 1 ∧ s.get F.LP_STATUS_CDR_LOCK 3 = 1 ∧ s.get F.LP_STATUS_CODE_SYNC 3 = 1 ∧
       s.get F.LP_CTRL_LOOPBACK 3 ≠ 2 ∧ 32 ≤ (s.portX 3).loopTicks) := by
  unfold State.Awake; decide +kernel

theorem witness_ReceiverControls : framedS.Awake ∧ framedS.locked 3 = false ∧ framedS.get F.LP_STATUS_STATE 3 = 2 ∧
    framedS.get F.LP_CTRL_EN 3 = 1 ∧ framedS.get F.LP_CTRL_LOOPBACK 3 ≠ 3 ∧ framedS.on F.LP_CTRL_RX_INV 3 ≠ true ∧
    (1 : Fin 4) ≠ 3 ∧ ((1 : Fin 4) = 1) ≠ (framedS.get F.LP_CTRL_LOOPBACK 3 = 1) := by
  refine ⟨?_, ?_⟩
  · unfold State.Awake; decide +kernel
  · refine ⟨by decide +kernel, by decide +kernel, by decide +kernel, by decide +kernel, by decide +kernel, by decide, ?_⟩
    intro h
    have : framedS.get F.LP_CTRL_LOOPBACK 3 = 1 := h ▸ rfl
    revert this
    decide +kernel

/-- Port 3 with its PRBS generator and checker on; the checker predicts the group `prbsG` next. -/
def prbsS : State := (((syncS.put F.LP_PRBS_GEN 1 3).put F.LP_PRBS_CHK 2 3).modPort 3 fun x =>
  { x with chk := { st := some 1, clean := 3 } })
def prbsLockedS : State := (prbsS.put F.LP_STATUS_PRBS_LOCK 1 3).modPort 3 fun x => { x with chk := { st := some 1, dirty := 7 } }
def prbsG : Word := BitVec.ofNat 32 (prbsRun 2 32 1 0).1

/-- What the checker of port 3 is given of received groups. -/
def atChecker (s : State) (groups : List Word) : List Nat :=
  invertUnits 32 (s.on F.LP_PRBS_CHK_INV 3) (invertUnits 32 (s.on F.LP_CTRL_RX_INV 3)
    (if s.get F.LP_CTRL_LOOPBACK 3 = 1 then (s.portX 3).txGroups else groups.map fun w => w.toNat))

theorem witness_PortMeasurements :
    (prbsS.Awake ∧ prbsS.on F.LP_PRBS_GEN 3 = true ∧ prbsS.get F.LP_STATUS_STATE 3 = 2 ∧ prbsS.on F.LP_PRBS_CHK 3 = true ∧
      portInSync prbsS 3 = false ∧ prbsS.tapOwns = false ∧ atChecker prbsS [prbsG] = [prbsG.toNat] ∧
      (prbsS.portX 3).chk.st = some 1 ∧ 0 = onesIn 32 ((prbsRun (prbsS.get F.LP_PRBS_CHK 3) 32 1 0).1 ^^^ prbsG.toNat) ∧
      prbsS.get F.LP_STATUS_PRBS_LOCK 3 = 0 ∧ (prbsS.portX 3).chk.clean = 3) ∧
    (prbsLockedS.Awake ∧ prbsLockedS.get F.LP_STATUS_STATE 3 = 2 ∧ prbsLockedS.on F.LP_PRBS_CHK 3 = true ∧
      portInSync prbsLockedS 3 = false ∧ prbsLockedS.tapOwns = false ∧ atChecker prbsLockedS [0] = [0] ∧
      (prbsLockedS.portX 3).chk.st = some 1 ∧ prbsLockedS.get F.LP_STATUS_PRBS_LOCK 3 = 1) ∧
    (framedS.Awake ∧ framedS.get F.LP_STATUS_EYE_BUSY 3 = 0 ∧ framedS.get F.LP_STATUS_CDR_LOCK 3 = 1) ∧
    (eyeS.Awake ∧ eyeS.get F.LP_STATUS_EYE_BUSY 3 = 1) := by
  unfold State.Awake; decide +kernel

/-- A read of 16 bytes from the module of port 3, and a poll that is due with the bus free and with the bus taken. -/
def xferS : State := ex (.modTransferStart 3 false true 15 240) framedS
def pollS : State := (framedS.put F.LP_MOD_CFG_POLL_EN 1 3).modPort 3 fun x => { x with pollTicks := 6250 }
def pollXferS : State := ex (.modTransferStart 3 false true 15 240) pollS

theorem witness_ModuleBus :
    (framedS.Awake ∧ framedS.get F.LP_MOD_STAT_BUSY 3 = 0 ∧ (240 : Byte).toNat + (15 : Fin 16).val ≤ 255) ∧
    (xferS.Awake ∧ (xferS.portX 3).modWait = false ∧ 16 ≤ ({ data := List.replicate 16 7 } : ModSeen).data.length) ∧
    (∃ m, (xferS.portX 3).modXfer = some m ∧ (m.count == 15) = true) ∧
    (∃ m, (xferS.portX 3).modXfer = some m ∧ (m.write == false) = true) ∧
    (pollS.Awake ∧ pollDueNow pollS 3 = true ∧ (pollS.portX 3).modXfer = none ∧ (pollS.portX 3).polling = false) ∧
    (pollXferS.Awake ∧ pollDueNow pollXferS 3 = true ∧ (pollXferS.portX 3).modXfer.isSome = true ∧
      (pollXferS.portX 3).modWait = false) ∧
    ((ex (.modPoll 3) pollS).Awake ∧ ((ex (.modPoll 3) pollS).portX 3).polling = true) ∧
    (framedS.locked 3 = false ∧ (0x100 : Word).toNat / 256 % 256 ≠ 0) :=
  ⟨by unfold State.Awake; decide +kernel, by unfold State.Awake; decide +kernel, some_of (by decide +kernel),
    some_of (by decide +kernel), by unfold State.Awake; decide +kernel⟩

/-- Port 3 at 124.416 Mb/s with a good line signal; then with its start word found. -/
def huntS : State :=
  [(F.LP_STATUS_STATE, 2), (F.LP_STATUS_CODE_SYNC, 1), (F.LP_STATUS_CDR_LOCK, 1), (F.LP_CTRL_RATE, 0)].foldl (fun s e => s.put e.1 e.2 3) six
def foundS : State := ex (.huntStartWord 3 0x7E36 0x81C9) huntS

/-- A frame of 2,000 words whose number is that of frame (65538, n), not synchronised (Table 8.2). -/
def frameWords (n : Nat) : List LineWord :=
  [0xBCB5, 0x7E36, 0x81C9, 1, 2, BitVec.ofNat 16 (32768 + n), 7, 8, 0x8003, 0x1234, 0x5678, 0x9ABC, 0xDEF0] ++
    List.replicate 15 0 ++ [0x155, 0, 0, 0] ++ List.replicate 1968 0x1111

/-- Three frames received: port 3 is in SYNC and IM with a label. -/
def inFrameS : State :=
  ex (.receivedFrame 3 (.words true (frameWords 7)) 78) (ex (.receivedFrame 3 (.words true (frameWords 6)) 78)
    (ex (.receivedFrame 3 (.words true (frameWords 5)) 77) foundS))

def badAlignS : State := inFrameS.put F.LF_PSTATUS_E 3 3

/-- What the receiver of port 3 delivers of frame 5, with a good and with an errored alignment. -/
def goodIn (s : State) : State × Bool × List LineWord := frameIn s 3 (.words true (frameWords 5))
def badIn (s : State) : State × Bool × List LineWord := frameIn s 3 (.words false (frameWords 5))

theorem witness_FrameFinder :
    (huntS.Awake ∧ huntS.get F.LP_STATUS_STATE 3 = 2 ∧ huntS.get F.LP_STATUS_CODE_SYNC 3 = 1 ∧ huntS.tapOwns = false ∧
      huntS.get F.LF_PSTATUS_FSTATE 3 = 0 ∧ ((0x7E36 : LineWord) ≠ 0x7E36 ∨ (0x81C8 : LineWord) ≠ 0x81C9)) ∧
    (huntS.get F.LP_CTRL_LOOPBACK 3 ≠ 1 ∧ huntS.get F.LP_CTRL_LOOPBACK 3 ≠ 2 ∧ finderRuns (goodIn six).1 3 = false ∧
      (goodIn huntS).1.get F.LF_PSTATUS_FSTATE 3 = 0) ∧
    (foundS.Awake ∧ (badIn foundS).1.get F.LP_STATUS_STATE 3 = 2 ∧ (badIn foundS).1.get F.LP_STATUS_CODE_SYNC 3 = 1 ∧
      (badIn foundS).1.tapOwns = false ∧ (badIn foundS).1.chip.resetDue = none ∧
      (badIn foundS).2.2.length = wordsPerFrame ((badIn foundS).1.get F.LP_CTRL_RATE 3) ∧
      (badIn foundS).1.get F.LF_PSTATUS_FSTATE 3 = 1 ∧ aligned (badIn foundS).2.1 (badIn foundS).2.2 = false) ∧
    ((goodIn foundS).1.get F.LF_PSTATUS_FSTATE 3 = 1 ∧ aligned (goodIn foundS).2.1 (goodIn foundS).2.2 = true) ∧
    (badAlignS.Awake ∧ (badIn badAlignS).1.get F.LP_STATUS_STATE 3 = 2 ∧ (badIn badAlignS).1.get F.LP_STATUS_CODE_SYNC 3 = 1 ∧
      (badIn badAlignS).1.tapOwns = false ∧ (badIn badAlignS).1.chip.resetDue = none ∧
      (badIn badAlignS).1.get F.LF_PSTATUS_FSTATE 3 = 2 ∧ (badIn badAlignS).1.get F.LF_PSTATUS_E 3 = 3) ∧
    ((goodIn inFrameS).1.get F.LF_PSTATUS_FSTATE 3 = 2 ∧ (goodIn inFrameS).1.get F.LF_PSTATUS_E 3 < 3 ∧
      (goodIn inFrameS).1.get F.LF_PSTATUS_IM 3 = 1 ∧ ((goodIn inFrameS).1.portX 3).label = some (65538, 7) ∧
      numberOf (frameWords 8) = some (nextNum (65538, 7))) := by
  unfold State.Awake; decide +kernel

/-- The local frame is the last of its second. -/
def lastFrameS : State := (inFrameS.put F.LF_NOW_S 0xABCD1234).put F.LF_NOW_F 31249

theorem witness_FrameOverhead :
    (inFrameS.Awake ∧ inFrameS.get F.LP_STATUS_STATE 3 = 2 ∧ inFrameS.get F.LP_PRBS_GEN 3 = 0 ∧
      inFrameS.get F.LP_CTRL_LOOPBACK 3 ≠ 2 ∧ inFrameS.tapOwns = false) ∧
    (six.Awake ∧ six.get F.LP_STATUS_STATE 3 ≠ 2) ∧
    lastFrameS.get F.LF_NOW_F < 2 ^ 15 ∧ ((inFrameS.modPort 3 fun x => { x with txFresh := false }).portX 3).txFresh = false ∧
    (inFrameS.portX 3).bipInj = 0 := by
  unfold State.Awake; decide +kernel

/-- The numbering follows port 3; 95 good frames; adopted; 95 frames away from it. -/
def seekS : State :=
  let s := numWritten (ex (.numberingModeWrite true 3) inFrameS)
  { s with num.good := 95 }
def adoptedS : State := ex .numAdopted seekS
def awayS : State := { adoptedS with num.far := 95 }
def mismatchS : State := ex .mismatchSet awayS
def nearMatchS : State := { ((mismatchS.put F.LF_NOW_S 65538).put F.LF_NOW_F 7) with num.near := 95 }

theorem witness_LocalNumbering :
    (lastFrameS.Awake ∧ lastFrameS.num.next = none ∧ lastFrameS.get F.LF_NUM_STATUS_STATE = 0 ∧ lastFrameS.locked 4 = false) ∧
    (adoptedS.Awake ∧ adoptedS.get F.LF_NUM_STATUS_STATE ≠ 0 ∧ adoptedS.num.next = some (adoptedS.num.next.getD (0, 0))) ∧
    (let s := ex (.numberingModeWrite true 4) adoptedS
     s.get F.LF_NUM_CTRL_MODE = 1 ∧ s.get F.LF_NUM_STATUS_STATE ≠ 0 ∧ s.num.src ≠ s.get F.LF_NUM_CTRL_SRC) ∧
    (seekS.Awake ∧ adoptDue seekS = true ∧ (seekS.portX seekS.num.src).label = some (65538, 7)) ∧
    (awayS.Awake ∧ mismatchSetDue awayS = true) ∧
    (nearMatchS.Awake ∧ mismatchClrDue nearMatchS = true) := by
  unfold State.Awake; decide +kernel

/-- Port 3 with every count of frames one short, an accepted trace due and a message whole. -/
def fullS : State :=
  inFrameS.modPort 3 fun x => { x with
    traceCount := 3, tracePrev := (List.range 64).map (BitVec.ofNat 8), mcFull := some { ty := 2, bytes := [1] },
    lofA := 95, lofB := 95, lomA := 95, lomB := 95 }

def lofS : State := fullS.put F.LF_PSTATUS_FSTATE 0 3
def lofBackS : State := fullS.put F.LF_PSTATUS_LOF 1 3
def lomS : State := fullS.put F.LF_PSTATUS_IM 0 3
def lomBackS : State := fullS.put F.LF_PSTATUS_LOM 1 3
def tracedS : State := ex (.traceAccepted 3) fullS
def messageS : State := (ex (.mgmtMessageAccept 3) fullS).modPort 3 fun x => { x with mcFull := some { ty := 3, bytes := [1] } }
theorem witness_PortFraming :
    (lofS.Awake ∧ lofS.get F.LP_STATUS_STATE 3 = 2 ∧ lofS.get F.LF_PSTATUS_LOF 3 = 0 ∧ lofS.get F.LF_PSTATUS_FSTATE 3 ≠ 2 ∧
       95 ≤ (lofS.portX 3).lofA) ∧
    (lofBackS.Awake ∧ lofBackS.get F.LP_STATUS_STATE 3 = 2 ∧ lofBackS.get F.LF_PSTATUS_LOF 3 = 1 ∧ lofBackS.get F.LF_PSTATUS_FSTATE 3 = 2 ∧ 95 ≤ (lofBackS.portX 3).lofB) ∧
    (lomS.Awake ∧ lomS.get F.LF_PSTATUS_LOM 3 = 0 ∧ lomS.get F.LF_PSTATUS_FSTATE 3 = 2 ∧ lomS.get F.LF_PSTATUS_IM 3 = 0 ∧ 95 ≤ (lomS.portX 3).lomA) ∧
    (lomBackS.Awake ∧ lomBackS.get F.LF_PSTATUS_LOM 3 = 1 ∧ lomBackS.get F.LF_PSTATUS_FSTATE 3 = 2 ∧ lomBackS.get F.LF_PSTATUS_IM 3 = 1 ∧ 95 ≤ (lomBackS.portX 3).lomB) ∧
    (fullS.Awake ∧ 3 ≤ (fullS.portX 3).traceCount ∧ (fullS.portX 3).tracePrev ≠ traceBytes fullS F.LF_RX_TRACE 3 ∧
      (fullS.portX 3).mcFull = some { ty := 2, bytes := [1] } ∧ (fullS.portX 3).inbox = none) ∧
    ((tracedS.portX 3).tracePrev = traceBytes tracedS F.LF_RX_TRACE 3 ∧ 3 ≤ (tracedS.portX 3).traceCount) ∧
    (messageS.Awake ∧ (messageS.portX 3).mcFull = some { ty := 3, bytes := [1] } ∧ (messageS.portX 3).inbox ≠ none) ∧ (255 : Byte) ≠ 0 := by
  unfold State.Awake; decide +kernel

/-- Tributary 5: from line port 3, two slots wide, watchdog on, CRC on (Table 9.2). -/
def tribS : State :=
  ((sixFw.put F.XC_TRIB_CFG (1 * 2 ^ 27 + 3 * 2 ^ 21 + 2 ^ 20 + 1 * 2 ^ 13 + 2) 5).put F.XC_TRIB_CRC 7 5).put F.LP_CTRL_RATE 0 3

/-- Three slots of idle and two of tributary 5 (Table 9.4); and a run beyond the frame. -/
def mapRuns : List Word := [BitVec.ofNat 32 (3 * 2 ^ 16 + 256), BitVec.ofNat 32 (0xE0000000 + 2 * 2 ^ 16 + 5)]
def badRuns : List Word := [BitVec.ofNat 32 (3 * 2 ^ 16 + 256), BitVec.ofNat 32 (600 * 2 ^ 16 + 5)]
def loadPk (dir buf : Byte) (ws : List Word) : Pkt := pk ([dir, 3, buf, 9] ++ toLE 2 ws.length ++ bytesOfWords ws)

/-- Transmit buffer B of port 3 loaded with the map; and then with tributary 5 no longer configured. -/
def mappedS : State := clr (ex (.xcMapLoad (loadPk 0 1 mapRuns) (some 1200)) tribS)
def unmappedS : State := mappedS.put F.XC_TRIB_CFG 0 5

def rxS : State := tribS.put F.XC_RX_SEL_ARM_A 0 3
theorem all_of {α : Type} {p : α → Prop} [DecidablePred p] {l : List α} (h : (l.all fun x => decide (p x)) = true) :
    ∀ x ∈ l, p x := fun x hx => of_decide_eq_true (List.all_eq_true.mp h x hx)

theorem witness_CrossConnect :
    (∀ w ∈ mapRuns, 1 ≤ bitsOf w.toNat 16 13 ∧ bitsOf w.toNat 16 13 ≤ 4992 ∧ bitsOf w.toNat 0 9 ≤ 256) ∧
    (tribS.Awake ∧ staleDue tribS (5 : Byte).toNat = true) ∧
    (TakesFw tribS (loadPk 0 1 mapRuns) 1200 ∧ mapRuns.length ≤ 1022 ∧ tribS.locked 5 = false ∧ activeBuf tribS 3 ≠ (1 : Byte).toNat ∧
      (mapRuns.map fun w => bitsOf w.toNat 16 13).sum ≤ slotsPerFrame (tribS.get F.LP_CTRL_RATE 3)) ∧
    (TakesFw rxS (loadPk 1 0 mapRuns) 1200 ∧ rxS.on F.XC_RX_SEL_ARM_A 3 = false) ∧
    (TakesFw tribS (loadPk 0 1 badRuns) 1200 ∧
      badRun (slotsPerFrame (tribS.get F.LP_CTRL_RATE 3)) 0 0 badRuns = some (1, BitVec.ofNat 32 (600 * 2 ^ 16 + 5))) ∧
    (TakesFw mappedS (pk [3]) 1200 ∧ mappedS.locked 5 = false ∧
      checkRuns mappedS 0 3 (plainRuns mappedS 3 0 (1 - activeBuf mappedS 3)) = List.replicate 8 0) ∧
    (TakesFw unmappedS (pk [3]) 1200 ∧
      (checkRuns unmappedS 0 3 (plainRuns unmappedS 3 0 (1 - activeBuf unmappedS 3))).headD 0 ≠ 0) ∧
    TakesFw unmappedS (pk [1, 15, 1]) 1200 := by
  refine ⟨all_of (by decide +kernel), ?_, ?_, ?_, ?_, ?_, ?_, ?_⟩ <;> (try unfold TakesFw) <;> (try unfold Takes) <;> (try unfold State.Awake) <;> decide +kernel

/-- The spare slice is copying slice 3; copied; shadowing it; in its place; and copying back. -/
def copyS : State := ex (.xcSliceSwap (pk [3, 0]) (some 1200)) sixFw
def shadowS : State := { ex .sliceCopyComplete copyS with xc.shadowing := true }
def swappedS : State := clr (ex (.firmwareCommandComplete .chain 1300) (ex (.shadowFrameEnd 0) shadowS))
def backCopyS : State := ex (.xcSliceRestore (pk []) (some 1200)) swappedS
def backShadowS : State := { ex .sliceCopyComplete backCopyS with xc.shadowing := true }

def slicesLocked : State := { sixFw with locks := 32 }
def lastTryS : State := shadowS.put F.XC_SLICE_STAT_ATTEMPTS 15
theorem witness_SpareSlice :
    (TakesFw sixFw (pk [7, 1]) 1200 ∧ sixFw.locked 5 = false ∧ sixFw.get F.XC_SLICE_STAT_SPARE_STATE = 0) ∧
    (TakesFw swappedS (pk [7, 1]) 1200 ∧ swappedS.locked 5 = false ∧ swappedS.get F.XC_SLICE_STAT_SPARE_STATE ≠ 0) ∧
    (TakesFw slicesLocked (pk [7, 1]) 1200 ∧ slicesLocked.locked 5 = true) ∧
    (TakesFw swappedS (pk []) 1200 ∧ swappedS.get F.XC_SLICE_STAT_SPARE_STATE = 3) ∧
    (copyS.Awake ∧ copyS.get F.XC_SLICE_STAT_SPARE_STATE = 1 ∧ backCopyS.get F.XC_SLICE_STAT_SPARE_STATE = 4) ∧
    (shadowS.Awake ∧ shadowS.xc.shadowing = true ∧ shadowS.get F.XC_SLICE_STAT_SPARE_STATE = 2 ∧ shadowS.xc.force = false ∧
      shadowS.get F.XC_SLICE_STAT_ATTEMPTS < 15) ∧
    (backShadowS.Awake ∧ backShadowS.xc.shadowing = true ∧ backShadowS.get F.XC_SLICE_STAT_SPARE_STATE = 5 ∧
      backShadowS.xc.sliceJob.isSome = true) ∧
    (lastTryS.Awake ∧ lastTryS.xc.shadowing = true ∧ 15 ≤ lastTryS.get F.XC_SLICE_STAT_ATTEMPTS ∧ lastTryS.get F.XC_SLICE_STAT_SPARE_STATE = 2) := by
  refine ⟨?_, ?_, ?_, ?_, ?_, ?_, ?_, ?_⟩ <;> (try unfold TakesFw) <;> (try unfold Takes) <;> (try unfold State.Awake) <;> decide +kernel

/-- Gear 7 enabled, its input tributary 5, ratio 3/2, offset 50 with slew 20. -/
def gearOn : State := ex (.gearEnWrite 7 true) tribS
def copyOf (n a : Nat) : CopyT :=
  { at_ := n, rate := 0, port := 3, crcOk := true, age := 0,
    slots := [(3, [BitVec.ofNat 16 (a / 65536), BitVec.ofNat 16 a, 0, 0]), (4, [0, 0, 0, 0x3300])] }
def gearReady : State :=
  (takeSnap ((((((gearOn.put F.GR_G_CFG_IN_TRIB 5 7).put F.GR_G_NUM 3 7).put F.GR_G_DEN 2 7).put F.GR_G_PRESET 1000 7).put
    F.GR_G_OFS 50 7).put F.GR_G_SLEW 20 7)).modTrib 5 fun x => { x with copies := [copyOf 100 0x12345] }

/-- It has captured its input, and the input has moved by 3. -/
def gearRun : State := (ex (.gearStep 7) gearReady).modTrib 5 fun x => { x with copies := [copyOf 200 0x12348, copyOf 100 0x12345] }

/-- Later in the frame. -/
def gearLate : State := { gearReady with cyc := gearReady.cyc + 5000 }

/-- Its gap count is one short of its limit. -/
def gearGap : State := ((gearRun.put F.GR_G_CFG_GAP_LIMIT 4 7).put F.GR_G_STAT_GAP 3 7).modGear 7 fun x => { x with used := false }

theorem witness_Gearing :
    (tribS.Awake ∧ tribS.locked 6 = false ∧ tribS.get F.GR_G_STAT_STATE 7 = 0) ∧
    (gearReady.Awake ∧ gearReady.locked 6 = false ∧ gearReady.get F.GR_G_STAT_STATE 7 = 1 ∧ gearReady.get F.FA_JIG_LEFT 3 = 0 ∧
      gearReady.fa.badWords = [] ∧ (gearReady.gearX 7).load = true) ∧ (gearInputs gearReady 7 frameCycles).length = 1 ∧
    (gearLate.Awake ∧ gearLate.locked 6 = false ∧ gearLate.inFrame ≠ 0 ∧ tribS.inFrame = 0 ∧ gearReady.inFrame = 0) ∧
    (gearGap.Awake ∧ gapDue gearGap 7 = true) ∧
    (gearRun.Awake ∧ gearRun.get F.GR_G_STAT_STATE 7 = 2 ∧ gearRun.get F.FA_JIG_LEFT 3 = 0 ∧ gearRun.fa.badWords = [] ∧
      gearRun.snap F.GR_G_DEN 7 ≠ 0) ∧ (gearInputs gearRun 7 frameCycles).length = 1 ∧
    ((gearReady.modGear 7 fun x => { x with load := false }).gearX 7).load = false := by
  unfold State.Awake; decide +kernel

/-- Recipe 63 of two steps, add 5 and multiply by 3/2 (Table 10.2); and one whose second word is no step. -/
def recipeSteps2 : List (Word × Word × Word × Word) := [(0x01000000, 5, 0, 0), (0x03000100, 3, 9, 7)]
def recipeBad : List (Word × Word × Word × Word) := [(0x01000000, 5, 0, 0), (0x0E000100, 3, 9, 7)]
def recipePk (ws : List (Word × Word × Word × Word)) : Pkt :=
  pk ([63, BitVec.ofNat 8 ws.length] ++ bytesOfWords (ws.flatMap fun w => [w.1, w.2.1, w.2.2.1, w.2.2.2]))
def recipeS : State := clr (ex (.grRecipeLoad (recipePk recipeSteps2) (some 1200)) tribS)
def recipeOn : State :=
  takeSnap ((((recipeS.put F.GR_R_CFG_EN 1 63).put F.GR_R_CFG_IN_KIND 1 63).put F.GR_R_CFG_IN_INDEX 5 63).modTrib 5 fun x =>
    { x with copies := [copyOf 100 0x12345] })

theorem witness_Recipes :
    (∀ w ∈ recipeSteps2, stepBad w.1.toNat = false) ∧
    (recipeOn.Awake ∧ recipeOn.get F.FA_JIG_LEFT 3 = 0 ∧ recipeOn.fa.badWords = []) ∧ (recipeInputs recipeOn 63 frameCycles).length = 1 ∧
    (TakesFw tribS (recipePk recipeSteps2) 1200 ∧ (63 : Byte).toNat < 64 ∧ recipeSteps2.length ≤ 8 ∧ tribS.locked 6 = false) ∧
    (TakesFw tribS (recipePk recipeBad) 1200 ∧ recipeBad[1]? = some (0x0E000100, 3, 9, 7) ∧
      stepBad (0x0E000100 : Word).toNat = true ∧ recipeBad[0]? = some (0x01000000, 5, 0, 0) ∧
      stepBad (0x01000000 : Word).toNat = false) ∧
    (TakesFw recipeS (pk ([63] ++ toLE 4 (2 ^ 32 - 6))) 1200 ∧ 2 ^ 32 - 6 < 2 ^ 32) ∧
    (-2147483648 : Int) ≤ -2147483648 ∧ (2147483647 : Int) ≤ 2147483647 := by
  refine ⟨all_of (by decide +kernel), ?_, ?_, ?_, ?_, ?_, ?_, ?_⟩ <;> (try unfold TakesFw) <;> (try unfold Takes) <;> (try unfold State.Awake) <;> decide +kernel

/-- Queue 5 from the bridge's QDMA to it, RUNNING; a packet of 40 bytes in it; and in reset. -/
def queueOff : State := sixFw.put F.QM_Q_CFG_CONS_KIND 3 5
def queueOn : State := (ex (.queueEnWrite 5 true) queueOff).put F.QM_Q_CFG_PROD_KIND 3 5
def queueStopped : State := queueOn.put F.QM_Q_STAT_STATE 0 5
def packetBytes : List Byte := (List.range 40).map (BitVec.ofNat 8)
def queueSent : State :=
  clr (ex (.firmwareCommandComplete .chain 1210) (ex (.qmPktSend (pk (5 :: packetBytes)) (some 1200)) queueOn))
def queueResetting : State := ex (.qmReset (pk [5]) (some 1200)) queueSent

/-- The pointer memory is being rebuilt. -/
def rebuildS : State := { queueSent.put F.QM_STATUS_REBUILDING 1 with qm.rebuilding := true }

/-- The packet tributary 5 has had nothing for 3,200 frames. -/
def starveS : State :=
  ((queueSent.put F.XC_TRIB_CFG (2 * 2 ^ 30 + 5 * 2 ^ 27 + 5 * 2 ^ 21 + 2) 5).put F.QM_Q_CFG_CONS_KIND 1 5).modPktTrib 5 fun x =>
    { x with starving := true, starvedN := 3200 }

/-- A packet is being written into queue 5; and queue 5 may hold no packet. -/
def queueHalf : State := (qPutByte queueOn 5 0xAB).1
def queueFullS : State := queueOn.put F.QM_Q_LIM_MAX 0 5

theorem oneCell_queueSent : OneCell queueSent 5 { cells := [0], len := 40 } [] 0 := by
  unfold OneCell NoJig; decide +kernel

theorem witness_Queues :
    (queueOff.Awake ∧ queueOff.locked 7 = false ∧ queueOff.get F.QM_Q_CFG_PROD_KIND 5 = 0 ∧ queueOff.get F.QM_Q_STAT_STATE 5 = 0 ∧
      queueOff.get F.QM_Q_CFG_EN 5 = 0) ∧
    (queueSent.Awake ∧ OneCell queueSent 5 { cells := [0], len := 40 } [] 0 ∧ hasConsumer queueSent 5 = true ∧ hasConsumer queueOff 6 = false) ∧
    (queueResetting.Awake ∧ queueResetting.get F.QM_Q_STAT_STATE 5 = 2 ∧ (queueResetting.queueX 5).faulted = false ∧
      (queueResetting.queueX 5).qdma = [] ∧ (queueResetting.queueX 5).recvJobs = [] ∧ (queueResetting.queueX 5).resetJobs = [.chain]) ∧
    ((rebuildS.Awake ∧ rebuildS.qm.rebuilding = true ∧ rebuildS.qm.differ = [] ∧ NoJig [8, 9, 10] rebuildS) ∧
      (∀ q', q' < 64 → rebuildS.get F.QM_Q_STAT_STATE q' ≠ 2) ∧ ∀ e ∈ rebuildS.qm.queue, e.2.recvJobs = []) ∧
    (starveS.Awake ∧ starveDue starveS (5 : Byte).toNat = true ∧ (starveS.pktTrib 5).judged = false) ∧
    (qRunning queueHalf 5 = true ∧ (queueHalf.queueX 5).skip = false ∧ NoJig [9, 10] queueHalf ∧ queueHalf.fa.badWords = [] ∧ queueHalf.qm.differ = [] ∧
      (queueHalf.queueX 5).cur = some { cells := [0], len := 1 }) ∧
    (qRunning queueOn 5 = true ∧ (queueOn.queueX 5).skip = false ∧ NoJig [9, 10] queueOn ∧ queueOn.fa.badWords = [] ∧ queueOn.qm.differ = [] ∧
      (queueOn.queueX 5).cur = none ∧ qCanTake queueOn 5 = true) ∧
    (qRunning queueFullS 5 = true ∧ (queueFullS.queueX 5).skip = false ∧ NoJig [9, 10] queueFullS ∧ queueFullS.fa.badWords = [] ∧ queueFullS.qm.differ = [] ∧
      (queueFullS.queueX 5).cur = none ∧ qCanTake queueFullS 5 = false) := by
  refine ⟨?_, ⟨?_, oneCell_queueSent, ?_⟩, ?_, ⟨?_, ?_, ?_⟩, ?_, ?_, ?_, ?_⟩ <;> (try unfold State.Awake) <;> (try unfold NoJig) <;> decide +kernel

theorem witness_QueueOpcodes :
    (TakesFw sixFw (pk [63]) 1200 ∧ (63 : Byte).toNat < 64 ∧ sixFw.get F.QM_Q_STAT_STATE 63 = 0) ∧
    (TakesFw queueSent (pk [5]) 1200 ∧ queueSent.get F.QM_Q_STAT_STATE 5 = 1 ∧ queueSent.get F.QM_Q_CFG_CONS_KIND 5 = 3) ∧
    (TakesFw (queueSent.put F.QM_Q_STAT_STATE 2 5) (pk [5]) 1200 ∧ (queueSent.put F.QM_Q_STAT_STATE 2 5).get F.QM_Q_STAT_STATE 5 = 2 ∧
      (queueSent.put F.QM_Q_STAT_STATE 2 5).get F.QM_Q_CFG_CONS_KIND 5 = 3) ∧
    (TakesFw queueOn (pk [5]) 1200 ∧ queueOn.get F.QM_Q_STAT_STATE 5 = 1 ∧ queueOn.get F.QM_Q_CFG_CONS_KIND 5 = 3 ∧
      (queueOn.queueX 5).pkts = [] ∧ (queueOn.queueX 5).rd = none) ∧
    OneCell queueSent 5 { cells := [0], len := 40 } [] 0 ∧
    (TakesFw queueStopped (pk [5, 7]) 1200 ∧ queueStopped.get F.QM_Q_CFG_PROD_KIND 5 = 3 ∧ qRunning queueStopped 5 = false ∧
      (queueStopped.queueX 5).qdma = []) ∧
    (TakesFw rebuildS (pk [5]) 1200 ∧ rebuildS.get F.QM_Q_STAT_STATE 5 = 1 ∧ rebuildS.get F.QM_Q_CFG_CONS_KIND 5 = 3 ∧
      rebuildS.qm.rebuilding = true ∧ (rebuildS.queueX 5).pkts ≠ []) ∧
    (TakesFw queueOn (pk (5 :: List.replicate 64 7)) 1200 ∧ (List.replicate 64 (7 : Byte)).length ≤ 64 ∧
      queueOn.get F.QM_Q_CFG_PROD_KIND 5 = 3 ∧ qRunning queueOn 5 = true ∧
      (queueOn.queueX 5).skip = false ∧ (queueOn.queueX 5).cur = none ∧ (queueOn.queueX 5).qdma = [] ∧ qCanTake queueOn 5 = true ∧
      NoJig [9, 10] queueOn ∧ queueOn.fa.badWords = [] ∧ queueOn.qm.differ = []) ∧
    (TakesFw queueSent (pk []) 1200 ∧ NoJig [8, 9, 10] queueSent ∧ queueSent.qm.differ = []) := by
  refine ⟨?_, ?_, ?_, ?_, oneCell_queueSent, ?_, ?_, ?_, ?_⟩ <;> (try unfold TakesFw) <;> (try unfold Takes) <;> (try unfold State.Awake) <;>
    (try unfold NoJig) <;> decide +kernel

/-- Client port 2 with its link down and up, sending from queue 5, with PAUSE both ways and no auto-negotiation. -/
def clientDown : State :=
  [(F.CL_CFG_EN, 1), (F.CL_CFG_TX_EN, 1), (F.CL_CFG_TXQ, 5), (F.CL_CFG_RX_PAUSE_EN, 1), (F.CL_CFG_TX_PAUSE_EN, 1), (F.CL_CFG_MODE, 1),
    (F.CL_STATUS_CREF_OK, 1)].foldl (fun s e => s.put e.1 e.2 2) (queueSent.put F.QM_Q_CFG_CONS_KIND 2 5)
def clientUp : State := ex (.linkChange 2 true) clientDown

/-- A client frame of n bytes that begins with `bs`, with its FCS. -/
def clientFrame (n : Nat) (bs : List Byte) : List Byte :=
  let b := bs ++ List.replicate (n - 4 - bs.length) 7
  b ++ toLE 4 (crc32 b)

def pauseIn : List Byte := clientFrame 64 (pauseAddr ++ List.replicate 6 9 ++ [0x88, 8, 0, 1, 1, 2])
def plainIn : List Byte := clientFrame 64 (pauseAddr ++ List.replicate 6 9 ++ [8, 0])
def pausedS : State := ex (.clientFrameReceive 2 pauseIn) clientUp
def clientFull : State := clientUp.modClient 2 fun x => { x with store := [(1, List.replicate 16321 0)] }

/-- Queue 5 takes from client port 2: XOFF is due; sent; and XON is due. -/
def xoffS : State := (clientUp.put F.QM_Q_CFG_PROD_KIND 2 5).put F.QM_Q_CFG_PROD_INDEX 2 5
def xoffSent : State := (ex (.pauseXoff 2) xoffS).modClient 2 fun x => { x with lineLeft := 0, refresh := 50 }
def xonS : State := xoffSent.put F.QM_Q_LIM_MAX 2000 5

/-- Client port 2 negotiates. -/
def negotiateS : State := (clientUp.put F.CL_CFG_MODE 0 2).put F.CL_CFG_AN_EN 1 2

theorem oneCell_clientUp : OneCell clientUp (clientUp.get F.CL_CFG_TXQ 2) { cells := [0], len := 40 } [] 0 := by
  unfold OneCell NoJig; decide +kernel

theorem calm_of {s : State} {n : Nat} (w : s.bm.waiting = [] ∧ s.tod.tmW = {}) (v : NoWrites s) (k : toKickLost s = none) (h : n ≤ frameLeft s) :
    Calm s n := ⟨w.1, v, (fun d e => by rw [k] at e; cases e), h, w.2⟩
theorem calm_pausedS : Calm pausedS 5284 := calm_of (by decide +kernel) (by unfold NoWrites; decide +kernel) (by decide +kernel) (by decide +kernel)
theorem calm_xoffSent : Calm xoffSent 1 := calm_of (by decide +kernel) (by unfold NoWrites; decide +kernel) (by decide +kernel) (by decide +kernel)

theorem witness_ClientPorts :
    (clientUp.Awake ∧ clientUp.get F.CL_CFG_EN 2 = 1 ∧ clientUp.get F.CL_STATUS_LINK 2 = 1 ∧ clientUp.tapOwns = false ∧
      4 ≤ (plainIn ++ [4]).length ∧
      leAt (plainIn ++ [4]) ((plainIn ++ [4]).length - 4) 4 ≠ crc32 ((plainIn ++ [4]).take ((plainIn ++ [4]).length - 4))) ∧
    (leAt (clientFrame 63 []) 59 4 = crc32 ((clientFrame 63 []).take 59) ∧ (clientFrame 63 []).length < 64) ∧
    (leAt pauseIn 60 4 = crc32 (pauseIn.take 60) ∧ 64 ≤ pauseIn.length ∧ be16 pauseIn 12 = 0x8808 ∧ be16 pauseIn 14 = 1 ∧
      pauseIn.take 6 = pauseAddr ∧ clientUp.get F.CL_CFG_RX_PAUSE_EN 2 = 1 ∧ clNegotiates clientUp 2 = false) ∧
    (leAt plainIn 60 4 = crc32 (plainIn.take 60) ∧ plainIn.length = 64 ∧ be16 plainIn 12 ≠ 0x8808 ∧
      storeFill clientUp 2 + 64 ≤ 16384) ∧
    (clientFull.Awake ∧ clientFull.get F.CL_CFG_EN 2 = 1 ∧ clientFull.get F.CL_STATUS_LINK 2 = 1 ∧
      16384 < storeFill clientFull 2 + 64) ∧
    OneCell clientUp (clientUp.get F.CL_CFG_TXQ 2) { cells := [0], len := 40 } [] 0 ∧
    (clConsumes clientUp 2 (clientUp.get F.CL_CFG_TXQ 2) = true ∧ clientUp.get F.CL_STATUS_PAUSED 2 = 0 ∧ lineFree clientUp 2 = true) ∧
    (clientDown.Awake ∧ clConsumes clientDown 2 (clientDown.get F.CL_CFG_TXQ 2) = true ∧ clientDown.get F.CL_STATUS_LINK 2 = 0 ∧
      clientDown.get F.CL_CFG_EN 2 = 1 ∧ clientDown.get F.CL_STATUS_CREF_OK 2 = 1) ∧
    (pausedS.Awake ∧ pausedS.get F.CL_STATUS_PAUSED 2 = 1 ∧ clCycles pausedS 2 (pausedS.clientX 2).pauseLeft = some 5284) ∧
    Calm pausedS 5284 ∧
    (xoffS.Awake ∧ clPauses xoffS 2 = true ∧ xoffS.get F.CL_STATUS_XOFF_SENT 2 = 0 ∧ belowXoff xoffS 2 = true) ∧
    (xoffSent.Awake ∧ clPauses xoffSent 2 = true ∧ xoffSent.get F.CL_STATUS_XOFF_SENT 2 = 1 ∧ atXon xoffSent 2 = false ∧
      belowXoff xoffSent 2 = true ∧ clCycles xoffSent 2 (xoffSent.clientX 2).refresh = some 1) ∧
    Calm xoffSent 1 ∧
    (xonS.Awake ∧ clPauses xonS 2 = true ∧ xonS.get F.CL_STATUS_XOFF_SENT 2 = 1 ∧ atXon xonS 2 = true) ∧
    (negotiateS.Awake ∧ negotiateS.get F.CL_CFG_EN 2 = 1 ∧ negotiateS.get F.CL_STATUS_CREF_OK 2 = 1 ∧ clNegotiates negotiateS 2 = true ∧
      TakesFw negotiateS (pk [2]) 1200) ∧
    (TakesFw clientUp (pk [2]) 1200 ∧ clNegotiates clientUp 2 = false) := by
  refine ⟨?_, ?_, ?_, ?_, ?_, oneCell_clientUp, ?_, ?_, ?_, calm_pausedS, ?_, ?_, calm_xoffSent, ?_, ?_, ?_⟩ <;> (try unfold TakesFw) <;> (try unfold Takes) <;>
    (try unfold State.Awake) <;> decide +kernel

/-- Port 3 RUNNING with its CDR lock lost for two samples; declared; and the lock back for 31 samples. -/
def losingS : State := { six.put F.LP_STATUS_STATE 2 3 with dm.cnt := [(16 * 3 + 1, { a := 2, b := 0 })] }
def lostS : State := ex (.defectDeclare false 3 1) losingS
def regainS : State := { lostS.put F.LP_STATUS_CDR_LOCK 1 3 with
  dm.cnt := [(16 * 3 + 1, { a := 0, b := 31 })], dm.judged := 0 }

/-- Tributary 5 stale; its defect declared; and fresh again. -/
def staleS : State := six.put F.XC_TRIB_STAT_STALE 1 5
def staleDecl : State := ex (.defectDeclare true 5 1) staleS
def freshS : State := { staleDecl.put F.XC_TRIB_STAT_STALE 0 5 with dm.judgedT := [] }

/-- A window of EXC with 12 blocks. -/
def windowS : State := setWin losingS 3 true { frames := 400000, sum := 12 }

theorem witness_Defects :
    (losingS.Awake ∧ (3 : Byte).toNat = (3 : Fin 16).val ∧ losingS.get F.LP_STATUS_STATE 3 = 2 ∧ losingS.dm.judged.testBit 3 = false ∧ defLimits (1 : Fin 14) = some (3, 32) ∧
      defDecl losingS 3 1 = false ∧ rawCond losingS 3 1 = true ∧ 3 ≤ (defCnt losingS (16 * 3 + 1)).a + 1) ∧
    (regainS.Awake ∧ regainS.get F.LP_STATUS_STATE 3 = 2 ∧ regainS.dm.judged.testBit 3 = false ∧ defDecl regainS 3 1 = true ∧ rawCond regainS 3 1 = false ∧
      32 ≤ (defCnt regainS (16 * 3 + 1)).b + 1) ∧
    (staleS.Awake ∧ (5 : Byte).toNat ∉ staleS.dm.judgedT ∧ tribDecl staleS 5 1 = false ∧ tribRaw staleS 5 1 = true ∧
      (tribLimits (1 : Fin 14)).1 ≤ (defCnt staleS (4096 + 4 * 5 + 1)).a + 1) ∧
    (freshS.Awake ∧ (5 : Byte).toNat ∉ freshS.dm.judgedT ∧ tribDecl freshS 5 1 = true ∧ tribRaw freshS 5 1 = false ∧
      (tribLimits (1 : Fin 14)).2 ≤ (defCnt freshS (4096 + 4 * 5 + 1)).b + 1) ∧
    (windowS.Awake ∧ winDue windowS 3 true = true ∧ defDecl windowS 3 4 = false) := by
  refine ⟨?_, ?_, ?_, ?_, ?_⟩ <;> (try unfold State.Awake) <;> decide +kernel

/-- A second's end is due, port 3 in its tenth bad second; then its record ages; a bin and a day full; and aged. -/
def secondS : State :=
  { modPm losingS 3 (fun x => { x with bip := 5, ran := true, run := 9, defs := 1 }) with
    dm.pmTicks := 31250, dm.pmWait := false, dm.pmSeq := 20 }
def agedS : State := { ex .pmSecondEnd secondS with dm.pmSeq := 31 }
def fullBinS : State :=
  modPm secondS 3 fun x => { x with curBin := { n := 4, seconds := 900, es := 3 }, curDay := { n := 0, seconds := 86400 } }
def agedBinS : State := { ex (.dailyBinClose 3) (ex (.fifteenMinuteBinClose 3) fullBinS) with dm.pmSeq := 4499 + 11 }
def agedDayS : State := { agedBinS with dm.pmSeq := 86399 + 11 }

theorem witness_PerformanceHistory :
    (secondS.Awake ∧ pmEndDue secondS secondS.nextFrameNum.2 = true ∧ (pmPort secondS 0).run < 9) ∧
    (agedS.Awake ∧ recordFinalDue agedS 3 (agedS.dm.pmSeq - 1) = true ∧ 21 % 900 ≠ (agedS.dm.pmSeq - 11) % 900) ∧
    (fullBinS.Awake ∧ 900 ≤ (pmPort fullBinS 3).curBin.seconds ∧ 86400 ≤ (pmPort fullBinS 3).curDay.seconds) ∧
    (agedBinS.Awake ∧ agedBinS.dm.pmSeq = 4499 + 11 ∧ 4499 % 900 = 899 ∧ (binAt agedBinS 3 (4499 / 900)).valid = true ∧
      (binAt agedBinS 3 (4499 / 900)).n = 4499 / 900) ∧
    (agedDayS.Awake ∧ agedDayS.dm.pmSeq = 86399 + 11 ∧ 86399 % 86400 = 86399 ∧ (dayAt agedDayS 3 (86399 / 86400)).valid = true ∧
      (dayAt agedDayS 3 (86399 / 86400)).n = 86399 / 86400) := by
  refine ⟨?_, ?_, ?_, ?_, ?_⟩ <;> (try unfold State.Awake) <;> decide +kernel

theorem witness_PerformanceCountersCleared : secondS.Awake := by unfold State.Awake; decide +kernel

/-- Group 2, MERGE, on ports 3 and 4, GID 3, WTR 60 s; with its wait running; and with a candidate offset. -/
def mergeWord : Word := BitVec.ofNat 32 (1 * 2 ^ 30 + 3 * 2 ^ 25 + 4 * 2 ^ 20 + 3 * 2 ^ 16 + 60)
/-- Group settings as the next tick takes them. -/
def settled (s : State) : State := { s with ps.cfg := SMap.restrict psSetting s.regs }
def groupS : State := settled (ex (.groupConfigWrite 2 mergeWord) sixFw)
def wtrS : State :=
  (((groupS.put F.LP_STATUS_STATE 2 3).put F.LP_STATUS_STATE 2 4).modGroup 2 (fun g => { g with wtr := some (0, 0) })).put F.PS_GWTR 1 2
def offsetS : State := (wtrS.put F.LF_PSTATUS_IM 1 3).put F.LF_RX_OFS 1000 3
def releaseS : State := ((wtrS.put F.PS_MRG_RO 131264 2).put F.PS_GSTAT_RO_VALID 1 2).put F.LF_FRAME_TOTAL 100
def groupLocked : State := { wtrS with locks := 1024 }

/-- Group 2 as a LINEAR group, its wait run down. -/
def linearS : State := settled (wtrS.put F.PS_GCFG_KIND 3 2)

/-- Group 2 forced, locked out, and with a manual request. -/
def lockoutS : State := settled (linearS.put F.PS_GCMD_CMD 3 2)
def forcedS : State := settled (linearS.put F.PS_GCMD_CMD 2 2)
def manualS : State := settled (linearS.put F.PS_GCMD_CMD 1 2)

theorem witness_ProtectionGroups :
    (sixFw.Awake ∧ sixFw.locked 10 = false ∧ bitsOf (0x3000003C : Word).toNat 30 2 = 0) ∧
    (bitsOf (0x46330000 : Word).toNat 30 2 ≠ 0 ∧ bitsOf (0x46330000 : Word).toNat 16 4 = bitsOf (0x46330000 : Word).toNat 20 4) ∧
    (bitsOf mergeWord.toNat 30 2 ≠ 0 ∧ bitsOf mergeWord.toNat 16 4 ≠ bitsOf mergeWord.toNat 20 4 ∧
      bitsOf mergeWord.toNat 25 5 ≠ 0 ∧ bitsOf mergeWord.toNat 0 12 ≤ 3600 ∧ (∀ w, w < 8 → sixFw.get F.PS_GCFG_KIND w = 0) ∧
      mergeUse (psLive (sixFw.setReg (F.PS_GCFG.addr 2) mergeWord)) ≤ 160) ∧
    (linearS.Awake ∧ wtrDue linearS 2 = true ∧ psKind linearS 2 = 3 ∧ wtrS.get F.PS_GCFG_KIND 2 ≠ 0) ∧
    (((releasesDue releaseS 2 12800).head?).isSome = true) ∧
    (forcedS.psCfg F.PS_GCMD_CMD 2 = 2 ∧ manualS.psCfg F.PS_GCMD_CMD 2 = 1 ∧ discards forcedS 2 = true ∧ psKind forcedS 2 ≠ 1) ∧
    (Takes wtrS (pk [2, 3, 1]) ∧ (1 : Byte).toNat < 2 ∧ (3 : Byte).toNat < 4 ∧ Takes wtrS (pk [2, 4, 1]) ∧ Takes wtrS (pk [2])) ∧
    (TakesFw offsetS (pk [2]) 1200 ∧ offsetS.locked 10 = false ∧ offsetS.get F.PS_GCFG_KIND 2 = 1 ∧ (firstRo (psLive offsetS) 2).isSome = true) ∧
    (TakesFw wtrS (pk [2]) 1200 ∧ wtrS.locked 10 = false ∧ wtrS.get F.PS_GCFG_KIND 2 = 1 ∧ firstRo (psLive wtrS) 2 = none) ∧
    (TakesFw groupLocked (pk [2]) 1200 ∧ groupLocked.locked 10 = true) := by
  refine ⟨?_, ?_, ?_, ?_, ?_, ?_, ?_, ?_, ?_, ?_⟩ <;> (try unfold TakesFw) <;> (try unfold Takes) <;> (try unfold State.Awake) <;>
    decide +kernel

/-- Candidate 17 active, and waiting to restore; XO_IN lost. -/
def activeS : State := ex (.referenceActive 17) sixFw
def restoreS : State := (activeS.put F.TG_REF_STAT_QSTATE 1 17).put F.TG_REF_WTR 0 17
def gatedS : State := activeS.put F.LF_FRAME_TOTAL 500000
def failingS : State := activeS.put F.TG_REF_STAT_ACTIVE 0 17 |>.put F.TG_REF_STAT_QSTATE 2 17
def qualifyS : State := activeS.put F.TG_REF_FREQ 0 17
def noXoS : State := ex .xoInLost activeS

theorem witness_ReferenceCandidates :
    (sixFw.Awake ∧ 16 ≤ (17 : Fin 20).val ∧ sixFw.get F.TG_REF_STAT_ACTIVE 17 = 0 ∧ sixFw.get F.LP_STATUS_RCLK_VALID 15 = 0 ∧
      xoOk sixFw = true) ∧
    (syncS.get F.LP_STATUS_RCLK_VALID 3 = 1 ∧ (syncS.put F.TG_REF_STAT_ACTIVE 0 3).get F.TG_REF_STAT_ACTIVE 3 = 0) ∧
    (gatedS.Awake ∧ gatedS.get F.TG_REF_STAT_ACTIVE 17 = 1 ∧ xoOk gatedS = true ∧
      gateTicks gatedS 17 ≤ framesSince gatedS (SMap.get (fun _ => 0) gatedS.tg.gate 17)) ∧
    (restoreS.Awake ∧ restoreS.get F.TG_REF_STAT_QSTATE 17 = 1 ∧ restoreS.get F.TG_REF_STAT_ACTIVE 17 = 1 ∧
      candFails restoreS 17 = false ∧ restoreS.get F.TG_REF_WTR 17 = 0) ∧
    (qualifyS.Awake ∧ qualifyS.get F.TG_REF_STAT_QSTATE 17 = 0 ∧ qualifyS.get F.TG_REF_STAT_ACTIVE 17 = 1 ∧ gateWithin qualifyS 17 90 = true) ∧
    (failingS.Awake ∧ failingS.get F.TG_REF_STAT_QSTATE 17 = 2 ∧ candFails failingS 17 = true) ∧
    (noXoS.Awake ∧ xoOk noXoS = false) := by
  refine ⟨?_, ?_, ?_, ?_, ?_, ?_, ?_⟩ <;> (try unfold State.Awake) <;> decide +kernel

/-- DPLL 0 at the end of its lock count; locked and at the end of its loss count; of its grace; and of its holdover time. -/
def lockingS : State := modDpll (sixFw.put F.TG_D_STAT_STATE 1 0) 0 fun x => { x with lockN := 31249 }
def lockedD : State := ex (.dpllLocked 0) (lockTick lockingS 0)
def unlockingS : State := modDpll (lockedD.put F.TG_D_PHERR 1000000 0) 0 fun x => { x with lostN := 31 }
def graceS : State := modDpll (sixFw.put F.TG_D_STAT_STATE 3 0) 0 fun x => { x with grace := 255, saved := (5, 1) }
def holdS : State := modDpll (ex (.hoEnter 0) (bridgeTick graceS 0)) 0 fun x => { x with hoTicks := 100 * 31250 }

/-- DPLL 0 told to be steered, and steered; DPLL 1 told to follow DPLL 0, and to free-run; DPLL 0 told to hold over. -/
def toldS : State := ex (.dpllModeWrite 0 3) holdS
def steeredS : State := tgMove (leaveHo toldS 0) 0 5 31
def toldFollow : State := ex (.dpllModeWrite 1 6) sixFw
def toldFree : State := ex (.dpllModeWrite 1 5) sixFw
def toldHold : State := ex (.dpllModeWrite 0 4) sixFw

theorem witness_Dplls :
    (lockingS.Awake ∧ tgState lockingS 0 = 1 ∧ phaseAbs lockingS 0 ≤ lockWin lockingS 0 ∧ 31249 ≤ (dpllX lockingS 0).lockN ∧
      dueIs (lockTick lockingS 0) 0 1 = true ∧ (lockTick lockingS 0).Awake) ∧
    (unlockingS.Awake ∧ tgState unlockingS 0 = 2 ∧ 4 * lockWin unlockingS 0 < phaseAbs unlockingS 0 ∧ 31 ≤ (dpllX unlockingS 0).lostN ∧
      dueIs (lockTick unlockingS 0) 0 2 = true ∧ (lockTick unlockingS 0).Awake) ∧
    (graceS.Awake ∧ graceS.get F.TG_D_CFG_HO_GRACE 0 ≤ (dpllX graceS 0).grace + 1 ∧ dueIs (bridgeTick graceS 0) 0 3 = true ∧
      (bridgeTick graceS 0).Awake) ∧
    (holdS.Awake ∧ holdS.get F.TG_D_STAT_HO_OUT_OF_SPEC 0 = 0 ∧ holdS.get F.TG_D_HO 0 * 31250 ≤ (dpllX holdS 0).hoTicks + 1 ∧
      dueIs (hoTick holdS 0) 0 4 = true ∧ (hoTick holdS 0).Awake) ∧
    (sixFw.Awake ∧ sixFw.locked 11 = false ∧ sixFw.get F.TG_D_CTRL_FREF 1 ≤ 19 ∧ sixFw.get F.TG_D_CTRL_PREF_A 1 ≤ 19 ∧
      sixFw.get F.TG_D_CTRL_PREF_B 1 ≤ 19 ∧ sixFw.get F.TG_D_CTRL_FREF 0 ≤ 19 ∧ sixFw.get F.TG_D_CTRL_PREF_A 0 ≤ 19 ∧
      sixFw.get F.TG_D_CTRL_PREF_B 0 ≤ 19 ∧ tgState sixFw 0 ≠ 5) ∧
    (toldS.Awake ∧ (dpllX toldS 0).modeW = true ∧ tgMode toldS 0 = 3) ∧
    (toldFollow.Awake ∧ (dpllX toldFollow 1).modeW = true ∧ tgMode toldFollow 1 = 6 ∧ tgState (toldFollow.put F.TG_D_STAT_STATE 0 1) 1 ≠ 6) ∧
    (toldFree.Awake ∧ (dpllX toldFree 1).modeW = true ∧ tgMode toldFree 1 = 5) ∧
    (toldHold.Awake ∧ (dpllX toldHold 0).modeW = true ∧ tgMode toldHold 0 = 4 ∧ tgState toldHold 0 ≠ 4) ∧
    (steeredS.Awake ∧ tgState steeredS 0 = 5) := by
  refine ⟨?_, ?_, ?_, ?_, ?_, ?_, ?_, ?_, ?_, ?_⟩ <;> (try unfold State.Awake) <;> decide +kernel

/-- A realignment of T1 is due; one of the local frame is in progress, and about to end. -/
def t1S : State := { sixFw.put F.TG_OUT_OFS 99 with tg.t1Due := true }
def realignS : State := clr (ex (.tgRealign (pk ([3, 1] ++ toLE 4 (2 ^ 32 - 12799)))) sixFw)
def realignEnd : State := { realignS with tg.rl := 0 }

theorem witness_Realignment :
    (t1S.Awake ∧ t1S.tg.t1Due = true) ∧ (realignEnd.Awake ∧ rlDue realignEnd = true) ∧
    (Takes sixFw (pk ([3, 1] ++ toLE 4 (2 ^ 32 - 12799))) ∧ (toSigned 32 (2 ^ 32 - 12799)).natAbs ≤ 12799 ∧
      sixFw.get F.TG_GSTAT_REALIGNING = 0) ∧
    (Takes realignS (pk ([1, 1] ++ toLE 4 5)) ∧ realignS.get F.TG_GSTAT_REALIGNING = 1) ∧
    (Takes sixFw (pk ([1, 1] ++ toLE 4 12800)) ∧ 12799 < (toSigned 32 12800).natAbs) ∧
    (Takes steeredS (pk ([0] ++ toLE 6 (2 ^ 48 - 1) ++ toLE 4 12)) ∧ tgState steeredS 0 = 5) ∧
    (Takes sixFw (pk ([0] ++ toLE 6 5 ++ toLE 4 12)) ∧ (12 : Word) ≠ 0 ∧ tgState sixFw 0 ≠ 5) ∧ Takes sixFw (pk [1]) := by
  refine ⟨?_, ?_, ?_, ?_, ?_, ?_, ?_, ?_⟩ <;> (try unfold Takes) <;> (try unfold State.Awake) <;> decide +kernel

/-- 1,000 cycles before a second boundary; with a TD_SET for this one and for the next; and a correction under way. -/
def nearS : State := setTodUnits State.reset (secondUnits - 1000 * cycleUnits + 5)
def setNow : State := { nearS with tod.setTo := some (77, 0) }
def setNext : State := { nearS with tod.setTo := some (77, 1) }
def slewS : State := { State.reset with tod.adj := -1000500 }

theorem witness_TimeCounts : todUnits nearS < secondUnits ∧ nearS.tod.frac < 400000000 ∧ nearS.tod.setTo = none ∧
    nearS.tod.sec < 2 ^ 48 ∧ slewS.tod.adj ≠ 0 ∧ (todPass 12801 12800 slewS).tod.adj = 0 ∧ slewS.tod.setTo = none := by
  decide +kernel

/-- TD_CFG written: a follower from now on, and one no more. -/
def toldTd : State := ex (.tdCfgWrite 0x000101F2) six
def untoldTd : State := ex (.tdCfgWrite 0x00010101) { six with tod.role := 2, tod.adj := 7, tod.adjTrack := true }

/-- Sums of an adjustment and of a refused one. -/
def follower : State := six.put F.TD_CFG_ROLE 2
def setWaits : State := { six with tod.setTo := some (5, 0) }

theorem calm_nearS : Calm nearS (toBoundary nearS) := calm_of (by decide +kernel) (by unfold NoWrites; decide +kernel) (by decide +kernel) (by decide +kernel)
theorem calm_setNow : Calm setNow (toBoundary setNow) := calm_of (by decide +kernel) (by unfold NoWrites; decide +kernel) (by decide +kernel) (by decide +kernel)
theorem calm_setNext : Calm setNext (toBoundary setNext) := calm_of (by decide +kernel) (by unfold NoWrites; decide +kernel) (by decide +kernel) (by decide +kernel)
theorem calm_slewS : Calm slewS (toAdjDone slewS) := calm_of (by decide +kernel) (by unfold NoWrites; decide +kernel) (by decide +kernel) (by decide +kernel)

theorem witness_TimeOfDay :
    (nearS.Awake ∧ nearS.tod.adj = 0 ∧ todUnits nearS < secondUnits ∧ nearS.tod.frac < 400000000 ∧ nearS.tod.setTo = none) ∧
    (setNow.tod.setTo = some (77, 0) ∧ setNow.tod.adj = 0 ∧ setNext.tod.setTo = some (77, 0 + 1) ∧ setNext.tod.adj = 0) ∧
    (slewS.Awake ∧ slewS.tod.adj ≠ 0 ∧ slewS.get F.TD_CFG_SLEW ≠ 0 ∧ toAdjDone slewS < toBoundary slewS) ∧
    (Takes six (pk (toLE 6 (2 ^ 48 - 1))) ∧ six.get F.TD_CFG_ROLE ≠ 2 ∧ six.tod.setTo = none) ∧
    (Takes follower (pk (toLE 6 5)) ∧ follower.get F.TD_CFG_ROLE = 2 ∧ Takes setWaits (pk (toLE 6 5)) ∧ setWaits.tod.setTo.isSome = true) ∧
    (Takes six (pk (toLE 4 999999999)) ∧ (toSigned 32 999999999).natAbs ≤ 999999999 ∧
      (toSigned 32 999999999 + getS six F.TD_ADJ_LEFT).natAbs ≤ 999999999) ∧
    (Takes follower (pk (toLE 4 999999999)) ∧ Takes six (pk (toLE 4 1000000000)) ∧ 999999999 < (toSigned 32 1000000000).natAbs) ∧
    (six.Awake ∧ six.locked 12 = false ∧ bitsOf (0x00010101 : Word).toNat 16 16 ≠ 0 ∧ bitsOf (0x00010101 : Word).toNat 8 8 ≠ 0 ∧
      bitsOf (0x00010101 : Word).toNat 0 2 ≠ 3 ∧ bitsOf (0x00010103 : Word).toNat 0 2 = 3) ∧
    (toldTd.get F.TD_CFG_ROLE = 2 ∧ untoldTd.get F.TD_CFG_ROLE ≠ 2 ∧ untoldTd.tod.adjTrack = true) := by
  refine ⟨?_, ?_, ?_, ?_, ?_, ?_, ?_, ?_, ?_⟩ <;> (try unfold Takes) <;>
    (try unfold State.Awake) <;> decide +kernel

/-- A follower of port 0 with a usable message; TRACKING; with 3 µs of path; three times beyond STEP_LIM; with 500 ps; and late. -/
def todMsgWords : List Nat := 0x8000 :: List.replicate 11 0
def followS : State :=
  ((({ State.reset with tod.role := 2, port := [(0, { rxGood := true, label := some (5, 0), todMsg := some (todMsgWords, (5, 0)) })] }.put
    F.TD_CFG_ROLE 2).put F.TD_STATUS_FSTATE 1).put F.LF_PSTATUS_IM 1 0).put F.LF_PSTATUS_FSTATE 2 0
def trackS : State := (followS.put F.TD_STATUS_FSTATE 2).put F.TD_PATH 500
def farOffS : State := (followS.put F.TD_STATUS_FSTATE 2).put F.TD_PATH 3000000
def thirdS : State := { farOffS with tod.missX := 2 }
def lateMsgS : State := { trackS with tod.lost := 31250 }
def errOf (s : State) : Int := followErr s ((usableMsg s).getD []) 7

theorem witness_Following :
    (followS.Awake ∧ (usableMsg followS).isSome = true ∧ (∀ k, k < 8 → (tmEn followS k && tmSrc followS k == 1) = false) ∧
      (errOf followS).natAbs < 2 ^ 31 ∧ followS.get F.TD_STATUS_FSTATE = 1) ∧
    (trackS.Awake ∧ (usableMsg trackS).isSome = true ∧ trackS.get F.TD_STATUS_FSTATE = 2 ∧
      (errOf trackS).natAbs ≤ trackS.get F.TD_CFG_STEP_LIM * 100000) ∧
    (farOffS.Awake ∧ (usableMsg farOffS).isSome = true ∧ farOffS.get F.TD_STATUS_FSTATE = 2 ∧
      farOffS.get F.TD_CFG_STEP_LIM * 100000 < (errOf farOffS).natAbs ∧ (errOf farOffS).natAbs < 2 ^ 31 ∧ farOffS.tod.missX < 2) ∧
    (thirdS.Awake ∧ (usableMsg thirdS).isSome = true ∧ thirdS.tod.missX = 2 ∧ thirdS.get F.TD_STATUS_FSTATE = 2 ∧
      thirdS.get F.TD_CFG_STEP_LIM * 100000 < (errOf thirdS).natAbs) ∧
    (State.reset.Awake ∧ usableMsg State.reset = none) ∧
    (lateMsgS.Awake ∧ lateMsgS.get F.TD_STATUS_FSTATE = 2 ∧ 31250 ≤ lateMsgS.tod.lost) := by
  refine ⟨?_, ?_, ?_, ?_, ?_, ?_⟩ <;> (try unfold State.Awake) <;> decide +kernel

/-- A delay request and a delay response have come by port 3; the exchange has one more to go; it is late. -/
def requestS : State :=
  { State.reset with port := [(3, { inbox := some { ty := 3, bytes := [1, 2] }, mcOut := [{ ty := 2, bytes := [9] }] })] }.put
    F.LF_PCTRL_MC_EN 1 3
def syncFw : State := sixFw.put F.LF_PSTATUS_FSTATE 2 15
def exchS : State :=
  (ex (.tdDelay (pk [15, 2]) (some 2000)) syncFw).modPort 15 fun x => { x with inbox := some { ty := 4, bytes := toLE 2 0 ++ toLE 6 1000 } }
def lastExchS : State :=
  (ex (.delayResponse 15 5001) exchS).modPort 15 fun x => { x with inbox := some { ty := 4, bytes := toLE 2 1 ++ toLE 6 1000 } }
def lateExchS : State := { sixFw with tod.exch := [{ kind := .chain, port := 3, left := 0, id := 4, age := 64 }] }

theorem witness_PathDelay :
    (requestS.Awake ∧ requestS.on F.LF_PCTRL_MC_EN 3 = true ∧ (requestS.portX 3).inbox = some { ty := 3, bytes := [1, 2] } ∧
      2 ^ 48 - 1 < 2 ^ 48) ∧
    (exchS.Awake ∧ exchS.tod.exch = [{ kind := .chain, port := 15, left := 1, id := 0 }] ∧
      (exchS.portX 15).inbox = some { ty := 4, bytes := toLE 2 0 ++ toLE 6 1000 }) ∧
    (lastExchS.Awake ∧ (lastExchS.tod.exch.map fun j => (j.port, j.left, j.id)) = [(15, 0, 1)] ∧
      (lastExchS.portX 15).inbox = some { ty := 4, bytes := toLE 2 1 ++ toLE 6 1000 }) ∧
    (lateExchS.Awake ∧ lateExchS.tod.exch = [{ kind := .chain, port := 3, left := 0, id := 4, age := 64 }]) ∧
    (TakesFw syncFw (pk [15, 64]) 1200 ∧ portInSync syncFw 15 = true) ∧
    (TakesFw sixFw (pk [15, 1]) 1200 ∧ portInSync sixFw 15 = false) ∧
    (TakesFw sixFw (pk [16, 1]) 1200 ∧ TakesFw sixFw (pk [0, 0]) 1200 ∧ TakesFw sixFw (pk [0, 65]) 1200) := by
  refine ⟨?_, ?_, ?_, ?_, ?_, ?_, ?_⟩ <;> (try unfold TakesFw) <;> (try unfold Takes) <;> (try unfold State.Awake) <;> decide +kernel

/-- Input 2 in its dead time; capturing rising edges; with its FIFO full; and counted by timer 5. -/
def deadS : State := { State.reset with kf.last := [(2, 1)], cyc := 0 }
def idleKf : State := { State.reset with cyc := 1000 }
def capS : State := idleKf.put F.KF_IN_CFG 0x11 2
def capFull : State := { capS with kf.fifo := [(2, List.replicate 16 [1, 2, 3, 4])] }
def capTimer : State := ((capS.put F.TM_CFG_EN 1 5).put F.TM_CFG_SRC 3 5).put F.TM_CFG_EVT_E 2 5

/-- Source 20 captured; an interval from source 20 to source 21 armed and started. -/
def outHigh : State := ((idleKf.put F.TM_CFG_OUT_EN 1 4).put F.TM_STAT_LEVEL 1 4).put F.TM_CFG_OUT_EN 1 5 |>.put F.TM_STAT_LEVEL 1 5
def intS : State := (outHigh.put F.KF_INT_CFG_EN 1).put F.KF_INT_CFG_SRC 20
def alignS : State := (outHigh.put F.KF_INT_CFG_EN 1).put F.KF_INT_CFG_SRC 7
def secondS6 : State := { (outHigh.put F.KF_INT_CFG_EN 1).put F.KF_INT_CFG_SRC 6 with tod.sub := 0, tod.frac := 5 }
def armS : State := ex .arm (outHigh.put F.KF_IV_CFG (2 ^ 31 + 21 * 256 + 20))
def startS : State := ex (.internalEvent 20 true 10) armS

theorem witness_Kerf :
    (deadS.Awake ∧ deadS.tapOwns = false ∧ SMap.get (fun _ => 0) deadS.kf.last 2 ≠ 0 ∧ kfTime deadS (10 : Fin 313) + 1 < SMap.get (fun _ => 0) deadS.kf.last 2 + 750) ∧
    (idleKf.Awake ∧ SMap.get (fun _ => 0) idleKf.kf.last 2 = 0 ∧ edgeSelected idleKf 2 true = false) ∧
    (capS.Awake ∧ capS.tapOwns = false ∧ SMap.get (fun _ => 0) capS.kf.last 2 = 0 ∧ edgeSelected capS 2 true = true ∧ capS.get F.KF_IN_CFG_CAP_EN 2 = 1 ∧
      capS.get F.KF_INT_CFG_EN = 0 ∧ capS.get F.KF_IV_CFG_EN = 0 ∧ (∀ k, k < 8 → countsEdges capS k 2 = false) ∧
      (kfFifo capS 2).length < 16) ∧
    (capFull.Awake ∧ edgeSelected capFull 2 true = true ∧ capFull.get F.KF_IN_CFG_CAP_EN 2 = 1 ∧
      (∀ k, k < 8 → countsEdges capFull k 2 = false) ∧ 16 ≤ (kfFifo capFull 2).length) ∧
    (capTimer.Awake ∧ edgeSelected capTimer 2 true = true ∧ countsEdges capTimer (5 : Fin 8).val 2 = true ∧
      capTimer.get F.TM_CFG_CMP_EN 5 = 0 ∧ capTimer.get F.TM_STAT_CATCHUP 5 = 0) ∧
    (alignS.Awake ∧ alignS.get F.KF_INT_CFG_EN = 1 ∧ alignS.get F.KF_INT_CFG_SRC = 7 ∧ alignS.get F.KF_IV_CFG_EN = 0 ∧
      (kfFifo alignS 4).length < 16) ∧
    (secondS6.Awake ∧ secondS6.cyc ≠ 0 ∧ todUnits secondS6 < todInc secondS6 ∧ secondS6.get F.KF_INT_CFG_SRC = 6) ∧
    (intS.Awake ∧ 16 ≤ (20 : Fin 32).val ∧ timerOut intS 4 = true ∧ intS.get F.KF_INT_CFG_EN = 1 ∧ intS.get F.KF_INT_CFG_SRC = 20 ∧ intS.get F.KF_IV_CFG_EN = 0 ∧
      (kfFifo intS 4).length < 16) ∧
    (armS.Awake ∧ timerOut armS 4 = true ∧ timerOut armS 5 = true ∧ armS.get F.KF_INT_CFG_EN = 0 ∧ armS.get F.KF_IV_CFG_EN = 1 ∧ armS.get F.KF_IV_CFG_MODE = 0 ∧
      armS.get F.KF_IV_STAT_STATE = 1 ∧ armS.get F.KF_IV_CFG_START_SRC = 20 ∧ armS.get F.KF_IV_CFG_STOP_SRC = 21 ∧ armS.kf.start = none) ∧
    (startS.Awake ∧ timerOut startS 5 = true ∧ startS.get F.KF_INT_CFG_EN = 0 ∧ startS.get F.KF_IV_CFG_EN = 1 ∧ startS.get F.KF_IV_CFG_STOP_SRC = 21 ∧
      startS.get F.KF_IV_CFG_START_SRC ≠ 21 ∧ startS.get F.KF_IV_STAT_STATE ≠ 0 ∧
      startS.kf.start = some ((kfTime armS (10 : Fin 313) / 2 : Nat) : Int) ∧ startS.kf.stop = none ∧ startS.get F.KF_IV_CFG_CONT = 0 ∧
      (kfFifo startS 5).length < 16 ∧
      ((kfTime startS (19 : Fin 313) / 2 : Nat) : Int) - ((kfTime armS (10 : Fin 313) / 2 : Nat) : Int) ≤ 549755813887) ∧
    (Takes six (pk [5, 16]) ∧ Takes six (pk [6, 1]) ∧ Takes six (pk [0, 0]) ∧ Takes six (pk [0, 17]) ∧ (16 : Byte).toNat ≤ 16) := by
  refine ⟨?_, ?_, ?_, ?_, ?_, ?_, ?_, ?_, ?_, ?_, ?_⟩ <;> (try unfold Takes) <;> (try unfold State.Awake) <;> decide +kernel

/-- Timer 3 counts FCLK 500 before its compare 2; 50 before its overflow; and as the time of day. -/
def compareS : State :=
  ((setTmCmp (setTmHeld (State.reset.put F.TM_CFG (2 ^ 31 + 4 + 2 ^ 30 + 3 * 2 ^ 12) 3) 3 1000) 3 2 1500).put F.TM_INC 100 3 2)
def overflowS : State := setTmHeld (State.reset.put F.TM_CFG (2 ^ 31 + 3 * 2 ^ 16) 3) 3 (2 ^ 64 - 50)
def todTimer : State := overflowS.put F.TM_CFG_SRC 1 3

theorem calm_compareS : Calm compareS 500 := calm_of (by decide +kernel) (by unfold NoWrites; decide +kernel) (by decide +kernel) (by decide +kernel)
theorem calm_overflowS : Calm overflowS 50 := calm_of (by decide +kernel) (by unfold NoWrites; decide +kernel) (by decide +kernel) (by decide +kernel)

theorem witness_Timers :
    (compareS.Awake ∧ tmEn compareS 3 = true ∧ tmSrc compareS 3 = 0 ∧ compareS.get F.TM_STAT_CATCHUP 3 = 0 ∧
      compareS.get F.TM_CFG_CMP_EN 3 = 2 ^ (2 : Fin 4).val ∧ 500 = aheadBy (tmCmp compareS 3 2) (tmHeld compareS 3) ∧
      compareS.tod.adj = 0 ∧ 500 < toBoundary compareS ∧
      tmHeld compareS 3 + 500 < 2 ^ 64) ∧
    (overflowS.Awake ∧ tmEn overflowS 3 = true ∧ tmSrc overflowS 3 = 0 ∧ overflowS.get F.TM_STAT_CATCHUP 3 = 0 ∧
      overflowS.get F.TM_CFG_CMP_EN 3 = 0 ∧ 50 = 2 ^ 64 - tmHeld overflowS 3 ∧ overflowS.tod.adj = 0 ∧
      50 < toBoundary overflowS ∧ overflowS.locked 14 = false) ∧
    (todTimer.Awake ∧ tmSrc todTimer 3 = 1 ∧ todTimer.locked 14 = false) ∧
    (State.reset.Awake ∧ tmEn State.reset 3 = false) := by
  refine ⟨?_, ?_, ?_, ?_⟩ <;> (try unfold State.Awake) <;>
    decide +kernel

/-- Channel 5 on in mode 0, in frame 1,000; with excitation; with its window ended; waiting for its cold junction, channel 2; with
a window in progress; and with a check that has lasted. -/
def frontS : State := (((State.reset.put F.FE_CFG_EN 1 5).put F.FE_CFG_MODE 0 5).put F.LF_FRAME_TOTAL 1000).modFe 5 fun x =>
  { x with stood := 300 }
def excS : State := (frontS.put F.FE_CFG_MODE 2 5).put F.FE_EXC_CONT 1 5
def endedS : State := frontS.modFe 5 fun x => { x with ready := some (s5.1, s5.2) }
where s5 : Nat × Nat := (frontS.get F.FE_CFG 5, frontS.get F.FE_EXC 5)
def junctionS : State :=
  (((((endedS.put F.FE_CFG_CURVE 4 5).put F.FE_CFG_CJ_SRC 2 5).put F.FE_CFG_EN 1 2).put F.FE_CFG_MODE 3 2).put F.FE_CFG_CURVE 1 2).modFe 2
    fun x => { x with ready := some (0, 0) }
def busyFront : State := frontS.modFe 5 fun x => { x with busy := true }
def checkS : State := (busyFront.modFe 5 fun x => { x with chk := some (900, 1000), jobs := [.chain] }).put F.FE_STAT_CHK_BUSY 1 5
def codesOf (s : State) : List Int := List.replicate (2 * s.get F.FE_EXC_CONV 5) 8388607

theorem witness_FrontEnd :
    (excS.Awake ∧ feExcDue excS (5 : Fin 8).val = true) ∧
    (endedS.Awake ∧ (endedS.feX 5).ready = some (endedS.get F.FE_CFG 5, endedS.get F.FE_EXC 5) ∧
      (codesOf endedS).length = 2 * bitsOf (endedS.get F.FE_EXC 5) 16 7 ∧ cjAwaited endedS 5 = false ∧
      (∀ g, g < 8 → g ≠ 5 → (endedS.feX g).held = none ∨ endedS.get F.FE_CFG_CJ_SRC g ≠ 5) ∧
      windowCode (bitsOf (endedS.get F.FE_CFG 5) 28 3) (codesOf endedS) = 8388607 ∧ bitsOf (endedS.get F.FE_CFG 5) 28 3 = 0 ∧
      bitsOf (endedS.get F.FE_EXC 5) 16 7 ≤ (endedS.feX 5).clean ∧ endedS.get F.FE_CFG_CURVE 5 = 0 ∧ (endedS.feX 5).impFault = false) ∧
    (junctionS.Awake ∧ (junctionS.feX 5).ready = some (endedS.get F.FE_CFG 5, endedS.get F.FE_EXC 5) ∧ cjAwaited junctionS 5 = true) ∧
    (busyFront.Awake ∧ busyFront.locked 15 = false ∧ feCfgBad (0xA420FA0A : Word).toNat (busyFront.get F.FE_EXC 5) = false ∧
      (0xA420FA0A : Word).toNat / 2 ^ 31 = 1 ∧
      (0xA420FA0A : Word).toNat &&& 0xFC00FFFF ≠ busyFront.get F.FE_CFG 5 &&& 0xFC00FFFF ∧ (0xA420FA0A : Word).toNat &&& 0x10000 = 0 ∧
      (busyFront.feX 5).busy = true ∧ feCfgBad (0xF420FA0A : Word).toNat (busyFront.get F.FE_EXC 5) = true) ∧
    (feCfgBad (busyFront.get F.FE_CFG 5) (0x00010064 : Word).toNat = false ∧ (0x00010064 : Word).toNat &&& 0xBF7F17FF = 0x00010064 ∧
      (0x00010064 : Word).toNat ≠ busyFront.get F.FE_EXC 5 &&& 0xBF7F17FF) ∧
    (checkS.Awake ∧ frontS.Awake) := by
  refine ⟨?_, ?_, ?_, ?_, ?_, ?_⟩ <;> (try unfold State.Awake) <;> decide +kernel

/-- Channel 5 with a check period and firmware; with a check due; with a later end; and for FE_CHECK. -/
def periodS : State := (frontS.put F.FE_CHK_CHK_PERIOD 60 5).put F.MP_STATUS_FW_READY 1
def checkDueS : State := ex (.checkDue 5) periodS
def startDue : State := { checkDueS with cyc := 0 }
def earlyS : State := busyFront.modFe 5 fun x => { x with chk := some (900, 1001) }
def frontFw : State := sixFw.put F.FE_CFG_EN 1 5

theorem witness_ImpedanceChecks :
    (periodS.Awake ∧ feOn periodS (5 : Fin 8).val = true ∧ periodS.get F.FE_CHK_CHK_PERIOD 5 ≠ 0 ∧ periodS.get F.MP_STATUS_FW_READY = 1 ∧
      (periodS.feX 5).chk = none) ∧
    (frontS.Awake ∧ frontS.get F.MP_STATUS_FW_READY = 0) ∧
    (startDue.Awake ∧ startDue.inFrame = 0 ∧ feOn startDue (5 : Fin 8).val = true ∧ checkWanted startDue (5 : Fin 8).val = true ∧
      checkMayStart startDue (5 : Fin 8).val = true) ∧
    (checkS.Awake ∧ (checkS.feX 5).chk = some (900, 1000) ∧ seqLater 1000 checkS.frameTotal = false ∧ 2 ^ 32 - 1 < 2 ^ 32) ∧
    (earlyS.Awake ∧ (earlyS.feX 5).chk = some (900, 1001) ∧ seqLater 1001 earlyS.frameTotal = true) ∧
    (TakesFw frontFw (pk [5]) 1200 ∧ feOn frontFw 5 = true) ∧ (TakesFw sixFw (pk [7]) 1200 ∧ feOn sixFw 7 = false) ∧
    TakesFw sixFw (pk [8]) 1200 := by
  refine ⟨?_, ?_, ?_, ?_, ?_, ?_, ?_, ?_⟩ <;> (try unfold TakesFw) <;> (try unfold Takes) <;> (try unfold State.Awake) <;> decide +kernel

/-- A table of three knots, and the packet that loads it into table 15. -/
def knots : List (Nat × Nat) := [(2 ^ 32 - 5, 7), (0, 2 ^ 32 - 9), (12, 40)]
def knotPk : Pkt := pk (15 :: BitVec.ofNat 8 knots.length :: knots.flatMap fun p => toLE 4 p.1 ++ toLE 4 p.2)
def splineS : State := { ex (.feSplineLoad knotPk (some 1200)) sixFw with mp := sixFw.mp, ch := sixFw.ch }
def feLocked : State := { sixFw with locks := 2 ^ 15 }

theorem witness_SplineTables :
    (∀ p ∈ knots, p.1 < 2 ^ 32 ∧ p.2 < 2 ^ 32) ∧
    (rising [(-5, 7), (0, -9), (12, 40)] = true ∧ 2 ≤ ([(-5, 7), (0, -9), (12, 40)] : List (Int × Int)).length ∧
      (-5 : Int) ≤ -5 ∧ (-1 : Int) < 0) ∧
    (TakesFw sixFw knotPk 1200 ∧ 2 ≤ knots.length ∧ knots.length ≤ 32 ∧ (15 : Byte).toNat < 16 ∧ sixFw.locked 15 = false ∧
      rising (knots.map fun p => (toSigned 32 p.1, toSigned 32 p.2)) = true) ∧
    (TakesFw feLocked knotPk 1200 ∧ feLocked.locked 15 = true) ∧
    (TakesFw splineS (pk (15 :: toLE 4 5)) 1200 ∧ (splineLive splineS 15 5).isSome = true) ∧
    (TakesFw sixFw (pk (15 :: toLE 4 5)) 1200 ∧ splineLive sixFw 15 5 = none) := by
  refine ⟨all_of (by decide +kernel), ?_, ?_, ?_, ?_, ?_⟩ <;> (try unfold TakesFw) <;> (try unfold Takes) <;>
    (try unfold State.Awake) <;> decide +kernel

/-- Core 2 has failed and the spare takes over; the spare stands for core 2; and it has failed too. -/
def failedS : State := ex (.coreFail 2 true) sixFw
def standinS : State := (sixFw.put F.BC_CORE_STATE 2 4).put F.BC_CORE_STANDS_FOR 2 4
/-- Cores 2 and 1 fail in one cycle; core 3 is retired and its watchdog expires in one cycle. -/
def twoFail : State := ex (.coreWatchdogExpiry 2) sixFw
def retiredS : State := clr (ex (.bcPromote (pk [3])) six)
def noPromote : State := sixFw.put F.BC_CTRL_AUTO_PROMOTE 0

theorem witness_BenchCores :
    (sixFw.Awake ∧ sixFw.bc.takeover = none ∧ sixFw.get F.BC_CORE_STATE (3 : Fin 5).val = 0 ∧ (3 : Fin 5).val < 4 ∧ sixFw.get F.BC_CORE_STATE 4 = 1 ∧
      sixFw.get F.BC_CTRL_AUTO_PROMOTE = 1) ∧
    (noPromote.Awake ∧ noPromote.bc.takeover = none ∧ noPromote.get F.BC_CORE_STATE 3 = 0 ∧ noPromote.get F.BC_CTRL_AUTO_PROMOTE = 0) ∧
    (standinS.Awake ∧ standinS.get F.BC_CORE_STATE 4 = 2) ∧ (failedS.Awake ∧ 3 ≤ failedS.get F.BC_CORE_STATE 2) ∧
    (failedS.bc.takeover = some 2 ∧ 2000 ≤ 2000) ∧
    (twoFail.Awake ∧ twoFail.get F.BC_CORE_STATE 1 = 0 ∧ twoFail.get F.BC_CORE_STATE 4 ≠ 1 ∧ twoFail.bc.takeover = some 2 ∧
      twoFail.bc.takenAt = some twoFail.cyc ∧ twoFail.get F.BC_CORE_CAUSE 2 = 1) ∧
    (retiredS.Awake ∧ retiredS.get F.BC_CORE_STATE 3 = 4 ∧ retiredS.bc.takeover = some 3 ∧ retiredS.bc.takenAt = some retiredS.cyc) ∧
    (Takes six (pk [3]) ∧ six.locked 16 = false ∧ six.get F.BC_CORE_STATE 4 = 1 ∧ six.get F.BC_CORE_STATE 3 = 0 ∧ jobsRunning six = []) ∧
    (Takes (six.put F.BC_CORE_STATE 3 4) (pk [3]) ∧ (six.put F.BC_CORE_STATE 3 4).get F.BC_CORE_STATE 4 ≠ 1 ∧
      (six.put F.BC_CORE_STATE 3 4).locked 16 = false) ∧
    (Takes lockedS (pk [0]) ∧ lockedS.locked 16 = true) ∧ Takes six (pk [4]) := by
  refine ⟨?_, ?_, ?_, ?_, ?_, ?_, ?_, ?_, ?_, ?_, ?_⟩ <;> (try unfold Takes) <;> (try unfold State.Awake) <;> decide +kernel

/-- 144 bytes of a firmware image, LZFW for part 0x1664, version 9, key 0, for steppings 0–15; loaded; verifying; and one with a wrong
header verifying. -/
def fwImage : List Byte :=
  [0x4C, 0x5A, 0x46, 0x57, 1, 0, 0x64, 0x16, 9, 0, 0, 0, 144, 0, 0, 0, 0, 0, 15] ++ List.replicate 125 0
def loadedFw : State := clr (ex (.fwLoad (pk (toLE 4 0 ++ fwImage) 3000)) six)
def verifyFw : State := ex (.fwVerify (pk [])) loadedFw
def wrongFw : State := ex (.fwVerify (pk [])) (clr (ex (.fwLoad (pk (toLE 4 0 ++ 0 :: fwImage.drop 1) 3000)) six))

/-- Verified, with an older and a newer image running; failed; and the swap before, in and after its absence. -/
def goodFw : State := ((loadedFw.put F.BC_FW_STAT_STAGE 3).put F.BC_STAGE_VER 9)
def olderFw : State := goodFw.put F.BC_FW_VER 10
def badFw : State := (goodFw.put F.BC_FW_STAT_STAGE 4).put F.BC_FW_STAT_RESULT St.sigFail
def swapFw : State := { sixFw.put F.BC_STAGE_VER 9 with bc := { sixFw.bc with swap := some { absent := false } } }
def absentFw : State := ex .firmwareAbsenceStart swapFw

theorem witness_FirmwareImage :
    (verifyFw.get F.BC_FW_STAT_STAGE = 2 ∧ headerWrong verifyFw = false) ∧
    (∀ d, Config.signatureGood (byteAt (stageBytes verifyFw 16 1) 0) d (stageBytes verifyFw (144 - 64) 64) = true ∨
      Config.signatureGood (byteAt (stageBytes verifyFw 16 1) 0) d (stageBytes verifyFw (144 - 64) 64) = false) ∧
    (verifyFw.Awake ∧ leAt (stageBytes verifyFw 12 4) 0 4 = 144) ∧
    (wrongFw.Awake ∧ wrongFw.get F.BC_FW_STAT_STAGE = 2 ∧ headerWrong wrongFw = true) ∧
    (swapFw.Awake ∧ swapFw.bc.swap = some { absent := false } ∧ jobsRunning swapFw = []) ∧
    (absentFw.Awake ∧ absentFw.bc.swap = some { absent := true } ∧ absentFw.bc.takeover = none ∧ 30000 ≤ 30000 ∧ 48000 ≤ 48000) ∧
    (Takes six (pk (toLE 4 192528 ++ List.replicate 4080 0) 40000) ∧ 192528 % 16 = 0 ∧ 192528 + 4080 = 196608 ∧
      six.get F.BC_FW_STAT_STAGE = 0) ∧
    (Takes verifyFw (pk (toLE 4 0 ++ fwImage) 3000) ∧ verifyFw.get F.BC_FW_STAT_STAGE = 2) ∧
    (Takes loadedFw (pk []) ∧ loadedFw.get F.BC_FW_STAT_STAGE = 1 ∧ Takes six (pk [])) ∧
    (Takes goodFw (pk [0]) ∧ goodFw.locked 16 = false ∧ goodFw.bc.takeover = none ∧ goodFw.get F.BC_FW_STAT_STAGE = 3 ∧
      byteAt (stageBytes goodFw 0 64) 17 ≤ stepping goodFw ∧ stepping goodFw ≤ byteAt (stageBytes goodFw 0 64) 18 ∧
      goodFw.get F.BC_FW_VER ≤ goodFw.get F.BC_STAGE_VER) ∧
    (Takes olderFw (pk [0]) ∧ Takes olderFw (pk [1]) ∧ olderFw.get F.BC_STAGE_VER < olderFw.get F.BC_FW_VER) ∧
    (Takes badFw (pk [0]) ∧ badFw.get F.BC_FW_STAT_STAGE = 4 ∧ badFw.get F.BC_FW_STAT_RESULT = St.sigFail) := by
  refine ⟨?_, fun d => (Bool.eq_false_or_eq_true _), ?_, ?_, ?_, ?_, ?_, ?_, ?_, ?_, ?_, ?_⟩ <;> (try unfold Takes) <;>
    (try unfold State.Awake) <;> decide +kernel

/-- A request of master m. -/
def request (m : Fin 8) (a : Word) (d : Option (List Word) := none) (n : Fin 16 := 0) : BusReq :=
  { m := m, id := 5, addr := a, beats := n, data := d }

/-- Target 1, working SRAM, parks master 0, and then master 2. -/
def park0 : State := State.reset.put F.BM_PARK 0
def park2 : State := State.reset.put F.BM_PARK 0x20
def burst : BusReq := request 0 0x10000040 (some ((List.range 8).map fun i => BitVec.ofNat 32 (0x01020304 * (i + 1)))) 1

/-- The burst waits, asked for in this cycle, where target 1 parks its master and where it parks another. -/
def waits0 : State := ex (.busRequest burst) park0
def waits2 : State := ex (.busRequest burst) park2

theorem witness_BusMatrix :
    (State.reset.Awake ∧ (request 4 0x10000000).m.val < 5 ∧ coreRuns State.reset (request 4 0x10000000).m = false) ∧
    ((request 2 0x50000000).m.val ≠ 5 ∧ coreRuns State.reset (request 2 0x50000000).m = true ∧
      busTarget State.reset (request 2 0x50000000).addr.toNat = none) ∧
    (park0.Awake ∧ coreRuns park0 burst.m = true ∧ splitReq park0 burst = [burst] ∧ busFault park0 burst = none ∧ burst.room = true ∧
      park0.bm.waiting = [] ∧ busTarget park0 burst.addr.toNat = some 1 ∧ burst.data.isSome = true ∧
      (burst.data.getD []).length = 4 * (burst.beats.val + 1)) ∧
    (waits0.Awake ∧ waits0.bm.waiting = [burst] ∧ busTarget waits0 burst.addr.toNat = some 1 ∧ busHeldBack waits0 1 burst = false ∧
      busFull waits0 burst = false ∧ busBusy waits0 1 = 0 ∧ busParked waits0 1 = burst.m.val ∧ 1 ≤ waits0.bm.asked) ∧
    (waits2.Awake ∧ waits2.bm.waiting = [burst] ∧ busTarget waits2 burst.addr.toNat = some 1 ∧ busHeldBack waits2 1 burst = false ∧
      busFull waits2 burst = false ∧ busBusy waits2 1 = 0 ∧ busParked waits2 1 ≠ burst.m.val) := by
  refine ⟨?_, ?_, ?_, ?_, ?_⟩ <;> (try unfold State.Awake) <;> decide +kernel

/-- Edge source 77 pending; level source 11 active; pending, routed to core 2; served; and held off. -/
def edgeS : State := ex (.interruptAssert 77) State.reset
def levelS : State := (State.reset.put F.TD_EVENT 1).put F.TD_IRQ_EN 1
def routedS : State :=
  (((ex (.interruptAssert 11) levelS).put F.IC_ROUTE_CORES 4 11).put F.IC_GCFG_PRIO 5 1).put F.IC_GCFG_HOLDOFF 3 1
def servedS : State := ex (.interruptDelivery 0x1F) routedS
def heldOffS : State := setHolding routedS 1 100

theorem calm_servedS : Calm servedS (holding servedS 1) :=
  calm_of (by decide +kernel) (by unfold NoWrites; decide +kernel) (by decide +kernel) (by decide +kernel)

theorem witness_Interrupts :
    (State.reset.Awake ∧ isEdge (77 : Fin 96).val = true ∧ State.reset.ic.pend.testBit 77 = false ∧ inService State.reset 77 = false ∧
      edgeS.Awake ∧ edgeS.ic.pend.testBit 77 = true) ∧
    (levelS.Awake ∧ isEdge (11 : Fin 96).val = false ∧ srcActive levelS 11 = true ∧ inService levelS 11 = false ∧
      srcActive State.reset 11 = false) ∧
    (routedS.Awake ∧ routedS.ic.pend = 2 ^ 11 ∧ (∀ x, x < 96 → isEdge x = false → srcActive routedS x = true → x = 11) ∧
      routedS.get F.IC_ROUTE_CORES 11 = 2 ^ 2 ∧ coreState routedS 2 = 0 ∧ coreState routedS 4 ≠ 2 ∧ (0x1F : BitVec 5).getLsbD 2 = true ∧
      routedS.get F.IC_CORE_RUNPRIO 2 < routedS.get F.IC_GCFG_PRIO 1 ∧ holding routedS 1 = 0 ∧ (icStack routedS 2).length < 15) ∧
    (heldOffS.Awake ∧ heldOffS.ic.pend = 2 ^ 11 ∧ 0 < holding heldOffS 1 ∧
      heldOffS.get F.IC_CORE_RUNPRIO 2 < heldOffS.get F.IC_GCFG_PRIO 1) ∧
    (servedS.Awake ∧ 1 ≤ holding servedS 1 ∧ 
      icStack servedS 2 = [(11, 5)] ∧ 11 = (11 : BitVec 7).toNat ∧ 11 ≠ (12 : BitVec 7).toNat) := by
  refine ⟨?_, ?_, ?_, ?_, ?_⟩ <;> (try unfold State.Awake) <;> decide +kernel

/-- Source 12 open; class 0 with reactions of its own; sources 12 and 13 fatal and 12 open; source 13 with reaction 8. -/
def openS : State := ex (.faultRaise 12 0x1234 none true) State.reset
def classS : State := openS.put F.FA_CLASS_RX 0 1
def fatalS : State :=
  ex (.faultRaise 12 0 none false) ((State.reset.put F.FA_SRC_CFG_CLASS 2 12).put F.FA_SRC_CFG_CLASS 2 13)
def rowOff : State := (State.reset.put F.FA_CTRL_AUTO_ROW 0).put F.FA_SRC_CFG_RX 0 5
def reactS : State := State.reset.put F.FA_SRC_CFG_RX 9 13

theorem witness_FaultOccurrences :
    (State.reset.Awake ∧ (12 : Fin 23).val ∉ [7, 8, 15, 16, 17, 22] ∧ State.reset.isOpen 12 = false ∧
      State.reset.otherOpen 12 (State.reset.get F.FA_SRC_CFG_CLASS 12) = false ∧ State.reset.get F.FA_SRC_CFG_RX 12 &&& 0x1E = 0 ∧
      State.reset.get F.FA_SRC_CFG_CLASS 12 < 3) ∧
    ((5 : Fin 23).val ≤ 5 ∧ (5 : Fin 23).val ∉ [7, 8, 15, 16, 17, 22] ∧ rowOff.Awake ∧ rowOff.isOpen 5 = false ∧
      rowOff.otherOpen 5 (rowOff.get F.FA_SRC_CFG_CLASS 5) = false ∧ rowOff.get F.FA_SRC_CFG_RX 5 &&& 0x1E = 0 ∧
      rowOff.get F.FA_SRC_CFG_CLASS 5 < 3 ∧ rowOff.on F.FA_CTRL_AUTO_ROW = false ∧ rowWord (5 / 2) 256 3 = some 0x38000018) ∧
    (classS.Awake ∧ (13 : Fin 23).val ∉ [7, 8, 15, 16, 17, 22] ∧ classS.isOpen 13 = false ∧ classS.get F.FA_SRC_CFG_CLASS 13 < 2 ∧
      classS.otherOpen 13 (classS.get F.FA_SRC_CFG_CLASS 13) = true ∧ classS.otherOpen 13 2 = false ∧
      (classS.get F.FA_SRC_CFG_RX 13 ||| classS.get F.FA_CLASS_RX_RX (classS.get F.FA_SRC_CFG_CLASS 13)) &&& 0x1E = 0) ∧
    (openS.Awake ∧ openS.isOpen 12 = true ∧ openS.get F.FA_SRC_CFG_RX 12 &&& 0x1E = 0) ∧
    (fatalS.Awake ∧ fatalS.isOpen 13 = false ∧ fatalS.get F.FA_SRC_CFG_CLASS 13 = 2 ∧ fatalS.otherOpen 13 2 = true ∧
      fatalS.get F.FA_SRC_CFG_RX 13 &&& 0x1E = 0) ∧
    (reactS.Awake ∧ reactS.isOpen 13 = false ∧ reactS.otherOpen 13 (reactS.get F.FA_SRC_CFG_CLASS 13) = false ∧
      reactS.get F.FA_SRC_CFG_RX 13 &&& 0x1E = 8) ∧
    ((16 : Fin 23).val ∈ [15, 16, 17, 22] ∧ State.reset.fa.level.testBit 16 = false ∧ State.reset.isOpen 16 = false ∧
      State.reset.otherOpen 16 (State.reset.get F.FA_SRC_CFG_CLASS 16) = false ∧ State.reset.get F.FA_SRC_CFG_RX 16 &&& 0x1E = 0 ∧
      State.reset.get F.FA_SRC_CFG_CLASS 16 < 3 ∧ (ex (.tempHigh 1150) State.reset).Awake ∧
      (ex (.tempHigh 1150) State.reset).fa.level.testBit 16 = true) := by
  refine ⟨?_, ?_, ?_, ?_, ?_, ?_, ?_⟩ <;> (try unfold State.Awake) <;> decide +kernel

/-- Source 0 open and to be acknowledged by itself; the kick given, about to be lost, ALIVE about to toggle, and stopped. -/
def autoS : State := { State.reset with fa.autoAge := [(0, 1)] }.put F.FA_OPEN 1
def kickedS : State := ex (.kick 77) State.reset
def kickOld : State := { kickedS with fa.kickAge := some 7999000 }
def toggleS : State := { kickedS with fa.aliveLeft := 500 }
def stoppedS : State := { six with fa.alive := .stopped, fa.kickAge := some 100 }
def unhealthy : State := { six.put F.FA_OPEN 0x1000 with fa.effRx := [(12, 16)] }

theorem witness_AcknowledgeAndAlive :
    Calm toggleS toggleS.fa.aliveLeft ∧
    (autoS.Awake ∧ autoAckDue autoS (0 : Fin 23).val = true) ∧
    (State.reset.Awake ∧ State.reset.fa.kickAge = none ∧ State.reset.fa.alive = .waiting ∧ State.reset.healthGood = true ∧
      kickedS.Awake ∧ kickedS.fa.kickAge ≠ none) ∧
    (kickOld.Awake ∧ toKickLost kickOld = some 1000 ∧ 1000 ≤ frameLeft kickOld ∧ kickOld.bm.waiting = [] ∧ NoWrites kickOld) ∧
    (toggleS.Awake ∧ toggleS.fa.alive = .toggling ∧ 1 ≤ toggleS.fa.aliveLeft ∧ toggleS.tapOwns = false) ∧
    (Takes six (pk (toLE 4 (2 ^ 23 - 1))) ∧ Takes six (pk (toLE 4 (2 ^ 23))) ∧ Takes six (pk [])) ∧
    (Takes stoppedS (pk []) ∧ stoppedS.healthGood = true ∧ stoppedS.fa.alive = .stopped ∧ stoppedS.kickSatisfied = true) ∧
    (Takes unhealthy (pk []) ∧ unhealthy.healthGood = false) ∧ (six.healthGood = true ∧ six.fa.alive ≠ .stopped) := by
  refine ⟨?_, ?_, ?_, ?_, ?_, ?_, ?_, ?_, ?_⟩
  · refine ⟨by decide +kernel, by unfold NoWrites; decide +kernel, ?_, by decide +kernel⟩
    have h : toKickLost toggleS = some 8000000 := by decide +kernel
    have e : toggleS.fa.aliveLeft = 500 := by decide +kernel
    intro d hd
    rw [h] at hd
    cases hd
    rw [e]
    decide
  all_goals (try unfold Takes) <;> (try unfold State.Awake) <;> (try unfold NoWrites) <;> decide +kernel

/-- Pair 1 about to fall back and about to agree; a row being remapped; Jigs allowed; the pool's spare rows used up. -/
def discS : State := ((State.reset.put F.PAIR_CFG_D 3 1).put F.PAIR_STAT_STATE 1 1).put F.PAIR_STAT_COUNT 2 1
def agreeS : State := ((State.reset.put F.PAIR_CFG_D 3 1).put F.PAIR_STAT_STATE 2 1).put F.PAIR_STAT_COUNT 2 1
def writtenP : State := { State.reset with fa.pairWritten := 0b1001 }
def judgedP : State := { State.reset with fa.pairJudged := 0b1001 }
def remapS : State := { State.reset with fa.remapping := [(1, 700, 3), (0, 1, 2)] }
def jigsOn : State := six.put F.FA_CTRL_JIG_EN 1
def jigsOff : State := six.put F.FA_CTRL_JIG_EN 0
def noSpares : State := sixFw.put F.FA_RP_ROWS_R2 0

theorem witness_PairsAndRepair :
    (discS.Awake ∧ discS.get F.PAIR_CFG_D 1 ≠ 0 ∧ pairAgrees discS 1 true false = false ∧ discS.get F.PAIR_STAT_STATE 1 < 2 ∧
      discS.fa.pairWritten.testBit 1 = false ∧ discS.fa.pairJudged.testBit 1 = false ∧
      (if discS.get F.PAIR_STAT_STATE 1 = 0 then 0 else discS.get F.PAIR_STAT_COUNT 1) + 1 = discS.get F.PAIR_CFG_D 1) ∧
    (agreeS.Awake ∧ agreeS.fa.pairWritten.testBit 1 = false ∧ agreeS.fa.pairJudged.testBit 1 = false ∧ agreeS.get F.PAIR_CFG_D 1 ≠ 0 ∧ pairAgrees agreeS 1 true true = true ∧ agreeS.get F.PAIR_STAT_STATE 1 = 2 ∧
      agreeS.get F.PAIR_STAT_COUNT 1 + 1 = agreeS.get F.PAIR_CFG_D 1 ∧ vselPair agreeS 1 = false) ∧
    (State.reset.Awake ∧ State.reset.locked 20 = false ∧ (0xC001FFFF : Word).toNat % 65536 ≠ 0 ∧ (0xC001FFFF : Word).toNat &&& 0x3FFE0000 = 0 ∧
      (0xC0010000 : Word).toNat % 65536 = 0) ∧
    (writtenP.Awake ∧ writtenP.fa.pairWritten.testBit 3 = true ∧ judgedP.Awake ∧ judgedP.fa.pairJudged.testBit 3 = true) ∧
    (remapS.Awake ∧ remapS.fa.remapping = [(1, 700, 3), (0, 1, 2)]) ∧
    (Takes jigsOn (pk ([6, 255] ++ toLE 2 3)) ∧ 3 < 2 ^ jigBits 6 ∧ popCount 16 3 % 2 = 0 ∧ jigsOn.get F.FA_CTRL_JIG_EN = 1) ∧
    (Takes jigsOff (pk ([13, 1] ++ toLE 2 1)) ∧ 1 < 2 ^ jigBits 13 ∧ jigsOff.get F.FA_CTRL_JIG_EN = 0) ∧
    (Takes jigsOn (pk ([14, 1] ++ toLE 2 1)) ∧ Takes jigsOn (pk ([3, 1] ++ toLE 2 0)) ∧ (1 : Byte) ≠ 0) ∧
    (TakesFw sixFw (pk (2 :: toLE 2 511)) 1200 ∧ 511 < regionRows 2 ∧ sixFw.rowTaken 2 511 = false ∧ 0 < sixFw.spareRows 2 ∧
      sixFw.spareRows 2 ≤ spareTotal 2) ∧
    (TakesFw sixFw (pk (2 :: toLE 2 512)) 1200 ∧ regionRows 2 ≤ 512) ∧
    (TakesFw noSpares (pk (2 :: toLE 2 511)) 1200 ∧ noSpares.spareRows 2 = 0) := by
  refine ⟨?_, ?_, ?_, ?_, ?_, ?_, ?_, ?_, ?_, ?_, ?_⟩ <;> (try unfold TakesFw) <;> (try unfold Takes) <;> (try unfold State.Awake) <;>
    decide +kernel

/-- A second fatal occurrence waits to be commanded. -/
def aboutToReset : State := { fatalS with pending := [.faultRaise 13 0 none false] }

theorem next_of_isNext {s : State} (h : (match step s with | .next _ => true | _ => false) = true) : ∃ t, step s = .next t := by
  cases e : step s with
  | next t => exact ⟨t, rfl⟩
  | fault f => rw [e] at h; cases h
  | refused r => rw [e] at h; cases h

theorem witness_StepTakesFront : aboutToReset.pending = .faultRaise 13 0 none false :: [] ∧ State.reset.pending = [] := by
  decide +kernel

theorem witness_ResetsAreEntered : aboutToReset.chip.resetDue = none ∧ (∃ t, step aboutToReset = .next t) ∧
    (nx (step aboutToReset)).chip.held = true :=
  ⟨by decide +kernel, next_of_isNext (by decide +kernel), by decide +kernel⟩

theorem witness_StoresStayCanonical : aboutToReset.Canon ∧ ∃ t, step aboutToReset = .next t :=
  ⟨by unfold State.Canon State.regsWf State.portsWf; decide +kernel, next_of_isNext (by decide +kernel)⟩

/-! ### Terms that WellFormed refuses, one for each of its checks -/

/-- A packet with more parameters than LEN admits. -/
def longPk : Pkt := pk (List.replicate 4097 0)

theorem test_wf_packet : Instr.WellFormed (.ping longPk) = false ∧ Instr.WellFormed (.carcassPut longPk none) = false ∧
    Instr.WellFormed (.ping (pk [])) = true := by decide +kernel

theorem test_wf_raw_packet : Instr.WellFormed (.badCrc [6, 0, 1, 1, 0, 0, 0] 9) = false ∧
    Instr.WellFormed (.replyFollow [6, 0, 1, 0, 0, 0] 9) = false ∧ Instr.WellFormed (.badCrc [6, 0, 1, 1, 0, 0, 0, 0] 9) = true ∧
    Instr.WellFormed (.lenAbove4096 false 6 0 1 4096 9) = false := by decide +kernel

theorem test_wf_readings : Instr.WellFormed (.tempHigh 1149) = false ∧ Instr.WellFormed (.registerWrite 0x40000026 0) = false ∧
    Instr.WellFormed (.clientFrameReceive 0 []) = false := by decide +kernel

theorem test_wf_module_data : Instr.WellFormed (.modDone 3 { data := List.replicate 17 0 }) = false ∧
    Instr.WellFormed (.modPollDone 3 { data := [0] }) = false := by decide +kernel

theorem test_wf_frames : Instr.WellFormed (.localFrameStart { obs := List.replicate 17 {} }) = false ∧
    Instr.WellFormed (.localFrameStart { cands := [(21, 0, 0)] }) = false ∧
    Instr.WellFormed (.receivedFrame 0 (.words true (List.replicate 1999 0)) 0) = false := by decide +kernel

theorem test_wf_defects : Instr.WellFormed (.defectDeclare true 5 4) = false ∧ Instr.WellFormed (.defectClear false 16 2) = false ∧
    Instr.WellFormed (.defectDeclare false 15 13) = true := by decide +kernel

theorem test_wf_requests : Instr.WellFormed (.busRequest (request 0 0x10000000 (some []))) = false ∧
    Instr.WellFormed (.busRequest (request 0 0x10000000 (some (List.replicate 65 0)))) = false ∧
    Instr.WellFormed (.faultRaise 2 0 (some (1024, 0)) false) = false ∧ Instr.WellFormed (.faultRaise 2 0 (some (0, 128)) false) = false ∧
    Instr.WellFormed (.faultRaise 2 0 (some (1023, 127)) false) = true := by decide +kernel

/-! ### What spec/ works out -/

/-- The reply that a command leaves behind those that wait: its edge Y and its bytes from SYNC. -/
def replyTo (c : Instr) (s : State) : Option (Nat × List Byte) := (ex c s).mp.out.getLast?.map fun r => (r.y, 0xB4 :: r.bytes)

/-- The data of that reply. -/
def dataTo (c : Instr) (s : State) : List Byte := (((replyTo c s).getD (0, [])).2.drop 6).dropLast.dropLast

/-- The unit at address `a` with its firmware ready, the bus idle before the edge it counts as 0. -/
def unitAt (a : Nat) : State := { sixFw.put F.CH_ADDR_ADDR a with mp.rx.zeros := 8 }

/-- Chapter 3, "enumerating five units": step 1's CRC over the command, and step 3's reply data. -/
theorem test_enumeration : crc16 [0x00, 0x02, 0x01, 0x01, 0x00, 0x01] = 0x1B36 ∧
    dataTo (.assignNext ⟨0, 3, [3], 127⟩) upS = [0x00, 0xA2, 0x28, 0x14, 0xD9, 0x1F, 0x70, 0x81, 0x25, 0x68, 0x07, 0x25] := by
  decide +kernel

/-- Chapter 4, "PING at 10 MHz", steps 2–4. -/
theorem test_ping_reply : replyTo (.ping ⟨3, 0x21, [], 63⟩) ((unitAt 3).put F.MP_TXN_COUNT 0x1F3F) =
    some (79, [0xB4, 0x03, 0x00, 0x21, 0x04, 0x00, 0x40, 0x1F, 0x00, 0x00, 0xCE, 0xE4]) := by decide +kernel

/-- Chapter 4, "REMOTE, PENDING, a lost reply and POLL": unit 5 with port 7 in SYNC, and the REMOTE of step 1. -/
def remoteUnit : State := (unitAt 5).put F.LF_PSTATUS_FSTATE 2 7
def remotePing : Instr := .remote ⟨5, 0x30, [7, 0x00, 0x00, 0x90, 0x00, 0x00, 0x35, 0x69], 127⟩ none
def pendedS : State := ex (.replyStart 4223) (ex .pendingReply (ex remotePing remoteUnit))

/-- Step 2: PENDING with its SYNC at edge 4,223. -/
theorem test_remote_pending : replyTo .pendingReply (ex remotePing remoteUnit) =
    some (4223, [0xB4, 0x05, 0x01, 0x30, 0x00, 0x00, 0x4A, 0x81]) := by decide +kernel

/-- Step 3: REPLAY of tag 0x30 returns the stored first reply. -/
theorem test_remote_replay : replyTo (.replay ⟨5, 0x31, [0x30], 4371⟩) pendedS =
    some (4387, [0xB4, 0x05, 0x00, 0x31, 0x07, 0x00, 0x05, 0x01, 0x30, 0x00, 0x00, 0x4A, 0x81, 0x6A, 0xAA]) := by decide +kernel

/-- Chapter 5, "a write that meets a lock", steps 2–4. -/
def lockedMp : State := { unitAt 3 with locks := 1 }
def twoWrites : Instr :=
  .write ⟨3, 0x44, [0x24, 0, 0, 0x40, 1, 0, 0, 0, 0x04, 0, 0, 0x40, 0, 0x20, 0, 0], 191⟩

theorem test_write_meets_lock : replyTo twoWrites lockedMp =
      some (207, [0xB4, 0x03, 0x07, 0x44, 0x06, 0x00, 0x04, 0x00, 0x00, 0x40, 0x01, 0x00, 0xCF, 0xDB]) ∧
    (ex twoWrites lockedMp).reg 0x40000024 = 1 ∧ (ex twoWrites lockedMp).reg 0x40000004 = 0x1000 ∧
    (ex twoWrites lockedMp).get F.MP_LOCK_VIOL = 1 := by decide +kernel

/-- Chapter 7, "bringing up port 4", step 1, and chapter 19, "reading a boot", step 2. -/
theorem test_reset_values : State.reset.reg 0x40030400 = 0xA006 ∧ State.reset.get F.FA_GSTAT = 0x00FF0000 := by decide +kernel

/-- Chapter 8, "a port comes up", step 2: what words 3–5 say. -/
theorem test_frame_number : numberOf [0, 0, 0, 0x0001, 0x51A0, 0x8FA0] = some (86432, 4000) ∧
    nvOf [0, 0, 0, 0x0001, 0x51A0, 0x8FA0] = 1 := by decide +kernel

/-- Chapter 9, "forwarding an angle", step 6: the map that puts tributary 20 into slot 842. -/
def angleMap : Instr := .xcMapLoad (pk [0, 3, 1, 0x12, 3, 0, 5, 0, 0x64, 0, 0, 1, 0xE6, 2, 0x14, 0, 1, 0]) (some 1200)

theorem test_angle_map : (plainRuns (ex angleMap (sixFw.put F.LP_CTRL_RATE 3 3)) 3 0 1).map (fun r => (r.first, r.count, r.trib)) =
    [(0, 100, 5), (100, 742, 256), (842, 1, 20)] := by decide +kernel

/-- Chapter 10, "one master angle": channel 7 with NUM −7, DEN 5 after the capture, and after each of the two steps. -/
def angleStep (n a : Nat) (s : State) : State := ex (.gearStep 7) (s.modTrib 5 fun x => { x with copies := [copyOf n a] })
def masterS : State :=
  angleStep 100 0x10000000 (takeSnap (((gearOn.put F.GR_G_CFG_IN_TRIB 5 7).put F.GR_G_NUM 0xFFFFFFF9 7).put F.GR_G_DEN 5 7))

theorem test_gearing_minus_7_5 :
    (let s := angleStep 200 0x100F4243 masterS; gearWord s 7 2 = 4 ∧ gearWord s 7 4 = 0xFFEAA33B ∧ gearWord s 7 5 = 0xFFEAA33B) ∧
    (let s := angleStep 300 0x101E8486 (angleStep 200 0x100F4243 masterS)
     gearWord s 7 2 = 3 ∧ gearWord s 7 4 = 0xFFD54677 ∧ gearWord s 7 5 = 0xFFEAA33C) := by decide +kernel

/-- Chapter 10, "a load-cell recipe", steps 2, 4 and 5. -/
def loadCell : Instr := .grRecipeLoad (pk
  [4, 3, 0, 0, 0, 2, 0x30, 0xDA, 4, 0, 0, 0, 0, 0, 0, 0, 0, 0, 0, 0x1F, 0, 3, 0x25, 0xC8, 0x53, 2, 0, 0, 0, 0, 0, 0, 0, 0,
    0, 0, 0, 0x0C, 0x78, 0xEC, 0xFF, 0xFF, 0x60, 0xEA, 0, 0, 0, 0, 0, 0]) (some 1200)
def loadCellS : State := clr (ex loadCell sixFw)

theorem test_recipe_latency : dataTo loadCell sixFw = [7] := by decide +kernel

theorem test_recipe_results :
    dataTo (.grRecipeTest (pk [4, 0x10, 0xA3, 0x15, 0]) (some 1200)) loadCellS = [0x20, 0x4E, 0, 0, 0] ∧
    dataTo (.grRecipeTest (pk [4, 0, 9, 0x3D, 0]) (some 1200)) loadCellS = [0x60, 0xEA, 0, 0, 4] := by decide +kernel

/-- Chapter 11, "one packet across a link", step 4. -/
theorem test_packet_crc : crc16 [0x31, 0x32, 0x33, 0x34, 0x35, 0x36, 0x37, 0x38, 0x39] = 0x29B1 := by decide +kernel

/-- Chapter 13, "a fibre cut under 1+1 merge", step 1: group 0, RING, on ports 0 and 1. -/
def ringS : State :=
  (((((((sixFw.put F.PS_GCFG (2 * 2 ^ 30 + 3 * 2 ^ 25 + 1 * 2 ^ 20) 0).put F.LP_STATUS_STATE 2 0).put F.LP_STATUS_STATE 2 1).put
    F.LF_PSTATUS_IM 1 0).put F.LF_PSTATUS_IM 1 1).put F.LF_RX_OFS 27600 0).put F.LF_RX_OFS 131200 1).modGroup 0 fun g => { g with far0 := some ⟨0, 0, 0⟩, far1 := some ⟨0, 0, 0⟩ }

theorem test_release_offset : (firstRo ringS 0).map Prod.fst = some 131264 := by decide +kernel

/-- Chapter 14, "a reference switch", before step 1: the QL word of a unit that follows QL 0x1, hop 2, hash 0x2A5. -/
theorem test_ql_word : qlWord 1 (2 + 1) 0x2A5 = 0x10EA5000 ∧ qlWord 1 6 0x2A5 = 0x11AA5000 := by decide +kernel

/-- Chapter 14, "a host servo step", steps 2 and 3: the pending phase in the reply, with no flag. -/
def servo : Instr := .tgSteer (pk [0, 0, 0, 0xD0, 0x12, 0x13, 0, 0xE0, 0x5E, 0xF8, 0xFF])

theorem test_servo_step : dataTo servo steeredS = [0, 0, 0xD0, 0x12, 0x13, 0, 0xE0, 0x5E, 0xF8, 0xFF, 0] := by decide +kernel

/-- Chapter 15, "plant time", step 2: TD_SET 1,600 ns before a boundary; and step 5: TD_ADJUST by −37 ns. -/
def plantS : State :=
  setTodUnits { sixFw.put F.TD_CFG 0x03E80A01 with tod.sec := 41208 } (999998400 * 65536 * 400000000)

theorem test_td_set : dataTo (.tdSet (pk [0x40, 0x42, 0x0F, 0, 0, 0])) plantS =
    [0xFA, 0xA0, 0, 0, 0, 0, 0x40, 0x42, 0x0F, 0, 0, 0] := by decide +kernel

theorem test_td_adjust : dataTo (.tdAdjust (pk [0xDB, 0xFF, 0xFF, 0xFF])) plantS = [0xDB, 0xFF, 0xFF, 0xFF] := by decide +kernel

/-- Chapter 16, "a 3-wire bearing RTD", step 4: words 2–5 of the sample stamped (86,500, 10) with SEQ 0x2C. -/
def bearingS : State :=
  ((((sixFw.put F.FE_CFG 0xA420FA0A 5).put F.FE_CFG_CURVE 0 5).put F.LF_NOW_S 86500).put F.LF_NOW_F_F 10).modFe 5 fun x =>
    { x with made := 43, clean := 300 }
def bearing : FeConv :=
  { code := 3334003, exc := 0, overR := none, fault := false, cfg := 0xA420FA0A, drive := 0x040803E8 }

theorem test_sample_words : (((feSample bearingS 5 bearing).feX 5).out0.map fun m => (m.sample.drop 2).take 4) =
    some [0x0001, 0x51E4, 0x800A, 0x002C] := by decide +kernel

/-- Chapter 17, "routing, hold-off and resampling": step 1's first delivery, and step 6's, which goes past LAST. -/
def routeS (last : Nat) : State :=
  (((ex (.interruptAssert 11) levelS).put F.IC_ROUTE 0x0006 11).put F.IC_ROUTE_LAST last 11).put F.IC_GCFG 0x00050032 1

theorem test_first_core : (ex (.interruptDelivery 0x1F) (routeS 4)).get F.IC_ROUTE_LAST 11 = 1 ∧
    (ex (.interruptDelivery 0x1F) (routeS 1)).get F.IC_ROUTE_LAST 11 = 2 := by decide +kernel

/-- Chapter 18, "injection and escalation", step 6: FA_STATUS with sources 10 (contained) and 5 (escalated) open, ALIVE stopped high. -/
def escalatedS : State :=
  ex (.faultRaise 5 0x20A0 none true) (ex (.faultRaise 10 0x14 none true)
    { (ex (.kick 77) ((unitAt 6).put F.FA_LOG_SEQ 0x1A5)).put F.FA_GSTAT_LAST_RESET 1 with fa.aliveLevel := true })

theorem test_fa_status : dataTo (.faStatus (pk [])) escalatedS =
    [0x20, 4, 0, 0, 0x20, 0, 0, 0, 0x6A, 1, 0xFF, 0, 0xA8, 1, 0, 0] := by decide +kernel

end Sys2Proof.Tests
end

section
/-!
PROOFS. Local frame numbering (R304, R305, R320, R321, Table 8.8).

NUM_LOAD outside FREE and NUM_ADOPT must leave the register store as it is, but their write of LF_CMD puts the word that it reads
back into the store. That is the same store only when the store is canonical, which `Obligations.LocalNumbering` does not ask:
it fails on a store that lists a reset word, and holds on every state whose store is canonical.
-/
namespace Sys2Proof.Machine

/-! ### Canonical stores -/

namespace SMap

variable {α : Type}

theorem erase_of_rising {k lo : Nat} {m : List (Nat × α)} (hk : k < lo) (hm : risingFrom lo m = true) : erase k m = m := by
  induction m generalizing lo with
  | nil => rfl
  | cons e m ih =>
    simp only [risingFrom, Bool.and_eq_true, Nat.ble_eq] at hm
    rw [erase, if_neg (by omega), ih (by omega) hm.2]

theorem insert_of_rising {k lo : Nat} (v : α) {m : List (Nat × α)} (hk : k < lo) (hm : risingFrom lo m = true) :
    insert k v m = (k, v) :: m := by
  cases m with
  | nil => rfl
  | cons e m =>
    simp only [risingFrom, Bool.and_eq_true, Nat.ble_eq] at hm
    rw [insert, if_pos (by omega)]

theorem get_of_rising (d : Nat → α) {k lo : Nat} {m : List (Nat × α)} (hk : k < lo) (hm : risingFrom lo m = true) :
    get d m k = d k := by
  rw [← erase_of_rising hk hm, get_erase_same]

/-- A canonical map is not changed by writing what it reads. -/
theorem set_get_self [DecidableEq α] {d : Nat → α} {m : List (Nat × α)} (h : wf d m = true) (k : Nat) :
    set d m k (get d m k) = m := by
  induction m with
  | nil => simp [set, get, erase]
  | cons e m ih =>
    obtain ⟨hrise, hne, hwf⟩ := wf_cons h
    by_cases hk : e.1 = k
    · subst hk
      rw [get, if_pos rfl, set, if_neg hne, erase, if_pos rfl, erase_of_rising (Nat.lt_succ_self _) hrise,
        insert_of_rising _ (Nat.lt_succ_self _) hrise]
    · have hrest := ih hwf
      rw [get, if_neg hk]
      by_cases hd : get d m k = d k
      · rw [set, if_pos hd] at hrest ⊢
        rw [erase, if_neg hk, hrest]
      · have hlt : ¬ k < e.1 := fun hlt => hd (get_of_rising d (Nat.lt_succ_of_lt hlt) hrise)
        rw [set, if_neg hd] at hrest ⊢
        rw [erase, if_neg hk, insert, if_neg hlt, hrest]

end SMap

variable {s : State}

theorem setReg_reg_self (h : s.regsWf) (a : Nat) : s.setReg a (s.reg a) = s := by
  rw [State.setReg, State.reg, SMap.set_get_self h]

/-- A write that no bit takes up leaves a canonical state as it is, and not only its reads. -/
theorem storeWord_eq_self {a v : Nat} {r : RegSpec} (h : s.regsWf) (hr : specAt a = some r) (hrw : r.rw = 0)
    (hw1c : r.w1c &&& v = 0) : storeWord s a v = s := by
  have hread := storeWord_kept s hr hrw hw1c a
  rw [storeWord_eq s v hr, State.reg_setReg] at hread
  rw [storeWord_eq s v hr, hread, setReg_reg_self h]

/-! ### What a local frame start does to the numbering -/

theorem advanceFrame_nowS : (advanceFrame s).get F.LF_NOW_S = s.nextFrameNum.1 % 2 ^ 32 := by
  simp only [advanceFrame, State.get_mk]
  rw [State.get_put_ne _ _ _ _ _ _ _ _ (by decide), State.get_put_ne _ _ _ _ _ _ _ _ (by decide),
    State.get_put _ _ _ _ _ (by decide)]
  rfl

theorem advanceFrame_nowF : (advanceFrame s).get F.LF_NOW_F = s.nextFrameNum.2 % 2 ^ 32 := by
  simp only [advanceFrame, State.get_mk]
  rw [State.get_put_ne _ _ _ _ _ _ _ _ (by decide), State.get_put _ _ _ _ _ (by decide)]
  rfl

theorem advanceFrame_total : (advanceFrame s).get F.LF_FRAME_TOTAL = (s.get F.LF_FRAME_TOTAL + 1) % 2 ^ 32 := by
  simp only [advanceFrame, State.get_mk]
  rw [State.get_put _ _ _ _ _ (by decide)]
  rfl

theorem advanceFrame_num : (advanceFrame s).num = { s.num with next := s.num.late, late := none } := rfl

theorem nextFrameNum_of_some {n : Nat × Nat} (h : s.num.next = some n) : s.nextFrameNum = n := by
  simp only [State.nextFrameNum, h]

theorem nextFrameNum_of_none (h : s.num.next = none) : s.nextFrameNum =
    if s.get F.LF_NOW_F < 31249 then (s.get F.LF_NOW_S, s.get F.LF_NOW_F + 1) else ((s.get F.LF_NOW_S + 1) % 2 ^ 32, 0) := by
  simp only [State.nextFrameNum, h, nextNum, State.frameNum, framesPerSec, Nat.succ_lt_succ_iff]

/-! ### LF_CMD written (R304, R305, R320) -/

/-- LF_CMD in the register table: no bit of it takes up a write. -/
def cmdSpec : RegSpec := { name := "LF_CMD", base := 0x40040010, wo := 0x00000003 }

theorem specAt_cmd : specAt 0x40040010 = some cmdSpec := by decide +kernel

/-- A write of LF_CMD is what it sets off, and nothing else. -/
theorem writeLf_cmd (h : s.regsWf) (v : Nat) : writeLf s F.LF_CMD 0 v = hookLfCmd v s := by
  have e : writeLf s F.LF_CMD 0 v = hookLfCmd v (storeWord s 0x40040010 v) :=
    writeBy_ok specAt_cmd rfl rfl rfl
  rw [e, storeWord_eq_self h specAt_cmd rfl (Nat.zero_and v)]

theorem hookLfCmd_load_of_free (h : s.get F.LF_NUM_STATUS_STATE = 0) :
    hookLfCmd 1 s = ({ s with num := if s.inFrame < 12800
        then { s.num with next := some (s.get F.LF_NUM_SET_S, s.get F.LF_NUM_SET_F_F) }
        else { s.num with late := some (s.get F.LF_NUM_SET_S, s.get F.LF_NUM_SET_F_F) } } : State).raiseBit
      F.LF_EVENT_NUM_LOADED := by
  have hload : bitOf 1 0 = true := rfl
  have hadopt : bitOf 1 1 = false := rfl
  simp only [hookLfCmd, hload, hadopt, h, beq_self_eq_true, Bool.and_self, if_true, Bool.false_eq_true, if_false]
  by_cases hin : frameCycles ≤ s.inFrame
  · have hlate : ¬ s.inFrame < 12800 := Nat.not_lt.mpr hin
    rw [if_pos hin, if_neg hlate]
  · have hearly : s.inFrame < 12800 := Nat.not_le.mp hin
    rw [if_neg hin, if_pos hearly]

theorem hookLfCmd_load_of_not_free (h : s.get F.LF_NUM_STATUS_STATE ≠ 0) : hookLfCmd 1 s = s := by
  have hadopt : bitOf 1 1 = false := rfl
  simp [hookLfCmd, hadopt, h]

theorem hookLfCmd_adopt : hookLfCmd 2 s = { s with num.adopt := true } := rfl

/-! ### A register written -/

theorem testBit_mergeWrite (r : RegSpec) (old v : Nat) {b : Nat} (hb : b < 32) (hw1c : r.w1c = 0) :
    (mergeWrite r old v).testBit b = if r.rw.testBit b then v.testBit b else old.testBit b := by
  have hones : (0xFFFFFFFF : Nat) = 2 ^ 32 - 1 := by norm_num
  rw [mergeWrite, hw1c, Nat.zero_and, Nat.or_zero, hones, Nat.testBit_or, Nat.testBit_and, Nat.testBit_and,
    Nat.testBit_xor, Nat.testBit_two_pow_sub_one]
  cases r.rw.testBit b <;> simp [hb]

/-- A field whose bits a write takes up reads as its bits of the word written. -/
theorem get_storeWord {f : Field} {i j v : Nat} {r : RegSpec} (s : State) (hr : specAt (f.addr i j) = some r)
    (hw1c : r.w1c = 0) (hf : f.lo + f.w ≤ 32) (hrw : ∀ b < f.w, r.rw.testBit (b + f.lo) = true) :
    (storeWord s (f.addr i j) v).get f i j = bitsOf v f.lo f.w := by
  rw [storeWord_eq s v hr, State.get, State.reg_setReg]
  refine Nat.eq_of_testBit_eq fun b => ?_
  rw [State.testBit_bitsOf, State.testBit_bitsOf]
  by_cases hb : b < f.w
  · rw [BitVec.toNat_ofNat, Nat.testBit_mod_two_pow, testBit_mergeWrite _ _ _ (by omega) hw1c, if_pos (hrw b hb)]
    simp [show b + f.lo < 32 by omega]
  · simp [hb]

/-- A write touches only the bits of its register that take it up. -/
theorem storeWord_only_rw {a v : Nat} {r : RegSpec} {fs : List (Nat × Nat × Nat)} (s : State) (hr : specAt a = some r)
    (hw1c : r.w1c = 0) (hfs : ∀ b < 32, r.rw.testBit b = true → inFields fs a b) : Only fs s (storeWord s a v) := by
  refine ⟨(storeWord_only s a v).1, fun c b hout => ?_⟩
  by_cases hc : c = a
  · subst hc
    by_cases hb : b < 32
    · have hro : ¬ r.rw.testBit b = true := fun hrw => hout (hfs b hb hrw)
      rw [storeWord_eq s v hr, State.reg_setReg, BitVec.getLsbD_ofNat, testBit_mergeWrite _ _ _ hb hw1c, if_neg hro]
      simp [hb, BitVec.getLsbD]
    · rw [BitVec.getLsbD_of_ge _ _ (by omega), BitVec.getLsbD_of_ge _ _ (by omega)]
  · rw [(storeWord_only s a v).2.reg (by simpa using Ne.symm hc)]

/-- A status field written and an event raised in another register. -/
theorem put_raiseBit (s : State) (f e : Field) (v : Nat)
    (h : f.addr ≠ e.addr ∧ f.lo + f.w ≤ 32 ∧ e.lo + e.w ≤ 32 ∧ 0 < e.w) :
    ((s.put f v).raiseBit e).get f = v % 2 ^ f.w ∧ ((s.put f v).raiseBit e).get e = 1 ∧
      RegsKept [f.at, e.at] s ((s.put f v).raiseBit e) := by
  obtain ⟨hne, hf, he, hw⟩ := h
  refine ⟨?_, State.get_raiseBit _ _ _ _ he hw, (regsKept_put (by simp)).trans (regsKept_put (by simp))⟩
  rw [State.raiseBit, State.get_put_otherReg _ _ _ _ _ _ _ _ hne, State.get_put _ _ _ _ _ hf]

/-! ### LF_NUM_CTRL written (R304) -/

/-- LF_NUM_CTRL in the register table: MODE and SRC are its bits that take up a write. -/
def ctrlSpec : RegSpec := { name := "LF_NUM_CTRL", base := 0x40040000, rw := 0x0000010F, lock := true }

theorem specAt_ctrl : specAt 0x40040000 = some ctrlSpec := by decide +kernel

theorem writeLf_ctrl (h : s.locked 4 = false) (v : Nat) : writeLf s F.LF_NUM_CTRL 0 v = storeWord s 0x40040000 v :=
  writeBy_ok specAt_ctrl h rfl rfl

theorem storeWord_ctrl_mode (s : State) (mode : Bool) (src : Fin 16) :
    (storeWord s 0x40040000 (b2n mode * 2 ^ 8 + src)).get F.LF_NUM_CTRL_MODE = b2n mode := by
  refine (get_storeWord (f := F.LF_NUM_CTRL_MODE) (i := 0) (j := 0) s specAt_ctrl rfl (by decide) (by decide)).trans ?_
  simp only [F.LF_NUM_CTRL_MODE, bitsOf]
  cases mode <;> simp only [b2n] <;> omega

theorem storeWord_ctrl_src (s : State) (mode : Bool) (src : Fin 16) :
    (storeWord s 0x40040000 (b2n mode * 2 ^ 8 + src)).get F.LF_NUM_CTRL_SRC = src := by
  refine (get_storeWord (f := F.LF_NUM_CTRL_SRC) (i := 0) (j := 0) s specAt_ctrl rfl (by decide) (by decide)).trans ?_
  simp only [F.LF_NUM_CTRL_SRC, bitsOf]
  omega

theorem storeWord_ctrl_only (s : State) (v : Nat) :
    Only [F.LF_NUM_CTRL_MODE.at, F.LF_NUM_CTRL_SRC.at] s (storeWord s 0x40040000 v) := by
  refine storeWord_only_rw s specAt_ctrl rfl ?_
  unfold inFields
  decide

/-! ### The numbering adopts a good source (R304) -/

/-- From the arrival of the source's last labelled frame to the next local frame start, plus D, in FCLK. -/
def adoptSpan (s : State) : Int :=
  (((s.frameTotal + 2 ^ 32 - (s.portX s.num.src).rxTotal) % 2 ^ 32 + 1 : Nat) : Int) * 12800
    + s.get F.LF_NUM_DELAY_D - s.get F.LF_RX_PHASE_PHASE s.num.src

/-- That span in whole frames, rounded so that the error left lies in −6,400 ≤ E < 6,400. -/
def adoptFrames (s : State) : Int := -(-(adoptSpan s - 6400) / 12800)

theorem adoptFrames_error :
    -6400 ≤ adoptFrames s * 12800 - adoptSpan s ∧ adoptFrames s * 12800 - adoptSpan s < 6400 := by
  unfold adoptFrames
  omega

theorem adopt_of_label {l : Nat × Nat} (hl : (s.portX s.num.src).label = some l) :
    adopt s = ({ s with num.next := some (addNum l (adoptFrames s)) } : State).raiseBit F.LF_EVENT_NUM_ADOPTED := by
  have hcycles : (frameCycles : Int) = 12800 := rfl
  simp only [adopt, hl, adoptFrames, adoptSpan, Nat.cast_mul, hcycles]

/-- The span does not depend on STATE. -/
theorem adoptSpan_put_state (v : Nat) : adoptSpan (s.put F.LF_NUM_STATUS_STATE v) = adoptSpan s := by
  have hread : ∀ f i, f.addr i ≠ F.LF_NUM_STATUS_STATE.addr → (s.put F.LF_NUM_STATUS_STATE v).get f i = s.get f i :=
    fun f i hne => State.get_put_otherReg _ _ _ _ _ _ _ _ hne
  have hphase : F.LF_RX_PHASE_PHASE.addr s.num.src ≠ F.LF_NUM_STATUS_STATE.addr := by
    simp only [Field.addr, F.LF_RX_PHASE_PHASE, F.LF_NUM_STATUS_STATE]
    omega
  simp only [adoptSpan, State.frameTotal, State.put_num, State.portX_put, hread F.LF_FRAME_TOTAL 0 (by decide),
    hread F.LF_NUM_DELAY_D 0 (by decide), hread _ _ hphase]

theorem toLocked_of_label {l : Nat × Nat} (hl : (s.portX s.num.src).label = some l) :
    toLocked s = { (s.put F.LF_NUM_STATUS_STATE 2).raiseBit F.LF_EVENT_NUM_ADOPTED with
      num := { s.num with next := some (addNum l (adoptFrames s)), good := 96, far := 0, near := 0 } } := by
  have hframes : adoptFrames (s.put F.LF_NUM_STATUS_STATE 2) = adoptFrames s := by
    rw [adoptFrames, adoptSpan_put_state, adoptFrames]
  have hadopt := adopt_of_label (s := s.put F.LF_NUM_STATUS_STATE 2) hl
  rw [hframes] at hadopt
  rw [toLocked, hadopt]
  rfl

/-! ### A tick takes MODE, SRC and NUM_ADOPT (R25, R321, Table 8.8) -/

theorem numWritten_adopt : (numWritten s).num.adopt = false := by
  simp only [numWritten]
  split_ifs <;> rfl

theorem numWritten_src : (numWritten s).num.src = s.get F.LF_NUM_CTRL_SRC := by
  simp only [numWritten]
  split_ifs <;> rfl

theorem numWritten_state : (numWritten s).get F.LF_NUM_STATUS_STATE = (if s.get F.LF_NUM_CTRL_MODE = 0 then 0
    else if s.get F.LF_NUM_STATUS_STATE = 0 then 1
    else if s.num.adopt = true ∧ s.get F.LF_NUM_STATUS_STATE = 2 then 1 else s.get F.LF_NUM_STATUS_STATE) := by
  have hput : ∀ (t : State) v, (t.put F.LF_NUM_STATUS_STATE v).get F.LF_NUM_STATUS_STATE = v % 2 ^ 2 :=
    fun t v => State.get_put t _ _ _ _ (by decide)
  by_cases hmode : s.get F.LF_NUM_CTRL_MODE = 0 <;> by_cases hfree : s.get F.LF_NUM_STATUS_STATE = 0
  · simp [numWritten, State.on, hmode, hfree]
  · simp [numWritten, State.on, hmode, hfree, hput]
  · simp [numWritten, State.on, hmode, hfree, hput]
  · simp only [numWritten, State.on, hmode, hfree]
    split_ifs <;> simp_all

theorem numWritten_restarts (hmode : s.get F.LF_NUM_CTRL_MODE = 1) (hrun : s.get F.LF_NUM_STATUS_STATE ≠ 0)
    (hmoved : s.num.src ≠ s.get F.LF_NUM_CTRL_SRC) :
    (numWritten s).num.good = 0 ∧ (numWritten s).num.far = 0 ∧ (numWritten s).num.near = 0 := by
  simp only [numWritten, State.on, hrun]
  split_ifs <;> simp_all

/-! ### The commands -/

theorem exec_numLoad (h : s.regsWf) : exec .numLoad s = act s (hookLfCmd 1 s) := congrArg (act s) (writeLf_cmd h 1)

theorem exec_numAdopt (h : s.regsWf) : exec .numAdopt s = act s { s with num.adopt := true } :=
  congrArg (act s) ((writeLf_cmd h 2).trans hookLfCmd_adopt)

theorem exec_numberingModeWrite (h : s.locked 4 = false) (mode : Bool) (src : Fin 16) :
    exec (.numberingModeWrite mode src) s = act s (storeWord s 0x40040000 (b2n mode * 2 ^ 8 + src)) :=
  congrArg (act s) (writeLf_ctrl h _)

theorem exec_numAdopted {l : Nat × Nat} (h : adoptDue s = true) (hl : (s.portX s.num.src).label = some l) :
    exec .numAdopted s = act s { (s.put F.LF_NUM_STATUS_STATE 2).raiseBit F.LF_EVENT_NUM_ADOPTED with
      num := { s.num with next := some (addNum l (adoptFrames s)), good := 96, far := 0, near := 0 } } :=
  congrArg (act s) ((if_pos h).trans (toLocked_of_label hl))

theorem exec_mismatchSet (h : mismatchSetDue s = true) : exec .mismatchSet s = act s (mismatchSet s) :=
  congrArg (act s) (if_pos h)

theorem exec_mismatchClr (h : mismatchClrDue s = true) : exec .mismatchClr s = act s (mismatchClr s) :=
  congrArg (act s) (if_pos h)

/-! ### The statement on one state -/

/-- What `Obligations.LocalNumbering` says of one state. -/
def LocalNumberingAt (s : State) : Prop :=
  (s.Awake → ∀ i, ∃ t, exec (.localFrameStart i) s = .next t ∧ t = settle (localFrame s i)) ∧
  ((advanceFrame s).get F.LF_NOW_S = s.nextFrameNum.1 % 2 ^ 32 ∧ (advanceFrame s).get F.LF_NOW_F = s.nextFrameNum.2 % 2 ^ 32 ∧
    (advanceFrame s).get F.LF_FRAME_TOTAL = (s.get F.LF_FRAME_TOTAL + 1) % 2 ^ 32 ∧
    (advanceFrame s).num = { s.num with next := s.num.late, late := none } ∧
    (∀ n, s.num.next = some n → s.nextFrameNum = n) ∧
    (s.num.next = none → s.nextFrameNum =
      if s.get F.LF_NOW_F < 31249 then (s.get F.LF_NOW_S, s.get F.LF_NOW_F + 1) else ((s.get F.LF_NOW_S + 1) % 2 ^ 32, 0))) ∧
  (s.Awake →
    (s.get F.LF_NUM_STATUS_STATE = 0 → ∃ t, exec .numLoad s = .next t ∧
      t.num = (if s.inFrame < 12800 then { s.num with next := some (s.get F.LF_NUM_SET_S, s.get F.LF_NUM_SET_F_F) }
        else { s.num with late := some (s.get F.LF_NUM_SET_S, s.get F.LF_NUM_SET_F_F) }) ∧ t.get F.LF_EVENT_NUM_LOADED = 1 ∧
      t = { s with regs := t.regs, num := t.num } ∧ RegsKept [F.LF_EVENT_NUM_LOADED.at] s t) ∧
    (s.get F.LF_NUM_STATUS_STATE ≠ 0 → ∃ t, exec .numLoad s = .next t ∧ t = s) ∧
    (∃ t, exec .numAdopt s = .next t ∧ t = { s with num.adopt := true }) ∧
    (∀ mode (src : Fin 16), s.locked 4 = false → ∃ t, exec (.numberingModeWrite mode src) s = .next t ∧
      t.get F.LF_NUM_CTRL_MODE = b2n mode ∧ t.get F.LF_NUM_CTRL_SRC = src ∧
      Only [F.LF_NUM_CTRL_MODE.at, F.LF_NUM_CTRL_SRC.at] s t) ∧
    (∀ l, adoptDue s = true → (s.portX s.num.src).label = some l → ∃ t, exec .numAdopted s = .next t ∧
      t.get F.LF_NUM_STATUS_STATE = 2 ∧ t.get F.LF_EVENT_NUM_ADOPTED = 1 ∧
      (∃ k : Int, t.num.next = some (addNum l k) ∧
        -6400 ≤ k * 12800 - ((((s.frameTotal + 2 ^ 32 - (s.portX s.num.src).rxTotal) % 2 ^ 32 + 1 : Nat) : Int) * 12800
          + s.get F.LF_NUM_DELAY_D - s.get F.LF_RX_PHASE_PHASE s.num.src) ∧
        k * 12800 - ((((s.frameTotal + 2 ^ 32 - (s.portX s.num.src).rxTotal) % 2 ^ 32 + 1 : Nat) : Int) * 12800
          + s.get F.LF_NUM_DELAY_D - s.get F.LF_RX_PHASE_PHASE s.num.src) < 6400) ∧
      t = { s with regs := t.regs, num := t.num } ∧ RegsKept [F.LF_NUM_STATUS_STATE.at, F.LF_EVENT_NUM_ADOPTED.at] s t) ∧
    (mismatchSetDue s = true → ∃ t, exec .mismatchSet s = .next t ∧
      t.get F.LF_NUM_STATUS_MISMATCH = 1 ∧ t.get F.LF_EVENT_MISMATCH_SET = 1 ∧
      t = { s with regs := t.regs, num := { s.num with far := 0, near := 0 } } ∧
      RegsKept [F.LF_NUM_STATUS_MISMATCH.at, F.LF_EVENT_MISMATCH_SET.at] s t) ∧
    (mismatchClrDue s = true → ∃ t, exec .mismatchClr s = .next t ∧
      t.get F.LF_NUM_STATUS_MISMATCH = 0 ∧ t.get F.LF_EVENT_MISMATCH_CLR = 1 ∧
      t = { s with regs := t.regs, num := { s.num with far := 0, near := 0 } } ∧
      RegsKept [F.LF_NUM_STATUS_MISMATCH.at, F.LF_EVENT_MISMATCH_CLR.at] s t)) ∧
  ((numWritten s).num.adopt = false ∧ (numWritten s).num.src = s.get F.LF_NUM_CTRL_SRC ∧
    (numWritten s).get F.LF_NUM_STATUS_STATE = (if s.get F.LF_NUM_CTRL_MODE = 0 then 0
      else if s.get F.LF_NUM_STATUS_STATE = 0 then 1
      else if s.num.adopt = true ∧ s.get F.LF_NUM_STATUS_STATE = 2 then 1 else s.get F.LF_NUM_STATUS_STATE) ∧
    (s.get F.LF_NUM_CTRL_MODE = 1 → s.get F.LF_NUM_STATUS_STATE ≠ 0 → s.num.src ≠ s.get F.LF_NUM_CTRL_SRC →
      (numWritten s).num.good = 0 ∧ (numWritten s).num.far = 0 ∧ (numWritten s).num.near = 0))

theorem localNumbering_iff : Obligations.LocalNumbering ↔ ∀ s, LocalNumberingAt s := Iff.rfl

/-- On a state whose register store is canonical the statement holds. -/
theorem localNumberingAt_of_regsWf (h : s.regsWf) : LocalNumberingAt s := by
  refine ⟨fun ha i => ⟨_, act_of_awake ha, rfl⟩,
    ⟨advanceFrame_nowS, advanceFrame_nowF, advanceFrame_total, advanceFrame_num, fun _ => nextFrameNum_of_some,
      nextFrameNum_of_none⟩,
    fun ha => ⟨fun hfree => ?load, fun hrun => ?kept, ?adopt, fun mode src hl => ?ctrl, fun l hdue hl => ?adopted,
      fun hdue => ?mismatchSet, fun hdue => ?mismatchClr⟩,
    numWritten_adopt, numWritten_src, numWritten_state, numWritten_restarts⟩
  case load =>
    have e := (exec_numLoad h).trans (congrArg (act s) (hookLfCmd_load_of_free hfree))
    exact gives_of_act ha e ha.2 ⟨rfl, State.get_raiseBit _ _ _ _ (by decide) (by decide), rfl,
      regsKept_put (s := { s with num := _ }) (List.mem_singleton.mpr rfl)⟩
  case kept =>
    exact gives_of_act ha ((exec_numLoad h).trans (congrArg (act s) (hookLfCmd_load_of_not_free hrun))) ha.2 rfl
  case adopt => exact gives_of_act ha (exec_numAdopt h) ha.2 rfl
  case ctrl =>
    have honly := storeWord_ctrl_only s (b2n mode * 2 ^ 8 + src)
    exact gives_of_act ha (exec_numberingModeWrite hl mode src) (honly.chip ▸ ha.2)
      ⟨storeWord_ctrl_mode s mode src, storeWord_ctrl_src s mode src, honly⟩
  case adopted =>
    obtain ⟨hstate, hevent, hkept⟩ := put_raiseBit s F.LF_NUM_STATUS_STATE F.LF_EVENT_NUM_ADOPTED 2 (by decide)
    exact gives_of_act ha (exec_numAdopted hdue hl) ha.2
      ⟨hstate, hevent, ⟨adoptFrames s, rfl, adoptFrames_error⟩, rfl, hkept⟩
  case mismatchSet =>
    obtain ⟨hbit, hevent, hkept⟩ := put_raiseBit s F.LF_NUM_STATUS_MISMATCH F.LF_EVENT_MISMATCH_SET 1 (by decide)
    exact gives_of_act ha (exec_mismatchSet hdue) ha.2 ⟨hbit, hevent, rfl, hkept⟩
  case mismatchClr =>
    obtain ⟨hbit, hevent, hkept⟩ := put_raiseBit s F.LF_NUM_STATUS_MISMATCH F.LF_EVENT_MISMATCH_CLR 0 (by decide)
    exact gives_of_act ha (exec_mismatchClr hdue) ha.2 ⟨hbit, hevent, rfl, hkept⟩

theorem localNumberingAt_reset : LocalNumberingAt State.reset :=
  localNumberingAt_of_regsWf (by unfold State.regsWf; decide +kernel)

/-! ### A store that is not canonical -/

/-- The state after reset, with LF_CMD listed in its register store at its reset word, which it would read unlisted. -/
def listedCmd : State := { State.reset with regs := [(0x40040010, 0)] }

theorem listedCmd_awake : listedCmd.Awake := ⟨rfl, rfl⟩

/-- The write of LF_CMD drops the listed word. -/
theorem listedCmd_numAdopt : exec .numAdopt listedCmd = .next { listedCmd with regs := [], num.adopt := true } := by
  have hwrite : writeLf listedCmd F.LF_CMD 0 2 = { listedCmd with regs := [], num.adopt := true } := by decide +kernel
  exact (congrArg (act listedCmd) hwrite).trans (act_next listedCmd_awake rfl)

/-- Refutes O25: on `listedCmd` NUM_ADOPT drops the listed word of LF_CMD, so what it answers is not
`{ s with num.adopt := true }`. Every read is the same, and no canonical store lists such a word: with `s.regsWf` the statement
holds (`localNumberingAt_of_regsWf`). -/
theorem not_localNumbering : ¬ Obligations.LocalNumbering := by
  intro h
  obtain ⟨-, -, hawake, -⟩ := localNumbering_iff.mp h listedCmd
  obtain ⟨-, -, ⟨t, hexec, ht⟩, -⟩ := hawake listedCmd_awake
  rw [listedCmd_numAdopt, Host.Outcome.next.injEq] at hexec
  have hregs : ([] : List (Nat × Word)) = [(0x40040010, 0)] := congrArg State.regs (hexec.trans ht)
  exact List.cons_ne_nil _ _ hregs.symm

end Sys2Proof.Machine
end

section
/-!
PROOFS. No step leaves a reset asked for and not entered (R55, R669, R701).

Nearly every command answers `act s t`, which settles `t`.  The others are those of the balls, the supplies and the test port,
which act in internal reset too; each of them is shown to ask for no reset.
-/
namespace Sys2Proof.Machine

variable {s t u : State}

/-- Whatever state the outcome holds, no reset is asked for in it. -/
def LeavesNoReset (o : Host.Outcome State Fault Refusal) : Prop := ∀ t, o = .next t → t.chip.resetDue = none

theorem leavesNoReset_next (h : t.chip.resetDue = none) : LeavesNoReset (.next t) := by
  rintro _ ⟨rfl⟩
  exact h

/-- A command that `act` carries out does nothing in internal reset, and settles outside it. -/
theorem leavesNoReset_act (h : s.chip.resetDue = none) : LeavesNoReset (act s t) := by
  refine leavesNoReset_next ?_
  split
  · exact h
  · exact settle_resetDue t

/-! ### The commands of the balls, the supplies and the test port -/

theorem resetCondition_resetDue (h : s.chip.resetDue = none) (code : Nat) (lowRail : Bool) :
    (resetCondition s code lowRail).chip.resetDue = none := by
  unfold resetCondition
  split
  · exact h
  · exact enterReset_resetDue _ _ _ _

theorem powerGood_leavesNoReset (h : s.chip.resetDue = none) (xoLast : Bool) :
    LeavesNoReset (execPowerGood xoLast s) := by
  refine leavesNoReset_next ?_
  dsimp only
  split_ifs <;> exact h

theorem internalResetRelease_leavesNoReset (h : s.chip.resetDue = none) (dowelIn crefOk : Bool) :
    LeavesNoReset (execInternalResetRelease dowelIn crefOk s) := by
  refine leavesNoReset_next ?_
  dsimp only
  split
  · exact settle_resetDue _
  · exact h

theorem railLow_leavesNoReset (h : s.chip.resetDue = none) (rail : Fin 7) : LeavesNoReset (execRailLow rail s) := by
  refine leavesNoReset_next ?_
  dsimp only
  split <;> exact resetCondition_resetDue h 0 true

theorem supplyDip_leavesNoReset (h : s.chip.resetDue = none) (rail : Fin 7) : LeavesNoReset (execSupplyDip rail s) := by
  refine leavesNoReset_next ?_
  dsimp only
  split
  · exact h
  · split
    · exact h
    · exact settle_resetDue _

theorem resetNLow_leavesNoReset (h : s.chip.resetDue = none) (ns : Nat) : LeavesNoReset (execResetNLow ns s) := by
  have hdrawn : (if 100 < ns ∧ ns < 1000 then s.draw else s).chip.resetDue = none := by
    split <;> exact h
  refine leavesNoReset_next ?_
  dsimp only
  split
  · exact resetCondition_resetDue hdrawn 1 false
  · exact hdrawn

theorem tempHigh_leavesNoReset (h : s.chip.resetDue = none) (tenths : Nat) : LeavesNoReset (execTempHigh tenths s) := by
  refine leavesNoReset_next ?_
  dsimp only
  split
  · split
    · exact h
    · exact settle_resetDue _
  · exact h

theorem xoInLost_leavesNoReset (h : s.chip.resetDue = none) : LeavesNoReset (execXoInLost s) := by
  refine leavesNoReset_next ?_
  dsimp only
  split
  · exact h
  · split
    · exact settle_resetDue _
    · exact h

@[simp] theorem modDpll_chip (s : State) (d : Nat) (f : DpllX → DpllX) : (modDpll s d f).chip = s.chip := by
  unfold modDpll
  split <;> rfl

theorem xoInReturn_leavesNoReset (h : s.chip.resetDue = none) : LeavesNoReset (execXoInReturn s) := by
  refine leavesNoReset_next ?_
  dsimp only
  split
  · exact h
  · exact forN_keeps (fun u => u.chip.resetDue = none) 2 _ (fun d _ u hu => (modDpll_chip u d _).symm ▸ hu) _ h

theorem crefLost_leavesNoReset (h : s.chip.resetDue = none) : LeavesNoReset (execCrefLost s) := by
  refine leavesNoReset_next ?_
  split
  · exact h
  · exact settle_resetDue _

theorem crefclkReturn_leavesNoReset (h : s.chip.resetDue = none) : LeavesNoReset (execCrefclkReturn s) := by
  refine leavesNoReset_next ?_
  split
  · exact h
  · exact settle_resetDue _

theorem levelConditionEnd_leavesNoReset (h : s.chip.resetDue = none) (z : Fin 23) :
    LeavesNoReset (execLevelConditionEnd z s) := by
  refine leavesNoReset_next ?_
  dsimp only
  split_ifs <;> exact h

/-- Nothing differs but the test port, the mark that it has owned balls, and the count of open values. -/
def TapOnly (s t : State) : Prop :=
  t = { s with chip := { s.chip with tap := t.chip.tap, tapUsed := t.chip.tapUsed }, freeIx := t.freeIx }

theorem TapOnly.refl (s : State) : TapOnly s s := rfl

theorem TapOnly.trans (h : TapOnly s t) (k : TapOnly t u) : TapOnly s u := by
  unfold TapOnly at h k ⊢
  rw [k, h]

theorem TapOnly.resetDue (h : TapOnly s t) : t.chip.resetDue = s.chip.resetDue := by
  unfold TapOnly at h
  rw [h]

theorem noteTap_tapOnly (s : State) : TapOnly s (noteTap s) := by
  unfold noteTap
  split <;> rfl

theorem tapCapture_tapOnly (s : State) : TapOnly s (tapCapture s) := by
  simp only [tapCapture]
  split_ifs <;> rfl

theorem tapMove_tapOnly (s : State) (st : TapSt) : TapOnly s
    (if st = .testLogicReset then { s with chip.tap := { s.chip.tap with st := st, ir := .idcode } }
      else { s with chip.tap.st := st }) := by
  split <;> rfl

theorem tapClock_tapOnly (s : State) (tms tdi : Bool) : TapOnly s (tapClock s tms tdi) := by
  unfold tapClock
  refine TapOnly.trans ?_ (tapMove_tapOnly _ _)
  dsimp only
  split
  case h_1 => exact tapCapture_tapOnly s
  case h_3 => split <;> rfl
  case h_5 => split <;> rfl
  case h_6 => exact TapOnly.trans (by rfl) (noteTap_tapOnly _)
  all_goals rfl

theorem tapRun_tapOnly (s : State) (cs : List (Bool × Bool)) : TapOnly s (tapRun s cs) := by
  induction cs generalizing s with
  | nil => exact TapOnly.refl s
  | cons c cs ih => exact (tapClock_tapOnly s c.1 c.2).trans (ih _)
theorem tapTestLogicReset_leavesNoReset (h : s.chip.resetDue = none) : LeavesNoReset (execTapTestLogicReset s) :=
  leavesNoReset_next h

theorem execTapInstruction_tapOnly (i : TapInstr) (clocks : List (Bool × Bool)) (s : State) :
    ∃ t, execTapInstruction i clocks s = .next t ∧ TapOnly s t :=
  ⟨_, rfl, TapOnly.trans (TapOnly.trans (by rfl) (noteTap_tapOnly _)) (tapRun_tapOnly _ clocks)⟩

theorem tapInstruction_leavesNoReset (h : s.chip.resetDue = none) (i : TapInstr) (clocks : List (Bool × Bool)) :
    LeavesNoReset (execTapInstruction i clocks s) := by
  obtain ⟨t, hexec, ht⟩ := execTapInstruction_tapOnly i clocks s
  rw [hexec]
  exact leavesNoReset_next (ht.resetDue.trans h)

/-! ### The other commands that do not only act on the state they meet -/

@[simp] theorem conditionBegins_resetDue (s : State) (z info : Nat) :
    (conditionBegins s z info).chip.resetDue = s.chip.resetDue := by
  unfold conditionBegins
  split <;> rfl

theorem faultRaise_leavesNoReset (h : s.chip.resetDue = none) (z : Fin 23) (info : Word) (loc : Option (Nat × Nat))
    (injected : Bool) : LeavesNoReset (execFaultRaise z info loc injected s) := by
  unfold execFaultRaise
  dsimp only
  split
  · exact leavesNoReset_act ((conditionBegins_resetDue s z info.toNat).trans h)
  · exact leavesNoReset_act h

/-! ### Every command -/

theorem exec_leavesNoReset (h : s.chip.resetDue = none) (c : Instr) : LeavesNoReset (exec c s) := by
  cases c with
  | powerGood xoLast => exact powerGood_leavesNoReset h xoLast
  | internalResetRelease dowelIn crefOk => exact internalResetRelease_leavesNoReset h dowelIn crefOk
  | railLow rail => exact railLow_leavesNoReset h rail
  | supplyDip rail => exact supplyDip_leavesNoReset h rail
  | resetNLow ns => exact resetNLow_leavesNoReset h ns
  | testEnHigh => exact leavesNoReset_next (resetCondition_resetDue h 2 false)
  | tapTestLogicReset => exact tapTestLogicReset_leavesNoReset h
  | tapInstruction i clocks => exact tapInstruction_leavesNoReset h i clocks
  | xoInLost => exact xoInLost_leavesNoReset h
  | xoInReturn => exact xoInReturn_leavesNoReset h
  | tempHigh tenths => exact tempHigh_leavesNoReset h tenths
  | crefLost => exact crefLost_leavesNoReset h
  | crefclkReturn => exact crefclkReturn_leavesNoReset h
  | levelConditionEnd z => exact levelConditionEnd_leavesNoReset h z
  | faultRaise z info loc injected => exact faultRaise_leavesNoReset h z info loc injected
  | _ => exact leavesNoReset_act h

/-- Settles O58: every command leaves no reset asked for, and so does the cycle that an empty queue passes, which settles. -/
theorem resetsAreEntered : Obligations.ResetsAreEntered := by
  intro s t h hstep
  unfold step at hstep
  split at hstep
  next => exact leavesNoReset_next (settle_resetDue _) t hstep
  next c rest _ => exact exec_leavesNoReset (s := { s with pending := rest }) h c t hstep

end Sys2Proof.Machine
end

section
/-!
PROOFS. Internal reset entered and released (R55, R56, R77, R80, R91, R701, R703, Table 19.2).
-/
namespace Sys2Proof.Machine

variable {s : State}

/-! ### What entering internal reset does to a register -/

@[simp] theorem eccWritten_remapping (s : State) (a : Nat) : (eccWritten s a).fa.remapping = s.fa.remapping := rfl

@[simp] theorem logPush_remapping (s : State) (kind subj detail : Nat) (inj esc : Bool) :
    (logPush s kind subj detail inj esc).fa.remapping = s.fa.remapping := by
  unfold logPush
  dsimp only
  split
  · rw [State.bumpSat_fa, eccWritten_remapping, eccWritten_remapping, State.put_fa, State.put_fa, State.put_fa, State.put_fa,
      State.put_fa]
  · rw [eccWritten_remapping, eccWritten_remapping, State.put_fa, State.put_fa, State.put_fa, State.put_fa, State.put_fa]

@[simp] theorem ackOne_remapping (s : State) (z who : Nat) : (ackOne s z who).fa.remapping = s.fa.remapping := by
  unfold ackOne
  split
  · simp
  · rfl

@[simp] theorem ackMask_remapping (s : State) (mask who : Nat) : (ackMask s mask who).fa.remapping = s.fa.remapping := by
  refine forN_keeps (fun t => t.fa.remapping = s.fa.remapping) 23 _ (fun z _ t ht => ?_) s rfl
  split
  · rw [ackOne_remapping, ht]
  · exact ht

/-- With no row remap in progress there are no spares to give back. -/
theorem sparesBack_of_no_remap (h : s.fa.remapping = []) : sparesBack s = s := by
  rw [sparesBack, h, forList]

/-- The registers other than FA_RP_ROWS and the log that entering internal reset writes. -/
def resetWrites : List Nat := [0x40010004, 0x400B0004, 0x4013000C, 0x40130004, 0x40130008]

/-- The register store that entering internal reset keeps its registers from (R700): as it stands after a low rail, else with
every open occurrence acknowledged and the spares of row remaps given back. -/
theorem reg_enterReset_kept (s : State) (code z : Nat) (lowRail : Bool) {a : Nat} (ha : a ∉ resetWrites) :
    (enterReset s code z lowRail).reg a =
      if keptReg lowRail a then (if lowRail then s else sparesBack (ackMask s (2 ^ 23 - 1) 2)).reg a else resetWord a := by
  simp only [resetWrites, List.mem_cons, List.not_mem_nil, or_false, not_or] at ha
  obtain ⟨hdowel, hhash, hgstat, -⟩ := ha
  have hput : ∀ (f : Field) (u : State) (v : Nat), a ≠ f.addr → (u.put f v).reg a = u.reg a :=
    fun f u v h => State.reg_put_other u f v 0 0 h
  unfold enterReset
  dsimp only
  rw [hput F.FA_GSTAT_CAUSE_Z _ _ hgstat, hput F.FA_GSTAT_LAST_RESET _ _ hgstat, hput F.TG_HASH_OWN_HASH _ _ hhash,
    hput F.CH_STATUS_DOWEL_OUT _ _ hdowel]
  exact SMap.get_restrict resetWord _ _ _

/-- After a low rail nothing is acknowledged and no spare given back, so log and FA_RP_ROWS are no exception. -/
theorem reg_enterReset_lowRail (s : State) (code z : Nat) {a : Nat} (ha : a ∉ resetWrites) :
    (enterReset s code z true).reg a = if keptReg true a then s.reg a else resetWord a :=
  reg_enterReset_kept s code z true ha

/-- With no row remap in progress FA_RP_ROWS is no exception. -/
theorem reg_enterReset_of_no_remap (hremap : s.fa.remapping = []) (code z : Nat) (lowRail : Bool) {a : Nat}
    (hl : ¬ logAddr a) (ha : a ∉ resetWrites) :
    (enterReset s code z lowRail).reg a = if keptReg lowRail a then s.reg a else resetWord a := by
  cases lowRail
  case true => exact reg_enterReset_lowRail s code z ha
  case false =>
    rw [reg_enterReset_kept s code z false ha, if_neg Bool.false_ne_true]
    simp only [resetWrites, List.mem_cons, List.not_mem_nil, or_false, not_or] at ha
    obtain ⟨-, -, -, hopen, hesc⟩ := ha
    have hacked : (ackMask s (2 ^ 23 - 1) 2).fa.remapping = [] := (ackMask_remapping s _ _).trans hremap
    rw [sparesBack_of_no_remap hacked, reg_ackMask s _ _ hl hopen hesc]

theorem keptReg_lowRail_of_lt {a : Nat} (h : a < 0x70000000) : keptReg true a = false := by
  have hble : Nat.ble 0x70000000 a = false := by
    rw [← Bool.not_eq_true, Nat.ble_eq]
    omega
  simp [keptReg, hble]

@[simp] theorem enterReset_unlock (s : State) (code z : Nat) (lowRail : Bool) :
    (enterReset s code z lowRail).chip.unlock = s.chip.unlock := by
  unfold enterReset
  rw [State.put_chip, State.put_chip, State.put_chip, State.put_chip]

/-! ### A condition of R55 begins -/

theorem resetCondition_of_out (h : s.chip.held = false) (code : Nat) :
    resetCondition s code false = enterReset s code 0xFF false := by simp [resetCondition, h]

theorem resetCondition_of_held (h : s.chip.held = true) (code : Nat) :
    resetCondition s code false = { s with chip.counting := false } := by simp [resetCondition, h]

theorem resetCondition_lowRail (s : State) (code : Nat) : resetCondition s code true = enterReset s code 0xFF true := by
  simp [resetCondition]

/-- The unit that a low rail leaves, but for an OTP burn that it cuts. -/
def railDown (s : State) (rail : Nat) : State :=
  let t := resetCondition s 0 true
  { t with chip.railLow := t.chip.railLow ||| 2 ^ rail, chip.railDip := t.chip.railDip &&& (127 - 2 ^ rail) }

/-- An OTP burn in progress cut (R191). -/
def burnCut (s : State) : State :=
  match s.otp.burn with
  | none => s
  | some (j, before) =>
    ({ s.draw with otp.burn := none }).put F.CH_ASSET (before ||| (s.reg (F.CH_ASSET.addr j) &&& s.drawn)).toNat j

theorem execRailLow_eq (rail : Fin 7) (s : State) : execRailLow rail s = .next (burnCut (railDown s rail)) := rfl

/-- A cut burn leaves everything but its own fuses, the burn and the count of open values. -/
theorem burnCut_eq (s : State) : burnCut s =
    { s with regs := (burnCut s).regs, freeIx := (burnCut s).freeIx, otp.burn := (burnCut s).otp.burn } := by
  unfold burnCut
  split <;> rfl

theorem reg_burnCut (s : State) {a : Nat} (h : a < 0x70000000) : (burnCut s).reg a = s.reg a := by
  unfold burnCut
  split
  · rfl
  · refine (State.reg_put_other _ _ _ _ _ ?_).trans rfl
    simp only [F.CH_ASSET, Field.addr]
    omega

theorem get_burnCut (s : State) (f : Field) (i j : Nat) (h : f.addr i j < 0x70000000) :
    (burnCut s).get f i j = s.get f i j := by
  rw [State.get, reg_burnCut s h, State.get]

/-- RAIL_LOW (R55, R77, R91). -/
theorem railLow_enters (s : State) (rail : Fin 7) : Gives (.railLow rail) s fun t =>
    t.chip.held = true ∧ t.chip.counting = false ∧ t.chip.railLow.testBit rail.val = true ∧ t.get F.FA_GSTAT_LAST_RESET = 0 ∧
    t.pending = s.pending ∧ t.locks = 0 ∧ t.otp.uid = s.otp.uid ∧
    ∀ a, a < 0x70000000 → a ∉ resetWrites → ¬ logAddr a → t.reg a = resetWord a := by
  refine ⟨_, execRailLow_eq rail s, ?_⟩
  have hdown : ∀ a, (railDown s rail).reg a = (enterReset s 0 0xFF true).reg a := fun a => by
    rw [railDown, resetCondition_lowRail, State.reg_mk]
  refine ⟨?_, ?_, ?_, ?_, ?_, ?_, ?_, fun a ha hw _ => ?_⟩
  case refine_4 =>
    rw [get_burnCut _ _ _ _ (by decide), State.get, hdown]
    exact enterReset_lastReset s 0 0xFF true
  case refine_8 =>
    rw [reg_burnCut _ ha, hdown, reg_enterReset_lowRail s 0 0xFF hw, keptReg_lowRail_of_lt ha, if_neg Bool.false_ne_true]
  all_goals
    rw [burnCut_eq]
    simp [railDown, resetCondition_lowRail]

/-- What `u` shows of a reset that `s` entered for cause `code`, with no fault source and no rail low (Tables 19.1, 19.2):
FA_RP_ROWS is kept too, unless a row remap was cut short. -/
structure Entered (s u : State) (code : Nat) : Prop where
  held : u.chip.held = true
  lastReset : u.get F.FA_GSTAT_LAST_RESET = code % 256
  cause : u.get F.FA_GSTAT_CAUSE_Z = 0xFF
  pending : u.pending = s.pending
  locks : u.locks = 0
  otp : u.otp = s.otp
  rows : s.fa.remapping = [] → u.reg 0x40130080 = s.reg 0x40130080
  regs : ∀ a, a ∉ [0x40010004, 0x400B0004, 0x4013000C, 0x40130004, 0x40130008, 0x40130080] → ¬ logAddr a →
    u.reg a = if keptReg false a then s.reg a else resetWord a

theorem enterReset_entered (s : State) (code : Nat) : Entered s (enterReset s code 0xFF false) code where
  held := enterReset_held _ _ _ _
  lastReset := enterReset_lastReset _ _ _ _
  cause := enterReset_cause _ _ _ _
  pending := enterReset_pending _ _ _ _
  locks := enterReset_locks _ _ _ _
  otp := enterReset_otp _ _ _ _
  rows hremap := by
    rw [reg_enterReset_of_no_remap hremap code 0xFF false (by unfold logAddr; decide) (by decide)]
    rfl
  regs a ha hl := by
    simp only [List.mem_cons, List.not_mem_nil, or_false, not_or] at ha
    obtain ⟨hdowel, hhash, hgstat, hopen, hesc, hrows⟩ := ha
    exact reg_enterReset s code 0xFF false hl hdowel hhash hgstat hopen hesc hrows

theorem Entered.with_chip {s u : State} {code : Nat} (h : Entered s u code) {c : ChipX} (hc : c.held = true) :
    Entered s { u with chip := c } code :=
  ⟨hc, h.lastReset, h.cause, h.pending, h.locks, h.otp, h.rows, h.regs⟩

theorem resetNLow_enters {ns : Nat} (hout : s.chip.held = false) (hns : 1000 ≤ ns) :
    Gives (.resetNLow ns) s fun t => t.chip.resetNLow = true ∧ Entered s t 1 := by
  have htaken : resetPulseTaken s ns = true := if_pos hns
  have hdrawn : (if 100 < ns ∧ ns < 1000 then s.draw else s) = s := if_neg (by omega)
  have hentered := enterReset_entered s 1
  simp only [Gives, exec, execResetNLow, htaken, hdrawn, if_true, resetCondition_of_out hout]
  generalize enterReset s 1 0xFF false = u at hentered
  exact ⟨_, rfl, rfl, hentered.with_chip hentered.held⟩

theorem testEnHigh_enters (hout : s.chip.held = false) :
    Gives .testEnHigh s fun t => t.chip.testEn = true ∧ Entered s t 2 := by
  have hentered := enterReset_entered s 2
  simp only [Gives, exec, execTestEnHigh, resetCondition_of_out hout]
  generalize enterReset s 2 0xFF false = u at hentered
  exact ⟨_, rfl, rfl, hentered.with_chip hentered.held⟩

/-- R56: a pulse of 100 ns or less is ignored. -/
theorem execResetNLow_ignored {ns : Nat} (hns : ns ≤ 100) : exec (.resetNLow ns) s = .next s := by
  have hignored : resetPulseTaken s ns = false := by
    rw [resetPulseTaken, if_neg (by omega), if_pos hns]
  have hdrawn : (if 100 < ns ∧ ns < 1000 then s.draw else s) = s := if_neg (by omega)
  simp only [exec, execResetNLow, hignored, hdrawn, Bool.false_eq_true, if_false]

/-- Settles O1: each condition of R55 enters internal reset by `enterReset`, and what it leaves is what that keeps. -/
theorem resetEntry : Obligations.ResetEntry := by
  intro s
  refine ⟨railLow_enters s, fun hout ns hns => ?resetN, fun ns hns => ?short, fun hout => ?testEn, fun hheld => ?held⟩
  case resetN =>
    obtain ⟨t, hexec, hpin, h⟩ := resetNLow_enters hout hns
    exact ⟨t, hexec, h.held, hpin, h.lastReset, h.cause, h.pending, h.locks, h.otp, h.rows, h.regs⟩
  case short => exact ⟨s, execResetNLow_ignored hns, rfl⟩
  case testEn =>
    obtain ⟨t, hexec, hpin, h⟩ := testEnHigh_enters hout
    exact ⟨t, hexec, h.held, hpin, h.lastReset, h.pending, h.locks, h.rows, h.regs⟩
  case held =>
    refine ⟨{ s with chip.counting := false, chip.testEn := true }, ?_, rfl, rfl⟩
    simp only [exec, execTestEnHigh, resetCondition_of_held hheld]

/-! ### CREF_OK and CREF_LOST of the clients (R416) -/

/-- CREF_OK and CREF_LOST of client `c` as CREFCLK stands. -/
def refreshClient (c : Nat) (s : State) : State :=
  let t := s.put F.CL_STATUS_CREF_OK (b2n (!s.chip.crefBad)) c
  if t.chip.crefBad then t.raiseBit F.CL_EVENT_CREF_LOST c else t

theorem refreshClient_only (c : Nat) (s : State) :
    Only [F.CL_STATUS_CREF_OK.at c, F.CL_EVENT_CREF_LOST.at c] s (refreshClient c s) := by
  have hok : Only [F.CL_STATUS_CREF_OK.at c, F.CL_EVENT_CREF_LOST.at c] s
      (s.put F.CL_STATUS_CREF_OK (b2n (!s.chip.crefBad)) c) := only_put (by simp)
  unfold refreshClient
  dsimp only
  split
  · exact hok.trans (only_raiseBit (by simp))
  · exact hok

@[simp] theorem refreshClient_chip (c : Nat) (s : State) : (refreshClient c s).chip = s.chip := by
  rw [(refreshClient_only c s).1]

theorem refreshClient_ok (c : Nat) (s : State) :
    (refreshClient c s).get F.CL_STATUS_CREF_OK c = b2n (!s.chip.crefBad) := by
  have hput := State.get_put_bit s F.CL_STATUS_CREF_OK (!s.chip.crefBad) c 0 (by decide) (by decide)
  have hne : F.CL_STATUS_CREF_OK.addr c ≠ F.CL_EVENT_CREF_LOST.addr c := by
    simp only [F.CL_STATUS_CREF_OK, F.CL_EVENT_CREF_LOST, Field.addr]
    omega
  unfold refreshClient
  dsimp only
  split
  · exact (State.get_put_otherReg _ _ _ _ _ _ _ _ hne).trans hput
  · exact hput

theorem refreshClient_lost (c : Nat) (hbad : s.chip.crefBad = true) :
    (refreshClient c s).get F.CL_EVENT_CREF_LOST c = 1 := by
  unfold refreshClient
  dsimp only
  rw [State.put_chip, if_pos hbad]
  exact State.get_raiseBit _ _ _ _ (by decide) (by decide)

theorem refreshClient_reg (c : Nat) (s : State) {a : Nat} (hok : a ≠ F.CL_STATUS_CREF_OK.addr c)
    (hlost : s.chip.crefBad = true → a ≠ F.CL_EVENT_CREF_LOST.addr c) : (refreshClient c s).reg a = s.reg a := by
  unfold refreshClient
  dsimp only
  split
  next hbad => exact (State.reg_put_other _ _ _ _ _ (hlost hbad)).trans (State.reg_put_other _ _ _ _ _ hok)
  next => exact State.reg_put_other _ _ _ _ _ hok

/-- Another client's fields stand in other registers. -/
theorem refreshClient_get_other {c d : Nat} (s : State) (h : c ≠ d) :
    (refreshClient d s).get F.CL_STATUS_CREF_OK c = s.get F.CL_STATUS_CREF_OK c ∧
    (refreshClient d s).get F.CL_EVENT_CREF_LOST c = s.get F.CL_EVENT_CREF_LOST c := by
  have haddr : F.CL_STATUS_CREF_OK.addr c ≠ F.CL_STATUS_CREF_OK.addr d ∧ F.CL_STATUS_CREF_OK.addr c ≠ F.CL_EVENT_CREF_LOST.addr d ∧
      F.CL_EVENT_CREF_LOST.addr c ≠ F.CL_STATUS_CREF_OK.addr d ∧ F.CL_EVENT_CREF_LOST.addr c ≠ F.CL_EVENT_CREF_LOST.addr d := by
    simp only [F.CL_STATUS_CREF_OK, F.CL_EVENT_CREF_LOST, Field.addr]
    omega
  obtain ⟨h1, h2, h3, h4⟩ := haddr
  rw [State.get, State.get, State.get, State.get, refreshClient_reg d s h1 fun _ => h2, refreshClient_reg d s h3 fun _ => h4]
  exact ⟨rfl, rfl⟩

@[simp] theorem forN_refreshClient_chip (n : Nat) (s : State) : (forN n refreshClient s).chip = s.chip :=
  forN_keeps (fun t => t.chip = s.chip) n _ (fun c _ t ht => (refreshClient_chip c t).trans ht) s rfl

theorem forN_refreshClient_get (n : Nat) (s : State) {c : Nat} (hc : c < n) :
    (forN n refreshClient s).get F.CL_STATUS_CREF_OK c = b2n (!s.chip.crefBad) ∧
    (s.chip.crefBad = true → (forN n refreshClient s).get F.CL_EVENT_CREF_LOST c = 1) := by
  induction n with
  | zero => omega
  | succ n ih =>
    rw [forN_succ]
    rcases Nat.lt_succ_iff_lt_or_eq.mp hc with hlt | rfl
    · obtain ⟨hok, hlost⟩ := refreshClient_get_other (forN n refreshClient s) (Nat.ne_of_lt hlt)
      rw [hok, hlost]
      exact ih hlt
    · rw [refreshClient_ok, forN_refreshClient_chip]
      exact ⟨rfl, fun hbad => refreshClient_lost c ((forN_refreshClient_chip c s).symm ▸ hbad)⟩

theorem refreshCref_get (s : State) {c : Nat} (hc : c < 4) :
    (refreshCref s).get F.CL_STATUS_CREF_OK c = b2n (!s.chip.crefBad) ∧
    (s.chip.crefBad = true → (refreshCref s).get F.CL_EVENT_CREF_LOST c = 1) :=
  forN_refreshClient_get 4 s hc

/-- The refresh writes CREF_OK, and CREF_LOST when there is no CREFCLK; nothing else. -/
theorem refreshCref_reg (s : State) {a : Nat} (h : ∀ c, c < 4 → a ≠ F.CL_STATUS_CREF_OK.addr c ∧
    (s.chip.crefBad = true → a ≠ F.CL_EVENT_CREF_LOST.addr c)) : (refreshCref s).reg a = s.reg a := by
  refine (forN_keeps (fun t => t.chip = s.chip ∧ t.reg a = s.reg a) 4 refreshClient ?_ s ⟨rfl, rfl⟩).2
  rintro c hc t ⟨hchip, hreg⟩
  refine ⟨(refreshClient_chip c t).trans hchip, ?_⟩
  rw [refreshClient_reg c t (h c hc).1 fun hbad => (h c hc).2 (hchip ▸ hbad), hreg]

theorem refreshCref_get_low (s : State) (f : Field) (i j : Nat) (h : f.addr i j < 0x40080000 ∨ 0x40081000 ≤ f.addr i j) :
    (refreshCref s).get f i j = s.get f i j := by
  rw [State.get, refreshCref_reg, State.get]
  simp only [F.CL_STATUS_CREF_OK, F.CL_EVENT_CREF_LOST, Field.addr] at h ⊢
  omega

theorem refreshCref_eq (s : State) : refreshCref s = { s with regs := (refreshCref s).regs } := by
  refine forN_keeps (fun t => t = { s with regs := t.regs }) 4 refreshClient (fun c _ t ht => ?_) s rfl
  rw [(refreshClient_only c t).1, ht]


/-- The refresh writes registers alone. -/
theorem refreshCref_rest (s : State) : (refreshCref s).chip = s.chip ∧ (refreshCref s).cyc = s.cyc ∧
    (refreshCref s).pending = s.pending ∧ (refreshCref s).locks = s.locks ∧ (refreshCref s).otp = s.otp := by
  rw [refreshCref_eq]
  exact ⟨rfl, rfl, rfl, rfl, rfl⟩

/-! ### POWER_GOOD -/

/-- The conditions of R55 have ended: what POWER_GOOD makes of what holds reset. -/
def poweredGood (s : State) (xoLast : Bool) : State :=
  { s with
    chip.counting := true, chip.railLow := 0, chip.resetNLow := false, chip.testEn := false, chip.xoBad := false,
    chip.xoLast := xoLast }

theorem exec_powerGood (hheld : s.chip.held = true) (xoLast : Bool) : exec (.powerGood xoLast) s = .next
    (if s.chip.lowRail && xoLast then (poweredGood s xoLast).put F.FA_GSTAT_LAST_RESET 3 else poweredGood s xoLast) :=
  congrArg Host.Outcome.next (if_pos hheld)

theorem powerGood_counts (hheld : s.chip.held = true) (xo : Bool) : Gives (.powerGood xo) s fun t =>
    t.chip.counting = true ∧ t.chip.railLow = 0 ∧ t.chip.resetNLow = false ∧ t.chip.testEn = false ∧ t.chip.xoBad = false ∧
    t.get F.FA_GSTAT_LAST_RESET = (if s.chip.lowRail && xo then 3 else s.get F.FA_GSTAT_LAST_RESET) ∧
    t = { s with chip := t.chip, regs := t.regs } ∧ RegsKept [F.FA_GSTAT_LAST_RESET.at] s t := by
  refine ⟨_, exec_powerGood hheld xo, ?_⟩
  by_cases hlast : (s.chip.lowRail && xo) = true
  · simp only [if_pos hlast]
    exact ⟨rfl, rfl, rfl, rfl, rfl, State.get_put _ _ _ _ _ (by decide), rfl,
      regsKept_put (s := poweredGood s xo) (List.mem_singleton.mpr rfl)⟩
  · simp only [if_neg hlast]
    exact ⟨rfl, rfl, rfl, rfl, rfl, rfl, rfl, RegsKept.refl s⟩

/-! ### INTERNAL_RESET_RELEASE -/

/-- The unit `u` as the release of internal reset finds it, with the balls at the levels given, before CREF_OK is shown. -/
def atBalls (u : State) (dowelIn cref : Bool) : State :=
  let v : State := { u with chip.held := false, chip.counting := false, chip.lowRail := false, cyc := 0 }
  let v := v.put F.CH_STATUS_DOWEL_IN (b2n dowelIn)
  { v.driveDowel (v.get F.CH_ADDR_ADDRESSED) with chip := { v.chip with crefBad := !cref } }

/-- Internal reset entered once more from what stands, so that only what Table 19.2 keeps is left, and released. -/
def released (s : State) (dowelIn cref : Bool) : State :=
  refreshCref (atBalls (enterReset s (s.get F.FA_GSTAT_LAST_RESET) s.chip.resetZ s.chip.lowRail) dowelIn cref)

theorem levelsAtRelease_of_none (hhot : s.chip.hot = none) (hdip : s.chip.railDip = 0) (hunlock : s.chip.unlock = false) :
    levelsAtRelease s = s := by
  simp [levelsAtRelease, hhot, hdip, hunlock]

theorem exec_internalResetRelease (dowelIn cref : Bool) (hheld : s.chip.held = true) (hcounting : s.chip.counting = true)
    (hfree : s.resetHeldBy = false) (hhot : s.chip.hot = none) (hdip : s.chip.railDip = 0) (hunlock : s.chip.unlock = false) :
    exec (.internalResetRelease dowelIn cref) s = .next (released s dowelIn cref) := by
  have hrun : (s.chip.held && s.chip.counting && !s.resetHeldBy) = true := by rw [hheld, hcounting, hfree]; rfl
  have hexec : exec (.internalResetRelease dowelIn cref) s = .next (settle (levelsAtRelease (released s dowelIn cref))) :=
    congrArg Host.Outcome.next (if_pos hrun)
  have hchip : (released s dowelIn cref).chip =
      (atBalls (enterReset s (s.get F.FA_GSTAT_LAST_RESET) s.chip.resetZ s.chip.lowRail) dowelIn cref).chip :=
    forN_refreshClient_chip 4 _
  rw [hexec, levelsAtRelease_of_none, settle_of_none] <;> rw [hchip] <;> simp [atBalls, State.driveDowel, *]

theorem atBalls_reg (u : State) (dowelIn cref : Bool) {a : Nat} (ha : a ≠ 0x40010004) :
    (atBalls u dowelIn cref).reg a = u.reg a := by
  unfold atBalls State.driveDowel
  exact (State.reg_put_other _ F.CH_STATUS_DOWEL_OUT _ 0 0 ha).trans (State.reg_put_other _ F.CH_STATUS_DOWEL_IN _ 0 0 ha)

theorem atBalls_dowelIn (u : State) (dowelIn cref : Bool) :
    (atBalls u dowelIn cref).get F.CH_STATUS_DOWEL_IN = b2n dowelIn := by
  simp only [atBalls, State.driveDowel, State.get_mk]
  rw [State.get_put_ne _ _ _ _ _ _ _ _ (.inr (by decide)), State.get_put_bit _ _ _ _ _ (by decide) (by decide)]

/-- DOWEL_OUT goes to the held addressing state while its supply is there (R58, R91). -/
theorem atBalls_dowelOut {u : State} (hlow : u.chip.railLow = 0) (hdip : u.chip.railDip = 0) (dowelIn cref : Bool) :
    (atBalls u dowelIn cref).get F.CH_STATUS_DOWEL_OUT = (atBalls u dowelIn cref).get F.CH_ADDR_ADDRESSED := by
  have haddr : (atBalls u dowelIn cref).get F.CH_ADDR_ADDRESSED = u.get F.CH_ADDR_ADDRESSED := by
    rw [State.get, atBalls_reg u dowelIn cref (by decide), State.get]
  have hne : F.CH_ADDR_ADDRESSED.addr ≠ F.CH_STATUS_DOWEL_IN.addr := by decide
  rw [haddr]
  simp only [atBalls, State.driveDowel, State.ioDip, State.put_chip, hlow, hdip, Nat.zero_testBit, Bool.or_self,
    Bool.false_eq_true, if_false, State.get_mk]
  rw [State.get_put _ _ _ _ _ (by decide), State.get_put_otherReg _ _ _ _ _ _ _ _ hne, State.get_mk]
  exact State.get_mod u F.CH_ADDR_ADDRESSED 0 0

theorem atBalls_rest (u : State) (dowelIn cref : Bool) :
    (atBalls u dowelIn cref).chip.held = false ∧ (atBalls u dowelIn cref).chip.counting = false ∧
    (atBalls u dowelIn cref).cyc = 0 ∧ (atBalls u dowelIn cref).pending = u.pending ∧
    (atBalls u dowelIn cref).locks = u.locks ∧ (atBalls u dowelIn cref).otp = u.otp :=
  ⟨rfl, rfl, rfl, rfl, rfl, rfl⟩

theorem atBalls_crefBad (u : State) (dowelIn cref : Bool) : (atBalls u dowelIn cref).chip.crefBad = !cref := rfl

theorem released_reg (s : State) (dowelIn cref : Bool) (hremap : s.fa.remapping = []) {a : Nat} (ha : a ∉ resetWrites)
    (hl : ¬ logAddr a) (hcref : ∀ c, c < 4 → a ≠ F.CL_STATUS_CREF_OK.addr c ∧ (cref = false → a ≠ F.CL_EVENT_CREF_LOST.addr c)) :
    (released s dowelIn cref).reg a = if keptReg s.chip.lowRail a then s.reg a else resetWord a := by
  have hdowel : a ≠ 0x40010004 := fun h => ha (h ▸ by decide)
  rw [released, refreshCref_reg, atBalls_reg _ _ _ hdowel, reg_enterReset_of_no_remap hremap _ _ _ hl ha]
  simpa [atBalls_crefBad] using hcref

theorem released_lastReset (s : State) (dowelIn cref : Bool) :
    (released s dowelIn cref).get F.FA_GSTAT_LAST_RESET = s.get F.FA_GSTAT_LAST_RESET := by
  rw [released, refreshCref_get_low _ _ _ _ (by decide), State.get, atBalls_reg _ _ _ (by decide)]
  exact (enterReset_lastReset s _ _ _).trans (State.get_mod s F.FA_GSTAT_LAST_RESET 0 0)

theorem released_cref (s : State) (dowelIn cref : Bool) {c : Nat} (hc : c < 4) :
    (released s dowelIn cref).get F.CL_STATUS_CREF_OK c = b2n cref ∧
    (cref = false → (released s dowelIn cref).get F.CL_EVENT_CREF_LOST c = 1) := by
  obtain ⟨hok, hlost⟩ := refreshCref_get
    (atBalls (enterReset s (s.get F.FA_GSTAT_LAST_RESET) s.chip.resetZ s.chip.lowRail) dowelIn cref) hc
  rw [atBalls_crefBad, Bool.not_not] at hok
  rw [atBalls_crefBad, Bool.not_eq_true'] at hlost
  exact ⟨hok, hlost⟩

theorem released_rest (s : State) (dowelIn cref : Bool) :
    (released s dowelIn cref).chip.held = false ∧ (released s dowelIn cref).chip.counting = false ∧
    (released s dowelIn cref).cyc = 0 ∧ (released s dowelIn cref).pending = s.pending ∧
    (released s dowelIn cref).locks = 0 ∧ (released s dowelIn cref).otp = s.otp := by
  obtain ⟨hheld, hcounting, hcyc, hpending, hlocks, hotp⟩ :=
    atBalls_rest (enterReset s (s.get F.FA_GSTAT_LAST_RESET) s.chip.resetZ s.chip.lowRail) dowelIn cref
  obtain ⟨hchip, hcyc', hpending', hlocks', hotp'⟩ := refreshCref_rest
    (atBalls (enterReset s (s.get F.FA_GSTAT_LAST_RESET) s.chip.resetZ s.chip.lowRail) dowelIn cref)
  rw [released, hchip, hcyc', hpending', hlocks', hotp', hheld, hcounting, hcyc, hpending, hlocks, hotp,
    enterReset_pending, enterReset_locks, enterReset_otp]
  exact ⟨rfl, rfl, rfl, rfl, rfl, rfl⟩

theorem released_dowel {s : State} (hlow : s.chip.railLow = 0) (hdip : s.chip.railDip = 0) (dowelIn cref : Bool) :
    (released s dowelIn cref).get F.CH_STATUS_DOWEL_IN = b2n dowelIn ∧
    (released s dowelIn cref).get F.CH_STATUS_DOWEL_OUT = (released s dowelIn cref).get F.CH_ADDR_ADDRESSED := by
  unfold released
  rw [refreshCref_get_low _ _ _ _ (by decide), refreshCref_get_low _ _ _ _ (by decide),
    refreshCref_get_low _ _ _ _ (by decide)]
  exact ⟨atBalls_dowelIn _ _ _,
    atBalls_dowelOut ((enterReset_railLow s _ _ _).trans hlow) ((enterReset_railDip s _ _ _).trans hdip) dowelIn cref⟩

/-- Settles O2: POWER_GOOD ends every condition of R55, and the release leaves `released s`. -/
theorem resetRelease : Obligations.ResetRelease := by
  intro s hheld
  refine ⟨powerGood_counts hheld, fun dowelIn cref hcounting hfree hhot hdip hunlock hremap => ?_⟩
  have hlow : s.chip.railLow = 0 := by
    simp only [State.resetHeldBy, Bool.or_eq_false_iff, bne_eq_false_iff_eq] at hfree
    exact hfree.1.1.1
  obtain ⟨hout, hcount, hcyc, hpending, hlocks, hotp⟩ := released_rest s dowelIn cref
  obtain ⟨hdowelIn, hdowelOut⟩ := released_dowel hlow hdip dowelIn cref
  exact ⟨_, exec_internalResetRelease dowelIn cref hheld hcounting hfree hhot hdip hunlock, hout, hcount, hcyc, hpending,
    hlocks, hotp, hdowelIn, fun c hc => released_cref s dowelIn cref hc, hdowelOut, released_lastReset s dowelIn cref,
    fun a ha hl hcref => released_reg s dowelIn cref hremap ha hl hcref⟩

end Sys2Proof.Machine
end

section
/-!
PROOFS. The events of the balls that do not reset the unit (R55, R71, R73, R74, R76, R78, R666).
-/
namespace Sys2Proof.Machine

variable {s : State}

/-! ### A scan of the data register (R73, R74) -/

theorem tapRun_append (s : State) (cs ds : List (Bool × Bool)) : tapRun s (cs ++ ds) = tapRun (tapRun s cs) ds := by
  induction cs generalizing s with
  | nil => rfl
  | cons c cs ih => exact ih _

theorem shiftBits_cons_cons (b c : Bool) (bs : List Bool) :
    shiftBits (b :: c :: bs) = (false, b) :: shiftBits (c :: bs) := rfl

theorem tapClock_shiftDr (s : State) (x : TapX) (d : Bool) (ds : List Bool) (tms tdi : Bool) :
    tapClock { s with chip.tap := { x with st := .shiftDr, dr := d :: ds } } tms tdi =
      { s with chip.tap := { x with st := if tms then .exit1Dr else .shiftDr, dr := ds ++ [tdi], tdo := x.tdo ++ [d] } } := by
  cases tms <;> rfl

/-- Shift-DR over at least one bit: what stood in the register leaves first, then what came in. -/
theorem tapRun_shiftBits (s : State) (x : TapX) (d : Bool) (ds : List Bool) (b : Bool) (bs : List Bool) :
    ∃ dr, tapRun { s with chip.tap := { x with st := .shiftDr, dr := d :: ds } } (shiftBits (b :: bs)) =
      { s with chip.tap := { x with
        st := .exit1Dr, dr := dr, tdo := x.tdo ++ (d :: ds ++ b :: bs).take (b :: bs).length } } := by
  induction bs generalizing b x d ds with
  | nil => exact ⟨_, by rw [shiftBits, tapRun, tapRun, tapClock_shiftDr]; rfl⟩
  | cons c bs ih =>
    obtain ⟨e, es, he⟩ : ∃ e es, ds ++ [b] = e :: es := List.exists_cons_of_ne_nil (by simp)
    obtain ⟨dr, hdr⟩ := ih { x with tdo := x.tdo ++ [d] } e es c
    refine ⟨dr, ?_⟩
    rw [shiftBits_cons_cons, tapRun, tapClock_shiftDr, if_neg Bool.false_ne_true, he]
    have htake : (d :: ds ++ b :: c :: bs).take (b :: c :: bs).length = d :: (e :: es ++ c :: bs).take (c :: bs).length := by
      rw [← he]
      simp
    rw [htake]
    exact hdr.trans (by simp)

/-- From Exit1-DR back to Run-Test/Idle; without an update stage nothing else happens. -/
theorem tapRun_leave (s : State) (x : TapX) (h : tapBoundary x.ir = false) :
    tapRun { s with chip.tap := { x with st := .exit1Dr } } [(true, false), (false, false)] =
      { s with chip.tap := { x with st := .runTestIdle } } := by
  simp [tapRun, tapClock, TapSt.next, h]

/-- An instruction loaded, the controller in Run-Test/Idle. -/
def loaded (s : State) (i : TapInstr) : State :=
  { s with chip.tap := { s.chip.tap with st := .runTestIdle, ir := i, tdo := [] } }

/-- The clocks from Run-Test/Idle through Capture-DR to Shift-DR. -/
def toShiftDr : List (Bool × Bool) := [(true, false), (false, false), (false, false)]

/-- A scan of the data register of an instruction that captures `d :: ds` and has no update stage. -/
theorem exec_drScan {i : TapInstr} {d b : Bool} {ds bs : List Bool} (hi : tapBoundary i = false)
    (hcapture : tapRun (noteTap (loaded s i)) toShiftDr =
      { s with chip.tap := { s.chip.tap with st := .shiftDr, ir := i, dr := d :: ds, tdo := [] } }) :
    ∃ dr, exec (.tapInstruction i (drScan (b :: bs))) s = .next { s with
      chip.tap := { s.chip.tap with
        st := .runTestIdle, ir := i, dr := dr, tdo := (d :: ds ++ b :: bs).take (b :: bs).length } } := by
  obtain ⟨dr, hshift⟩ := tapRun_shiftBits s { s.chip.tap with ir := i, tdo := [] } d ds b bs
  refine ⟨dr, congrArg Host.Outcome.next ?_⟩
  change tapRun (noteTap (loaded s i)) (toShiftDr ++ shiftBits (b :: bs) ++ [(true, false), (false, false)]) = _
  rw [tapRun_append, tapRun_append, hcapture]
  refine (congrArg (fun u => tapRun u [(true, false), (false, false)]) hshift).trans ?_
  exact tapRun_leave s { s.chip.tap with ir := i, dr := dr, tdo := _ } hi

theorem capture_idcode (s : State) : tapRun (noteTap (loaded s .idcode)) toShiftDr =
    { s with chip.tap := { s.chip.tap with
      st := .shiftDr, ir := .idcode, dr := (List.range 32).map fun i => (s.get F.CH_ID_PART).testBit i, tdo := [] } } := by
  simp [noteTap, loaded, State.tapOwns, toShiftDr, tapRun, tapClock, TapSt.next, tapCapture, tapBoundary]

theorem capture_bypass (s : State) : tapRun (noteTap (loaded s .bypass)) toShiftDr =
    { s with chip.tap := { s.chip.tap with st := .shiftDr, ir := .bypass, dr := [false], tdo := [] } } := by
  simp [noteTap, loaded, State.tapOwns, toShiftDr, tapRun, tapClock, TapSt.next, tapCapture, tapBoundary]

theorem idcode_scan (s : State) {tdi : List Bool} (hlen : tdi.length = 32) :
    Gives (.tapInstruction .idcode (drScan tdi)) s fun t =>
      t.chip.tap.tdo = (List.range 32).map (fun i => (s.get F.CH_ID_PART).testBit i) ∧ t.chip.tap.st = .runTestIdle ∧
      t = { s with chip.tap := t.chip.tap } := by
  obtain ⟨b, bs, rfl⟩ : ∃ b bs, tdi = b :: bs := List.exists_cons_of_length_pos (by omega)
  obtain ⟨d, ds, hid⟩ : ∃ d ds, (List.range 32).map (fun i => (s.get F.CH_ID_PART).testBit i) = d :: ds := ⟨_, _, rfl⟩
  obtain ⟨dr, hexec⟩ := exec_drScan (b := b) (bs := bs) rfl ((capture_idcode s).trans (by rw [hid]))
  refine ⟨_, hexec, ?_, rfl, rfl⟩
  have hwidth : (b :: bs).length = (d :: ds).length := by rw [hlen, ← hid]; simp
  rw [hid]
  exact (congrArg (fun n => (d :: ds ++ b :: bs).take n) hwidth).trans List.take_left

theorem bypass_scan (s : State) {tdi : List Bool} (hne : tdi ≠ []) :
    Gives (.tapInstruction .bypass (drScan tdi)) s fun t =>
      t.chip.tap.tdo = false :: tdi.dropLast ∧ t = { s with chip.tap := t.chip.tap } := by
  obtain ⟨b, bs, rfl⟩ := List.exists_cons_of_ne_nil hne
  obtain ⟨dr, hexec⟩ := exec_drScan (b := b) (bs := bs) rfl (capture_bypass s)
  refine ⟨_, hexec, ?_, rfl⟩
  rw [List.dropLast_eq_take]
  simp

/-- TAP_INSTRUCTION without further clocks (R73, R76). -/
theorem noteTap_loaded (s : State) (i : TapInstr) : noteTap (loaded s i) = { s with chip := { s.chip with
    tap := { s.chip.tap with st := .runTestIdle, ir := i, tdo := [] }
    tapUsed := s.chip.tapUsed || decide (i ∈ [.extest, .extestPulse, .extestTrain, .clamp, .highz]) } } := by
  cases i <;> simp [noteTap, loaded, State.tapOwns]

/-! ### An occurrence raised leaves the supplies as they are -/

@[simp] theorem logPush_chip (s : State) (kind subj detail : Nat) (inj esc : Bool) :
    (logPush s kind subj detail inj esc).chip = s.chip := by
  have hecc : ∀ (t : State) a, (eccWritten t a).chip = t.chip := fun _ _ => rfl
  unfold logPush
  dsimp only
  split
  · rw [State.bumpSat_chip, hecc, hecc, State.put_chip, State.put_chip, State.put_chip, State.put_chip, State.put_chip]
  · rw [hecc, hecc, State.put_chip, State.put_chip, State.put_chip, State.put_chip, State.put_chip]

@[simp] theorem aliveStop_chip (s : State) (z : Nat) (inj esc : Bool) : (aliveStop s z inj esc).chip = s.chip := by
  unfold aliveStop
  split
  · rw [logPush_chip]
    rfl
  · rfl

@[simp] theorem fetchAt_chip (s : State) (n off : Nat) : (fetchAt s n off).chip = s.chip := rfl

@[simp] theorem trapCores_chip (s : State) : (trapCores s).chip = s.chip := by
  refine forN_keeps (fun t => t.chip = s.chip) 5 _ (fun n _ t ht => ?_) _ rfl
  split
  · rw [fetchAt_chip, ht]
  · exact ht

@[simp] theorem askReset_railDip (s : State) (code z : Nat) : (askReset s code z).chip.railDip = s.chip.railDip := by
  unfold askReset
  split
  · split <;> rfl
  · rfl

/-- The reactions of a source that no block owns, which BLOCK_RST does not concern, do not touch the supplies. -/
theorem react_railDip {z : Nat} (hz : ownerBlock z = none) (s : State) (rx : Nat) (forced inj esc : Bool) :
    (react s z rx forced inj esc).chip.railDip = s.chip.railDip := by
  simp only [react, hz]
  split_ifs <;> simp

theorem raise_railDip {z : Nat} (hz : ownerBlock z = none) (h8 : z ≠ 8) (s : State) (info : Nat) (inj : Bool) :
    (raise s z info inj).chip.railDip = s.chip.railDip := by
  have hsrc : (z == 8 && !inj) = false := by simp [h8]
  simp only [raise, hsrc, Bool.false_eq_true, if_false]
  split
  · rfl
  · split
    · rw [react_railDip hz]; simp
    · rw [react_railDip hz]; simp; split <;> simp

@[simp] theorem settle_railDip (s : State) : (settle s).chip.railDip = s.chip.railDip := by
  unfold settle
  split
  · rfl
  · exact enterReset_railDip _ _ _ _

/-! ### Level conditions (R666) -/

theorem raiseLevel_of_on {z : Nat} (h : s.fa.level.testBit z = true) (info : Nat) : raiseLevel s z info = s := if_pos h

theorem raiseLevel_of_off {z : Nat} (h : s.fa.level.testBit z = false) (info : Nat) :
    raiseLevel s z info = raise { s with fa.level := s.fa.level ||| 2 ^ z } z info := by
  rw [raiseLevel, h, if_neg Bool.false_ne_true]

theorem raiseLevel_railDip {z : Nat} (hz : ownerBlock z = none) (h8 : z ≠ 8) (s : State) (info : Nat) :
    (raiseLevel s z info).chip.railDip = s.chip.railDip := by
  unfold raiseLevel
  split
  · rfl
  · rw [raise_railDip hz h8]

/-! ### A supply below its tolerance (R78) -/

/-- The unit with rail `rail` below its tolerance: without VDD_IO33 DOWEL_OUT is low (R58). -/
def dipped (s : State) (rail : Fin 7) : State :=
  let d : State := { s with chip.railDip := s.chip.railDip ||| 2 ^ rail.val }
  if rail = 4 then d.driveDowel 0 else d

theorem dipped_chip (s : State) (rail : Fin 7) :
    (dipped s rail).chip = { s.chip with railDip := s.chip.railDip ||| 2 ^ rail.val } := by
  unfold dipped
  split <;> rfl

theorem dipped_fa (s : State) (rail : Fin 7) : (dipped s rail).fa = s.fa := by
  unfold dipped
  split <;> rfl

theorem dipped_dowelOut (s : State) : (dipped s 4).get F.CH_STATUS_DOWEL_OUT = 0 := by
  have hzero : ∀ t : State, (if t.ioDip then 0 else 0) = 0 := fun t => ite_self 0
  rw [dipped, if_pos rfl, State.driveDowel, hzero, State.get_put _ _ _ _ _ (by decide), Nat.zero_mod]

theorem exec_supplyDip (ha : s.Awake) {rail : Fin 7} (hlow : s.chip.railLow.testBit rail.val = false) :
    exec (.supplyDip rail) s = .next (settle (raiseLevel (dipped s rail) 17 rail.val)) := by
  have hnotLow : ¬ s.chip.railLow.testBit rail.val = true := by simp [hlow]
  have hout : ¬ s.chip.held = true := by simp [ha.1]
  have h4 : (rail = 4) = (rail.val = 4) := by rw [Fin.ext_iff]; rfl
  refine congrArg Host.Outcome.next ((if_neg hnotLow).trans ((if_neg hout).trans ?_))
  simp only [dipped, h4]

/-- SUPPLY_DIP (R78, R666). -/
theorem supplyDip_raises (ha : s.Awake) {rail : Fin 7} (hlow : s.chip.railLow.testBit rail.val = false) :
    Gives (.supplyDip rail) s fun t =>
      (s.fa.level.testBit 17 = true → t = dipped s rail) ∧
      (s.fa.level.testBit 17 = false →
        t = settle (raise { dipped s rail with fa.level := s.fa.level ||| 2 ^ 17 } 17 rail.val)) ∧
      (rail = 4 → t.ioDip = true ∧ (dipped s rail).get F.CH_STATUS_DOWEL_OUT = 0) := by
  have hlevel : (dipped s rail).fa.level = s.fa.level := by rw [dipped_fa]
  have hdue : (dipped s rail).chip.resetDue = none := by rw [dipped_chip]; exact ha.2
  have hdip : (settle (raiseLevel (dipped s rail) 17 rail.val)).chip.railDip = s.chip.railDip ||| 2 ^ rail.val := by
    rw [settle_railDip, raiseLevel_railDip rfl (by decide), dipped_chip]
  refine ⟨_, exec_supplyDip ha hlow, fun hon => ?_, fun hoff => ?_, ?_⟩
  · rw [raiseLevel_of_on (hlevel ▸ hon), settle_of_none hdue]
  · rw [raiseLevel_of_off (hlevel ▸ hoff), hlevel]
  · rintro rfl
    refine ⟨?_, dipped_dowelOut s⟩
    have hfour : (2 ^ (4 : Fin 7).val : Nat).testBit 4 = true := by decide
    have hbit : (s.chip.railDip ||| 2 ^ (4 : Fin 7).val).testBit 4 = true := by
      rw [Nat.testBit_or, hfour, Bool.or_true]
    rw [State.ioDip, hdip, hbit, Bool.true_or]

/-! ### The die temperature (R71) -/

theorem tempHigh_raises (ha : s.Awake) {tenths : Nat} (hhot : 1150 ≤ tenths) : Gives (.tempHigh tenths) s fun t =>
    (s.fa.level.testBit 16 = true → t = { s with chip.hot := some tenths }) ∧
    (s.fa.level.testBit 16 = false → t = settle (raise { s with
      chip.hot := some tenths, fa.level := s.fa.level ||| 2 ^ 16 } 16 tenths)) := by
  have hexec : exec (.tempHigh tenths) s = .next (settle (raiseLevel { s with chip.hot := some tenths } 16 tenths)) := by
    simp only [exec, execTempHigh, hhot, ha.1, Bool.false_eq_true, if_true, if_false]
  refine ⟨_, hexec, fun hon => ?_, fun hoff => ?_⟩
  · rw [raiseLevel_of_on (s := { s with chip.hot := some tenths }) hon, settle_of_none (t := { s with chip.hot := some tenths }) ha.2]
  · rw [raiseLevel_of_off (s := { s with chip.hot := some tenths }) hoff]

/-! ### The end of a level condition (R666, R698) -/

/-- Only source `z`'s condition has ended. -/
theorem testBit_endLevel (s : State) (z y : Fin 23) :
    (endLevel s z.val).fa.level.testBit y.val = (s.fa.level.testBit y.val && decide (y ≠ z)) := by
  have hmask : (2 ^ 23 - 1 - 2 ^ z.val).testBit y.val = decide (y ≠ z) := by
    rw [show 2 ^ 23 - 1 - 2 ^ z.val = 2 ^ 23 - (2 ^ z.val + 1) by omega,
      Nat.testBit_two_pow_sub_succ (Nat.pow_lt_pow_right (by decide) z.isLt), Nat.testBit_two_pow]
    simp [y.isLt, Fin.ext_iff, eq_comm]
  simp only [endLevel, Nat.testBit_and, hmask]

/-- What LEVEL_CONDITION_END makes of the unit beside the level itself. -/
def conditionEnded (s : State) (z : Fin 23) : State :=
  if z.val = 16 then { s with chip.hot := none }
  else if z.val = 22 then { s with chip.unlock := false }
  else if z.val = 17 then
    let s : State := { s with chip.railDip := 0 }
    if s.chip.held then s else s.driveDowel (s.get F.CH_ADDR_ADDRESSED)
  else s

theorem exec_levelConditionEnd (s : State) (z : Fin 23) :
    exec (.levelConditionEnd z) s = .next (conditionEnded (endLevel s z.val) z) := rfl

/-- It touches the conditions of sources 16, 17 and 22, and DOWEL_OUT. -/
theorem conditionEnded_eq (s : State) (z : Fin 23) : conditionEnded s z = { s with
    chip := { s.chip with
      hot := (conditionEnded s z).chip.hot
      railDip := (conditionEnded s z).chip.railDip
      unlock := (conditionEnded s z).chip.unlock }
    regs := (conditionEnded s z).regs } := by
  unfold conditionEnded
  dsimp only
  split_ifs <;> rfl

theorem conditionEnded_regs (s : State) {z : Fin 23} (hz : z ≠ 17) : (conditionEnded s z).regs = s.regs := by
  have h17 : ¬ z.val = 17 := fun h => hz (Fin.ext h)
  unfold conditionEnded
  split_ifs <;> rfl

theorem conditionEnded_kept (s : State) (z : Fin 23) : RegsKept [F.CH_STATUS_DOWEL_OUT.at] s (conditionEnded s z) := by
  unfold conditionEnded
  dsimp only
  split_ifs
  case neg => exact regsKept_put (s := { s with chip.railDip := 0 }) (List.mem_singleton.mpr rfl)
  all_goals exact RegsKept.refl s

theorem conditionEnded_railDip (s : State) : (conditionEnded s 17).chip.railDip = 0 := by
  change (if s.chip.held then ({ s with chip.railDip := 0 } : State)
    else ({ s with chip.railDip := 0 } : State).driveDowel (s.get F.CH_ADDR_ADDRESSED)).chip.railDip = 0
  split <;> rfl

/-- The supplies are back in tolerance: DOWEL_OUT goes to the addressing state again (R58). -/
theorem conditionEnded_dowelOut (hheld : s.chip.held = false) (hlow : s.chip.railLow = 0) :
    (conditionEnded s 17).get F.CH_STATUS_DOWEL_OUT = s.get F.CH_ADDR_ADDRESSED := by
  have hio : ({ s with chip.railDip := 0 } : State).ioDip = false := by simp [State.ioDip, hlow]
  have hended : conditionEnded s 17 = ({ s with chip.railDip := 0 } : State).driveDowel (s.get F.CH_ADDR_ADDRESSED) := by
    simp only [conditionEnded, hheld]
    rfl
  rw [hended, State.driveDowel, hio, if_neg Bool.false_ne_true, State.get_put _ _ _ _ _ (by decide)]
  exact State.get_mod s F.CH_ADDR_ADDRESSED 0 0

theorem levelConditionEnd_ends (s : State) (z : Fin 23) : Gives (.levelConditionEnd z) s fun t =>
    t.fa.level.testBit z.val = false ∧ (∀ y : Fin 23, y ≠ z → t.fa.level.testBit y.val = s.fa.level.testBit y.val) ∧
    t = { s with fa.level := t.fa.level, chip := t.chip, regs := t.regs } ∧
    t.chip = { s.chip with hot := t.chip.hot, railDip := t.chip.railDip, unlock := t.chip.unlock } ∧ (z ≠ 17 → t.regs = s.regs) ∧
    RegsKept [F.CH_STATUS_DOWEL_OUT.at] s t ∧
    (z = 22 → t.chip.unlock = false) ∧ (z = 17 → t.chip.railDip = 0 ∧ (s.chip.held = false → s.chip.railLow = 0 →
      t.get F.CH_STATUS_DOWEL_OUT = s.get F.CH_ADDR_ADDRESSED)) := by
  have hended := conditionEnded_eq (endLevel s z.val) z
  have hlevel : (conditionEnded (endLevel s z.val) z).fa = (endLevel s z.val).fa := by rw [hended]
  refine ⟨_, exec_levelConditionEnd s z, ?_, fun y hy => ?_, ?_, ?_, fun hz => ?_, ?_, ?_, ?_⟩
  · rw [hlevel, testBit_endLevel]; simp
  · rw [hlevel, testBit_endLevel]; simp [hy]
  · rw [hended]; rfl
  · rw [hended]; rfl
  · exact conditionEnded_regs _ hz
  · exact conditionEnded_kept (endLevel s z.val) z
  · rintro rfl; rfl
  · rintro rfl
    exact ⟨conditionEnded_railDip (endLevel s 17),
      fun hheld hlow => conditionEnded_dowelOut (s := endLevel s 17) hheld hlow⟩

/-! ### A change of DOWEL_IN (R90, R114) -/

/-- The state with the level `level` behind the filter, before UPSTREAM_DROP is judged. -/
theorem exec_dowelInChange (s : State) (level : Bool) : exec (.dowelInChange level) s = act s
    (if s.on F.CH_STATUS_DOWEL_IN && !level && addressed s then
      (s.put F.CH_STATUS_DOWEL_IN (b2n level)).raiseBit F.CH_STATUS_UPSTREAM_DROP
    else s.put F.CH_STATUS_DOWEL_IN (b2n level)) := by
  have haddr : (s.put F.CH_STATUS_DOWEL_IN (b2n level)).on F.CH_ADDR_ADDRESSED = addressed s :=
    congrArg (· != 0) (State.get_put_otherReg s _ _ _ _ _ _ _ (by decide))
  rw [← haddr]
  rfl

theorem dowelInChange_filtered (ha : s.Awake) (level : Bool) : Gives (.dowelInChange level) s fun t =>
    t.get F.CH_STATUS_DOWEL_IN = b2n level ∧
    (s.on F.CH_STATUS_DOWEL_IN = true → level = false → addressed s = true → t.get F.CH_STATUS_UPSTREAM_DROP = 1) ∧
    (s.on F.CH_STATUS_DOWEL_IN = false ∨ level = true ∨ addressed s = false →
      t.get F.CH_STATUS_UPSTREAM_DROP = s.get F.CH_STATUS_UPSTREAM_DROP) ∧
    Only [F.CH_STATUS_DOWEL_IN.at, F.CH_STATUS_UPSTREAM_DROP.at] s t := by
  have hput : (s.put F.CH_STATUS_DOWEL_IN (b2n level)).get F.CH_STATUS_DOWEL_IN = b2n level :=
    State.get_put_bit s _ _ _ _ (by decide) (by decide)
  have honly : Only [F.CH_STATUS_DOWEL_IN.at, F.CH_STATUS_UPSTREAM_DROP.at] s (s.put F.CH_STATUS_DOWEL_IN (b2n level)) :=
    only_put (by simp)
  have hexec := exec_dowelInChange s level
  by_cases hdrop : (s.on F.CH_STATUS_DOWEL_IN && !level && addressed s) = true
  · rw [if_pos hdrop] at hexec
    refine gives_of_act ha hexec ha.2 ⟨?_, fun _ _ _ => State.get_raiseBit _ _ _ _ (by decide) (by decide), fun hno => ?_,
      honly.trans (only_raiseBit (by simp))⟩
    · rw [State.raiseBit, State.get_put_ne _ _ _ _ _ _ _ _ (.inr (by decide)), hput]
    · simp only [Bool.and_eq_true, Bool.not_eq_true'] at hdrop
      obtain ⟨⟨hon, hlevel⟩, haddr⟩ := hdrop
      simp [hon, hlevel, haddr] at hno
  · rw [if_neg hdrop] at hexec
    refine gives_of_act ha hexec ha.2 ⟨hput, fun hon hlevel haddr => absurd ?_ hdrop, fun _ => ?_, honly⟩
    · rw [hon, hlevel, haddr]
      rfl
    · exact State.get_put_ne _ _ _ _ _ _ _ _ (.inr (by decide))

/-- Settles O3: the test port by running its controller, the supplies and the temperature by the level sources they raise. -/
theorem ballEvents : Obligations.BallEvents := by
  intro s
  exact ⟨⟨_, rfl, rfl⟩, fun i => ⟨_, congrArg Host.Outcome.next (noteTap_loaded s i), rfl⟩,
    fun tdi hlen => idcode_scan s hlen, fun tdi hne => bypass_scan s hne, fun ha rail hlow => supplyDip_raises ha hlow,
    fun ha tenths hhot => tempHigh_raises ha hhot, levelConditionEnd_ends s,
    fun ha level => dowelInChange_filtered ha level⟩

end Sys2Proof.Machine
end

section
/-!
PROOFS. The state after reset (R55, R185).

CREFCLK is there at the release that `State.reset` stands for, so CREF_OK of every client reads 1, and CL_STATUS is listed in its
register store with a word that is not its reset word: `Obligations.ResetIsSound` excepts TG_HASH_OWN alone and fails on these
four registers.  All else that it says holds.
-/
namespace Sys2Proof.Machine

theorem reset_canon : State.reset.Canon := by
  have hregs : State.reset.regsWf := by
    unfold State.regsWf
    decide +kernel
  exact ⟨hregs, SMap.wf_nil portDflt, reset_memories⟩

/-- Every register but TG_HASH_OWN and CL_STATUS of the four clients reads its reset word. -/
theorem reset_reg {a : Nat} (hhash : a ≠ F.TG_HASH_OWN_HASH.addr) (hclient : ∀ c, c < 4 → a ≠ F.CL_STATUS_CREF_OK.addr c) :
    State.reset.reg a = resetWord a := by
  have h0 := hclient 0 (by decide)
  have h1 := hclient 1 (by decide)
  have h2 := hclient 2 (by decide)
  have h3 := hclient 3 (by decide)
  simp only [F.TG_HASH_OWN_HASH, F.CL_STATUS_CREF_OK, Field.addr] at hhash h0 h1 h2 h3
  simp only [State.reg, State.reset, SMap.get]
  rw [if_neg (by omega), if_neg (by omega), if_neg (by omega), if_neg (by omega), if_neg (by omega)]

/-- What `Obligations.ResetIsSound` says, with CL_STATUS of the clients excepted too. -/
theorem reset_sound :
    State.reset.Canon ∧ State.reset.Awake ∧ State.reset.pending = [] ∧ State.reset.locks = 0 ∧
    (∀ a, a ≠ 0x400B0004 → (∀ c, c < 4 → a ≠ F.CL_STATUS_CREF_OK.addr c) → State.reset.reg a = resetWord a) ∧
    State.reset.get F.TG_HASH_OWN_HASH = uidHash State.reset.otp.uid :=
  ⟨reset_canon, ⟨rfl, rfl⟩, rfl, rfl, fun _ => reset_reg, by decide +kernel⟩

/-- CREF_OK of client 0 reads 1 after reset; no reset value is stated for it, so the register's reset word is 0. -/
theorem reset_clStatus : State.reset.reg 0x40080014 = 4 ∧ resetWord 0x40080014 = 0 := by decide +kernel

/-- Refutes O60: CL_STATUS[0] reads 4 in `State.reset`, and its reset word is 0. With CL_STATUS excepted beside TG_HASH_OWN the
statement holds (`reset_sound`). -/
theorem not_resetIsSound : ¬ Obligations.ResetIsSound := by
  intro h
  obtain ⟨-, -, -, -, hregs, -⟩ := h
  obtain ⟨hreads, hreset⟩ := reset_clStatus
  have h40 : (4 : Word) = 0 := hreads.symm.trans ((hregs 0x40080014 (by decide)).trans hreset)
  exact absurd h40 (by decide)

end Sys2Proof.Machine
end

section
/-!
PROOFS. The frame a port sends: which ports send one, and its overhead words (R256, R259, R281, R283, R287, R289, R290, R299, R310,
Table 8.2).
-/
namespace Sys2Proof.Machine

variable {s t : State} {p : Nat}

/-! ### Which ports send (R76, R256, R259) -/

theorem sendsFrames_iff (s : State) (p : Nat) : sendsFrames s p = true ↔
    s.get F.LP_STATUS_STATE p = 2 ∧ s.get F.LP_PRBS_GEN p = 0 ∧ s.get F.LP_CTRL_LOOPBACK p ≠ 2 ∧ s.tapOwns = false := by
  simp [sendsFrames, portRunning, and_assoc]

theorem exec_transmitFrameStart_sent (ha : s.Awake) {p : Fin 16} {phase : Fin 12800} (h : sendsFrames s p = true) :
    exec (.transmitFrameStart p phase) s = .next (settle (frameSent s p phase)) :=
  (congrArg (act s) (if_pos h)).trans (act_of_awake ha)

theorem exec_transmitFrameStart_silent (ha : s.Awake) {p : Fin 16} {phase : Fin 12800} (h : ¬ sendsFrames s p = true) :
    exec (.transmitFrameStart p phase) s = .next s :=
  (congrArg (act s) (if_neg h)).trans (act_next ha ha.2)

/-! ### The parts of the overhead have their lengths (Table 8.2) -/

theorem todOut_length (s : State) (p m phase : Nat) : (todOut s p m phase).2.length = 3 := by
  simp only [todOut]
  split <;> simp

theorem mcWords_length (s : State) (p : Nat) : (mcWords s p).2.length = 8 := by
  unfold mcWords
  dsimp only
  split
  · simp
  · split <;> simp

theorem creditWords_length (s : State) (p : Nat) (all : List (Nat × Nat × Nat)) : (creditWords s p all).2.length = 4 := by
  simp [creditWords]

/-- The overhead of a frame: the words 0 to 12 that the statements speak of, then the time-of-day words, the management chunk, the
credits and the version. -/
theorem txOverhead_words (s : State) (p phase ver : Nat) : ∃ (w6 : LineWord) (tod mc cr : List LineWord),
    tod.length = 3 ∧ mc.length = 8 ∧ cr.length = 4 ∧
    (txOverhead s p phase ver).2 = [BitVec.ofNat 16 (startNominal (portRate s p)), 0x7E36,
      BitVec.ofNat 16 (if (s.portX p).alignInj = 0 then 0x81C9 else 0x81C9 ^^^ 0xFFFF),
      BitVec.ofNat 16 (s.get F.LF_NOW_S / 2 ^ 16), BitVec.ofNat 16 (s.get F.LF_NOW_S),
      BitVec.ofNat 16 (b2n (s.get F.LF_NUM_STATUS_STATE != 1) * 2 ^ 15 + s.get F.LF_NOW_F), w6,
      BitVec.ofNat 16 (bipOut s p), BitVec.ofNat 16 (b2n (s.portX p).rdi * 2 ^ 15 + min 16 (s.portX p).reiAcc),
      BitVec.ofNat 16 (portQl s p / 2 ^ 16), BitVec.ofNat 16 (portQl s p),
      BitVec.ofNat 16 (protOut s p / 2 ^ 16), BitVec.ofNat 16 (protOut s p)] ++ tod ++ mc ++ cr ++ [BitVec.ofNat 16 ver, 0, 0, 0] := by
  have hrate : ∀ (u : State) (x : Nat), u.get F.LP_CTRL_RATE p = s.get F.LP_CTRL_RATE p →
      portRate (u.put F.LF_PSTATUS_INJ_BUSY x p) p = portRate s p := by
    intro u x hu
    refine (State.get_put_otherReg _ _ _ _ _ _ _ _ ?_).trans hu
    simp only [F.LP_CTRL_RATE, F.LF_PSTATUS_INJ_BUSY, Field.addr]
    omega
  simp only [txOverhead]
  rw [hrate]
  · exact ⟨_, _, _, _, todOut_length _ _ _ _, mcWords_length _ _, creditWords_length _ _ _, rfl⟩
  · rw [State.modPort_get]
    split <;> rfl

/-! ### What the overhead takes from the port's record -/

/-- The bit errors that REI reports have been taken, and the transmitter no longer starts afresh. -/
def Reported (p : Nat) (t : State) : Prop := (t.portX p).reiAcc = 0 ∧ (t.portX p).txFresh = false

theorem Reported.of_port {u : State} (h : Reported p t) (e : u.port = t.port) : Reported p u := by
  rw [Reported, State.portX, e]
  exact h

theorem Reported.modPort (h : Reported p t) {g : PortX → PortX}
    (hg : ∀ x, (g x).reiAcc = x.reiAcc ∧ (g x).txFresh = x.txFresh) : Reported p (t.modPort p g) := by
  obtain ⟨hrei, hfresh⟩ := hg (t.portX p)
  rw [Reported, State.portX_modPort, hrei, hfresh]
  exact h

theorem todOut_reported (h : Reported p t) (m phase : Nat) : Reported p (todOut t p m phase).1 := by
  simp only [todOut]
  split
  · exact h.modPort fun _ => ⟨rfl, rfl⟩
  · exact h

theorem mcStart_reported (h : Reported p t) : Reported p (mcStart t p) := by
  unfold mcStart
  dsimp only
  split
  · exact h.modPort fun _ => ⟨rfl, rfl⟩
  · exact h

theorem mcWords_reported (h : Reported p t) : Reported p (mcWords t p).1 := by
  have hstart := mcStart_reported h
  unfold mcWords
  dsimp only
  split
  · exact h
  · split
    next => exact hstart
    next =>
      split
      all_goals
        refine Reported.of_port (t := (mcStart t p).modPort p fun x => { x with mcTx := _ }) (hstart.modPort ?_) rfl
        exact fun _ => ⟨rfl, rfl⟩

theorem creditWords_reported (h : Reported p t) (all : List (Nat × Nat × Nat)) : Reported p (creditWords t p all).1 := by
  refine forList_keeps (Reported p) _ _ (fun e _ u hu => ?_) t h
  refine Reported.modPort ?_ fun _ => ⟨rfl, rfl⟩
  split <;> exact hu

theorem txOverhead_reported (s : State) (p phase ver : Nat) : Reported p (txOverhead s p phase ver).1 := by
  refine creditWords_reported (mcWords_reported (todOut_reported ?_ _ _)) _
  rw [Reported, State.portX_put, State.portX_modPort]
  exact ⟨rfl, rfl⟩

/-! ### The words -/

theorem startWord (s : State) (p : Nat) : (BitVec.ofNat 16 (startNominal (portRate s p))).toNat =
    if s.get F.LP_CTRL_RATE p = 3 then 0xA55A else 0xBCB5 := by
  unfold startNominal portRate
  split <;> rfl

/-- An injected alignment error inverts word 2 (R310). -/
theorem alignWord (n : Nat) : (BitVec.ofNat 16 (if n = 0 then 0x81C9 else 0x81C9 ^^^ 0xFFFF)).toNat =
    if n = 0 then 0x81C9 else 0x7E36 := by
  split <;> rfl

theorem numberWords (s : State) :
    (BitVec.ofNat 16 (s.get F.LF_NOW_S / 2 ^ 16)).toNat * 2 ^ 16 + (BitVec.ofNat 16 (s.get F.LF_NOW_S)).toNat = s.get F.LF_NOW_S := by
  have hlt : s.get F.LF_NOW_S < 2 ^ 32 := State.get_lt s F.LF_NOW_S 0 0
  rw [BitVec.toNat_ofNat, BitVec.toNat_ofNat]
  omega

/-- A flag in bit 15 over a number of 15 bits is a line word. -/
theorem flagWord (b : Bool) {n : Nat} (h : n < 2 ^ 15) : (BitVec.ofNat 16 (b2n b * 2 ^ 15 + n)).toNat = b2n b * 2 ^ 15 + n := by
  rw [BitVec.toNat_ofNat]
  refine Nat.mod_eq_of_lt ?_
  cases b <;> simp only [b2n] <;> omega

theorem bipOut_of_running (hfresh : (s.portX p).txFresh = false) (hinj : (s.portX p).bipInj = 0) :
    bipOut s p = (s.portX p).txBip := by
  simp [bipOut, hfresh, hinj, b2n]

/-- Word 28, behind the parts of 3, 8 and 4 words. -/
theorem versionWord {hd tod mc cr : List LineWord} (hh : hd.length = 13) (ht : tod.length = 3) (hm : mc.length = 8)
    (hc : cr.length = 4) (w : LineWord) (rest : List LineWord) : wordAt (hd ++ tod ++ mc ++ cr ++ w :: rest) 28 = w.toNat := by
  have hlen : (hd ++ tod ++ mc ++ cr).length = 28 := by simp [hh, ht, hm, hc]
  rw [wordAt, List.getD_eq_getElem?_getD, List.getElem?_append_right (by omega), hlen]
  rfl

/-- Settles O24: the ports that send by `sendsFrames_iff`, the words by `txOverhead_words`. -/
theorem frameOverhead : Obligations.FrameOverhead := by
  intro s p
  refine ⟨fun phase ha => ⟨fun hrun hgen hloop htap => ?sent, fun hno => ?silent⟩, fun phase ver ws hws hnow => ?words⟩
  case sent =>
    exact ⟨_, exec_transmitFrameStart_sent ha ((sendsFrames_iff s p).mpr ⟨hrun, hgen, hloop, htap⟩), rfl⟩
  case silent =>
    refine ⟨_, exec_transmitFrameStart_silent ha fun hsends => ?_, rfl⟩
    obtain ⟨hrun, hgen, hloop, htap⟩ := (sendsFrames_iff s p).mp hsends
    simp [hrun, hgen, hloop, htap] at hno
  case words =>
    obtain ⟨hrei, hfresh⟩ := txOverhead_reported s p phase ver
    obtain ⟨w6, tod, mc, cr, ht, hm, hc, hlist⟩ := txOverhead_words s p phase ver
    subst hws
    rw [hlist]
    refine ⟨by simp [ht, hm, hc], startWord s p, rfl, alignWord _, numberWords s, flagWord _ hnow, fun hrun hinj => ?_,
      flagWord _ (by omega), ?_, hrei, hfresh⟩
    · exact (BitVec.toNat_ofNat _ _).trans (congrArg (· % 2 ^ 16) (bipOut_of_running hrun hinj))
    · rw [versionWord rfl ht hm hc, BitVec.toNat_ofNat]

end Sys2Proof.Machine
end

section
/-!
PROOFS. The frame finder and what LF keeps of a frame received in SYNC (R76, R285, R297, R298, R299, R303, Tables 8.5, 8.6).
-/
namespace Sys2Proof.Machine

variable {s t u : State} {p : Nat} {fs : List (Nat × Nat × Nat)}

/-! ### What the receiver of one port changes -/

/-- The registers of `receiverFields`. -/
def receiverRegs : List Field :=
  [F.LP_STATUS, F.LP_EVENT, F.LP_EYE_BITS, F.LP_EYE_ERR, F.LP_MOD_STAT, F.LF_PSTATUS, F.LF_PEVENT, F.LF_RX_NUM_F, F.LF_RX_PHASE,
    F.LF_FRAMING_CNT, F.LF_MC_CNT, F.TG_REF_STAT, F.TG_REF_FREQ]

theorem receiverFields_eq (p : Nat) : receiverFields p = receiverRegs.map fun g => g.word p := rfl

theorem PortOnly.refl (p : Nat) (fs : List (Nat × Nat × Nat)) (s : State) : PortOnly p fs s s :=
  ⟨rfl, fun _ _ => rfl, RegsKept.refl s⟩

theorem PortOnly.trans (h : PortOnly p fs s t) (k : PortOnly p fs t u) : PortOnly p fs s u := by
  obtain ⟨ht, htport, htregs⟩ := h
  obtain ⟨hu, huport, huregs⟩ := k
  refine ⟨?_, fun q hq => (huport q hq).trans (htport q hq), htregs.trans huregs⟩
  rw [hu, ht]

theorem PortOnly.chip (h : PortOnly p fs s t) : t.chip = s.chip := by rw [h.1]

theorem PortOnly.put_of_mem (h : PortOnly p fs s t) {f g : Field} {v : Nat} (hg : g.word p ∈ receiverFields p ++ fs)
    (hf : f.base = g.base ∧ f.s1 = g.s1 ∧ f.lo + f.w ≤ 32) : PortOnly p fs s (t.put f v p) := by
  obtain ⟨hbase, hstride, hwidth⟩ := hf
  have haddr : f.addr p = g.addr p := by simp only [Field.addr, hbase, hstride, Nat.mul_zero]
  exact h.trans ⟨rfl, fun _ _ => rfl, regsKept_put_word hg haddr hwidth⟩

/-- A field of a receiver register written. -/
theorem PortOnly.put (h : PortOnly p fs s t) (g : Field) {f : Field} {v : Nat} (hg : g ∈ receiverRegs := by decide)
    (hf : f.base = g.base ∧ f.s1 = g.s1 ∧ f.lo + f.w ≤ 32 := by decide) : PortOnly p fs s (t.put f v p) :=
  have hmem : g.word p ∈ receiverFields p := by
    rw [receiverFields_eq]
    exact List.mem_map_of_mem (f := fun g => g.word p) hg
  h.put_of_mem (List.mem_append_left _ hmem) hf

theorem PortOnly.modPort (h : PortOnly p fs s t) (g : PortX → PortX) : PortOnly p fs s (t.modPort p g) :=
  h.trans ⟨rfl, fun _ hq => State.portX_modPort_other _ _ hq, RegsKept.of_regs rfl⟩

theorem PortOnly.mcDrop (h : PortOnly p fs s t) : PortOnly p fs s (mcDrop t p) :=
  ((h.modPort _).put F.LF_MC_CNT).put F.LF_PEVENT

theorem PortOnly.mcDiscard (h : PortOnly p fs s t) : PortOnly p fs s (mcDiscard t p) := by
  unfold Machine.mcDiscard
  split
  · exact h
  · exact h.mcDrop

theorem PortOnly.toOom (h : PortOnly p fs s t) : PortOnly p fs s (toOom t p) := by
  unfold Machine.toOom
  refine PortOnly.modPort (PortOnly.put (PortOnly.put ?_ F.LF_PSTATUS) F.LF_RX_NUM_F) _
  split
  · exact h.put F.LF_PEVENT
  · exact h

theorem PortOnly.finderHunt (h : PortOnly p fs s t) (counted : Bool) : PortOnly p fs s (finderHunt t p counted) := by
  have hhunt := (h.put F.LF_PSTATUS (f := F.LF_PSTATUS_FSTATE) (v := 0)).put F.LF_PSTATUS (f := F.LF_PSTATUS_E) (v := 0)
  unfold Machine.finderHunt
  dsimp only
  split
  · refine (PortOnly.mcDiscard (PortOnly.toOom (PortOnly.put ?_ F.LF_RX_PHASE))).modPort _
    split
    · exact (hhunt.put F.LF_FRAMING_CNT).put F.LF_PEVENT
    · exact hhunt
  · exact hhunt

theorem PortOnly.candFollow (h : PortOnly p fs s t) (valid : Bool) : PortOnly p fs s (candFollow t p valid) := by
  unfold Machine.candFollow
  split
  · exact h
  · split
    · exact ((h.put F.TG_REF_STAT).put F.TG_REF_FREQ).trans ⟨rfl, fun _ _ => rfl, RegsKept.of_regs rfl⟩
    · exact h.put F.TG_REF_STAT

theorem PortOnly.refreshRclk (h : PortOnly p fs s t) : PortOnly p fs s (refreshRclk t p) :=
  (h.put F.LP_STATUS).candFollow _

theorem PortOnly.syncLost (h : PortOnly p fs s t) : PortOnly p fs s (syncLost t p) := by
  unfold Machine.syncLost
  dsimp only
  split
  · exact ((((h.put F.LP_STATUS).put F.LP_EVENT).finderHunt true).modPort _).refreshRclk
  · exact h

/-- The synchronisation machine holds, gains or loses CODE_SYNC (R247). -/
theorem PortOnly.codeSync (h : PortOnly p fs s t) (holds : Bool) : PortOnly p fs s
    (if holds then (if t.on F.LP_STATUS_CODE_SYNC p then t else Machine.refreshRclk (t.put F.LP_STATUS_CODE_SYNC 1 p) p)
      else Machine.syncLost t p) := by
  split
  · split
    · exact h
    · exact PortOnly.refreshRclk (h.put F.LP_STATUS)
  · exact h.syncLost

theorem PortOnly.hiBer (h : PortOnly p fs s t) (rate v : Nat) :
    PortOnly p fs s (if rate = 3 then t.put F.LP_STATUS_HI_BER v p else t) := by
  split
  · exact h.put F.LP_STATUS
  · exact h

/-! ### Receiving does not change the port's rate -/

/-- The code units of a port move its receiver's registers and its count of violations. -/
theorem codeIn_portOnly (s : State) (p : Nat) (us : List CodeUnit) : PortOnly p [F.LP_CV_CNT.word p] s (codeIn s p us).1 := by
  have hcount : ∀ y n, PortOnly p [F.LP_CV_CNT.word p] s
      ((s.modPort p fun x => { x with rxCode := y }).bumpSat F.LP_CV_CNT n p) := fun y n =>
    ((PortOnly.refl p _ s).modPort _).put_of_mem (g := F.LP_CV_CNT) (by simp) (by decide)
  unfold codeIn
  split
  · exact PortOnly.refl _ _ _
  · exact ((hcount _ _).hiBer _ _).codeSync _

theorem loopedBack_regs (s : State) (p : Nat) (us : List Nat) : (loopedBack s p us).regs = s.regs := by
  unfold loopedBack
  split <;> rfl

theorem unitsReceived_kept (s : State) (p : Nat) (us : List CodeUnit) :
    RegsKept (receiverFields p ++ [F.LP_CV_CNT.word p]) s (unitsReceived s p us) := by
  obtain ⟨-, -, hkept⟩ := codeIn_portOnly s p us
  unfold unitsReceived
  dsimp only
  split
  · exact hkept
  · refine hkept.trans (RegsKept.of_regs ?_)
    unfold pmCv
    split <;> rfl

theorem frameIn_kept (s : State) (p : Nat) (f : LineIn) :
    RegsKept (receiverFields p ++ [F.LP_CV_CNT.word p]) s (frameIn s p f).1 := by
  have hsent : ∀ us : List Nat, RegsKept (receiverFields p ++ [F.LP_CV_CNT.word p]) s
      (if us.isEmpty then s else loopedBack s p us) := by
    intro us
    split
    · exact RegsKept.refl s
    · exact RegsKept.of_regs (loopedBack_regs s p us)
  unfold frameIn
  dsimp only
  split
  · exact hsent _
  · exact (unitsReceived_kept s p _).trans (RegsKept.of_regs (loopedBack_regs _ p _))

theorem frameIn_rate (s : State) (p : Fin 16) (f : LineIn) : portRate (frameIn s p f).1 p = portRate s p := by
  refine (frameIn_kept s p f).get F.LP_CTRL_RATE p 0 ?_
  revert p
  decide

/-! ### Fields of one port that share no bit -/

/-- Fields `g` and `f` share no bit at any port: other bits, another register of the port's window, or a register that no port's
window holds. -/
def apart (g f : Field) : Bool :=
  Nat.ble (g.lo + g.w) f.lo || Nat.ble (f.lo + f.w) g.lo || (g.s1 == f.s1 && g.base != f.base) ||
    (g.s1 == 0 && Nat.blt g.base f.base)

/-- The places of some fields at port `p`. -/
def placesAt (gs : List Field) (p : Nat) : List (Nat × Nat × Nat) := gs.map fun g => g.at p

theorem at_mem_placesAt {gs : List Field} {g : Field} (h : g ∈ gs) (p : Nat) : g.at p ∈ placesAt gs p :=
  List.mem_map_of_mem (f := fun g => g.at p) h

theorem RegsKept.get_apart {gs : List Field} (h : RegsKept (placesAt gs p) s t) (f : Field)
    (hf : gs.all (fun g => apart g f) = true) : t.get f p = s.get f p := by
  refine h.get f p 0 fun x hx => ?_
  obtain ⟨g, hg, rfl⟩ := List.mem_map.mp hx
  have hapart := List.all_eq_true.mp hf g hg
  simp only [apart, Bool.or_eq_true, Bool.and_eq_true, Nat.ble_eq, Nat.blt_eq, beq_iff_eq, bne_iff_ne] at hapart
  simp only [Field.at, Field.addr, Nat.mul_zero, Nat.add_zero]
  rcases hapart with ((hlo | hhi) | ⟨hstride, hbase⟩) | ⟨hstride, hbase⟩
  · exact .inr (.inl hlo)
  · exact .inr (.inr hhi)
  · exact .inl (by rw [hstride]; omega)
  · exact .inl (by rw [hstride, Nat.zero_mul]; omega)

theorem get_put_apart (s : State) {g f : Field} (v p : Nat) (h : apart g f = true) : (s.put g v p).get f p = s.get f p :=
  RegsKept.get_apart (gs := [g]) (regsKept_put (List.mem_singleton.mpr rfl)) f (by simp [h])

theorem get_raiseBit_apart (s : State) {g f : Field} (p : Nat) (h : apart g f = true) : (s.raiseBit g p).get f p = s.get f p :=
  get_put_apart s 1 p h

theorem get_bumpSat_apart (s : State) {g f : Field} (k p : Nat) (h : apart g f = true) :
    (s.bumpSat g k p).get f p = s.get f p := get_put_apart s _ p h

theorem get_put_same (s : State) (f : Field) {v : Nat} (p : Nat) (hw : f.lo + f.w ≤ 32) (hv : v < 2 ^ f.w) :
    (s.put f v p).get f p = v := by
  rw [State.get_put _ _ _ _ _ hw, Nat.mod_eq_of_lt hv]

/-- A counter of 16 bits stops at 65,535. -/
theorem get_bumpSat_one (s : State) {f : Field} (p : Nat) (hf : f.lo + f.w ≤ 32 ∧ f.w = 16) :
    (s.bumpSat f 1 p).get f p = min (s.get f p + 1) 65535 := by
  obtain ⟨hw, h16⟩ := hf
  refine (State.get_put _ _ _ _ _ hw).trans ?_
  rw [satAdd, h16]
  exact Nat.mod_eq_of_lt (by omega)

/-! ### The frame finder (Table 8.5) -/

section
variable (hpre : s.get F.LF_PSTATUS_FSTATE p = 1)
include hpre

theorem finderAt_presync_errored : finderAt s p false = s.put F.LF_PSTATUS_FSTATE 0 p := by simp [finderAt, hpre]

theorem finderAt_presync_aligned :
    finderAt s p true = ((s.put F.LF_PSTATUS_FSTATE 2 p).put F.LF_PSTATUS_E 0 p).raiseBit F.LF_PEVENT_IN_FRAME p := by
  simp [finderAt, hpre]

end

section
variable (hsync : s.get F.LF_PSTATUS_FSTATE p = 2)
include hsync

theorem finderAt_sync_aligned : finderAt s p true = s.put F.LF_PSTATUS_E 0 p := by simp [finderAt, portInSync, hsync]

theorem finderAt_sync_errored (he : s.get F.LF_PSTATUS_E p < 3) : finderAt s p false =
    (s.bumpSat F.LF_FRAMING_CNT_ALIGN_ERR 1 p).put F.LF_PSTATUS_E (s.get F.LF_PSTATUS_E p + 1) p := by
  simp [finderAt, portInSync, hsync, he]

theorem finderAt_sync_lost (he : s.get F.LF_PSTATUS_E p = 3) :
    finderAt s p false = finderHunt (s.bumpSat F.LF_FRAMING_CNT_ALIGN_ERR 1 p) p true := by
  simp [finderAt, portInSync, hsync, he]

end

theorem mcDiscard_kept (s : State) (p : Nat) :
    RegsKept (placesAt [F.LF_MC_CNT_DROPS, F.LF_PEVENT_MC_DROP] p) s (mcDiscard s p) := by
  unfold mcDiscard
  split
  · exact RegsKept.refl s
  · have hmod := RegsKept.of_regs (fs := placesAt [F.LF_MC_CNT_DROPS, F.LF_PEVENT_MC_DROP] p)
      (State.modPort_regs s p fun x => { x with mcRx := none })
    exact (hmod.trans (regsKept_bumpSat (at_mem_placesAt (by decide) p))).trans
      (regsKept_raiseBit (at_mem_placesAt (by decide) p))

theorem toOom_kept (s : State) (p : Nat) :
    RegsKept (placesAt [F.LF_PEVENT_IM_LOST, F.LF_PSTATUS_IM, F.LF_RX_NUM_F_VALID] p) s (toOom s p) := by
  have hput : ∀ t : State, RegsKept (placesAt [F.LF_PEVENT_IM_LOST, F.LF_PSTATUS_IM, F.LF_RX_NUM_F_VALID] p) t
      ((t.put F.LF_PSTATUS_IM 0 p).put F.LF_RX_NUM_F_VALID 0 p) := fun t =>
    (regsKept_put (at_mem_placesAt (by decide) p)).trans (regsKept_put (at_mem_placesAt (by decide) p))
  unfold toOom
  refine RegsKept.trans ?_ (RegsKept.of_regs (State.modPort_regs _ _ _))
  split
  · exact (regsKept_raiseBit (at_mem_placesAt (by decide) p)).trans (hput _)
  · exact hput s

theorem toOom_im (s : State) (p : Nat) : (toOom s p).get F.LF_PSTATUS_IM p = 0 := by
  unfold toOom
  rw [State.modPort_get, get_put_apart _ _ _ (by decide), get_put_same _ _ _ (by decide) (by decide)]

/-- From SYNC the finder falls to HUNT: out of frame is counted, and the multiframe machine leaves IM (Table 8.5). -/
theorem finderHunt_lost (hsync : s.get F.LF_PSTATUS_FSTATE p = 2) :
    (finderHunt s p true).get F.LF_PSTATUS_FSTATE p = 0 ∧ (finderHunt s p true).get F.LF_PSTATUS_IM p = 0 ∧
    (finderHunt s p true).get F.LF_PEVENT_OOF p = 1 ∧
    (finderHunt s p true).get F.LF_FRAMING_CNT_ALIGN_ERR p = s.get F.LF_FRAMING_CNT_ALIGN_ERR p ∧
    (finderHunt s p true).get F.LF_FRAMING_CNT_OOF_EVENTS p = min (s.get F.LF_FRAMING_CNT_OOF_EVENTS p + 1) 65535 := by
  have hwas : portInSync s p = true := by simp [portInSync, hsync]
  simp only [finderHunt, hwas, if_true, State.modPort_get]
  generalize hw : ((s.put F.LF_PSTATUS_FSTATE 0 p).put F.LF_PSTATUS_E 0 p) = w
  have htail := fun (f : Field) (hf : ([F.LF_MC_CNT_DROPS, F.LF_PEVENT_MC_DROP].all fun g => apart g f) = true) (t : State) =>
    (mcDiscard_kept t p).get_apart f hf
  have hoom := fun (f : Field) (hf : ([F.LF_PEVENT_IM_LOST, F.LF_PSTATUS_IM, F.LF_RX_NUM_F_VALID].all fun g => apart g f) = true)
    (t : State) => (toOom_kept t p).get_apart f hf
  refine ⟨?_, ?_, ?_, ?_, ?_⟩
  · rw [htail _ (by decide), hoom _ (by decide), get_put_apart _ _ _ (by decide), get_raiseBit_apart _ _ (by decide),
      get_bumpSat_apart _ _ _ (by decide), ← hw, get_put_apart _ _ _ (by decide), get_put_same _ _ _ (by decide) (by decide)]
  · rw [htail _ (by decide), toOom_im]
  · rw [htail _ (by decide), hoom _ (by decide), get_put_apart _ _ _ (by decide),
      State.get_raiseBit _ _ _ _ (by decide) (by decide)]
  · rw [htail _ (by decide), hoom _ (by decide), get_put_apart _ _ _ (by decide), get_raiseBit_apart _ _ (by decide),
      get_bumpSat_apart _ _ _ (by decide), ← hw, get_put_apart _ _ _ (by decide), get_put_apart _ _ _ (by decide)]
  · rw [htail _ (by decide), hoom _ (by decide), get_put_apart _ _ _ (by decide), get_raiseBit_apart _ _ (by decide),
      get_bumpSat_one _ _ (by decide), ← hw, get_put_apart _ _ _ (by decide), get_put_apart _ _ _ (by decide)]

/-! ### Trace, time-of-day message and management chunk of a received frame -/

/-- Word `j` of the accepted trace of a port. -/
def traceField (j : Nat) : Field := { F.LF_RX_TRACE with base := F.LF_RX_TRACE.base + 4 * j }

/-- The fields in which trace, time-of-day message, management channel and the numbering source's error show. -/
def messageFields : List Field :=
  [F.LF_PEVENT_TRACE_NEW, F.LF_PSTATUS_TRACE_VALID, F.DM_PRAW, F.LF_PEVENT_TOD_ERR, F.LF_MC_CNT_MSGS, F.LF_MC_CNT_DROPS,
    F.LF_PEVENT_MC_DROP, F.LF_NUM_STATUS_SRC_GOOD, F.LF_NUM_ERR] ++ (List.range 16).map traceField

/-- Only those fields differ, and port `p` keeps its label. -/
structure Messaged (p : Nat) (s t : State) : Prop where
  regs : RegsKept (placesAt messageFields p) s t
  label : (t.portX p).label = (s.portX p).label

theorem Messaged.refl (p : Nat) (s : State) : Messaged p s s := ⟨RegsKept.refl s, rfl⟩

theorem Messaged.put_at (h : Messaged p s t) {f : Field} {v i j : Nat} (hf : f.at i j ∈ placesAt messageFields p) :
    Messaged p s (t.put f v i j) := ⟨h.regs.trans (regsKept_put hf), h.label⟩

theorem Messaged.put (h : Messaged p s t) {f : Field} {v : Nat} (hf : f ∈ messageFields := by decide) :
    Messaged p s (t.put f v p) := h.put_at (at_mem_placesAt hf p)

theorem Messaged.modPort (h : Messaged p s t) {g : PortX → PortX}
    (hg : ∀ x, (g x).label = x.label := by exact fun _ => rfl) :
    Messaged p s (t.modPort p g) := by
  refine ⟨h.regs.trans (RegsKept.of_regs rfl), ?_⟩
  rw [State.portX_modPort, hg, h.label]

theorem Messaged.timAccept (h : Messaged p s t) : Messaged p s (timAccept t p) := by
  unfold Machine.timAccept
  split
  · exact h.put
  · exact h

theorem Messaged.traceAccept (h : Messaged p s t) : Messaged p s (traceAccept t p) := by
  have hword : ∀ j < 16, F.LF_RX_TRACE.at p j ∈ placesAt messageFields p := by
    intro j hj
    have hat : F.LF_RX_TRACE.at p j = (traceField j).at p := by
      simp only [Field.at, Field.addr, traceField, F.LF_RX_TRACE, Prod.mk.injEq, and_true]
      omega
    rw [hat]
    exact at_mem_placesAt (List.mem_append_right _ (List.mem_map_of_mem (List.mem_range.mpr hj))) p
  have hwords : ∀ (new : List Byte) (u : State), Messaged p s u →
      Messaged p s (forN 16 (fun j u => u.put F.LF_RX_TRACE (leAt new (4 * j) 4) p j) u) := fun new u hu =>
    forN_keeps (Messaged p s) 16 _ (fun j hj _ ht => ht.put_at (hword j hj)) u hu
  unfold Machine.traceAccept
  split
  · refine Messaged.timAccept (Messaged.put (hwords _ _ ?_))
    split
    · exact h.put
    · exact h
  · exact h

theorem Messaged.traceTake (h : Messaged p s t) (l : Nat × Nat) (w : Nat) : Messaged p s (traceTake t p l w) := by
  unfold Machine.traceTake
  dsimp only
  generalize (if l.2 % 250 = 0 then [] else (t.portX p).traceBuf) = buf
  split
  · exact h
  · split
    · exact h.modPort
    · split
      · exact h.modPort
      · exact Messaged.traceAccept h.modPort

theorem Messaged.todDrop (h : Messaged p s t) (l : Nat × Nat) : Messaged p s (todDrop t p l) := by
  unfold Machine.todDrop
  split
  · split
    · exact h.modPort
    · exact h
  · exact h

theorem Messaged.todTake (h : Messaged p s t) (m : Nat) (ws : List LineWord) : Messaged p s (todTake t p m ws) := by
  unfold Machine.todTake
  dsimp only
  generalize (if m = 0 then [] else (t.portX p).todBuf) = buf
  split
  · exact h
  · split
    · exact h.modPort
    · split
      · exact h.modPort
      · split
        · exact h.modPort.modPort
        · exact Messaged.put h.modPort

theorem Messaged.mcDrop (h : Messaged p s t) : Messaged p s (mcDrop t p) :=
  Messaged.put (Messaged.put h.modPort)

theorem Messaged.mcAccept (h : Messaged p s t) : Messaged p s (mcAccept t p) := by
  unfold Machine.mcAccept
  split
  · exact Messaged.put h.modPort
  · exact Messaged.mcDrop h.modPort
  · exact h

theorem Messaged.mcTake (h : Messaged p s t) (hdr : Nat) (data : List Byte) : Messaged p s (mcTake t p hdr data) := by
  have hcomplete : ∀ (u : State) (m : McMsg), Messaged p s u →
      Messaged p s (Machine.mcAccept (u.modPort p fun x => { x with mcRx := none, mcFull := some m }) p) :=
    fun u m hu => Messaged.mcAccept hu.modPort
  have hstart : ∀ (u : State) (c d : Bool) (m : McMsg) (r : Nat × Nat × List Byte), Messaged p s u → Messaged p s
      (if c then (if d then Machine.mcAccept (u.modPort p fun x => { x with mcRx := none, mcFull := some m }) p
        else u.modPort p fun x => { x with mcRx := some r }) else u) := by
    intro u c d m r hu
    split
    · split
      · exact hcomplete u m hu
      · exact hu.modPort
    · exact hu
  unfold Machine.mcTake
  dsimp only
  split
  · exact h.modPort
  · split
    · exact hstart t _ _ _ _ h
    · split
      · exact hstart _ _ _ _ _ h.mcDrop
      · split
        · exact hcomplete t _ h
        · exact h.modPort

theorem Messaged.refreshNumErr (h : Messaged p s t) : Messaged p s (refreshNumErr t) := by
  have hfields : F.LF_NUM_STATUS_SRC_GOOD.at ∈ placesAt messageFields p ∧ F.LF_NUM_ERR.at ∈ placesAt messageFields p := by
    simp [placesAt, messageFields, Field.at, Field.addr, F.LF_NUM_STATUS_SRC_GOOD, F.LF_NUM_ERR]
  exact (h.put_at hfields.1).put_at hfields.2

/-! ### What LF keeps of a received frame (R298, R303, R309) -/

/-- The frame finder at a frame, and the frame put in the port's record. -/
def frameNoted (s : State) (p : Nat) (start : Bool) (ws : List LineWord) (phase : Nat) : State :=
  let s := finderAt s p (aligned start ws)
  let at_ := s.frameTotal * 1280000 + phase * 100
  s.modPort p fun x => { x with
    rxOld := if x.rxGood then ((x.rxAt, x.rxWords) :: x.rxOld).take 3 else x.rxOld
    rxWords := ws, rxAt := at_, rxGood := portInSync s p
    rxSeen := x.rxSeen || portInSync s p }

/-- The multiframe machine on the frame's number, and the frame in which it came. -/
def frameNumbered (s : State) (p : Nat) (ws : List LineWord) : State :=
  let s := multiframe s p (numberOf ws)
  let s : State := { s with tg.seen := s.tg.seen ||| 2 ^ p }
  s.modPort p fun x => { x with rxTotal := s.frameTotal }

/-- The registers that show the frame's phase, its NV and, with a label, its number. -/
def numberShown (s : State) (p : Nat) (ws : List LineWord) (phase : Nat) (label : Option (Nat × Nat)) : State :=
  let s := (s.put F.LF_RX_PHASE_VALID 1 p).put F.LF_RX_PHASE_PHASE phase p
  let s := s.put F.LF_RX_NUM_F_NV (nvOf ws) p
  match label with
  | none => s.put F.LF_RX_NUM_F_VALID 0 p
  | some l =>
    (((s.put F.LF_RX_NUM_S l.1 p).put F.LF_RX_NUM_F_F l.2 p).put F.LF_RX_NUM_F_VALID 1 p).put F.LF_RX_OFS
      (ofsWord (offsetFrom s l 0 phase)) p

/-- The registers that show its overhead words. -/
def overheadShown (s : State) (p : Nat) (ws : List LineWord) : State :=
  let s := ((s.put F.LF_RX_MISC_SMV (wordAt ws 28) p).put F.LF_RX_MISC_RDI (wordAt ws 8 / 2 ^ 15) p).put
    F.LF_RX_MISC_REI (reiOf ws) p
  (s.put F.LF_RX_QL (wordAt ws 9 * 2 ^ 16 + wordAt ws 10) p).put F.LF_RX_PROT (wordAt ws 11 * 2 ^ 16 + wordAt ws 12) p

/-- Its trace word, time-of-day words and management chunk taken in. -/
def messagesTaken (s : State) (p : Nat) (ws : List LineWord) (label : Option (Nat × Nat)) : State :=
  let s := match label with
    | none => s
    | some l => todTake (traceTake (todDrop s p l) p l (wordAt ws 6)) p (l.2 % 250) ws
  let s := mcTake s p (wordAt ws 16) (bytesHighFirst ((List.range 7).map fun i => wordAt ws (17 + i)))
  if s.num.src = p then refreshNumErr s else s

/-- A frame received in SYNC, taken in whole: `n` is the port with the frame noted. -/
def frameKept (n : State) (p : Nat) (ws : List LineWord) (phase : Nat) : State :=
  let label := ((multiframe n p (numberOf ws)).portX p).label
  messagesTaken (overheadShown (numberShown (frameNumbered n p ws) p ws phase label) p ws) p ws label

theorem lfReceive_eq (s : State) (p : Nat) (start : Bool) (ws : List LineWord) (phase : Nat) :
    lfReceive s p start ws phase = if !portInSync (frameNoted s p start ws phase) p then frameNoted s p start ws phase
      else frameKept (frameNoted s p start ws phase) p ws phase := rfl

theorem Messaged.messagesTaken (h : Messaged p s t) (ws : List LineWord) (label : Option (Nat × Nat)) :
    Messaged p s (messagesTaken t p ws label) := by
  have htaken : Messaged p s (match label with
      | none => t
      | some l => Machine.todTake (Machine.traceTake (Machine.todDrop t p l) p l (wordAt ws 6)) p (l.2 % 250) ws) := by
    split
    · exact h
    · exact ((h.todDrop _).traceTake _ _).todTake _ _
  have hrefreshed : ∀ u, Messaged p s u → Messaged p s (if u.num.src = p then Machine.refreshNumErr u else u) := by
    intro u hu
    split
    · exact hu.refreshNumErr
    · exact hu
  exact hrefreshed _ (htaken.mcTake _ _)

/-! #### Numbers and labels (Table 8.6) -/

theorem multiframe_kept (s : State) (p : Nat) (n : Option (Nat × Nat)) :
    RegsKept (placesAt [F.LF_PEVENT_IM_LOST, F.LF_PSTATUS_IM, F.LF_RX_NUM_F_VALID] p) s (multiframe s p n) := by
  unfold multiframe
  refine RegsKept.trans ?_ (RegsKept.of_regs (State.modPort_regs _ _ _))
  split
  · split
    · exact toOom_kept s p
    · dsimp only
      split_ifs
      · exact RegsKept.of_regs rfl
      · exact RegsKept.of_regs rfl
      · exact toOom_kept s p
  · split
    · split
      · exact (regsKept_put (at_mem_placesAt (by decide) p)).trans (RegsKept.of_regs rfl)
      · exact RegsKept.refl s
    · exact RegsKept.refl s

/-- In IM, the number that is expected moves the label to it. -/
theorem multiframe_label {l : Nat × Nat} (him : s.get F.LF_PSTATUS_IM p = 1) (hl : (s.portX p).label = some l) :
    ((multiframe s p (some (nextNum l))).portX p).label = some (nextNum l) := by
  have hon : s.on F.LF_PSTATUS_IM p = true := by simp [State.on, him]
  simp only [multiframe, hon, hl, if_true, State.portX_modPort]

/-! #### Which registers show what -/

/-- The fields that show phase and number of a received frame. -/
def numberFields : List Field :=
  [F.LF_RX_PHASE_VALID, F.LF_RX_PHASE_PHASE, F.LF_RX_NUM_F_NV, F.LF_RX_NUM_F_VALID, F.LF_RX_NUM_S, F.LF_RX_NUM_F_F, F.LF_RX_OFS]

/-- The fields that show its overhead words. -/
def overheadFields : List Field :=
  [F.LF_RX_MISC_SMV, F.LF_RX_MISC_RDI, F.LF_RX_MISC_REI, F.LF_RX_QL, F.LF_RX_PROT]

theorem put_kept {gs : List Field} (h : RegsKept (placesAt gs p) s t) {f : Field} {v : Nat} (hf : f ∈ gs) :
    RegsKept (placesAt gs p) s (t.put f v p) := h.trans (regsKept_put (at_mem_placesAt hf p))

theorem frameNumbered_kept (s : State) (p : Nat) (ws : List LineWord) :
    RegsKept (placesAt [F.LF_PEVENT_IM_LOST, F.LF_PSTATUS_IM, F.LF_RX_NUM_F_VALID] p) s (frameNumbered s p ws) :=
  (multiframe_kept s p (numberOf ws)).trans (RegsKept.of_regs rfl)

theorem numberShown_kept (s : State) (p : Nat) (ws : List LineWord) (phase : Nat) (label : Option (Nat × Nat)) :
    RegsKept (placesAt numberFields p) s (numberShown s p ws phase label) := by
  have hphase : RegsKept (placesAt numberFields p) s
      (((s.put F.LF_RX_PHASE_VALID 1 p).put F.LF_RX_PHASE_PHASE phase p).put F.LF_RX_NUM_F_NV (nvOf ws) p) :=
    put_kept (put_kept (put_kept (RegsKept.refl s) (by decide)) (by decide)) (by decide)
  unfold numberShown
  dsimp only
  split
  · exact put_kept hphase (by decide)
  · exact put_kept (put_kept (put_kept (put_kept hphase (by decide)) (by decide)) (by decide)) (by decide)

theorem overheadShown_kept (s : State) (p : Nat) (ws : List LineWord) :
    RegsKept (placesAt overheadFields p) s (overheadShown s p ws) :=
  put_kept (put_kept (put_kept (put_kept (put_kept (RegsKept.refl s) (by decide)) (by decide)) (by decide)) (by decide)) (by decide)

theorem numberShown_phase (s : State) (p : Nat) (ws : List LineWord) {phase : Nat} (hphase : phase < 2 ^ 14)
    (label : Option (Nat × Nat)) : (numberShown s p ws phase label).get F.LF_RX_PHASE_PHASE p = phase := by
  have hput := get_put_same (s.put F.LF_RX_PHASE_VALID 1 p) F.LF_RX_PHASE_PHASE p (by decide) hphase
  unfold numberShown
  dsimp only
  split
  · rw [get_put_apart _ _ _ (by decide), get_put_apart _ _ _ (by decide), hput]
  · rw [get_put_apart _ _ _ (by decide), get_put_apart _ _ _ (by decide), get_put_apart _ _ _ (by decide),
      get_put_apart _ _ _ (by decide), get_put_apart _ _ _ (by decide), hput]

theorem numberShown_nv (s : State) (p : Nat) (ws : List LineWord) (phase : Nat) (label : Option (Nat × Nat)) :
    (numberShown s p ws phase label).get F.LF_RX_NUM_F_NV p = wordAt ws 5 / 2 ^ 15 := by
  have hnv : nvOf ws < 2 ^ 1 := by
    have hword : wordAt ws 5 < 2 ^ 16 := BitVec.isLt _
    unfold nvOf
    omega
  have hput := fun t : State => get_put_same t F.LF_RX_NUM_F_NV p (by decide) hnv
  unfold numberShown
  dsimp only
  split
  · rw [get_put_apart _ _ _ (by decide), hput, nvOf]
  · rw [get_put_apart _ _ _ (by decide), get_put_apart _ _ _ (by decide), get_put_apart _ _ _ (by decide),
      get_put_apart _ _ _ (by decide), hput, nvOf]

theorem reiOf_lt (ws : List LineWord) : reiOf ws < 2 ^ 5 := by
  unfold reiOf
  dsimp only
  split <;> omega

/-- The overhead words as the registers show them. -/
theorem overheadShown_get (s : State) (p : Nat) (ws : List LineWord) :
    (overheadShown s p ws).get F.LF_RX_QL p = wordAt ws 9 * 2 ^ 16 + wordAt ws 10 ∧
    (overheadShown s p ws).get F.LF_RX_PROT p = wordAt ws 11 * 2 ^ 16 + wordAt ws 12 ∧
    (overheadShown s p ws).get F.LF_RX_MISC_SMV p = wordAt ws 28 % 256 ∧
    (overheadShown s p ws).get F.LF_RX_MISC_RDI p = wordAt ws 8 / 2 ^ 15 ∧
    (overheadShown s p ws).get F.LF_RX_MISC_REI p = reiOf ws := by
  have hword : ∀ i, wordAt ws i < 2 ^ 16 := fun i => BitVec.isLt _
  have hpair : ∀ i j, wordAt ws i * 2 ^ 16 + wordAt ws j < 2 ^ 32 := fun i j => by
    have hi := hword i
    have hj := hword j
    omega
  have hrdi : wordAt ws 8 / 2 ^ 15 < 2 ^ 1 := by
    have h8 := hword 8
    omega
  unfold overheadShown
  refine ⟨?_, ?_, ?_, ?_, ?_⟩
  · rw [get_put_apart _ _ _ (by decide), get_put_same _ _ _ (by decide) (hpair 9 10)]
  · rw [get_put_same _ _ _ (by decide) (hpair 11 12)]
  · rw [get_put_apart _ _ _ (by decide), get_put_apart _ _ _ (by decide), get_put_apart _ _ _ (by decide),
      get_put_apart _ _ _ (by decide), State.get_put _ _ _ _ _ (by decide)]
    rfl
  · rw [get_put_apart _ _ _ (by decide), get_put_apart _ _ _ (by decide), get_put_apart _ _ _ (by decide),
      get_put_same _ _ _ (by decide) hrdi]
  · rw [get_put_apart _ _ _ (by decide), get_put_apart _ _ _ (by decide), get_put_same _ _ _ (by decide) (reiOf_lt ws)]

/-! ### The finder keeps or enters SYNC -/

/-- The finder comes to SYNC at a frame or stays in it: an aligned frame, or an errored one with E below 3 (Table 8.5). -/
def Synchronises (s : State) (p : Nat) (correct : Bool) : Prop :=
  s.get F.LF_PSTATUS_FSTATE p = 1 ∧ correct = true ∨
    s.get F.LF_PSTATUS_FSTATE p = 2 ∧ (correct = true ∨ s.get F.LF_PSTATUS_E p < 3)

theorem finderAt_label {correct : Bool} (h : Synchronises s p correct) :
    ((finderAt s p correct).portX p).label = (s.portX p).label := by
  obtain ⟨hpre, rfl⟩ | ⟨hsync, hkeep⟩ := h
  · rw [finderAt_presync_aligned hpre]
    rfl
  · cases correct with
    | true =>
      rw [finderAt_sync_aligned hsync]
      rfl
    | false =>
      rw [finderAt_sync_errored hsync (hkeep.resolve_left Bool.false_ne_true)]
      rfl

theorem finderAt_synchronises {correct : Bool} (h : Synchronises s p correct) :
    (finderAt s p correct).get F.LF_PSTATUS_FSTATE p = 2 ∧
    (finderAt s p correct).get F.LF_PSTATUS_E p = (if correct then 0 else s.get F.LF_PSTATUS_E p + 1) ∧
    (s.get F.LF_PSTATUS_FSTATE p = 1 → (finderAt s p correct).get F.LF_PEVENT_IN_FRAME p = 1) ∧
    (s.get F.LF_PSTATUS_FSTATE p = 2 → (finderAt s p correct).get F.LF_PSTATUS_IM p = s.get F.LF_PSTATUS_IM p) := by
  obtain ⟨hpre, rfl⟩ | ⟨hsync, hkeep⟩ := h
  · rw [finderAt_presync_aligned hpre]
    refine ⟨?_, ?_, fun _ => State.get_raiseBit _ _ _ _ (by decide) (by decide), fun h2 => ?_⟩
    · rw [get_raiseBit_apart _ _ (by decide), get_put_apart _ _ _ (by decide), get_put_same _ _ _ (by decide) (by decide)]
    · rw [get_raiseBit_apart _ _ (by decide), get_put_same _ _ _ (by decide) (by decide), if_pos rfl]
    · omega
  · cases correct with
    | true =>
      rw [finderAt_sync_aligned hsync]
      refine ⟨?_, ?_, fun h1 => ?_, fun _ => get_put_apart _ _ _ (by decide)⟩
      · rw [get_put_apart _ _ _ (by decide), hsync]
      · rw [get_put_same _ _ _ (by decide) (by decide), if_pos rfl]
      · omega
    | false =>
      have he := hkeep.resolve_left Bool.false_ne_true
      have hnext : s.get F.LF_PSTATUS_E p + 1 < 2 ^ F.LF_PSTATUS_E.w :=
        Nat.lt_of_lt_of_le (Nat.succ_lt_succ he) (by decide)
      rw [finderAt_sync_errored hsync he]
      refine ⟨?_, ?_, fun h1 => ?_, fun _ => ?_⟩
      · rw [get_put_apart _ _ _ (by decide), get_bumpSat_apart _ _ _ (by decide), hsync]
      · rw [get_put_same _ _ _ (by decide) hnext, if_neg Bool.false_ne_true]
      · omega
      · rw [get_put_apart _ _ _ (by decide), get_bumpSat_apart _ _ _ (by decide)]

/-! ### The frame kept -/

/-- The messages leave what number and overhead show. -/
theorem frameKept_get_shown (n : State) (p : Nat) (ws : List LineWord) (phase : Nat) {f : Field}
    (hf : messageFields.all (fun g => apart g f) = true) : (frameKept n p ws phase).get f p =
      (overheadShown (numberShown (frameNumbered n p ws) p ws phase
        ((multiframe n p (numberOf ws)).portX p).label) p ws).get f p :=
  ((Messaged.refl p _).messagesTaken ws ((multiframe n p (numberOf ws)).portX p).label).regs.get_apart f hf

/-- What neither number, overhead nor messages show stays as the finder left it. -/
theorem frameKept_get_finder (n : State) (p : Nat) (ws : List LineWord) (phase : Nat) {f : Field}
    (hf : ([F.LF_PEVENT_IM_LOST, F.LF_PSTATUS_IM, F.LF_RX_NUM_F_VALID] ++ numberFields ++ overheadFields ++ messageFields).all
      (fun g => apart g f) = true) : (frameKept n p ws phase).get f p = n.get f p := by
  rw [List.all_append, List.all_append, List.all_append, Bool.and_eq_true, Bool.and_eq_true, Bool.and_eq_true] at hf
  obtain ⟨⟨⟨hnumbered, hnumber⟩, hoverhead⟩, hmessage⟩ := hf
  rw [frameKept_get_shown _ _ _ _ hmessage, (overheadShown_kept _ _ _).get_apart f hoverhead,
    (numberShown_kept _ _ _ _ _).get_apart f hnumber, (frameNumbered_kept _ _ _).get_apart f hnumbered]

theorem frameKept_phase (n : State) (p : Nat) (ws : List LineWord) {phase : Nat} (hphase : phase < 2 ^ 14) :
    (frameKept n p ws phase).get F.LF_RX_PHASE_PHASE p = phase := by
  rw [frameKept_get_shown _ _ _ _ (by decide), (overheadShown_kept _ _ _).get_apart _ (by decide),
    numberShown_phase _ _ _ hphase]

theorem frameKept_nv (n : State) (p : Nat) (ws : List LineWord) (phase : Nat) :
    (frameKept n p ws phase).get F.LF_RX_NUM_F_NV p = wordAt ws 5 / 2 ^ 15 := by
  rw [frameKept_get_shown _ _ _ _ (by decide), (overheadShown_kept _ _ _).get_apart _ (by decide), numberShown_nv]

theorem numberShown_portX (s : State) (p : Nat) (ws : List LineWord) (phase : Nat) (label : Option (Nat × Nat)) :
    (numberShown s p ws phase label).portX p = s.portX p := by
  unfold numberShown
  dsimp only
  split
  · rw [State.portX_put, State.portX_put, State.portX_put, State.portX_put]
  · rw [State.portX_put, State.portX_put, State.portX_put, State.portX_put, State.portX_put, State.portX_put, State.portX_put]

theorem overheadShown_portX (s : State) (p : Nat) (ws : List LineWord) :
    (overheadShown s p ws).portX p = s.portX p := by
  rw [overheadShown, State.portX_put, State.portX_put, State.portX_put, State.portX_put, State.portX_put]

theorem frameNumbered_label (s : State) (p : Nat) (ws : List LineWord) :
    ((frameNumbered s p ws).portX p).label = ((multiframe s p (numberOf ws)).portX p).label := by
  rw [frameNumbered, State.portX_modPort]
  rfl

theorem frameKept_label (n : State) (p : Nat) (ws : List LineWord) (phase : Nat) :
    ((frameKept n p ws phase).portX p).label = ((multiframe n p (numberOf ws)).portX p).label := by
  refine ((Messaged.refl p _).messagesTaken ws _).label.trans ?_
  rw [overheadShown_portX, numberShown_portX, frameNumbered_label]

/-! ### A frame received, in SYNC or not -/

section
variable {start : Bool} {ws : List LineWord} (phase : Nat)

theorem frameNoted_get (s : State) (p : Nat) (start : Bool) (ws : List LineWord) (f : Field) :
    (frameNoted s p start ws phase).get f p = (finderAt s p (aligned start ws)).get f p := State.modPort_get _ _ _ _ _ _

theorem frameNoted_label (h : Synchronises s p (aligned start ws)) :
    ((frameNoted s p start ws phase).portX p).label = (s.portX p).label := by
  rw [frameNoted, State.portX_modPort]
  exact finderAt_label h

theorem frameNoted_portOnly (h : PortOnly p fs s (finderAt s p (aligned start ws))) :
    PortOnly p fs s (frameNoted s p start ws phase) := by
  unfold frameNoted
  exact h.modPort _

theorem lfReceive_of_sync (h : Synchronises s p (aligned start ws)) :
    lfReceive s p start ws phase = frameKept (frameNoted s p start ws phase) p ws phase := by
  obtain ⟨hsync, -⟩ := finderAt_synchronises h
  rw [lfReceive_eq, if_neg]
  simp [portInSync, frameNoted_get, hsync]

section
variable (hlost : (finderAt s p (aligned start ws)).get F.LF_PSTATUS_FSTATE p = 0)
include hlost

theorem lfReceive_of_lost : lfReceive s p start ws phase = frameNoted s p start ws phase := by
  rw [lfReceive_eq, if_pos]
  simp [portInSync, frameNoted_get, hlost]

theorem frameReceived_of_lost : frameReceived s p start ws phase = frameNoted s p start ws phase := by
  have hstays : (!portInSync (lfReceive s p start ws phase) p) = true := by
    rw [lfReceive_of_lost phase hlost]
    simp [portInSync, frameNoted_get, hlost]
  exact (if_pos hstays).trans (lfReceive_of_lost phase hlost)

end

/-! ### What the registers show of a frame received in SYNC -/

theorem lfReceive_finder (h : Synchronises s p (aligned start ws)) :
    (lfReceive s p start ws phase).get F.LF_PSTATUS_FSTATE p = 2 ∧
    (lfReceive s p start ws phase).get F.LF_PSTATUS_E p = (if aligned start ws then 0 else s.get F.LF_PSTATUS_E p + 1) ∧
    (s.get F.LF_PSTATUS_FSTATE p = 1 → (lfReceive s p start ws phase).get F.LF_PEVENT_IN_FRAME p = 1) := by
  obtain ⟨hstate, he, hevent, -⟩ := finderAt_synchronises h
  rw [lfReceive_of_sync phase h, frameKept_get_finder _ _ _ _ (by decide), frameKept_get_finder _ _ _ _ (by decide),
    frameKept_get_finder _ _ _ _ (by decide), frameNoted_get, frameNoted_get, frameNoted_get]
  exact ⟨hstate, he, hevent⟩

theorem lfReceive_number {phase : Nat} (h : Synchronises s p (aligned start ws)) (hphase : phase < 2 ^ 14) :
    (lfReceive s p start ws phase).get F.LF_RX_PHASE_PHASE p = phase ∧
    (lfReceive s p start ws phase).get F.LF_RX_NUM_F_NV p = wordAt ws 5 / 2 ^ 15 := by
  rw [lfReceive_of_sync phase h, frameKept_phase _ _ _ hphase, frameKept_nv]
  exact ⟨rfl, rfl⟩

theorem lfReceive_overhead (h : Synchronises s p (aligned start ws)) :
    (lfReceive s p start ws phase).get F.LF_RX_QL p = wordAt ws 9 * 2 ^ 16 + wordAt ws 10 ∧
    (lfReceive s p start ws phase).get F.LF_RX_PROT p = wordAt ws 11 * 2 ^ 16 + wordAt ws 12 ∧
    (lfReceive s p start ws phase).get F.LF_RX_MISC_SMV p = wordAt ws 28 % 256 ∧
    (lfReceive s p start ws phase).get F.LF_RX_MISC_RDI p = wordAt ws 8 / 2 ^ 15 ∧
    (lfReceive s p start ws phase).get F.LF_RX_MISC_REI p = reiOf ws := by
  rw [lfReceive_of_sync phase h, frameKept_get_shown _ _ _ _ (by decide), frameKept_get_shown _ _ _ _ (by decide),
    frameKept_get_shown _ _ _ _ (by decide), frameKept_get_shown _ _ _ _ (by decide), frameKept_get_shown _ _ _ _ (by decide)]
  exact overheadShown_get _ _ _

/-- In IM, a frame with the number that was expected moves the label to it (Table 8.6). -/
theorem lfReceive_label {l : Nat × Nat} (h : Synchronises s p (aligned start ws)) (hsync : s.get F.LF_PSTATUS_FSTATE p = 2)
    (him : s.get F.LF_PSTATUS_IM p = 1) (hl : (s.portX p).label = some l) (hn : numberOf ws = some (nextNum l)) :
    ((lfReceive s p start ws phase).portX p).label = some (nextNum l) := by
  obtain ⟨-, -, -, hkept⟩ := finderAt_synchronises h
  rw [lfReceive_of_sync phase h, frameKept_label, hn]
  refine multiframe_label ?_ ?_
  · rw [frameNoted_get, hkept hsync, him]
  · rw [frameNoted_label phase h, hl]

end

/-! ### The instructions -/

theorem finderRuns_of (hrun : s.get F.LP_STATUS_STATE p = 2) (hcode : s.get F.LP_STATUS_CODE_SYNC p = 1)
    (htap : s.tapOwns = false) : finderRuns s p = true := by
  simp [finderRuns, portRunning, State.on, hrun, hcode, htap]

theorem frameIn_plain (s : State) (p : Nat) (start : Bool) (ws : List LineWord) (hnear : s.get F.LP_CTRL_LOOPBACK p ≠ 1)
    (hfar : s.get F.LP_CTRL_LOOPBACK p ≠ 2) : frameIn s p (.words start ws) = (s, start, ws) := by
  simp [frameIn, hnear, hfar]

section
variable {p : Fin 16} {frame : LineIn} {phase : Fin 12800} (ha : s.Awake)
include ha

theorem exec_huntStartWord_found (hruns : finderRuns s p = true) (hhunt : s.get F.LF_PSTATUS_FSTATE p = 0) :
    exec (.huntStartWord p 0x7E36 0x81C9) s = .next (s.put F.LF_PSTATUS_FSTATE 1 p) := by
  refine (congrArg (act s) (if_pos ?_)).trans (act_next ha ha.2)
  simp [hruns, hhunt]

theorem exec_huntStartWord_other {w1 w2 : LineWord} (hw : w1 ≠ 0x7E36 ∨ w2 ≠ 0x81C9) :
    exec (.huntStartWord p w1 w2) s = .next s := by
  refine (congrArg (act s) (if_neg ?_)).trans (act_next ha ha.2)
  intro hword
  simp only [Bool.and_eq_true, beq_iff_eq] at hword
  obtain ⟨⟨-, hw1⟩, hw2⟩ := hword
  exact hw.elim (fun h => h hw1) fun h => h hw2

theorem exec_receivedFrame_ignored
    (h : finderRuns (frameIn s p frame).1 p = false ∨ (frameIn s p frame).1.get F.LF_PSTATUS_FSTATE p = 0) :
    exec (.receivedFrame p frame phase) s = .next (settle (frameIn s p frame).1) := by
  refine (congrArg (act s) (if_pos ?_)).trans (act_of_awake ha)
  rcases h with h | h <;> simp [h]

section
variable {r : State × Bool × List LineWord} (hr : r = frameIn s p frame) (hruns : finderRuns r.1 p = true)
include hr hruns

theorem exec_receivedFrame_found (hfound : r.1.get F.LF_PSTATUS_FSTATE p ≠ 0)
    (hlen : r.2.2.length = wordsPerFrame (r.1.get F.LP_CTRL_RATE p)) :
    exec (.receivedFrame p frame phase) s = .next (settle (frameReceived r.1 p r.2.1 r.2.2 phase)) := by
  have hrate : r.1.get F.LP_CTRL_RATE p = portRate s p := by
    rw [hr]
    exact frameIn_rate s p frame
  subst hr
  rw [hrate] at hlen
  refine (congrArg (act s) (if_neg ?_)).trans (act_of_awake ha)
  simp [hruns, hfound, hlen]

/-- The finder falls back to HUNT at the frame: the frame is only noted. -/
theorem exec_receivedFrame_lost (hfound : r.1.get F.LF_PSTATUS_FSTATE p ≠ 0)
    (hlen : r.2.2.length = wordsPerFrame (r.1.get F.LP_CTRL_RATE p)) (hdue : r.1.chip.resetDue = none)
    (hlost : (finderAt r.1 p (aligned r.2.1 r.2.2)).get F.LF_PSTATUS_FSTATE p = 0)
    (honly : PortOnly p [] r.1 (finderAt r.1 p (aligned r.2.1 r.2.2))) :
    exec (.receivedFrame p frame phase) s = .next (frameNoted r.1 p r.2.1 r.2.2 phase) ∧
      PortOnly p [] r.1 (frameNoted r.1 p r.2.1 r.2.2 phase) := by
  have hnoted := frameNoted_portOnly phase honly
  refine ⟨?_, hnoted⟩
  rw [exec_receivedFrame_found ha hr hruns hfound hlen, frameReceived_of_lost _ hlost, settle_of_none (hnoted.chip ▸ hdue)]

end

end

/-- Settles O23: `finderAt` says where the finder goes, `frameKept` what LF keeps of a frame received in SYNC. -/
theorem frameFinder : Obligations.FrameFinder := by
  unfold Obligations.FrameFinder
  intro s p ha
  refine ⟨fun hrun hcode htap hhunt => ?_, frameIn_plain s p, fun frame phase r hr => ⟨fun h => ?_, ?_⟩⟩
  · have hruns := finderRuns_of hrun hcode htap
    exact ⟨⟨_, exec_huntStartWord_found ha hruns hhunt, rfl⟩, fun w1 w2 hw => ⟨_, exec_huntStartWord_other ha hw, rfl⟩⟩
  · subst hr
    exact ⟨_, exec_receivedFrame_ignored ha h, rfl⟩
  · intro hrun hcode htap hdue hlen
    have hruns := finderRuns_of hrun hcode htap
    refine ⟨fun hpre herr => ?_, fun hsync he herr => ?_, fun u hu hkeep => ?_⟩
    · have hfinder : finderAt r.1 p (aligned r.2.1 r.2.2) = r.1.put F.LF_PSTATUS_FSTATE 0 p := by
        rw [herr, finderAt_presync_errored hpre]
      have hhunt : (finderAt r.1 p (aligned r.2.1 r.2.2)).get F.LF_PSTATUS_FSTATE p = 0 := by
        rw [hfinder, get_put_same _ _ _ (by decide) (by decide)]
      obtain ⟨hnext, honly⟩ := exec_receivedFrame_lost (phase := phase) ha hr hruns (by omega) hlen hdue hhunt
        (hfinder ▸ (PortOnly.refl _ _ _).put F.LF_PSTATUS)
      exact ⟨_, hnext, (frameNoted_get _ _ _ _ _ _).trans hhunt, honly⟩
    · have hfinder : finderAt r.1 p (aligned r.2.1 r.2.2) =
          finderHunt (r.1.bumpSat F.LF_FRAMING_CNT_ALIGN_ERR 1 p) p true := by
        rw [herr, finderAt_sync_lost hsync he]
      have hlost := finderHunt_lost ((get_bumpSat_apart r.1 (g := F.LF_FRAMING_CNT_ALIGN_ERR) 1 p (by decide)).trans hsync)
      rw [← hfinder, get_bumpSat_one _ _ (by decide), get_bumpSat_apart _ _ _ (by decide)] at hlost
      obtain ⟨hnext, honly⟩ := exec_receivedFrame_lost (phase := phase) ha hr hruns (by omega) hlen hdue hlost.left
        (hfinder ▸ ((PortOnly.refl _ _ _).put F.LF_FRAMING_CNT).finderHunt true)
      simp only [← frameNoted_get phase] at hlost
      obtain ⟨hhunt, him, hoof, halign, hevents⟩ := hlost
      exact ⟨_, hnext, hhunt, him, hoof, halign, hevents, honly⟩
    · subst hu
      have hfound : r.1.get F.LF_PSTATUS_FSTATE p ≠ 0 := by omega
      obtain ⟨hstate, herrors, hevent⟩ := lfReceive_finder phase hkeep
      obtain ⟨hql, hprot, hsmv, hrdi, hrei⟩ := lfReceive_overhead phase hkeep
      obtain ⟨hphase, hnv⟩ := lfReceive_number hkeep (by omega : phase.val < 2 ^ 14)
      exact ⟨⟨_, exec_receivedFrame_found ha hr hruns hfound hlen, rfl⟩, hstate, herrors, hevent, hphase, hql, hprot, hsmv,
        hrdi, hrei, hnv, fun l hsync him hl hn => lfReceive_label phase hkeep hsync him hl hn⟩

end Sys2Proof.Machine
end

section
/-!
PROOFS. Session commands at the unit's own address (R95, R102, R148), and what any command that the bridge serves itself leaves
there.
-/
namespace Sys2Proof.Machine

variable {s t u : State} {k : Pkt} {op st : Nat} {data : List Byte} {fs : List (Nat × Nat × Nat)}

/-! ### A command that the bridge serves itself -/

/-- A command is answered when, of registers, its action changes those of `fs` and the bridge's shown fields alone. -/
theorem served_hw_kept {c : Instr} {r : OpRow} (h : Takes s k) (hc : exec c s = act s (chainCommand s op k none))
    (hop : op ∉ [2, 3, 4, 5]) (hr : opRow op = some r) (hf : r.fw = false) (hl : r.len k.params = true)
    (hb : runBody .chain (ownJob s op k) (taken s k) = .done u st data)
    (hout : u.mp.out = s.mp.out) (hchip : u.chip = s.chip) (hk : RegsKept (shownFields ++ fs) (taken s k) u)
    (hfs : ∀ g ∈ fs, g.1 ≠ F.MP_TXN_COUNT.addr ∧ g.1 ≠ F.MP_LAST_ERR.addr) :
    Gives c s fun t => Served fs s t k st data ∧ BridgeOnly u t ∧ RegsKept answerFields u t := by
  simp only [List.mem_cons, List.not_mem_nil, or_false, not_or] at hop
  obtain ⟨h2, h3, h4, h5⟩ := hop
  have hdue : u.chip.resetDue = none := hchip ▸ h.1.2
  have hall : ∀ g ∈ shownFields ++ fs, g.1 ≠ F.MP_TXN_COUNT.addr ∧ g.1 ≠ F.MP_LAST_ERR.addr :=
    List.forall_mem_append.mpr ⟨by decide, hfs⟩
  have hcount : u.get F.MP_TXN_COUNT = (taken s k).get F.MP_TXN_COUNT := hk.get _ _ _ fun g hg => .inl (hall g hg).1
  have herr : u.reg F.MP_LAST_ERR.addr = (taken s k).reg F.MP_LAST_ERR.addr := hk.reg fun g hg => (hall g hg).2
  obtain ⟨t, hexec, hrep⟩ := served_hw h hc h2 h3 h4 (.inl h5) hr hf hl hb hdue
  obtain ⟨hbridge, -, hkept, -⟩ := id hrep
  refine ⟨t, hexec, hrep.served hout (hcount.trans (taken_count s k)) ?_ (herr.trans (taken_lastErr s k)), hbridge, hkept⟩
  exact ((taken_kept s k).2.mono (by simp)).trans (hk.mono (by simp +contextual))

/-- The same for an action that changes the fields of `fs` alone: then the command changes registers and the bridge alone. -/
theorem served_hw_only {c : Instr} {r : OpRow} (h : Takes s k) (hc : exec c s = act s (chainCommand s op k none))
    (hop : op ∉ [2, 3, 4, 5]) (hr : opRow op = some r) (hf : r.fw = false) (hl : r.len k.params = true)
    (hb : runBody .chain (ownJob s op k) (taken s k) = .done u st data) (hu : Only fs (taken s k) u)
    (hfs : ∀ g ∈ fs, g.1 ≠ F.MP_TXN_COUNT.addr ∧ g.1 ≠ F.MP_LAST_ERR.addr) :
    Gives c s fun t => Served fs s t k st data ∧ BusOnly s t ∧ RegsKept answerFields u t := by
  obtain ⟨t, hexec, hserved, hbridge, hkept⟩ := served_hw_kept h hc hop hr hf hl hb (by rw [hu.mp]; rfl) (by rw [hu.chip]; rfl)
    (hu.2.mono fun _ => List.mem_append_right _) hfs
  refine ⟨t, hexec, hserved, ?_, hkept⟩
  rw [BusOnly, hbridge.eq, hu.1]
  rfl

/-- The same for an action that changes nothing. -/
theorem served_hw_same {c : Instr} {r : OpRow} (h : Takes s k) (hc : exec c s = act s (chainCommand s op k none))
    (hop : op ∉ [2, 3, 4, 5]) (hr : opRow op = some r) (hf : r.fw = false) (hl : r.len k.params = true)
    (hb : runBody .chain (ownJob s op k) (taken s k) = .done (taken s k) st data) :
    Gives c s fun t => Served [] s t k st data ∧ BusOnly s t := by
  obtain ⟨t, hexec, hserved, hbus, -⟩ := served_hw_only h hc hop hr hf hl hb (only_refl _) (fs := []) (by simp)
  exact ⟨t, hexec, hserved, hbus⟩

/-! ### What the session commands do -/

theorem nested_of_short {bytes : List Byte} (h : bytes.length ≤ 4096) : nested bytes = (St.ok, bytes) := if_neg (Nat.not_lt.mpr h)

theorem ping_served (h : Takes s k) (hp : k.params = []) : Gives (.ping k) s fun t =>
    Served [] s t k St.ok (toLE 4 ((s.get F.MP_TXN_COUNT + 1) % 2 ^ 32)) ∧ BusOnly s t := by
  rw [← taken_count s k]
  exact served_hw_same (op := 0x00) h rfl (by decide) rfl rfl (by rw [hp]; rfl) rfl

theorem bodyIdentify_taken (s : State) (k : Pkt) : bodyIdentify (taken s k) =
    .done (taken s k) St.ok (toLE 4 (s.get F.CH_ID_PART) ++ toLE 12 s.otp.uid.toNat ++
      (List.range 16).flatMap fun j => toLE 4 (s.get F.CH_ASSET j)) := by
  have hasset : ∀ j, (taken s k).get F.CH_ASSET j = s.get F.CH_ASSET j := fun j =>
    taken_get s k _ _ _ (by simp only [F.CH_ASSET, Field.addr]; omega)
  have hpart : (taken s k).get F.CH_ID_PART = s.get F.CH_ID_PART := taken_get s k _ _ _ (by decide)
  simp only [bodyIdentify, hasset, hpart]
  rfl

theorem identify_served (h : Takes s k) (hp : k.params = []) : Gives (.identify k) s fun t =>
    Served [] s t k St.ok (toLE 4 (s.get F.CH_ID_PART) ++ toLE 12 s.otp.uid.toNat ++
      (List.range 16).flatMap fun j => toLE 4 (s.get F.CH_ASSET j)) ∧ BusOnly s t :=
  served_hw_same (op := 0x01) h rfl (by decide) rfl rfl (by rw [hp]; rfl) (bodyIdentify_taken s k)

theorem bodyPoll_of_done {o : JobKind} {ps : List Byte} {e : Entry} (hfind : findEntry s o (ps.headD 0) = some e)
    (hdone : e.done = true) (hlen : e.final.length ≤ 4096) :
    bodyPoll o ps s = .done (modEntry s o e.tag fun e => { e with awaiting := false }) St.ok e.final := by
  simp only [bodyPoll, hfind, hdone, nested_of_short hlen, Bool.not_true, Bool.false_eq_true, if_false]

theorem bodyPoll_of_none {o : JobKind} {ps : List Byte} (hnone : findEntry s o (ps.headD 0) = none) :
    bodyPoll o ps s = .done s St.notPresent [] := by
  simp only [bodyPoll, hnone, refuse]

theorem bodyReplay_of_sent {o : JobKind} {ps : List Byte} {e : Entry} (hfind : findEntry s o (ps.headD 0) = some e)
    (hsent : e.firstSent = true) (hlen : e.first.length ≤ 4096) : bodyReplay o ps s = .done s St.ok e.first := by
  simp only [bodyReplay, hfind, hsent, nested_of_short hlen, Bool.not_true, Bool.false_eq_true, if_false]

theorem bodyReplay_of_none {o : JobKind} {ps : List Byte} (hnone : findEntry s o (ps.headD 0) = none) :
    bodyReplay o ps s = .done s St.notPresent [] := by
  simp only [bodyReplay, hnone, refuse]

/-- The replay memory as the command finds it, the tag being its one parameter. -/
theorem findEntry_taken {g : Byte} (hp : k.params = [g]) :
    findEntry (taken s k) .chain ((ownJob s op k).params.headD 0) = findEntry s .chain g := by
  change findEntry s .chain (k.params.headD 0) = _
  rw [hp]
  rfl

section
variable {g : Byte} {e : Entry} (h : Takes s k) (hp : k.params = [g])
include h hp

/-- POLL: the final reply, which is then collected. -/
theorem poll_served (hfind : findEntry s .chain g = some e) (hdone : e.done = true) (hlen : e.final.length ≤ 4096) :
    Gives (.poll k) s fun t => Served [] s t k St.ok e.final ∧ BusOnly s t := by
  obtain ⟨hbridge, hkept, hout, -⟩ := modEntry_chain (taken s k) e.tag fun e => { e with awaiting := false }
  obtain ⟨t, hexec, hserved, hbridge', -⟩ := served_hw_kept (c := .poll k) (op := 0x07) (fs := []) h rfl (by decide) rfl rfl
    (by rw [hp]; rfl) (bodyPoll_of_done ((findEntry_taken hp).trans hfind) hdone hlen) hout hbridge.chip
    (by simpa using hkept) (by simp)
  refine ⟨t, hexec, hserved, ?_⟩
  rw [BusOnly, (hbridge.trans hbridge').eq]
  rfl

/-- REPLAY: the first reply, once it has been sent. -/
theorem replay_served (hfind : findEntry s .chain g = some e) (hsent : e.firstSent = true) (hlen : e.first.length ≤ 4096) :
    Gives (.replay k) s fun t => Served [] s t k St.ok e.first ∧ BusOnly s t :=
  served_hw_same (op := 0x08) h rfl (by decide) rfl rfl (by rw [hp]; rfl)
    (bodyReplay_of_sent ((findEntry_taken hp).trans hfind) hsent hlen)

theorem poll_notPresent (hnone : findEntry s .chain g = none) :
    Gives (.poll k) s fun t => Served [] s t k St.notPresent [] ∧ BusOnly s t :=
  served_hw_same (op := 0x07) h rfl (by decide) rfl rfl (by rw [hp]; rfl)
    (bodyPoll_of_none ((findEntry_taken hp).trans hnone))

theorem replay_notPresent (hnone : findEntry s .chain g = none) :
    Gives (.replay k) s fun t => Served [] s t k St.notPresent [] ∧ BusOnly s t :=
  served_hw_same (op := 0x08) h rfl (by decide) rfl rfl (by rw [hp]; rfl)
    (bodyReplay_of_none ((findEntry_taken hp).trans hnone))

end

/-- The two quiet flags written. -/
def quieted (s : State) (v : Nat) : State := (s.put F.CH_STATUS_QUIET_DISC (v % 2)).put F.CH_STATUS_QUIET_IRQ (v / 2)

theorem quieted_only (s : State) (v : Nat) :
    Only [F.CH_STATUS_QUIET_DISC.at, F.CH_STATUS_QUIET_IRQ.at] s (quieted s v) :=
  (only_put (by simp)).trans (only_put (by simp))

theorem quieted_disc (s : State) (v : Nat) : (quieted s v).get F.CH_STATUS_QUIET_DISC = v % 2 := by
  rw [quieted, State.get_put_ne _ _ _ _ _ _ _ _ (by decide), State.get_put _ _ _ _ _ (by decide)]
  exact Nat.mod_mod _ _

theorem quieted_irq (s : State) {v : Nat} (hv : v < 4) : (quieted s v).get F.CH_STATUS_QUIET_IRQ = v / 2 := by
  rw [quieted, State.get_put _ _ _ _ _ (by decide)]
  exact Nat.mod_eq_of_lt (by simp only [F.CH_STATUS_QUIET_IRQ]; omega)

/-- QUIET replaces both flags (R102). -/
theorem quiet_served {v : Byte} (h : Takes s k) (hp : k.params = [v]) (hv : v.toNat < 4) : Gives (.quiet k) s fun t =>
    Served [F.CH_STATUS_QUIET_DISC.at, F.CH_STATUS_QUIET_IRQ.at] s t k St.ok [] ∧ BusOnly s t ∧
    t.get F.CH_STATUS_QUIET_DISC = v.toNat % 2 ∧ t.get F.CH_STATUS_QUIET_IRQ = v.toNat / 2 := by
  have hbody : runBody .chain (ownJob s 0x06 k) (taken s k) = .done (quieted (taken s k) v.toNat) St.ok [] := by
    change bodyQuiet k.params (taken s k) = _
    rw [hp]
    exact if_neg (Nat.not_le.mpr hv)
  obtain ⟨t, hexec, hserved, hbus, hkept⟩ := served_hw_only (c := .quiet k) (op := 0x06) h rfl (by decide) rfl rfl
    (by rw [hp]; rfl) hbody (quieted_only _ _) (by decide)
  refine ⟨t, hexec, hserved, hbus, ?_, ?_⟩
  · rw [hkept.get _ _ _ (by decide), quieted_disc]
  · rw [hkept.get _ _ _ (by decide), quieted_irq _ hv]

/-- Settles O4: one lemma for each command, from what its action leaves. -/
theorem sessionCommands : Obligations.SessionCommands := fun _ _ h =>
  ⟨ping_served h, identify_served h, fun _ _ hp hfind hdone hlen => poll_served h hp hfind hdone hlen,
    fun _ hp hnone => ⟨poll_notPresent h hp hnone, replay_notPresent h hp hnone⟩,
    fun _ _ hp hfind hsent hlen => replay_served h hp hfind hsent hlen, fun _ hp hv => quiet_served h hp hv⟩

end Sys2Proof.Machine
end

section
/-!
PROOFS. Numbers spelt least significant byte first (R5), and the CH_ASSET words programmed (R105, R106, R189, R191).
-/
namespace Sys2Proof.Machine

variable {s t : State} {k : Pkt} {j : Nat}

/-! ### Little-endian bytes -/

@[simp] theorem length_toLE (k n : Nat) : (toLE k n).length = k := by
  induction k generalizing n with
  | zero => rfl
  | succ k ih => rw [toLE, List.length_cons, ih]

theorem ofLE_toLE (k n : Nat) : ofLE (toLE k n) = n % 256 ^ k := by
  induction k generalizing n with
  | zero => rw [Nat.pow_zero, Nat.mod_one, toLE, ofLE]
  | succ k ih =>
    rw [toLE, ofLE, ih, BitVec.toNat_ofNat, pow_succ' 256 k]
    exact Nat.mod_mul.symm

theorem leAt_toLE_append {k n : Nat} (hn : n < 256 ^ k) (bs : List Byte) : leAt (toLE k n ++ bs) 0 k = n := by
  rw [leAt, List.drop_zero, List.take_left' (length_toLE k n), ofLE_toLE, Nat.mod_eq_of_lt hn]

theorem leAt_append_toLE {k n : Nat} (hn : n < 256 ^ k) (bs : List Byte) :
    leAt (bs ++ toLE k n) bs.length k = n := by
  rw [leAt, List.drop_left, List.take_of_length_le (length_toLE k n).le, ofLE_toLE, Nat.mod_eq_of_lt hn]

/-! ### OTP_PROGRAM of an ASSET word (R106, R190) -/

/-- The parameters of OTP_PROGRAM for CH_ASSET[j]. -/
def assetParams (j : Nat) (v : Word) : List Byte := toLE 4 (0x70000040 + 4 * j) ++ toLE 4 v.toNat

theorem addr_asset (j : Nat) : F.CH_ASSET.addr j = 0x70000040 + 4 * j := by
  simp only [F.CH_ASSET, Field.addr]
  omega

/-- The word whose burn to `v` has begun. -/
def burning (s : State) (j v : Nat) : State :=
  ({ s with otp.burn := some (j, s.reg (F.CH_ASSET.addr j)) } : State).put F.CH_ASSET v j

/-- With no burn in progress the word is judged by its spent marker, then by the bits already burnt. -/
theorem bodyOtpProgram_asset (v : Word) (hj : j < 16) (hburn : s.otp.burn = none) : bodyOtpProgram (assetParams j v) s =
    if bitOf (s.get F.CH_ASSET_SPENT_SPENT) j then
      (if v.toNat = s.get F.CH_ASSET j then refuse s St.ok else refuse s St.spent)
    else if s.get F.CH_ASSET j &&& v.toNat ≠ s.get F.CH_ASSET j then refuse s St.spent
    else .done (burning s j v.toNat) St.ok [] := by
  have haddr : leAt (assetParams j v) 0 4 = 0x70000040 + 4 * j := leAt_toLE_append (by omega) _
  have hval : leAt (assetParams j v) 4 4 = v.toNat := leAt_append_toLE (k := 4) v.isLt (toLE 4 (0x70000040 + 4 * j))
  have hbase : F.CH_ASSET.base = 0x70000040 := rfl
  have hindex : (0x70000040 + 4 * j - F.CH_ASSET.base) / 4 = j := by omega
  have hwithin : ¬ (0x70000040 + 4 * j < F.CH_ASSET.base ∨ F.CH_ASSET.base + 64 ≤ 0x70000040 + 4 * j ∨
      (0x70000040 + 4 * j) % 4 ≠ 0) := by omega
  simp only [bodyOtpProgram, haddr, hval, hindex, if_neg hwithin, hburn, Option.isSome_none, Bool.false_eq_true, if_false]
  rfl

theorem runBody_otpProgram {o : JobKind} {x : Job} (hop : x.op = 0x17) : runBody o x s = bodyOtpProgram x.params s := by
  simp only [runBody, runLow, hop, Nat.reduceLT, if_true]

section
variable {v : Word} (hj : j < 16) (hp : k.params = assetParams j v) (hburn : s.otp.burn = none)
include hj hp hburn

theorem bodyOtpProgram_taken : runBody .chain (ownJob s 0x17 k) (taken s k) =
    if bitOf (s.get F.CH_ASSET_SPENT_SPENT) j then
      (if v.toNat = s.get F.CH_ASSET j then refuse (taken s k) St.ok else refuse (taken s k) St.spent)
    else if s.get F.CH_ASSET j &&& v.toNat ≠ s.get F.CH_ASSET j then refuse (taken s k) St.spent
    else .done (burning (taken s k) j v.toNat) St.ok [] := by
  have hasset : (taken s k).get F.CH_ASSET j = s.get F.CH_ASSET j :=
    taken_get s k _ _ _ (by rw [addr_asset]; omega)
  have hmark : (taken s k).get F.CH_ASSET_SPENT_SPENT = s.get F.CH_ASSET_SPENT_SPENT := taken_get s k _ _ _ (by decide)
  rw [runBody_otpProgram rfl, ← hasset, ← hmark, ← bodyOtpProgram_asset v hj (s := taken s k) hburn, ← hp]
  rfl

theorem otpProgram_accepted (h : Takes s k) (hfresh : bitOf (s.get F.CH_ASSET_SPENT_SPENT) j = false)
    (hkeeps : s.get F.CH_ASSET j &&& v.toNat = s.get F.CH_ASSET j) : Gives (.otpProgram k) s fun t =>
    Served [F.CH_ASSET.at j] s t k St.ok [] ∧ t.get F.CH_ASSET j = v.toNat ∧
    t.otp = { s.otp with burn := some (j, s.reg (0x70000040 + 4 * j)) } ∧
    t = { s with regs := t.regs, mp := t.mp, ch := t.ch, otp := t.otp } := by
  have hbody := bodyOtpProgram_taken hj hp hburn
  rw [hfresh, if_neg Bool.false_ne_true, if_neg (not_not.mpr hkeeps)] at hbody
  have hreg : (taken s k).reg (F.CH_ASSET.addr j) = s.reg (0x70000040 + 4 * j) := by
    rw [addr_asset]
    exact taken_reg s k _ (by omega)
  obtain ⟨t, hexec, hserved, hbridge, hkept⟩ := served_hw_kept (c := .otpProgram k) (fs := [F.CH_ASSET.at j]) h rfl (by decide)
    rfl rfl (by rw [hp]; rfl) hbody rfl rfl ((RegsKept.of_regs rfl).trans (regsKept_put (by simp))) (by
      rw [List.forall_mem_singleton, Field.at, addr_asset]
      simp only [F.MP_TXN_COUNT, F.MP_LAST_ERR, Field.addr]
      omega)
  refine ⟨t, hexec, hserved, ?_, ?_, ?_⟩
  · have hout : ∀ g ∈ answerFields, g.1 ≠ F.CH_ASSET.addr j := by
      intro g hg
      have hlow := (by decide : ∀ g ∈ answerFields, g.1 < 0x70000000) g hg
      rw [addr_asset]
      omega
    rw [hkept.get _ _ _ fun g hg => .inl (hout g hg), burning, State.get_put _ _ _ _ _ (by decide)]
    exact Nat.mod_eq_of_lt v.isLt
  · rw [hbridge.eq, ← hreg]
    rfl
  · rw [hbridge.eq]
    rfl

theorem otpProgram_spent (h : Takes s k) (hmark : bitOf (s.get F.CH_ASSET_SPENT_SPENT) j = true)
    (hne : v.toNat ≠ s.get F.CH_ASSET j) : Gives (.otpProgram k) s fun t => Served [] s t k St.spent [] ∧ BusOnly s t := by
  have hbody := bodyOtpProgram_taken hj hp hburn
  rw [hmark, if_pos rfl, if_neg hne] at hbody
  exact served_hw_same h rfl (by decide) rfl rfl (by rw [hp]; rfl) hbody

end

/-! ### The end of the burn (R189) -/

theorem exec_otpBurnComplete {w : Word} (hburn : s.otp.burn = some (j, w)) : exec .otpBurnComplete s =
    act s (({ s with otp.burn := none } : State).put F.CH_ASSET_SPENT_SPENT (s.get F.CH_ASSET_SPENT_SPENT ||| 2 ^ j)) := by
  simp only [exec, execOtpBurnComplete, hburn, State.get_mk]

theorem otpBurnComplete_marks {w : Word} (ha : s.Awake) (hj : j < 16) (hburn : s.otp.burn = some (j, w)) :
    Gives .otpBurnComplete s fun t =>
      t.otp = { s.otp with burn := none } ∧ t.get F.CH_ASSET_SPENT_SPENT = s.get F.CH_ASSET_SPENT_SPENT ||| 2 ^ j ∧
      t = { s with otp := t.otp, regs := t.regs } ∧ RegsKept [F.CH_ASSET_SPENT_SPENT.at] s t := by
  have hmarks : s.get F.CH_ASSET_SPENT_SPENT ||| 2 ^ j < 2 ^ 16 :=
    Nat.or_lt_two_pow (State.get_lt s F.CH_ASSET_SPENT_SPENT 0 0) (Nat.pow_lt_pow_right (by decide) hj)
  refine gives_of_act ha (exec_otpBurnComplete hburn) ha.2
    ⟨rfl, ?_, rfl, (RegsKept.of_regs rfl).trans (regsKept_put (List.mem_singleton.mpr rfl))⟩
  rw [State.get_put _ _ _ _ _ (by decide)]
  exact Nat.mod_eq_of_lt hmarks

/-- Settles O7: `bodyOtpProgram_asset` judges the word, and the end of the burn adds its bit to the spent markers. -/
theorem assetProgramming : Obligations.AssetProgramming := fun _ _ =>
  ⟨fun h _ _ hj hp hburn hfresh hkeeps => otpProgram_accepted hj hp hburn h hfresh hkeeps,
    fun h _ _ hj hp hburn hmark hne => otpProgram_spent hj hp hburn h hmark hne,
    fun ha _ _ hj hburn => otpBurnComplete_marks ha hj hburn⟩

end Sys2Proof.Machine
end

section
/-!
PROOFS. Replies at their edges, and the unit leaving ADDRESSED (R93, R101, R116, R131, R133).
-/
namespace Sys2Proof.Machine

variable {s : State}

/-! ### The unit leaves ADDRESSED (R93, R101) -/

/-- A field of a register that is written whole. -/
theorem get_put_word (s : State) {f g : Field} (v : Nat) (hf : f.lo = 0 ∧ f.w = 32 ∧ g.addr = f.addr) :
    (s.put f v).get g = bitsOf (v % 2 ^ 32) g.lo g.w := by
  obtain ⟨hlo, hw, haddr⟩ := hf
  rw [State.get, haddr, reg_put_word s f v 0 0 hlo hw, BitVec.toNat_ofNat]

/-- CH_ADDR cleared, with the quiet flags and DOWEL_OUT. -/
def unaddressed (s : State) : State :=
  (((s.put F.CH_ADDR 0).put F.CH_STATUS_QUIET_IRQ 0).put F.CH_STATUS_QUIET_DISC 0).driveDowel 0

/-- The fields of block CH in which ADDRESSED shows. -/
def addressedFields : List (Nat × Nat × Nat) :=
  [F.CH_STATUS_DOWEL_OUT.at, F.CH_ADDR.word, F.CH_STATUS_QUIET_DISC.at, F.CH_STATUS_QUIET_IRQ.at]

theorem unaddressed_only (s : State) : Only addressedFields s (unaddressed s) := by
  have haddr : Only addressedFields s (s.put F.CH_ADDR 0) := only_put (by decide)
  exact ((haddr.trans (only_put (by decide))).trans (only_put (by decide))).trans (only_put (by decide))

theorem unaddressed_addr (s : State) {f : Field} (hf : f.addr = F.CH_ADDR.addr) : (unaddressed s).get f = 0 := by
  have hstatus : ∀ (t : State) (g : Field) (v : Nat), g.addr = F.CH_STATUS.addr → (t.put g v).get f = t.get f :=
    fun t g v hg => State.get_put_otherReg _ _ _ _ _ _ _ _ (by rw [hf, hg]; decide)
  rw [unaddressed, State.driveDowel, hstatus _ F.CH_STATUS_DOWEL_OUT _ rfl,
    hstatus _ F.CH_STATUS_QUIET_DISC _ rfl, hstatus _ F.CH_STATUS_QUIET_IRQ _ rfl,
    get_put_word _ _ ⟨rfl, rfl, hf⟩, Nat.zero_mod, bitsOf, Nat.zero_div, Nat.zero_mod]

theorem unaddressed_status (s : State) : (unaddressed s).get F.CH_STATUS_DOWEL_OUT = 0 ∧
    (unaddressed s).get F.CH_STATUS_QUIET_DISC = 0 ∧ (unaddressed s).get F.CH_STATUS_QUIET_IRQ = 0 := by
  rw [unaddressed, State.driveDowel, ite_self]
  refine ⟨?_, ?_, ?_⟩
  · rw [State.get_put _ _ _ _ _ (by decide), Nat.zero_mod]
  · rw [State.get_put_ne _ _ _ _ _ _ _ _ (by decide), State.get_put _ _ _ _ _ (by decide), Nat.zero_mod]
  · rw [State.get_put_ne _ _ _ _ _ _ _ _ (by decide), State.get_put_ne _ _ _ _ _ _ _ _ (by decide),
      State.get_put _ _ _ _ _ (by decide), Nat.zero_mod]

/-- What `t` shows of a unit that has left ADDRESSED in `s`. -/
structure LeftAddressed (s t : State) : Prop where
  addr : ownAddr t = 0
  addressed : addressed t = false
  dowelOut : t.get F.CH_STATUS_DOWEL_OUT = 0
  quietDisc : t.get F.CH_STATUS_QUIET_DISC = 0
  quietIrq : t.get F.CH_STATUS_QUIET_IRQ = 0
  replay : t.mp.replay = []
  out : t.mp.out = []
  rest : t = { s with regs := t.regs, mp := t.mp }
  kept : RegsKept (addressedFields ++ shownFields) s t

theorem leaveAddressed_eq (s : State) : leaveAddressed s =
    { sessionEmptied (unaddressed s) with
      mp := { (sessionEmptied (unaddressed s)).mp with out := [], leaveAt := none } } := rfl

theorem leaveAddressed_left (s : State) : LeftAddressed s (leaveAddressed s) := by
  obtain ⟨hbridge, hkept, -, hreplay⟩ := sessionEmptied_kept (unaddressed s)
  obtain ⟨hout, hdisc, hirq⟩ := unaddressed_status s
  have honly := unaddressed_only s
  have haddr : (unaddressed s).get F.CH_ADDR_ADDR = 0 := unaddressed_addr s rfl
  have haddressed : (unaddressed s).get F.CH_ADDR_ADDRESSED = 0 := unaddressed_addr s rfl
  rw [leaveAddressed_eq]
  generalize sessionEmptied (unaddressed s) = e at *
  generalize unaddressed s = u at *
  refine ⟨?_, ?_, ?_, ?_, ?_, hreplay, rfl, ?_, ?_⟩
  · exact (hkept.get F.CH_ADDR_ADDR 0 0 (by decide)).trans haddr
  · exact congrArg (· != 0) ((hkept.get F.CH_ADDR_ADDRESSED 0 0 (by decide)).trans haddressed)
  · exact (hkept.get F.CH_STATUS_DOWEL_OUT 0 0 (by decide)).trans hout
  · exact (hkept.get F.CH_STATUS_QUIET_DISC 0 0 (by decide)).trans hdisc
  · exact (hkept.get F.CH_STATUS_QUIET_IRQ 0 0 (by decide)).trans hirq
  · rw [(honly.bridge.trans hbridge).eq]
  · exact ((honly.2.mono fun _ => List.mem_append_left _).trans (hkept.mono fun _ => List.mem_append_right _)).trans
      (RegsKept.of_regs rfl)

/-- What was already different beside registers and the bridge does not matter to it. -/
theorem LeftAddressed.with_mp {t : State} {m : MpX} (h : LeftAddressed { s with mp := m } t) : LeftAddressed s t := by
  obtain ⟨haddr, haddressed, hdowel, hdisc, hirq, hreplay, hout, hrest, hkept⟩ := h
  exact ⟨haddr, haddressed, hdowel, hdisc, hirq, hreplay, hout, hrest, hkept⟩

/-! ### PCLK reaches an edge -/

theorem pclkReach_stays {e : Nat} (h : ∀ y, s.mp.leaveAt = some y → e < y) :
    pclkReach e s = { s with ch.slot := slotLeft s e } := by
  unfold pclkReach
  split
  next y hy =>
    have hble : ¬ Nat.ble y e = true := by
      rw [Nat.ble_eq]
      exact Nat.not_le.mpr (h y hy)
    rw [if_neg hble]
  next => rfl

theorem pclkReach_leaves {e y : Nat} (hy : s.mp.leaveAt = some y) (he : y ≤ e) :
    pclkReach e s = { leaveAddressed s with ch.slot := slotLeft (leaveAddressed s) e } := by
  unfold pclkReach
  rw [hy]
  dsimp only
  rw [if_pos (Nat.ble_eq.mpr he)]

/-! ### A reply goes out (R131) -/

/-- The edge after the last bit of a reply. -/
def replyEnd (r : Reply) : Nat := r.y + 8 * (r.bytes.length + 1)

/-- The reply `r` on the bus, `rest` waiting behind it. -/
def replyDriven (s : State) (r : Reply) (rest : List Reply) : State :=
  { s with mp := { s.mp with
      out := rest, wire := if s.ioDip then none else some (r.y, 0xB4 :: r.bytes), rx := {}
      rxEdge := max s.mp.rxEdge (replyEnd r)
      leaveAt := if r.release && addressed s then some (replyEnd r - 1) else s.mp.leaveAt } }

section
variable {r : Reply} {rest : List Reply} {edge : Nat} (ha : s.Awake) (hout : s.mp.out = r :: rest) (hy : r.y ≤ edge)
  (htap : s.tapOwns = false)
include hout hy htap

theorem exec_replyStart : exec (.replyStart edge) s = act s (pclkReach edge (replyDriven s r rest)) := by
  have hnow : ¬ (s.tapOwns || Nat.blt edge r.y) = true := by
    rw [htap, Bool.false_or, Nat.blt_eq]
    exact Nat.not_lt.mpr hy
  simp only [exec, execReplyStart, hout, if_neg hnow]
  rfl

include ha

theorem replyStart_plain (hleave : s.mp.leaveAt = none) (hstays : (r.release && addressed s) = false) :
    exec (.replyStart edge) s = .next { s with
      mp := { s.mp with
        out := rest, wire := if s.ioDip then none else some (r.y, 0xB4 :: r.bytes), rx := {}
        rxEdge := max s.mp.rxEdge (replyEnd r) }
      ch.slot := slotLeft s edge } := by
  rw [exec_replyStart hout hy htap, replyDriven, hstays, pclkReach_stays (by simp [hleave])]
  exact act_next ha ha.2

section
variable (hgoes : (r.release && addressed s) = true)
include hgoes

/-- The reply to a RELEASE is still on the bus. -/
theorem replyStart_release_begun (hend : edge + 1 < replyEnd r) :
    exec (.replyStart edge) s = .next { replyDriven s r rest with ch.slot := slotLeft s edge } ∧
      (replyDriven s r rest).mp.leaveAt = some (replyEnd r - 1) := by
  have hsome : (replyDriven s r rest).mp.leaveAt = some (replyEnd r - 1) := if_pos hgoes
  have hlater : ∀ y, (replyDriven s r rest).mp.leaveAt = some y → edge < y := by
    rintro y hy'
    obtain rfl := Option.some.inj (hsome.symm.trans hy')
    omega
  refine ⟨?_, hsome⟩
  rw [exec_replyStart hout hy htap, pclkReach_stays hlater]
  exact act_next ha ha.2

/-- The reply to a RELEASE has ended. -/
theorem replyStart_release_ended (hend : replyEnd r ≤ edge + 1) :
    ∃ u x, exec (.replyStart edge) s = .next { u with ch.slot := x } ∧ LeftAddressed s u := by
  have hsome : (replyDriven s r rest).mp.leaveAt = some (replyEnd r - 1) := if_pos hgoes
  have hleft : LeftAddressed s (leaveAddressed (replyDriven s r rest)) := (leaveAddressed_left _).with_mp
  refine ⟨leaveAddressed (replyDriven s r rest), slotLeft (leaveAddressed (replyDriven s r rest)) edge, ?_, hleft⟩
  rw [exec_replyStart hout hy htap, pclkReach_leaves hsome (by omega)]
  exact act_next ha (by rw [hleft.rest]; exact ha.2)

end

end

/-! ### No result in time (R133) -/

/-- The chain's command marked as answered PENDING, its reply queued for the end of the reply window. -/
def pendingSent (s : State) (j : Job) : State :=
  let p := mkReply (ownAddr s) St.pending j.tag []
  sendReply (modEntry (setJob s .chain (some { j with pended := true })) .chain j.tag fun e =>
    { e with first := p, firstSent := true }) (j.edge + j.win) p

theorem exec_pendingReply {j : Job} (hjob : s.mp.job = some j) (hpended : j.pended = false) (horphan : j.orphan = false) :
    exec .pendingReply s = act s (pendingSent s j) := by
  simp only [exec, execPendingReply, hjob, hpended, horphan, Bool.or_self, Bool.false_eq_true, if_false, pendingSent]

theorem pendingSent_kept (s : State) (j : Job) : BridgeOnly s (pendingSent s j) ∧ RegsKept shownFields s (pendingSent s j) ∧
    (pendingSent s j).mp = { s.mp with
      job := some { j with pended := true }, replay := (pendingSent s j).mp.replay
      out := s.mp.out ++ [{ y := j.edge + j.win, bytes := mkReply (ownAddr s) St.pending j.tag [] }] } := by
  obtain ⟨hjob, hjobRegs, hjobMp⟩ := setJob_chain s (some { j with pended := true })
  obtain ⟨hmem, hmemRegs, hmemMp⟩ := setMem_chain (setJob s .chain (some { j with pended := true }))
    ((memOf (setJob s .chain (some { j with pended := true })) .chain).map fun e => if e.tag = j.tag then
      { e with first := mkReply (ownAddr s) St.pending j.tag [], firstSent := true } else e)
  refine ⟨(hjob.trans hmem).trans (sendReply_kept _ _ _ _), (hjobRegs.trans hmemRegs).trans (RegsKept.of_regs rfl), ?_⟩
  simp only [pendingSent, sendReply, modEntry, hmemMp, hjobMp]

theorem pendingReply_sent (ha : s.Awake) {j : Job} (hjob : s.mp.job = some j) (hpended : j.pended = false)
    (horphan : j.orphan = false) : Gives .pendingReply s fun t =>
    t.mp.job = some { j with pended := true } ∧
    t.mp.out = s.mp.out ++ [{ y := j.edge + j.win, bytes := mkReply (ownAddr s) St.pending j.tag [] }] ∧
    t = { s with regs := t.regs, mp := { s.mp with job := t.mp.job, replay := t.mp.replay, out := t.mp.out } } ∧
    RegsKept [F.MP_STATUS_RESULT_READY.at, F.MP_STATUS_WORKING.at, F.MP_STATUS_BCAST_DEPTH.at] s t := by
  obtain ⟨hbridge, hkept, hmp⟩ := pendingSent_kept s j
  refine gives_of_act ha (exec_pendingReply hjob hpended horphan) (hbridge.chip ▸ ha.2) ⟨?_, ?_, ?_, hkept⟩
  · rw [hmp]
  · rw [hmp]
  · have hready : (pendingSent s j).mp.ready = s.mp.ready := by rw [hmp]
    have hrest := hbridge.eq
    rw [hready] at hrest
    exact hrest

/-- Settles O10: a reply goes out by `exec_replyStart`, and the unit leaves ADDRESSED where `pclkReach` finds the reply to a
RELEASE at its end. -/
theorem replyTiming : Obligations.ReplyTiming := by
  intro s ha
  refine ⟨fun r rest edge hout hy htap hleave => ?_, fun j hjob hpended horphan => pendingReply_sent ha hjob hpended horphan⟩
  by_cases hgoes : (r.release && addressed s) = true
  · have hboth := Bool.and_eq_true_iff.mp hgoes
    have hneither : ¬ (r.release = false ∨ addressed s = false) := by simp [hboth]
    by_cases hend : edge + 1 < replyEnd r
    · obtain ⟨hexec, hat⟩ := replyStart_release_begun ha hout hy htap hgoes hend
      exact ⟨_, hexec, fun h => absurd h hneither, fun _ haddr _ => ⟨haddr, rfl, hat, rfl, rfl⟩,
        fun _ _ hlate => absurd hend (Nat.not_lt.mpr hlate), rfl, RegsKept.of_regs rfl⟩
    · obtain ⟨u, x, hexec, hleft⟩ := replyStart_release_ended ha hout hy htap hgoes (Nat.not_lt.mp hend)
      refine ⟨_, hexec, fun h => absurd h hneither, fun _ _ hearly => absurd hearly hend,
        fun _ _ _ => ⟨hleft.addressed, hleft.addr, hleft.dowelOut, hleft.quietDisc, hleft.quietIrq, hleft.replay, hleft.out⟩,
        ?_, hleft.kept.trans (RegsKept.of_regs rfl)⟩
      rw [hleft.rest]
  · rw [Bool.not_eq_true] at hgoes
    have hnot : ∀ {P : Prop}, r.release = true → addressed s = true → P := fun hrel haddr => by simp [hrel, haddr] at hgoes
    exact ⟨_, replyStart_plain ha hout hy htap hleave hgoes, fun _ => rfl, fun hrel haddr => hnot hrel haddr,
      fun hrel haddr => hnot hrel haddr, rfl, RegsKept.of_regs rfl⟩

end Sys2Proof.Machine
end

section
/-!
PROOFS. Addresses taken and left, and the presence slot (R93, R95, R97, R98, R99, R101, R116, Table 3.2).
-/
namespace Sys2Proof.Machine

variable {s : State} {k : Pkt} {op : Nat}

/-! ### The unit takes an address (R93, Table 3.2) -/

/-- The registers of block CH once address `a` has been taken. -/
def addressShown (s : State) (a : Nat) (byId : Bool) : State :=
  ((((s.put F.CH_ADDR_ADDR a).put F.CH_ADDR_ADDRESSED 1).driveDowel 1).bumpSat F.CH_ASSIGN_LOG_ASSIGN_COUNT).put
    F.CH_ASSIGN_LOG_LAST_BY_ID (b2n byId)

/-- The fields of block CH that an address taken writes. -/
def assignFields : List (Nat × Nat × Nat) :=
  [F.CH_ADDR_ADDR.at, F.CH_ADDR_ADDRESSED.at, F.CH_STATUS_DOWEL_OUT.at, F.CH_ASSIGN_LOG_ASSIGN_COUNT.at,
    F.CH_ASSIGN_LOG_LAST_BY_ID.at]

theorem addressShown_only (s : State) (a : Nat) (byId : Bool) : Only assignFields s (addressShown s a byId) := by
  have haddr : Only assignFields s (s.put F.CH_ADDR_ADDR a) := only_put (by decide)
  exact (((haddr.trans (only_put (by decide))).trans (only_put (by decide))).trans (only_bumpSat (by decide))).trans
    (only_put (by decide))

theorem addressShown_addr (s : State) {a : Nat} (ha : a ≤ 126) (byId : Bool) :
    (addressShown s a byId).get F.CH_ADDR_ADDR = a ∧ (addressShown s a byId).get F.CH_ADDR_ADDRESSED = 1 := by
  have hother : ∀ (t : State) (f g : Field) (v : Nat), f.addr = F.CH_ADDR.addr → g.addr ≠ F.CH_ADDR.addr →
      (t.put g v).get f = t.get f :=
    fun t f g v hf hg => State.get_put_otherReg _ _ _ _ _ _ _ _ (hf ▸ hg.symm)
  have hshown : ∀ f : Field, f.addr = F.CH_ADDR.addr →
      (addressShown s a byId).get f = ((s.put F.CH_ADDR_ADDR a).put F.CH_ADDR_ADDRESSED 1).get f := by
    intro f hf
    rw [addressShown, State.bumpSat, State.driveDowel, hother _ f F.CH_ASSIGN_LOG_LAST_BY_ID _ hf (by decide),
      hother _ f F.CH_ASSIGN_LOG_ASSIGN_COUNT _ hf (by decide), hother _ f F.CH_STATUS_DOWEL_OUT _ hf (by decide)]
  refine ⟨?_, ?_⟩
  · rw [hshown F.CH_ADDR_ADDR rfl, State.get_put_ne _ _ _ _ _ _ _ _ (by decide), State.get_put _ _ _ _ _ (by decide)]
    exact Nat.mod_eq_of_lt (Nat.lt_succ_of_le (Nat.le_succ_of_le ha))
  · rw [hshown F.CH_ADDR_ADDRESSED rfl, State.get_put _ _ _ _ _ (by decide)]
    rfl

theorem addressShown_dowelOut (a : Nat) (byId : Bool) (hio : s.ioDip = false) :
    (addressShown s a byId).get F.CH_STATUS_DOWEL_OUT = 1 := by
  have hup : ((s.put F.CH_ADDR_ADDR a).put F.CH_ADDR_ADDRESSED 1).ioDip = false := hio
  rw [addressShown, State.bumpSat, State.get_put_otherReg _ _ _ _ _ _ _ _ (by decide),
    State.get_put_otherReg _ _ _ _ _ _ _ _ (by decide), State.driveDowel, hup, State.get_put _ _ _ _ _ (by decide)]
  rfl

theorem addressShown_log (s : State) (a : Nat) (byId : Bool) :
    (addressShown s a byId).get F.CH_ASSIGN_LOG_LAST_BY_ID = b2n byId ∧
    (addressShown s a byId).get F.CH_ASSIGN_LOG_ASSIGN_COUNT = min (s.get F.CH_ASSIGN_LOG_ASSIGN_COUNT + 1) 65535 := by
  refine ⟨State.get_put_bit _ _ _ _ _ (by decide) (by decide), ?_⟩
  rw [addressShown, State.get_put_ne _ _ _ _ _ _ _ _ (by decide), get_bumpSat_one _ 0 (by decide), State.driveDowel,
    State.get_put_otherReg _ _ _ _ _ _ _ _ (by decide), State.get_put_otherReg _ _ _ _ _ _ _ _ (by decide),
    State.get_put_otherReg _ _ _ _ _ _ _ _ (by decide)]

/-- What `t` shows of a unit that has taken address `a` in `s`. -/
structure TookAddress (s t : State) (a : Nat) (byId : Bool) : Prop where
  addr : ownAddr t = a
  addressed : addressed t = true
  dowelOut : t.get F.CH_STATUS_DOWEL_OUT = 1
  lastById : t.get F.CH_ASSIGN_LOG_LAST_BY_ID = b2n byId
  count : t.get F.CH_ASSIGN_LOG_ASSIGN_COUNT = min (s.get F.CH_ASSIGN_LOG_ASSIGN_COUNT + 1) 65535
  replay : t.mp.replay = []
  out : t.mp.out = s.mp.out
  bridge : BridgeOnly s t
  kept : RegsKept (assignFields ++ shownFields) s t

theorem takeAddress_took {a : Nat} (ha : a ≤ 126) (byId : Bool) (hio : s.ioDip = false) :
    TookAddress s (takeAddress s a byId) a byId := by
  have honly := addressShown_only s a byId
  obtain ⟨haddr, haddressed⟩ := addressShown_addr s ha byId
  obtain ⟨hbyId, hcount⟩ := addressShown_log s a byId
  have hdowel := addressShown_dowelOut a byId hio
  obtain ⟨hbridge, hkept, hout, hreplay⟩ := sessionEmptied_kept (addressShown s a byId)
  change TookAddress s (sessionEmptied (addressShown s a byId)) a byId
  generalize sessionEmptied (addressShown s a byId) = t at *
  generalize addressShown s a byId = u at *
  refine ⟨?_, ?_, ?_, ?_, ?_, hreplay, ?_, honly.bridge.trans hbridge, ?_⟩
  · exact (hkept.get F.CH_ADDR_ADDR 0 0 (by decide)).trans haddr
  · exact congrArg (· != 0) ((hkept.get F.CH_ADDR_ADDRESSED 0 0 (by decide)).trans haddressed)
  · exact (hkept.get F.CH_STATUS_DOWEL_OUT 0 0 (by decide)).trans hdowel
  · exact (hkept.get F.CH_ASSIGN_LOG_LAST_BY_ID 0 0 (by decide)).trans hbyId
  · exact (hkept.get F.CH_ASSIGN_LOG_ASSIGN_COUNT 0 0 (by decide)).trans hcount
  · rw [hout, honly.mp]
  · exact (honly.2.mono fun _ => List.mem_append_left _).trans (hkept.mono fun _ => List.mem_append_right _)

/-! ### ASSIGN_NEXT and ASSIGN_BY_ID (R95, R97) -/

/-- An UNADDRESSED unit that the command means takes the address and answers from it. -/
theorem assignAt0_takes {j : Job} {byId : Bool} {a : Nat} (haddressed : addressed s = false)
    (hlen : j.params.length = if byId then 13 else 1) (ha : byteAt j.params ((if byId then 13 else 1) - 1) = a)
    (hmine : (if byId then leAt j.params 0 12 == s.otp.uid.toNat else s.on F.CH_STATUS_DOWEL_IN) = true)
    (hrange : 1 ≤ a ∧ a ≤ 126) : assignAt0 s j byId =
      sendReply (takeAddress (s.bumpWrap F.MP_TXN_COUNT) a byId) (j.edge + 16)
        (mkReply a St.ok j.tag (toLE 12 s.otp.uid.toNat)) := by
  simp only [assignAt0, hlen, ha, hmine, haddressed, hrange, ne_eq, not_true_eq_false, Bool.not_true, Bool.false_eq_true,
    if_false, and_self, if_true]
  rfl

/-- What the two commands leave at a unit that they mean. -/
def Assigned (s t : State) (k : Pkt) (a : Nat) (byId : Bool) : Prop :=
  ownAddr t = a ∧ addressed t = true ∧ t.get F.CH_STATUS_DOWEL_OUT = 1 ∧ t.get F.CH_ASSIGN_LOG_LAST_BY_ID = b2n byId ∧
  t.get F.CH_ASSIGN_LOG_ASSIGN_COUNT = min (s.get F.CH_ASSIGN_LOG_ASSIGN_COUNT + 1) 65535 ∧
  t.get F.MP_TXN_COUNT = (s.get F.MP_TXN_COUNT + 1) % 2 ^ 32 ∧ t.mp.replay = [] ∧
  t.mp.out = s.mp.out ++ [{ y := k.edge + 16, bytes := mkReply a St.ok k.tag (toLE 12 s.otp.uid.toNat) }] ∧ BusOnly s t

theorem Assigned.busOnly {t : State} {a : Nat} {byId : Bool} (h : Assigned s t k a byId) : BusOnly s t := by
  obtain ⟨-, -, -, -, -, -, -, -, hbus⟩ := h
  exact hbus

theorem BusOnly.resetDue {t : State} (h : BusOnly s t) (ha : s.Awake) : t.chip.resetDue = none := by
  rw [h]
  exact ha.2

theorem assigned_sent {a : Nat} {byId : Bool} (ha : a ≤ 126) (hio : s.ioDip = false) : Assigned s
    (sendReply (takeAddress (taken s k) a byId) (k.edge + 16) (mkReply a St.ok k.tag (toLE 12 s.otp.uid.toNat))) k a byId := by
  have htook : TookAddress (taken s k) (takeAddress (taken s k) a byId) a byId := takeAddress_took ha byId hio
  generalize takeAddress (taken s k) a byId = u at htook
  have hcount : (taken s k).get F.CH_ASSIGN_LOG_ASSIGN_COUNT = s.get F.CH_ASSIGN_LOG_ASSIGN_COUNT :=
    taken_get s k _ _ _ (by decide)
  refine ⟨htook.addr, htook.addressed, htook.dowelOut, htook.lastById, htook.count.trans (by rw [hcount]), ?_, htook.replay,
    ?_, ?_⟩
  · exact (htook.kept.get F.MP_TXN_COUNT 0 0 (by decide)).trans (taken_count s k)
  · rw [sendReply, htook.out]
    rfl
  · rw [BusOnly, sendReply, htook.bridge.eq]
    rfl

/-! ### The commands that are heard whatever their address -/

section
variable (ha : s.Awake) (hhears : hears s k.edge (k.params.length + 8) = true) (hjig : s.get F.FA_JIG_LEFT 11 = 0)
  (hleave : s.mp.leaveAt = none)

section
variable {a : Byte} (hio : s.ioDip = false) (haddressed : addressed s = false) (hlo : 1 ≤ a.toNat) (hhi : a.toNat ≤ 126)
include ha hio haddressed hlo hhi

theorem assign_takes {c : Instr} {byId : Bool} (hc : exec c s = act s (assignAt0 (readied s k) (ownJob s op k) byId))
    (hlen : k.params.length = if byId then 13 else 1) (hbyte : byteAt k.params ((if byId then 13 else 1) - 1) = a.toNat)
    (hmine : (if byId then leAt k.params 0 12 == s.otp.uid.toNat else s.on F.CH_STATUS_DOWEL_IN) = true) :
    Gives c s fun t => Assigned s t k a.toNat byId := by
  have hassigned : Assigned s _ k a.toNat byId := assigned_sent hhi hio
  have hdue := hassigned.busOnly.resetDue ha
  exact gives_of_act ha (hc.trans (congrArg (act s)
    (assignAt0_takes (s := readied s k) (j := ownJob s op k) haddressed hlen hbyte hmine ⟨hlo, hhi⟩))) hdue hassigned

include hhears hjig hleave

theorem assignNext_takes (haddr : k.addr = 0) (hp : k.params = [a]) (hin : s.on F.CH_STATUS_DOWEL_IN = true) :
    Gives (.assignNext k) s fun t => Assigned s t k a.toNat false := by
  have hcmd : chainCommand s 0x02 k none = assignAt0 (readied s k) (ownJob s 0x02 k) false := by
    rw [chainCommand_heard hhears hjig (by simp [hp]) hleave, haddr]
    rfl
  exact assign_takes ha hio haddressed hlo hhi (congrArg (act s) hcmd) (by rw [hp]; rfl) (by rw [hp]; rfl) hin

theorem assignById_takes (haddr : k.addr = 0) (hp : k.params = toLE 12 s.otp.uid.toNat ++ [a]) :
    Gives (.assignById k) s fun t => Assigned s t k a.toNat true := by
  have hcmd : chainCommand s 0x03 k none = assignAt0 (readied s k) (ownJob s 0x03 k) true := by
    rw [chainCommand_heard hhears hjig (by simp [hp]) hleave, haddr]
    rfl
  have huid : leAt k.params 0 12 = s.otp.uid.toNat := by
    rw [hp]
    exact leAt_toLE_append s.otp.uid.isLt [a]
  exact assign_takes ha hio haddressed hlo hhi (congrArg (act s) hcmd) (by rw [hp]; rfl) (by rw [hp]; rfl) (beq_iff_eq.mpr huid)

end

/-! ### RELEASE (R101, R116) -/

theorem bodyRelease_key (o : JobKind) {ps : List Byte} (hp : ps = [0x5A]) :
    bodyRelease o ps s = .done (if o = .broadcast then leaveAddressed s else s) St.ok [] := by
  rw [hp]
  rfl

/-- The answer to a RELEASE takes no entry in the replay memory (R93). -/
theorem answer_release {j : Job} (hop : j.op = 5) (a : Nat) (data : List Byte) :
    answer s .chain j a St.ok data = sendReply s (j.edge + 16) (mkReply a St.ok j.tag data) true := by
  simp [answer, hop, recordErr_ok]

theorem release_answered (h : Takes s k) (hp : k.params = [0x5A]) : Gives (.release k) s fun t =>
    t.mp.out = s.mp.out ++ [{ y := k.edge + 16, bytes := mkReply (ownAddr s) St.ok k.tag [], release := true }] ∧
    t.get F.MP_TXN_COUNT = (s.get F.MP_TXN_COUNT + 1) % 2 ^ 32 ∧ BusOnly s t ∧ RegsKept [F.MP_TXN_COUNT.word] s t := by
  have hcmd := chainCommand_hw (op := 0x05) h (by decide) (by decide) (by decide) rfl rfl (by rw [hp]; rfl)
    (bodyRelease_key (s := taken s k) .chain hp)
  rw [answer_release rfl] at hcmd
  exact gives_of_act h.1 (congrArg (act s) hcmd) h.1.2
    ⟨rfl, taken_count s k, rfl, (taken_kept s k).2.trans (RegsKept.of_regs rfl)⟩

/-! ### Broadcasts -/

section
variable {j : Job} {done : Option Nat}

theorem broadcastCommand_discover (hop : j.op = 4) (hlen : j.params.length = 14) :
    broadcastCommand s j done = discoverAct s j := by
  have hrow : opRow j.op = some { bcast := true, len := lenIs 14 } := by rw [hop]; rfl
  have hl : lenIs 14 j.params = true := beq_iff_eq.mpr hlen
  simp only [broadcastCommand, hrow, hl, Bool.not_true, Bool.false_eq_true, if_false, if_pos hop]

theorem broadcastCommand_release (hop : j.op = 5) (hlen : j.params.length = 1) (haddressed : addressed s = true) :
    broadcastCommand s j done = sessionAll s j := by
  have hrow : opRow j.op = some { bcast := true, len := lenIs 1 } := by rw [hop]; rfl
  have hl : lenIs 1 j.params = true := beq_iff_eq.mpr hlen
  have hnot : ¬ j.op = 4 := by omega
  simp only [broadcastCommand, hrow, hl, Bool.not_true, Bool.false_eq_true, if_false, if_neg hnot,
    if_pos (.inr ⟨hop, haddressed⟩ : j.op = 6 ∨ (j.op = 5 ∧ addressed s = true))]

end

theorem sessionAll_ok {j : Job} {t : State} {data : List Byte} (hb : runBody .broadcast j s = .done t St.ok data) :
    sessionAll s j = t.bumpWrap F.MP_TXN_COUNT := by
  simp only [sessionAll, hb, if_true]

/-- DISCOVER with parameters in range, at a unit within its scope that is not quiet (R98, R100). -/
theorem discoverAct_judged {j : Job} {scope l : Byte} {idBytes : List Byte} (hp : j.params = scope :: l :: idBytes)
    (hscope : scope.toNat ≤ 1) (hl4 : l.toNat % 4 = 0) (hl92 : l.toNat ≤ 92) (hasked : scope = 1 ∨ addressed s = false)
    (hquiet : s.on F.CH_STATUS_QUIET_DISC = false) (hio : s.ioDip = false) : discoverAct s j =
      if s.otp.uid.toNat / 2 ^ (96 - l.toNat) = leAt idBytes 0 12 / 2 ^ (96 - l.toNat) then
        ({ s with ch.slot := some (j.edge, bitsOf s.otp.uid.toNat (92 - l.toNat) 4) } : State).bumpWrap F.MP_TXN_COUNT
      else s := by
  have hgood : ¬ (1 < scope.toNat ∨ l.toNat % 4 ≠ 0 ∨ 92 < l.toNat) := by omega
  have hscopes : scope.toNat = 1 ∨ (!addressed s) = true :=
    hasked.imp (fun h => by rw [h]; rfl) fun h => by rw [h]; rfl
  have hscope0 : byteAt j.params 0 = scope.toNat := by rw [hp]; rfl
  have hlen1 : byteAt j.params 1 = l.toNat := by rw [hp]; rfl
  have hid : leAt j.params 2 12 = leAt idBytes 0 12 := by rw [hp]; rfl
  simp only [discoverAct, hscope0, hlen1, hid, if_neg hgood, hscopes, hquiet, hio, Bool.not_false, true_and,
    Bool.false_eq_true, if_false]

section
variable (hall : k.addr = 127)
include hhears hjig hleave hall

theorem chainCommand_broadcast (hlen : k.params.length ≤ 4096) (done : Option Nat) :
    chainCommand s op k done = broadcastCommand (readied s k) (ownJob s op k) done := by
  rw [chainCommand_heard hhears hjig hlen hleave, hall]
  rfl

include ha

/-- RELEASE at 127 is not answered: the unit leaves ADDRESSED at once. -/
theorem release_leaves (haddressed : addressed s = true) (hp : k.params = [0x5A]) : Gives (.release k) s fun t =>
    ownAddr t = 0 ∧ addressed t = false ∧ t.get F.CH_STATUS_QUIET_DISC = 0 ∧ t.get F.CH_STATUS_QUIET_IRQ = 0 ∧
    t.get F.CH_STATUS_DOWEL_OUT = 0 ∧ t.mp.replay = [] ∧ t.mp.out = [] ∧ BusOnly s t := by
  have hcmd : chainCommand s 0x05 k none = (leaveAddressed (readied s k)).bumpWrap F.MP_TXN_COUNT := by
    rw [chainCommand_broadcast hhears hjig hleave hall (by simp [hp]),
      broadcastCommand_release (s := readied s k) (j := ownJob s 0x05 k) rfl (congrArg List.length hp) haddressed]
    exact sessionAll_ok (bodyRelease_key .broadcast hp)
  have hleft := leaveAddressed_left (readied s k)
  generalize leaveAddressed (readied s k) = u at hcmd hleft
  have hkept : ∀ v, RegsKept [F.MP_TXN_COUNT.word] u (u.put F.MP_TXN_COUNT v) := fun v => regsKept_put (by decide)
  have hbus : BusOnly s (u.bumpWrap F.MP_TXN_COUNT) := by
    rw [BusOnly, State.bumpWrap, State.put, State.setReg, hleft.rest]
    rfl
  refine gives_of_act ha (congrArg (act s) hcmd) (hbus.resetDue ha) ⟨?_, ?_, ?_, ?_, ?_, hleft.replay, hleft.out, hbus⟩
  · exact ((hkept _).get F.CH_ADDR_ADDR 0 0 (by decide)).trans hleft.addr
  · exact ((hkept _).on F.CH_ADDR_ADDRESSED 0 0 (by decide)).trans hleft.addressed
  · exact ((hkept _).get F.CH_STATUS_QUIET_DISC 0 0 (by decide)).trans hleft.quietDisc
  · exact ((hkept _).get F.CH_STATUS_QUIET_IRQ 0 0 (by decide)).trans hleft.quietIrq
  · exact ((hkept _).get F.CH_STATUS_DOWEL_OUT 0 0 (by decide)).trans hleft.dowelOut

/-- A unit within the scope of a DISCOVER takes a slot when its ID begins with the bits asked for, and else passes it over (R98). -/
theorem discover_judged {scope l : Byte} {idBytes : List Byte} (hp : k.params = scope :: l :: idBytes)
    (hlen : idBytes.length = 12) (hscope : scope.toNat ≤ 1) (hl4 : l.toNat % 4 = 0) (hl92 : l.toNat ≤ 92)
    (hasked : scope = 1 ∨ addressed s = false) (hquiet : s.on F.CH_STATUS_QUIET_DISC = false) (hio : s.ioDip = false) :
    Gives (.discover k) s fun t =>
      (s.otp.uid.toNat / 2 ^ (96 - l.toNat) = leAt idBytes 0 12 / 2 ^ (96 - l.toNat) →
        t.ch.slot = some (k.edge, bitsOf s.otp.uid.toNat (92 - l.toNat) 4) ∧
        t.get F.MP_TXN_COUNT = (s.get F.MP_TXN_COUNT + 1) % 2 ^ 32) ∧
      (s.otp.uid.toNat / 2 ^ (96 - l.toNat) ≠ leAt idBytes 0 12 / 2 ^ (96 - l.toNat) →
        t.ch.slot = slotLeft s k.edge ∧ t.get F.MP_TXN_COUNT = s.get F.MP_TXN_COUNT) ∧
      BusOnly s t ∧ RegsKept [F.MP_TXN_COUNT.word] s t := by
  have hcmd : chainCommand s 0x04 k none =
      if s.otp.uid.toNat / 2 ^ (96 - l.toNat) = leAt idBytes 0 12 / 2 ^ (96 - l.toNat) then
        ({ readied s k with ch.slot := some (k.edge, bitsOf s.otp.uid.toNat (92 - l.toNat) 4) } : State).bumpWrap F.MP_TXN_COUNT
      else readied s k := by
    have hlen14 : k.params.length = 14 := by rw [hp, List.length_cons, List.length_cons, hlen]
    rw [chainCommand_broadcast hhears hjig hleave hall (by omega), broadcastCommand_discover rfl hlen14]
    exact discoverAct_judged (s := readied s k) (j := ownJob s 0x04 k) hp hscope hl4 hl92 hasked hquiet hio
  by_cases hmatch : s.otp.uid.toNat / 2 ^ (96 - l.toNat) = leAt idBytes 0 12 / 2 ^ (96 - l.toNat)
  · rw [if_pos hmatch] at hcmd
    exact gives_of_act ha (congrArg (act s) hcmd) ha.2 ⟨fun _ => ⟨rfl, taken_count s k⟩, fun hne => absurd hmatch hne, rfl,
      (RegsKept.of_regs rfl).trans (regsKept_bumpWrap (List.mem_singleton.mpr rfl))⟩
  · rw [if_neg hmatch] at hcmd
    exact gives_of_act ha (congrArg (act s) hcmd) ha.2 ⟨fun heq => absurd heq hmatch, fun _ => ⟨rfl, rfl⟩, rfl,
      RegsKept.of_regs rfl⟩

end

end

/-- Settles O5: the ASSIGN commands by `assignAt0_takes`, RELEASE by `leaveAddressed_left`, DISCOVER by `discoverAct_judged`. -/
theorem addressing : Obligations.Addressing := by
  intro s k ha hhears hjig hleave hio
  refine ⟨fun a haddr hun hlo hhi => ⟨fun hp hin => ?next, fun hp => ?byId⟩, fun h hp => release_answered h hp,
    fun haddressed hall hp => release_leaves ha hhears hjig hleave hall haddressed hp,
    fun scope l idBytes hall hp hlen hscope hl4 hl92 hasked hquiet =>
      discover_judged ha hhears hjig hleave hall hp hlen hscope hl4 hl92 hasked hquiet hio,
    gives_of_act ha rfl ha.2 rfl⟩
  case next => exact assignNext_takes ha hhears hjig hleave hio hun hlo hhi haddr hp hin
  case byId => exact assignById_takes ha hhears hjig hleave hio hun hlo hhi haddr hp

end Sys2Proof.Machine
end

section
/-!
PROOFS. The receive machine (R128, Table 4.3): what it makes of a byte, of a field of a packet, and of a whole packet.
-/
namespace Sys2Proof.Machine

/-! ### Bits sampled in order -/

theorem rxRun_append (e : Nat) (x : RxX) (as bs : List Bool) : rxRun e x (as ++ bs) =
    ((rxRun (e + as.length) (rxRun e x as).1 bs).1, (rxRun e x as).2 ++ (rxRun (e + as.length) (rxRun e x as).1 bs).2) := by
  induction as generalizing e x with
  | nil => rfl
  | cons a as ih =>
    simp only [List.cons_append, rxRun, ih, List.length_cons, Nat.add_assoc, Nat.add_comm 1]
    cases (rxBit x a).2 <;> rfl

/-- The receive machine does not depend on the number of the edge. -/
theorem rxBits_eq_rxRun (e : Nat) (x : RxX) (bs : List Bool) :
    rxBits x bs = ((rxRun e x bs).1, (rxRun e x bs).2.map Prod.snd) := by
  induction bs generalizing e x with
  | nil => rfl
  | cons b bs ih =>
    simp only [rxBits, rxRun, ih (e + 1)]
    cases (rxBit x b).2 <;> rfl

/-- The bits of one byte, most significant first (R123). -/
def byteBits (b : Byte) : List Bool := (List.range 8).map fun i => b.toNat.testBit (7 - i)

@[simp] theorem length_byteBits (b : Byte) : (byteBits b).length = 8 := rfl

theorem bitsByte_byteBits (b : Byte) : bitsByte (byteBits b) = b := by
  revert b
  decide +kernel

theorem bitsOfBytes_nil : bitsOfBytes [] = [] := rfl

theorem bitsOfBytes_cons (b : Byte) (bs : List Byte) : bitsOfBytes (b :: bs) = byteBits b ++ bitsOfBytes bs := rfl

theorem bitsOfBytes_append (as bs : List Byte) : bitsOfBytes (as ++ bs) = bitsOfBytes as ++ bitsOfBytes bs :=
  List.flatMap_append

theorem length_bitsOfBytes (bs : List Byte) : (bitsOfBytes bs).length = 8 * bs.length := by
  induction bs with
  | nil => rfl
  | cons b bs ih => rw [bitsOfBytes_cons, List.length_append, length_byteBits, ih, List.length_cons]; omega

/-- Bytes that follow bytes whose run is known. -/
theorem rxRun_then {e : Nat} {x y : RxX} {as : List Byte} {evs : List (Nat × RxEvent)}
    (h : rxRun e x (bitsOfBytes as) = (y, evs)) (bs : List Byte) : rxRun e x (bitsOfBytes (as ++ bs)) =
      ((rxRun (e + 8 * as.length) y (bitsOfBytes bs)).1, evs ++ (rxRun (e + 8 * as.length) y (bitsOfBytes bs)).2) := by
  rw [bitsOfBytes_append, rxRun_append, h, length_bitsOfBytes]

/-! ### One byte of a packet -/

/-- The machine within a packet, at the first bit of a byte: the bytes so far, and how many of the present part are to come. -/
def within (st : RxSt) (bytes : List Byte) (left : Nat) : RxX := { st := st, bytes := bytes, left := left }

/-- The parts of a packet in which whole bytes are collected. -/
def RxSt.collects (st : RxSt) : Prop := st ≠ .hunt ∧ st ≠ .candidate

theorem collects_header : RxSt.header.collects := ⟨nofun, nofun⟩
theorem collects_body : RxSt.body.collects := ⟨nofun, nofun⟩
theorem collects_check : RxSt.check.collects := ⟨nofun, nofun⟩

theorem rxBit_collects {x : RxX} (hst : x.st.collects) (b : Bool) : rxBit x b =
    if (x.bits ++ [b]).length < 8 then ({ x with bits := x.bits ++ [b] }, none)
    else rxByte { x with bits := [] } (bitsByte (x.bits ++ [b])) := by
  unfold rxBit
  cases hx : x.st with
  | hunt => exact absurd hx hst.1
  | candidate => exact absurd hx hst.2
  | header => rfl
  | body => rfl
  | check => rfl

/-- Bits that do not fill a byte are collected. -/
theorem rxRun_bits {x : RxX} (hst : x.st.collects) (e : Nat) {bs : List Bool} (hlen : x.bits.length + bs.length < 8) :
    rxRun e x bs = ({ x with bits := x.bits ++ bs }, []) := by
  induction bs generalizing e x with
  | nil => simp [rxRun]
  | cons b bs ih =>
    rw [List.length_cons] at hlen
    have hbit : rxBit x b = ({ x with bits := x.bits ++ [b] }, none) := by
      rw [rxBit_collects hst, if_pos (by simp; omega)]
    rw [rxRun, hbit, ih (x := { x with bits := x.bits ++ [b] }) hst _ (by simp; omega)]
    simp

/-- What is reported at edge `e`, if anything. -/
def reportAt (e : Nat) (r : Option RxEvent) : List (Nat × RxEvent) := r.toList.map fun v => (e, v)

/-- A byte within a packet is reported at its last bit. -/
theorem rxRun_byteBits {x : RxX} (hst : x.st.collects) (hbits : x.bits = []) (e : Nat) (b : Byte) :
    rxRun e x (byteBits b) = ((rxByte x b).1, reportAt (e + 7) (rxByte x b).2) := by
  have hsplit : byteBits b = (byteBits b).take 7 ++ [b.toNat.testBit 0] := rfl
  have hself : ({ x with bits := [] } : RxX) = x := by rw [← hbits]
  have hfull : rxBit { x with bits := (byteBits b).take 7 } (b.toNat.testBit 0) = rxByte x b := by
    rw [rxBit_collects (by exact hst), if_neg (by simp), ← hsplit, bitsByte_byteBits]
    exact congrArg (rxByte · b) hself
  rw [hsplit, rxRun_append, rxRun_bits hst e (by simp [hbits]), hbits, List.nil_append, List.nil_append, rxRun, hfull]
  cases (rxByte x b).2 <;> rfl

/-! ### One part of a packet -/

theorem rxByte_goes_on (st : RxSt) (bytes : List Byte) (left : Nat) (b : Byte) :
    rxByte (within st bytes (left + 2)) b = (within st (bytes ++ [b]) (left + 1), none) := by
  unfold rxByte
  exact if_pos (by simp [within])

/-- A part of a packet ends with its last byte. -/
theorem rxRun_part {st : RxSt} (hst : st.collects) {bytes bs : List Byte} {b : Byte} {y : RxX} {r : Option RxEvent}
    (hlast : rxByte (within st (bytes ++ bs) 1) b = (y, r)) (e : Nat) {left : Nat} (hleft : left = bs.length + 1) :
    rxRun e (within st bytes left) (bitsOfBytes (bs ++ [b])) = (y, reportAt (e + 8 * bs.length + 7) r) := by
  subst hleft
  induction bs generalizing e bytes with
  | nil =>
    rw [List.append_nil] at hlast
    rw [List.nil_append, bitsOfBytes_cons, bitsOfBytes_nil, List.append_nil, List.length_nil, Nat.zero_add,
      rxRun_byteBits (x := within st bytes 1) hst rfl, hlast]
  | cons a bs ih =>
    have hedge : e + 8 + 8 * bs.length + 7 = e + 8 * (bs.length + 1) + 7 := by omega
    rw [List.cons_append, bitsOfBytes_cons, rxRun_append, List.length_cons,
      rxRun_byteBits (x := within st bytes (bs.length + 2)) hst rfl, rxByte_goes_on, length_byteBits,
      ih (by rwa [List.append_assoc, List.singleton_append]), hedge]
    rfl

/-- The end of HEADER (Table 4.3). -/
theorem rxByte_header (sync addr op tag l0 l1 : Byte) : rxByte (within .header [sync, addr, op, tag, l0] 1) l1 =
    if 4096 < l0.toNat + 256 * l1.toNat then ({}, some (.tooLong (sync == 0xD3) [addr, op, tag, l0, l1]))
    else if l0.toNat + 256 * l1.toNat = 0 then (within .check [sync, addr, op, tag, l0, l1] 2, none)
    else (within .body [sync, addr, op, tag, l0, l1] (l0.toNat + 256 * l1.toNat), none) := rfl

theorem rxByte_body (bytes : List Byte) (b : Byte) :
    rxByte (within .body bytes 1) b = (within .check (bytes ++ [b]) 2, none) := rfl

/-- What the machine reports of a packet with a good SYNC that it has followed whole. -/
def packetReport (sync : Byte) (bytes : List Byte) : RxEvent := if sync = 0xD3 then .command bytes else .replyEnd

theorem rxByte_check (sync : Byte) (bytes : List Byte) (b : Byte) :
    rxByte (within .check (sync :: bytes) 1) b = ({}, some (packetReport sync (bytes ++ [b]))) := by
  simp [rxByte, within, packetReport]

/-! ### A whole packet -/

/-- The two values of SYNC (Tables 4.1, 4.2). -/
def goodSync (sync : Byte) : Prop := sync = 0xD3 ∨ sync = 0xB4

/-- A machine that stands ready takes SYNC and goes on to HEADER. -/
theorem rxRun_sync {x : RxX} (hready : x.ready = true) {sync : Byte} (hsync : goodSync sync) (e : Nat) :
    rxRun e x (byteBits sync) = (within .header [sync] 5, []) := by
  simp only [RxX.ready, Bool.and_eq_true, beq_iff_eq] at hready
  obtain ⟨hst, hzeros⟩ := hready
  have hfirst : rxBit x true = ({ st := .candidate, bits := [true] }, none) := by simp [rxBit, hst, hzeros]
  rcases hsync with rfl | rfl
  · rw [show byteBits 0xD3 = true :: [true, false, true, false, false, true, true] by decide, rxRun, hfirst]
    rfl
  · rw [show byteBits 0xB4 = true :: [false, true, true, false, true, false, false] by decide, rxRun, hfirst]
    rfl

section
variable {x : RxX} (hready : x.ready = true) {sync : Byte} (hsync : goodSync sync) (e : Nat)
include hready hsync

/-- SYNC and header, to the last bit of LEN. -/
theorem rxRun_header {addr op tag l0 l1 : Byte} {y : RxX} {r : Option RxEvent}
    (hlast : rxByte (within .header [sync, addr, op, tag, l0] 1) l1 = (y, r)) :
    rxRun e x (bitsOfBytes [sync, addr, op, tag, l0, l1]) = (y, reportAt (e + 47) r) := by
  have hbytes : [sync, addr, op, tag, l0, l1] = sync :: ([addr, op, tag, l0] ++ [l1]) := rfl
  rw [hbytes, bitsOfBytes_cons, rxRun_append, rxRun_sync hready hsync, rxRun_part (left := 5) collects_header hlast _ rfl, List.nil_append]
  rfl

/-- A header whose LEN is above 4,096 is given up. -/
theorem rxRun_tooLong {addr op tag : Byte} {len : BitVec 16} (hlen : 4096 < len.toNat) :
    rxRun e x (bitsOfBytes (sync :: addr :: op :: tag :: toLE 2 len.toNat)) =
      ({}, [(e + 47, .tooLong (sync == 0xD3) (addr :: op :: tag :: toLE 2 len.toNat))]) := by
  have hbytes : (BitVec.ofNat 8 len.toNat).toNat + 256 * (BitVec.ofNat 8 (len.toNat / 256)).toNat = len.toNat := by
    have hmax := len.isLt
    simp only [BitVec.toNat_ofNat]
    omega
  have htoLE : toLE 2 len.toNat = [BitVec.ofNat 8 len.toNat, BitVec.ofNat 8 (len.toNat / 256)] := rfl
  rw [htoLE, rxRun_header hready hsync e (by rw [rxByte_header, hbytes, if_pos hlen])]
  rfl

/-- SYNC, header and parameters or data, to the first bit of the CRC. -/
theorem rxRun_toCheck {addr op tag l0 l1 : Byte} {body : List Byte} (hlen : body.length = l0.toNat + 256 * l1.toNat)
    (hmax : body.length ≤ 4096) : rxRun e x (bitsOfBytes ([sync, addr, op, tag, l0, l1] ++ body)) =
      (within .check ([sync, addr, op, tag, l0, l1] ++ body) 2, []) := by
  have hheader := rxByte_header sync addr op tag l0 l1
  rw [← hlen, if_neg (Nat.not_lt.mpr hmax)] at hheader
  rcases List.eq_nil_or_concat body with rfl | ⟨bs, b, rfl⟩
  · exact rxRun_header hready hsync e hheader
  · rw [List.concat_eq_append] at hheader ⊢
    rw [if_neg (by simp), List.length_append, List.length_singleton] at hheader
    rw [rxRun_then (rxRun_header hready hsync e hheader), rxRun_part collects_body (rxByte_body _ b) _ rfl, List.append_assoc]
    rfl

end

/-- The parts of a packet's bytes after SYNC. -/
theorem rawPacket_parts {bytes : List Byte} (h : rawPacket bytes = true) : ∃ addr op tag l0 l1 body c0 c1,
    bytes = addr :: op :: tag :: l0 :: l1 :: (body ++ [c0, c1]) ∧ body.length = l0.toNat + 256 * l1.toNat ∧ body.length ≤ 4096 := by
  simp only [rawPacket, Bool.and_eq_true, Nat.ble_eq, beq_iff_eq] at h
  obtain ⟨⟨hmin, hmax⟩, hlen⟩ := h
  match bytes, hmin with
  | addr :: op :: tag :: l0 :: l1 :: rest, hmin =>
    simp only [List.length_cons, List.getD_cons_succ, List.getD_cons_zero] at hmin hmax hlen
    have hcrc : (rest.drop (rest.length - 2)).length = 2 := by rw [List.length_drop]; omega
    obtain ⟨c0, c1, hc⟩ := List.length_eq_two.mp hcrc
    refine ⟨addr, op, tag, l0, l1, rest.take (rest.length - 2), c0, c1, ?_, ?_, ?_⟩
    · rw [← hc, List.take_append_drop]
    · rw [List.length_take]; omega
    · rw [List.length_take]; omega

/-- A whole packet is followed to its last bit, and reported there. -/
theorem rxRun_packet {x : RxX} (hready : x.ready = true) {sync : Byte} (hsync : goodSync sync) (e : Nat) {bytes : List Byte}
    (h : rawPacket bytes = true) : rxRun e x (bitsOfBytes (sync :: bytes)) =
      ({}, [(e + 8 * bytes.length + 7, packetReport sync bytes)]) := by
  obtain ⟨addr, op, tag, l0, l1, body, c0, c1, rfl, hlen, hmax⟩ := rawPacket_parts h
  have hbytes : sync :: addr :: op :: tag :: l0 :: l1 :: (body ++ [c0, c1]) = [sync, addr, op, tag, l0, l1] ++ body ++ ([c0] ++ [c1]) := by
    simp
  have hcheck : rxByte (within .check ([sync, addr, op, tag, l0, l1] ++ body ++ [c0]) 1) c1 =
      ({}, some (packetReport sync (addr :: op :: tag :: l0 :: l1 :: (body ++ [c0, c1])))) := by
    have hend := rxByte_check sync (addr :: op :: tag :: l0 :: l1 :: (body ++ [c0])) c1
    simpa using hend
  have hedge : e + 8 * ([sync, addr, op, tag, l0, l1] ++ body).length + 8 * [c0].length + 7 =
      e + 8 * (addr :: op :: tag :: l0 :: l1 :: (body ++ [c0, c1])).length + 7 := by
    simp only [List.length_append, List.length_cons, List.length_nil]
    omega
  rw [hbytes, rxRun_then (rxRun_toCheck hready hsync e hlen hmax), rxRun_part (left := 2) collects_check hcheck _ rfl, hedge]
  rfl

/-- Settles O8: `rxRun_packet` follows a packet to its end, `rxRun_tooLong` gives a long header up. -/
theorem receiveMachine : Obligations.ReceiveMachine := by
  unfold Obligations.ReceiveMachine
  refine ⟨fun bytes h => ⟨?_, ?_⟩, fun reply addr op tag len hlen => ?_⟩
  · rw [rxBits_eq_rxRun 0, rxRun_packet rfl (.inl rfl) 0 h]
    rfl
  · rw [rxBits_eq_rxRun 0, rxRun_packet rfl (.inr rfl) 0 h]
    rfl
  · cases reply with
    | false => rw [rxBits_eq_rxRun 0, if_neg nofun, rxRun_tooLong rfl (.inl rfl) 0 hlen]; rfl
    | true => rw [rxBits_eq_rxRun 0, if_pos rfl, rxRun_tooLong rfl (.inr rfl) 0 hlen]; rfl

end Sys2Proof.Machine
end

section
/-!
PROOFS. The bytes of a packet from ADDR to its CRC (R127, Tables 4.1, 4.2).
-/
namespace Sys2Proof.Machine

/-! ### The CRC is one of 16 bits (R127) -/

theorem crcShift_lt {w poly : Nat} (hpoly : poly < 2 ^ w) (c : Nat) : crcShift w poly c < 2 ^ w := by
  have hshift : c * 2 % 2 ^ w < 2 ^ w := Nat.mod_lt _ (Nat.two_pow_pos w)
  unfold crcShift
  split
  · exact Nat.xor_lt_two_pow hshift hpoly
  · exact hshift

theorem crcShifts_lt {w poly c : Nat} (hpoly : poly < 2 ^ w) (hc : c < 2 ^ w) (n : Nat) : crcShifts w poly n c < 2 ^ w := by
  induction n generalizing c with
  | zero => exact hc
  | succ n ih => exact ih (crcShift_lt hpoly c)

theorem crc16From_lt {c : Nat} (hc : c < 2 ^ 16) (bs : List Byte) : crc16From c bs < 2 ^ 16 := by
  induction bs generalizing c with
  | nil => exact hc
  | cons b bs ih =>
    have hb : b.toNat * 256 < 2 ^ 16 := by
      have hbyte := b.isLt
      omega
    exact ih (crcShifts_lt (by decide) (Nat.xor_lt_two_pow hc hb) 8)

theorem crc16_lt (bs : List Byte) : crc16 bs < 2 ^ 16 := crc16From_lt (by decide) bs

/-! ### A packet with its own LEN and CRC -/

/-- From ADDR to the last of the parameters or data; the second byte is the opcode or the status. -/
def packetHead (addr : Byte) (op : Nat) (tag : Byte) (params : List Byte) : List Byte :=
  addr :: BitVec.ofNat 8 op :: tag :: (toLE 2 params.length ++ params)

/-- The same with its CRC. -/
def packet (addr : Byte) (op : Nat) (tag : Byte) (params : List Byte) : List Byte :=
  packetHead addr op tag params ++ toLE 2 (crc16 (packetHead addr op tag params))

theorem mkReply_eq_packet (addr st : Nat) (tag : Byte) (data : List Byte) :
    mkReply addr st tag data = packet (BitVec.ofNat 8 addr) st tag data := rfl

theorem packetBytes_eq_packet (op : Nat) (k : Pkt) : packetBytes op k = 0xD3 :: packet k.addr op k.tag k.params := rfl

section
variable (addr : Byte) (op : Nat) (tag : Byte) {params : List Byte}

theorem length_packetHead : (packetHead addr op tag params).length = params.length + 5 := by simp [packetHead, toLE]

theorem length_packet : (packet addr op tag params).length = (packetHead addr op tag params).length + 2 := by
  rw [packet, List.length_append]
  rfl

theorem take_packet : (packet addr op tag params).take ((packet addr op tag params).length - 2) = packetHead addr op tag params := by
  rw [length_packet, Nat.add_sub_cancel, packet, List.take_left']
  rfl

theorem crc_packet : crc16 ((packet addr op tag params).take ((packet addr op tag params).length - 2)) =
    leAt (packet addr op tag params) ((packet addr op tag params).length - 2) 2 := by
  rw [take_packet, length_packet, Nat.add_sub_cancel]
  exact (leAt_append_toLE (k := 2) (crc16_lt _) _).symm

theorem len_packet (hlen : params.length < 2 ^ 16) : leAt (packet addr op tag params) 3 2 = params.length := by
  have hle := leAt_toLE_append (k := 2) hlen (params ++ toLE 2 (crc16 (packetHead addr op tag params)))
  rw [← List.append_assoc] at hle
  exact hle

theorem rawPacket_packet (hlen : params.length ≤ 4096) : rawPacket (packet addr op tag params) = true := by
  have hle : leAt (packet addr op tag params) 3 2 =
      ((packet addr op tag params).getD 3 0).toNat + 256 * ((packet addr op tag params).getD 4 0).toNat := by
    simp [packet, packetHead, toLE, leAt, ofLE]
  rw [len_packet addr op tag (by omega)] at hle
  simp only [rawPacket, Bool.and_eq_true, Nat.ble_eq, beq_iff_eq, length_packet, length_packetHead]
  omega

end

end Sys2Proof.Machine
end

section
/-!
PROOFS. Errors on the bus (R128, R140, R157, R158).

What a packet on the bus does is what its own report does, and what the receive machine reports before it: a machine that an
earlier packet left short of its end finishes that packet over the idle bus (R129), and what it makes of it counts as a bad CRC.
`Obligations.BusErrors` does not ask that the machine stands in HUNT before the packet: it fails on a machine that a broken
packet left in CHECK, and holds on every state whose machine stands in HUNT.
-/
namespace Sys2Proof.Machine

variable {s : State} {k : Pkt} {edge : Nat}

/-! ### A packet on an idle bus -/

/-- The unit as the last bit of a packet is sampled at `edge`, with no RELEASE to carry out: the receive machine is back in HUNT. -/
def listened (s : State) (edge : Nat) : State := { s with mp.rx := {}, mp.rxEdge := edge + 1, ch.slot := slotLeft s edge }

theorem rxIdle_hunt {x : RxX} (h : x.st = .hunt) (e n : Nat) : rxIdle e x n = ({ x with zeros := min 8 (x.zeros + n) }, []) := by
  unfold rxIdle
  rw [h]

theorem pclkReach_plain (hleave : s.mp.leaveAt = none) (edge : Nat) : pclkReach edge s = { s with ch.slot := slotLeft s edge } :=
  pclkReach_stays (by simp [hleave])

section
variable (hleave : s.mp.leaveAt = none) (hidle : s.mp.rx.st = .hunt)
include hleave hidle

/-- Bytes that the unit hears, of which its receive machine makes one report. -/
theorem busBytes_of_report {bytes : List Byte} {y : RxX} {r : Nat × RxEvent} (hhears : hears s edge bytes.length = true)
    (hrun : ∀ x : RxX, x.ready = true → rxRun (firstEdge edge bytes.length) x (bitsOfBytes bytes) = (y, [r])) (hy : y = {}) :
    busBytes (pclkReach edge s) bytes edge = rxAct r (listened s edge) := by
  simp only [hears, Bool.and_eq_true] at hhears
  obtain ⟨-, hready⟩ := hhears
  have hnone : (rxBefore s edge bytes.length).2 = [] := by rw [rxBefore, rxIdle_hunt hidle]
  have hbefore : rxBefore { s with ch.slot := slotLeft s edge } edge bytes.length = rxBefore s edge bytes.length := rfl
  rw [pclkReach_plain hleave, busBytes, hbefore]
  simp only [hrun _ hready, hnone, List.nil_append, forList, hy]
  rfl

/-- The last bit of a packet that is heard comes at the edge it is said to. -/
theorem busBytes_packet {sync : Byte} (hsync : goodSync sync) {bytes : List Byte} (hraw : rawPacket bytes = true)
    (hhears : hears s edge (bytes.length + 1) = true) :
    busBytes (pclkReach edge s) (sync :: bytes) edge = rxAct (edge, packetReport sync bytes) (listened s edge) := by
  have hspan : 8 * (bytes.length + 1) ≤ edge + 1 := by
    have hsamples := hears_samples hhears
    simp only [samples, Bool.and_eq_true, Nat.ble_eq] at hsamples
    obtain ⟨⟨-, hin⟩, -⟩ := hsamples
    omega
  have hlast : firstEdge edge (bytes.length + 1) + 8 * bytes.length + 7 = edge := by
    unfold firstEdge
    omega
  refine busBytes_of_report hleave hidle (bytes := sync :: bytes) hhears (fun x hx => ?_) rfl
  have hrun := rxRun_packet hx hsync (firstEdge edge (bytes.length + 1)) hraw
  rwa [hlast] at hrun

theorem exec_badCrc {bytes : List Byte} (hraw : rawPacket bytes = true) (hhears : hears s edge (bytes.length + 1) = true) :
    exec (.badCrc bytes edge) s = act s (rxAct (edge, .command bytes) (listened s edge)) :=
  congrArg (act s) ((if_pos (hears_samples hhears)).trans (busBytes_packet hleave hidle (.inl rfl) hraw hhears))

theorem exec_replyFollow {bytes : List Byte} (hraw : rawPacket bytes = true) (hhears : hears s edge (bytes.length + 1) = true) :
    exec (.replyFollow bytes edge) s = act s (listened s edge) :=
  congrArg (act s) ((if_pos (hears_samples hhears)).trans (busBytes_packet hleave hidle (.inr rfl) hraw hhears))

/-- The header's bytes from SYNC. -/
theorem exec_lenAbove4096 {reply : Bool} {sync addr op tag : Byte} {len : BitVec 16} (hsync : goodSync sync)
    (hof : (if reply then 0xB4 else 0xD3) = sync) (hhears : hears s edge 6 = true) (hlen : 4096 < len.toNat) :
    exec (.lenAbove4096 reply addr op tag len edge) s = act s (rxAct
      (firstEdge edge 6 + 47, .tooLong (sync == 0xD3) (addr :: op :: tag :: toLE 2 len.toNat)) (listened s edge)) := by
  have hbus := busBytes_of_report hleave hidle (bytes := sync :: addr :: op :: tag :: toLE 2 len.toNat) hhears
    (fun x hx => rxRun_tooLong hx hsync (firstEdge edge 6) hlen) rfl
  subst hof
  exact congrArg (act s) ((if_pos (hears_samples hhears)).trans hbus)

end

/-! ### What is counted and recorded (R128, R158) -/

/-- MP_LAST_ERR as a record of an error reads (Table 4.8). -/
def errWord (addr : Byte) (op : Nat) (tag : Byte) (st : Nat) : Nat :=
  2 ^ 31 + addr.toNat % 128 * 2 ^ 24 + op % 256 * 2 ^ 16 + tag.toNat * 2 ^ 8 + st

theorem recordErr_get (s : State) (addr : Byte) (op : Nat) (tag : Byte) {st : Nat} (hok : st ≠ St.ok) (hpending : st ≠ St.pending)
    (hst : st < 256) : (recordErr s addr op tag st).get F.MP_LAST_ERR = errWord addr op tag st := by
  have hlt : errWord addr op tag st < 2 ^ 32 := by
    have htag := tag.isLt
    unfold errWord
    omega
  rw [recordErr, if_neg (by simp [hok, hpending]), State.get_put _ _ _ _ _ (by decide)]
  exact Nat.mod_eq_of_lt hlt

theorem badCrcPacket_kept (s : State) (addr : Byte) (op : Nat) (tag : Byte) :
    (badCrcPacket s addr op tag).get F.MP_BAD_CRC_COUNT = min (s.get F.MP_BAD_CRC_COUNT + 1) 65535 ∧
    (badCrcPacket s addr op tag).get F.MP_LAST_ERR = errWord addr op tag St.badCrc ∧
    Only [F.MP_BAD_CRC_COUNT.at, F.MP_LAST_ERR.word] s (badCrcPacket s addr op tag) := by
  have hrecorded := recordErr_kept (s.bumpSat F.MP_BAD_CRC_COUNT) addr op tag St.badCrc
  have hcounted : (s.bumpSat F.MP_BAD_CRC_COUNT).get F.MP_BAD_CRC_COUNT = min (s.get F.MP_BAD_CRC_COUNT + 1) 65535 :=
    (State.get_put _ _ _ _ _ (by decide)).trans (Nat.mod_eq_of_lt (by change min _ 65535 < 65536; omega))
  refine ⟨(hrecorded.2.get _ _ _ (by decide)).trans hcounted, recordErr_get _ _ _ _ (by decide) (by decide) (by decide), ?_⟩
  exact (only_bumpSat (List.mem_cons_self)).trans ⟨hrecorded.1, hrecorded.2.mono (by simp)⟩

theorem jigUse_unarmed (h : s.get F.FA_JIG_LEFT 11 = 0) : jigUse s 11 = s := by simp [jigUse, h]

/-- A command with a bad CRC is counted and recorded. -/
theorem rxAct_badCrc {bytes : List Byte} (hjig : s.get F.FA_JIG_LEFT 11 = 0)
    (hcrc : crc16 (bytes.take (bytes.length - 2)) ≠ leAt bytes (bytes.length - 2) 2) :
    rxAct (edge, .command bytes) s = badCrcPacket s (bytes.headD 0) (byteAt bytes 1) (bytes.getD 2 0) := by
  simp only [rxAct, hcrc, if_false, jigUse_unarmed hjig]

/-- A command with a good CRC commits. -/
theorem rxAct_goodCrc {bytes : List Byte} (hcrc : crc16 (bytes.take (bytes.length - 2)) = leAt bytes (bytes.length - 2) 2) :
    rxAct (edge, .command bytes) s = commitPacket s (byteAt bytes 1)
      { addr := bytes.headD 0, tag := bytes.getD 2 0, params := (bytes.take (bytes.length - 2)).drop 5, edge := edge } none := by
  simp only [rxAct, hcrc, if_true]

/-! ### A packet whose opcode is not defined (R140) -/

/-- The packet of an opcode that is not defined commits, and is answered BAD_OPCODE. -/
theorem chainCommand_undefined {op : Nat} (h : Takes s k) (hrow : ownRow op = none) :
    chainCommand s op k none = answer (taken s k) .chain (ownJob s op k) (ownAddr s) St.badOpcode [] := by
  obtain ⟨-, hhears, hjig, haddressed, haddr, hlo, hhi, hlen, hleave⟩ := h
  have h2 : op ≠ 2 := by rintro rfl; exact nomatch hrow
  have h3 : op ≠ 3 := by rintro rfl; exact nomatch hrow
  have hown : addressed (readied s k) = true ∧ k.addr.toNat = ownAddr (readied s k) := ⟨haddressed, haddr⟩
  rw [chainCommand_heard hhears hjig hlen hleave, if_neg (by omega), if_neg (by omega), if_pos hown, if_neg (by simp [h2, h3]), hrow,
    ← ownAddr_taken s k]
  rfl

theorem undefined_answered {op : Byte} (h : Takes s k) (hidle : s.mp.rx.st = .hunt) (hrow : ownRow op.toNat = none) :
    Gives (.badCrc ((packetBytes op.toNat k).drop 1) k.edge) s fun t => Served [] s t k St.badOpcode [] ∧ BusOnly s t := by
  obtain ⟨ha, hhears, -, -, -, -, -, hlen, hleave⟩ := id h
  have hsize : (packet k.addr op.toNat k.tag k.params).length + 1 = k.params.length + 8 := by
    rw [length_packet, length_packetHead]
  have hop : byteAt (packet k.addr op.toNat k.tag k.params) 1 = op.toNat :=
    congrArg BitVec.toNat (BitVec.ofNat_toNat 8 op |>.trans (BitVec.setWidth_eq op))
  have hpkt : rxAct (k.edge, .command (packet k.addr op.toNat k.tag k.params)) (listened s k.edge) =
      commitPacket (readied s k) op.toNat k none := by
    rw [rxAct_goodCrc (crc_packet _ _ _), take_packet, hop]
    rfl
  have hexec := exec_badCrc hleave hidle (rawPacket_packet k.addr op.toNat k.tag hlen) (edge := k.edge) (by rw [hsize]; exact hhears)
  rw [hpkt, ← chainCommand_commits hhears hlen hleave, chainCommand_undefined h hrow] at hexec
  have hrep := answer_chain (taken s k) (ownJob s op.toNat k) (ownAddr s) St.badOpcode [] (.inr (by decide))
  exact gives_of_act ha hexec (hrep.1.chip ▸ ha.2) ⟨hrep.served0, hrep.bus0⟩

/-! ### The clears of block MP (R157) -/

/-- MP_CNT_CLR and MP_LAST_ERR in the register table. -/
def cntClrSpec : RegSpec := { name := "MP_CNT_CLR", base := 0x40000020, wo := 0x00000007 }
def lastErrSpec : RegSpec := { name := "MP_LAST_ERR", base := 0x4000000C, w1c := 0x80000000, ro := 0x7FFFFFFF }

theorem specAt_cntClr : specAt 0x40000020 = some cntClrSpec := by decide +kernel
theorem specAt_lastErr : specAt 0x4000000C = some lastErrSpec := by decide +kernel

/-- A write that clears a whole register, after one that touched no other. -/
theorem gives_of_cleared {c : Instr} {u : State} {f : Field} (ha : s.Awake) (hu : Only [f.word] s u)
    (hexec : exec c s = act s (u.put f 0)) (hlo : f.lo = 0) (hw : f.w = 32) :
    Gives c s fun t => t.reg f.addr = 0 ∧ Only [f.word] s t := by
  have hput : Only [f.word] s (u.put f 0) := hu.trans (only_put_word (List.mem_singleton.mpr rfl) rfl (by omega))
  exact gives_of_act ha hexec (hput.chip ▸ ha.2) ⟨reg_put_word u f 0 0 0 hlo hw, hput⟩

/-- MP_CNT_CLR holds nothing itself: a write only does what it sets off. -/
theorem writeMp_cntClr (s : State) (v : Nat) : ∃ u, (∀ fs, Only fs s u) ∧
    writeMp s F.MP_CNT_CLR v = hookMp 0x40000020 v (s.reg 0x40000020).toNat u :=
  ⟨storeWord s 0x40000020 v, fun _ => storeWord_kept_only s specAt_cntClr rfl (Nat.zero_and v),
    writeBy_ok specAt_cntClr rfl rfl rfl⟩

/-- One bit of MP_CNT_CLR clears one count. -/
theorem cntClr_clears {c : Instr} {v : Nat} {f : Field} (ha : s.Awake) (hexec : exec c s = act s (writeMp s F.MP_CNT_CLR v))
    (hbit : ∀ (old : Nat) (u : State), hookMp 0x40000020 v old u = u.put f 0) (hlo : f.lo = 0) (hw : f.w = 32) :
    Gives c s fun t => t.reg f.addr = 0 ∧ Only [f.word] s t := by
  obtain ⟨u, hu, hwrite⟩ := writeMp_cntClr s v
  rw [hwrite, hbit] at hexec
  exact gives_of_cleared ha (hu _) hexec hlo hw

theorem lastErr_clears (ha : s.Awake) :
    Gives .lastErrClear s fun t => t.reg F.MP_LAST_ERR.addr = 0 ∧ Only [F.MP_LAST_ERR.word] s t := by
  have hwrite : writeMp s F.MP_LAST_ERR (2 ^ 31) = (storeWord s 0x4000000C (2 ^ 31)).put F.MP_LAST_ERR 0 :=
    writeBy_ok specAt_lastErr rfl rfl rfl
  exact gives_of_cleared ha (storeWord_only s 0x4000000C (2 ^ 31)) (congrArg (act s) hwrite) rfl rfl

/-! ### The statement on one state -/

/-- What `Obligations.BusErrors` says of one state. -/
def BusErrorsAt (s : State) : Prop :=
  (s.Awake → s.mp.leaveAt = none → ∀ edge : Nat,
    (∀ bytes, rawPacket bytes = true → hears s edge (bytes.length + 1) = true → s.get F.FA_JIG_LEFT 11 = 0 →
      crc16 (bytes.take (bytes.length - 2)) ≠ leAt bytes (bytes.length - 2) 2 →
      Gives (.badCrc bytes edge) s fun t =>
        t.get F.MP_BAD_CRC_COUNT = min (s.get F.MP_BAD_CRC_COUNT + 1) 65535 ∧
        t.get F.MP_LAST_ERR = errWord (bytes.headD 0) (byteAt bytes 1) (bytes.getD 2 0) St.badCrc ∧
        t = { listened s edge with regs := t.regs } ∧ RegsKept [F.MP_BAD_CRC_COUNT.at, F.MP_LAST_ERR.word] s t) ∧
    (∀ addr op tag (len : BitVec 16), hears s edge 6 = true → 4096 < len.toNat →
      (Gives (.lenAbove4096 false addr op tag len edge) s fun t =>
        t.get F.MP_LAST_ERR = errWord addr op.toNat tag St.badLength ∧
        t = { listened s edge with regs := t.regs } ∧ RegsKept [F.MP_LAST_ERR.word] s t) ∧
      (Gives (.lenAbove4096 true addr op tag len edge) s fun t => t = listened s edge)) ∧
    (∀ bytes, hears s edge (bytes.length + 1) = true → rawPacket bytes = true → Gives (.replyFollow bytes edge) s fun t =>
      t = listened s edge)) ∧
  (∀ (k : Pkt) (op : Byte), Takes s k → ownRow op.toNat = none →
    Gives (.badCrc ((packetBytes op.toNat k).drop 1) k.edge) s fun t => Served [] s t k St.badOpcode [] ∧ BusOnly s t) ∧
  (s.Awake →
    (Gives .clearMpBadCrc s fun t => t.reg F.MP_BAD_CRC.addr = 0 ∧ Only [F.MP_BAD_CRC.word] s t) ∧
    (Gives .clearMpBcastDrop s fun t => t.reg F.MP_BCAST_DROP.addr = 0 ∧ Only [F.MP_BCAST_DROP.word] s t) ∧
    (Gives .clearMpLockViol s fun t => t.reg F.MP_LOCK_VIOL.addr = 0 ∧ Only [F.MP_LOCK_VIOL.word] s t) ∧
    (Gives .lastErrClear s fun t => t.reg F.MP_LAST_ERR.addr = 0 ∧ Only [F.MP_LAST_ERR.word] s t))

theorem errWord_byte (addr op tag : Byte) (st : Nat) : errWord addr op.toNat tag st =
    2 ^ 31 + addr.toNat % 128 * 2 ^ 24 + op.toNat * 2 ^ 16 + tag.toNat * 2 ^ 8 + st := by
  rw [errWord, Nat.mod_eq_of_lt op.isLt]

theorem busErrors_iff : Obligations.BusErrors ↔ ∀ s, BusErrorsAt s := by
  have hcommand : ∀ bytes : List Byte, errWord (bytes.headD 0) (byteAt bytes 1) (bytes.getD 2 0) St.badCrc =
      2 ^ 31 + (bytes.headD 0).toNat % 128 * 2 ^ 24 + byteAt bytes 1 * 2 ^ 16 + (bytes.getD 2 0).toNat * 2 ^ 8 + St.badCrc :=
    fun _ => errWord_byte _ _ _ _
  simp only [BusErrorsAt, hcommand, errWord_byte]
  exact Iff.rfl

/-- With the receive machine in HUNT before the packet the statement holds. -/
theorem busErrorsAt_of_hunt (hidle : s.mp.rx.st = .hunt) : BusErrorsAt s := by
  refine ⟨fun ha hleave edge => ⟨fun bytes hraw hhears hjig hcrc => ?badCrc,
      fun addr op tag len hhears hlen => ⟨?tooLong, ?tooLongReply⟩, fun bytes hhears hraw => ?reply⟩,
    fun k op h hrow => undefined_answered h hidle hrow,
    fun ha => ⟨?clrBadCrc, ?clrBcastDrop, ?clrLockViol, lastErr_clears ha⟩⟩
  case badCrc =>
    have hexec := exec_badCrc hleave hidle hraw hhears
    rw [rxAct_badCrc (s := listened s edge) hjig hcrc] at hexec
    obtain ⟨hcount, herr, honly⟩ := badCrcPacket_kept (listened s edge) (bytes.headD 0) (byteAt bytes 1) (bytes.getD 2 0)
    exact gives_of_act ha hexec ((congrArg ChipX.resetDue honly.chip).trans ha.2)
      ⟨hcount, herr, honly.1, (RegsKept.of_regs rfl).trans honly.2⟩
  case tooLong =>
    have hexec := exec_lenAbove4096 (reply := false) (addr := addr) (op := op) (tag := tag) hleave hidle (.inl rfl) rfl hhears hlen
    have honly := recordErr_kept (listened s edge) addr op.toNat tag St.badLength
    exact gives_of_act ha hexec ((congrArg ChipX.resetDue honly.chip).trans ha.2)
      ⟨recordErr_get _ _ _ _ (by decide) (by decide) (by decide), honly.1, (RegsKept.of_regs rfl).trans honly.2⟩
  case tooLongReply =>
    exact gives_of_act ha (exec_lenAbove4096 (reply := true) hleave hidle (.inr rfl) rfl hhears hlen) ha.2 rfl
  case reply => exact gives_of_act ha (exec_replyFollow hleave hidle hraw hhears) ha.2 rfl
  case clrBadCrc => exact cntClr_clears ha rfl (fun _ _ => rfl) rfl rfl
  case clrBcastDrop => exact cntClr_clears ha rfl (fun _ _ => rfl) rfl rfl
  case clrLockViol => exact cntClr_clears ha rfl (fun _ _ => rfl) rfl rfl

theorem busErrorsAt_reset : BusErrorsAt State.reset := busErrorsAt_of_hunt rfl

/-! ### A machine that a broken packet left in CHECK -/

/-- The state after reset, its receive machine one byte short of the end of a PING to address 6 that broke off. -/
def brokenOff : State := { State.reset with mp.rx := within .check [0xD3, 6, 0, 0x21, 0, 0, 0] 1 }

theorem brokenOff_awake : brokenOff.Awake := ⟨rfl, rfl⟩

theorem brokenOff_hears : hears brokenOff 1000 6 = true := by decide +kernel

/-- The idle bus ends the PING with a bad CRC before the reply's header comes. -/
theorem brokenOff_lenAbove4096 : exec (.lenAbove4096 true 9 0 0x21 4097 1000) brokenOff =
    .next (badCrcPacket (listened brokenOff 1000) 6 0 0x21) := by
  have hbus : (if samples brokenOff 1000 6 then
      busBytes (pclkReach 1000 brokenOff) (0xB4 :: 9 :: 0 :: 0x21 :: toLE 2 (4097 : BitVec 16).toNat) 1000 else brokenOff) =
      badCrcPacket (listened brokenOff 1000) 6 0 0x21 := by decide +kernel
  exact (congrArg (act brokenOff) hbus).trans (act_next brokenOff_awake rfl)

/-- Refutes O9: on `brokenOff` a reply's header whose LEN is above 4,096 leaves the count and the record of the packet that broke
off before it, so what it answers is not `s` with the receive machine back in HUNT. A machine that stands in HUNT before the
packet reports nothing else: there the statement holds (`busErrorsAt_of_hunt`). -/
theorem not_busErrors : ¬ Obligations.BusErrors := by
  intro h
  obtain ⟨hbus, -⟩ := busErrors_iff.mp h brokenOff
  obtain ⟨-, hheader, -⟩ := hbus brokenOff_awake rfl 1000
  obtain ⟨-, t, hexec, rfl⟩ := hheader 9 0 0x21 4097 brokenOff_hears (by decide)
  rw [brokenOff_lenAbove4096, Host.Outcome.next.injEq] at hexec
  obtain ⟨hcount, -⟩ := badCrcPacket_kept (listened brokenOff 1000) 6 0 0x21
  have hnone : (listened brokenOff 1000).get F.MP_BAD_CRC_COUNT = 0 := by decide +kernel
  rw [hexec, hnone] at hcount
  exact absurd hcount (by decide)

end Sys2Proof.Machine
end

section
/-!
PROOFS. What firmware serves (R141, R143–R145): a result taken in, and the oldest queued broadcast begun.
-/
namespace Sys2Proof.Machine

variable {s : State}

/-! ### A result taken in (R143) -/

/-- A result that waits ends the command of its kind. -/
theorem completeJob_ready {o : JobKind} {j : Job} {st : Nat} {data : List Byte} (hjob : jobOf s o = some j)
    (hready : s.mp.ready = [(o, st, data)]) (f : Nat) : completeJob s o f = finishJob s o j f st data := by
  have hfind : s.mp.ready.find? (fun r => r.1 == o) = some (o, st, data) := by simp [hready]
  unfold completeJob
  simp only [hjob, hfind]

theorem modEntry_chain_ready (s : State) (tag : Byte) (e : Entry → Entry) :
    (modEntry s .chain tag e).mp.ready = s.mp.ready := by
  unfold modEntry
  rw [(setMem_chain s _).2.2]

/-- The answer in time leaves the command in progress and the results that wait as they are. -/
theorem finishChain_in_time_jobs {j : Job} {f : Nat} (horphan : j.orphan = false) (hpended : j.pended = false)
    (hwin : f + 8 ≤ j.edge + j.win) (st : Nat) (data : List Byte) :
    (finishChain s j f st data).mp.job = s.mp.job ∧ (finishChain s j f st data).mp.ready = s.mp.ready := by
  obtain ⟨-, -, -, hjob⟩ := modEntry_chain (recordErr s j.addr j.op j.tag st) j.tag fun e =>
    { e with first := mkReply (ownAddr s) st j.tag data, firstSent := true, done := true, final := mkReply (ownAddr s) st j.tag data }
  have herr := (recordErr_kept s j.addr j.op j.tag st).mp
  unfold finishChain
  simp only [horphan, hpended, hwin, if_true, Bool.false_eq_true, if_false, sendReply, hjob, modEntry_chain_ready, herr, and_self]

/-- No command of the chain is in progress any more, and no result of one waits. -/
theorem finishJob_in_time_jobs {j : Job} {f : Nat} (horphan : j.orphan = false) (hpended : j.pended = false)
    (hwin : f + 8 ≤ j.edge + j.win) (st : Nat) (data : List Byte) :
    (finishJob s .chain j f st data).mp.job = none ∧
      (finishJob s .chain j f st data).mp.ready = s.mp.ready.filter fun r => r.1 != .chain := by
  obtain ⟨hjob, hready⟩ := finishChain_in_time_jobs
    (s := setJob { s with mp.ready := s.mp.ready.filter fun r => r.1 != .chain } .chain none) horphan hpended hwin st data
  obtain ⟨-, -, hset⟩ := setJob_chain { s with mp.ready := s.mp.ready.filter fun r => r.1 != .chain } none
  exact ⟨hjob.trans (congrArg MpX.job hset), hready.trans (congrArg MpX.ready hset)⟩

theorem firmwareCommandComplete_answers (ha : s.Awake) {j : Job} {st f : Nat} {data : List Byte} (hjob : s.mp.job = some j)
    (horphan : j.orphan = false) (hpended : j.pended = false) (hwin : f + 8 ≤ j.edge + j.win)
    (hready : s.mp.ready = [(.chain, st, data)]) : Gives (.firmwareCommandComplete .chain f) s fun t =>
      t.mp.job = none ∧ t.mp.ready = [] ∧
      t.mp.out = s.mp.out ++ [{ y := max (j.edge + 16) (f + 8), bytes := mkReply (ownAddr s) st j.tag data }] ∧
      t = { s with regs := t.regs, mp := { s.mp with job := none, ready := [], replay := t.mp.replay, out := t.mp.out } } ∧
      RegsKept bridgeFields s t := by
  obtain ⟨hbridge, hout, hkept, -⟩ := finishJob_in_time s j f st data horphan hpended hwin
  obtain ⟨hnone, hempty⟩ := finishJob_in_time_jobs (s := s) horphan hpended hwin st data
  have hleft : s.mp.ready.filter (fun r => r.1 != .chain) = [] := by simp [hready]
  rw [hleft] at hempty
  have heq := hbridge.eq
  rw [hnone, hempty] at heq
  exact gives_of_act ha (congrArg (act s) (completeJob_ready (o := .chain) hjob hready f)) (hbridge.chip ▸ ha.2)
    ⟨hnone, hempty, hout, heq, hkept.mono (by decide)⟩

/-! ### The oldest queued broadcast (R144, R145) -/

/-- With no other firmware-served command in progress the oldest queued broadcast begins service. -/
theorem serveBroadcast_oldest {j : Job} {js : List Job} (hbcast : s.mp.bcast = j :: js) (hbjob : s.mp.bjob = none)
    (hjob : s.mp.job = none) (hrjob : s.mp.rjob = none) (hfw : s.on F.MP_STATUS_FW_READY = true) :
    serveBroadcast s = showMp { s with mp.bjob := some j, mp.bcast := js } := by
  unfold serveBroadcast
  simp [hbcast, hbjob, hjob, hrjob, hfw, setJob]

theorem broadcastServe_begins (ha : s.Awake) {j : Job} {js : List Job} (hbcast : s.mp.bcast = j :: js)
    (hbjob : s.mp.bjob = none) (hjob : s.mp.job = none) (hrjob : s.mp.rjob = none) (hfw : s.on F.MP_STATUS_FW_READY = true) :
    Gives .broadcastServe s fun t =>
      t.mp = { s.mp with bjob := some j, bcast := js } ∧ t = { s with regs := t.regs, mp := t.mp } ∧
      RegsKept [F.MP_STATUS_RESULT_READY.at, F.MP_STATUS_WORKING.at, F.MP_STATUS_BCAST_DEPTH.at] s t := by
  have hshown := showMp_kept { s with mp.bjob := some j, mp.bcast := js }
  refine gives_of_act ha (congrArg (act s) (serveBroadcast_oldest hbcast hbjob hjob hrjob hfw)) (hshown.chip ▸ ha.2)
    ⟨hshown.mp, ?_, (RegsKept.of_regs (t := { s with mp.bjob := some j, mp.bcast := js }) rfl).trans hshown.2⟩
  rw [hshown.mp]
  exact hshown.1

/-- Settles O11: the result that waits ends the chain's command, and the oldest broadcast begins. -/
theorem firmwareService : Obligations.FirmwareService := by
  unfold Obligations.FirmwareService
  exact fun s ha => ⟨fun j st data f hjob horphan hpended hwin hready =>
      firmwareCommandComplete_answers ha hjob horphan hpended hwin hready,
    fun j js hbcast hbjob hjob hrjob hfw => broadcastServe_begins ha hbcast hbjob hjob hrjob hfw⟩

end Sys2Proof.Machine
end

section
/-!
PROOFS. Commands over the ring (R151–R154): a REMOTE sent, its inner command served at the far unit, its reply awaited.
-/
namespace Sys2Proof.Machine

variable {s t u : State}

/-! ### What commands over the ring change -/

/-- Nothing but the bridge's registers, the bridge itself and the records of the ports differs. -/
def RingOnly (s t : State) : Prop := t = { s with regs := t.regs, mp := t.mp, port := t.port } ∧ RegsKept bridgeFields s t

theorem RingOnly.trans (h : RingOnly s t) (k : RingOnly t u) : RingOnly s u := by
  refine ⟨?_, h.2.trans k.2⟩
  rw [k.1, h.1]

theorem RingOnly.chip (h : RingOnly s t) : t.chip = s.chip := (congrArg State.chip h.1).trans rfl

theorem RingOnly.of_only {fs : List (Nat × Nat × Nat)} (h : Only fs s t) (hfs : ∀ g ∈ fs, g ∈ bridgeFields) : RingOnly s t := by
  refine ⟨?_, h.2.mono hfs⟩
  rw [h.1]

theorem RingOnly.with_mp (s : State) (m : MpX) : RingOnly s { s with mp := m } := ⟨rfl, RegsKept.of_regs rfl⟩

theorem Only.port {fs : List (Nat × Nat × Nat)} (h : Only fs s t) : t.port = s.port := (congrArg State.port h.1).trans rfl

theorem takeInbox_ringOnly (s : State) (p : Nat) : RingOnly s (takeInbox s p) := ⟨rfl, RegsKept.of_regs rfl⟩

theorem mcQueue_ringOnly (s : State) (p ty : Nat) (bytes : List Byte) (ref : Option Nat) : RingOnly s (mcQueue s p ty bytes ref) :=
  ⟨rfl, RegsKept.of_regs rfl⟩

theorem portX_takeInbox (s : State) (p : Nat) : (takeInbox s p).portX p = { s.portX p with inbox := none } :=
  State.portX_modPort _ _ _

theorem portX_mcQueue (s : State) (p ty : Nat) (bytes : List Byte) (ref : Option Nat) : (mcQueue s p ty bytes ref).portX p =
    { s.portX p with mcOut := (s.portX p).mcOut ++ [{ ty := ty, bytes := bytes, ref := ref }] } := State.portX_modPort _ _ _

theorem portX_of_port (h : t.port = s.port) (p : Nat) : t.portX p = s.portX p := by rw [State.portX, State.portX, h]

/-! ### The remote replay memory (R153) -/

theorem setMem_remote (s : State) (m : List Entry) : Only shownFields { s with mp.rreplay := m } (setMem s .remote m) :=
  showMp_kept _

theorem setJob_remote (s : State) (j : Option Job) : Only shownFields { s with mp.rjob := j } (setJob s .remote j) :=
  showMp_kept _

theorem shown_sub_bridge : ∀ g ∈ shownFields, g ∈ bridgeFields := by decide

/-- What is put into the remote replay memory changes that and what MP_STATUS shows. -/
theorem setMem_remote_kept (s : State) (m : List Entry) : RingOnly s (setMem s .remote m) ∧
    RegsKept shownFields s (setMem s .remote m) ∧ (setMem s .remote m).mp.rjob = s.mp.rjob ∧
    (setMem s .remote m).port = s.port := by
  have h := setMem_remote s m
  have hs : RegsKept shownFields s { s with mp.rreplay := m } := RegsKept.of_regs rfl
  exact ⟨(RingOnly.with_mp s _).trans (RingOnly.of_only h shown_sub_bridge), hs.trans h.2,
    by rw [h.mp], h.port⟩

theorem enterDone_remote_kept (s : State) (tag : Byte) (rep : List Byte) : RingOnly s (enterDone s .remote tag rep) ∧
    RegsKept shownFields s (enterDone s .remote tag rep) ∧ (enterDone s .remote tag rep).port = s.port := by
  unfold enterDone
  split
  · exact ⟨RingOnly.with_mp s s.mp, RegsKept.refl s, rfl⟩
  · obtain ⟨honly, hkept, -, hport⟩ := setMem_remote_kept s (memEnter (memOf s .remote) { tag := tag, first := rep, final := rep })
    exact ⟨honly, hkept, hport⟩

theorem modEntry_remote_kept (s : State) (tag : Byte) (f : Entry → Entry) : RingOnly s (modEntry s .remote tag f) ∧
    (modEntry s .remote tag f).mp.rjob = s.mp.rjob ∧ (modEntry s .remote tag f).port = s.port := by
  obtain ⟨honly, -, hrjob, hport⟩ := setMem_remote_kept s ((memOf s .remote).map fun e => if e.tag = tag then f e else e)
  exact ⟨honly, hrjob, hport⟩

/-! ### A REMOTE is sent (R151) -/

/-- The unit once a REMOTE of port `p` has queued its inner command. -/
def remoteSent (s : State) (o : JobKind) (p : Nat) (inner : List Byte) : State :=
  { mcQueue s p 1 inner (some s.mp.remoteSeq) with
    mp.remote := s.mp.remote ++ [{ kind := o, port := p, id := s.mp.remoteSeq, tag := inner.getD 2 0 }],
    mp.remoteSeq := s.mp.remoteSeq + 1 }

theorem bodyRemote_in_frame (o : JobKind) {p : Byte} {inner : List Byte} (hp : p.toNat < 16) (hinner : innerGood inner = true) :
    bodyRemote o false (p :: inner) s = .wait (remoteSent s o p.toNat inner) := by
  have hport : byteAt (p :: inner) 0 = p.toNat := rfl
  have hin : ¬ 15 < p.toNat := by omega
  simp only [bodyRemote, hport, hin, List.drop_succ_cons, List.drop_zero, hinner, Bool.not_true, Bool.false_eq_true, or_self,
    if_false]
  rfl

theorem innerGood_length {inner : List Byte} (h : innerGood inner = true) : 7 ≤ inner.length := by
  simp only [innerGood, Bool.and_eq_true, Nat.ble_eq] at h
  obtain ⟨⟨⟨hlen, -⟩, -⟩, -⟩ := h
  exact hlen

/-- The action of a REMOTE whose port is in frame. -/
theorem runBody_remote {k : Pkt} {p : Byte} {inner : List Byte} (hparams : k.params = p :: inner) (hp : p.toNat < 16)
    (hinner : innerGood inner = true) (hsync : portInSync s p.toNat = true) (u : State) :
    runBody .chain (ownJob s 0x0E k) u = .wait (remoteSent u .chain p.toNat inner) := by
  have hoof : (ownJob s 0x0E k).oof = false := by
    have hport : portInSync (readied s k) (byteAt k.params 0) = true := by rw [hparams]; exact hsync
    simp [ownJob, jobFor, hport]
  have hbody : runBody .chain (ownJob s 0x0E k) u = bodyRemote .chain (ownJob s 0x0E k).oof k.params u := rfl
  rw [hbody, hoof, hparams, bodyRemote_in_frame .chain hp hinner]

theorem remoteSent_ringOnly (s : State) (o : JobKind) (p : Nat) (inner : List Byte) : RingOnly s (remoteSent s o p inner) :=
  ⟨rfl, RegsKept.of_regs rfl⟩

theorem portX_remoteSent (s : State) (o : JobKind) (p : Nat) (inner : List Byte) : (remoteSent s o p inner).portX p =
    { s.portX p with mcOut := (s.portX p).mcOut ++ [{ ty := 1, bytes := inner, ref := some s.mp.remoteSeq }] } :=
  portX_mcQueue s p 1 inner (some s.mp.remoteSeq)

/-- Nothing but registers, the bridge, the presence slot and the records of the ports differs. -/
def BusAndPortsOnly (s t : State) : Prop := t = { s with regs := t.regs, mp := t.mp, ch := t.ch, port := t.port }

theorem BusAndPortsOnly.trans (h : BusAndPortsOnly s t) (k : BusAndPortsOnly t u) : BusAndPortsOnly s u := by
  unfold BusAndPortsOnly at *
  rw [k, h]

theorem RingOnly.busAndPorts (h : RingOnly s t) : BusAndPortsOnly s t := by
  unfold BusAndPortsOnly
  rw [h.1]

/-- What a REMOTE for port `p` finds when its action begins. -/
theorem begun_remotes (s : State) (op : Nat) (k : Pkt) : BusAndPortsOnly s (begun s op k) ∧
    (begun s op k).port = s.port ∧ (begun s op k).mp.remote = s.mp.remote ∧ (begun s op k).mp.remoteSeq = s.mp.remoteSeq := by
  obtain ⟨hbegun, -, hmp, -⟩ := begun_kept s op k
  refine ⟨?_, (congrArg State.port hbegun.eq).trans rfl, (congrArg MpX.remote hmp).trans rfl,
    (congrArg MpX.remoteSeq hmp).trans rfl⟩
  unfold BusAndPortsOnly
  rw [begun_eq]

theorem remote_sent {k : Pkt} {f : Nat} {p : Byte} {inner : List Byte} (h : TakesFw s k f) (hparams : k.params = p :: inner)
    (hp : p.toNat < 16) (hinner : innerGood inner = true) (hsync : portInSync s p.toNat = true) :
    Gives (.remote k (some f)) s fun t =>
      (t.portX p.toNat).mcOut = (s.portX p.toNat).mcOut ++ [{ ty := 1, bytes := inner, ref := some s.mp.remoteSeq }] ∧
      t.mp.remote = s.mp.remote ++ [{ kind := .chain, port := p.toNat, id := s.mp.remoteSeq, tag := inner.getD 2 0 }] ∧
      t.mp.remoteSeq = s.mp.remoteSeq + 1 ∧
      t.mp.job.isSome = true ∧ t.mp.out = s.mp.out ∧ t = { s with regs := t.regs, mp := t.mp, ch := t.ch, port := t.port } ∧
      RegsKept bridgeFields s t := by
  have hlen : Nat.ble 8 k.params.length = true := by
    have hseven := innerGood_length hinner
    rw [hparams, List.length_cons, Nat.ble_eq]
    omega
  obtain ⟨hbegun, hports, hwaiting, hseq⟩ := begun_remotes s 0x0E k
  obtain ⟨hbridge, hkept, -⟩ := begun_kept s 0x0E k
  have hring := remoteSent_ringOnly (begun s 0x0E k) .chain p.toNat inner
  have hdue : (remoteSent (begun s 0x0E k) .chain p.toNat inner).chip.resetDue = none := by
    obtain ⟨⟨⟨-, hnone⟩, -⟩, -⟩ := id h
    rw [hring.chip, hbridge.chip]
    exact hnone
  obtain ⟨t, hexec, ⟨⟨j, hjob, -⟩, hout, -⟩, heq, hshown⟩ := waits_fw (c := .remote k (some f)) (fs := []) h rfl (by decide)
    (by decide) (by decide) rfl rfl hlen (runBody_remote hparams hp hinner hsync _) rfl (RegsKept.of_regs rfl) (by simp) hdue
  have hmp : t.mp = { (remoteSent (begun s 0x0E k) .chain p.toNat inner).mp with job := t.mp.job } :=
    (congrArg State.mp heq).trans rfl
  have hport : t.port = (remoteSent (begun s 0x0E k) .chain p.toNat inner).port := (congrArg State.port heq).trans rfl
  have hlast : RingOnly (remoteSent (begun s 0x0E k) .chain p.toNat inner) t :=
    ⟨by rw [heq], hshown.mono shown_sub_bridge⟩
  refine ⟨t, hexec, ?_, ?_, ?_, by rw [hjob]; rfl, hout, hbegun.trans (hring.trans hlast).busAndPorts,
    (hkept.mono (by decide)).trans (hring.trans hlast).2⟩
  · rw [portX_of_port hport, portX_remoteSent, portX_of_port hports, hseq]
  · rw [hmp, ← hwaiting, ← hseq]
    rfl
  · rw [hmp, ← hseq]
    rfl

/-! ### The far unit accepts an inner command (R153) -/

/-- A packet to address 0 is a good inner command (Table 4.7). -/
theorem innerGood_mkReply (op : Nat) (tag : Byte) {params : List Byte} (hlen : params.length < 2 ^ 16) :
    innerGood (mkReply 0 op tag params) = true := by
  have hzero : (mkReply 0 op tag params).headD 0 = 0 := rfl
  rw [innerGood, hzero, mkReply_eq_packet, crc_packet, len_packet _ _ _ hlen, length_packet, length_packetHead]
  simp

/-- An inner command that is good is taken out of its port and served. -/
theorem innerAccept_good {p : Nat} {bytes : List Byte} (hinbox : (s.portX p).inbox = some { ty := 1, bytes := bytes })
    (haccept : s.on F.MP_CTRL_REMOTE_ACCEPT = true) (hgood : innerGood bytes = true) : innerAccept s p =
      serveOne (takeInbox s p) .remote (jobFor (takeInbox s p) (byteAt bytes 1) 0 (bytes.getD 2 0)
        ((bytes.drop 5).take (bytes.length - 7)) 0 p) (innerRow (byteAt bytes 1)) none := by
  have hon : (takeInbox s p).on F.MP_CTRL_REMOTE_ACCEPT = true := haccept
  unfold innerAccept
  simp only [hinbox, hon, hgood, ne_eq, not_true_eq_false, if_false, Bool.not_true, Bool.or_self, Bool.false_eq_true]

/-- A command of the ring that is answered OK at once: its reply enters the remote memory and goes out on its port. -/
theorem answer_remote_ok {j : Job} (hop : j.op ∉ [5, 7, 8]) (data : List Byte) : answer s .remote j 0 St.ok data =
    mcQueue (enterDone s .remote j.tag (mkReply 0 St.ok j.tag data)) j.port 2 (mkReply 0 St.ok j.tag data) := by
  simp only [List.mem_cons, List.not_mem_nil, or_false, not_or] at hop
  obtain ⟨h5, h7, h8⟩ := hop
  simp [answer, h5, h7, h8, recordErr_ok]

/-- What an answer on a port leaves. -/
theorem answered_remote_kept (s : State) (tag : Byte) (p : Nat) (rep : List Byte) :
    RingOnly s (mcQueue (enterDone s .remote tag rep) p 2 rep) ∧
    RegsKept shownFields s (mcQueue (enterDone s .remote tag rep) p 2 rep) ∧
    (mcQueue (enterDone s .remote tag rep) p 2 rep).portX p =
      { s.portX p with mcOut := (s.portX p).mcOut ++ [{ ty := 2, bytes := rep }] } := by
  obtain ⟨hdone, hkept, hport⟩ := enterDone_remote_kept s tag rep
  refine ⟨hdone.trans (mcQueue_ringOnly _ _ _ _ _), hkept.trans (RegsKept.of_regs rfl), ?_⟩
  rw [portX_mcQueue, portX_of_port hport]

/-- The inner PING counts itself and is answered with the count (Table 4.5). -/
theorem serveOne_innerPing {j : Job} (hop : j.op = 0) (hparams : j.params = []) : serveOne s .remote j (innerRow 0) none =
    mcQueue (enterDone (s.bumpWrap F.MP_TXN_COUNT) .remote j.tag (mkReply 0 St.ok j.tag (toLE 4 ((s.get F.MP_TXN_COUNT + 1) % 2 ^ 32))))
      j.port 2 (mkReply 0 St.ok j.tag (toLE 4 ((s.get F.MP_TXN_COUNT + 1) % 2 ^ 32))) := by
  have hbody : runBody .remote j (s.bumpWrap F.MP_TXN_COUNT) =
      .done (s.bumpWrap F.MP_TXN_COUNT) St.ok (toLE 4 ((s.bumpWrap F.MP_TXN_COUNT).get F.MP_TXN_COUNT)) := by
    simp [runBody, runLow, hop, bodyPing]
  have hcount : (s.bumpWrap F.MP_TXN_COUNT).get F.MP_TXN_COUNT = (s.get F.MP_TXN_COUNT + 1) % 2 ^ 32 :=
    State.get_put _ _ _ _ _ (by decide)
  have hrow : innerRow 0 = some { len := lenIs 0 } := rfl
  have hlen : lenIs 0 j.params = true := by rw [hparams]; rfl
  simp only [serveOne, hrow, hlen, hbody, hcount, Bool.not_true, Bool.false_eq_true, if_false, if_true]
  exact answer_remote_ok (by simp [hop]) _

/-- REMOTE_INNER_ACCEPT of a PING. -/
theorem innerPing_answered (ha : s.Awake) {p : Fin 16} {tag : Byte}
    (hinbox : (s.portX p).inbox = some { ty := 1, bytes := mkReply 0 0 tag [] }) (haccept : s.on F.MP_CTRL_REMOTE_ACCEPT = true) :
    Gives (.remoteInnerAccept p) s fun t =>
      (t.portX p).inbox = none ∧
      (t.portX p).mcOut = (s.portX p).mcOut ++
        [{ ty := 2, bytes := mkReply 0 St.ok tag (toLE 4 ((s.get F.MP_TXN_COUNT + 1) % 2 ^ 32)) }] ∧
      t.get F.MP_TXN_COUNT = (s.get F.MP_TXN_COUNT + 1) % 2 ^ 32 ∧
      t = { s with regs := t.regs, mp := t.mp, port := t.port } ∧ RegsKept bridgeFields s t := by
  have hserved := (innerAccept_good hinbox haccept (innerGood_mkReply 0 tag (by simp))).trans
    (serveOne_innerPing (j := jobFor (takeInbox s p) 0 0 tag [] 0 p) rfl rfl)
  obtain ⟨hanswered, hkept, hport⟩ := answered_remote_kept ((takeInbox s p).bumpWrap F.MP_TXN_COUNT) tag p
    (mkReply 0 St.ok tag (toLE 4 (((takeInbox s p).get F.MP_TXN_COUNT + 1) % 2 ^ 32)))
  rw [State.portX_bumpWrap, portX_takeInbox] at hport
  have hcounted : RingOnly (takeInbox s p) ((takeInbox s p).bumpWrap F.MP_TXN_COUNT) :=
    RingOnly.of_only (fs := [F.MP_TXN_COUNT.word]) (only_bumpWrap (List.mem_singleton.mpr rfl)) (by decide)
  have hring := ((takeInbox_ringOnly s p).trans hcounted).trans hanswered
  exact gives_of_act ha (congrArg (act s) hserved) (hring.chip ▸ ha.2) ⟨congrArg PortX.inbox hport, congrArg PortX.mcOut hport,
    (hkept.get F.MP_TXN_COUNT 0 0 (by decide)).trans (State.get_put _ _ _ _ _ (by decide)), hring.1, hring.2⟩

/-! ### No result in 16 frames (R154) -/

/-- The remote command marked as answered PENDING, and its PENDING queued on its port. -/
def innerPended (s : State) (j : Job) : State :=
  mcQueue (modEntry (setJob s .remote (some { j with pended := true })) .remote j.tag fun e =>
    { e with first := mkReply 0 St.pending j.tag [], firstSent := true }) j.port 2 (mkReply 0 St.pending j.tag [])

theorem innerPending_late {j : Job} (hjob : s.mp.rjob = some j) (hpended : j.pended = false) (hage : 16 ≤ j.age) :
    innerPending s = innerPended s j := by
  have hold : Nat.blt j.age 16 = false := by
    rw [Bool.eq_false_iff, ne_eq, Nat.blt_eq]
    omega
  unfold innerPending
  simp only [hjob, hpended, hold, Bool.or_self, Bool.false_eq_true, if_false]
  rfl

theorem innerPended_kept (s : State) (j : Job) : RingOnly s (innerPended s j) ∧
    (innerPended s j).mp.rjob = some { j with pended := true } ∧ (innerPended s j).portX j.port =
      { s.portX j.port with mcOut := (s.portX j.port).mcOut ++ [{ ty := 2, bytes := mkReply 0 St.pending j.tag [] }] } := by
  have hmarked := setJob_remote s (some { j with pended := true })
  have hring := (RingOnly.with_mp s _).trans (RingOnly.of_only hmarked shown_sub_bridge)
  obtain ⟨hentry, hrjob, hport⟩ := modEntry_remote_kept (setJob s .remote (some { j with pended := true })) j.tag fun e =>
    { e with first := mkReply 0 St.pending j.tag [], firstSent := true }
  refine ⟨(hring.trans hentry).trans (mcQueue_ringOnly _ _ _ _ _), hrjob.trans (congrArg MpX.rjob hmarked.mp), ?_⟩
  rw [innerPended, portX_mcQueue, portX_of_port hport, portX_of_port hmarked.port]
  rfl

/-- REMOTE_INNER_PENDING. -/
theorem innerPending_sent (ha : s.Awake) {j : Job} (hjob : s.mp.rjob = some j) (hpended : j.pended = false) (hage : 16 ≤ j.age) :
    Gives .remoteInnerPending s fun t =>
      t.mp.rjob = some { j with pended := true } ∧
      (t.portX j.port).mcOut = (s.portX j.port).mcOut ++ [{ ty := 2, bytes := mkReply 0 St.pending j.tag [] }] ∧
      t = { s with regs := t.regs, mp := t.mp, port := t.port } ∧ RegsKept bridgeFields s t := by
  obtain ⟨hring, hrjob, hport⟩ := innerPended_kept s j
  exact gives_of_act ha (congrArg (act s) (innerPending_late hjob hpended hage)) (hring.chip ▸ ha.2)
    ⟨hrjob, congrArg PortX.mcOut hport, hring.1, hring.2⟩

/-! ### The inner reply, or none in 64 frames (R152) -/

/-- REMOTE_INNER_REPLY: the reply to the one REMOTE that waits. -/
theorem innerReply_completes (ha : s.Awake) {p : Fin 16} {w : RemoteWait} {bytes : List Byte}
    (hinbox : (s.portX p).inbox = some { ty := 2, bytes := bytes }) (hlen : bytes.length ≤ 4096) (hwaits : s.mp.remote = [w])
    (hport : w.port = p.val) (htag : w.tag = bytes.getD 2 0) (hsent : w.sent = true) : Gives (.remoteInnerReply p) s fun t =>
      (t.portX p).inbox = none ∧ t.mp = { s.mp with remote := [], ready := s.mp.ready ++ [(w.kind, St.ok, bytes)] } ∧
      t = { s with mp := t.mp, port := t.port } := by
  have hfirst : (takeInbox s p).mp.remote = [w] := hwaits
  have hfind : [w].findIdx? (fun v => v.port == p.val && v.tag == bytes.getD 2 0 && v.sent) = some 0 := by
    simp [hport, htag, hsent, List.findIdx?_cons]
  have hreply : innerReply s p = postResult { takeInbox s p with mp.remote := [] } w.kind St.ok bytes := by
    unfold innerReply
    simp only [hinbox, hfirst, hfind, nested_of_short hlen, ne_eq, not_true_eq_false, if_false]
    rfl
  refine gives_of_act ha (congrArg (act s) hreply) ha.2 ⟨?_, rfl, rfl⟩
  exact congrArg PortX.inbox (portX_takeInbox s p)

/-- REMOTE_EXPIRY: the one REMOTE that waits has waited too long. -/
theorem remoteExpire_completes (ha : s.Awake) {w : RemoteWait} (hwaits : s.mp.remote = [w]) (hsent : w.sent = true)
    (hage : 64 ≤ w.age) (hnone : replyArriving s w = false) : Gives .remoteExpiry s fun t =>
      t = { s with mp.remote := [], mp.ready := s.mp.ready ++ [(w.kind, St.notPresent, [])] } := by
  have hold : Nat.ble 64 w.age = true := Nat.ble_eq.mpr hage
  have hexpired : remoteExpire s = { s with mp.remote := [], mp.ready := s.mp.ready ++ [(w.kind, St.notPresent, [])] } := by
    simp [remoteExpire, hwaits, hsent, hold, hnone, forList, postResult]
  exact gives_of_act ha (congrArg (act s) hexpired) ha.2 rfl

/-- Settles O12: one lemma for each step of a REMOTE. -/
theorem remoteCommands : Obligations.RemoteCommands := by
  unfold Obligations.RemoteCommands
  exact fun s => ⟨fun k f p inner h hparams hp hinner hsync => remote_sent h hparams hp hinner hsync,
    fun ha p tag hinbox haccept _ => innerPing_answered ha hinbox haccept,
    fun ha j hjob hpended hage => innerPending_sent ha hjob hpended hage,
    fun ha p w bytes hinbox hlen hwaits hport htag hsent => innerReply_completes ha hinbox hlen hwaits hport htag hsent,
    fun ha w hwaits hsent hage hnone => remoteExpire_completes ha hwaits hsent hage hnone⟩

end Sys2Proof.Machine
end

section
/-!
PROOFS. The register-access commands on one word that is a plain register (R182, R185, R194, R197, R198, R199), and LOCK.
-/
namespace Sys2Proof.Machine

variable {s : State} {k : Pkt} {a : Nat} {r : RegSpec}

/-! ### Words in the parameters (R5) -/

theorem wordsLE_toLE_append (n : Nat) (bs : List Byte) : wordsLE (toLE 4 n ++ bs) = BitVec.ofNat 32 n :: wordsLE bs := by
  have hword : BitVec.ofNat 32 (ofLE (toLE 4 n)) = BitVec.ofNat 32 n := by
    rw [ofLE_toLE]
    exact BitVec.eq_of_toNat_eq (Nat.mod_mod _ _)
  rw [← hword]
  rfl

theorem wordsLE_toLE (n : Nat) : wordsLE (toLE 4 n) = [BitVec.ofNat 32 n] := by
  simpa [wordsLE] using wordsLE_toLE_append n []

theorem leAt_toLE {w n : Nat} (hn : n < 256 ^ w) : leAt (toLE w n) 0 w = n := leAt_append_toLE hn []

theorem leAt_append_toLE_append {w n : Nat} (hn : n < 256 ^ w) (pre post : List Byte) :
    leAt (pre ++ toLE w n ++ post) pre.length w = n := by
  rw [leAt, List.append_assoc, List.drop_left, List.take_left' (length_toLE w n), ofLE_toLE, Nat.mod_eq_of_lt hn]

/-- LEN is judged by the number of the parameters' bytes alone (R140). -/
theorem lenForm_of_length {base step lo hi n : Nat} {ps : List Byte} (hlen : ps.length = n)
    (h : (Nat.ble (base + step * lo) n && Nat.ble n (base + step * hi) && (n - base) % step == 0) = true) :
    lenForm base step lo hi ps = true := by
  subst hlen
  exact h

/-! ### One plain register -/

theorem PlainReg.rangeBroken (hp : PlainReg a) : rangeBroken a 1 = false := by
  obtain ⟨hlt, halign, -⟩ := hp
  have hend : Nat.blt 0x100000000 (a + 4 * 1) = false := Bool.eq_false_iff.mpr fun h => by
    rw [Nat.blt_eq] at h
    omega
  simp [Machine.rangeBroken, halign, hend]

theorem PlainReg.memAt (hp : PlainReg a) (s : State) : memAt s a = none := by
  obtain ⟨hmem, -⟩ := hp.2.2 s 0 0
  exact hmem

theorem PlainReg.judgeAll (hp : PlainReg a) (s : State) (v : Nat) : judgeAll s a v = St.ok := by
  obtain ⟨-, hjudge, -⟩ := hp.2.2 s v 0
  exact hjudge

theorem PlainReg.hookAll (hp : PlainReg a) (s : State) (v old : Nat) : hookAll a v old s = s := by
  obtain ⟨-, -, hhook, -⟩ := hp.2.2 s v old
  exact hhook

theorem PlainReg.vselProbe (hp : PlainReg a) (s : State) (v : Nat) : vselProbe s a v = s := by
  obtain ⟨-, -, -, hprobe, -⟩ := hp.2.2 s v 0
  exact hprobe

theorem PlainReg.judgeState (hp : PlainReg a) (s : State) (v : Nat) : judgeState s [(a, v)] a = s := by
  obtain ⟨-, -, -, -, hstate⟩ := hp.2.2 s v 0
  exact hstate

theorem PlainReg.aligned (hp : PlainReg a) : a % 4 = 0 := hp.2.1

theorem PlainReg.toNat_ofNat (hp : PlainReg a) : (BitVec.ofNat 32 a).toNat = a := Nat.mod_eq_of_lt hp.1

/-! ### Reading it (R197) -/

theorem PlainReg.wordRead (hp : PlainReg a) (hspec : specAt a ≠ none) (s : State) : wordRead s a = (regView s a, St.ok) := by
  simp [Machine.wordRead, addrDefined, peek, hp.memAt, Option.isSome_iff_ne_none.mpr hspec]

/-- Reading a register of no checked memory changes nothing (R678). -/
theorem PlainReg.afterReads (hp : PlainReg a) (hecc : eccPlace s a = none) : afterReads [a] s = s := by
  have hcheck : (readCheck s a).1 = s := by simp only [readCheck, hp.memAt, eccCheck, hecc]
  simp only [Machine.afterReads, forList, hcheck, ite_self]

theorem PlainReg.readReply (hp : PlainReg a) (hspec : specAt a ≠ none) (hecc : eccPlace s a = none) :
    readReply s [a] = .done s St.ok (toLE 4 (regView s a)) := by
  simp [Machine.readReply, hp.wordRead hspec, hp.afterReads hecc, accessReply]

theorem eccPlace_taken (s : State) (k : Pkt) (a : Nat) : eccPlace (taken s k) a = eccPlace s a := by
  have hremap : (taken s k).on F.BM_CTRL_REMAP = s.on F.BM_CTRL_REMAP := congrArg (· != 0) (taken_get s k _ _ _ (by decide))
  simp only [eccPlace, hremap]

section
variable {ps : List Byte} (hp : PlainReg a)
include hp

theorem bodyRead_plain (hps : ps = toLE 4 a) (s : State) : bodyRead ps s = readReply s [a] := by
  rw [hps, bodyRead, leAt_toLE hp.1, hp.rangeBroken]
  rfl

theorem bodyReadBlock_plain (hps : ps = toLE 4 a ++ toLE 2 1) (s : State) : bodyReadBlock ps s = readReply s [a] := by
  have haddr : leAt ps 0 4 = a := hps ▸ leAt_toLE_append hp.1 _
  have hcount : leAt ps 4 2 = 1 := hps ▸ leAt_append_toLE (by decide) (toLE 4 a)
  rw [bodyReadBlock, haddr, hcount, hp.rangeBroken]
  rfl

theorem bodySnapshot_plain (hps : ps = toLE 4 a) (s : State) : bodySnapshot ps s = readReply s [a] := by
  simp only [bodySnapshot, hps, wordsLE_toLE, List.map_cons, List.map_nil, hp.toNat_ofNat, List.any_cons, List.any_nil,
    hp.rangeBroken, Bool.or_self, Bool.false_eq_true, if_false]

end

/-- READ, READ_BLOCK and SNAPSHOT differ only in how they name the word. -/
theorem reads_served (h : Takes s k) (hp : PlainReg a) (hspec : specAt a ≠ none) (hecc : eccPlace s a = none) :
    (k.params = toLE 4 a → Gives (.read k) s fun t =>
      Served [] s t k St.ok (toLE 4 (regView (taken s k) a)) ∧ BusOnly s t) ∧
    (k.params = toLE 4 a ++ toLE 2 1 → Gives (.readBlock k) s fun t =>
      Served [] s t k St.ok (toLE 4 (regView (taken s k) a)) ∧ BusOnly s t) ∧
    (k.params = toLE 4 a → Gives (.snapshot k) s fun t =>
      Served [] s t k St.ok (toLE 4 (regView (taken s k) a)) ∧ BusOnly s t) := by
  have hreply := hp.readReply hspec ((eccPlace_taken s k a).trans hecc)
  exact ⟨fun hparams => served_hw_same (op := 0x10) h rfl (by decide) rfl rfl (by rw [hparams]; rfl)
      ((bodyRead_plain hp hparams _).trans hreply),
    fun hparams => served_hw_same (op := 0x12) h rfl (by decide) rfl rfl (by rw [hparams]; rfl)
      ((bodyReadBlock_plain hp hparams _).trans hreply),
    fun hparams => served_hw_same (op := 0x15) h rfl (by decide) rfl rfl (lenForm_of_length (n := 4) (by rw [hparams]; rfl) rfl)
      ((bodySnapshot_plain hp hparams _).trans hreply)⟩

/-! ### Writing it (R182, R194) -/

/-- Writes that reset no block do the same whether or not block resets wait for them (R205). -/
theorem writesFirst_eq {α : Type} {f : State → State × α} {u : State} {x : α} (hdue : u.fa.blocksDue = s.fa.blocksDue)
    (hf : ∀ d, f { s with fa.blocksDue := d } = ({ u with fa.blocksDue := d }, x)) : writesFirst f s = (u, x) := by
  have hu : ({ u with fa.blocksDue := s.fa.blocksDue } : State) = u := by rw [← hdue]
  cases hs : s.fa.blocksDue with
  | some m =>
    have hsame : f s = ({ u with fa.blocksDue := s.fa.blocksDue }, x) := hf s.fa.blocksDue
    rw [writesFirst, hs]
    exact hsame.trans (congrArg (·, x) hu)
  | none =>
    rw [hs] at hu
    simp only [writesFirst, hs, hf, hu, Option.getD_some, Nat.zero_testBit, Bool.false_eq_true, if_false]
    rfl

/-- A word is stored alike whether or not block resets wait. -/
theorem storeWord_blocksDue (s : State) (a v : Nat) (d : Option Nat) :
    storeWord { s with fa.blocksDue := d } a v = { storeWord s a v with fa.blocksDue := d } := by
  unfold storeWord
  cases specAt a <;> rfl

section
variable (hp : PlainReg a) (hspec : specAt a = some r)
include hp hspec

theorem judgeWords_plain (s : State) (v : Nat) : judgeWords s [(a, v)] [] [(a, v)] =
    [((a, v), if r.lock && s.locked (lockBlock a) then St.locked else if r.otp != 0 then St.badParam else St.ok)] := by
  have hjoint : jointState s [] a = s := ite_self s
  simp [judgeWords, wordReason, plainReason, hjoint, hp.memAt, hp.judgeState, hp.judgeAll, hspec]

theorem storeWords_plain (s : State) (v : Nat) : storeWords s [(a, v)] = storeWord s a v := by
  have hfold : foldPairs 1 [(a, v)] = [(a, v)] := by simp [foldPairs, hspec]
  cases hack : a == F.FA_OPEN.base <;>
    simp only [storeWords, List.length_singleton, hfold, List.map_cons, List.map_nil, List.filter_cons, List.filter_nil,
      hack, Bool.not_true, Bool.not_false, Bool.false_eq_true, if_true, if_false, List.nil_append, List.append_nil,
      forList, runHooks, hp.hookAll]

end

/-- A write that nothing refuses. -/
theorem writeWords_accepted (hp : PlainReg a) (hspec : specAt a = some r) (hlock : (r.lock && s.locked (lockBlock a)) = false)
    (hotp : r.otp = 0) (v : Nat) : writeWords s [(a, v)] = (storeWord s a v, []) := by
  simp [writeWords, forList, hp.vselProbe, judgeWords_plain hp hspec, hlock, hotp, storeWords_plain hp hspec]

/-- A write that the lock of its block refuses (R185, R187). -/
theorem writeWords_locked (hp : PlainReg a) (hspec : specAt a = some r) (hlock : r.lock = true)
    (hlocked : s.locked (lockBlock a) = true) (v : Nat) :
    writeWords s [(a, v)] = (s.bumpSat F.MP_LOCK_VIOL_COUNT, [(a, St.locked)]) := by
  have hrefused : (St.locked == St.ok) = false := rfl
  have hnothing : ∀ u, storeWords u [] = u := fun _ => rfl
  simp [writeWords, forList, hp.vselProbe, judgeWords_plain hp hspec, hlock, hlocked, hrefused, hnothing, countLock, bne]

section
variable (hp : PlainReg a) (hspec : specAt a = some r)
include hp hspec

theorem writesFirst_accepted (hlock : (r.lock && s.locked (lockBlock a)) = false) (hotp : r.otp = 0) (v : Nat) :
    writesFirst (fun s => writeWords s [(a, v)]) s = (storeWord s a v, []) := by
  refine writesFirst_eq (by rw [(storeWord_only s a v).1]) fun d => ?_
  rw [← storeWord_blocksDue]
  exact writeWords_accepted (s := { s with fa.blocksDue := d }) hp hspec hlock hotp v

theorem writesFirst_locked (hlock : r.lock = true) (hlocked : s.locked (lockBlock a) = true) (v : Nat) :
    writesFirst (fun s => writeWords s [(a, v)]) s = (s.bumpSat F.MP_LOCK_VIOL_COUNT, [(a, St.locked)]) := by
  refine writesFirst_eq (by rw [State.bumpSat_fa]) fun d => ?_
  exact writeWords_locked (s := { s with fa.blocksDue := d }) hp hspec hlock hlocked v

end

/-! ### The commands that write (R198, R199) -/

section
variable {u : State} {bad : List (Nat × Nat)} {ps : List Byte} {v : Word} (hp : PlainReg a)
  (hps : ps = toLE 4 a ++ toLE 4 v.toNat) (hwrite : writesFirst (fun s => writeWords s [(a, v.toNat)]) s = (u, bad))
include hp hps hwrite

theorem bodyWrite_plain : bodyWrite ps s = accessReply u [] bad := by
  have hpairs : writePairs (wordsLE ps) = [(a, v.toNat)] := by
    rw [hps, wordsLE_toLE_append, wordsLE_toLE, BitVec.ofNat_toNat, BitVec.setWidth_eq, writePairs, hp.toNat_ofNat]
    rfl
  simp only [bodyWrite, hpairs, hwrite, List.any_cons, List.any_nil, hp.rangeBroken, Bool.or_self, Bool.false_eq_true,
    if_false]

theorem bodyWriteBlock_plain : bodyWriteBlock ps s = accessReply u [] bad := by
  have haddr : leAt ps 0 4 = a := hps ▸ leAt_toLE_append hp.1 _
  have hwords : wordsLE (ps.drop 4) = [v] := by
    rw [hps, List.drop_left' (length_toLE 4 a), wordsLE_toLE, BitVec.ofNat_toNat, BitVec.setWidth_eq]
  have hrun : (wordRun a 1).zip [v.toNat] = [(a, v.toNat)] := rfl
  simp only [bodyWriteBlock, haddr, hwords, List.length_singleton, List.map_cons, List.map_nil, hrun, hwrite,
    hp.rangeBroken, Bool.false_eq_true, if_false]

end

/-- What MODIFY writes back: W1C and WO bits of the old word count as 0, and the bits of the mask come from the value. -/
def modified (r : RegSpec) (old mask v : Nat) : Nat :=
  ((old &&& (0xFFFFFFFF ^^^ (r.w1c ||| r.wo))) &&& (0xFFFFFFFF ^^^ mask)) ||| (v &&& mask)

theorem bodyModify_plain (hp : PlainReg a) (hspec : specAt a = some r) (hlock : (r.lock && s.locked (lockBlock a)) = false)
    (hotp : r.otp = 0) (hecc : eccPlace s a = none) {ps : List Byte} {mask v : Word}
    (hps : ps = toLE 4 a ++ toLE 4 mask.toNat ++ toLE 4 v.toNat) : bodyModify ps s =
      .done (storeWord s a (modified r (s.reg a).toNat mask.toNat v.toNat)) St.ok (toLE 4 (regView s a)) := by
  have haddr : leAt ps 0 4 = a := by
    rw [hps, List.append_assoc]
    exact leAt_toLE_append hp.1 _
  have hmask : leAt ps 4 4 = mask.toNat := hps ▸ leAt_append_toLE_append (w := 4) mask.isLt (toLE 4 a) _
  have hval : leAt ps 8 4 = v.toNat := hps ▸ leAt_append_toLE (k := 4) v.isLt (toLE 4 a ++ toLE 4 mask.toNat)
  have hwrite (w : Nat) : writesFirst (fun s => writeWords (afterReads [a] s) [(a, w)]) s = (storeWord s a w, []) := by
    refine writesFirst_eq (by rw [(storeWord_only s a w).1]) fun d => ?_
    rw [← storeWord_blocksDue, hp.afterReads (s := { s with fa.blocksDue := d }) hecc]
    exact writeWords_accepted (s := { s with fa.blocksDue := d }) hp hspec hlock hotp w
  simp only [bodyModify, haddr, hmask, hval, hp.rangeBroken, hspec, hwrite, hp.wordRead (hspec ▸ Option.some_ne_none r),
    accessReply, Bool.false_eq_true, if_false]
  rfl

/-- A lockable register is none of the bridge's own records, which have no lock. -/
theorem bridgeFields_apart_of_lock (hspec : specAt a = some r) (hlock : r.lock = true) : ∀ g ∈ bridgeFields, g.1 ≠ a := by
  rintro g hg rfl
  have hnolock : ∀ g ∈ bridgeFields, (specAt g.1).any (fun r => !r.lock) = true := by decide +kernel
  simpa [hspec, hlock] using hnolock g hg

/-- A command whose action is one accepted write of the register. -/
theorem stored_served {c : Instr} {row : OpRow} {op v : Nat} {data : List Byte} (h : Takes s k)
    (hc : exec c s = act s (chainCommand s op k none)) (hop : op ∉ [2, 3, 4, 5]) (hr : opRow op = some row)
    (hf : row.fw = false) (hl : row.len k.params = true) (hspec : specAt a = some r)
    (hapart : a ∉ [0x40000008, 0x4000000C, 0x40000010])
    (hb : runBody .chain (ownJob s op k) (taken s k) = .done (storeWord (taken s k) a v) St.ok data) :
    Gives c s fun t => Served [(a, 0, 32)] s t k St.ok data ∧
      t.reg a = BitVec.ofNat 32 (mergeWrite r (s.reg a).toNat v) ∧ BusOnly s t := by
  simp only [List.mem_cons, List.not_mem_nil, or_false, not_or] at hapart
  obtain ⟨hstatus, herr, hcount⟩ := hapart
  obtain ⟨t, hexec, hserved, hbus, hkept⟩ := served_hw_only h hc hop hr hf hl hb (storeWord_only _ a v)
    (List.forall_mem_singleton.mpr ⟨hcount, herr⟩)
  refine ⟨t, hexec, hserved, ?_, hbus⟩
  have hanswer : ∀ g ∈ answerFields, g.1 ≠ a := fun g hg => by
    rcases (by decide : ∀ g ∈ answerFields, g.1 = 0x40000008 ∨ g.1 = 0x4000000C) g hg with e | e <;> rw [e]
    · exact Ne.symm hstatus
    · exact Ne.symm herr
  rw [hkept.reg hanswer, storeWord_eq _ v hspec, State.reg_setReg, taken_reg s k a hcount]

section
variable {v : Word} (hp : PlainReg a) (hspec : specAt a = some r)
include hp hspec

theorem writes_served (h : Takes s k) (hlock : (r.lock && s.locked (lockBlock a)) = false) (hotp : r.otp = 0)
    (hapart : a ∉ [0x40000008, 0x4000000C, 0x40000010]) (hparams : k.params = toLE 4 a ++ toLE 4 v.toNat) :
    (Gives (.write k) s fun t => Served [(a, 0, 32)] s t k St.ok [] ∧
      t.reg a = BitVec.ofNat 32 (mergeWrite r (s.reg a).toNat v.toNat) ∧ BusOnly s t) ∧
    (Gives (.writeBlock k) s fun t => Served [(a, 0, 32)] s t k St.ok [] ∧
      t.reg a = BitVec.ofNat 32 (mergeWrite r (s.reg a).toNat v.toNat) ∧ BusOnly s t) := by
  have hwrite := writesFirst_accepted (s := taken s k) hp hspec hlock hotp v.toNat
  have hlen : k.params.length = 8 := by rw [hparams]; rfl
  exact ⟨stored_served (op := 0x11) h rfl (by decide) rfl rfl (lenForm_of_length hlen rfl) hspec hapart
      (bodyWrite_plain hp hparams hwrite),
    stored_served (op := 0x13) h rfl (by decide) rfl rfl (lenForm_of_length hlen rfl) hspec hapart
      (bodyWriteBlock_plain hp hparams hwrite)⟩

theorem modify_served (h : Takes s k) (hlock : (r.lock && s.locked (lockBlock a)) = false) (hotp : r.otp = 0)
    (hapart : a ∉ [0x40000008, 0x4000000C, 0x40000010]) {mask : Word} (hecc : eccPlace s a = none)
    (hparams : k.params = toLE 4 a ++ toLE 4 mask.toNat ++ toLE 4 v.toNat) :
    Gives (.modify k) s fun t => Served [(a, 0, 32)] s t k St.ok (toLE 4 (regView (taken s k) a)) ∧
      t.reg a = BitVec.ofNat 32 (mergeWrite r (s.reg a).toNat (modified r (s.reg a).toNat mask.toNat v.toNat)) ∧
      BusOnly s t := by
  have hcount : a ≠ 0x40000010 := fun e => hapart (by simp [e])
  have hbody := bodyModify_plain (s := taken s k) hp hspec hlock hotp ((eccPlace_taken s k a).trans hecc) hparams
  rw [taken_reg s k a hcount] at hbody
  exact stored_served (op := 0x14) h rfl (by decide) rfl rfl (by rw [hparams]; rfl) hspec hapart hbody

theorem registerWrite_stores (ha : s.Awake) (hlock : (r.lock && s.locked (lockBlock a)) = false) (hotp : r.otp = 0) :
    Gives (.registerWrite (BitVec.ofNat 32 a) v) s fun t =>
      t = s.setReg a (BitVec.ofNat 32 (mergeWrite r (s.reg a).toNat v.toNat)) := by
  have hexec : exec (.registerWrite (BitVec.ofNat 32 a) v) s = act s (storeWord s a v.toNat) := by
    change execRegisterWrite _ _ s = _
    simp only [execRegisterWrite, hp.toNat_ofNat, hp.aligned, writesFirst_accepted hp hspec hlock hotp, bne_self_eq_false,
      Bool.false_eq_true, if_false]
  rw [storeWord_eq s _ hspec] at hexec
  exact gives_of_act ha hexec ha.2 rfl

/-- WRITE of a register whose block is locked is refused and counted (R185, R187, R196). -/
theorem write_locked (h : Takes s k) (hlock : r.lock = true) (hlocked : s.locked (lockBlock a) = true)
    (hviol : a ≠ 0x4000001C) (hparams : k.params = toLE 4 a ++ toLE 4 v.toNat) :
    Gives (.write k) s fun t =>
      Served [F.MP_LOCK_VIOL_COUNT.at] s t k St.locked (toLE 4 a ++ toLE 2 1) ∧ t.reg a = s.reg a ∧
      t.get F.MP_LOCK_VIOL_COUNT = min (s.get F.MP_LOCK_VIOL_COUNT + 1) 65535 ∧ BusOnly s t := by
  have hbody := bodyWrite_plain hp hparams (writesFirst_locked (s := taken s k) hp hspec hlock hlocked v.toNat)
  obtain ⟨t, hexec, hserved, hbus, hkept⟩ := served_hw_only (c := .write k) (op := 0x11)
    (fs := [F.MP_LOCK_VIOL_COUNT.at]) h rfl (by decide) rfl rfl (lenForm_of_length (n := 8) (by rw [hparams]; rfl) rfl) hbody
    (only_bumpSat (List.mem_singleton.mpr rfl)) (by decide)
  refine ⟨t, hexec, hserved, ?_, ?_, hbus⟩
  · obtain ⟨-, -, hregs, -⟩ := hserved
    exact hregs.reg (List.forall_mem_append.mpr ⟨bridgeFields_apart_of_lock hspec hlock,
      List.forall_mem_singleton.mpr (Ne.symm hviol)⟩)
  · rw [hkept.get _ _ _ (by decide), get_bumpSat_one _ 0 (by decide), taken_get s k _ _ _ (by decide)]

end

/-! ### LOCK (R185, R200) -/

theorem bodyLock_of_lt {m : Nat} (hm : m < 2 ^ 21) (s : State) :
    bodyLock (toLE 4 m) s = .done { s with locks := s.locks ||| m } St.ok (toLE 4 (s.locks ||| m)) := by
  rw [bodyLock, leAt_toLE (by omega)]
  exact if_neg (Nat.not_le.mpr hm)

theorem lock_served {m : Nat} (h : Takes s k) (hm : m < 2 ^ 21) (hparams : k.params = toLE 4 m) :
    Gives (.lock k) s fun t =>
      Served [] s t k St.ok (toLE 4 (s.locks ||| m)) ∧ t.locks = s.locks ||| m ∧
      t = { s with regs := t.regs, mp := t.mp, ch := t.ch, locks := t.locks } := by
  have hbody := bodyLock_of_lt hm (taken s k)
  rw [← hparams] at hbody
  obtain ⟨t, hexec, hserved, hbridge, -⟩ := served_hw_kept (c := .lock k) (op := 0x16) (fs := []) h rfl (by decide) rfl rfl
    (by rw [hparams]; rfl) hbody rfl rfl (RegsKept.of_regs rfl) (by simp)
  refine ⟨t, hexec, hserved, ?_, ?_⟩ <;> rw [hbridge.eq] <;> rfl

/-- Settles O6: the reads by what a plain register shows, the writes by the one word they store, LOCK by its mask. -/
theorem registerAccess : Obligations.RegisterAccess := by
  unfold Obligations.RegisterAccess
  exact fun s k h => ⟨fun a hp =>
    ⟨fun hspec hecc => reads_served h hp hspec hecc,
      fun r v hspec hlock hotp hapart =>
        ⟨fun hparams => (writes_served hp hspec h hlock hotp hapart hparams).1,
          fun hparams => (writes_served hp hspec h hlock hotp hapart hparams).2,
          fun mask hecc hparams => modify_served hp hspec h hlock hotp hapart hecc hparams,
          registerWrite_stores hp hspec h.1 hlock hotp⟩,
      fun r v hspec hlock hlocked hviol hparams => write_locked hp hspec h hlock hlocked hviol hparams⟩,
    fun m hm hparams => lock_served h hm hparams⟩

end Sys2Proof.Machine
end

section
/-!
PROOFS. The boot: core self-test, boot load, firmware's first report and BOOT_SKIP (R221, R222, R623, R705).
-/
namespace Sys2Proof.Machine

variable {s : State}

/-! ### The boot load (R221, R222) -/

/-- The boot load has begun or been skipped: there is no other in this boot. -/
def bootBegun (s : State) : State := { s with cf.bootDone := true }

/-- A copy refused, or no copy to load. -/
def bootRefused (s : State) : State := (s.put F.CF_STATUS_BOOT_LOAD 3).raiseBit F.CF_EVENT_BOOT_REFUSED

theorem exec_bootLoad_early (h : s.cf.bootDone = true ∨ s.cyc < bootEarliest) : exec .bootLoad s = act s s := by
  have hearly : (s.cf.bootDone || Nat.blt s.cyc bootEarliest) = true := by simpa using h
  change execBootLoad s = _
  rw [execBootLoad, if_pos hearly]

theorem exec_bootLoad_due (hdone : s.cf.bootDone = false) (hcyc : bootEarliest ≤ s.cyc) :
    exec .bootLoad s = act s (bootLoad s) := by
  have hdue : ¬ (s.cf.bootDone || Nat.blt s.cyc bootEarliest) = true := by simp [hdone, hcyc]
  change execBootLoad s = _
  rw [execBootLoad, if_neg hdue]

/-- What the boot load makes of the newest copy, where there is one: it is tried first, then the other. -/
def bootAttempt (s : State) : Option Bool → State
  | none => bootRefused s
  | some b =>
    let r := bootTry s b
    if r.2 then r.1.put F.CF_STATUS_BOOT_LOAD (1 + b2n b)
    else
      let t := bootTry r.1 (!b)
      if t.2 then t.1.put F.CF_STATUS_BOOT_LOAD (1 + b2n (!b)) else bootRefused t.1

theorem bootLoad_eq (s : State) : bootLoad s =
    if !s.dir.bootMode || s.cf.bootSkip || !s.bc.bare.isEmpty then (bootBegun s).put F.CF_STATUS_BOOT_LOAD 0
    else bootAttempt (bootBegun s) (newestCopy s) := rfl

theorem bootLoad_skipped (h : s.dir.bootMode = false ∨ s.cf.bootSkip = true ∨ s.bc.bare ≠ []) :
    bootLoad s = (bootBegun s).put F.CF_STATUS_BOOT_LOAD 0 := by
  rw [bootLoad_eq, if_pos]
  simpa [or_assoc] using h

theorem bootLoad_attempted (hmode : s.dir.bootMode = true) (hskip : s.cf.bootSkip = false) (hbare : s.bc.bare = []) :
    bootLoad s = bootAttempt (bootBegun s) (newestCopy s) := by
  rw [bootLoad_eq, if_neg]
  simp [hmode, hskip, hbare]

theorem bootAttempt_of_loaded {b : Bool} {u : State} (htry : bootTry s b = (u, true)) :
    bootAttempt s (some b) = u.put F.CF_STATUS_BOOT_LOAD (1 + b2n b) := by
  simp only [bootAttempt, htry, if_true]

theorem bootRefused_shows (s : State) : (bootRefused s).get F.CF_STATUS_BOOT_LOAD = 3 ∧
    (bootRefused s).get F.CF_EVENT_BOOT_REFUSED = 1 ∧
    RegsKept [F.CF_STATUS_BOOT_LOAD.at, F.CF_EVENT_BOOT_REFUSED.at] s (bootRefused s) :=
  put_raiseBit s F.CF_STATUS_BOOT_LOAD F.CF_EVENT_BOOT_REFUSED 3 (by decide)

section
variable (ha : s.Awake) (hdone : s.cf.bootDone = false) (hcyc : bootEarliest ≤ s.cyc)
include ha hdone hcyc

theorem bootLoad_skips (h : s.dir.bootMode = false ∨ s.cf.bootSkip = true ∨ s.bc.bare ≠ []) : Gives .bootLoad s fun t =>
    t.get F.CF_STATUS_BOOT_LOAD = 0 ∧ t = { s with cf.bootDone := true, regs := t.regs } ∧
    RegsKept [F.CF_STATUS_BOOT_LOAD.at] s t :=
  gives_of_act ha ((exec_bootLoad_due hdone hcyc).trans (congrArg (act s) (bootLoad_skipped h))) ha.2
    ⟨State.get_put _ _ _ _ _ (by decide), rfl, (RegsKept.of_regs rfl).trans (regsKept_put (List.mem_singleton.mpr rfl))⟩

section
variable (hmode : s.dir.bootMode = true) (hskip : s.cf.bootSkip = false) (hbare : s.bc.bare = [])
include hmode hskip hbare

theorem bootLoad_refuses (hnone : newestCopy s = none) : Gives .bootLoad s fun t =>
    t.get F.CF_STATUS_BOOT_LOAD = 3 ∧ t.get F.CF_EVENT_BOOT_REFUSED = 1 ∧
    t = { s with cf.bootDone := true, regs := t.regs } ∧
    RegsKept [F.CF_STATUS_BOOT_LOAD.at, F.CF_EVENT_BOOT_REFUSED.at] s t := by
  obtain ⟨hload, hevent, hkept⟩ := bootRefused_shows (bootBegun s)
  have hexec := exec_bootLoad_due hdone hcyc
  rw [bootLoad_attempted hmode hskip hbare, hnone] at hexec
  exact gives_of_act ha hexec ha.2 ⟨hload, hevent, rfl, (RegsKept.of_regs rfl).trans hkept⟩

theorem bootLoad_loads {b : Bool} {u : State} (hnewest : newestCopy s = some b) (htry : bootTry (bootBegun s) b = (u, true))
    (hdue : u.chip.resetDue = none) : Gives .bootLoad s fun t =>
      t.get F.CF_STATUS_BOOT_LOAD = 1 + b2n b ∧ Only [F.CF_STATUS_BOOT_LOAD.at] u t := by
  have hexec := exec_bootLoad_due hdone hcyc
  rw [bootLoad_attempted hmode hskip hbare, hnewest, bootAttempt_of_loaded htry] at hexec
  refine gives_of_act ha hexec hdue ⟨?_, only_put (List.mem_singleton.mpr rfl)⟩
  exact get_put_same u F.CF_STATUS_BOOT_LOAD 0 (by decide) (by cases b <;> decide)

end

end

/-! ### Firmware reports ready (R705) -/

theorem showFw_only (s : State) : Only [F.MP_STATUS_FW_READY.at] s (showFw s) := only_put (List.mem_singleton.mpr rfl)

/-- Firmware that has reported, with no takeover, no bare role and no replacement, is shown ready (R142). -/
theorem showFw_ready (hbooted : s.bc.booted = true) (htakeover : s.bc.takeover = none) (hbare : s.bc.bare = [])
    (hswap : s.bc.swap = none) : (showFw s).get F.MP_STATUS_FW_READY = 1 := by
  simp only [showFw, hbooted, htakeover, hbare, hswap, Option.isNone_none, List.isEmpty_nil, Bool.not_false, Bool.and_self]
  exact State.get_put_bit _ _ true _ _ (by decide) (by decide)

theorem exec_fwReady (h : s.cf.bootDone = true ∨ s.cf.bootSkip = true ∨ s.dir.bootMode = false) :
    exec .fwReady s = act s (showFw { s with bc.booted := true }) := by
  have hdue : ¬ (!(s.cf.bootDone || s.cf.bootSkip || !s.dir.bootMode)) = true := by
    rcases h with h | h | h <;> simp [h]
  change execFwReady s = _
  rw [execFwReady, if_neg hdue]

theorem fwReady_shows (ha : s.Awake) (h : s.cf.bootDone = true ∨ s.cf.bootSkip = true ∨ s.dir.bootMode = false) :
    Gives .fwReady s fun t =>
      (s.bc.takeover = none → s.bc.bare = [] → s.bc.swap = none → t.get F.MP_STATUS_FW_READY = 1) ∧
      t = { s with bc.booted := true, regs := t.regs } ∧ RegsKept [F.MP_STATUS_FW_READY.at] s t :=
  gives_of_act ha (exec_fwReady h) ha.2 ⟨fun htakeover hbare hswap => showFw_ready rfl htakeover hbare hswap, rfl,
    (RegsKept.of_regs rfl).trans (showFw_only _).2⟩

/-! ### BOOT_SKIP (R222) -/

/-- CF_BOOT_CTRL in the register table: BOOT_SKIP is write-only, and no lock covers it. -/
def bootCtrlSpec : RegSpec := { name := "CF_BOOT_CTRL", base := 0x4002002C, wo := 0x00000001 }

theorem specAt_bootCtrl : specAt 0x4002002C = some bootCtrlSpec := by decide +kernel

/-- The write leaves every register as it reads; it only marks the skip, and only before the boot load of a boot with mode 1. -/
theorem exec_bootSkip (s : State) : exec .bootSkip s =
    act s (hookCf 0x4002002C 1 (s.reg 0x4002002C).toNat (storeWord s 0x4002002C 1)) :=
  congrArg (act s) (writeBy_ok specAt_bootCtrl rfl rfl rfl)

theorem storeWord_bootCtrl (s : State) (fs : List (Nat × Nat × Nat)) : Only fs s (storeWord s 0x4002002C 1) :=
  storeWord_kept_only s specAt_bootCtrl rfl rfl

theorem hookCf_bootSkip (s : State) (old : Nat) : hookCf 0x4002002C 1 old s =
    if !s.cf.bootDone && s.dir.bootMode then { s with cf.bootSkip := true } else s := rfl

theorem bootSkip_marks (ha : s.Awake) (hdone : s.cf.bootDone = false) (hmode : s.dir.bootMode = true) :
    Gives .bootSkip s fun t => t = { s with cf.bootSkip := true, regs := t.regs } ∧ RegsKept [] s t := by
  obtain ⟨hstored, hkept⟩ := storeWord_bootCtrl s []
  have hskips : (!(storeWord s 0x4002002C 1).cf.bootDone && (storeWord s 0x4002002C 1).dir.bootMode) = true := by
    rw [hstored]
    change (!s.cf.bootDone && s.dir.bootMode) = true
    rw [hdone, hmode]
    rfl
  have hexec := exec_bootSkip s
  rw [hookCf_bootSkip, if_pos hskips] at hexec
  refine gives_of_act ha hexec ?_ ⟨?_, hkept.trans (RegsKept.of_regs rfl)⟩
  · change (storeWord s 0x4002002C 1).chip.resetDue = none
    rw [hstored]
    exact ha.2
  · rw [hstored]

theorem bootSkip_late (ha : s.Awake) (hdone : s.cf.bootDone = true) : Gives .bootSkip s fun t => Only [] s t := by
  have honly := storeWord_bootCtrl s []
  have hlate : ¬ (!(storeWord s 0x4002002C 1).cf.bootDone && (storeWord s 0x4002002C 1).dir.bootMode) = true := by
    rw [honly.1]
    simp [hdone]
  have hexec := exec_bootSkip s
  rw [hookCf_bootSkip, if_neg hlate] at hexec
  exact gives_of_act ha hexec (honly.chip ▸ ha.2) honly

/-- Settles O13: `bootLoad` in its three cases, the first report of firmware, and the write of BOOT_SKIP before and after it. -/
theorem bootSequence : Obligations.BootSequence := by
  unfold Obligations.BootSequence
  exact fun s ha => ⟨fun n => gives_of_act ha rfl ha.2 rfl,
    fun h => gives_of_act ha (exec_bootLoad_early h) ha.2 rfl,
    fun hdone hcyc h => bootLoad_skips ha hdone hcyc h,
    fun hdone hcyc hmode hskip hbare => ⟨fun hnone => bootLoad_refuses ha hdone hcyc hmode hskip hbare hnone,
      fun b u hnewest htry hdue => bootLoad_loads ha hdone hcyc hmode hskip hbare hnewest htry hdue⟩,
    fun h => fwReady_shows ha h, fun hdone hmode => bootSkip_marks ha hdone hmode, fun hdone => bootSkip_late ha hdone⟩

end Sys2Proof.Machine
end

section
/-!
PROOFS. Words applied whole or not at all (R220, R225), and a timed veneer at the start of a frame (R225, R227, R236).
-/
namespace Sys2Proof.Machine

variable {s u : State} {fs : List (Nat × Nat × Nat)}

theorem Only.exists_regs (h : Only fs s u) : ∃ regs, u = { s with regs := regs } := ⟨_, h.1⟩

/-! ### Words applied whole or not at all (R220, R225) -/

/-- Each register that some words name is named by the words it is left with. -/
theorem exists_mem_lastWords {ws : List (Nat × Nat)} {w : Nat × Nat} (hw : w ∈ ws) : ∃ x ∈ lastWords ws, x.1 = w.1 := by
  induction ws generalizing w with
  | nil => cases hw
  | cons y ys ih =>
    by_cases hlater : ys.any (fun x => x.1 == y.1) = true
    · rw [lastWords, if_pos hlater]
      rcases List.mem_cons.mp hw with rfl | hmem
      · obtain ⟨x, hx, heq⟩ := List.any_eq_true.mp hlater
        obtain ⟨z, hz, hzx⟩ := ih hx
        exact ⟨z, hz, hzx.trans (beq_iff_eq.mp heq)⟩
      · exact ih hmem
    · rw [lastWords, if_neg hlater]
      rcases List.mem_cons.mp hw with rfl | hmem
      · exact ⟨w, List.mem_cons_self, rfl⟩
      · obtain ⟨x, hx, heq⟩ := ih hmem
        exact ⟨x, List.mem_cons_of_mem _ hx, heq⟩

/-- Whether the lock of its block keeps a word from being written (R185). -/
def wordLocked (s : State) (w : Nat × Nat) : Bool :=
  match specAt w.1 with
  | some r => r.lock && s.locked (lockBlock w.1)
  | none => false

theorem wordLocked_of_spec {a v : Nat} {r : RegSpec} (hspec : specAt a = some r) :
    wordLocked s (a, v) = (r.lock && s.locked (lockBlock a)) := by
  simp only [wordLocked, hspec]

/-- One locked register refuses all the words, which counts once (R187, R220, R225). -/
theorem applyWords_locked {ws : List (Nat × Nat)} (h : ∃ w ∈ ws, wordLocked s w = true) :
    applyWords s ws = (s.bumpSat F.MP_LOCK_VIOL_COUNT, St.locked) := by
  obtain ⟨w, hw, hlocked⟩ := h
  obtain ⟨x, hx, haddr⟩ := exists_mem_lastWords hw
  have hany : (lastWords ws).any (wordLocked s) = true := by
    refine List.any_eq_true.mpr ⟨x, hx, ?_⟩
    rw [wordLocked, haddr]
    exact hlocked
  exact if_pos hany

/-- One word of a plain register, which no lock covers, is stored. -/
theorem applyWords_plain {a v : Nat} {r : RegSpec} (hp : PlainReg a) (hspec : specAt a = some r)
    (hlock : (r.lock && s.locked (lockBlock a)) = false) : applyWords s [(a, v)] = (storeWord s a v, St.ok) := by
  have hfree : ¬ (lastWords [(a, v)]).any (wordLocked s) = true := by
    simp [lastWords, wordLocked_of_spec hspec, hlock]
  refine (if_neg hfree).trans (writesFirst_eq (by rw [(storeWord_only s a v).1]) fun d => ?_)
  rw [← storeWord_blocksDue, ← storeWords_plain hp hspec]
  simp [lastWords, forList, hp.vselProbe, hp.judgeAll]

/-! ### A stage's veneer ends (Table 6.5) -/

/-- A stage's veneer ends: its event is raised, and the stage says how. -/
def stageEnds (u : State) (j : Nat) (e : Field) (st : StageSt) (result : Byte) : State :=
  (u.raiseBit e).modStage j fun x => { x with st := st, result := result }

/-- What the end of a veneer changes, when what was written before it are registers alone. -/
theorem stageEnds_shows (h : Only fs s u) {e : Field} (he : e.lo + e.w ≤ 32 ∧ 0 < e.w) (j : Nat) (st : StageSt) (result : Byte) :
    (stageEnds u j e st result).get e = 1 ∧
    (stageEnds u j e st result).stageX j = { s.stageX j with st := st, result := result } ∧
    stageEnds u j e st result = { s with
      regs := (stageEnds u j e st result).regs, cf.stages := (stageEnds u j e st result).cf.stages } ∧
    RegsKept (fs ++ [e.at]) s (stageEnds u j e st result) := by
  have hkept : RegsKept (fs ++ [e.at]) s u := h.2.mono fun _ => List.mem_append_left _
  obtain ⟨regs, rfl⟩ := h.exists_regs
  refine ⟨?_, ?_, rfl, ?_⟩
  · rw [stageEnds, State.modStage_get, State.get_raiseBit _ _ _ _ he.1 he.2]
  · rw [stageEnds, State.stageX_modStage, State.stageX_raiseBit]
    rfl
  · exact (hkept.trans (regsKept_raiseBit (by simp))).trans (RegsKept.of_regs rfl)

theorem stageEnds_awake (h : Only fs s u) (ha : s.Awake) (j : Nat) (e : Field) (st : StageSt) (result : Byte) :
    (stageEnds u j e st result).chip.resetDue = none := by
  change u.chip.resetDue = none
  rw [h.chip]
  exact ha.2

theorem stageEnds_reg {j a : Nat} {e : Field} {st : StageSt} {result : Byte} (h : a ≠ e.addr) :
    (stageEnds u j e st result).reg a = u.reg a := by
  rw [stageEnds, State.modStage_reg, State.reg_raiseBit_other _ _ _ _ h]

theorem stageApply_of_ok {j : Nat} (h : applyWords s (veneerWords s (s.stageX j).count (s.stageX j).bytes) = (u, St.ok)) :
    stageApply s j = stageEnds u j F.CF_EVENT_VENEER_APPLIED .applied 0 := by
  simp only [stageApply, h, if_true]
  rfl

theorem stageApply_of_locked {j : Nat}
    (h : applyWords s (veneerWords s (s.stageX j).count (s.stageX j).bytes) = (u, St.locked)) :
    stageApply s j = stageEnds u j F.CF_EVENT_VENEER_REFUSED .refused 7 := by
  have hrefused : ¬ St.locked = St.ok := by decide
  simp only [stageApply, h, if_neg hrefused]
  rfl

theorem stageMissed_eq (s : State) (j : Nat) : stageMissed s j = stageEnds s j F.CF_EVENT_VENEER_MISSED .missed 0x0C := rfl

/-! ### The start of a frame (R227, R236) -/

theorem exec_veneerApply {j : Fin 4} (harmed : stageArmed s j = true) (hdue : stageTarget s j = s.nextFrameNum) :
    exec (.veneerApply j) s = act s (stageApply s j) :=
  congrArg (act s) (if_pos ⟨harmed, hdue⟩)

section
variable {j : Fin 4} (ha : s.Awake) (harmed : stageArmed s j = true)
include ha harmed

/-- The words take effect together in the first cycle of the target frame. -/
theorem veneerApply_applies {a v : Nat} {r : RegSpec} (hdue : stageTarget s j = s.nextFrameNum) (hp : PlainReg a)
    (hspec : specAt a = some r) (hlock : (r.lock && s.locked (lockBlock a)) = false)
    (hapart : a ≠ F.CF_EVENT_VENEER_APPLIED.addr)
    (hwords : veneerWords s (s.stageX j).count (s.stageX j).bytes = [(a, v)]) : Gives (.veneerApply j) s fun t =>
      t.reg a = BitVec.ofNat 32 (mergeWrite r (s.reg a).toNat v) ∧ t.get F.CF_EVENT_VENEER_APPLIED = 1 ∧
      t.stageX j = { s.stageX j with st := .applied, result := 0 } ∧ t = { s with regs := t.regs, cf.stages := t.cf.stages } ∧
      RegsKept [(a, 0, 32), F.CF_EVENT_VENEER_APPLIED.at] s t := by
  have hstored := storeWord_only s a v
  have hexec := exec_veneerApply harmed hdue
  rw [stageApply_of_ok (hwords ▸ applyWords_plain hp hspec hlock)] at hexec
  obtain ⟨hevent, hstage, honly, hkept⟩ := stageEnds_shows hstored (e := F.CF_EVENT_VENEER_APPLIED) (by decide) j .applied 0
  refine gives_of_act ha hexec (stageEnds_awake hstored ha _ _ _ _) ⟨?_, hevent, hstage, honly, hkept⟩
  rw [stageEnds_reg hapart, storeWord_eq s v hspec, State.reg_setReg]

/-- A locked register refuses the veneer whole. -/
theorem veneerApply_refuses {ws : List (Nat × Nat)} (hdue : stageTarget s j = s.nextFrameNum)
    (hwords : veneerWords s (s.stageX j).count (s.stageX j).bytes = ws)
    (hlocked : ∃ w ∈ ws, ∃ r, specAt w.1 = some r ∧ r.lock = true ∧ s.locked (lockBlock w.1) = true) :
    Gives (.veneerApply j) s fun t =>
      t.get F.CF_EVENT_VENEER_REFUSED = 1 ∧ t.get F.MP_LOCK_VIOL_COUNT = min (s.get F.MP_LOCK_VIOL_COUNT + 1) 65535 ∧
      t.stageX j = { s.stageX j with st := .refused, result := 7 } ∧ t = { s with regs := t.regs, cf.stages := t.cf.stages } ∧
      RegsKept [F.CF_EVENT_VENEER_REFUSED.at, F.MP_LOCK_VIOL_COUNT.at] s t := by
  have hrefused : applyWords s ws = (s.bumpSat F.MP_LOCK_VIOL_COUNT, St.locked) := by
    obtain ⟨w, hw, r, hspec, hlock, hblock⟩ := hlocked
    exact applyWords_locked ⟨w, hw, by rw [wordLocked_of_spec hspec, hlock, hblock]; rfl⟩
  have hcounted : Only [F.MP_LOCK_VIOL_COUNT.at] s (s.bumpSat F.MP_LOCK_VIOL_COUNT) := only_bumpSat (List.mem_singleton.mpr rfl)
  have hexec := exec_veneerApply harmed hdue
  rw [stageApply_of_locked (hwords ▸ hrefused)] at hexec
  obtain ⟨hevent, hstage, honly, hkept⟩ := stageEnds_shows hcounted (e := F.CF_EVENT_VENEER_REFUSED) (by decide) j .refused 7
  refine gives_of_act ha hexec (stageEnds_awake hcounted ha _ _ _ _) ⟨hevent, ?_, hstage, honly, hkept.mono (by simp)⟩
  rw [State.get, stageEnds_reg (by decide)]
  exact get_bumpSat_one s 0 (by decide)

/-- A target that the frame number passes is MISSED. -/
theorem veneerMissed_marks (hpast : numDiff (stageTarget s j) s.nextFrameNum < 0) : Gives (.veneerMissed j) s fun t =>
    t.get F.CF_EVENT_VENEER_MISSED = 1 ∧ t.stageX j = { s.stageX j with st := .missed, result := 0x0C } ∧
    t = { s with regs := t.regs, cf.stages := t.cf.stages } ∧ RegsKept [F.CF_EVENT_VENEER_MISSED.at] s t :=
  have hexec : exec (.veneerMissed j) s = act s (stageMissed s j) := congrArg (act s) (if_pos ⟨harmed, hpast⟩)
  gives_of_act ha (hexec.trans (congrArg (act s) (stageMissed_eq s j))) ha.2
    (stageEnds_shows (fs := []) (only_refl s) (e := F.CF_EVENT_VENEER_MISSED) (by decide) j .missed 0x0C)

end

/-- Settles O17: `applyWords` stores the word or is refused by the lock, and the stage ends accordingly. -/
theorem veneerApplication : Obligations.VeneerApplication := by
  unfold Obligations.VeneerApplication
  exact fun s ha =>
    ⟨fun j a v r harmed hdue hp hspec hlock hapart hwords => veneerApply_applies ha harmed hdue hp hspec hlock hapart hwords,
      fun j ws harmed hdue hwords hlocked => veneerApply_refuses ha harmed hdue hwords hlocked,
      fun j harmed hpast => veneerMissed_marks ha harmed hpast⟩

end Sys2Proof.Machine
end

section
/-!
PROOFS. What a firmware-served command finds when its action begins (R141), and the store read and carcass images judged there
(R218, R240).
-/
namespace Sys2Proof.Machine

variable {s t u : State} {k : Pkt} {op st f : Nat} {data : List Byte}

/-! ### The state in which the action is carried out (R141) -/

/-- The registers in which the bridge shows that the command has begun: MP_STATUS and MP_TXN_COUNT. -/
def begunRegs : List Nat := [0x40000008, 0x40000010]

theorem not_mem_begunRegs {a : Nat} (h : 0x40000010 < a) : a ∉ begunRegs := fun hmem =>
  absurd ((by decide : ∀ a ∈ begunRegs, a ≤ 0x40000010) a hmem) (by omega)

theorem begun_reg (s : State) (op : Nat) (k : Pkt) {a : Nat} (h : a ∉ begunRegs) : (begun s op k).reg a = s.reg a := by
  obtain ⟨-, hkept, -⟩ := begun_kept s op k
  refine hkept.reg fun g hg e => h ?_
  rw [← e]
  exact (by decide : ∀ g ∈ F.MP_TXN_COUNT.word :: shownFields, g.1 ∈ begunRegs) g hg

theorem begun_get (s : State) (op : Nat) (k : Pkt) (g : Field) {i j : Nat} (h : g.addr i j ∉ begunRegs) :
    (begun s op k).get g i j = s.get g i j := by
  rw [State.get, State.get, begun_reg s op k h]

theorem begun_chip (s : State) (op : Nat) (k : Pkt) : (begun s op k).chip = s.chip := by rw [begun_eq]

theorem begun_locks (s : State) (op : Nat) (k : Pkt) : (begun s op k).locks = s.locks := by rw [begun_eq]

theorem begun_locked (s : State) (op : Nat) (k : Pkt) (block : Nat) : (begun s op k).locked block = s.locked block := by
  rw [State.locked, State.locked, begun_locks]

theorem stageX_begun (s : State) (op : Nat) (k : Pkt) (j : Nat) : (begun s op k).stageX j = s.stageX j := by
  rw [begun_eq]
  rfl

theorem stagedImage_begun (s : State) (op : Nat) (k : Pkt) : stagedImage (begun s op k) = stagedImage s := by
  rw [begun_eq, stagedImage, stagedImage, stagingBytes, stagingBytes]

theorem BusOnly.trans (h : BusOnly s t) (h' : BusOnly t u) : BusOnly s u := by
  unfold BusOnly at *
  rw [h', h]

theorem BridgeOnly.busOnly (h : BridgeOnly s t) : BusOnly s t := by
  rw [BusOnly, h.eq]

theorem begun_busOnly (s : State) (op : Nat) (k : Pkt) : BusOnly s (begun s op k) := begun_eq s op k

/-- A command that firmware serves at once is answered with what its action gives (R132, R133). -/
theorem served_fw_acts {c : Instr} {r : OpRow} {fs : List (Nat × Nat × Nat)} (h : TakesFw s k f)
    (hc : exec c s = act s (chainCommand s op k (some f))) (hop : op ∉ [2, 3, 4]) (hr : opRow op = some r) (hf : r.fw = true)
    (hl : r.len k.params = true) (hb : runBody .chain (ownJob s op k) (begun s op k) = .done u st data)
    (hmp : u.mp = (begun s op k).mp) (hchip : u.chip = s.chip) (hk : RegsKept fs (begun s op k) u)
    (hfs : ∀ g ∈ fs, g.1 ∉ [0x40000010, 0x4000000C, 0x40010000]) :
    Gives c s fun t => FwServed f fs s t k st data ∧ BridgeOnly u t ∧ RegsKept answerFields u t := by
  simp only [List.mem_cons, List.not_mem_nil, or_false, not_or] at hop hfs
  obtain ⟨h2, h3, h4⟩ := hop
  obtain ⟨⟨⟨-, hdue⟩, -⟩, -⟩ := id h
  exact served_fw_kept h hc h2 h3 h4 hr hf hl hb hmp hk hfs (hchip ▸ hdue)

/-- The same for an action that changes nothing. -/
theorem served_fw_same {c : Instr} {r : OpRow} (h : TakesFw s k f) (hc : exec c s = act s (chainCommand s op k (some f)))
    (hop : op ∉ [2, 3, 4]) (hr : opRow op = some r) (hf : r.fw = true) (hl : r.len k.params = true)
    (hb : runBody .chain (ownJob s op k) (begun s op k) = .done (begun s op k) st data) :
    Gives c s fun t => FwServed f [] s t k st data ∧ BusOnly s t := by
  obtain ⟨t, hexec, hserved, hbridge, -⟩ :=
    served_fw_acts h hc hop hr hf hl hb rfl (begun_chip s op k) (RegsKept.refl (fs := []) _) (by simp)
  exact ⟨t, hexec, hserved, (begun_busOnly s op k).trans hbridge.busOnly⟩

/-! ### The store read with no Jig armed (R240, R678) -/

theorem storeChecks_of_no_jig (h : s.get F.FA_JIG_LEFT 6 = 0) (n w : Nat) : storeChecks n w s = (s, false) := by
  cases n with
  | zero => rfl
  | succ n => rw [storeChecks, if_pos h]

theorem storeRead_of_no_jig (h : s.get F.FA_JIG_LEFT 6 = 0) (off n : Nat) :
    storeRead s off n = (s, some (storeBytes s off n)) := by
  simp only [storeRead, storeChecks_of_no_jig h]
  rfl

/-! ### Which words a carcass holds (Table 6.2) -/

/-- Two readings of the registers that agree on XC_TX_SEL and XC_RX_SEL hold the same map buffers. -/
theorem inCarcass_congr {sel sel' : Nat → Nat} (h : ∀ a ∉ begunRegs, sel a = sel' a) : inCarcass sel = inCarcass sel' := by
  have hmap : mapHeld sel = mapHeld sel' := by
    funext a
    have htx (p : Nat) : sel (F.XC_TX_SEL_ACTIVE.addr p) = sel' (F.XC_TX_SEL_ACTIVE.addr p) :=
      h _ (not_mem_begunRegs (by simp only [F.XC_TX_SEL_ACTIVE, Field.addr]; omega))
    have hrx (p : Nat) : sel (F.XC_RX_SEL_ARM_A.addr p) = sel' (F.XC_RX_SEL_ARM_A.addr p) :=
      h _ (not_mem_begunRegs (by simp only [F.XC_RX_SEL_ARM_A, Field.addr]; omega))
    simp only [mapHeld, htx, hrx]
  funext a
  simp only [inCarcass, hmap]

/-- The bridge's own registers are no carcass content: nothing of them is RW. -/
theorem inCarcass_begunRegs (sel : Nat → Nat) {a : Nat} (h : a ∈ begunRegs) : inCarcass sel a = false := by
  have hro : ∀ a ∈ begunRegs, (specAt a).any (fun r => r.rw == 0) = true := by decide +kernel
  obtain ⟨r, hspec, hrw⟩ := specAt_of_any (hro a h)
  simp [inCarcass, hspec, beq_iff_eq.mp hrw]

/-! ### An image judged (R218) -/

/-- The word of a register as the words of an image leave it, or as it stands. -/
def imageSel (s : State) (words : List (Nat × Nat)) (a : Nat) : Nat :=
  match words.reverse.find? (fun w => w.1 == a) with
  | some w => w.2
  | none => (s.reg a).toNat

/-- The records of an image judged one by one. -/
def judgedRecs (s : State) (sel : Nat → Nat) (got : List (Nat × ImageRec) × Option Nat) (len lockMask : Nat) : State × Judged :=
  match got.1.find? (fun r => recBad sel r.2 != St.ok), got.2 with
  | some r, _ => (s, .bad (recBad sel r.2) r.1)
  | none, some off => (s, .bad St.badParam off)
  | none, none => (s, .good (got.1.flatMap fun r => recWords r.2) len lockMask)

/-- An image whose header is good is judged by its CRC and then by its records. -/
def judgedBody (s : State) (img : List Byte) : State × Judged :=
  let len := leAt img 12 4
  let got := parseRecs imageRoom (img.drop 32) 32 (len - 4)
  if crc32 (img.take (len - 4)) ^^^ s.jigMask 13 ≠ leAt img (len - 4) 4 then (jigUse s 13, .bad St.badParam (len - 4))
  else judgedRecs (jigUse s 13) (imageSel (jigUse s 13) (got.1.flatMap fun r => recWords r.2)) got len (leAt img 28 4)

theorem validate_of_header {img : List Byte} {avail : Nat} (h : headerBad img avail = none) :
    validate s img avail = judgedBody s img := by
  rw [validate, h]
  rfl

theorem validate_of_header_bad {img : List Byte} {avail off : Nat} (h : headerBad img avail = some off) :
    validate s img avail = (s, .bad St.badParam off) := by
  rw [validate, h]

theorem recBad_congr {sel sel' : Nat → Nat} (h : ∀ a ∉ begunRegs, sel a = sel' a) : recBad sel = recBad sel' := by
  funext r
  simp only [recBad, inCarcass_congr h]

theorem imageSel_begun (s : State) (op : Nat) (k : Pkt) (words : List (Nat × Nat)) :
    ∀ a ∉ begunRegs, imageSel (begun s op k) words a = imageSel s words a := by
  intro a ha
  rw [imageSel, imageSel, begun_reg s op k ha]

theorem judgedRecs_congr {sel sel' : Nat → Nat} (h : ∀ a ∉ begunRegs, sel a = sel' a)
    (got : List (Nat × ImageRec) × Option Nat) (len lockMask : Nat) :
    judgedRecs u sel got len lockMask = (u, (judgedRecs s sel' got len lockMask).2) := by
  rw [judgedRecs, judgedRecs, recBad_congr h]
  cases got.1.find? (fun r => recBad sel' r.2 != St.ok) with
  | some r => rfl
  | none => cases got.2 <;> rfl

/-- With no Jig armed, an image is judged alike when the action of the command begins. -/
theorem validate_begun (h : s.get F.FA_JIG_LEFT 13 = 0) (op : Nat) (k : Pkt) (img : List Byte) (avail : Nat) :
    validate (begun s op k) img avail = (begun s op k, (validate s img avail).2) := by
  have hmask {t : State} (ht : t.get F.FA_JIG_LEFT 13 = 0) : t.jigMask 13 = 0 := if_pos ht
  have huse {t : State} (ht : t.get F.FA_JIG_LEFT 13 = 0) : jigUse t 13 = t := if_pos ht
  have hbegun : (begun s op k).get F.FA_JIG_LEFT 13 = 0 := (begun_get s op k _ (by decide)).trans h
  cases hheader : headerBad img avail with
  | some off => rw [validate_of_header_bad hheader, validate_of_header_bad hheader]
  | none =>
    simp only [validate_of_header hheader, judgedBody, hmask h, huse h, hmask hbegun, huse hbegun]
    split
    · rfl
    · exact judgedRecs_congr (imageSel_begun s op k _) _ _ _

end Sys2Proof.Machine
end

section
/-!
PROOFS. The carcass opcodes that end at once (R216, R217, R220, R231).
-/
namespace Sys2Proof.Machine

variable {s t u : State} {k : Pkt} {f : Nat}

/-! ### Bytes put into a buffer and read back (R217) -/

theorem get_openPut (m : List (Nat × Nat)) (off : Nat) (bs : List Byte) (a : Nat) :
    SMap.get zeroDflt (openPut m off bs) a =
      if off ≤ a ∧ a < off + bs.length then (bs.getD (a - off) 0).toNat + 1 else SMap.get zeroDflt m a := by
  induction bs generalizing m off with
  | nil => simp [openPut]
  | cons b bs ih =>
    rw [openPut, ih, List.length_cons]
    by_cases hfirst : a = off
    · subst hfirst
      simp
    · rw [SMap.get_set_other _ _ _ hfirst]
      by_cases hin : off + 1 ≤ a ∧ a < off + 1 + bs.length
      · obtain ⟨d, hd⟩ : ∃ d, a - off = d + 1 := ⟨a - off - 1, by omega⟩
        rw [if_pos hin, if_pos (by omega), hd, List.getD_cons_succ, show a - (off + 1) = d by omega]
      · rw [if_neg hin, if_neg (by omega)]

theorem openGet_openPut (m : List (Nat × Nat)) (open_ : Nat → Byte) (off : Nat) (bs : List Byte) :
    openGet (openPut m off bs) open_ off bs.length = bs := by
  refine List.ext_getElem (by simp [openGet]) fun i h _ => ?_
  have hi : i < bs.length := by simpa [openGet] using h
  simp [openGet, get_openPut, hi]

/-! ### The staging buffer filled (R217) -/

/-- The staging buffer replaced, and the length that it shows. -/
def staged (s : State) (buffer : List (Nat × Nat)) (len : Nat) : State :=
  ({ s with cf.staging := buffer } : State).put F.CF_STAGE_LEN_LEN len

theorem staged_eq (s : State) (buffer : List (Nat × Nat)) (len : Nat) :
    staged s buffer len = { s with regs := (staged s buffer len).regs, cf.staging := buffer } := rfl

theorem staged_mp (s : State) (buffer : List (Nat × Nat)) (len : Nat) : (staged s buffer len).mp = s.mp := rfl

theorem staged_chip (s : State) (buffer : List (Nat × Nat)) (len : Nat) : (staged s buffer len).chip = s.chip := rfl

theorem staged_kept (s : State) (buffer : List (Nat × Nat)) (len : Nat) :
    RegsKept [F.CF_STAGE_LEN_LEN.at] s (staged s buffer len) :=
  (RegsKept.of_regs rfl).trans (regsKept_put (List.mem_singleton.mpr rfl))

theorem staged_len (s : State) (buffer : List (Nat × Nat)) {len : Nat} (hlen : len < 2 ^ 16) :
    (staged s buffer len).get F.CF_STAGE_LEN_LEN = len := get_put_same _ F.CF_STAGE_LEN_LEN 0 (by decide) hlen

/-- A command whose action fills the staging buffer. -/
theorem staged_served {c : Instr} {row : OpRow} {op len : Nat} {data : List Byte} {buffer : List (Nat × Nat)}
    (h : TakesFw s k f) (hc : exec c s = act s (chainCommand s op k (some f))) (hop : op ∉ [2, 3, 4]) (hr : opRow op = some row)
    (hf : row.fw = true) (hl : row.len k.params = true) (hlen : len < 2 ^ 16)
    (hb : runBody .chain (ownJob s op k) (begun s op k) = .done (staged (begun s op k) buffer len) St.ok data) :
    Gives c s fun t => FwServed f [F.CF_STAGE_LEN_LEN.at] s t k St.ok data ∧ t.get F.CF_STAGE_LEN_LEN = len ∧
      t = { s with regs := t.regs, mp := t.mp, ch := t.ch, cf.staging := buffer } := by
  obtain ⟨t, hexec, hserved, hbridge, hkept⟩ := served_fw_acts h hc hop hr hf hl hb (staged_mp _ _ _)
    ((staged_chip _ _ _).trans (begun_chip s op k)) (staged_kept _ _ _) (by decide)
  refine ⟨t, hexec, hserved, ?_, ?_⟩
  · rw [hkept.get _ _ _ (by decide), staged_len _ _ hlen]
  · rw [hbridge.busOnly, staged_eq, begun_eq]

/-! ### CARCASS_CAPTURE (R216, R727) -/

/-- The words of a capture are RW, and none of them are those in which the bridge shows that the command has begun. -/
theorem captureWords_begun (s : State) (op : Nat) (k : Pkt) : captureWords (begun s op k) = captureWords s := by
  have hsel : ∀ a ∉ begunRegs, ((begun s op k).reg a).toNat = (s.reg a).toNat := fun a ha =>
    congrArg BitVec.toNat (begun_reg s op k ha)
  simp only [captureWords, inCarcass_congr hsel]
  refine List.map_congr_left fun x hx => ?_
  rw [List.mem_mergeSort, List.mem_filter] at hx
  have hapart : x.1 ∉ begunRegs := fun hmem => by simp [inCarcass_begunRegs _ hmem] at hx
  rw [hsel _ hapart]

theorem captureImage_begun (s : State) (op : Nat) (k : Pkt) (m : Nat) : captureImage (begun s op k) m = captureImage s m := by
  have hotp : (begun s op k).otp = s.otp := by rw [begun_eq]
  rw [captureImage, captureImage, captureWords_begun, hotp]

theorem bodyCarcassCapture_begun {m : Nat} (hm : m < 2 ^ 21) (hp : k.params = toLE 4 m) (s : State) :
    runBody .chain (ownJob s 0x20 k) (begun s 0x20 k) =
      if imageRoom < (captureImage s m).length then refuse (begun s 0x20 k) St.range
      else .done (staged (begun s 0x20 k) (openPut [] 0 (captureImage s m)) (captureImage s m).length) St.ok
        (toLE 4 (captureImage s m).length ++ (captureImage s m).drop ((captureImage s m).length - 4)) := by
  have hmask : leAt k.params 0 4 = m := by rw [hp, leAt_toLE (by omega)]
  change bodyCarcassCapture k.params (begun s 0x20 k) = _
  simp only [bodyCarcassCapture, hmask, captureImage_begun, if_neg (Nat.not_le.mpr hm)]
  rfl

section
variable {m : Nat} (h : TakesFw s k f) (hm : m < 2 ^ 21) (hp : k.params = toLE 4 m)
include h hm hp

theorem carcassCapture_stages (hroom : (captureImage s m).length ≤ imageRoom) : Gives (.carcassCapture k (some f)) s fun t =>
    FwServed f [F.CF_STAGE_LEN_LEN.at] s t k St.ok
      (toLE 4 (captureImage s m).length ++ (captureImage s m).drop ((captureImage s m).length - 4)) ∧
    t.get F.CF_STAGE_LEN_LEN = (captureImage s m).length ∧
    t = { s with regs := t.regs, mp := t.mp, ch := t.ch, cf.staging := openPut [] 0 (captureImage s m) } :=
  staged_served h rfl (by decide) rfl rfl (by rw [hp]; rfl) (hroom.trans_lt (by decide))
    ((bodyCarcassCapture_begun hm hp s).trans (if_neg (Nat.not_lt.mpr hroom)))

theorem carcassCapture_range (hroom : imageRoom < (captureImage s m).length) : Gives (.carcassCapture k (some f)) s fun t =>
    FwServed f [] s t k St.range [] ∧ BusOnly s t :=
  served_fw_same h rfl (by decide) rfl rfl (by rw [hp]; rfl) ((bodyCarcassCapture_begun hm hp s).trans (if_pos hroom))

theorem carcassCapture_serves : Gives (.carcassCapture k (some f)) s fun t =>
    ((captureImage s m).length ≤ imageRoom →
      FwServed f [F.CF_STAGE_LEN_LEN.at] s t k St.ok
        (toLE 4 (captureImage s m).length ++ (captureImage s m).drop ((captureImage s m).length - 4)) ∧
      t.get F.CF_STAGE_LEN_LEN = (captureImage s m).length ∧
      t = { s with regs := t.regs, mp := t.mp, ch := t.ch, cf.staging := openPut [] 0 (captureImage s m) }) ∧
    (imageRoom < (captureImage s m).length → FwServed f [] s t k St.range [] ∧ BusOnly s t) := by
  rcases Nat.lt_or_ge imageRoom (captureImage s m).length with hover | hroom
  · obtain ⟨t, hexec, hranged⟩ := carcassCapture_range h hm hp hover
    exact ⟨t, hexec, fun hroom => absurd hroom (Nat.not_le.mpr hover), fun _ => hranged⟩
  · obtain ⟨t, hexec, hstaged⟩ := carcassCapture_stages h hm hp hroom
    exact ⟨t, hexec, fun _ => hstaged, fun hover => absurd hroom (Nat.not_le.mpr hover)⟩

end

/-! ### CARCASS_PUT (R217, R231) -/

theorem bodyCarcassPut_begun {off : Nat} {data : List Byte} (hp : k.params = toLE 4 off ++ data)
    (hroom : off + data.length ≤ imageRoom) (s : State) : runBody .chain (ownJob s 0x21 k) (begun s 0x21 k) =
      .done (staged (begun s 0x21 k) (openPut s.cf.staging off data)
        (max (s.get F.CF_STAGE_LEN_LEN) (off + data.length))) St.ok [] := by
  have hoff : leAt k.params 0 4 = off := by
    rw [hp, leAt_toLE_append]
    simp only [imageRoom] at hroom
    omega
  have hdata : k.params.drop 4 = data := by rw [hp, List.drop_left' (length_toLE 4 off)]
  have hlen := begun_get s 0x21 k F.CF_STAGE_LEN_LEN (i := 0) (j := 0) (by decide)
  have hcf : (begun s 0x21 k).cf = s.cf := by rw [begun_eq]
  have hbody (u : State) : bodyCarcassPut k.params u = .done (staged u (openPut u.cf.staging off data)
      (max (u.get F.CF_STAGE_LEN_LEN) (off + data.length))) St.ok [] := by
    simp only [bodyCarcassPut, hoff, hdata, if_neg (Nat.not_lt.mpr hroom)]
    rfl
  rw [← hlen, ← hcf]
  exact hbody _

theorem carcassPut_stages {off : Nat} {data : List Byte} (h : TakesFw s k f) (hp : k.params = toLE 4 off ++ data)
    (hfour : 4 ≤ data.length) (hwords : data.length % 4 = 0) (hmost : data.length ≤ 4088)
    (hroom : off + data.length ≤ imageRoom) : Gives (.carcassPut k (some f)) s fun t =>
      FwServed f [F.CF_STAGE_LEN_LEN.at] s t k St.ok [] ∧
      t.get F.CF_STAGE_LEN_LEN = max (s.get F.CF_STAGE_LEN_LEN) (off + data.length) ∧
      t = { s with regs := t.regs, mp := t.mp, ch := t.ch, cf.staging := openPut s.cf.staging off data } ∧
      stagingBytes t off data.length = data := by
  have hlength : k.params.length = data.length + 4 := by rw [hp, List.length_append, length_toLE, Nat.add_comm]
  have hform : lenForm 4 4 1 1022 k.params = true := by
    refine lenForm_of_length hlength ?_
    simp only [Bool.and_eq_true, Nat.ble_eq, beq_iff_eq]
    omega
  have hshown : max (s.get F.CF_STAGE_LEN_LEN) (off + data.length) < 2 ^ 16 :=
    max_lt (State.get_lt s F.CF_STAGE_LEN_LEN 0 0) (hroom.trans_lt (by decide))
  obtain ⟨t, hexec, hserved, hlen, heq⟩ := staged_served (c := .carcassPut k (some f)) h rfl (by decide) rfl rfl hform hshown
    (bodyCarcassPut_begun hp hroom s)
  refine ⟨t, hexec, hserved, hlen, heq, ?_⟩
  have hbuffer : t.cf.staging = openPut s.cf.staging off data := congrArg (fun u : State => u.cf.staging) heq
  rw [stagingBytes, hbuffer, openGet_openPut]

/-! ### CARCASS_GET (R231) -/

theorem carcassGet_params {src : Byte} {off n : Nat} (hp : k.params = src :: (toLE 4 off ++ toLE 2 n)) (hoff : off < 2 ^ 32)
    (hn : n < 2 ^ 16) : byteAt k.params 0 = src.toNat ∧ leAt k.params 1 4 = off ∧ leAt k.params 5 2 = n := by
  rw [hp]
  exact ⟨rfl, leAt_append_toLE_append (w := 4) hoff [src] (toLE 2 n), leAt_append_toLE (k := 2) hn (src :: toLE 4 off)⟩

section
variable {off n : Nat} (hroom : off + n ≤ imageRoom) (hfour : 4 ≤ n) (hmost : n ≤ 4088) (hwords : n % 4 = 0)
include hroom hfour hmost hwords

/-- Bytes of the staging buffer, or of a valid copy. -/
theorem bodyCarcassGet_eq {src : Byte} (hsrc : src.toNat = 0 ∨ src.toNat = 2 ∨ src.toNat = 3)
    (hp : k.params = src :: (toLE 4 off ++ toLE 2 n)) (s : State) : bodyCarcassGet k.params s =
      if src.toNat = 0 then .done s St.ok (stagingBytes s off n)
      else if (validCopy s (src.toNat == 3)).isNone then refuse s St.range
      else match storeRead s (pageBytes * copyPage (src.toNat == 3) + off) n with
        | (s, none) => refuse s St.range
        | (s, some bs) => .done s St.ok bs := by
  simp only [imageRoom] at hroom
  obtain ⟨hbyte, hat, hcount⟩ := carcassGet_params hp (by omega) (by omega)
  have hgood : ¬ (src.toNat = 1 ∨ 3 < src.toNat ∨ n < 4 ∨ 4088 < n ∨ n % 4 ≠ 0) := by omega
  have hin : ¬ imageRoom < off + n := by
    simp only [imageRoom]
    omega
  simp only [bodyCarcassGet, hbyte, hat, hcount, if_neg hgood, if_neg hin] <;> rfl

theorem carcassGet_staging (h : TakesFw s k f) (hp : k.params = 0 :: (toLE 4 off ++ toLE 2 n)) :
    Gives (.carcassGet k (some f)) s fun t => FwServed f [] s t k St.ok (stagingBytes s off n) ∧ BusOnly s t := by
  have hbody : bodyCarcassGet k.params (begun s 0x22 k) = .done (begun s 0x22 k) St.ok (stagingBytes (begun s 0x22 k) off n) :=
    bodyCarcassGet_eq hroom hfour hmost hwords (src := 0) (.inl rfl) hp _
  have hbytes : stagingBytes (begun s 0x22 k) off n = stagingBytes s off n := by rw [begun_eq, stagingBytes, stagingBytes]
  rw [hbytes] at hbody
  exact served_fw_same (op := 0x22) h rfl (by decide) rfl rfl (by rw [hp]; rfl) hbody

theorem carcassGet_copy {b : Bool} (h : TakesFw s k f) (hp : k.params = (if b then 3 else 2) :: (toLE 4 off ++ toLE 2 n))
    (hvalid : (validCopy s b).isSome = true) (hjig : s.get F.FA_JIG_LEFT 6 = 0) : Gives (.carcassGet k (some f)) s fun t =>
      FwServed f [] s t k St.ok (storeBytes s (pageBytes * copyPage b + off) n) ∧ BusOnly s t := by
  have hsrc : (if b then 3 else 2 : Byte).toNat = 0 ∨ (if b then 3 else 2 : Byte).toNat = 2 ∨
      (if b then 3 else 2 : Byte).toNat = 3 := by cases b <;> decide
  have hcopy : ¬ (if b then 3 else 2 : Byte).toNat = 0 ∧ ((if b then 3 else 2 : Byte).toNat == 3) = b := by cases b <;> decide
  have hbegun : validCopy (begun s 0x22 k) b = validCopy s b := by rw [begun_eq]; rfl
  have hvalid' : ¬ (validCopy (begun s 0x22 k) b).isNone = true := by
    rw [hbegun, ← Option.not_isSome, hvalid]
    decide
  have hbytes : storeBytes (begun s 0x22 k) (pageBytes * copyPage b + off) n = storeBytes s (pageBytes * copyPage b + off) n := by
    rw [begun_eq]
    rfl
  have hbody := bodyCarcassGet_eq hroom hfour hmost hwords hsrc hp (begun s 0x22 k)
  rw [hcopy.2, if_neg hcopy.1, if_neg hvalid', storeRead_of_no_jig ((begun_get s 0x22 k _ (by decide)).trans hjig), hbytes] at hbody
  exact served_fw_same (op := 0x22) h rfl (by decide) rfl rfl (by rw [hp]; rfl) hbody

end


theorem ServedAt.mono {fs gs : List (Nat × Nat × Nat)} {y st : Nat} {data : List Byte} (h : ServedAt y fs s t k st data)
    (hsub : ∀ g ∈ fs, g ∈ gs) : ServedAt y gs s t k st data := by
  obtain ⟨hout, hcount, hkept, herr⟩ := h
  refine ⟨hout, hcount, hkept.mono fun g hg => ?_, herr⟩
  rcases List.mem_append.mp hg with hbridge | hown
  · exact List.mem_append_left _ hbridge
  · exact List.mem_append_right _ (hsub g hown)

/-! ### CARCASS_LOAD of an image of one plain register (R220) -/

/-- A word stored changes no register but its own, and CH_ADDR, which is RO, not at all. -/
theorem storeWord_spares_chAddr (s : State) (a v : Nat) :
    ∃ fs, (∀ g ∈ fs, g = (a, 0, 32) ∧ a ≠ 0x40010000) ∧ Only fs s (storeWord s a v) := by
  by_cases haddr : a = 0x40010000
  · subst haddr
    have hro : (specAt 0x40010000).any (fun r => r.rw == 0 && r.w1c == 0) = true := by decide +kernel
    obtain ⟨r, hspec, hr⟩ := specAt_of_any hro
    obtain ⟨hrw, hw1c⟩ : r.rw = 0 ∧ r.w1c = 0 := by simpa using hr
    exact ⟨[], by simp, storeWord_kept_only s hspec hrw (by rw [hw1c, Nat.zero_and])⟩
  · exact ⟨[(a, 0, 32)], fun g hg => ⟨List.mem_singleton.mp hg, haddr⟩, storeWord_only s a v⟩

/-- What an image of one plain register leaves: its word, and its locks. -/
def imageLoaded (s : State) (a v m : Nat) : State := { storeWord s a v with locks := s.locks ||| m }

theorem imageLoaded_of_only {fs : List (Nat × Nat × Nat)} {a v : Nat} (m : Nat) (h : Only fs s (storeWord s a v)) :
    imageLoaded s a v m = { s with regs := (imageLoaded s a v m).regs, locks := s.locks ||| m } ∧
      RegsKept fs s (imageLoaded s a v m) := by
  have hkept := h.2
  rw [imageLoaded]
  exact ⟨by rw [h.1], hkept.trans (RegsKept.of_regs rfl)⟩

theorem imageLoaded_mp (s : State) (a v m : Nat) : (imageLoaded s a v m).mp = s.mp := by
  rw [(imageLoaded_of_only m (storeWord_only s a v)).1]

theorem imageLoaded_chip (s : State) (a v m : Nat) : (imageLoaded s a v m).chip = s.chip := by
  rw [(imageLoaded_of_only m (storeWord_only s a v)).1]

theorem imageLoaded_reg {a : Nat} {r : RegSpec} (hspec : specAt a = some r) (s : State) (v m : Nat) :
    (imageLoaded s a v m).reg a = BitVec.ofNat 32 (mergeWrite r (s.reg a).toNat v) := by
  change (storeWord s a v).reg a = _
  rw [storeWord_eq s v hspec, State.reg_setReg]

section
variable {a v len m : Nat} {r : RegSpec} (hplain : PlainReg a) (hspec : specAt a = some r)
include hplain hspec

theorem applyImage_plain (hlock : (r.lock && s.locked (lockBlock a)) = false) (m : Nat) :
    applyImage s [(a, v)] m = (imageLoaded s a v m, St.ok) := by
  have hlocks : (storeWord s a v).locks = s.locks := by rw [(storeWord_only s a v).1]
  simp only [applyImage, applyWords_plain hplain hspec hlock, if_true, imageLoaded, hlocks]

theorem bodyCarcassLoad_staged (hp : k.params = [0]) (hlock : (r.lock && s.locked (lockBlock a)) = false)
    (hgood : validate s (stagedImage s) (s.get F.CF_STAGE_LEN_LEN) = (s, .good [(a, v)] len m)) :
    bodyCarcassLoad k.params s = .done (imageLoaded s a v m) St.ok [] := by
  have hbyte : byteAt k.params 0 = 0 := by rw [hp]; rfl
  simp only [bodyCarcassLoad, hbyte, hgood, applyImage_plain hplain hspec hlock]
  rfl

theorem carcassLoad_loads (h : TakesFw s k f) (hp : k.params = [0]) (hlock : (r.lock && s.locked (lockBlock a)) = false)
    (hjig : s.get F.FA_JIG_LEFT 13 = 0) (hapart : a ∉ [0x40000008, 0x4000000C, 0x40000010])
    (hgood : (validate s (stagedImage s) (s.get F.CF_STAGE_LEN_LEN)).2 = .good [(a, v)] len m) :
    Gives (.carcassLoad k (some f)) s fun t =>
      FwServed f [(a, 0, 32)] s t k St.ok [] ∧ t.reg a = BitVec.ofNat 32 (mergeWrite r (s.reg a).toNat v) ∧
      t.locks = s.locks ||| m ∧ t = { s with regs := t.regs, mp := t.mp, ch := t.ch, locks := t.locks } := by
  simp only [List.mem_cons, List.not_mem_nil, or_false, not_or] at hapart
  obtain ⟨hstatus, herr, hcount⟩ := hapart
  have hlen : (begun s 0x24 k).get F.CF_STAGE_LEN_LEN = s.get F.CF_STAGE_LEN_LEN := begun_get s 0x24 k _ (by decide)
  have hlock' : (r.lock && (begun s 0x24 k).locked (lockBlock a)) = false := by rw [begun_locked, hlock]
  have hbegun : (begun s 0x24 k).reg a = s.reg a := begun_reg s 0x24 k (by simp [begunRegs, hstatus, hcount])
  have hbody : bodyCarcassLoad k.params (begun s 0x24 k) = .done (imageLoaded (begun s 0x24 k) a v m) St.ok [] :=
    bodyCarcassLoad_staged hplain hspec hp hlock' (by rw [stagedImage_begun, hlen, validate_begun hjig, hgood])
  obtain ⟨fs, hfs, honly⟩ := storeWord_spares_chAddr (begun s 0x24 k) a v
  obtain ⟨heq, hkept⟩ := imageLoaded_of_only m honly
  obtain ⟨t, hexec, hserved, hbridge, hanswer⟩ := served_fw_acts (c := .carcassLoad k (some f)) (op := 0x24) h rfl (by decide)
    rfl rfl (by rw [hp]; rfl) hbody (imageLoaded_mp _ _ _ _)
    ((imageLoaded_chip _ _ _ _).trans (begun_chip s 0x24 k)) hkept (fun g hg => by
      obtain ⟨rfl, haddr⟩ := hfs g hg
      simp [hcount, herr, haddr])
  have hbus : t = { imageLoaded (begun s 0x24 k) a v m with regs := t.regs, mp := t.mp, ch := t.ch } := hbridge.busOnly
  refine ⟨t, hexec, ?_, ?_, ?_, ?_⟩
  · exact hserved.mono fun g hg => List.mem_singleton.mpr (hfs g hg).1
  · have hanswered : ∀ g ∈ answerFields, g.1 = 0x40000008 ∨ g.1 = 0x4000000C := by decide
    rw [hanswer.reg fun g hg e => (hanswered g hg).elim (fun h => hstatus (e.symm.trans h)) fun h => herr (e.symm.trans h),
      imageLoaded_reg hspec, hbegun]
  · rw [hbus, heq]
    exact congrArg (· ||| m) (begun_locks s 0x24 k)
  · rw [hbus, heq, begun_eq]

end

/-- Settles O14: each opcode's action is computed on the state in which it begins, and is answered at once. -/
theorem carcassCommands : Obligations.CarcassCommands := by
  unfold Obligations.CarcassCommands
  exact fun s k f h =>
    ⟨fun m hm hp => carcassCapture_serves h hm hp,
      fun off data hp hfour hwords hmost hroom => carcassPut_stages h hp hfour hwords hmost hroom,
      fun off n hroom hfour hmost hwords => ⟨fun hp => carcassGet_staging hroom hfour hmost hwords h hp,
        fun b hp hvalid hjig => carcassGet_copy hroom hfour hmost hwords h hp hvalid hjig⟩,
      fun a v len m r hp hplain hspec hlock hjig hapart hgood => carcassLoad_loads hplain hspec h hp hlock hjig hapart hgood⟩

end Sys2Proof.Machine
end

section
/-!
PROOFS. The opcodes that write the store, and the page writes that carry them on (R213, R214, R219, R231, R232).
-/
namespace Sys2Proof.Machine

variable {s t u : State} {k : Pkt} {f : Nat}

/-! ### A page write begins (R214, R215) -/

/-- What belongs to a page is touched in the directories and the list of broken owners only. -/
theorem exists_breakOwner_eq (s : State) (l : Nat) : ∃ dir0 dir1 broken,
    breakOwner s l = { s with store.dir0 := dir0, store.dir1 := dir1, store.broken := broken } := by
  unfold breakOwner
  dsimp only
  generalize (if l < 90 then 0 else if l < 176 then 1 else 2 + (l - 176) / 4) = owner
  split
  · exact ⟨_, _, _, rfl⟩
  · split
    · exact ⟨_, _, _, rfl⟩
    · split <;> exact ⟨_, _, _, rfl⟩

/-- The erase of a page changes its wear, its bytes, and what the page belongs to. -/
theorem exists_eraseBegins_eq (s : State) (l : Nat) : ∃ dir0 dir1 broken bytes, eraseBegins s l = { s with
    store.dir0 := dir0, store.dir1 := dir1, store.broken := broken, store.bytes := bytes,
    store.wear := SMap.set zeroDflt s.store.wear (physPage s l) (pageWear s (physPage s l) + 1) } := by
  obtain ⟨dir0, dir1, broken, heq⟩ := exists_breakOwner_eq s l
  exact ⟨dir0, dir1, broken, _, by rw [eraseBegins, heq]; rfl⟩

theorem eraseBegins_store (s : State) (l : Nat) : eraseBegins s l = { s with store := (eraseBegins s l).store } := by
  obtain ⟨_, _, _, _, heq⟩ := exists_eraseBegins_eq s l
  rw [heq]

theorem eraseBegins_jobs (s : State) (l : Nat) : (eraseBegins s l).store.jobs = s.store.jobs := by
  obtain ⟨_, _, _, _, heq⟩ := exists_eraseBegins_eq s l
  rw [heq]

theorem eraseBegins_retired (s : State) (l : Nat) : (eraseBegins s l).store.retired = s.store.retired ∧
    (eraseBegins s l).store.sparesUsed = s.store.sparesUsed := by
  obtain ⟨_, _, _, _, heq⟩ := exists_eraseBegins_eq s l
  rw [heq]
  exact ⟨rfl, rfl⟩

theorem physPage_eraseBegins (s : State) (l l' : Nat) : physPage (eraseBegins s l) l' = physPage s l' := by
  obtain ⟨_, _, _, _, heq⟩ := exists_eraseBegins_eq s l
  rw [heq]
  rfl

theorem pageWear_eraseBegins (s : State) (l : Nat) :
    pageWear (eraseBegins s l) (physPage s l) = pageWear s (physPage s l) + 1 := by
  obtain ⟨_, _, _, _, heq⟩ := exists_eraseBegins_eq s l
  rw [heq, pageWear]
  exact SMap.get_set_same zeroDflt s.store.wear (physPage s l) (pageWear s (physPage s l) + 1)

theorem beginPage_of_sound {l : Nat} (hwear : pageWear s (physPage s l) < 10000000) (hbad : s.store.bad = []) :
    beginPage s l = (eraseBegins s l, true) := by
  have hsound : ¬ (10000000 ≤ pageWear s (physPage s l) ∨ s.store.bad.contains l = true) := by
    rw [hbad]
    simp [hwear]
  simp only [beginPage, if_neg hsound, if_true]

/-! ### A store command begins -/

/-- Every store command ends with the directory, so it has a page to write. -/
theorem jobPages_ne_nil (s : State) (w : StoreWhat) : jobPages s w ≠ [] := by
  have hdir : dirPages s ≠ [] := by
    unfold dirPages
    split <;> simp
  simp [jobPages, hdir]

theorem beginJobs_of_sound {j : StoreJob} {js : List StoreJob} (n : Nat) (hjobs : s.store.jobs = j :: js)
    (hwear : ∀ l, pageWear s (physPage s l) < 10000000) (hbad : s.store.bad = []) :
    ∃ l, beginJobs (n + 1) s = eraseBegins { s with
      store.jobs := { j with copyB := (saveTarget s).1, pages := jobPages s j.what } :: js } l := by
  obtain ⟨⟨l, bs⟩, rest, hpages⟩ := List.exists_cons_of_ne_nil (jobPages_ne_nil s j.what)
  refine ⟨l, ?_⟩
  have hpage := beginPage_of_sound (s := { s with store.jobs := { j with copyB := (saveTarget s).1, pages := jobPages s j.what } :: js })
    (l := l) (hwear l) hbad
  rw [beginJobs, hjobs]
  simp only [hpages] at hpage ⊢
  rw [hpage]
  rfl

/-- A command taken up by an idle store begins its first page at once. -/
theorem storeStart_idle (hjobs : s.store.jobs = []) (hwear : ∀ l, pageWear s (physPage s l) < 10000000)
    (hbad : s.store.bad = []) (w : StoreWhat) : (storeStart s .chain w).store.jobs = [begunJob s w] ∧
      storeStart s .chain w = { s with store := (storeStart s .chain w).store } := by
  obtain ⟨l, hbegins⟩ := beginJobs_of_sound (s := { s with store.jobs := [{ kind := .chain, what := w }] }) 3 rfl hwear hbad
  have hstart : storeStart s .chain w = eraseBegins { s with store.jobs := [begunJob s w] } l := by
    simp only [storeStart, hjobs, List.isEmpty_nil, if_true, List.nil_append]
    exact hbegins
  rw [hstart]
  exact ⟨eraseBegins_jobs _ _, by rw [eraseBegins_store]⟩

theorem begunJob_begun (s : State) (op : Nat) (k : Pkt) (w : StoreWhat) : begunJob (begun s op k) w = begunJob s w := by
  rw [begun_eq]
  rfl

/-- A command whose action gives the store a command to write begins it, and waits for it (R143, R219). -/
theorem store_begins {c : Instr} {row : OpRow} {op : Nat} {w : StoreWhat} (h : TakesFw s k f) (hjobs : s.store.jobs = [])
    (hwear : ∀ l, pageWear s (physPage s l) < 10000000) (hbad : s.store.bad = [])
    (hc : exec c s = act s (chainCommand s op k (some f))) (hop : op ∉ [2, 3, 4]) (hr : opRow op = some row) (hf : row.fw = true)
    (hl : row.len k.params = true)
    (hb : runBody .chain (ownJob s op k) (begun s op k) = .wait (storeStart (begun s op k) .chain w)) : Gives c s fun t =>
      FwWaits s t k ∧ t.store.jobs = [begunJob s w] ∧ t = { s with regs := t.regs, mp := t.mp, ch := t.ch, store := t.store } ∧
      RegsKept bridgeFields s t := by
  simp only [List.mem_cons, List.not_mem_nil, or_false, not_or] at hop
  obtain ⟨h2, h3, h4⟩ := hop
  obtain ⟨⟨⟨-, hdue⟩, -⟩, -⟩ := id h
  have hstore : (begun s op k).store = s.store := by rw [begun_eq]
  have hwear' : ∀ l, pageWear (begun s op k) (physPage (begun s op k) l) < 10000000 := by
    simpa only [pageWear, physPage, hstore] using hwear
  obtain ⟨hstarted, heq⟩ := storeStart_idle (s := begun s op k) (by rw [hstore, hjobs]) hwear' (by rw [hstore, hbad]) w
  have hregs : RegsKept (fs := []) (begun s op k) (storeStart (begun s op k) .chain w) := RegsKept.of_regs (by rw [heq])
  obtain ⟨t, hexec, hwaits, ht, hshown⟩ := waits_fw h hc h2 h3 h4 hr hf hl hb (by rw [heq]) hregs (by simp)
    (by rw [heq]; exact (congrArg _ (begun_chip s op k)).trans hdue)
  obtain ⟨-, hbegun, -⟩ := begun_kept s op k
  refine ⟨t, hexec, hwaits, ?_, ?_, ?_⟩
  · rw [ht, hstarted, begunJob_begun]
  · rw [ht, heq, begun_eq]
  · exact (hbegun.mono (by decide)).trans ((hregs.mono (by simp)).trans (hshown.mono shown_sub_bridge))

/-! ### The opcodes (R219, R231) -/

section
variable (h : TakesFw s k f) (hfree : s.locked 2 = false) (hjobs : s.store.jobs = [])
  (hwear : ∀ l, pageWear s (physPage s l) < 10000000) (hbad : s.store.bad = [])
include h hfree hjobs hwear hbad

theorem carcassSave_begins {words : List (Nat × Nat)} {len m : Nat} (hp : k.params = []) (hlen : s.get F.CF_STAGE_LEN_LEN ≠ 0)
    (hjig : s.get F.FA_JIG_LEFT 13 = 0)
    (hgood : (validate s (stagedImage s) (s.get F.CF_STAGE_LEN_LEN)).2 = .good words len m) :
    Gives (.carcassSave k (some f)) s fun t =>
      FwWaits s t k ∧ t.store.jobs = [begunJob s (.image ((stagedImage s).take len))] ∧
      t = { s with regs := t.regs, mp := t.mp, ch := t.ch, store := t.store } ∧ RegsKept bridgeFields s t := by
  have hlocked : ¬ (begun s 0x23 k).locked 2 = true := by simp [begun_locked, hfree]
  have hshown : (begun s 0x23 k).get F.CF_STAGE_LEN_LEN = s.get F.CF_STAGE_LEN_LEN := begun_get s 0x23 k _ (by decide)
  have hbody : bodyCarcassSave .chain k.params (begun s 0x23 k) =
      .wait (storeStart (begun s 0x23 k) .chain (.image ((stagedImage s).take len))) := by
    simp only [bodyCarcassSave, if_neg hlocked, hshown, if_neg hlen, stagedImage_begun, validate_begun hjig, hgood]
  exact store_begins (op := 0x23) h hjobs hwear hbad rfl (by decide) rfl rfl (by rw [hp]; rfl) hbody

theorem carcassBoot_begins {m : Byte} (hm : m.toNat < 2) (hp : k.params = [m]) : Gives (.carcassBoot k (some f)) s fun t =>
    FwWaits s t k ∧ t.store.jobs = [begunJob s (.bootMode (m.toNat == 1))] ∧
    t = { s with regs := t.regs, mp := t.mp, ch := t.ch, store := t.store } ∧ RegsKept bridgeFields s t := by
  have hlocked : ¬ (begun s 0x25 k).locked 2 = true := by simp [begun_locked, hfree]
  have hbyte : byteAt k.params 0 = m.toNat := by rw [hp]; rfl
  have hbody : bodyCarcassBoot .chain k.params (begun s 0x25 k) =
      .wait (storeStart (begun s 0x25 k) .chain (.bootMode (m.toNat == 1))) := by
    simp only [bodyCarcassBoot, hbyte, if_neg hlocked, if_neg (Nat.not_lt.mpr (Nat.le_of_lt_succ hm))]
  exact store_begins (op := 0x25) h hjobs hwear hbad rfl (by decide) rfl rfl (by rw [hp]; rfl) hbody

theorem veneerSave_begins {j v : Byte} (hj : j.toNat < 4) (hv : v.toNat < 16) (hp : k.params = [j, v])
    (hstage : (s.stageX j.toNat).st ≠ .empty) : Gives (.veneerSave k (some f)) s fun t =>
      FwWaits s t k ∧ t.store.jobs = [begunJob s (.veneer v.toNat (s.stageX j.toNat).count (s.stageX j.toNat).bytes)] ∧
      t = { s with regs := t.regs, mp := t.mp, ch := t.ch, store := t.store } ∧ RegsKept bridgeFields s t := by
  have hlocked : ¬ (begun s 0x28 k).locked 2 = true := by simp [begun_locked, hfree]
  have hbytes : byteAt k.params 0 = j.toNat ∧ byteAt k.params 1 = v.toNat := by rw [hp]; exact ⟨rfl, rfl⟩
  obtain ⟨hfirst, hsecond⟩ := hbytes
  have hin : ¬ (3 < j.toNat ∨ 15 < v.toNat) := by omega
  have hbody : bodyVeneerSave .chain k.params (begun s 0x28 k) = .wait (storeStart (begun s 0x28 k) .chain
      (.veneer v.toNat (s.stageX j.toNat).count (s.stageX j.toNat).bytes)) := by
    simp only [bodyVeneerSave, hfirst, hsecond, if_neg hin, if_neg hlocked, stageX_begun, if_neg hstage]
  exact store_begins (op := 0x28) h hjobs hwear hbad rfl (by decide) rfl rfl (by rw [hp]; rfl) hbody

theorem veneerErase_begins {v : Byte} (hv : v.toNat < 16) (hp : k.params = [v]) : Gives (.veneerErase k (some f)) s fun t =>
    FwWaits s t k ∧ t.store.jobs = [begunJob s (.erase v.toNat)] ∧
    t = { s with regs := t.regs, mp := t.mp, ch := t.ch, store := t.store } ∧ RegsKept bridgeFields s t := by
  have hlocked : ¬ (begun s 0x29 k).locked 2 = true := by simp [begun_locked, hfree]
  have hbyte : byteAt k.params 0 = v.toNat := by rw [hp]; rfl
  have hbody : bodyVeneerErase .chain k.params (begun s 0x29 k) =
      .wait (storeStart (begun s 0x29 k) .chain (.erase v.toNat)) := by
    simp only [bodyVeneerErase, hbyte, if_neg hlocked, if_neg (Nat.not_lt.mpr (Nat.le_of_lt_succ hv))]
  exact store_begins (op := 0x29) h hjobs hwear hbad rfl (by decide) rfl rfl (by rw [hp]; rfl) hbody

end

/-- With block CF locked, CARCASS_BOOT is refused, which counts once (R187, R232). -/
theorem carcassBoot_locked {m : Byte} (h : TakesFw s k f) (hlocked : s.locked 2 = true) (hm : m.toNat < 2) (hp : k.params = [m]) :
    Gives (.carcassBoot k (some f)) s fun t =>
      FwServed f [F.MP_LOCK_VIOL_COUNT.at] s t k St.locked [] ∧
      t.get F.MP_LOCK_VIOL_COUNT = min (s.get F.MP_LOCK_VIOL_COUNT + 1) 65535 ∧ BusOnly s t := by
  have hlocked' : (begun s 0x25 k).locked 2 = true := by rw [begun_locked, hlocked]
  have hbyte : byteAt k.params 0 = m.toNat := by rw [hp]; rfl
  have hbody : bodyCarcassBoot .chain k.params (begun s 0x25 k) =
      .done ((begun s 0x25 k).bumpSat F.MP_LOCK_VIOL_COUNT) St.locked [] := by
    simp only [bodyCarcassBoot, hbyte, if_pos hlocked', if_neg (Nat.not_lt.mpr (Nat.le_of_lt_succ hm))]
    rfl
  have hcounted : Only [F.MP_LOCK_VIOL_COUNT.at] (begun s 0x25 k) ((begun s 0x25 k).bumpSat F.MP_LOCK_VIOL_COUNT) :=
    only_bumpSat (List.mem_singleton.mpr rfl)
  obtain ⟨t, hexec, hserved, hbridge, hanswer⟩ := served_fw_acts (op := 0x25) (c := .carcassBoot k (some f)) h rfl (by decide)
    rfl rfl (by rw [hp]; rfl) hbody hcounted.mp (hcounted.chip.trans (begun_chip s 0x25 k)) hcounted.2 (by decide)
  refine ⟨t, hexec, hserved, ?_, (begun_busOnly s 0x25 k).trans (hcounted.bridge.busOnly.trans hbridge.busOnly)⟩
  rw [hanswer.get _ _ _ (by decide), get_bumpSat_one _ 0 (by decide), begun_get s 0x25 k _ (by decide)]

/-! ### The page write in progress ends (R213, R214) -/

theorem exec_storePageWriteDone (s : State) (verified : Bool) :
    exec (.storePageWriteDone verified) s = act s (pageDone s verified) := rfl

/-- What a page that verified leaves: its bytes, and that it is not bad. -/
def pageVerified (s : State) (l : Nat) (bs : List Byte) : State :=
  { s with store.bytes := openPut s.store.bytes (pageBytes * l) bs, store.bad := s.store.bad.filter fun x => x != l }

section
variable {j : StoreJob} {l : Nat} {bs : List Byte} (hjobs : s.store.jobs = [j])
include hjobs

/-- The next page of the command begins. -/
theorem pageDone_next {l2 : Nat} {b2 : List Byte} {rest : List (Nat × List Byte)} (hcut : j.cut = false)
    (hpages : j.pages = (l, bs) :: (l2, b2) :: rest) (hwear : pageWear s (physPage s l2) < 10000000) (hbad : s.store.bad = []) :
    pageDone s true = eraseBegins { pageVerified s l bs with store.jobs := [{ j with pages := (l2, b2) :: rest }] } l2 := by
  have hpage := beginPage_of_sound
    (s := { pageVerified s l bs with store.jobs := [{ j with pages := (l2, b2) :: rest }] }) (l := l2) hwear
    (by simp [pageVerified, hbad])
  rw [pageDone, hjobs]
  simp only [hpages, hcut, pageVerified] at hpage ⊢
  rw [hpage]
  rfl

/-- The last page of a command brings its directory into effect, and the command ends. -/
theorem pageDone_last (hcut : j.cut = false) (hpages : j.pages = [(l, bs)]) :
    pageDone s true = endJob (writeDir (pageVerified s l bs) j).1 (some (St.ok, (writeDir (pageVerified s l bs) j).2)) := by
  rw [pageDone, hjobs]
  simp only [hpages, hcut]
  rfl

/-- A page that does not verify is written anew where it now lies. -/
theorem pageDone_failed {rest : List (Nat × List Byte)} (hpages : j.pages = (l, bs) :: rest) :
    pageDone s false =
      if (retirePage s l).2 then eraseBegins (retirePage s l).1 l else endJob (retirePage s l).1 (some (St.worn, [])) := by
  rw [pageDone, hjobs]
  simp only [hpages]
  rfl

end

/-- The only command ended: its result is posted, and the store is idle. -/
theorem endJob_only {j : StoreJob} (hjobs : s.store.jobs = [j]) (hcut : j.cut = false) (st : Nat) (data : List Byte) :
    endJob s (some (st, data)) = { s with store.jobs := [], mp.ready := s.mp.ready ++ [(j.kind, st, data)] } := by
  have hdrop : dropJob s (some (st, data)) = { s with store.jobs := [], mp.ready := s.mp.ready ++ [(j.kind, st, data)] } := by
    rw [dropJob, hjobs]
    simp only [hcut]
    rfl
  rw [endJob, hdrop]
  rfl

/-! ### The directory (R215, R219) -/

/-- The directory that CARCASS_BOOT writes. -/
def nextDir (s : State) (m : Bool) : DirX := { s.dir with gen := s.dir.gen + 1, bootMode := m }

/-- The directory written goes to the copy that was not in use. -/
theorem writeDir_bootMode {j : StoreJob} {m : Bool} (hwhat : j.what = .bootMode m) : writeDir s j =
    (if (dirUsed s).1 then { s with store.dir0 := some (nextDir s m) }
      else { s with store.dir1 := some (nextDir s m) }, []) := by
  rw [writeDir, hwhat]
  cases (dirUsed s).1 <;> rfl

/-- With no bad page, a directory copy counts while it was written whole. -/
theorem dirUsed_of_sound (hbad : s.store.bad = []) : dirUsed s = match s.store.dir0, s.store.dir1 with
    | some a, some b => if b.gen ≤ a.gen then (false, a) else (true, b)
    | none, some b => (true, b)
    | some a, none => (false, a)
    | none, none => (false, {}) := by
  have hgood (hi : Bool) : dirGood s hi = if hi then s.store.dir1 else s.store.dir0 := by
    cases hi <;> simp [dirGood, hbad]
  rw [dirUsed, hgood, hgood]
  rfl

/-- The copy that is in use holds the directory. -/
theorem dir_of_used (hbad : s.store.bad = []) :
    if (dirUsed s).1 then s.store.dir1 = some s.dir else ∀ a, s.store.dir0 = some a → a = s.dir := by
  rw [State.dir, dirUsed_of_sound hbad]
  cases s.store.dir0 with
  | none => cases s.store.dir1 <;> simp
  | some a =>
    cases s.store.dir1 with
    | none => simp
    | some b => by_cases hnewer : b.gen ≤ a.gen <;> simp [hnewer]

theorem dir_of_newer_dir1 {next : DirX} (hbad : s.store.bad = []) (hnext : s.store.dir1 = some next)
    (holder : ∀ a, s.store.dir0 = some a → a.gen < next.gen) : s.dir = next := by
  rw [State.dir, dirUsed_of_sound hbad, hnext]
  cases hdir0 : s.store.dir0 with
  | none => rfl
  | some a => simp [(holder a hdir0).not_ge]

theorem dir_of_newer_dir0 {next : DirX} (hbad : s.store.bad = []) (hnext : s.store.dir0 = some next)
    (holder : ∀ b, s.store.dir1 = some b → b.gen < next.gen) : s.dir = next := by
  rw [State.dir, dirUsed_of_sound hbad, hnext]
  cases hdir1 : s.store.dir1 with
  | none => rfl
  | some b => simp [(holder b hdir1).le]

/-- The directory written is newer than the one that was in use, and so the one in use. -/
theorem dir_writeDir_bootMode {j : StoreJob} {m : Bool} (hwhat : j.what = .bootMode m) (hbad : s.store.bad = []) :
    (writeDir s j).1.dir.bootMode = m := by
  have hused := dir_of_used hbad
  have hnewer : s.dir.gen < (nextDir s m).gen := Nat.lt_succ_self _
  rw [writeDir_bootMode hwhat]
  cases hhi : (dirUsed s).1 with
  | false =>
    rw [hhi] at hused
    exact congrArg DirX.bootMode (dir_of_newer_dir1 (s := { s with store.dir1 := some (nextDir s m) }) hbad rfl
      fun a ha => by rw [hused a ha]; exact hnewer)
  | true =>
    rw [hhi] at hused
    exact congrArg DirX.bootMode (dir_of_newer_dir0 (s := { s with store.dir0 := some (nextDir s m) }) hbad rfl
      fun b hb => by rw [Option.some.inj (hb.symm.trans hused)]; exact hnewer)

/-! ### A page moved to a spare (R214) -/

@[simp] theorem logPush_store (s : State) (kind subj detail : Nat) (inj esc : Bool) :
    (logPush s kind subj detail inj esc).store = s.store := by
  have hecc (t : State) (a : Nat) : (eccWritten t a).store = t.store := rfl
  unfold logPush
  dsimp only
  split
  · rw [State.bumpSat_store, hecc, hecc, State.put_store, State.put_store, State.put_store, State.put_store, State.put_store]
  · rw [hecc, hecc, State.put_store, State.put_store, State.put_store, State.put_store, State.put_store]

/-- A logical page mapped to the next spare. -/
def pageMoved (s : State) (l : Nat) : State := { s with
  store.map := SMap.set pageDflt s.store.map l (240 + s.store.sparesUsed)
  store.retired := s.store.retired ++ [physPage s l]
  store.sparesUsed := s.store.sparesUsed + 1
  store.bad := s.store.bad.filter fun x => x != l }

theorem retirePage_of_spare {l : Nat} (hspare : s.store.sparesUsed < 16) : retirePage s l =
    (logPush ((pageMoved s l).raiseBit F.CF_EVENT_PAGE_RETIRED) 0x14 0 ((240 + s.store.sparesUsed) * 256 + physPage s l), true) :=
  if_neg (Nat.not_le.mpr hspare)

theorem eventRaised_logged (s : State) (detail : Nat) :
    (logPush (s.raiseBit F.CF_EVENT_PAGE_RETIRED) 0x14 0 detail).get F.CF_EVENT_PAGE_RETIRED = 1 := by
  have hapart : ¬ logAddr F.CF_EVENT_PAGE_RETIRED.addr := by
    unfold logAddr
    decide
  rw [State.get, reg_logPush _ _ _ _ _ _ hapart]
  exact State.get_raiseBit _ F.CF_EVENT_PAGE_RETIRED 0 0 (by decide) (by decide)

/-! ### The instruction STORE_PAGE_WRITE_DONE -/

section
variable {j : StoreJob} {l : Nat} {bs : List Byte} (ha : s.Awake) (hjobs : s.store.jobs = [j])
include ha hjobs

theorem storePage_next {l2 : Nat} {b2 : List Byte} {rest : List (Nat × List Byte)} (hcut : j.cut = false)
    (hpages : j.pages = (l, bs) :: (l2, b2) :: rest) (hwear : pageWear s (physPage s l2) < 10000000) (hbad : s.store.bad = []) :
    Gives (.storePageWriteDone true) s fun t =>
      t.store.jobs = [{ j with pages := (l2, b2) :: rest }] ∧ t = { s with store := t.store } ∧
      pageWear t (physPage t l2) = pageWear s (physPage s l2) + 1 := by
  have hexec := (exec_storePageWriteDone s true).trans (congrArg (act s) (pageDone_next hjobs hcut hpages hwear hbad))
  refine gives_of_act ha hexec ?_ ⟨eraseBegins_jobs _ _, ?_, ?_⟩
  · rw [eraseBegins_store]
    exact ha.2
  · rw [eraseBegins_store]
    rfl
  · rw [physPage_eraseBegins, pageWear_eraseBegins]
    rfl

theorem storePage_last {m : Bool} (hcut : j.cut = false) (hpages : j.pages = [(l, bs)]) (hbad : s.store.bad = [])
    (hwhat : j.what = .bootMode m) : Gives (.storePageWriteDone true) s fun t =>
      t.store.jobs = [] ∧ t.dir.bootMode = m ∧ t.mp.ready = s.mp.ready ++ [(j.kind, St.ok, [])] ∧
      t = { s with store := t.store, mp.ready := t.mp.ready } := by
  have hsound : (pageVerified s l bs).store.bad = [] := by simp [pageVerified, hbad]
  have hdir := dir_writeDir_bootMode hwhat hsound
  have hwritten : (writeDir (pageVerified s l bs) j).1 = { s with store := (writeDir (pageVerified s l bs) j).1.store } ∧
      (writeDir (pageVerified s l bs) j).1.store.jobs = [j] ∧ (writeDir (pageVerified s l bs) j).2 = [] := by
    rw [writeDir_bootMode hwhat]
    cases (dirUsed (pageVerified s l bs)).1 <;> exact ⟨rfl, hjobs, rfl⟩
  obtain ⟨honly, hleft, hdata⟩ := hwritten
  have hexec := (exec_storePageWriteDone s true).trans (congrArg (act s) ((pageDone_last hjobs hcut hpages).trans
    (endJob_only hleft hcut _ _)))
  rw [hdata] at hexec
  refine gives_of_act ha hexec ?_ ⟨rfl, hdir, ?_, ?_⟩
  · rw [honly]
    exact ha.2
  · rw [honly]
  · rw [honly]

theorem storePage_retired {rest : List (Nat × List Byte)} (hpages : j.pages = (l, bs) :: rest) (hspare : s.store.sparesUsed < 16) :
    Gives (.storePageWriteDone false) s fun t =>
      physPage t l = 240 + s.store.sparesUsed ∧ t.store.retired = s.store.retired ++ [physPage s l] ∧
      t.store.sparesUsed = s.store.sparesUsed + 1 ∧ t.get F.CF_EVENT_PAGE_RETIRED = 1 ∧ t.store.jobs = [j] := by
  obtain ⟨u, hu⟩ : ∃ u, u = logPush ((pageMoved s l).raiseBit F.CF_EVENT_PAGE_RETIRED) 0x14 0
      ((240 + s.store.sparesUsed) * 256 + physPage s l) := ⟨_, rfl⟩
  have hstore : u.store = (pageMoved s l).store := by rw [hu, logPush_store, State.raiseBit_store]
  have hchip : u.chip = s.chip := by rw [hu, logPush_chip, State.raiseBit_chip]; rfl
  have hevent : u.get F.CF_EVENT_PAGE_RETIRED = 1 := by rw [hu, eventRaised_logged]
  have hretired : retirePage s l = (u, true) := (retirePage_of_spare hspare).trans (by rw [hu])
  have hdone : pageDone s false = eraseBegins u l := by rw [pageDone_failed hjobs hpages, hretired]; rfl
  have hexec := (exec_storePageWriteDone s false).trans (congrArg (act s) hdone)
  obtain ⟨hold, hused⟩ := eraseBegins_retired u l
  refine gives_of_act ha hexec ?_ ⟨?_, ?_, ?_, ?_, ?_⟩
  · rw [eraseBegins_store]
    exact (congrArg _ hchip).trans ha.2
  · rw [physPage_eraseBegins, physPage, hstore]
    exact SMap.get_set_same pageDflt s.store.map l (240 + s.store.sparesUsed)
  · rw [hold, hstore]
    rfl
  · rw [hused, hstore]
    rfl
  · rw [eraseBegins_store]
    exact hevent
  · rw [eraseBegins_jobs, hstore]
    exact hjobs

end

/-- Settles O15: `beginJobs` erases the first page at once, and `pageDone` goes on from the page that ended. -/
theorem storeCommands : Obligations.StoreCommands := by
  unfold Obligations.StoreCommands
  exact fun s =>
    ⟨fun k f h hfree hjobs hwear hbad =>
      ⟨fun words len m hp hlen hjig hgood => carcassSave_begins h hfree hjobs hwear hbad hp hlen hjig hgood,
        fun m hm hp => carcassBoot_begins h hfree hjobs hwear hbad hm hp,
        fun j v hj hv hp hstage => veneerSave_begins h hfree hjobs hwear hbad hj hv hp hstage,
        fun v hv hp => veneerErase_begins h hfree hjobs hwear hbad hv hp⟩,
      fun k f h hlocked m hm hp => carcassBoot_locked h hlocked hm hp,
      fun ha j l bs hjobs hcut =>
        ⟨fun l2 b2 rest hpages hwear hbad => storePage_next ha hjobs hcut hpages hwear hbad,
          fun hpages hbad m hwhat => storePage_last ha hjobs hcut hpages hbad hwhat,
          fun rest hpages hspare => storePage_retired ha hjobs hpages hspare⟩⟩

end Sys2Proof.Machine
end

section
/-!
PROOFS. Veneers staged, committed, read, aborted and fetched, and the pair-selected ones (R224-R232).
-/
namespace Sys2Proof.Machine

variable {s t u x : State} {k : Pkt} {f st : Nat} {data : List Byte}

/-! ### A command that changes one stage -/

theorem taken_busOnly (s : State) (k : Pkt) : BusOnly s (taken s k) := rfl

theorem taken_locks (s : State) (k : Pkt) : (taken s k).locks = s.locks := rfl

theorem stageX_taken (s : State) (k : Pkt) (j : Nat) : (taken s k).stageX j = s.stageX j := by
  have hcf : (taken s k).cf = s.cf := rfl
  rw [State.stageX, State.stageX, hcf]

theorem stageArmed_taken (s : State) (k : Pkt) (j : Nat) : stageArmed (taken s k) j = stageArmed s j := by
  rw [stageArmed, stageArmed, stageX_taken]

theorem stageTarget_taken (s : State) (k : Pkt) (j : Nat) : stageTarget (taken s k) j = stageTarget s j := by
  rw [stageTarget, stageTarget, stageX_taken]

/-- What is left when the bridge answers a command whose action changed stage `j`. -/
theorem stage_changed {j : Nat} {g : StageX → StageX} (hbegun : BusOnly s x) (hanswered : BridgeOnly (x.modStage j g) t) :
    t.stageX j = g (s.stageX j) ∧ t = { s with regs := t.regs, mp := t.mp, ch := t.ch, cf.stages := t.cf.stages } ∧
      ∀ i, i ≠ j → t.stageX i = s.stageX i := by
  have hbus : t = { x.modStage j g with regs := t.regs, mp := t.mp, ch := t.ch } := hanswered.busOnly
  have hstage (i : Nat) : t.stageX i = (x.modStage j g).stageX i := by
    rw [hbus]
    rfl
  have hold (i : Nat) : x.stageX i = s.stageX i := by
    rw [hbegun]
    rfl
  refine ⟨by rw [hstage, State.stageX_modStage, hold], ?_, fun i hi => ?_⟩
  · rw [hbus, State.modStage, hbegun]
  · rw [hstage, State.stageX_modStage_other _ _ hi, hold]

theorem stage_served_fw {c : Instr} {r : OpRow} {op j : Nat} {g : StageX → StageX} (h : TakesFw s k f)
    (hc : exec c s = act s (chainCommand s op k (some f))) (hop : op ∉ [2, 3, 4]) (hr : opRow op = some r) (hf : r.fw = true)
    (hl : r.len k.params = true) (hb : runBody .chain (ownJob s op k) (begun s op k) = .done ((begun s op k).modStage j g) st data) :
    Gives c s fun t => FwServed f [] s t k st data ∧ t.stageX j = g (s.stageX j) ∧
      t = { s with regs := t.regs, mp := t.mp, ch := t.ch, cf.stages := t.cf.stages } ∧ ∀ i, i ≠ j → t.stageX i = s.stageX i := by
  obtain ⟨t, hexec, hserved, hbridge, -⟩ := served_fw_acts (fs := []) h hc hop hr hf hl hb (State.modStage_mp _ _ _)
    ((State.modStage_chip _ _ _).trans (begun_chip s op k)) (RegsKept.of_regs (State.modStage_regs _ _ _)) (by simp)
  exact ⟨t, hexec, hserved, stage_changed (begun_busOnly s op k) hbridge⟩

theorem stage_served_hw {c : Instr} {r : OpRow} {op j : Nat} {g : StageX → StageX} (h : Takes s k)
    (hc : exec c s = act s (chainCommand s op k none)) (hop : op ∉ [2, 3, 4, 5]) (hr : opRow op = some r) (hf : r.fw = false)
    (hl : r.len k.params = true) (hb : runBody .chain (ownJob s op k) (taken s k) = .done ((taken s k).modStage j g) st data) :
    Gives c s fun t => Served [] s t k st data ∧ t.stageX j = g (s.stageX j) ∧
      t = { s with regs := t.regs, mp := t.mp, ch := t.ch, cf.stages := t.cf.stages } := by
  obtain ⟨t, hexec, hserved, hbridge, -⟩ := served_hw_kept (fs := []) h hc hop hr hf hl hb
    ((congrArg MpX.out (State.modStage_mp (taken s k) j g)).trans rfl) (State.modStage_chip _ _ _)
    (RegsKept.of_regs (State.modStage_regs _ _ _)) (by simp)
  obtain ⟨hstage, heq, -⟩ := stage_changed (taken_busOnly s k) hbridge
  exact ⟨t, hexec, hserved, hstage, heq⟩

/-! ### VENEER_STAGE and VENEER_FETCH (R224, R231) -/

/-- What a stage holds of a veneer put into it. -/
def stageWith (count : Nat) (bytes : List Byte) (origin : Byte) (y : StageX) : StageX :=
  { y with st := .staged, count := count, bytes := bytes, origin := origin }

theorem stageContent_good {j count : Nat} {bytes : List Byte} {es : List VEntry} (origin : Byte)
    (hparse : parseEntries count bytes = .inr es) (hgood : firstBadEntry 0 es = none) (s : State) :
    stageContent s j count bytes origin = .done (s.modStage j (stageWith count bytes origin)) St.ok (toLE 4 (crc32 bytes)) := by
  simp only [stageContent, hparse, hgood]
  rfl

theorem stageArmed_begun (s : State) (op : Nat) (k : Pkt) (j : Nat) : stageArmed (begun s op k) j = stageArmed s j := by
  rw [stageArmed, stageArmed, stageX_begun]

theorem readSlot_valid {v count : Nat} {bytes : List Byte} (hjig : s.get F.FA_JIG_LEFT 6 = 0)
    (hslot : validSlot s v = some { count := count, len := bytes.length })
    (hbytes : storeBytes s (pageBytes * slotPage v) bytes.length = bytes) : readSlot s v = (s, some (count, bytes)) := by
  simp only [readSlot, hslot, storeRead_of_no_jig hjig, hbytes]
  rfl

section
variable {j : Byte} {count : Nat} {bytes : List Byte} {es : List VEntry} (hj : j.toNat < 4) (h : TakesFw s k f)
  (hidle : stageArmed s j.toNat = false) (hparse : parseEntries count bytes = .inr es) (hgood : firstBadEntry 0 es = none)
include hj h hidle hparse hgood

theorem veneerStage_stages (hcount : count < 2 ^ 16) (hp : k.params = j :: (toLE 2 count ++ bytes)) :
    Gives (.veneerStage k (some f)) s fun t =>
      FwServed f [] s t k St.ok (toLE 4 (crc32 bytes)) ∧
      t.stageX j.toNat = { s.stageX j.toNat with st := .staged, count := count, bytes := bytes, origin := 0xFF } ∧
      t = { s with regs := t.regs, mp := t.mp, ch := t.ch, cf.stages := t.cf.stages } ∧
      ∀ i, i ≠ j.toNat → t.stageX i = s.stageX i := by
  have hbyte : byteAt k.params 0 = j.toNat := by rw [hp]; rfl
  have hnumber : leAt k.params 1 2 = count := by
    rw [hp]
    exact leAt_append_toLE_append (w := 2) hcount [j] bytes
  have hcontent : k.params.drop 3 = bytes := by
    rw [hp]
    exact List.drop_left' (l₁ := j :: toLE 2 count) rfl
  have hbusy : ¬ stageArmed (begun s 0x26 k) j.toNat = true := by simp [stageArmed_begun, hidle]
  have hbody : bodyVeneerStage k.params (begun s 0x26 k) =
      .done ((begun s 0x26 k).modStage j.toNat (stageWith count bytes 0xFF)) St.ok (toLE 4 (crc32 bytes)) := by
    simp only [bodyVeneerStage, hbyte, hnumber, hcontent, if_neg (Nat.not_lt.mpr (Nat.le_of_lt_succ hj)), if_neg hbusy]
    exact stageContent_good 0xFF hparse hgood _
  exact stage_served_fw (op := 0x26) h rfl (by decide) rfl rfl (by rw [hp]; rfl) hbody

theorem veneerFetch_stages {v : Byte} (hv : v.toNat < 16) (hp : k.params = [j, v]) (hjig : s.get F.FA_JIG_LEFT 6 = 0)
    (hslot : validSlot s v.toNat = some { count := count, len := bytes.length })
    (hbytes : storeBytes s (pageBytes * slotPage v.toNat) bytes.length = bytes) : Gives (.veneerFetch k (some f)) s fun t =>
      FwServed f [] s t k St.ok (toLE 4 (crc32 bytes)) ∧
      t.stageX j.toNat = { s.stageX j.toNat with st := .staged, count := count, bytes := bytes, origin := v } ∧
      t = { s with regs := t.regs, mp := t.mp, ch := t.ch, cf.stages := t.cf.stages } := by
  have hbytes' : byteAt k.params 0 = j.toNat ∧ byteAt k.params 1 = v.toNat := by rw [hp]; exact ⟨rfl, rfl⟩
  obtain ⟨hfirst, hsecond⟩ := hbytes'
  have hin : ¬ (3 < j.toNat ∨ 15 < v.toNat) := by omega
  have hbusy : ¬ stageArmed (begun s 0x27 k) j.toNat = true := by simp [stageArmed_begun, hidle]
  have hread : readSlot (begun s 0x27 k) v.toNat = (begun s 0x27 k, some (count, bytes)) := by
    refine readSlot_valid ((begun_get s 0x27 k _ (by decide)).trans hjig) ((?_ : _ = validSlot s v.toNat).trans hslot)
      ((?_ : _ = storeBytes s (pageBytes * slotPage v.toNat) bytes.length).trans hbytes)
    · rw [begun_eq]; rfl
    · rw [begun_eq]; rfl
  have hbody : bodyVeneerFetch k.params (begun s 0x27 k) =
      .done ((begun s 0x27 k).modStage j.toNat (stageWith count bytes v)) St.ok (toLE 4 (crc32 bytes)) := by
    simp only [bodyVeneerFetch, hfirst, hsecond, if_neg hin, if_neg hbusy, hread, BitVec.ofNat_toNat, BitVec.setWidth_eq]
    exact stageContent_good v hparse hgood _
  obtain ⟨t, hexec, hserved, hstage, heq, -⟩ := stage_served_fw (op := 0x27) (c := .veneerFetch k (some f)) h rfl (by decide)
    rfl rfl (by rw [hp]; rfl) hbody
  exact ⟨t, hexec, hserved, hstage, heq⟩

end

/-! ### VENEER_COMMIT (R226) -/

theorem runBody_veneerCommit {o : JobKind} {y : Job} (hop : y.op = 0x2A) : runBody o y s = bodyVeneerCommit y.tag y.params s := by
  simp only [runBody, runLow, hop, Nat.reduceLT, if_true]

theorem runBody_veneerAbort {o : JobKind} {y : Job} (hop : y.op = 0x2B) : runBody o y s = bodyVeneerAbort y.params s := by
  simp only [runBody, runLow, hop, Nat.reduceLT, if_true]

theorem locked_of_no_locks (h : s.locks = 0) (block : Nat) : s.locked block = false := by
  rw [State.locked, h, Nat.zero_testBit]

theorem bodyVeneerCommit_arms {j : Byte} {ts tf : Nat} {tag : Byte} {ps : List Byte} (hj : j.toNat < 4) (hts : ts < 2 ^ 32)
    (htf : tf < 31250) (hp : ps = j :: (toLE 4 ts ++ toLE 2 tf)) (hfull : (s.stageX j.toNat).st ≠ .empty)
    (hidle : stageArmed s j.toNat = false) (hsoon : startsTooSoon s (ts, tf) = false)
    (hrange : numDiff (ts, tf) s.frameNum ≤ 2700000000) (hlocks : s.locks = 0) : bodyVeneerCommit tag ps s =
      .done (s.modStage j.toNat fun y => { y with st := .armed, armTag := tag, ts := ts, tf := tf }) St.ok (numBytes s.frameNum) := by
  have hbyte : byteAt ps 0 = j.toNat := by rw [hp]; rfl
  have hseconds : leAt ps 1 4 = ts := by
    rw [hp]
    exact leAt_append_toLE_append (w := 4) hts [j] (toLE 2 tf)
  have hframe : leAt ps 5 2 = tf := by
    rw [hp]
    exact leAt_append_toLE (k := 2) (by omega) (j :: toLE 4 ts)
  have hin : ¬ (3 < j.toNat ∨ 31249 < tf) := by omega
  have hstaged : ¬ ((s.stageX j.toNat).st = .empty ∨ (s.stageX j.toNat).st = .armed) := by
    rintro (hempty | harmed)
    · exact hfull hempty
    · simp [stageArmed, harmed] at hidle
  have hlate : ¬ startsTooSoon s (ts, tf) = true := Bool.eq_false_iff.mp hsoon
  simp only [bodyVeneerCommit, hbyte, hseconds, hframe, if_neg hin, if_neg hstaged, if_neg hlate,
    if_neg (Int.not_lt.mpr hrange), locked_of_no_locks hlocks, Bool.and_false]
  refine if_neg ?_
  rw [List.any_eq_true]
  rintro ⟨w, -, hlocked⟩
  cases hspec : specAt w.1 <;> simp [hspec] at hlocked

theorem frameNum_taken (s : State) (k : Pkt) : (taken s k).frameNum = s.frameNum := by
  simp only [State.frameNum, taken_get s k F.LF_NOW_S 0 0 (by decide), taken_get s k F.LF_NOW_F 0 0 (by decide)]

theorem startsTooSoon_taken (s : State) (k : Pkt) (n : Nat × Nat) : startsTooSoon (taken s k) n = startsTooSoon s n := by
  rw [startsTooSoon, startsTooSoon, frameNum_taken]
  rfl

section
variable {j : Byte} (hj : j.toNat < 4) (h : Takes s k)
include hj h

theorem veneerCommit_arms {ts tf : Nat} (hts : ts < 2 ^ 32) (htf : tf < 31250) (hp : k.params = j :: (toLE 4 ts ++ toLE 2 tf))
    (hfull : (s.stageX j.toNat).st ≠ .empty) (hidle : stageArmed s j.toNat = false) (hsoon : startsTooSoon s (ts, tf) = false)
    (hrange : numDiff (ts, tf) s.frameNum ≤ 2700000000) (hlocks : s.locks = 0) : Gives (.veneerCommit k) s fun t =>
      Served [] s t k St.ok (toLE 4 s.frameNum.1 ++ toLE 2 s.frameNum.2) ∧
      t.stageX j.toNat = { s.stageX j.toNat with st := .armed, armTag := k.tag, ts := ts, tf := tf } ∧
      t = { s with regs := t.regs, mp := t.mp, ch := t.ch, cf.stages := t.cf.stages } := by
  have hbody := bodyVeneerCommit_arms (s := taken s k) (tag := k.tag) hj hts htf hp
    (by rw [stageX_taken]; exact hfull) ((stageArmed_taken s k _).trans hidle) ((startsTooSoon_taken s k _).trans hsoon)
    (by rw [frameNum_taken]; exact hrange) ((taken_locks s k).trans hlocks)
  rw [frameNum_taken] at hbody
  exact stage_served_hw (op := 0x2A) h rfl (by decide) rfl rfl (by rw [hp]; rfl) ((runBody_veneerCommit rfl).trans hbody)

/-! ### VENEER_ABORT, VENEER_STATUS and VENEER_GET (R225, R231) -/

theorem veneerAbort_disarms (hp : k.params = [j]) (harmed : stageArmed s j.toNat = true)
    (hsoon : startsTooSoon s (stageTarget s j.toNat) = false) : Gives (.veneerAbort k) s fun t =>
      Served [] s t k St.ok [] ∧ t.stageX j.toNat = { s.stageX j.toNat with st := .staged } ∧
      t = { s with regs := t.regs, mp := t.mp, ch := t.ch, cf.stages := t.cf.stages } := by
  have hbyte : byteAt k.params 0 = j.toNat := by rw [hp]; rfl
  have harmed' : ¬ (!stageArmed (taken s k) j.toNat) = true := by
    simp [stageArmed_taken, harmed]
  have hsoon' : ¬ startsTooSoon (taken s k) (stageTarget (taken s k) j.toNat) = true := by
    rw [startsTooSoon_taken, stageTarget_taken]
    exact Bool.eq_false_iff.mp hsoon
  have hbody : bodyVeneerAbort k.params (taken s k) =
      .done ((taken s k).modStage j.toNat fun y => { y with st := .staged }) St.ok [] := by
    simp only [bodyVeneerAbort, hbyte, if_neg (Nat.not_lt.mpr (Nat.le_of_lt_succ hj)), if_neg harmed', if_neg hsoon']
  exact stage_served_hw (op := 0x2B) h rfl (by decide) rfl rfl (by rw [hp]; rfl) ((runBody_veneerAbort rfl).trans hbody)

theorem veneerStatus_served (hp : k.params = [j]) : Gives (.veneerStatus k) s fun t =>
    Served [] s t k St.ok (toLE 4 s.frameNum.1 ++ toLE 2 s.frameNum.2 ++
      [BitVec.ofNat 8 (stageCode s j.toNat), (s.stageX j.toNat).result, (s.stageX j.toNat).armTag, (s.stageX j.toNat).origin] ++
      toLE 2 (s.stageX j.toNat).count ++ toLE 4 (s.stageX j.toNat).ts ++ toLE 2 (s.stageX j.toNat).tf) ∧ BusOnly s t := by
  have hbyte : byteAt k.params 0 = j.toNat := by rw [hp]; rfl
  have hbody : bodyVeneerStatus k.params (taken s k) = .done (taken s k) St.ok (numBytes s.frameNum ++
      [BitVec.ofNat 8 (stageCode s j.toNat), (s.stageX j.toNat).result, (s.stageX j.toNat).armTag, (s.stageX j.toNat).origin] ++
      toLE 2 (s.stageX j.toNat).count ++ toLE 4 (s.stageX j.toNat).ts ++ toLE 2 (s.stageX j.toNat).tf) := by
    have hcode : stageCode (taken s k) j.toNat = stageCode s j.toNat := by rw [stageCode, stageCode, stageX_taken]
    rw [bodyVeneerStatus, hbyte, frameNum_taken, hcode, stageX_taken]
    exact if_neg (Nat.not_lt.mpr (Nat.le_of_lt_succ hj))
  exact served_hw_same (op := 0x2C) h rfl (by decide) rfl rfl (by rw [hp]; rfl) hbody

end

theorem veneerGet_stage {j : Byte} (hj : j.toNat < 4) (h : TakesFw s k f) (hp : k.params = [0, j])
    (hfull : (s.stageX j.toNat).st ≠ .empty) : Gives (.veneerGet k (some f)) s fun t =>
      FwServed f [] s t k St.ok (toLE 2 (s.stageX j.toNat).count ++ (s.stageX j.toNat).bytes) ∧ BusOnly s t := by
  have hbytes : byteAt k.params 0 = 0 ∧ byteAt k.params 1 = j.toNat := by rw [hp]; exact ⟨rfl, rfl⟩
  obtain ⟨hkind, hnumber⟩ := hbytes
  have hin : ¬ (1 < 0 ∨ True ∧ 3 < j.toNat ∨ 15 < j.toNat) := by omega
  have hbody : bodyVeneerGet k.params (begun s 0x2D k) =
      .done (begun s 0x2D k) St.ok (toLE 2 (s.stageX j.toNat).count ++ (s.stageX j.toNat).bytes) := by
    simp only [bodyVeneerGet, hkind, hnumber, stageX_begun, if_neg hfull]
    exact if_neg hin
  exact served_fw_same (op := 0x2D) h rfl (by decide) rfl rfl (by rw [hp]; rfl) hbody

/-! ### A pair that selects veneers is told which (R230) -/

/-- The word that VSEL_ENABLE writes. -/
def vselWord (a b : Nat) : Nat := 2 ^ 31 + a * 16 + b

theorem vselWord_fields {a b : Nat} (ha : a < 16) (hb : b < 16) :
    bitsOf (vselWord a b) 0 4 = b ∧ bitsOf (vselWord a b) 4 4 = a ∧ bitOf (vselWord a b) 31 = true := by
  simp only [bitsOf, bitOf, vselWord, Nat.testBit_eq_decide_div_mod_eq, decide_eq_true_eq]
  omega

/-- CF_PAIR_VSEL[i] is RW, but for LAST, and block CF's lock covers it. -/
theorem specAt_pairVsel (i : Fin 4) : ∃ r, specAt (F.CF_PAIR_VSEL.addr i) = some r ∧ r.rw = 0x800000FF ∧ r.w1c = 0 ∧ r.otp = 0 ∧
    lockBlock (F.CF_PAIR_VSEL.addr i) = 2 := by
  have hall : ∀ i : Fin 4, (specAt (F.CF_PAIR_VSEL.addr i)).any
      (fun r => r.rw == 0x800000FF && r.w1c == 0 && r.otp == 0 && lockBlock (F.CF_PAIR_VSEL.addr i) == 2) = true := by decide +kernel
  obtain ⟨r, hspec, hr⟩ := specAt_of_any (hall i)
  simp only [Bool.and_eq_true, beq_iff_eq, and_assoc] at hr
  exact ⟨r, hspec, hr⟩

theorem pairVsel_inside (i : Fin 4) : 0x40020080 ≤ F.CF_PAIR_VSEL.addr i ∧ F.CF_PAIR_VSEL.addr i < 0x40020090 ∧
    (F.CF_PAIR_VSEL.addr i - 0x40020080) / 4 = i := by
  revert i
  decide

theorem vselProbe_of_no_jig (hjig : s.get F.FA_JIG_LEFT 6 = 0) (a v : Nat) : vselProbe s a v = s := by
  have hread (off n : Nat) : (storeRead s off n).1 = s := by rw [storeRead_of_no_jig hjig]
  unfold vselProbe
  split
  · refine forList_keeps (· = s) _ _ (fun n _ u hu => ?_) s rfl
    rw [hu]
    split
    · exact hread _ _
    · rfl
  · rfl

theorem judgeCf_pairVsel {a b : Nat} (haddr : Nat) (ha : a < 16) (hb : b < 16) (hone : (validSlot s a).isSome = true)
    (hzero : (validSlot s b).isSome = true) : judgeCf s haddr (vselWord a b) = St.ok := by
  obtain ⟨hlow, hhigh, -⟩ := vselWord_fields ha hb
  simp [judgeCf, vselSlots, hlow, hhigh, Option.isSome_iff_ne_none.mp hone, Option.isSome_iff_ne_none.mp hzero, rangeIf]

theorem hookCf_pairVsel (i : Fin 4) (v old : Nat) (s : State) : hookCf (F.CF_PAIR_VSEL.addr i) v old s = hookVsel i v s := by
  obtain ⟨hlow, hhigh, hindex⟩ := pairVsel_inside i
  have hapart : ¬ F.CF_PAIR_VSEL.addr i = 0x4002002C := by omega
  rw [hookCf, if_neg hapart, if_pos ⟨hlow, hhigh⟩, hindex]

theorem exec_vselEnable {i : Fin 4} {a b : Fin 16} (hfree : s.locked 2 = false) (hjig : s.get F.FA_JIG_LEFT 6 = 0)
    (hone : (validSlot s a).isSome = true) (hzero : (validSlot s b).isSome = true) : exec (.vselEnable i a b) s =
      act s (hookVsel i (vselWord a b) (storeWord s (F.CF_PAIR_VSEL.addr i) (vselWord a b))) := by
  obtain ⟨r, hspec, -, -, hotp, hblock⟩ := specAt_pairVsel i
  have hwrite := writeBy_ok (hook := hookCf) hspec (by rw [hblock, hfree, Bool.and_false])
    (judgeCf_pairVsel (F.CF_PAIR_VSEL.addr i) a.isLt b.isLt hone hzero) hotp
  rw [hookCf_pairVsel] at hwrite
  have hprobe := vselProbe_of_no_jig hjig (F.CF_PAIR_VSEL.addr i) (vselWord a b)
  exact (congrArg (fun u => act s (writeBy judgeCf hookCf u (F.CF_PAIR_VSEL.addr i) (vselWord a b))) hprobe).trans
    (congrArg (act s) hwrite)

/-- What the caching of the veneers looks at, apart from CF_PAIR_VSEL, is as it was before the write. -/
theorem pairVsel_apart {i : Fin 4} (h : Only [(F.CF_PAIR_VSEL.addr i, 0, 32)] s u) :
    u.get F.PAIR_CFG_FUNC i = s.get F.PAIR_CFG_FUNC i ∧ pairState u i = pairState s i ∧ slotBytes u = slotBytes s := by
  obtain ⟨hlow, hhigh, -⟩ := pairVsel_inside i
  have hget (f : Field) (hf : F.CF_PAIR_VSEL.addr i < f.addr i) : u.get f i = s.get f i :=
    h.2.get f i 0 fun g hg => .inl (by rw [List.mem_singleton.mp hg]; exact hf.ne)
  have hfunc := hget F.PAIR_CFG_FUNC (by simp only [F.PAIR_CFG_FUNC, Field.addr] at *; omega)
  have hstate := hget F.PAIR_STAT_STATE (by simp only [F.PAIR_STAT_STATE, Field.addr] at *; omega)
  refine ⟨hfunc, ?_, ?_⟩
  · rw [pairState, pairState, hstate, h.1]
  · obtain ⟨regs, rfl⟩ := h.exists_regs
    rfl

/-- The veneers that a written word of CF_PAIR_VSEL[i] names are cached, and due outside FALLBACK. -/
theorem hookVsel_cacheX {a b : Nat} (ha : a < 16) (hb : b < 16) (i : Nat) (s : State) : (hookVsel i (vselWord a b) s).cacheX i =
    { zero := slotBytes s b, one := slotBytes s a, due := s.get F.PAIR_CFG_FUNC i == 3 && pairState s i != 2 } := by
  obtain ⟨hlow, hhigh, hset⟩ := vselWord_fields ha hb
  simp only [hookVsel, State.cacheX_modCache, hset, hlow, hhigh, if_true]

theorem vselEnable_caches (ha : s.Awake) {i : Fin 4} {a b : Fin 16} (hfree : s.locked 2 = false) (hjig : s.get F.FA_JIG_LEFT 6 = 0)
    (hone : (validSlot s a).isSome = true) (hzero : (validSlot s b).isSome = true) : Gives (.vselEnable i a b) s fun t =>
      t.on F.CF_PAIR_VSEL_EN i = true ∧ (t.cacheX i).one = slotBytes s a ∧ (t.cacheX i).zero = slotBytes s b ∧
      ((t.cacheX i).due = true ↔ s.get F.PAIR_CFG_FUNC i = 3 ∧ pairState s i ≠ 2) ∧
      t = { s with regs := t.regs, cf.caches := t.cf.caches } ∧ RegsKept [(F.CF_PAIR_VSEL.addr i, 0, 32)] s t := by
  obtain ⟨r, hspec, hrw, hw1c, -, -⟩ := specAt_pairVsel i
  have hexec := exec_vselEnable (i := i) hfree hjig hone hzero
  have hwritten := storeWord_only s (F.CF_PAIR_VSEL.addr i) (vselWord a b)
  have hen : (storeWord s (F.CF_PAIR_VSEL.addr i) (vselWord a b)).get F.CF_PAIR_VSEL_EN i = bitsOf (vselWord a b) 31 1 :=
    get_storeWord (f := F.CF_PAIR_VSEL_EN) s hspec hw1c (by decide) (by rw [hrw]; decide)
  have hbit : bitsOf (vselWord a b) 31 1 = 1 := by
    simp only [bitsOf, vselWord]
    omega
  generalize storeWord s (F.CF_PAIR_VSEL.addr i) (vselWord a b) = u at hexec hen hwritten
  obtain ⟨hfunc, hstate, hslots⟩ := pairVsel_apart hwritten
  have hcache := hookVsel_cacheX a.isLt b.isLt i u
  rw [hfunc, hstate, hslots] at hcache
  obtain ⟨regs, hregs⟩ := hwritten.exists_regs
  refine gives_of_act ha hexec ?_ ⟨?_, by rw [hcache], by rw [hcache], ?_, ?_, ?_⟩
  · rw [hookVsel, State.modCache_chip, hwritten.chip]
    exact ha.2
  · rw [hookVsel, State.modCache_on, State.on, hen, hbit]
    rfl
  · rw [hcache]
    simp
  · rw [hregs]
    rfl
  · exact hwritten.2.trans (RegsKept.of_regs (State.modCache_regs _ _ _))

/-! ### The cached veneer of the agreed state is applied (R230, R677) -/

theorem b2n_on {g : Field} (hg : g.w = 1) (s : State) (i : Nat) : b2n (s.on g i) = s.get g i := by
  have hlt := State.get_lt s g i 0
  rw [hg] at hlt
  obtain h | h : s.get g i = 0 ∨ s.get g i = 1 := by omega
  all_goals simp [State.on, h, b2n]

theorem entryWords_congr (h : t.regs = s.regs) (es : List VEntry) (ws : List (Nat × Nat)) :
    entryWords t es ws = entryWords s es ws := by
  induction es generalizing ws with
  | nil => rfl
  | cons e es ih => rw [entryWords, entryWords, ih, reg_of_regs h]

theorem veneerWords_congr (h : t.regs = s.regs) (count : Nat) (bytes : List Byte) :
    veneerWords t count bytes = veneerWords s count bytes := by
  unfold veneerWords
  split
  · rfl
  · exact entryWords_congr h _ _

/-- The state in which the veneer that was due for pair `i` is applied: it is due no more. -/
def cacheSpent (s : State) (i : Nat) : State := s.modCache i fun y => { y with due := false }

theorem cacheSpent_eq (s : State) (i : Nat) : cacheSpent s i = { s with cf.caches := (cacheSpent s i).cf.caches } := rfl

section
variable {i : Nat} (hdue : (s.cacheX i).due = true) (hsel : vselPair s i = true) (hstate : pairState s i ≠ 2)
include hdue hsel hstate

theorem pairVeneer_applies {one : Bool} {bs : List Byte} (hone : s.on F.PAIR_STAT_AGREED i = one)
    (hbs : bs = if one then (s.cacheX i).one else (s.cacheX i).zero)
    (happly : applyWords (cacheSpent s i) (veneerWords s (entryCount 256 bs) bs) = (u, St.ok)) :
    pairVeneer s i = u.put F.CF_PAIR_VSEL_LAST (1 + b2n one) i := by
  have hsel' : vselPair (cacheSpent s i) i = true := hsel
  have hstate' : ¬ pairState (cacheSpent s i) i = 2 := hstate
  have hone' : (cacheSpent s i).on F.PAIR_STAT_AGREED i = one := hone
  have hwords := veneerWords_congr (t := cacheSpent s i) (s := s) rfl (entryCount 256 bs) bs
  have hgo : ¬ (!vselPair (cacheSpent s i) i || pairState (cacheSpent s i) i == 2) = true := by simp [hsel', hstate']
  have hspent : (s.modCache i fun y => { y with due := false }) = cacheSpent s i := rfl
  simp only [pairVeneer, hdue, hspent, if_neg hgo, hone', ← hbs, hwords, happly]
  rfl

end

theorem pairVeneerApply_applies (ha : s.Awake) {i : Fin 4} {x : PairCache} {bs : List Byte} {a v : Nat} {r : RegSpec}
    (hcache : s.cacheX i = x) (hdue : x.due = true) (hsel : vselPair s i = true) (hstate : pairState s i ≠ 2)
    (hbs : bs = if s.on F.PAIR_STAT_AGREED i then x.one else x.zero) (hplain : PlainReg a) (hspec : specAt a = some r)
    (hlock : (r.lock && s.locked (lockBlock a)) = false) (hapart : a ≠ F.CF_PAIR_VSEL.addr i)
    (hwords : veneerWords s (entryCount 256 bs) bs = [(a, v)]) : Gives (.pairVeneerApply i) s fun t =>
      t.reg a = BitVec.ofNat 32 (mergeWrite r (s.reg a).toNat v) ∧
      (t.cacheX i).due = false ∧ t.get F.CF_PAIR_VSEL_LAST i = 1 + s.get F.PAIR_STAT_AGREED i ∧
      t = { s with regs := t.regs, cf.caches := t.cf.caches } ∧ RegsKept [(a, 0, 32), F.CF_PAIR_VSEL_LAST.at i] s t := by
  subst hcache
  have happly : applyWords (cacheSpent s i) (veneerWords s (entryCount 256 bs) bs) = (storeWord (cacheSpent s i) a v, St.ok) := by
    rw [hwords]
    exact applyWords_plain hplain hspec hlock
  have hexec : exec (.pairVeneerApply i) s =
      act s ((storeWord (cacheSpent s i) a v).put F.CF_PAIR_VSEL_LAST (1 + b2n (s.on F.PAIR_STAT_AGREED i)) i) :=
    congrArg (act s) (pairVeneer_applies hdue hsel hstate rfl hbs happly)
  have hword : (storeWord (cacheSpent s i) a v).reg a = BitVec.ofNat 32 (mergeWrite r (s.reg a).toNat v) := by
    rw [storeWord_eq _ v hspec, State.reg_setReg]
    rfl
  have hstored := storeWord_only (cacheSpent s i) a v
  have hcaches : (cacheSpent s i).cacheX i = { s.cacheX i with due := false } := by rw [cacheSpent, State.cacheX_modCache]
  have hold : RegsKept [(a, 0, 32), F.CF_PAIR_VSEL_LAST.at i] s (cacheSpent s i) := RegsKept.of_regs rfl
  have hagreed : 1 + b2n (s.on F.PAIR_STAT_AGREED i) < 2 ^ 2 := by cases s.on F.PAIR_STAT_AGREED i <;> decide
  obtain ⟨regs, hregs⟩ := hstored.exists_regs
  refine gives_of_act ha hexec ?_ ⟨?_, ?_, ?_, ?_, ?_⟩
  · rw [State.put_chip, hstored.chip]
    exact ha.2
  · exact (State.reg_put_other _ F.CF_PAIR_VSEL_LAST _ _ _ hapart).trans hword
  · rw [State.cacheX_put, hregs]
    exact congrArg PairCache.due hcaches
  · rw [get_put_same _ F.CF_PAIR_VSEL_LAST _ (by decide) hagreed, b2n_on rfl]
  · rw [hregs, cacheSpent_eq]
    rfl
  · exact (hold.trans (hstored.2.mono (by simp))).trans (regsKept_put (by simp))

/-- Settles O16: a command's action changes one stage, and a pair's veneers are cached by the write and applied word by word. -/
theorem veneerCommands : Obligations.VeneerCommands := by
  unfold Obligations.VeneerCommands
  refine ⟨fun s k h j hj => ⟨fun f count bytes es hfw hidle hcount _ hparse hgood => ⟨?_, ?_⟩, ?_, ?_, ?_, ?_⟩, fun s ha => ⟨?_, ?_⟩⟩
  · exact fun hp => veneerStage_stages hj hfw hidle hparse hgood hcount hp
  · exact fun v hv hp hjig hslot hbytes => veneerFetch_stages hj hfw hidle hparse hgood hv hp hjig hslot hbytes
  · exact fun ts tf hts htf hp hfull hidle hsoon hrange hlocks => veneerCommit_arms hj h hts htf hp hfull hidle hsoon hrange hlocks
  · exact fun hp harmed hsoon => veneerAbort_disarms hj h hp harmed hsoon
  · exact fun hp => veneerStatus_served hj h hp
  · exact fun f hfw hp hfull => veneerGet_stage hj hfw hp hfull
  · exact fun i a b hfree hjig hone hzero => vselEnable_caches ha hfree hjig hone hzero
  · exact fun i x bs a v r hcache hdue hsel hstate hbs hplain hspec hlock hapart hwords =>
      pairVeneerApply_applies ha hcache hdue hsel hstate hbs hplain hspec hlock hapart hwords

end Sys2Proof.Machine
end

section
/-!
PROOFS. What the operations of a line port move: fields of its own registers, its record, the timing generator's marks and the
deskew copies (R247, R250, R252, R262, R263, R265, R268, R270, R297).
-/
namespace Sys2Proof.Machine

variable {s t u : State} {gs hs : List Field}

/-! ### Fields that share no bit at any of the 16 ports -/

/-- `apart`, or the one lies at every port below all that the other has. -/
def separate (g f : Field) : Bool :=
  apart g f || Nat.blt (g.base + 15 * g.s1) f.base || Nat.blt (f.base + 15 * f.s1) g.base

theorem RegsKept.get_separate {p : Fin 16} (h : RegsKept (placesAt gs p) s t) (f : Field)
    (hf : gs.all (fun g => separate g f) = true) : t.get f p = s.get f p := by
  refine h.get f p 0 fun x hx => ?_
  obtain ⟨g, hg, rfl⟩ := List.mem_map.mp hx
  have hsep := List.all_eq_true.mp hf g hg
  have hg15 : g.s1 * p ≤ g.s1 * 15 := Nat.mul_le_mul_left _ (by omega)
  have hf15 : f.s1 * p ≤ f.s1 * 15 := Nat.mul_le_mul_left _ (by omega)
  simp only [separate, apart, Bool.or_eq_true, Bool.and_eq_true, Nat.ble_eq, Nat.blt_eq, beq_iff_eq, bne_iff_ne, or_assoc] at hsep
  simp only [Field.at, Field.addr, Nat.mul_zero, Nat.add_zero]
  rcases hsep with hlow | hhigh | ⟨hstride, hbase⟩ | ⟨hstride, hbase⟩ | hbelow | habove
  · exact .inr (.inl hlow)
  · exact .inr (.inr hhigh)
  · exact .inl (by rw [hstride]; omega)
  · exact .inl (by rw [hstride, Nat.zero_mul]; omega)
  · exact .inl (by omega)
  · exact .inl (by omega)

/-! ### The fields that an operation moves -/

/-- Of the registers only the fields `gs` of port `p` move, and beside them only what `PortOnly` admits. -/
structure PortMoves (gs : List Field) (p : Nat) (s t : State) : Prop where
  rest : t = { s with regs := t.regs, port := t.port, tg := t.tg, ps := t.ps }
  others : ∀ q, q ≠ p → t.portX q = s.portX q
  kept : RegsKept (placesAt gs p) s t

/-- Field `g` lies in register `r`. -/
def liesIn (g r : Field) : Bool := g.base == r.base && g.s1 == r.s1 && Nat.ble (g.lo + g.w) 32

theorem inFields_word_of_liesIn {g r : Field} {p a b : Nat} (h : liesIn g r = true) (hin : inFields [g.at p] a b) :
    inFields [r.word p] a b := by
  simp only [liesIn, Bool.and_eq_true, beq_iff_eq, Nat.ble_eq] at h
  obtain ⟨⟨hbase, hstride⟩, hwidth⟩ := h
  obtain ⟨x, hx, haddr, hlow, hhigh⟩ := hin
  rw [List.mem_singleton.mp hx] at haddr hlow hhigh
  simp only [Field.at, Field.addr, Nat.mul_zero, Nat.add_zero] at haddr hlow hhigh
  refine ⟨_, List.mem_singleton.mpr rfl, ?_, Nat.zero_le _, ?_⟩
  · simp only [Field.word, Field.addr, Nat.mul_zero, Nat.add_zero, ← haddr, hbase, hstride]
  · exact Nat.lt_of_lt_of_le hhigh (hwidth.trans (Nat.le_add_left _ _))

namespace PortMoves

variable {p : Nat}

theorem refl (gs : List Field) (p : Nat) (s : State) : PortMoves gs p s s := ⟨rfl, fun _ _ => rfl, RegsKept.refl s⟩

theorem mono (h : PortMoves gs p s t) (hsub : gs ⊆ hs) : PortMoves hs p s t :=
  ⟨h.rest, h.others, h.kept.mono (List.map_subset _ hsub)⟩

theorem trans (h : PortMoves gs p s t) (k : PortMoves hs p t u) : PortMoves (gs ++ hs) p s u := by
  have h' : PortMoves (gs ++ hs) p s t := h.mono (List.subset_append_left _ _)
  have k' : PortMoves (gs ++ hs) p t u := k.mono (List.subset_append_right _ _)
  exact ⟨by rw [k'.rest, h'.rest], fun q hq => (k'.others q hq).trans (h'.others q hq), h'.kept.trans k'.kept⟩

theorem modPort (h : PortMoves gs p s t) (g : PortX → PortX) : PortMoves gs p s (t.modPort p g) :=
  ⟨h.rest ▸ rfl, fun q hq => (State.portX_modPort_other _ _ hq).trans (h.others q hq), h.kept.trans (RegsKept.of_regs rfl)⟩

theorem chip (h : PortMoves gs p s t) : t.chip = s.chip := by rw [h.rest]

/-- Fields that lie in the receiver's registers, or among others that are named, are what `PortOnly` speaks of. -/
theorem portOnly (h : PortMoves gs p s t) (extra : List Field)
    (hgs : gs.all (fun g => decide (g ∈ extra) || receiverRegs.any (liesIn g)) = true) :
    PortOnly p (placesAt extra p) s t := by
  refine ⟨h.rest, h.others, h.kept.trans' fun a b hin => ?_⟩
  obtain ⟨x, hx, hbit⟩ := hin
  obtain ⟨g, hg, rfl⟩ := List.mem_map.mp hx
  have hplace := List.all_eq_true.mp hgs g hg
  simp only [Bool.or_eq_true, decide_eq_true_eq, List.any_eq_true] at hplace
  rcases hplace with hextra | ⟨r, hr, hlies⟩
  · exact ⟨_, List.mem_append_right _ (at_mem_placesAt hextra p), hbit⟩
  · obtain ⟨y, hy, hword⟩ := inFields_word_of_liesIn (p := p) hlies ⟨_, List.mem_singleton.mpr rfl, hbit⟩
    rw [List.mem_singleton.mp hy] at hword
    refine ⟨_, List.mem_append_left _ ?_, hword⟩
    rw [receiverFields_eq]
    exact List.mem_map_of_mem (f := fun r => r.word p) hr

/-- A field that shares no bit with those that move reads as before. -/
theorem get {p : Fin 16} (h : PortMoves gs p s t) (f : Field) (hf : gs.all (fun g => separate g f) = true) :
    t.get f p = s.get f p := h.kept.get_separate f hf

theorem on {p : Fin 16} (h : PortMoves gs p s t) (f : Field) (hf : gs.all (fun g => separate g f) = true) :
    t.on f p = s.on f p := congrArg (· != 0) (h.get f hf)

end PortMoves

theorem PortOnly.moves {p : Nat} {fs : List (Nat × Nat × Nat)} (h : PortOnly p fs s t) (hkept : RegsKept (placesAt gs p) s t) :
    PortMoves gs p s t := ⟨h.1, h.2.1, hkept⟩

theorem put_moves (s : State) (f : Field) (v p : Nat) : PortMoves [f] p s (s.put f v p) :=
  ⟨rfl, fun _ _ => rfl, regsKept_put (List.mem_singleton.mpr rfl)⟩

theorem raiseBit_moves (s : State) (f : Field) (p : Nat) : PortMoves [f] p s (s.raiseBit f p) := put_moves s f 1 p

/-! ### The recovered clock, its reference candidate and loss of signal (R250, R263, R268, R276) -/

section
variable (s : State) (p : Nat)

def candFields : List Field := [F.TG_REF_STAT_ACTIVE] ++ [F.TG_REF_FREQ]
def rclkFields : List Field := [F.LP_STATUS_RCLK_VALID] ++ candFields
def losFields : List Field := [F.LP_STATUS_LOS_RAW] ++ [F.LP_EVENT_LOS_ROSE]

theorem candFollow_moves (valid : Bool) : PortMoves candFields p s (candFollow s p valid) := by
  refine ((PortOnly.refl p [] s).candFollow valid).moves ?_
  unfold candFollow
  split
  · exact RegsKept.refl s
  · split
    · exact ((put_moves s _ _ p).trans (put_moves _ _ _ p)).kept.trans (RegsKept.of_regs rfl)
    · exact ((put_moves s _ _ p).mono (List.subset_append_left _ _)).kept

theorem refreshRclk_moves : PortMoves rclkFields p s (refreshRclk s p) := (put_moves _ _ _ _).trans (candFollow_moves _ _ _)

theorem refreshTxdis_moves : PortMoves [F.LP_STATUS_MOD_TXDIS] p s (refreshTxdis s p) := put_moves _ _ _ _

theorem refreshLos_moves : PortMoves losFields p s (refreshLos s p) := by
  unfold refreshLos
  dsimp only
  split
  · exact (put_moves _ _ _ _).trans (raiseBit_moves _ _ _)
  · exact (put_moves _ _ _ _).mono (List.subset_append_left _ _)

end

/-- RCLK_VALID as R268 forms it. -/
def rclkDue (s : State) (p : Nat) : Bool :=
  portRunning s p && s.on F.LP_STATUS_CDR_LOCK p && s.on F.LP_STATUS_CODE_SYNC p && s.get F.LP_CTRL_LOOPBACK p != 1

section
variable (s : State) (p : Fin 16)

theorem candFollow_active (valid : Bool) : (candFollow s p valid).get F.TG_REF_STAT_ACTIVE p = b2n valid := by
  have hput (v : Nat) (hv : v < 2) : (s.put F.TG_REF_STAT_ACTIVE v p).get F.TG_REF_STAT_ACTIVE p = v :=
    get_put_same s _ _ (by decide) hv
  unfold candFollow
  split
  next h => rw [← b2n_on rfl, beq_iff_eq.mp h]
  next h =>
    cases valid
    · exact hput 0 (by decide)
    · exact ((put_moves _ F.TG_REF_FREQ _ p).get F.TG_REF_STAT_ACTIVE (by decide)).trans (hput 1 (by decide))

theorem refreshRclk_active : (refreshRclk s p).get F.TG_REF_STAT_ACTIVE p = b2n (rclkDue s p) := candFollow_active _ _ _

theorem refreshRclk_valid : (refreshRclk s p).get F.LP_STATUS_RCLK_VALID p = b2n (rclkDue s p) :=
  ((candFollow_moves _ _ _).get _ (by decide)).trans (State.get_put_bit _ _ _ _ _ (by decide) (by decide))

theorem refreshTxdis_txdis : (refreshTxdis s p).get F.LP_STATUS_MOD_TXDIS p =
    if portRunning s p then s.get F.LP_CTRL_TXDIS_FORCE p else 1 := by
  refine get_put_same s _ _ (by decide) ?_
  split
  · exact State.get_lt s F.LP_CTRL_TXDIS_FORCE p 0
  · decide

theorem refreshLos_raw : (refreshLos s p).get F.LP_STATUS_LOS_RAW p = b2n (losRaw s p) := by
  have hput := State.get_put_bit s F.LP_STATUS_LOS_RAW (losRaw s p) p 0 (by decide) (by decide)
  unfold refreshLos
  dsimp only
  split
  · exact ((raiseBit_moves _ _ _).get _ (by decide)).trans hput
  · exact hput

theorem refreshLos_rose : (refreshLos s p).get F.LP_EVENT_LOS_ROSE p =
    if losRaw s p && !s.on F.LP_STATUS_LOS_RAW p then 1 else s.get F.LP_EVENT_LOS_ROSE p := by
  unfold refreshLos
  dsimp only
  split
  · exact State.get_raiseBit _ _ _ _ (by decide) (by decide)
  · exact (put_moves _ _ _ _).get _ (by decide)

end

section
variable (s : State) (p : Nat)

theorem candFollow_port (valid : Bool) : (candFollow s p valid).port = s.port := by
  unfold candFollow
  split
  · rfl
  · split <;> rfl

theorem refreshRclk_port : (refreshRclk s p).port = s.port := candFollow_port _ _ _

theorem refreshLos_port : (refreshLos s p).port = s.port := by
  unfold refreshLos
  dsimp only
  split <;> rfl

end

/-! ### Management messages and the frame finder (R293, R297, Tables 8.5, 8.6) -/

def dropFields : List Field := [F.LF_MC_CNT_DROPS, F.LF_PEVENT_MC_DROP]
def oomFields : List Field := [F.LF_PEVENT_IM_LOST, F.LF_PSTATUS_IM, F.LF_RX_NUM_F_VALID]
def huntFields : List Field :=
  [F.LF_PSTATUS_FSTATE] ++ [F.LF_PSTATUS_E] ++ ([F.LF_FRAMING_CNT_OOF_EVENTS] ++ [F.LF_PEVENT_OOF] ++ [F.LF_RX_PHASE_VALID] ++ oomFields ++ dropFields)

section
variable (s : State) (p : Nat)

theorem mcDiscard_moves : PortMoves dropFields p s (mcDiscard s p) := (PortOnly.refl p [] s).mcDiscard.moves (mcDiscard_kept s p)

theorem toOom_moves : PortMoves oomFields p s (toOom s p) := (PortOnly.refl p [] s).toOom.moves (toOom_kept s p)

theorem portX_mcDiscard : (mcDiscard s p).portX p = { s.portX p with mcRx := none } := by
  unfold mcDiscard
  split
  next h => rw [← h]
  next => exact State.portX_modPort s p fun x => { x with mcRx := none }

theorem finderHunt_moves (counted : Bool) : PortMoves huntFields p s (finderHunt s p counted) := by
  have hcount (u : State) : PortMoves ([F.LF_FRAMING_CNT_OOF_EVENTS] ++ [F.LF_PEVENT_OOF]) p u
      (if counted then (u.bumpSat F.LF_FRAMING_CNT_OOF_EVENTS 1 p).raiseBit F.LF_PEVENT_OOF p else u) := by
    split
    · exact (put_moves _ _ _ _).trans (raiseBit_moves _ _ _)
    · exact PortMoves.refl _ _ _
  have hstate := (put_moves s F.LF_PSTATUS_FSTATE 0 p).trans (put_moves _ F.LF_PSTATUS_E 0 p)
  unfold finderHunt
  dsimp only
  split
  · exact hstate.trans (((((hcount _).trans (put_moves _ _ _ _)).trans (toOom_moves _ _)).trans (mcDiscard_moves _ _)).modPort _)
  · exact hstate.mono (List.subset_append_left _ _)

end

theorem finderHunt_fstate (s : State) (p : Fin 16) (counted : Bool) : (finderHunt s p counted).get F.LF_PSTATUS_FSTATE p = 0 := by
  have hput : ((s.put F.LF_PSTATUS_FSTATE 0 p).put F.LF_PSTATUS_E 0 p).get F.LF_PSTATUS_FSTATE p = 0 :=
    ((put_moves _ _ _ _).get _ (by decide)).trans (get_put_same _ _ _ (by decide) (by decide))
  unfold finderHunt
  dsimp only
  split
  · rw [State.modPort_get, (mcDiscard_moves _ _).get _ (by decide), (toOom_moves _ _).get _ (by decide),
      (put_moves _ _ _ _).get _ (by decide)]
    split
    · rw [(raiseBit_moves _ _ _).get _ (by decide), get_bumpSat_apart _ _ _ (by decide), hput]
    · exact hput
  · exact hput

/-! ### CODE_SYNC falls (R247) -/

def syncFields : List Field := [F.LP_STATUS_CODE_SYNC] ++ [F.LP_EVENT_SYNC_LOST] ++ huntFields ++ rclkFields

/-- CODE_SYNC has fallen and the finder is in HUNT; the recovered clock is still to follow. -/
def syncFallen (s : State) (p : Nat) : State :=
  (finderHunt ((s.put F.LP_STATUS_CODE_SYNC 0 p).raiseBit F.LP_EVENT_SYNC_LOST p) p true).modPort p fun x =>
    { x with loopTicks := 0, rxCode := { x.rxCode with sync := 0, lock := false, heads := 0, badHeads := 0 } }

theorem syncLost_of_sync {p : Nat} (h : s.on F.LP_STATUS_CODE_SYNC p = true) : syncLost s p = refreshRclk (syncFallen s p) p :=
  if_pos h

theorem syncLost_of_no_sync {p : Nat} (h : s.on F.LP_STATUS_CODE_SYNC p = false) : syncLost s p = s := by
  simp [syncLost, h]

theorem syncFallen_moves (s : State) (p : Nat) :
    PortMoves ([F.LP_STATUS_CODE_SYNC] ++ [F.LP_EVENT_SYNC_LOST] ++ huntFields) p s (syncFallen s p) :=
  (((put_moves _ _ _ _).trans (raiseBit_moves _ _ _)).trans (finderHunt_moves _ _ _)).modPort _

theorem syncLost_moves (s : State) (p : Nat) : PortMoves syncFields p s (syncLost s p) := by
  cases h : s.on F.LP_STATUS_CODE_SYNC p with
  | true =>
    rw [syncLost_of_sync h]
    exact (syncFallen_moves s p).trans (refreshRclk_moves _ _)
  | false =>
    rw [syncLost_of_no_sync h]
    exact PortMoves.refl _ _ _

section
variable (s : State) (p : Fin 16)

theorem syncFallen_sync : (syncFallen s p).get F.LP_STATUS_CODE_SYNC p = 0 := by
  rw [syncFallen, State.modPort_get, (finderHunt_moves _ _ _).get _ (by decide), (raiseBit_moves _ _ _).get _ (by decide)]
  exact get_put_same _ _ _ (by decide) (by decide)

theorem syncLost_sync : (syncLost s p).get F.LP_STATUS_CODE_SYNC p = 0 := by
  cases h : s.on F.LP_STATUS_CODE_SYNC p with
  | true => rw [syncLost_of_sync h, (refreshRclk_moves _ _).get _ (by decide), syncFallen_sync]
  | false =>
    rw [syncLost_of_no_sync h]
    simpa [State.on] using h

end

/-- A port whose finder hunts, or whose CODE_SYNC falls, hunts after it. -/
theorem syncLost_fstate {p : Fin 16} (h : s.on F.LP_STATUS_CODE_SYNC p = true ∨ s.get F.LF_PSTATUS_FSTATE p = 0) :
    (syncLost s p).get F.LF_PSTATUS_FSTATE p = 0 := by
  cases hsync : s.on F.LP_STATUS_CODE_SYNC p with
  | true =>
    rw [syncLost_of_sync hsync, (refreshRclk_moves _ _).get _ (by decide)]
    exact finderHunt_fstate _ _ _
  | false =>
    rw [syncLost_of_no_sync hsync]
    exact h.resolve_left (by simp [hsync])

/-! ### CDR_LOCK falls (R252, R262, R268) -/

def fallbackFields : List Field := [F.LP_STATUS_LOOP_FALLBACK] ++ [F.LP_EVENT_LOOP_FALLBACK] ++ dropFields
def eyeFields : List Field := [F.LP_EYE_BITS] ++ [F.LP_EYE_ERR] ++ [F.LP_STATUS_EYE_BUSY] ++ [F.LP_EVENT_EYE_DONE]
def scanFields : List Field := eyeFields ++ [F.LP_STATUS_EYE_ABORTED]
def lockFields : List Field := [F.LP_STATUS_CDR_LOCK] ++ [F.LP_EVENT_CDR_LOST] ++ []
def clockFields : List Field := lockFields ++ fallbackFields
def cdrFields : List Field := clockFields ++ scanFields ++ rclkFields

/-- CDR_LOCK has fallen, the transmitter as it was. -/
def lockFallen (s : State) (p : Nat) : State :=
  (copiesCut ((s.put F.LP_STATUS_CDR_LOCK 0 p).raiseBit F.LP_EVENT_CDR_LOST p) p).modPort p fun x => { x with loopTicks := 0 }

/-- CDR_LOCK has fallen, and a loop-timed transmitter has fallen back. -/
def clockFallen (s : State) (p : Nat) : State := loopFallback (lockFallen s p) p

/-- A scan that runs ends, aborted (R262). -/
def scanCut (s : State) (p : Nat) : State :=
  if s.on F.LP_STATUS_EYE_BUSY p then (eyeEnd s p (s.portX p).eyeBits (s.portX p).eyeErrs).put F.LP_STATUS_EYE_ABORTED 1 p else s

theorem cdrLost_of_lock {p : Nat} (h : s.on F.LP_STATUS_CDR_LOCK p = true) :
    cdrLost s p = refreshRclk (scanCut (clockFallen s p) p) p := if_pos h

theorem cdrLost_of_no_lock {p : Nat} (h : s.on F.LP_STATUS_CDR_LOCK p = false) : cdrLost s p = s := by simp [cdrLost, h]

section
variable (s : State) (p : Nat)

theorem copiesCut_moves : PortMoves gs p s (copiesCut s p) := ⟨rfl, fun _ _ => rfl, RegsKept.of_regs rfl⟩

theorem txRestart_moves : PortMoves dropFields p s (txRestart s p) :=
  ((PortMoves.refl [] p s).modPort _).trans (mcDiscard_moves _ _)

theorem portX_txRestart : (txRestart s p).portX p = { s.portX p with txFresh := true, mcTx := none, mcRx := none } := by
  rw [txRestart, portX_mcDiscard, State.portX_modPort]

theorem loopFallback_moves : PortMoves fallbackFields p s (loopFallback s p) := by
  unfold loopFallback
  split
  · exact ((put_moves _ _ _ _).trans (raiseBit_moves _ _ _)).trans (txRestart_moves _ _)
  · exact PortMoves.refl _ _ _

theorem eyeEnd_moves (bits errs : Nat) : PortMoves eyeFields p s (eyeEnd s p bits errs) :=
  (((put_moves _ _ _ _).trans (put_moves _ _ _ _)).trans (put_moves _ _ _ _)).trans (raiseBit_moves _ _ _)

theorem scanCut_moves : PortMoves scanFields p s (scanCut s p) := by
  unfold scanCut
  split
  · exact (eyeEnd_moves _ _ _ _).trans (put_moves _ _ _ _)
  · exact PortMoves.refl _ _ _

theorem lockFallen_moves : PortMoves lockFields p s (lockFallen s p) :=
  (((put_moves _ _ _ _).trans (raiseBit_moves _ _ _)).trans (copiesCut_moves _ _)).modPort _

theorem clockFallen_moves : PortMoves clockFields p s (clockFallen s p) := (lockFallen_moves _ _).trans (loopFallback_moves _ _)

theorem cdrLost_moves : PortMoves cdrFields p s (cdrLost s p) := by
  cases h : s.on F.LP_STATUS_CDR_LOCK p with
  | true =>
    rw [cdrLost_of_lock h]
    exact ((clockFallen_moves _ _).trans (scanCut_moves _ _)).trans (refreshRclk_moves _ _)
  | false =>
    rw [cdrLost_of_no_lock h]
    exact PortMoves.refl _ _ _

theorem receiverDisturbed_moves : PortMoves (cdrFields ++ syncFields) p s (receiverDisturbed s p) :=
  (cdrLost_moves _ _).trans (syncLost_moves _ _)

end

section
variable (s : State) (p : Fin 16)

theorem lockFallen_lost :
    (lockFallen s p).get F.LP_STATUS_CDR_LOCK p = 0 ∧ (lockFallen s p).get F.LP_EVENT_CDR_LOST p = 1 := by
  rw [lockFallen, State.modPort_get, State.modPort_get, (copiesCut_moves (gs := []) _ _).get _ (by decide),
    (copiesCut_moves (gs := []) _ _).get _ (by decide), (raiseBit_moves _ _ _).get _ (by decide)]
  exact ⟨get_put_same _ _ _ (by decide) (by decide), State.get_raiseBit _ _ _ _ (by decide) (by decide)⟩

theorem clockFallen_lost :
    (clockFallen s p).get F.LP_STATUS_CDR_LOCK p = 0 ∧ (clockFallen s p).get F.LP_EVENT_CDR_LOST p = 1 := by
  rw [clockFallen, (loopFallback_moves _ _).get _ (by decide), (loopFallback_moves _ _).get _ (by decide)]
  exact lockFallen_lost s p

theorem cdrLost_lock : (cdrLost s p).get F.LP_STATUS_CDR_LOCK p = 0 := by
  cases h : s.on F.LP_STATUS_CDR_LOCK p with
  | true =>
    rw [cdrLost_of_lock h, (refreshRclk_moves _ _).get _ (by decide), (scanCut_moves _ _).get _ (by decide),
      (clockFallen_lost s p).1]
  | false =>
    rw [cdrLost_of_no_lock h]
    simpa [State.on] using h

theorem receiverDisturbed_lock : (receiverDisturbed s p).get F.LP_STATUS_CDR_LOCK p = 0 :=
  ((syncLost_moves _ _).get _ (by decide)).trans (cdrLost_lock s p)

theorem receiverDisturbed_sync : (receiverDisturbed s p).get F.LP_STATUS_CODE_SYNC p = 0 := syncLost_sync _ _

end

/-! ### The PRBS checker and the host transfer (R257, R265, R270, R273) -/

def prbsDropFields : List Field := [F.LP_STATUS_PRBS_LOCK] ++ [F.LP_EVENT_PRBS_LOST]
def modEndFields : List Field := [F.LP_MOD_STAT_BUSY] ++ [F.LP_MOD_STAT_RESULT] ++ [F.LP_EVENT_MOD_DONE] ++ [F.LP_EVENT_MOD_ERR]

section
variable (s : State) (p : Nat)

theorem prbsDrop_moves : PortMoves prbsDropFields p s (prbsDrop s p) := by
  have hchk := (PortMoves.refl [] p s).modPort fun x => { x with chk := {} }
  unfold prbsDrop
  dsimp only
  split
  · exact (hchk.trans (put_moves _ _ _ _)).trans (raiseBit_moves _ _ _)
  · exact hchk.mono (List.nil_subset _)

theorem modEnd_moves (result : Nat) : PortMoves modEndFields p s (modEnd s p result) := by
  have hended := ((put_moves s F.LP_MOD_STAT_BUSY 0 p).trans (put_moves _ F.LP_MOD_STAT_RESULT result p)).trans
    (raiseBit_moves _ F.LP_EVENT_MOD_DONE p)
  unfold modEnd
  dsimp only
  split
  · exact (hended.modPort _).mono (List.subset_append_left _ _)
  · exact (hended.trans (raiseBit_moves _ _ _)).modPort _

theorem modAbandon_moves : PortMoves modEndFields p s (modAbandon s p) := by
  unfold modAbandon
  dsimp only
  split
  · exact PortMoves.refl _ _ _
  · exact (modEnd_moves _ _ _).modPort _

theorem portX_modEnd (result : Nat) : (modEnd s p result).portX p = { s.portX p with modXfer := none, modWait := false } := by
  unfold modEnd
  dsimp only
  rw [State.portX_modPort]
  split <;> rfl

theorem modAbandon_modXfer : ((modAbandon s p).portX p).modXfer = none := by
  unfold modAbandon
  dsimp only
  split
  next h => exact Option.isNone_iff_eq_none.mp h
  next => rw [State.portX_modPort, portX_modEnd]

end

theorem prbsDrop_lock (s : State) (p : Fin 16) : (prbsDrop s p).get F.LP_STATUS_PRBS_LOCK p = 0 := by
  unfold prbsDrop
  dsimp only
  split
  · exact ((raiseBit_moves _ _ _).get _ (by decide)).trans (get_put_same _ _ _ (by decide) (by decide))
  next h => simpa [State.on] using h

end Sys2Proof.Machine
end

section
/-!
PROOFS. Writes of the registers of block LP (R182, R248, R255, R259, R261, R265, R266): what the register table says of them, and
LP_CTRL[p] written with one of its fields changed.
-/
namespace Sys2Proof.Machine

variable {s u : State}

/-! ### The registers in the table (R269) -/

/-- What the register table says of one RW or WO register of the 16 ports, from a check of it that evaluates. -/
theorem specAt_port {f : Field} {rw : Nat} {lock : Bool}
    (h : ∀ p : Fin 16, (specAt (f.addr p)).any (fun r => r.rw == rw && r.w1c == 0 && r.otp == 0 && r.lock == lock) = true)
    (p : Fin 16) : ∃ r, specAt (f.addr p) = some r ∧ r.rw = rw ∧ r.w1c = 0 ∧ r.otp = 0 ∧ r.lock = lock := by
  obtain ⟨r, hspec, hr⟩ := specAt_of_any (h p)
  simp only [Bool.and_eq_true, beq_iff_eq, and_assoc] at hr
  exact ⟨r, hspec, hr⟩

theorem specAt_lpCtrl (p : Fin 16) : ∃ r, specAt (F.LP_CTRL.addr p) = some r ∧ r.rw = 0xF377 ∧ r.w1c = 0 ∧ r.otp = 0 ∧
    r.lock = true := specAt_port (by decide +kernel) p

theorem specAt_lpCmd (p : Fin 16) : ∃ r, specAt (F.LP_CMD.addr p) = some r ∧ r.rw = 0 ∧ r.w1c = 0 ∧ r.otp = 0 ∧
    r.lock = false := specAt_port (by decide +kernel) p

theorem specAt_modCfg (p : Fin 16) : ∃ r, specAt (F.LP_MOD_CFG.addr p) = some r ∧ r.rw = 0xFF03 ∧ r.w1c = 0 ∧ r.otp = 0 ∧
    r.lock = true := specAt_port (by decide +kernel) p

theorem specAt_modCmd (p : Fin 16) : ∃ r, specAt (F.LP_MOD_CMD.addr p) = some r ∧ r.rw = 0 ∧ r.w1c = 0 ∧ r.otp = 0 ∧
    r.lock = false := specAt_port (by decide +kernel) p

theorem lockBlock_lpCtrl (p : Fin 16) : lockBlock (F.LP_CTRL.addr p) = 3 := by
  revert p
  decide

theorem lockBlock_modCfg (p : Fin 16) : lockBlock (F.LP_MOD_CFG.addr p) = 3 := by
  revert p
  decide

/-- Which register of which port an address of block LP names. -/
theorem lpAddr_split {f : Field} {off : Nat} (hf : f.base = 0x40030000 + off ∧ f.s1 = 0x100) (hoff : off < 0x100) (p : Nat) :
    f.addr p % 0x100 = off ∧ (f.addr p - 0x40030000) / 0x100 = p := by
  obtain ⟨hbase, hstride⟩ := hf
  simp only [Field.addr, hbase, hstride]
  omega

/-! ### One field of a register written over -/

theorem get_word (s : State) {f : Field} (hf : f.lo = 0 ∧ f.w = 32) (p : Nat) : s.get f p = (s.reg (f.addr p)).toNat := by
  obtain ⟨hlo, hw⟩ := hf
  rw [State.get, bitsOf, hlo, hw, Nat.pow_zero, Nat.div_one, Nat.mod_eq_of_lt (s.reg _).isLt]

/-- A register written with one of its RW fields changed and all else as it stands: only that field is written. -/
theorem storeWord_insertBits {f g : Field} {p : Nat} {r : RegSpec} (hg : g.lo = 0 ∧ g.w = 32) (hspec : specAt (g.addr p) = some r)
    (hw1c : r.w1c = 0) (haddr : f.addr p = g.addr p)
    (hrw : ∀ b < f.w, r.rw.testBit (b + f.lo) = true) (s : State) (x : Nat) :
    storeWord s (g.addr p) (insertBits (s.get g p) f.lo f.w x) = s.put f x p := by
  rw [storeWord_eq s _ hspec, State.put, haddr, get_word s hg]
  refine congrArg (s.setReg _) (BitVec.eq_of_getLsbD_eq fun b hb => ?_)
  rw [BitVec.getLsbD_ofNat, BitVec.getLsbD_ofNat, testBit_mergeWrite _ _ _ hb hw1c]
  split
  · rfl
  next hro =>
    rw [State.testBit_insertBits, if_neg]
    rintro ⟨hlow, hhigh⟩
    have hbit := hrw (b - f.lo) (by omega)
    rw [Nat.sub_add_cancel hlow] at hbit
    exact hro hbit

/-! ### Writes that the table takes up in no bit: LP_CMD and LP_MOD_CMD -/

/-- A write that stores nothing is what it sets off. -/
theorem writeLp_trigger {f : Field} {p v : Nat} {r : RegSpec} (hspec : specAt (f.addr p) = some r) (hrw : r.rw = 0) (hw1c : r.w1c = 0)
    (hotp : r.otp = 0) (hlock : r.lock = false) (hjudge : judgeLp s (f.addr p) v = St.ok) :
    ∃ u old, Only [] s u ∧ writeLp s f p v = hookLp (f.addr p) v old u := by
  refine ⟨storeWord s (f.addr p) v, (s.reg (f.addr p)).toNat, storeWord_kept_only s hspec hrw (by rw [hw1c, Nat.zero_and]), ?_⟩
  exact writeBy_ok hspec (by rw [hlock, Bool.false_and]) hjudge hotp

theorem hookLp_cmd (p v old : Nat) (s : State) : hookLp (F.LP_CMD.addr p) v old s = hookLpCmd p v s := by
  obtain ⟨hoff, hport⟩ := lpAddr_split (f := F.LP_CMD) (off := 0x10) (by decide) (by decide) p
  simp only [hookLp, hoff, hport]

theorem hookLp_modCmd (p v old : Nat) (s : State) : hookLp (F.LP_MOD_CMD.addr p) v old s = hookModCmd p v s := by
  obtain ⟨hoff, hport⟩ := lpAddr_split (f := F.LP_MOD_CMD) (off := 0x44) (by decide) (by decide) p
  simp only [hookLp, hoff, hport]

theorem judgeLp_cmd (s : State) (p v : Nat) (h : bitOf v 3 = true → s.on F.LP_STATUS_EYE_BUSY p = false ∧ s.on F.LP_STATUS_CDR_LOCK p = true) :
    judgeLp s (F.LP_CMD.addr p) v = St.ok := by
  obtain ⟨hoff, hport⟩ := lpAddr_split (f := F.LP_CMD) (off := 0x10) (by decide) (by decide) p
  simp only [judgeLp, hoff, hport]
  cases hbit : bitOf v 3 with
  | false => rfl
  | true =>
    obtain ⟨hbusy, hlock⟩ := h hbit
    simp [rangeIf, hbusy, hlock]

/-- The triggers of LP_CMD[p] act on a state that reads as the one before the write. -/
theorem writeLp_cmd (p : Fin 16) {v : Nat}
    (h : bitOf v 3 = true → s.on F.LP_STATUS_EYE_BUSY p = false ∧ s.on F.LP_STATUS_CDR_LOCK p = true) :
    ∃ u, Only [] s u ∧ writeLp s F.LP_CMD p v = hookLpCmd p v u := by
  obtain ⟨r, hspec, hrw, hw1c, hotp, hlock⟩ := specAt_lpCmd p
  obtain ⟨u, old, hsame, hwrite⟩ := writeLp_trigger hspec hrw hw1c hotp hlock (judgeLp_cmd s p v h)
  exact ⟨u, hsame, hwrite.trans (hookLp_cmd p v old u)⟩

/-! ### LP_CTRL[p] written -/

/-- MOD_TXDIS, LOS_RAW and RCLK_VALID formed anew. -/
def formed (s : State) (p : Nat) : State := refreshRclk (refreshLos (refreshTxdis s p) p) p

/-- With TX_TIMING 0 no fallback stands (R252). -/
def timingTaken (v p : Nat) (s : State) : State := if bitsOf v 4 1 == 0 then s.put F.LP_STATUS_LOOP_FALLBACK 0 p else s

/-- What RX_INV and LOOPBACK do to a RUNNING port's receiver (R255, R259, R273). -/
def receiverTurned (p v old : Nat) (s : State) : State :=
  let s := if bitsOf v 6 1 != bitsOf old 6 1 then prbsDrop (syncLost s p) p else s
  let s := if (bitsOf v 8 2 == 1) != (bitsOf old 8 2 == 1) then receiverDisturbed s p else s
  if bitsOf old 8 2 == 2 && bitsOf v 8 2 != 2 then loopFallback s p else s

/-- What EN 0 does to the port: a DISABLED one only gives a host transfer up (R248, R270). -/
def portShut (s : State) (p : Nat) : State :=
  if s.get F.LP_STATUS_STATE p = 0 then modAbandon s p else portToDisabled s p

/-- What EN does to the port's state (R248). -/
def enTaken (v p : Nat) (s : State) : State :=
  if bitsOf v 0 1 == 0 then portShut s p
  else if s.get F.LP_STATUS_STATE p = 0 then portToStarting s p else s

/-- The receiver's part, in a port that runs. -/
def turnedIfRunning (p v old : Nat) (s : State) : State := if portRunning s p then receiverTurned p v old s else s

/-- With RATE and TX_TIMING as they were. -/
theorem hookLpCtrl_eq {p v old : Nat} (hrate : bitsOf v 1 2 = bitsOf old 1 2) (htiming : bitsOf v 4 1 = bitsOf old 4 1) (s : State) :
    hookLpCtrl p v old s = formed (timingTaken v p (turnedIfRunning p v old (enTaken v p s))) p := by
  have hrate' : (bitsOf v 1 2 != bitsOf old 1 2) = false := by simp [hrate]
  have htiming' : (bitsOf v 4 1 != bitsOf old 4 1) = false := by simp [htiming]
  simp only [hookLpCtrl, hrate', htiming', Bool.and_false, Bool.false_eq_true, if_false]
  rfl

/-- A field of LP_CTRL that a write takes up and that is neither RATE nor TX_TIMING. -/
def plainCtrl (f : Field) : Bool :=
  f.base == 0x40030000 && f.s1 == 0x100 && (List.range f.w).all (fun b => Nat.testBit 0xF377 (b + f.lo)) &&
    (Nat.ble (f.lo + f.w) 1 || Nat.ble 5 f.lo)

/-- The word of LP_CTRL[p] with one field changed. -/
def ctrlWord (s : State) (p : Nat) (f : Field) (x : Nat) : Nat := insertBits (s.get F.LP_CTRL p) f.lo f.w x

theorem ctrlWord_field (s : State) (p : Nat) (f : Field) (x : Nat) : bitsOf (ctrlWord s p f x) f.lo f.w = x % 2 ^ f.w :=
  State.bitsOf_insertBits _ _ _ _

theorem ctrlWord_other (s : State) (p : Nat) (f : Field) (x : Nat) {g : Field} (hg : g.base = 0x40030000 ∧ g.s1 = 0x100)
    (happart : g.lo + g.w ≤ f.lo ∨ f.lo + f.w ≤ g.lo) : bitsOf (ctrlWord s p f x) g.lo g.w = s.get g p := by
  obtain ⟨hbase, hstride⟩ := hg
  rw [ctrlWord, State.bitsOf_insertBits_disjoint _ _ _ _ _ _ happart, get_word s (f := F.LP_CTRL) (by decide), State.get]
  simp only [Field.addr, hbase, hstride, Nat.mul_zero]
  rfl

/-- One field of LP_CTRL[p] written by a command, its other fields as they stand. -/
theorem writeLp_ctrl {f : Field} {x : Nat} (p : Fin 16) (hf : plainCtrl f = true) (hfree : s.locked 3 = false)
    (hloop : bitsOf (ctrlWord s p f x) 8 2 ≠ 3) : writeLp s F.LP_CTRL p (ctrlWord s p f x) =
      formed (timingTaken (ctrlWord s p f x) p (turnedIfRunning p (ctrlWord s p f x) (s.get F.LP_CTRL p)
        (enTaken (ctrlWord s p f x) p (s.put f x p)))) p := by
  simp only [plainCtrl, Bool.and_eq_true, beq_iff_eq, Nat.ble_eq, List.all_eq_true, List.mem_range, Bool.or_eq_true] at hf
  obtain ⟨⟨⟨hbase, hstride⟩, hbits⟩, hplace⟩ := hf
  have hrate : bitsOf (ctrlWord s p f x) 1 2 = bitsOf (s.get F.LP_CTRL p) 1 2 :=
    State.bitsOf_insertBits_disjoint _ _ _ _ _ _ (by omega)
  have htiming : bitsOf (ctrlWord s p f x) 4 1 = bitsOf (s.get F.LP_CTRL p) 4 1 :=
    State.bitsOf_insertBits_disjoint _ _ _ _ _ _ (by omega)
  have hget : s.get F.LP_CTRL_RATE p = bitsOf (s.get F.LP_CTRL p) 1 2 := by
    rw [get_word s (f := F.LP_CTRL) (by decide)]
    rfl
  obtain ⟨hoff, hport⟩ := lpAddr_split (f := F.LP_CTRL) (off := 0) (by decide) (by decide) p
  have hjudge : judgeLp s (F.LP_CTRL.addr p) (ctrlWord s p f x) = St.ok := by
    simp [judgeLp, hoff, hport, hrate, hget, hloop, rangeIf]
  obtain ⟨r, hspec, hrw, hw1c, hotp, -⟩ := specAt_lpCtrl p
  have hstored : storeWord s (F.LP_CTRL.addr p) (ctrlWord s p f x) = s.put f x p :=
    storeWord_insertBits (by decide) hspec hw1c (by simp only [Field.addr, hbase, hstride, Nat.mul_zero]; rfl)
      (by rw [hrw]; exact hbits) s x
  have hwrite := writeBy_ok (hook := hookLp) hspec (by rw [lockBlock_lpCtrl, hfree, Bool.and_false]) hjudge hotp
  rw [hstored, ← get_word s (f := F.LP_CTRL) (by decide)] at hwrite
  refine hwrite.trans ?_
  simp only [hookLp, hoff, hport]
  exact hookLpCtrl_eq hrate htiming _

/-! ### What the forming of the levels leaves -/

def formedFields : List Field := [F.LP_STATUS_MOD_TXDIS] ++ losFields ++ rclkFields

section
variable (s : State) (v p : Nat)

theorem formed_moves : PortMoves formedFields p s (formed s p) :=
  ((refreshTxdis_moves _ _).trans (refreshLos_moves _ _)).trans (refreshRclk_moves _ _)

theorem timingTaken_fallback {p : Fin 16} (h : s.get F.LP_STATUS_LOOP_FALLBACK p = 0) :
    (timingTaken v p s).get F.LP_STATUS_LOOP_FALLBACK p = 0 := by
  unfold timingTaken
  split
  · exact get_put_same _ _ _ (by decide) (by decide)
  · exact h

theorem timingTaken_moves : PortMoves [F.LP_STATUS_LOOP_FALLBACK] p s (timingTaken v p s) := by
  unfold timingTaken
  split
  · exact put_moves _ _ _ _
  · exact PortMoves.refl _ _ _

/-- LP_CTRL's part that forms the levels, whatever state the port is in. -/
theorem controlled_moves : PortMoves ([F.LP_STATUS_LOOP_FALLBACK] ++ formedFields) p s (formed (timingTaken v p s) p) :=
  (timingTaken_moves _ _ _).trans (formed_moves _ _)

theorem portX_controlled (q : Nat) : (formed (timingTaken v p s) p).portX q = s.portX q := by
  have hport : (formed (timingTaken v p s) p).port = (timingTaken v p s).port := by
    rw [formed, refreshRclk_port, refreshLos_port]
    rfl
  rw [portX_of_port hport, timingTaken]
  split <;> rfl

end

section
variable (s : State) (p : Fin 16)

theorem rclkDue_levels : rclkDue (refreshLos (refreshTxdis s p) p) p = rclkDue s p := by
  have hmoves := (refreshTxdis_moves s p).trans (refreshLos_moves _ _)
  simp only [rclkDue, portRunning, hmoves.get F.LP_STATUS_STATE (by decide), hmoves.get F.LP_CTRL_LOOPBACK (by decide),
    hmoves.on F.LP_STATUS_CDR_LOCK (by decide), hmoves.on F.LP_STATUS_CODE_SYNC (by decide)]

theorem formed_rclk : (formed s p).get F.LP_STATUS_RCLK_VALID p = b2n (rclkDue s p) := by
  rw [formed, refreshRclk_valid, rclkDue_levels]

theorem formed_active : (formed s p).get F.TG_REF_STAT_ACTIVE p = b2n (rclkDue s p) := by
  rw [formed, refreshRclk_active, rclkDue_levels]

theorem formed_txdis : (formed s p).get F.LP_STATUS_MOD_TXDIS p =
    if portRunning s p then s.get F.LP_CTRL_TXDIS_FORCE p else 1 := by
  rw [formed, (refreshRclk_moves _ _).get _ (by decide), (refreshLos_moves _ _).get _ (by decide), refreshTxdis_txdis]

end

end Sys2Proof.Machine
end

section
/-!
PROOFS. The states of a line port: enabled, calibrated, failed, disabled (R248, R250, R270, Table 7.2).
-/
namespace Sys2Proof.Machine

variable {s : State}

/-! ### A port that leaves RUNNING (R270, R297) -/

def leaveFields : List Field := huntFields ++ dropFields ++ [F.LF_PSTATUS_LOF] ++ [F.LF_PSTATUS_LOM] ++ [F.LF_PSTATUS_INJ_BUSY]

theorem lfLeaveRunning_moves (s : State) (p : Nat) : PortMoves leaveFields p s (lfLeaveRunning s p) := by
  unfold lfLeaveRunning
  exact (((((finderHunt_moves s p false).trans (mcDiscard_moves _ _)).trans (put_moves _ _ _ _)).trans (put_moves _ _ _ _)).trans
    (put_moves _ _ _ _)).modPort _

section
variable (s : State) (p : Fin 16)

theorem lfLeaveRunning_fstate : (lfLeaveRunning s p).get F.LF_PSTATUS_FSTATE p = 0 := by
  rw [lfLeaveRunning, State.modPort_get, (put_moves _ _ _ _).get _ (by decide), (put_moves _ _ _ _).get _ (by decide),
    (put_moves _ _ _ _).get _ (by decide), (mcDiscard_moves _ _).get _ (by decide), finderHunt_fstate]

theorem lfLeaveRunning_lof : (lfLeaveRunning s p).get F.LF_PSTATUS_LOF p = 0 := by
  rw [lfLeaveRunning, State.modPort_get, (put_moves _ _ _ _).get _ (by decide), (put_moves _ _ _ _).get _ (by decide)]
  exact get_put_same _ _ _ (by decide) (by decide)

theorem lfLeaveRunning_lom : (lfLeaveRunning s p).get F.LF_PSTATUS_LOM p = 0 := by
  rw [lfLeaveRunning, State.modPort_get, (put_moves _ _ _ _).get _ (by decide)]
  exact get_put_same _ _ _ (by decide) (by decide)

end

/-- The receiver's measurements stop. -/
def measuringStopped (s : State) (p : Nat) : State :=
  ((s.put F.LP_STATUS_EYE_BUSY 0 p).put F.LP_STATUS_PRBS_LOCK 0 p).put F.LP_STATUS_HI_BER 0 p

/-- The receiver of a port that ran loses its stream. -/
def receiverLeft (s : State) (p : Nat) : State :=
  if portRunning s p then receiverDisturbed (lfLeaveRunning (measuringStopped s p) p) p else measuringStopped s p

/-- The port is DISABLED, its levels still to be formed. -/
def portIdle (s : State) (p : Nat) : State :=
  (modAbandon (((receiverLeft s p).put F.LP_STATUS_STATE 0 p).put F.LP_STATUS_LOOP_FALLBACK 0 p) p).modPort p fun x => { x with
    errInject := false, polling := false, pollDue := false, pollTicks := 0, txCode := [], txGroups := [], rxCode := {}, chk := {} }

theorem portToDisabled_eq (s : State) (p : Nat) : portToDisabled s p = refreshRclk (refreshTxdis (portIdle s p) p) p := rfl

def stoppedFields : List Field := [F.LP_STATUS_EYE_BUSY] ++ [F.LP_STATUS_PRBS_LOCK] ++ [F.LP_STATUS_HI_BER]
def leftFields : List Field := stoppedFields ++ (leaveFields ++ (cdrFields ++ syncFields))
def idleFields : List Field := leftFields ++ [F.LP_STATUS_STATE] ++ [F.LP_STATUS_LOOP_FALLBACK] ++ modEndFields
def shutFields : List Field := idleFields ++ ([F.LP_STATUS_MOD_TXDIS] ++ rclkFields)

section
variable (s : State) (p : Nat)

theorem measuringStopped_moves : PortMoves stoppedFields p s (measuringStopped s p) :=
  ((put_moves _ _ _ _).trans (put_moves _ _ _ _)).trans (put_moves _ _ _ _)

theorem receiverLeft_moves : PortMoves leftFields p s (receiverLeft s p) := by
  have hstopped := measuringStopped_moves s p
  unfold receiverLeft
  split
  · exact hstopped.trans ((lfLeaveRunning_moves _ _).trans (receiverDisturbed_moves _ _))
  · exact hstopped.mono (List.subset_append_left _ _)

theorem portIdle_moves : PortMoves idleFields p s (portIdle s p) :=
  ((((receiverLeft_moves s p).trans (put_moves _ _ _ _)).trans (put_moves _ _ _ _)).trans (modAbandon_moves _ _)).modPort _

theorem formedIdle_moves : PortMoves ([F.LP_STATUS_MOD_TXDIS] ++ rclkFields) p s (refreshRclk (refreshTxdis s p) p) :=
  (refreshTxdis_moves _ _).trans (refreshRclk_moves _ _)

theorem portShut_moves : PortMoves shutFields p s (portShut s p) := by
  unfold portShut
  split
  · refine ((modAbandon_moves s p).mono ?_)
    exact List.Subset.trans (List.subset_append_right _ _) (List.subset_append_left _ _)
  · rw [portToDisabled_eq]
    exact (portIdle_moves _ _).trans (formedIdle_moves _ _)

end

section
variable (s : State) (p : Fin 16)

theorem portIdle_state : (portIdle s p).get F.LP_STATUS_STATE p = 0 := by
  rw [portIdle, State.modPort_get, (modAbandon_moves _ _).get _ (by decide), (put_moves _ _ _ _).get _ (by decide)]
  exact get_put_same _ _ _ (by decide) (by decide)

theorem portShut_state : (portShut s p).get F.LP_STATUS_STATE p = 0 := by
  unfold portShut
  split
  next h => rw [(modAbandon_moves _ _).get _ (by decide), h]
  next => rw [portToDisabled_eq, (formedIdle_moves _ _).get _ (by decide), portIdle_state]

theorem portIdle_fallback : (portIdle s p).get F.LP_STATUS_LOOP_FALLBACK p = 0 := by
  rw [portIdle, State.modPort_get, (modAbandon_moves _ _).get _ (by decide)]
  exact get_put_same _ _ _ (by decide) (by decide)

theorem portIdle_modXfer : ((portIdle s p).portX p).modXfer = none := by
  rw [portIdle, State.portX_modPort]
  exact modAbandon_modXfer _ _

/-- What becoming DISABLED does to the port's state, the fallback and the host transfer only, a field reads as the receiver left it. -/
theorem portIdle_left (f : Field)
    (hf : ([F.LP_STATUS_STATE] ++ [F.LP_STATUS_LOOP_FALLBACK] ++ modEndFields).all (fun g => separate g f) = true) :
    (portIdle s p).get f p = (receiverLeft s p).get f p := by
  have hmoves := (((put_moves (receiverLeft s p) F.LP_STATUS_STATE 0 p).trans (put_moves _ F.LP_STATUS_LOOP_FALLBACK 0 p)).trans
    (modAbandon_moves _ _))
  exact hmoves.get f hf

theorem scanCut_busy : (scanCut s p).get F.LP_STATUS_EYE_BUSY p = 0 := by
  unfold scanCut
  split
  · rw [(put_moves _ _ _ _).get _ (by decide), eyeEnd, (raiseBit_moves _ _ _).get _ (by decide)]
    exact get_put_same _ _ _ (by decide) (by decide)
  next h => simpa [State.on] using h

end

theorem cdrLost_busy {p : Fin 16} (h : s.get F.LP_STATUS_EYE_BUSY p = 0) : (cdrLost s p).get F.LP_STATUS_EYE_BUSY p = 0 := by
  cases hlock : s.on F.LP_STATUS_CDR_LOCK p with
  | true => rw [cdrLost_of_lock hlock, (refreshRclk_moves _ _).get _ (by decide), scanCut_busy]
  | false => rw [cdrLost_of_no_lock hlock, h]

theorem measuringStopped_reads (s : State) (p : Fin 16) :
    (measuringStopped s p).get F.LP_STATUS_EYE_BUSY p = 0 ∧ (measuringStopped s p).get F.LP_STATUS_PRBS_LOCK p = 0 := by
  constructor
  · rw [measuringStopped, (put_moves _ _ _ _).get _ (by decide), (put_moves _ _ _ _).get _ (by decide)]
    exact get_put_same _ _ _ (by decide) (by decide)
  · rw [measuringStopped, (put_moves _ _ _ _).get _ (by decide)]
    exact get_put_same _ _ _ (by decide) (by decide)

theorem receiverLeft_stopped (s : State) (p : Fin 16) :
    (receiverLeft s p).get F.LP_STATUS_EYE_BUSY p = 0 ∧ (receiverLeft s p).get F.LP_STATUS_PRBS_LOCK p = 0 := by
  obtain ⟨hbusy, hprbs⟩ := measuringStopped_reads s p
  unfold receiverLeft
  split
  · constructor
    · rw [receiverDisturbed, (syncLost_moves _ _).get _ (by decide)]
      exact cdrLost_busy (((lfLeaveRunning_moves _ _).get _ (by decide)).trans hbusy)
    · rw [(receiverDisturbed_moves _ _).get _ (by decide), (lfLeaveRunning_moves _ _).get _ (by decide), hprbs]
  · exact ⟨hbusy, hprbs⟩

/-- The receiver of a port that ran is out of lock, sync and frame. -/
theorem receiverLeft_running {p : Fin 16} (h : portRunning s p = true) :
    (receiverLeft s p).get F.LP_STATUS_CDR_LOCK p = 0 ∧ (receiverLeft s p).get F.LP_STATUS_CODE_SYNC p = 0 ∧
    (receiverLeft s p).get F.LF_PSTATUS_FSTATE p = 0 ∧ (receiverLeft s p).get F.LF_PSTATUS_LOF p = 0 ∧
    (receiverLeft s p).get F.LF_PSTATUS_LOM p = 0 := by
  unfold receiverLeft
  rw [if_pos h]
  refine ⟨receiverDisturbed_lock _ _, receiverDisturbed_sync _ _, ?_, ?_, ?_⟩
  · refine syncLost_fstate (.inr ?_)
    rw [(cdrLost_moves _ _).get _ (by decide), lfLeaveRunning_fstate]
  · rw [(receiverDisturbed_moves _ _).get _ (by decide), lfLeaveRunning_lof]
  · rw [(receiverDisturbed_moves _ _).get _ (by decide), lfLeaveRunning_lom]

/-! ### EN written (R248) -/

theorem rclkDue_of_not_running {p : Nat} (h : portRunning s p = false) : rclkDue s p = false := by simp [rclkDue, h]

theorem not_running_of_state {p n : Nat} (h : s.get F.LP_STATUS_STATE p = n) (hn : n ≠ 2 := by decide) : portRunning s p = false := by
  simp [portRunning, h, hn]

/-- The levels of a port that does not run (R250, R268). -/
theorem controlled_not_running {p : Fin 16} {n : Nat} (v : Nat) (h : s.get F.LP_STATUS_STATE p = n) (hn : n ≠ 2 := by decide) :
    (formed (timingTaken v p s) p).get F.LP_STATUS_STATE p = n ∧ (formed (timingTaken v p s) p).get F.LP_STATUS_MOD_TXDIS p = 1 ∧
    (formed (timingTaken v p s) p).get F.LP_STATUS_RCLK_VALID p = 0 ∧ (formed (timingTaken v p s) p).get F.TG_REF_STAT_ACTIVE p = 0 := by
  have hstill : portRunning (timingTaken v p s) p = false :=
    not_running_of_state (((timingTaken_moves s v p).get _ (by decide)).trans h) hn
  refine ⟨((controlled_moves s v p).get _ (by decide)).trans h, ?_, ?_, ?_⟩
  · rw [formed_txdis, hstill]
    rfl
  · rw [formed_rclk, rclkDue_of_not_running hstill]
    rfl
  · rw [formed_active, rclkDue_of_not_running hstill]
    rfl

section
variable {p : Fin 16} (hfree : s.locked 3 = false) (hloop : s.get F.LP_CTRL_LOOPBACK p ≠ 3)
include hfree hloop

/-- PORT_ENABLE and PORT_DISABLE write EN; a port that does not run afterwards has its receiver left alone. -/
theorem exec_enWrite {c : Instr} {x : Nat} {u : State} (hexec : exec c s = act s (writeLp s F.LP_CTRL p (ctrlWord s p F.LP_CTRL_EN x)))
    (hen : enTaken (ctrlWord s p F.LP_CTRL_EN x) p (s.put F.LP_CTRL_EN x p) = u) (hstill : portRunning u p = false) :
    exec c s = act s (formed (timingTaken (ctrlWord s p F.LP_CTRL_EN x) p u) p) := by
  have hbits := ctrlWord_other s p F.LP_CTRL_EN x (g := F.LP_CTRL_LOOPBACK) (by decide) (by decide)
  rw [hexec, writeLp_ctrl p (by decide) hfree (fun h3 => hloop (hbits.symm.trans h3)), hen, turnedIfRunning, hstill]
  rfl

theorem portEnable_starts (ha : s.Awake) (hstate : s.get F.LP_STATUS_STATE p = 0) : Gives (.portEnable p) s fun t =>
    t.get F.LP_STATUS_STATE p = 1 ∧ t.get F.LP_CTRL_EN p = 1 ∧ t.get F.LP_STATUS_MOD_TXDIS p = 1 ∧
    t.get F.LP_STATUS_RCLK_VALID p = 0 ∧ (t.portX p).pollTicks = 0 ∧ PortOnly p [F.LP_CTRL_EN.at p] s t := by
  have hput : (s.put F.LP_CTRL_EN 1 p).get F.LP_STATUS_STATE p = 0 := ((put_moves _ _ _ _).get _ (by decide)).trans hstate
  have hstarting : (portToStarting (s.put F.LP_CTRL_EN 1 p) p).get F.LP_STATUS_STATE p = 1 := by
    rw [portToStarting, State.modPort_get]
    exact get_put_same _ _ _ (by decide) (by decide)
  have hen : enTaken (ctrlWord s p F.LP_CTRL_EN 1) p (s.put F.LP_CTRL_EN 1 p) = portToStarting (s.put F.LP_CTRL_EN 1 p) p := by
    have hone : bitsOf (ctrlWord s p F.LP_CTRL_EN 1) 0 1 = 1 := ctrlWord_field s p F.LP_CTRL_EN 1
    simp [enTaken, hone, hput]
  have hmoves := (((put_moves s F.LP_CTRL_EN 1 p).trans (put_moves _ F.LP_STATUS_STATE 1 p)).modPort fun x =>
    { x with pollTicks := 0 }).trans (controlled_moves _ (ctrlWord s p F.LP_CTRL_EN 1) p)
  obtain ⟨hone, htxdis, hrclk, -⟩ := controlled_not_running (ctrlWord s p F.LP_CTRL_EN 1) hstarting
  refine gives_of_act ha (exec_enWrite hfree hloop rfl hen (not_running_of_state hstarting)) (hmoves.chip ▸ ha.2)
    ⟨hone, ?_, htxdis, hrclk, ?_, hmoves.portOnly [F.LP_CTRL_EN] (by decide)⟩
  · rw [(controlled_moves _ _ _).get _ (by decide), portToStarting, State.modPort_get, (put_moves _ _ _ _).get _ (by decide)]
    exact get_put_same _ _ _ (by decide) (by decide)
  · rw [portX_controlled, portToStarting, State.portX_modPort]

theorem portDisable_shuts (ha : s.Awake) : Gives (.portDisable p) s fun t =>
    t.get F.LP_STATUS_STATE p = 0 ∧ t.get F.LP_CTRL_EN p = 0 ∧ t.get F.LP_STATUS_MOD_TXDIS p = 1 ∧
    t.get F.LP_STATUS_RCLK_VALID p = 0 ∧ t.get F.TG_REF_STAT_ACTIVE p = 0 ∧ PortOnly p [F.LP_CTRL_EN.at p] s t ∧
    (s.get F.LP_STATUS_STATE p ≠ 0 → t.get F.LP_STATUS_EYE_BUSY p = 0 ∧ t.get F.LP_STATUS_PRBS_LOCK p = 0 ∧
      t.get F.LP_STATUS_LOOP_FALLBACK p = 0 ∧ (t.portX p).modXfer = none) ∧
    (s.get F.LP_STATUS_STATE p = 2 → t.get F.LP_STATUS_CDR_LOCK p = 0 ∧ t.get F.LP_STATUS_CODE_SYNC p = 0 ∧
      t.get F.LF_PSTATUS_FSTATE p = 0 ∧ t.get F.LF_PSTATUS_LOF p = 0 ∧ t.get F.LF_PSTATUS_LOM p = 0) := by
  have hen : enTaken (ctrlWord s p F.LP_CTRL_EN 0) p (s.put F.LP_CTRL_EN 0 p) = portShut (s.put F.LP_CTRL_EN 0 p) p := by
    have hzero : bitsOf (ctrlWord s p F.LP_CTRL_EN 0) 0 1 = 0 := ctrlWord_field s p F.LP_CTRL_EN 0
    simp [enTaken, hzero]
  have hwritten := put_moves s F.LP_CTRL_EN 0 p
  have hstate : (s.put F.LP_CTRL_EN 0 p).get F.LP_STATUS_STATE p = s.get F.LP_STATUS_STATE p := hwritten.get _ (by decide)
  have hoff : (s.put F.LP_CTRL_EN 0 p).get F.LP_CTRL_EN p = 0 := get_put_same _ _ _ (by decide) (by decide)
  have hexec := exec_enWrite (c := .portDisable p) hfree hloop rfl hen
    (not_running_of_state (portShut_state _ _))
  generalize ctrlWord s p F.LP_CTRL_EN 0 = v at hexec
  generalize s.put F.LP_CTRL_EN 0 p = w at hexec hwritten hstate hoff
  have hcontrolled := controlled_moves (portShut w p) v p
  have hmoves := (hwritten.trans (portShut_moves _ _)).trans hcontrolled
  obtain ⟨hzero, htxdis, hrclk, hactive⟩ := controlled_not_running v (portShut_state w p)
  refine gives_of_act ha hexec (hmoves.chip ▸ ha.2)
    ⟨hzero, ?_, htxdis, hrclk, hactive, hmoves.portOnly [F.LP_CTRL_EN] (by decide), fun hon => ?_, fun hrun => ?_⟩
  · rw [hcontrolled.get _ (by decide), (portShut_moves _ _).get _ (by decide), hoff]
  · have hshut : portShut w p = refreshRclk (refreshTxdis (portIdle w p) p) p := if_neg (hstate ▸ hon)
    obtain ⟨hbusy, hprbs⟩ := receiverLeft_stopped w p
    refine ⟨?_, ?_, ?_, ?_⟩
    · rw [hcontrolled.get _ (by decide), hshut, (formedIdle_moves _ _).get _ (by decide), portIdle_left _ _ _ (by decide), hbusy]
    · rw [hcontrolled.get _ (by decide), hshut, (formedIdle_moves _ _).get _ (by decide), portIdle_left _ _ _ (by decide), hprbs]
    · rw [(formed_moves _ _).get _ (by decide)]
      refine timingTaken_fallback _ _ ?_
      rw [hshut, (formedIdle_moves _ _).get _ (by decide), portIdle_fallback]
    · rw [portX_controlled, hshut, portX_of_port (refreshRclk_port _ _)]
      exact portIdle_modXfer w p
  · have hon : ¬ w.get F.LP_STATUS_STATE p = 0 := by rw [hstate, hrun]; decide
    have hshut : portShut w p = refreshRclk (refreshTxdis (portIdle w p) p) p := if_neg hon
    obtain ⟨hlock, hsync, hframe, hlof, hlom⟩ := receiverLeft_running (s := w) (p := p) (by simp [portRunning, hstate, hrun])
    have hread (f : Field) (h1 : ([F.LP_STATUS_LOOP_FALLBACK] ++ formedFields).all (fun g => separate g f) = true)
        (h2 : ([F.LP_STATUS_MOD_TXDIS] ++ rclkFields).all (fun g => separate g f) = true)
        (h3 : ([F.LP_STATUS_STATE] ++ [F.LP_STATUS_LOOP_FALLBACK] ++ modEndFields).all (fun g => separate g f) = true) :
        (formed (timingTaken v p (portShut w p)) p).get f p = (receiverLeft w p).get f p := by
      rw [hcontrolled.get _ h1, hshut, (formedIdle_moves _ _).get _ h2, portIdle_left _ _ _ h3]
    exact ⟨(hread _ (by decide) (by decide) (by decide)).trans hlock, (hread _ (by decide) (by decide) (by decide)).trans hsync,
      (hread _ (by decide) (by decide) (by decide)).trans hframe, (hread _ (by decide) (by decide) (by decide)).trans hlof,
      (hread _ (by decide) (by decide) (by decide)).trans hlom⟩

end

/-! ### Calibration ends (R248) -/

def enteredFields : List Field := huntFields ++ [F.LF_PSTATUS_TRACE_VALID]

theorem lfEnterRunning_moves (s : State) (p : Nat) : PortMoves enteredFields p s (lfEnterRunning s p) := by
  unfold lfEnterRunning
  exact ((finderHunt_moves s p false).trans (put_moves _ _ _ _)).modPort _

theorem calibrationDone_runs {p : Fin 16} (ha : s.Awake) (hstarting : s.get F.LP_STATUS_STATE p = 1) :
    Gives (.calibrationDone p) s fun t =>
      t.get F.LP_STATUS_STATE p = 2 ∧ t.get F.LP_STATUS_MOD_TXDIS p = s.get F.LP_CTRL_TXDIS_FORCE p ∧
      t.get F.LF_PSTATUS_FSTATE p = 0 ∧ t.get F.LF_PSTATUS_TRACE_VALID p = 0 ∧ (t.portX p).txFresh = true ∧ PortOnly p [] s t := by
  have hentered := (put_moves s F.LP_STATUS_STATE 2 p).trans (lfEnterRunning_moves _ _)
  have hexec : exec (.calibrationDone p) s =
      act s (refreshRclk (refreshTxdis (lfEnterRunning (s.put F.LP_STATUS_STATE 2 p) p) p) p) := congrArg (act s) (if_pos hstarting)
  have hstate : (lfEnterRunning (s.put F.LP_STATUS_STATE 2 p) p).get F.LP_STATUS_STATE p = 2 :=
    ((lfEnterRunning_moves _ _).get _ (by decide)).trans (get_put_same _ _ _ (by decide) (by decide))
  have hmoves := hentered.trans (formedIdle_moves _ _)
  refine gives_of_act ha hexec (hmoves.chip ▸ ha.2) ⟨?_, ?_, ?_, ?_, ?_, hmoves.portOnly [] (by decide)⟩
  · rw [(formedIdle_moves _ _).get _ (by decide), hstate]
  · rw [(refreshRclk_moves _ _).get _ (by decide), refreshTxdis_txdis, if_pos (by simp [portRunning, hstate]),
      hentered.get _ (by decide)]
  · rw [(formedIdle_moves _ _).get _ (by decide), lfEnterRunning, State.modPort_get, (put_moves _ _ _ _).get _ (by decide),
      finderHunt_fstate]
  · rw [(formedIdle_moves _ _).get _ (by decide), lfEnterRunning, State.modPort_get]
    exact get_put_same _ _ _ (by decide) (by decide)
  · rw [portX_of_port (refreshRclk_port _ _), refreshTxdis, State.portX_put, lfEnterRunning, State.portX_modPort]

theorem exec_lpCalFail {p : Fin 16} (ha : s.Awake) (hstarting : s.get F.LP_STATUS_STATE p = 1) : exec (.lpCalFail p) s =
    .next (settle (raise ((s.put F.LP_STATUS_STATE 3 p).raiseBit F.LP_EVENT_CAL_FAIL p) 14 p)) :=
  (congrArg (act s) (if_pos hstarting)).trans (act_of_awake ha)

/-- Settles O18: EN by what a write of LP_CTRL does to a port that does not run after it, calibration by what LF does when a port
enters RUNNING. -/
theorem portStates : Obligations.PortStates := fun _ _ ha =>
  ⟨fun hfree hloop => ⟨portEnable_starts hfree hloop ha, portDisable_shuts hfree hloop ha⟩,
    fun hstarting => ⟨calibrationDone_runs ha hstarting, _, exec_lpCalFail ha hstarting, rfl⟩⟩

end Sys2Proof.Machine
end

section
/-!
PROOFS. What the receiver's events do: lock and sync gained and lost, the recovered clock, loop timing, HI_BER and LOS_RAW (R247, R251,
R252, R262, R263, R268, R276).
-/
namespace Sys2Proof.Machine

variable {s : State} {p : Fin 16}

theorem running_iff {p : Nat} : portRunning s p = true ↔ s.get F.LP_STATUS_STATE p = 2 := by simp [portRunning]

theorem on_of_get {f : Field} {p n : Nat} (h : s.get f p = n) (hn : n ≠ 0 := by decide) : s.on f p = true := by simp [State.on, h, hn]

theorem off_of_get {f : Field} {p : Nat} (h : s.get f p = 0) : s.on f p = false := by simp [State.on, h]

theorem rclkDue_of_no_lock {p : Nat} (h : s.get F.LP_STATUS_CDR_LOCK p = 0) : rclkDue s p = false := by simp [rclkDue, off_of_get h]

theorem rclkDue_of_no_sync {p : Nat} (h : s.get F.LP_STATUS_CODE_SYNC p = 0) : rclkDue s p = false := by simp [rclkDue, off_of_get h]

theorem rclkDue_of_lock {p : Nat} (hrun : s.get F.LP_STATUS_STATE p = 2) (hlock : s.get F.LP_STATUS_CDR_LOCK p = 1) :
    rclkDue s p = (s.on F.LP_STATUS_CODE_SYNC p && s.get F.LP_CTRL_LOOPBACK p != 1) := by
  simp [rclkDue, running_iff.mpr hrun, on_of_get hlock]

/-! ### CDR_LOCK gained (R268) -/

theorem cdrLockGained_locks (ha : s.Awake) (hrun : s.get F.LP_STATUS_STATE p = 2) : Gives (.cdrLockGained p) s fun t =>
    t.get F.LP_STATUS_CDR_LOCK p = 1 ∧
    t.get F.LP_STATUS_RCLK_VALID p = b2n (s.on F.LP_STATUS_CODE_SYNC p && s.get F.LP_CTRL_LOOPBACK p != 1) ∧
    t.get F.TG_REF_STAT_ACTIVE p = t.get F.LP_STATUS_RCLK_VALID p ∧ PortOnly p [] s t := by
  have hput := put_moves s F.LP_STATUS_CDR_LOCK 1 p
  have hlock : (s.put F.LP_STATUS_CDR_LOCK 1 p).get F.LP_STATUS_CDR_LOCK p = 1 := get_put_same _ _ _ (by decide) (by decide)
  have hdue := rclkDue_of_lock ((hput.get _ (by decide)).trans hrun) hlock
  rw [hput.on F.LP_STATUS_CODE_SYNC (by decide), hput.get F.LP_CTRL_LOOPBACK (by decide)] at hdue
  have hmoves := hput.trans (refreshRclk_moves _ _)
  refine gives_of_act ha (congrArg (act s) (if_pos (running_iff.mpr hrun))) (hmoves.chip ▸ ha.2) ⟨?_, ?_, ?_, hmoves.portOnly [] (by decide)⟩
  · rw [(refreshRclk_moves _ _).get _ (by decide), hlock]
  · rw [refreshRclk_valid, hdue]
  · rw [refreshRclk_active, refreshRclk_valid]

/-! ### Code units at the receiver (R247) -/

/-- The coding layer after the code units, their violations counted and HI_BER as it then stands; CODE_SYNC still to follow. -/
def codeTaken (s : State) (p : Nat) (y : RxCode) (n : Nat) : State :=
  if s.get F.LP_CTRL_RATE p = 3 then
    ((s.modPort p fun x => { x with rxCode := y }).bumpSat F.LP_CV_CNT n p).put F.LP_STATUS_HI_BER (b2n (berHigh y)) p
  else (s.modPort p fun x => { x with rxCode := y }).bumpSat F.LP_CV_CNT n p

/-- CODE_SYNC as the synchronisation machine reports it. -/
def syncFollows (s : State) (p : Nat) (holds : Bool) : State :=
  if holds then (if s.on F.LP_STATUS_CODE_SYNC p then s else refreshRclk (s.put F.LP_STATUS_CODE_SYNC 1 p) p) else syncLost s p

/-- Code units that a recovered clock brings, block DM's count apart. -/
def received (s : State) (p : Nat) (units : List CodeUnit) : State :=
  syncFollows (codeTaken s p (codeRun (s.get F.LP_CTRL_RATE p) (s.portX p).rxCode (unitsIn s p units))
      (takeUnits (s.get F.LP_CTRL_RATE p) (s.portX p).rxCode.lane (unitsIn s p units)).1.violations) p
    (codeHolds (s.get F.LP_CTRL_RATE p) (codeRun (s.get F.LP_CTRL_RATE p) (s.portX p).rxCode (unitsIn s p units)))

theorem codeIn_received {p : Nat} (units : List CodeUnit) (hrun : s.get F.LP_STATUS_STATE p = 2)
    (hlock : s.get F.LP_STATUS_CDR_LOCK p = 1) (htap : s.tapOwns = false) : (codeIn s p units).1 = received s p units := by
  simp only [codeIn, running_iff.mpr hrun, on_of_get hlock, htap, Bool.not_true, Bool.or_self, Bool.false_eq_true, if_false]
  rfl

theorem unitsReceived_eq (s : State) (p : Nat) (units : List CodeUnit) :
    ∃ dm, unitsReceived s p units = { (codeIn s p units).1 with dm := dm } := by
  unfold unitsReceived
  dsimp only
  split
  · exact ⟨_, rfl⟩
  · unfold pmCv
    split
    · exact ⟨_, rfl⟩
    · exact ⟨_, rfl⟩

section
variable (s : State) (y : RxCode) (n : Nat)

theorem codeTaken_moves (p : Nat) : PortMoves ([F.LP_CV_CNT] ++ [F.LP_STATUS_HI_BER]) p s (codeTaken s p y n) := by
  have hcount : PortMoves [F.LP_CV_CNT] p s ((s.modPort p fun x => { x with rxCode := y }).bumpSat F.LP_CV_CNT n p) :=
    ((PortMoves.refl [] p s).modPort _).trans (put_moves _ F.LP_CV_CNT _ p)
  unfold codeTaken
  split
  · exact hcount.trans (put_moves _ _ _ _)
  · exact hcount.mono (List.subset_append_left _ _)

theorem codeTaken_rxCode (p : Nat) : ((codeTaken s p y n).portX p).rxCode = y := by
  unfold codeTaken
  split <;> simp

variable (p : Fin 16)

theorem codeTaken_violations : (codeTaken s p y n).get F.LP_CV_CNT p = min (s.get F.LP_CV_CNT p + n) (2 ^ 32 - 1) := by
  have hcount : ((s.modPort p fun x => { x with rxCode := y }).bumpSat F.LP_CV_CNT n p).get F.LP_CV_CNT p =
      min (s.get F.LP_CV_CNT p + n) (2 ^ 32 - 1) := by
    rw [State.bumpSat, get_put_same _ _ _ (by decide) (by simp only [satAdd, F.LP_CV_CNT]; omega), State.modPort_get]
    rfl
  unfold codeTaken
  split
  · rw [(put_moves _ _ _ _).get _ (by decide), hcount]
  · exact hcount

theorem codeTaken_hiBer : (codeTaken s p y n).get F.LP_STATUS_HI_BER p =
    if s.get F.LP_CTRL_RATE p = 3 then b2n (berHigh y) else s.get F.LP_STATUS_HI_BER p := by
  unfold codeTaken
  split
  · exact State.get_put_bit _ _ _ _ _ (by decide) (by decide)
  · exact (put_moves _ F.LP_CV_CNT _ _).get _ (by decide)

end

theorem syncFollows_moves (s : State) (p : Nat) (holds : Bool) : PortMoves syncFields p s (syncFollows s p holds) := by
  unfold syncFollows
  split
  · split
    · exact PortMoves.refl _ _ _
    · exact (((put_moves _ _ _ _).trans (PortMoves.refl [F.LP_EVENT_SYNC_LOST] _ _)).trans (PortMoves.refl huntFields _ _)).trans
        (refreshRclk_moves _ _)
  · exact syncLost_moves _ _

theorem received_moves (s : State) (p : Nat) (units : List CodeUnit) :
    PortMoves ([F.LP_CV_CNT] ++ [F.LP_STATUS_HI_BER] ++ syncFields) p s (received s p units) :=
  (codeTaken_moves _ _ _ _).trans (syncFollows_moves _ _ _)

section
variable (ha : s.Awake) (hrun : s.get F.LP_STATUS_STATE p = 2) (hlock : s.get F.LP_STATUS_CDR_LOCK p = 1) (htap : s.tapOwns = false)
  (units : List CodeUnit)
include ha hrun hlock htap

/-- A row that brings code units gives what the receiver makes of them; the count of block DM shows in no register. -/
theorem exec_received {c : Instr} (hexec : exec c s = act s (unitsReceived s p units)) :
    ∃ dm, exec c s = .next { received s p units with dm := dm } ∧
      PortOnly p [F.LP_CV_CNT.word p] s { received s p units with dm := s.dm } := by
  obtain ⟨dm, hunits⟩ := unitsReceived_eq s p units
  rw [codeIn_received units hrun hlock htap] at hunits
  have hmoves := received_moves s p units
  have hdm : ({ received s p units with dm := s.dm } : State) = received s p units := by
    have : (received s p units).dm = s.dm := by rw [hmoves.rest]
    rw [← this]
  have hawake : ({ received s p units with dm := dm } : State).chip.resetDue = none := hmoves.chip.symm ▸ ha.2
  exact ⟨dm, (hexec.trans (congrArg (act s) hunits)).trans (act_next ha hawake), hdm ▸ hmoves.portOnly [F.LP_CV_CNT] (by decide)⟩

end

/-! ### CODE_SYNC gained and lost, HI_BER (R247) -/

theorem syncFollows_gained (hrun : s.get F.LP_STATUS_STATE p = 2) (hlock : s.get F.LP_STATUS_CDR_LOCK p = 1)
    (hsync : s.get F.LP_STATUS_CODE_SYNC p = 0) :
    (syncFollows s p true).get F.LP_STATUS_CODE_SYNC p = 1 ∧
    (syncFollows s p true).get F.LP_STATUS_RCLK_VALID p = b2n (s.get F.LP_CTRL_LOOPBACK p != 1) ∧
    (syncFollows s p true).get F.TG_REF_STAT_ACTIVE p = (syncFollows s p true).get F.LP_STATUS_RCLK_VALID p ∧
    (syncFollows s p true).port = s.port := by
  have hgained : syncFollows s p true = refreshRclk (s.put F.LP_STATUS_CODE_SYNC 1 p) p := by
    simp [syncFollows, off_of_get hsync]
  have hput := put_moves s F.LP_STATUS_CODE_SYNC 1 p
  have hone : (s.put F.LP_STATUS_CODE_SYNC 1 p).get F.LP_STATUS_CODE_SYNC p = 1 := get_put_same _ _ _ (by decide) (by decide)
  have hdue := rclkDue_of_lock ((hput.get _ (by decide)).trans hrun) ((hput.get _ (by decide)).trans hlock)
  rw [on_of_get hone, hput.get F.LP_CTRL_LOOPBACK (by decide), Bool.true_and] at hdue
  rw [hgained]
  refine ⟨?_, ?_, ?_, refreshRclk_port _ _⟩
  · rw [(refreshRclk_moves _ _).get _ (by decide), hone]
  · rw [refreshRclk_valid, hdue]
  · rw [refreshRclk_active, refreshRclk_valid]

theorem syncFollows_lost (hsync : s.get F.LP_STATUS_CODE_SYNC p = 1) :
    (syncFollows s p false).get F.LP_STATUS_CODE_SYNC p = 0 ∧ (syncFollows s p false).get F.LP_EVENT_SYNC_LOST p = 1 ∧
    (syncFollows s p false).get F.LF_PSTATUS_FSTATE p = 0 ∧ (syncFollows s p false).get F.LP_STATUS_RCLK_VALID p = 0 := by
  have hon := on_of_get hsync
  have hlost : syncFollows s p false = syncLost s p := rfl
  rw [hlost]
  refine ⟨syncLost_sync s p, ?_, syncLost_fstate (.inl hon), ?_⟩
  · rw [syncLost_of_sync hon, (refreshRclk_moves _ _).get _ (by decide), syncFallen, State.modPort_get,
      (finderHunt_moves _ _ _).get _ (by decide)]
    exact State.get_raiseBit _ _ _ _ (by decide) (by decide)
  · rw [syncLost_of_sync hon, refreshRclk_valid, rclkDue_of_no_sync (syncFallen_sync s p)]
    rfl

/-- A frame finder in SYNC loses it with CODE_SYNC, which counts as out of frame (Table 8.5). -/
theorem syncFollows_outOfFrame (hsync : s.get F.LP_STATUS_CODE_SYNC p = 1) (hframe : s.get F.LF_PSTATUS_FSTATE p = 2) :
    (syncFollows s p false).get F.LF_PEVENT_OOF p = 1 ∧
    (syncFollows s p false).get F.LF_FRAMING_CNT_OOF_EVENTS p = min (s.get F.LF_FRAMING_CNT_OOF_EVENTS p + 1) 65535 := by
  have hfallen := (put_moves s F.LP_STATUS_CODE_SYNC 0 p).trans (raiseBit_moves _ F.LP_EVENT_SYNC_LOST p)
  obtain ⟨-, -, hoof, -, hcount⟩ := finderHunt_lost ((hfallen.get _ (by decide)).trans hframe)
  have hlost : syncFollows s p false = refreshRclk (syncFallen s p) p := syncLost_of_sync (on_of_get hsync)
  rw [hlost]
  constructor
  · rw [(refreshRclk_moves _ _).get _ (by decide), syncFallen, State.modPort_get, hoof]
  · rw [(refreshRclk_moves _ _).get _ (by decide), syncFallen, State.modPort_get, hcount, hfallen.get _ (by decide)]

section
variable {units : List CodeUnit} {y : RxCode} (ha : s.Awake) (hrun : s.get F.LP_STATUS_STATE p = 2)
  (hlock : s.get F.LP_STATUS_CDR_LOCK p = 1) (htap : s.tapOwns = false)
  (hy : y = codeRun (s.get F.LP_CTRL_RATE p) (s.portX p).rxCode (unitsIn s p units))
include ha hrun hlock htap hy

theorem codeSyncGained_syncs (hholds : codeHolds (s.get F.LP_CTRL_RATE p) y = true) (hsync : s.get F.LP_STATUS_CODE_SYNC p = 0) :
    Gives (.codeSyncGained p units) s fun t =>
      t.get F.LP_STATUS_CODE_SYNC p = 1 ∧ t.get F.LP_STATUS_RCLK_VALID p = b2n (s.get F.LP_CTRL_LOOPBACK p != 1) ∧
      t.get F.TG_REF_STAT_ACTIVE p = t.get F.LP_STATUS_RCLK_VALID p ∧ (t.portX p).rxCode = y ∧
      PortOnly p [F.LP_CV_CNT.word p] s { t with dm := s.dm } := by
  obtain ⟨dm, hexec, honly⟩ := exec_received ha hrun hlock htap units (c := .codeSyncGained p units) rfl
  rw [received, ← hy, hholds] at hexec honly
  generalize (takeUnits _ _ _).1.violations = n at hexec honly
  have htaken := codeTaken_moves s y n p
  obtain ⟨hone, hrclk, hactive, hport⟩ := syncFollows_gained ((htaken.get _ (by decide)).trans hrun)
    ((htaken.get _ (by decide)).trans hlock) ((htaken.get _ (by decide)).trans hsync)
  rw [htaken.get F.LP_CTRL_LOOPBACK (by decide)] at hrclk
  have hcode := (congrArg PortX.rxCode (portX_of_port hport p)).trans (codeTaken_rxCode s y n p)
  exact ⟨_, hexec, hone, hrclk, hactive, hcode, honly⟩

theorem syncLost_syncs (hholds : codeHolds (s.get F.LP_CTRL_RATE p) y = false) (hsync : s.get F.LP_STATUS_CODE_SYNC p = 1) :
    Gives (.syncLost p units) s fun t =>
      t.get F.LP_STATUS_CODE_SYNC p = 0 ∧ t.get F.LP_EVENT_SYNC_LOST p = 1 ∧ t.get F.LF_PSTATUS_FSTATE p = 0 ∧
      t.get F.LP_STATUS_RCLK_VALID p = 0 ∧ PortOnly p [F.LP_CV_CNT.word p] s { t with dm := s.dm } ∧
      (s.get F.LF_PSTATUS_FSTATE p = 2 → t.get F.LF_PEVENT_OOF p = 1 ∧
        t.get F.LF_FRAMING_CNT_OOF_EVENTS p = min (s.get F.LF_FRAMING_CNT_OOF_EVENTS p + 1) 65535) := by
  obtain ⟨dm, hexec, honly⟩ := exec_received ha hrun hlock htap units (c := .syncLost p units) rfl
  rw [received, ← hy, hholds] at hexec honly
  generalize (takeUnits _ _ _).1.violations = n at hexec honly
  have htaken := codeTaken_moves s y n p
  have hstands := (htaken.get F.LP_STATUS_CODE_SYNC (by decide)).trans hsync
  obtain ⟨hzero, hevent, hhunt, hrclk⟩ := syncFollows_lost hstands
  refine ⟨_, hexec, hzero, hevent, hhunt, hrclk, honly, fun hframe => ?_⟩
  rw [← htaken.get F.LF_FRAMING_CNT_OOF_EVENTS (by decide)]
  exact syncFollows_outOfFrame hstands ((htaken.get _ (by decide)).trans hframe)

theorem hiBerChange_counts : Gives (.hiBerChange p units) s fun t =>
    t.get F.LP_CV_CNT p = min (s.get F.LP_CV_CNT p +
      (takeUnits (s.get F.LP_CTRL_RATE p) (s.portX p).rxCode.lane (unitsIn s p units)).1.violations) (2 ^ 32 - 1) ∧
    (s.get F.LP_CTRL_RATE p = 3 → t.get F.LP_STATUS_HI_BER p = b2n (berHigh y)) ∧
    (s.get F.LP_CTRL_RATE p ≠ 3 → t.get F.LP_STATUS_HI_BER p = s.get F.LP_STATUS_HI_BER p) ∧
    PortOnly p [F.LP_CV_CNT.word p] s { t with dm := s.dm } := by
  obtain ⟨dm, hexec, honly⟩ := exec_received ha hrun hlock htap units (c := .hiBerChange p units) rfl
  rw [received, ← hy] at hexec honly
  generalize (takeUnits _ _ _).1.violations = n at hexec honly ⊢
  have hfollows := syncFollows_moves (codeTaken s p y n) p (codeHolds (s.get F.LP_CTRL_RATE p) y)
  have hber := (hfollows.get F.LP_STATUS_HI_BER (by decide)).trans (codeTaken_hiBer s y n p)
  exact ⟨_, hexec, (hfollows.get _ (by decide)).trans (codeTaken_violations s y n p), fun h3 => hber.trans (if_pos h3),
    fun h3 => hber.trans (if_neg h3), honly⟩

end

/-! ### CDR_LOCK lost (R252, R262) -/

theorem portX_scanCut (s : State) (p q : Nat) : (scanCut s p).portX q = s.portX q := by
  unfold scanCut
  split <;> rfl

theorem scanCut_aborted (h : s.get F.LP_STATUS_EYE_BUSY p = 1) :
    (scanCut s p).get F.LP_STATUS_EYE_ABORTED p = 1 ∧ (scanCut s p).get F.LP_EVENT_EYE_DONE p = 1 := by
  unfold scanCut
  rw [if_pos (on_of_get h)]
  refine ⟨get_put_same _ _ _ (by decide) (by decide), ?_⟩
  rw [(put_moves _ _ _ _).get _ (by decide)]
  exact State.get_raiseBit _ _ _ _ (by decide) (by decide)

theorem loopFallback_falls (hrun : s.get F.LP_STATUS_STATE p = 2) (htiming : s.get F.LP_CTRL_TX_TIMING p = 1)
    (hloop : s.get F.LP_CTRL_LOOPBACK p ≠ 2) (hback : s.get F.LP_STATUS_LOOP_FALLBACK p = 0)
    (hlock : s.get F.LP_STATUS_CDR_LOCK p = 0) :
    (loopFallback s p).get F.LP_STATUS_LOOP_FALLBACK p = 1 ∧ (loopFallback s p).get F.LP_EVENT_LOOP_FALLBACK p = 1 ∧
    ((loopFallback s p).portX p).txFresh = true := by
  have hfalls : loopFallback s p = txRestart ((s.put F.LP_STATUS_LOOP_FALLBACK 1 p).raiseBit F.LP_EVENT_LOOP_FALLBACK p) p := by
    simp [loopFallback, loopTimed, running_iff.mpr hrun, on_of_get htiming, off_of_get hback, off_of_get hlock, hloop]
  rw [hfalls]
  refine ⟨?_, ?_, by rw [portX_txRestart]⟩
  · rw [(txRestart_moves _ _).get _ (by decide), (raiseBit_moves _ _ _).get _ (by decide)]
    exact get_put_same _ _ _ (by decide) (by decide)
  · rw [(txRestart_moves _ _).get _ (by decide)]
    exact State.get_raiseBit _ _ _ _ (by decide) (by decide)

theorem cdrLost_loses (ha : s.Awake) (hlock : s.get F.LP_STATUS_CDR_LOCK p = 1) : Gives (.cdrLost p) s fun t =>
    t.get F.LP_STATUS_CDR_LOCK p = 0 ∧ t.get F.LP_EVENT_CDR_LOST p = 1 ∧ t.get F.LP_STATUS_RCLK_VALID p = 0 ∧
    t.get F.TG_REF_STAT_ACTIVE p = 0 ∧ PortOnly p [] s t ∧
    (s.get F.LP_STATUS_STATE p = 2 → s.get F.LP_CTRL_TX_TIMING p = 1 → s.get F.LP_CTRL_LOOPBACK p ≠ 2 →
      s.get F.LP_STATUS_LOOP_FALLBACK p = 0 → t.get F.LP_STATUS_LOOP_FALLBACK p = 1 ∧
        t.get F.LP_EVENT_LOOP_FALLBACK p = 1 ∧ (t.portX p).txFresh = true) ∧
    (s.get F.LP_STATUS_EYE_BUSY p = 1 → t.get F.LP_STATUS_EYE_BUSY p = 0 ∧ t.get F.LP_STATUS_EYE_ABORTED p = 1 ∧
      t.get F.LP_EVENT_EYE_DONE p = 1) := by
  have hexec : exec (.cdrLost p) s = act s (refreshRclk (scanCut (clockFallen s p) p) p) :=
    congrArg (act s) (cdrLost_of_lock (on_of_get hlock))
  obtain ⟨hfell, hlost⟩ := clockFallen_lost s p
  have hclock := clockFallen_moves s p
  have hcut := scanCut_moves (clockFallen s p) p
  have hrclk := refreshRclk_moves (scanCut (clockFallen s p) p) p
  have hmoves := (hclock.trans hcut).trans hrclk
  have hzero : (scanCut (clockFallen s p) p).get F.LP_STATUS_CDR_LOCK p = 0 := (hcut.get _ (by decide)).trans hfell
  refine gives_of_act ha hexec (hmoves.chip ▸ ha.2)
    ⟨?_, ?_, ?_, ?_, hmoves.portOnly [] (by decide), fun hrun htiming hloop hback => ?_, fun hbusy => ?_⟩
  · rw [hrclk.get _ (by decide), hzero]
  · rw [hrclk.get _ (by decide), hcut.get _ (by decide), hlost]
  · rw [refreshRclk_valid, rclkDue_of_no_lock hzero]
    rfl
  · rw [refreshRclk_active, rclkDue_of_no_lock hzero]
    rfl
  · have hfallen := lockFallen_moves s p
    obtain ⟨hstatus, hevent, hfresh⟩ := loopFallback_falls ((hfallen.get _ (by decide)).trans hrun)
      ((hfallen.get _ (by decide)).trans htiming) ((hfallen.get F.LP_CTRL_LOOPBACK (by decide)).symm ▸ hloop)
      ((hfallen.get _ (by decide)).trans hback) (lockFallen_lost s p).1
    refine ⟨?_, ?_, ?_⟩
    · rw [hrclk.get _ (by decide), hcut.get _ (by decide), clockFallen, hstatus]
    · rw [hrclk.get _ (by decide), hcut.get _ (by decide), clockFallen, hevent]
    · rw [portX_of_port (refreshRclk_port _ _), portX_scanCut, clockFallen, hfresh]
  · obtain ⟨haborted, hdone⟩ := scanCut_aborted ((hclock.get F.LP_STATUS_EYE_BUSY (by decide)).trans hbusy)
    rw [hrclk.get _ (by decide), hrclk.get _ (by decide), hrclk.get _ (by decide)]
    exact ⟨scanCut_busy _ _, haborted, hdone⟩

/-! ### The return to loop timing (R252, R272) -/

theorem mcDiscard_rest (s : State) (p : Nat) : (mcDiscard s p).ps = s.ps ∧ (mcDiscard s p).tg = s.tg := by
  unfold mcDiscard
  split
  · exact ⟨rfl, rfl⟩
  · exact ⟨rfl, rfl⟩

theorem loopTimingReturn_returns (ha : s.Awake) (hback : s.get F.LP_STATUS_LOOP_FALLBACK p = 1) (hlock : s.get F.LP_STATUS_CDR_LOCK p = 1)
    (hsync : s.get F.LP_STATUS_CODE_SYNC p = 1) (hloop : s.get F.LP_CTRL_LOOPBACK p ≠ 2) (hticks : 32 ≤ (s.portX p).loopTicks) :
    Gives (.loopTimingReturn p) s fun t =>
      t.get F.LP_STATUS_LOOP_FALLBACK p = 0 ∧ (t.portX p).txFresh = true ∧ (t.portX p).mcTx = none ∧ (t.portX p).mcRx = none ∧
      (t.portX p).loopTicks = 0 ∧ PortOnly p [] s t ∧ t.ps = s.ps ∧ t.tg = s.tg := by
  have hdue : loopReturnDue s p = true := by
    simp [loopReturnDue, on_of_get hback, on_of_get hlock, on_of_get hsync, hloop, hticks]
  have hmoves : PortMoves ([F.LP_STATUS_LOOP_FALLBACK] ++ dropFields) p s (loopReturn s p) :=
    ((put_moves _ _ _ _).modPort _).trans (txRestart_moves _ _)
  have hrecord : (loopReturn s p).portX p = { s.portX p with loopTicks := 0, txFresh := true, mcTx := none, mcRx := none } := by
    rw [loopReturn, portX_txRestart, State.portX_modPort]
    rfl
  refine gives_of_act ha (congrArg (act s) (if_pos hdue)) (hmoves.chip ▸ ha.2)
    ⟨?_, by rw [hrecord], by rw [hrecord], by rw [hrecord], by rw [hrecord], hmoves.portOnly [] (by decide), mcDiscard_rest _ _⟩
  rw [loopReturn, (txRestart_moves _ _).get _ (by decide), State.modPort_get]
  exact get_put_same _ _ _ (by decide) (by decide)

/-! ### The two sources of LOS_RAW (R263, R276) -/

theorem refreshLos_only (s : State) (p : Nat) : Only [F.LP_STATUS_LOS_RAW.at p, F.LP_EVENT_LOS_ROSE.at p] s (refreshLos s p) := by
  have hput : Only [F.LP_STATUS_LOS_RAW.at p, F.LP_EVENT_LOS_ROSE.at p] s (s.put F.LP_STATUS_LOS_RAW (b2n (losRaw s p)) p) :=
    only_put (by simp)
  unfold refreshLos
  dsimp only
  split
  · exact hput.trans (only_raiseBit (by simp))
  · exact hput

theorem b2n_eq_one {b : Bool} (h : b2n b = 1) : b = true := by cases b <;> simp_all [b2n]

/-- LOS_ROSE is set by a rise of LOS_RAW and by nothing else. -/
theorem refreshLos_rises (s : State) (p : Fin 16) :
    ((refreshLos s p).get F.LP_STATUS_LOS_RAW p = 1 → s.get F.LP_STATUS_LOS_RAW p = 0 → (refreshLos s p).get F.LP_EVENT_LOS_ROSE p = 1) ∧
    ((refreshLos s p).get F.LP_STATUS_LOS_RAW p = 0 ∨ s.get F.LP_STATUS_LOS_RAW p = 1 →
      (refreshLos s p).get F.LP_EVENT_LOS_ROSE p = s.get F.LP_EVENT_LOS_ROSE p) := by
  rw [refreshLos_raw, refreshLos_rose]
  refine ⟨fun hraw hwas => ?_, fun hstill => if_neg ?_⟩
  · rw [b2n_eq_one hraw, off_of_get hwas]
    rfl
  · rcases hstill with hraw | hwas
    · cases hlos : losRaw s p with
      | true => simp [hlos, b2n] at hraw
      | false => simp
    · simp [on_of_get hwas]

theorem modLosChange_forms (ha : s.Awake) (level : Bool) : Gives (.modLosChange p level) s fun t =>
    t.get F.LP_STATUS_MOD_LOS p = b2n level ∧
    t.get F.LP_STATUS_LOS_RAW p = b2n (s.on F.LP_CTRL_LOS_PIN_EN p && level != s.on F.LP_CTRL_LOS_PIN_INV p ||
      s.on F.LP_CTRL_LOS_ELEC_EN p && !s.on F.LP_STATUS_SIG_DET p) ∧
    (t.get F.LP_STATUS_LOS_RAW p = 1 → s.get F.LP_STATUS_LOS_RAW p = 0 → t.get F.LP_EVENT_LOS_ROSE p = 1) ∧
    (t.get F.LP_STATUS_LOS_RAW p = 0 ∨ s.get F.LP_STATUS_LOS_RAW p = 1 → t.get F.LP_EVENT_LOS_ROSE p = s.get F.LP_EVENT_LOS_ROSE p) ∧
    Only [F.LP_STATUS_MOD_LOS.at p, F.LP_STATUS_LOS_RAW.at p, F.LP_EVENT_LOS_ROSE.at p] s t := by
  have hput := put_moves s F.LP_STATUS_MOD_LOS (b2n level) p
  have hlevel : (s.put F.LP_STATUS_MOD_LOS (b2n level) p).get F.LP_STATUS_MOD_LOS p = b2n level :=
    State.get_put_bit _ _ _ _ _ (by decide) (by decide)
  have hon : (s.put F.LP_STATUS_MOD_LOS (b2n level) p).on F.LP_STATUS_MOD_LOS p = level := by
    rw [State.on, hlevel]
    cases level <;> rfl
  have honly := refreshLos_only (s.put F.LP_STATUS_MOD_LOS (b2n level) p) p
  obtain ⟨hrose, hkept⟩ := refreshLos_rises (s.put F.LP_STATUS_MOD_LOS (b2n level) p) p
  rw [hput.get F.LP_STATUS_LOS_RAW (by decide)] at hrose hkept
  rw [hput.get F.LP_EVENT_LOS_ROSE (by decide)] at hkept
  refine gives_of_act ha rfl (honly.chip ▸ ha.2) ⟨?_, ?_, hrose, hkept, ?_⟩
  · rw [(refreshLos_moves _ _).get _ (by decide), hlevel]
  · rw [refreshLos_raw, losRaw, hon, hput.on _ (by decide), hput.on _ (by decide), hput.on _ (by decide), hput.on _ (by decide)]
  · refine Only.trans (only_put (by simp)) ⟨honly.1, honly.2.mono ?_⟩
    simp

theorem sigDetChange_forms (ha : s.Awake) (level : Bool) : Gives (.sigDetChange p level) s fun t =>
    t.get F.LP_STATUS_SIG_DET p = b2n level ∧
    t.get F.LP_STATUS_LOS_RAW p = b2n (s.on F.LP_CTRL_LOS_PIN_EN p && s.on F.LP_STATUS_MOD_LOS p != s.on F.LP_CTRL_LOS_PIN_INV p ||
      s.on F.LP_CTRL_LOS_ELEC_EN p && !level) ∧
    (t.get F.LP_STATUS_LOS_RAW p = 1 → s.get F.LP_STATUS_LOS_RAW p = 0 → t.get F.LP_EVENT_LOS_ROSE p = 1) ∧
    PortOnly p [] s t ∧ t.port = s.port ∧ t.tg = s.tg := by
  have hcut : PortMoves [] p s (if level then s else copiesCut s p) ∧ (if level then s else copiesCut s p).port = s.port ∧
      (if level then s else copiesCut s p).tg = s.tg := by
    split
    · exact ⟨PortMoves.refl _ _ _, rfl, rfl⟩
    · exact ⟨copiesCut_moves _ _, rfl, rfl⟩
  obtain ⟨hcopies, hport, htg⟩ := hcut
  have hexec : exec (.sigDetChange p level) s =
      act s (refreshLos ((if level then s else copiesCut s p).put F.LP_STATUS_SIG_DET (b2n level) p) p) := rfl
  generalize (if level then s else copiesCut s p) = w at hcopies hport htg hexec
  have hput := hcopies.trans (put_moves w F.LP_STATUS_SIG_DET (b2n level) p)
  have hlevel : (w.put F.LP_STATUS_SIG_DET (b2n level) p).get F.LP_STATUS_SIG_DET p = b2n level :=
    State.get_put_bit _ _ _ _ _ (by decide) (by decide)
  have hon : (w.put F.LP_STATUS_SIG_DET (b2n level) p).on F.LP_STATUS_SIG_DET p = level := by
    rw [State.on, hlevel]
    cases level <;> rfl
  have honly := refreshLos_only (w.put F.LP_STATUS_SIG_DET (b2n level) p) p
  obtain ⟨hrose, -⟩ := refreshLos_rises (w.put F.LP_STATUS_SIG_DET (b2n level) p) p
  rw [hput.get F.LP_STATUS_LOS_RAW (by decide)] at hrose
  have hmoves := hput.trans (refreshLos_moves _ _)
  refine gives_of_act ha hexec (hmoves.chip ▸ ha.2) ⟨?_, ?_, hrose, hmoves.portOnly [] (by decide), ?_, ?_⟩
  · rw [(refreshLos_moves _ _).get _ (by decide), hlevel]
  · rw [refreshLos_raw, losRaw, hon, hput.on _ (by decide), hput.on _ (by decide), hput.on _ (by decide), hput.on _ (by decide)]
  · exact honly.port.trans hport
  · exact (congrArg State.tg honly.1).trans htg

/-- Settles O19: each event by what it makes of the receiver's registers, RCLK_VALID and its candidate formed last. -/
theorem receiverEvents : Obligations.ReceiverEvents := by
  intro s p ha
  refine ⟨fun hrun => ⟨cdrLockGained_locks ha hrun, fun hlock htap units y hy => ⟨?_, ?_, ?_⟩⟩, cdrLost_loses ha,
    loopTimingReturn_returns ha, modLosChange_forms ha, sigDetChange_forms ha⟩
  · exact codeSyncGained_syncs ha hrun hlock htap hy
  · exact syncLost_syncs ha hrun hlock htap hy
  · exact hiBerChange_counts ha hrun hlock htap hy

end Sys2Proof.Machine
end

section
/-!
PROOFS. RX_INV and LOOPBACK of a RUNNING port written: the receiver must regain its stream (R255, R259, R273).
-/
namespace Sys2Proof.Machine

variable {s : State} {p : Fin 16}

/-! ### What the write makes of the receiver -/

def turnedFields : List Field := syncFields ++ prbsDropFields ++ (cdrFields ++ syncFields) ++ fallbackFields

theorem receiverTurned_moves (s : State) (p v old : Nat) : PortMoves turnedFields p s (receiverTurned p v old s) := by
  have hinv (u : State) : PortMoves (syncFields ++ prbsDropFields) p u
      (if bitsOf v 6 1 != bitsOf old 6 1 then prbsDrop (syncLost u p) p else u) := by
    split
    · exact (syncLost_moves _ _).trans (prbsDrop_moves _ _)
    · exact PortMoves.refl _ _ _
  have hnear (u : State) : PortMoves (cdrFields ++ syncFields) p u
      (if (bitsOf v 8 2 == 1) != (bitsOf old 8 2 == 1) then receiverDisturbed u p else u) := by
    split
    · exact receiverDisturbed_moves _ _
    · exact PortMoves.refl _ _ _
  have hfar (u : State) : PortMoves fallbackFields p u
      (if bitsOf old 8 2 == 2 && bitsOf v 8 2 != 2 then loopFallback u p else u) := by
    split
    · exact loopFallback_moves _ _
    · exact PortMoves.refl _ _ _
  exact ((hinv _).trans (hnear _)).trans (hfar _)

theorem receiverTurned_of_inv {p v old : Nat} (hinv : bitsOf v 6 1 ≠ bitsOf old 6 1) (hloop : bitsOf v 8 2 = bitsOf old 8 2) :
    receiverTurned p v old s = prbsDrop (syncLost s p) p := by
  simp [receiverTurned, hinv, hloop]

/-- Near-end loopback taken up or given up disturbs the receiver. -/
theorem receiverTurned_of_near {v old : Nat} (hnear : (bitsOf v 8 2 == 1) ≠ (bitsOf old 8 2 == 1)) :
    (receiverTurned p v old s).get F.LP_STATUS_CDR_LOCK p = 0 ∧ (receiverTurned p v old s).get F.LP_STATUS_CODE_SYNC p = 0 := by
  have hdisturbed (u : State) : (receiverDisturbed u p).get F.LP_STATUS_CDR_LOCK p = 0 ∧
      (receiverDisturbed u p).get F.LP_STATUS_CODE_SYNC p = 0 := ⟨receiverDisturbed_lock u p, receiverDisturbed_sync u p⟩
  unfold receiverTurned
  dsimp only
  rw [if_pos (bne_iff_ne.mpr hnear)]
  split
  · rw [(loopFallback_moves _ _).get _ (by decide), (loopFallback_moves _ _).get _ (by decide)]
    exact hdisturbed _
  · exact hdisturbed _

/-! ### The commands -/

/-- A field of LP_CTRL[p], read from its word. -/
theorem bitsOf_ctrl (s : State) (p : Nat) {g : Field} (hg : g.base = 0x40030000 ∧ g.s1 = 0x100) :
    bitsOf (s.get F.LP_CTRL p) g.lo g.w = s.get g p := by
  obtain ⟨hbase, hstride⟩ := hg
  rw [get_word s (f := F.LP_CTRL) (by decide), State.get]
  simp only [Field.addr, hbase, hstride, Nat.mul_zero]
  rfl

section
variable (hfree : s.locked 3 = false) (hrun : s.get F.LP_STATUS_STATE p = 2) (hen : s.get F.LP_CTRL_EN p = 1)
include hfree hrun hen

/-- A field of LP_CTRL other than EN written while the port runs. -/
theorem exec_runningWrite {c : Instr} {f : Field} {x : Nat} (hexec : exec c s = act s (writeLp s F.LP_CTRL p (ctrlWord s p f x)))
    (hf : plainCtrl f = true ∧ 1 ≤ f.lo) (hloop : bitsOf (ctrlWord s p f x) 8 2 ≠ 3) : exec c s = act s
      (formed (timingTaken (ctrlWord s p f x) p (receiverTurned p (ctrlWord s p f x) (s.get F.LP_CTRL p) (s.put f x p))) p) := by
  obtain ⟨hplain, hlow⟩ := hf
  have hbase : f.base = 0x40030000 ∧ f.s1 = 0x100 := by
    simp only [plainCtrl, Bool.and_eq_true, beq_iff_eq, and_assoc] at hplain
    exact ⟨hplain.1, hplain.2.1⟩
  have hstate : (s.put f x p).get F.LP_STATUS_STATE p = 2 := by
    refine (State.get_put_otherReg _ _ _ _ _ _ _ _ ?_).trans hrun
    simp only [Field.addr, hbase.1, hbase.2, F.LP_STATUS_STATE]
    omega
  have hone : bitsOf (ctrlWord s p f x) 0 1 = 1 :=
    (ctrlWord_other s p f x (g := F.LP_CTRL_EN) (by decide) (.inl hlow)).trans hen
  have henabled : enTaken (ctrlWord s p f x) p (s.put f x p) = s.put f x p := by simp [enTaken, hone, hstate]
  rw [hexec, writeLp_ctrl p hplain hfree hloop, henabled, turnedIfRunning, if_pos (running_iff.mpr hstate)]

theorem rxInvChange_turns (ha : s.Awake) {v : Bool} (hloop : s.get F.LP_CTRL_LOOPBACK p ≠ 3) (hchange : s.on F.LP_CTRL_RX_INV p ≠ v) :
    Gives (.rxInvChange p v) s fun t =>
      t.get F.LP_CTRL_RX_INV p = b2n v ∧ t.get F.LP_STATUS_CODE_SYNC p = 0 ∧ t.get F.LP_STATUS_PRBS_LOCK p = 0 ∧
      PortOnly p [F.LP_CTRL_RX_INV.at p] s t := by
  have hkeeps : bitsOf (ctrlWord s p F.LP_CTRL_RX_INV (b2n v)) 8 2 = s.get F.LP_CTRL_LOOPBACK p :=
    ctrlWord_other s p F.LP_CTRL_RX_INV (b2n v) (g := F.LP_CTRL_LOOPBACK) (by decide) (by decide)
  have hexec := exec_runningWrite (c := .rxInvChange p v) (f := F.LP_CTRL_RX_INV) (x := b2n v) hfree hrun hen rfl (by decide) (fun h3 => hloop (hkeeps.symm.trans h3))
  have hnew : bitsOf (ctrlWord s p F.LP_CTRL_RX_INV (b2n v)) 6 1 = b2n v := by
    refine (ctrlWord_field s p F.LP_CTRL_RX_INV (b2n v)).trans ?_
    cases v <;> rfl
  have hold : bitsOf (s.get F.LP_CTRL p) 6 1 = b2n (s.on F.LP_CTRL_RX_INV p) :=
    (bitsOf_ctrl s p (g := F.LP_CTRL_RX_INV) (by decide)).trans (b2n_on rfl s p).symm
  have hdiffer : bitsOf (ctrlWord s p F.LP_CTRL_RX_INV (b2n v)) 6 1 ≠ bitsOf (s.get F.LP_CTRL p) 6 1 := by
    rw [hnew, hold]
    revert hchange
    cases s.on F.LP_CTRL_RX_INV p <;> cases v <;> decide
  rw [receiverTurned_of_inv hdiffer (hkeeps.trans (bitsOf_ctrl s p (g := F.LP_CTRL_LOOPBACK) (by decide)).symm)] at hexec
  generalize ctrlWord s p F.LP_CTRL_RX_INV (b2n v) = w at hexec
  have hput := put_moves s F.LP_CTRL_RX_INV (b2n v) p
  have hsync := syncLost_moves (s.put F.LP_CTRL_RX_INV (b2n v) p) p
  have hdrop := prbsDrop_moves (syncLost (s.put F.LP_CTRL_RX_INV (b2n v) p) p) p
  have hlevels := controlled_moves (prbsDrop (syncLost (s.put F.LP_CTRL_RX_INV (b2n v) p) p) p) w p
  have hmoves := ((hput.trans hsync).trans hdrop).trans hlevels
  refine gives_of_act ha hexec (hmoves.chip ▸ ha.2) ⟨?_, ?_, ?_, hmoves.portOnly [F.LP_CTRL_RX_INV] (by decide)⟩
  · rw [hlevels.get _ (by decide), hdrop.get _ (by decide), hsync.get _ (by decide)]
    exact State.get_put_bit _ _ _ _ _ (by decide) (by decide)
  · rw [hlevels.get _ (by decide), hdrop.get _ (by decide), syncLost_sync]
  · rw [hlevels.get _ (by decide), prbsDrop_lock]

theorem loopbackChange_turns (ha : s.Awake) {v : Fin 4} (hv : v ≠ 3) : Gives (.loopbackChange p v) s fun t =>
    t.get F.LP_CTRL_LOOPBACK p = v ∧ PortOnly p [F.LP_CTRL_LOOPBACK.at p] s t ∧
    ((v = 1) ≠ (s.get F.LP_CTRL_LOOPBACK p = 1) → t.get F.LP_STATUS_CDR_LOCK p = 0 ∧ t.get F.LP_STATUS_CODE_SYNC p = 0 ∧
      t.get F.LP_STATUS_RCLK_VALID p = 0) := by
  have hnew : bitsOf (ctrlWord s p F.LP_CTRL_LOOPBACK v) 8 2 = v :=
    (ctrlWord_field s p F.LP_CTRL_LOOPBACK v).trans (Nat.mod_eq_of_lt v.isLt)
  have hold : bitsOf (s.get F.LP_CTRL p) 8 2 = s.get F.LP_CTRL_LOOPBACK p := bitsOf_ctrl s p (g := F.LP_CTRL_LOOPBACK) (by decide)
  have hexec := exec_runningWrite (c := .loopbackChange p v) (f := F.LP_CTRL_LOOPBACK) (x := v) hfree hrun hen rfl (by decide)
    (by rw [hnew]; exact fun h3 => hv (Fin.ext h3))
  generalize ctrlWord s p F.LP_CTRL_LOOPBACK v = w at hexec hnew
  generalize s.get F.LP_CTRL p = old at hexec hold
  have hput := put_moves s F.LP_CTRL_LOOPBACK v p
  have hturned := receiverTurned_moves (s.put F.LP_CTRL_LOOPBACK v p) p w old
  have hnear := receiverTurned_of_near (s := s.put F.LP_CTRL_LOOPBACK v p) (p := p) (v := w) (old := old)
  generalize receiverTurned p w old (s.put F.LP_CTRL_LOOPBACK v p) = u at hexec hturned hnear
  have hlevels := controlled_moves u w p
  have hmoves := (hput.trans hturned).trans hlevels
  refine gives_of_act ha hexec (hmoves.chip ▸ ha.2) ⟨?_, hmoves.portOnly [F.LP_CTRL_LOOPBACK] (by decide), fun hdiffer => ?_⟩
  · rw [hlevels.get _ (by decide), hturned.get _ (by decide)]
    exact get_put_same _ _ _ (by decide) v.isLt
  · have hbits : (bitsOf w 8 2 == 1) ≠ (bitsOf old 8 2 == 1) := by
      rw [hnew, hold]
      intro hsame
      refine hdiffer (propext (Iff.trans ?_ (Bool.eq_iff_iff.mp hsame |>.trans beq_iff_eq)))
      rw [beq_iff_eq]
      exact Fin.ext_iff
    obtain ⟨hlock, hsync⟩ := hnear hbits
    refine ⟨(hlevels.get _ (by decide)).trans hlock, (hlevels.get _ (by decide)).trans hsync, ?_⟩
    rw [formed_rclk, rclkDue_of_no_lock (((timingTaken_moves _ _ _).get _ (by decide)).trans hlock)]
    rfl

end

/-- Settles O20: both are writes of LP_CTRL in a port that runs on, and `receiverTurned` says what they make of the receiver. -/
theorem receiverControls : Obligations.ReceiverControls := fun _ _ ha hfree hrun hen =>
  ⟨fun _ hloop hchange => rxInvChange_turns hfree hrun hen ha hloop hchange, fun _ hv => loopbackChange_turns hfree hrun hen ha hv⟩

end Sys2Proof.Machine
end

section
/-!
PROOFS. The measurements of a line port: PRBS lock and counts, the triggers of LP_CMD, one injected error, and the eye scan (R247, R257,
R258, R261).
-/
namespace Sys2Proof.Machine

variable {s t u : State} {p : Fin 16}

/-! ### States that differ in registers and one port's record -/

theorem Only.trans_nil {fs : List (Nat × Nat × Nat)} (h : Only [] s t) (k : Only fs t u) : Only fs s u :=
  Only.trans ⟨h.1, h.2.mono (List.forall_mem_nil _)⟩ k

theorem Only.get_nil (h : Only [] s t) (f : Field) (i : Nat) : t.get f i = s.get f i :=
  h.2.get f i 0 (List.forall_mem_nil _)

theorem Only.on_nil (h : Only [] s t) (f : Field) (i : Nat) : t.on f i = s.on f i := congrArg (· != 0) (h.get_nil f i)

theorem Only.portX {fs : List (Nat × Nat × Nat)} (h : Only fs s t) (q : Nat) : t.portX q = s.portX q := portX_of_port h.port q

theorem PortMoves.onlyPort {gs : List Field} {p : Nat} (h : PortMoves gs p s t) (hrest : t.tg = s.tg ∧ t.ps = s.ps) : OnlyPort p s t := by
  obtain ⟨htg, hps⟩ := hrest
  refine ⟨?_, h.others⟩
  have hall := h.rest
  rw [htg, hps] at hall
  exact hall

theorem Only.moves {gs : List Field} {p : Nat} (h : Only (placesAt gs p) s t) : PortMoves gs p s t :=
  ⟨by rw [h.1], fun q _ => h.portX q, h.2⟩

/-! ### The triggers of LP_CMD (R247, R257, R258, R261) -/

theorem exec_lpCmd {c : Instr} {v : Nat} (hexec : exec c s = act s (writeLp s F.LP_CMD p v))
    (h : bitOf v 3 = true → s.on F.LP_STATUS_EYE_BUSY p = false ∧ s.on F.LP_STATUS_CDR_LOCK p = true) :
    ∃ u, Only [] s u ∧ exec c s = act s (hookLpCmd p v u) := by
  obtain ⟨u, hsame, hwrite⟩ := writeLp_cmd p h
  exact ⟨u, hsame, hexec.trans (congrArg (act s) hwrite)⟩

theorem reg_put_zero (s : State) (f : Field) (p : Nat) (hf : f.lo = 0 ∧ f.w = 32) : (s.put f 0 p).reg (f.addr p) = 0 :=
  reg_put_word s f 0 p 0 hf.1 hf.2

theorem prbsCntClr_clears (ha : s.Awake) : Gives (.prbsCntClr p) s fun t =>
    t.reg (F.LP_PRBS_ERR.addr p) = 0 ∧ t.reg (F.LP_PRBS_BITS_LO.addr p) = 0 ∧ t.reg (F.LP_PRBS_BITS_HI.addr p) = 0 ∧
    Only [F.LP_PRBS_ERR.word p, F.LP_PRBS_BITS_LO.word p, F.LP_PRBS_BITS_HI.word p] s t := by
  obtain ⟨u, hsame, hexec⟩ := exec_lpCmd (s := s) (c := .prbsCntClr p) (p := p) (v := 0x01) rfl (fun h => absurd h (by decide))
  have hhook : hookLpCmd p 0x01 u = ((u.put F.LP_PRBS_BITS_LO 0 p).put F.LP_PRBS_BITS_HI 0 p).put F.LP_PRBS_ERR 0 p := rfl
  rw [hhook] at hexec
  have hcleared : Only [F.LP_PRBS_ERR.word p, F.LP_PRBS_BITS_LO.word p, F.LP_PRBS_BITS_HI.word p] u
      (((u.put F.LP_PRBS_BITS_LO 0 p).put F.LP_PRBS_BITS_HI 0 p).put F.LP_PRBS_ERR 0 p) :=
    ((only_put (List.mem_cons_of_mem _ (List.mem_cons_self))).trans
      (only_put (List.mem_cons_of_mem _ (List.mem_cons_of_mem _ (List.mem_cons_self))))).trans (only_put (List.mem_cons_self))
  have hall := hsame.trans_nil hcleared
  refine gives_of_act ha hexec (hall.chip ▸ ha.2) ⟨reg_put_zero _ _ _ (by decide), ?_, ?_, hall⟩
  · rw [State.reg_put_other _ _ _ _ _ (by simp [Field.addr, F.LP_PRBS_BITS_LO, F.LP_PRBS_ERR]),
      State.reg_put_other _ _ _ _ _ (by simp [Field.addr, F.LP_PRBS_BITS_LO, F.LP_PRBS_BITS_HI])]
    exact reg_put_zero _ _ _ (by decide)
  · rw [State.reg_put_other _ _ _ _ _ (by simp [Field.addr, F.LP_PRBS_BITS_HI, F.LP_PRBS_ERR])]
    exact reg_put_zero _ _ _ (by decide)

theorem cvCntClr_clears (ha : s.Awake) : Gives (.cvCntClr p) s fun t =>
    t.reg (F.LP_CV_CNT.addr p) = 0 ∧ Only [F.LP_CV_CNT.word p] s t := by
  obtain ⟨u, hsame, hexec⟩ := exec_lpCmd (s := s) (c := .cvCntClr p) (p := p) (v := 0x04) rfl (fun h => absurd h (by decide))
  have hhook : hookLpCmd p 0x04 u = u.put F.LP_CV_CNT 0 p := rfl
  rw [hhook] at hexec
  have hall : Only [F.LP_CV_CNT.word p] s (u.put F.LP_CV_CNT 0 p) := hsame.trans_nil (only_put (List.mem_singleton.mpr rfl))
  exact gives_of_act ha hexec (hall.chip ▸ ha.2) ⟨reg_put_zero _ _ _ (by decide), hall⟩

theorem errInject_marks (ha : s.Awake) (hgen : s.on F.LP_PRBS_GEN p = true) : Gives (.errInject p) s fun t =>
    t.portX p = { s.portX p with errInject := true } ∧ OnlyPort p s t ∧ RegsKept [] s t := by
  obtain ⟨u, hsame, hexec⟩ := exec_lpCmd (s := s) (c := .errInject p) (p := p) (v := 0x02) rfl (fun h => absurd h (by decide))
  have hon : (bitOf 0x02 1 && u.on F.LP_PRBS_GEN p) = true := by
    rw [hsame.on_nil, hgen]
    rfl
  have hhook : hookLpCmd p 0x02 u = u.modPort p fun x => { x with errInject := true } := if_pos hon
  rw [hhook] at hexec
  have hmoves := (Only.moves (gs := []) (p := p) hsame).modPort fun x => { x with errInject := true }
  refine gives_of_act ha hexec (hmoves.chip ▸ ha.2) ⟨?_, hmoves.onlyPort (by rw [hsame.1]; exact ⟨rfl, rfl⟩), hmoves.kept⟩
  rw [State.portX_modPort, hsame.portX]

/-! ### The eye scan (R261) -/

theorem eyeStart_starts (ha : s.Awake) (hidle : s.get F.LP_STATUS_EYE_BUSY p = 0) (hlock : s.get F.LP_STATUS_CDR_LOCK p = 1) :
    Gives (.eyeStart p) s fun t =>
      t.get F.LP_STATUS_EYE_BUSY p = 1 ∧ t.get F.LP_STATUS_EYE_ABORTED p = 0 ∧
      t.portX p = { s.portX p with eyeBits := 0, eyeErrs := 0, eyeDwell := s.get F.LP_EYE_CTRL_DWELL p } ∧
      OnlyPort p s t ∧ RegsKept [F.LP_STATUS_EYE_BUSY.at p, F.LP_STATUS_EYE_ABORTED.at p] s t := by
  obtain ⟨u, hsame, hexec⟩ := exec_lpCmd (s := s) (c := .eyeStart p) (p := p) (v := 0x08) rfl (fun _ => ⟨off_of_get hidle, on_of_get hlock⟩)
  have hhook : hookLpCmd p 0x08 u = ((u.put F.LP_STATUS_EYE_BUSY 1 p).put F.LP_STATUS_EYE_ABORTED 0 p).modPort p fun x =>
      { x with eyeBits := 0, eyeErrs := 0, eyeDwell := u.get F.LP_EYE_CTRL_DWELL p } := rfl
  rw [hhook, hsame.get_nil] at hexec
  have hmoves := (((Only.moves (gs := []) hsame).trans (put_moves u F.LP_STATUS_EYE_BUSY 1 p)).trans (put_moves _ F.LP_STATUS_EYE_ABORTED 0 p)).modPort
    fun x => { x with eyeBits := 0, eyeErrs := 0, eyeDwell := s.get F.LP_EYE_CTRL_DWELL p }
  refine gives_of_act ha hexec (hmoves.chip ▸ ha.2) ⟨?_, ?_, ?_, hmoves.onlyPort (by rw [hsame.1]; exact ⟨rfl, rfl⟩), hmoves.kept⟩
  · rw [State.modPort_get, (put_moves _ _ _ _).get _ (by decide)]
    exact get_put_same _ _ _ (by decide) (by decide)
  · rw [State.modPort_get]
    exact get_put_same _ _ _ (by decide) (by decide)
  · rw [State.portX_modPort, State.portX_put, State.portX_put, hsame.portX]

/-- What a scan shows when it ends. -/
theorem eyeEnd_shows (s : State) (p : Fin 16) (bits errs : Nat) :
    (eyeEnd s p bits errs).get F.LP_EYE_BITS p = bits % 2 ^ 32 ∧ (eyeEnd s p bits errs).get F.LP_EYE_ERR p = min errs (2 ^ 32 - 1) ∧
    (eyeEnd s p bits errs).get F.LP_STATUS_EYE_BUSY p = 0 ∧ (eyeEnd s p bits errs).get F.LP_EVENT_EYE_DONE p = 1 ∧
    Only [F.LP_EYE_BITS.word p, F.LP_EYE_ERR.word p, F.LP_STATUS_EYE_BUSY.at p, F.LP_EVENT_EYE_DONE.at p] s (eyeEnd s p bits errs) := by
  refine ⟨?_, ?_, ?_, State.get_raiseBit _ _ _ _ (by decide) (by decide), rfl, (eyeEnd_moves s p bits errs).kept⟩
  · rw [eyeEnd, (raiseBit_moves _ _ _).get _ (by decide), (put_moves _ _ _ _).get _ (by decide), (put_moves _ _ _ _).get _ (by decide)]
    exact State.get_put _ _ _ _ _ (by decide)
  · rw [eyeEnd, (raiseBit_moves _ _ _).get _ (by decide), (put_moves _ _ _ _).get _ (by decide)]
    exact get_put_same _ _ _ (by decide) (by simp only [F.LP_EYE_ERR]; omega)
  · rw [eyeEnd, (raiseBit_moves _ _ _).get _ (by decide)]
    exact get_put_same _ _ _ (by decide) (by decide)

theorem eyeAbort_ends (ha : s.Awake) (hbusy : s.get F.LP_STATUS_EYE_BUSY p = 1) : Gives (.eyeAbort p) s fun t =>
    t.get F.LP_EYE_BITS p = (s.portX p).eyeBits % 2 ^ 32 ∧ t.get F.LP_EYE_ERR p = min (s.portX p).eyeErrs (2 ^ 32 - 1) ∧
    t.get F.LP_STATUS_EYE_BUSY p = 0 ∧ t.get F.LP_EVENT_EYE_DONE p = 1 ∧
    Only [F.LP_EYE_BITS.word p, F.LP_EYE_ERR.word p, F.LP_STATUS_EYE_BUSY.at p, F.LP_EVENT_EYE_DONE.at p] s t := by
  obtain ⟨u, hsame, hexec⟩ := exec_lpCmd (s := s) (c := .eyeAbort p) (p := p) (v := 0x10) rfl (fun h => absurd h (by decide))
  have hon : (bitOf 0x10 4 && u.on F.LP_STATUS_EYE_BUSY p) = true := by
    rw [hsame.on_nil, on_of_get hbusy]
    rfl
  have hhook : hookLpCmd p 0x10 u = eyeEnd u p (u.portX p).eyeBits (u.portX p).eyeErrs := if_pos hon
  rw [hhook, hsame.portX] at hexec
  obtain ⟨hbits, herrs, hidle, hdone, honly⟩ := eyeEnd_shows u p (s.portX p).eyeBits (s.portX p).eyeErrs
  exact gives_of_act ha hexec ((hsame.trans_nil honly).chip ▸ ha.2) ⟨hbits, herrs, hidle, hdone, hsame.trans_nil honly⟩

theorem eyeDone_ends (ha : s.Awake) (hbusy : s.get F.LP_STATUS_EYE_BUSY p = 1) (errs : Nat) : Gives (.eyeDone p errs) s fun t =>
    t.get F.LP_EYE_BITS p = 2 ^ ((s.portX p).eyeDwell + 16) % 2 ^ 32 ∧ t.get F.LP_EYE_ERR p = min errs (2 ^ 32 - 1) ∧
    t.get F.LP_STATUS_EYE_BUSY p = 0 ∧ t.get F.LP_EVENT_EYE_DONE p = 1 ∧
    Only [F.LP_EYE_BITS.word p, F.LP_EYE_ERR.word p, F.LP_STATUS_EYE_BUSY.at p, F.LP_EVENT_EYE_DONE.at p] s t :=
  have hshows := eyeEnd_shows s p (2 ^ ((s.portX p).eyeDwell + 16)) errs
  gives_of_act ha (congrArg (act s) (if_pos (on_of_get hbusy))) (hshows.2.2.2.2.chip ▸ ha.2) hshows

/-! ### The checker (R257) -/

/-- Far-end loopback sends the groups back; that moves what the port last sent alone. -/
def groupsLooped (s : State) (p : Nat) (gs : List Nat) : State :=
  if s.get F.LP_CTRL_LOOPBACK p = 2 ∧ !s.cmlOff then
    s.modPort p fun x => { x with txGroups := invertUnits 32 (s.on F.LP_CTRL_TX_INV p) gs }
  else s

/-- The groups that the receiver takes off the line. -/
def groupsTaken (s : State) (p : Nat) (groups : List Word) : List Nat :=
  invertUnits 32 (s.on F.LP_CTRL_RX_INV p) (if s.get F.LP_CTRL_LOOPBACK p = 1 then (s.portX p).txGroups else groups.map fun g => g.toNat)

theorem groupsLooped_moves (s : State) (p : Nat) (gs : List Nat) : PortMoves [] p s (groupsLooped s p gs) := by
  unfold groupsLooped
  split
  · exact (PortMoves.refl _ _ _).modPort _
  · exact PortMoves.refl _ _ _

theorem groupsLooped_rest (s : State) (p : Nat) (gs : List Nat) : (groupsLooped s p gs).chip = s.chip ∧
    ((groupsLooped s p gs).portX p).chk = (s.portX p).chk ∧ (groupsLooped s p gs).tg = s.tg ∧ (groupsLooped s p gs).ps = s.ps := by
  unfold groupsLooped
  split
  · exact ⟨rfl, by rw [State.portX_modPort], rfl, rfl⟩
  · exact ⟨rfl, rfl, rfl, rfl⟩

/-- One group at the checker of a RUNNING port that is not in SYNC. -/
theorem prbsIn_one {groups : List Word} {g : Nat} (hrun : s.get F.LP_STATUS_STATE p = 2) (hchk : s.on F.LP_PRBS_CHK p = true)
    (hframe : portInSync s p = false) (htap : s.tapOwns = false)
    (hg : invertUnits 32 (s.on F.LP_PRBS_CHK_INV p) (groupsTaken s p groups) = [g]) :
    prbsIn s p groups = checkerTake p (s.get F.LP_PRBS_CHK p) g (groupsLooped s p (groupsTaken s p groups)) := by
  have hmoves := groupsLooped_moves s p (groupsTaken s p groups)
  obtain ⟨hchip, -⟩ := groupsLooped_rest s p (groupsTaken s p groups)
  have heq : prbsIn s p groups = (fun u : State => if !portRunning u p || !u.on F.LP_PRBS_CHK p || portInSync u p || u.tapOwns then u
      else forList (invertUnits 32 (u.on F.LP_PRBS_CHK_INV p) (groupsTaken s p groups))
        (fun g s => checkerTake p (s.get F.LP_PRBS_CHK p) g s) u) (groupsLooped s p (groupsTaken s p groups)) := rfl
  have hstate := (hmoves.get F.LP_STATUS_STATE (by decide)).trans hrun
  have hsync : portInSync (groupsLooped s p (groupsTaken s p groups)) p = false := by
    rw [portInSync, hmoves.get F.LF_PSTATUS_FSTATE (by decide)]
    exact hframe
  have howns : (groupsLooped s p (groupsTaken s p groups)).tapOwns = false := by
    rw [State.tapOwns, hchip]
    exact htap
  rw [heq]
  dsimp only
  rw [running_iff.mpr hstate, hmoves.on F.LP_PRBS_CHK (by decide), hchk, hsync, howns, hmoves.on F.LP_PRBS_CHK_INV (by decide), hg]
  simp only [Bool.not_true, Bool.or_self, Bool.false_eq_true, if_false, forList, hmoves.get F.LP_PRBS_CHK (by decide)]

/-- A group's 32 bits and its errors are counted. -/
def bitsCounted (s : State) (p e : Nat) : State :=
  let n := s.get F.LP_PRBS_BITS_LO p + 2 ^ 32 * s.get F.LP_PRBS_BITS_HI p + 32
  ((s.put F.LP_PRBS_BITS_LO n p).put F.LP_PRBS_BITS_HI (n / 2 ^ 32) p).bumpSat F.LP_PRBS_ERR e p

def countFields : List Field := [F.LP_PRBS_BITS_LO] ++ [F.LP_PRBS_BITS_HI] ++ [F.LP_PRBS_ERR]

theorem bitsCounted_moves (s : State) (p e : Nat) : PortMoves countFields p s (bitsCounted s p e) :=
  ((put_moves _ _ _ _).trans (put_moves _ _ _ _)).trans (put_moves _ _ _ _)

theorem bitsCounted_counts (s : State) (p : Fin 16) (e : Nat) :
    (bitsCounted s p e).get64 F.LP_PRBS_BITS_LO p = (s.get64 F.LP_PRBS_BITS_LO p + 32) % 2 ^ 64 ∧
    (bitsCounted s p e).get F.LP_PRBS_ERR p = min (s.get F.LP_PRBS_ERR p + e) (2 ^ 32 - 1) := by
  have hput := (put_moves s F.LP_PRBS_BITS_LO (s.get F.LP_PRBS_BITS_LO p + 2 ^ 32 * s.get F.LP_PRBS_BITS_HI p + 32) p).trans
    (put_moves _ F.LP_PRBS_BITS_HI ((s.get F.LP_PRBS_BITS_LO p + 2 ^ 32 * s.get F.LP_PRBS_BITS_HI p + 32) / 2 ^ 32) p)
  have hlow : (bitsCounted s p e).get F.LP_PRBS_BITS_LO p =
      (s.get F.LP_PRBS_BITS_LO p + 2 ^ 32 * s.get F.LP_PRBS_BITS_HI p + 32) % 2 ^ 32 := by
    simp only [bitsCounted, State.bumpSat]
    rw [(put_moves _ _ _ _).get _ (by decide), (put_moves _ _ _ _).get _ (by decide)]
    exact State.get_put _ _ _ _ _ (by decide)
  have hhigh : (bitsCounted s p e).get F.LP_PRBS_BITS_HI p =
      (s.get F.LP_PRBS_BITS_LO p + 2 ^ 32 * s.get F.LP_PRBS_BITS_HI p + 32) / 2 ^ 32 % 2 ^ 32 := by
    simp only [bitsCounted, State.bumpSat]
    rw [(put_moves _ _ _ _).get _ (by decide)]
    exact State.get_put _ _ _ _ _ (by decide)
  constructor
  · have hwide (t : State) : t.get64 F.LP_PRBS_BITS_LO p = t.get F.LP_PRBS_BITS_LO p + 2 ^ 32 * t.get F.LP_PRBS_BITS_HI p := rfl
    rw [hwide, hwide, hlow, hhigh]
    omega
  · simp only [bitsCounted, State.bumpSat]
    rw [get_put_same _ _ _ (by decide) (by simp only [satAdd, F.LP_PRBS_ERR]; omega), hput.get _ (by decide)]
    rfl

/-- A fourth clean group in a row locks the checker. -/
theorem checkerTake_locks {p code g st : Nat} (hlock : s.get F.LP_STATUS_PRBS_LOCK p = 0) (hst : (s.portX p).chk.st = some st)
    (hclean : (s.portX p).chk.clean = 3) (he : onesIn 32 ((prbsRun code 32 st 0).1 ^^^ g) = 0) :
    checkerTake p code g s =
      (s.modPort p fun x => { x with chk := { st := some (prbsRun code 32 st 0).2 } }).put F.LP_STATUS_PRBS_LOCK 1 p := by
  have hgroup : checkGroup code false (s.portX p).chk g = ({ st := some (prbsRun code 32 st 0).2 }, 0, true, false) := by
    simp [checkGroup, hst, hclean, he]
  simp only [checkerTake, off_of_get hlock, hgroup, Bool.false_eq_true, if_false, if_true]

/-- A checker in lock compares a group, and the eighth in a row with four errors or more loses the lock. -/
theorem checkGroup_locked {c : Checker} {code g st e : Nat} (hst : c.st = some st)
    (he : onesIn 32 ((prbsRun code 32 st 0).1 ^^^ g) = e) :
    ∃ d : Checker, checkGroup code true c g = (d, e, false, decide (c.dirty = 7 ∧ 4 ≤ e)) := by
  simp only [checkGroup, hst, he, if_true]
  by_cases hlost : c.dirty = 7 ∧ 4 ≤ e
  · exact ⟨{}, by simp only [hlost.1, hlost.2, if_true, decide_true, and_self]⟩
  · have heighth : ¬ (if 4 ≤ e then c.dirty + 1 else 0) = 8 := by
      split <;> omega
    rw [if_neg heighth, decide_eq_false hlost]
    exact ⟨_, rfl⟩

/-- The lock dropped, where the group loses it. -/
def lockDropped (lost : Prop) [Decidable lost] (s : State) (p : Nat) : State := if lost then prbsDrop s p else s

/-- A group at a checker in lock is counted. -/
theorem checkerTake_counts {p code g st e : Nat} (hlock : s.get F.LP_STATUS_PRBS_LOCK p = 1) (hst : (s.portX p).chk.st = some st)
    (he : onesIn 32 ((prbsRun code 32 st 0).1 ^^^ g) = e) : ∃ c : Checker, checkerTake p code g s =
      lockDropped ((s.portX p).chk.dirty = 7 ∧ 4 ≤ e) (bitsCounted (s.modPort p fun x => { x with chk := c }) p e) p := by
  obtain ⟨c, hc⟩ := checkGroup_locked hst he
  refine ⟨c, ?_⟩
  simp only [checkerTake, lockDropped, bitsCounted, on_of_get hlock, hc, Bool.false_eq_true, if_false, if_true, decide_eq_true_eq]

theorem prbsDrop_rest (s : State) (p : Nat) : (prbsDrop s p).tg = s.tg ∧ (prbsDrop s p).ps = s.ps := by
  unfold prbsDrop
  dsimp only
  split <;> exact ⟨rfl, rfl⟩

theorem prbsDrop_event {p : Fin 16} (hlock : s.get F.LP_STATUS_PRBS_LOCK p = 1) : (prbsDrop s p).get F.LP_EVENT_PRBS_LOST p = 1 := by
  unfold prbsDrop
  dsimp only
  have hon : (s.modPort p fun x => { x with chk := {} }).on F.LP_STATUS_PRBS_LOCK p = true := on_of_get hlock
  rw [if_pos hon]
  exact State.get_raiseBit _ _ _ _ (by decide) (by decide)

theorem lockDropped_drops (lost : Prop) [Decidable lost] {p : Fin 16} (hlock : s.get F.LP_STATUS_PRBS_LOCK p = 1) :
    PortMoves prbsDropFields p s (lockDropped lost s p) ∧
    (lockDropped lost s p).get F.LP_STATUS_PRBS_LOCK p = (if lost then 0 else 1) ∧
    (lost → (lockDropped lost s p).get F.LP_EVENT_PRBS_LOST p = 1) ∧
    ((lockDropped lost s p).tg = s.tg ∧ (lockDropped lost s p).ps = s.ps) := by
  unfold lockDropped
  split
  next => exact ⟨prbsDrop_moves s p, prbsDrop_lock s p, fun _ => prbsDrop_event hlock, prbsDrop_rest s p⟩
  next hstays => exact ⟨PortMoves.refl _ _ _, hlock, fun hlost => absurd hlost hstays, rfl, rfl⟩

theorem b2n_not_lost (d e : Nat) : b2n (!(d == 7 && decide (4 ≤ e))) = if d = 7 ∧ 4 ≤ e then 0 else 1 := by
  have hlost : (d == 7 && decide (4 ≤ e)) = decide (d = 7 ∧ 4 ≤ e) := (Bool.decide_and _ _).symm
  rw [hlost]
  split
  next h => rw [decide_eq_true h]; rfl
  next h => rw [decide_eq_false h]; rfl

section
variable {groups : List Word} {g st e : Nat} (ha : s.Awake) (hrun : s.get F.LP_STATUS_STATE p = 2)
  (hchk : s.on F.LP_PRBS_CHK p = true) (hframe : portInSync s p = false) (htap : s.tapOwns = false)
  (hg : invertUnits 32 (s.on F.LP_PRBS_CHK_INV p) (groupsTaken s p groups) = [g]) (hst : (s.portX p).chk.st = some st)
  (he : e = onesIn 32 ((prbsRun (s.get F.LP_PRBS_CHK p) 32 st 0).1 ^^^ g))
include ha hrun hchk hframe htap hg hst he

theorem prbsLock_locks (hlock : s.get F.LP_STATUS_PRBS_LOCK p = 0) (hclean : (s.portX p).chk.clean = 3) (hzero : e = 0) :
    Gives (.prbsLock p groups) s fun t =>
      t.get F.LP_STATUS_PRBS_LOCK p = 1 ∧ OnlyPort p s t ∧ RegsKept [F.LP_STATUS_PRBS_LOCK.at p] s t := by
  have hin := prbsIn_one hrun hchk hframe htap hg
  have hlooped := groupsLooped_moves s p (groupsTaken s p groups)
  obtain ⟨-, hsame, htg, hps⟩ := groupsLooped_rest s p (groupsTaken s p groups)
  rw [checkerTake_locks ((hlooped.get _ (by decide)).trans hlock) (hsame ▸ hst) (hsame ▸ hclean) (he.symm.trans hzero)] at hin
  have hmoves := (hlooped.modPort fun x => { x with chk := { st := some (prbsRun (s.get F.LP_PRBS_CHK p) 32 st 0).2 } }).trans
    (put_moves _ F.LP_STATUS_PRBS_LOCK 1 p)
  exact gives_of_act ha (congrArg (act s) hin) (hmoves.chip ▸ ha.2)
    ⟨get_put_same _ _ _ (by decide) (by decide), hmoves.onlyPort ⟨htg, hps⟩, hmoves.kept⟩

theorem prbsLost_counts (hlock : s.get F.LP_STATUS_PRBS_LOCK p = 1) : Gives (.prbsLost p groups) s fun t =>
    t.get64 F.LP_PRBS_BITS_LO p = (s.get64 F.LP_PRBS_BITS_LO p + 32) % 2 ^ 64 ∧
    t.get F.LP_PRBS_ERR p = min (s.get F.LP_PRBS_ERR p + e) (2 ^ 32 - 1) ∧
    t.get F.LP_STATUS_PRBS_LOCK p = b2n !((s.portX p).chk.dirty == 7 && decide (4 ≤ e)) ∧
    ((s.portX p).chk.dirty = 7 ∧ 4 ≤ e → t.get F.LP_EVENT_PRBS_LOST p = 1) ∧
    OnlyPort p s t ∧ RegsKept ([F.LP_STATUS_PRBS_LOCK.at p, F.LP_EVENT_PRBS_LOST.at p, F.LP_PRBS_ERR.word p] ++
      F.LP_PRBS_BITS_LO.words64 p) s t := by
  have hin := prbsIn_one hrun hchk hframe htap hg
  have hlooped := groupsLooped_moves s p (groupsTaken s p groups)
  obtain ⟨-, hsame, htg, hps⟩ := groupsLooped_rest s p (groupsTaken s p groups)
  obtain ⟨c, htake⟩ := checkerTake_counts (s := groupsLooped s p (groupsTaken s p groups)) ((hlooped.get _ (by decide)).trans hlock)
    (hsame ▸ hst) he.symm
  have hkept := hlooped.modPort fun x => { x with chk := c }
  rw [htake, hsame] at hin
  have hlast : ((groupsLooped s p (groupsTaken s p groups)).modPort p fun x => { x with chk := c }).tg = s.tg ∧
      ((groupsLooped s p (groupsTaken s p groups)).modPort p fun x => { x with chk := c }).ps = s.ps := ⟨htg, hps⟩
  generalize ((groupsLooped s p (groupsTaken s p groups)).modPort p fun x => { x with chk := c }) = w at hin hkept hlast
  obtain ⟨hbits, herrs⟩ := bitsCounted_counts w p e
  have hwide : w.get64 F.LP_PRBS_BITS_LO p = s.get64 F.LP_PRBS_BITS_LO p :=
    congrArg₂ (fun a b => a + 2 ^ 32 * b) (hkept.get F.LP_PRBS_BITS_LO (by decide)) (hkept.get F.LP_PRBS_BITS_HI (by decide))
  rw [hwide] at hbits
  rw [hkept.get _ (by decide)] at herrs
  have hcounted := hkept.trans (bitsCounted_moves w p e)
  have hstands := (hcounted.get F.LP_STATUS_PRBS_LOCK (by decide)).trans hlock
  have hrest : (bitsCounted w p e).tg = s.tg ∧ (bitsCounted w p e).ps = s.ps := hlast
  generalize bitsCounted w p e = v at hin hbits herrs hcounted hstands hrest
  obtain ⟨hmoves, hbit, hevent, hdropped⟩ := lockDropped_drops ((s.portX p).chk.dirty = 7 ∧ 4 ≤ e) hstands
  have hall := hcounted.trans hmoves
  refine gives_of_act ha (congrArg (act s) hin) (hall.chip ▸ ha.2) ⟨?_, ?_, ?_, hevent, ?_, ?_⟩
  · rw [← hbits]
    exact congrArg₂ (fun a b => a + 2 ^ 32 * b) (hmoves.get F.LP_PRBS_BITS_LO (by decide)) (hmoves.get F.LP_PRBS_BITS_HI (by decide))
  · rw [hmoves.get _ (by decide), herrs]
  · rw [hbit, b2n_not_lost]
  · exact hall.onlyPort ⟨hdropped.1.trans hrest.1, hdropped.2.trans hrest.2⟩
  · exact (hall.mono (hs := [F.LP_STATUS_PRBS_LOCK, F.LP_EVENT_PRBS_LOST, F.LP_PRBS_ERR, F.LP_PRBS_BITS_LO, F.LP_PRBS_BITS_HI])
      (by decide)).kept

end

/-- Settles O21: the triggers of LP_CMD, then a group at the checker, then the two ends of a scan. -/
theorem portMeasurements : Obligations.PortMeasurements := fun _ _ ha =>
  ⟨prbsCntClr_clears ha, cvCntClr_clears ha, errInject_marks ha,
    fun _ _ _ _ hrun hchk hframe htap hg hst he =>
      ⟨prbsLock_locks ha hrun hchk hframe htap hg hst he, prbsLost_counts ha hrun hchk hframe htap hg hst he⟩,
    eyeStart_starts ha, fun hbusy => ⟨eyeAbort_ends ha hbusy, eyeDone_ends ha hbusy⟩⟩

end Sys2Proof.Machine
end

section
/-!
PROOFS. The two-wire bus of a port's module: host transfers, diagnostic polls and LP_MOD_CFG (R264 to R267, R271, Tables 7.8, 7.9).
-/
namespace Sys2Proof.Machine

variable {s t : State} {p : Fin 16}

/-! ### Bytes and the words that hold them (R5) -/

theorem toLE_ofLE (bs : List Byte) : toLE bs.length (ofLE bs) = bs := by
  induction bs with
  | nil => rfl
  | cons b bs ih =>
    have hbyte : BitVec.ofNat 8 (b.toNat + 256 * ofLE bs) = b := BitVec.eq_of_toNat_eq (by simp [b.isLt])
    have hrest : (b.toNat + 256 * ofLE bs) / 256 = ofLE bs := by omega
    rw [List.length_cons, ofLE, toLE, hbyte, hrest, ih]

theorem ofLE_lt (bs : List Byte) : ofLE bs < 256 ^ bs.length := by
  rw [← toLE_ofLE bs, ofLE_toLE, length_toLE]
  exact Nat.mod_lt _ (by positivity)

theorem leAt_lt (bs : List Byte) (off : Nat) : leAt bs off 4 < 2 ^ 32 :=
  (ofLE_lt _).trans_le (Nat.pow_le_pow_right (by decide) (List.length_take_le _ _))

/-- Four bytes that the list holds, spelled from the word they make. -/
theorem toLE_leAt {bs : List Byte} {off : Nat} (h : off + 4 ≤ bs.length) : toLE 4 (leAt bs off 4) = (bs.drop off).take 4 := by
  have hlength : ((bs.drop off).take 4).length = 4 := by simp; omega
  calc toLE 4 (leAt bs off 4) = toLE ((bs.drop off).take 4).length (ofLE ((bs.drop off).take 4)) := by rw [hlength, leAt]
    _ = (bs.drop off).take 4 := toLE_ofLE _

/-- A list cut in fours. -/
theorem flatMap_fours (bs : List Byte) (n : Nat) : (List.range n).flatMap (fun j => (bs.drop (4 * j)).take 4) = bs.take (4 * n) := by
  induction n with
  | zero => simp
  | succ n ih => rw [List.range_succ, List.flatMap_append, ih, Nat.mul_succ, List.take_add]; simp

theorem length_modBytes (s : State) (p : Nat) : (modBytes s p).length = 16 := by simp [modBytes, List.length_flatMap]

/-- The 16 bytes that four words spell. -/
theorem modBytes_of_words {p : Nat} {bs : List Byte} (hlength : bs.length = 16)
    (h : ∀ j, j < 4 → t.get F.LP_MOD_DATA p j = leAt bs (4 * j) 4) : modBytes t p = bs := by
  have hfours : (List.range 4).flatMap (fun j => toLE 4 (t.get F.LP_MOD_DATA p j)) =
      (List.range 4).flatMap fun j => (bs.drop (4 * j)).take 4 :=
    List.flatMap_congr fun j hj => by
      have hj : j < 4 := List.mem_range.mp hj
      rw [h j hj, toLE_leAt (by omega)]
  rw [modBytes, hfours, flatMap_fours, List.take_of_length_le (by omega)]

/-! ### Four registers of a port written together -/

/-- A field with two indices, its second fixed at `j`, as a field of the port. -/
def Field.second (f : Field) (j : Nat) : Field := { f with base := f.base + f.s2 * j, s2 := 0 }

theorem Field.second_addr (f : Field) (p j : Nat) : (f.second j).addr p = f.addr p j := by
  simp only [Field.second, Field.addr]
  omega

theorem Field.second_get (f : Field) (s : State) (p j : Nat) : s.get (f.second j) p = s.get f p j := by
  rw [State.get, State.get, Field.second_addr]
  rfl

def fourFields (f : Field) : List Field := (List.range 4).map f.second

theorem placesAt_fourFields {f : Field} (hf : f.lo = 0 ∧ f.w = 32) (p : Nat) :
    placesAt (fourFields f) p = (List.range 4).map fun j => f.word p j := by
  obtain ⟨hlo, hw⟩ := hf
  rw [placesAt, fourFields, List.map_map]
  refine List.map_congr_left fun j _ => ?_
  simp only [Function.comp, Field.at, Field.word, Field.second_addr]
  simp only [Field.second, hlo, hw]

/-- The words that `bs` spells, placed over four registers. -/
def wordsPlaced (f : Field) (p : Nat) (bs : List Byte) (s : State) : State :=
  forN 4 (fun j s => s.put f (leAt bs (4 * j) 4) p j) s

theorem wordsPlaced_only {f : Field} (hf : f.lo = 0 ∧ f.w = 32) (p : Nat) (bs : List Byte) (s : State) :
    Only (placesAt (fourFields f) p) s (wordsPlaced f p bs s) := by
  obtain ⟨hlo, hw⟩ := hf
  refine forN_keeps (fun t => Only (placesAt (fourFields f) p) s t) 4 _ (fun j hj t h => h.trans (only_put ?_)) s (only_refl s)
  rw [placesAt_fourFields ⟨hlo, hw⟩, Field.at, hlo, hw]
  exact List.mem_map_of_mem (f := fun j => f.word p j) (List.mem_range.mpr hj)

theorem wordsPlaced_get {f : Field} (hf : f.lo = 0 ∧ f.w = 32 ∧ f.s2 = 4) (p : Nat) (bs : List Byte) (s : State) {j : Nat} (hj : j < 4) :
    (wordsPlaced f p bs s).get f p j = leAt bs (4 * j) 4 := by
  obtain ⟨hlo, hw, hstride⟩ := hf
  have hplaced (n : Nat) (hn : j < n) : (forN n (fun j s => s.put f (leAt bs (4 * j) 4) p j) s).get f p j = leAt bs (4 * j) 4 := by
    induction n with
    | zero => exact absurd hn (Nat.not_lt_zero j)
    | succ n ih =>
      rw [forN_succ]
      rcases Nat.lt_succ_iff_lt_or_eq.mp hn with hbefore | rfl
      · rw [State.get_put_otherReg _ _ _ _ _ _ _ _ (by simp only [Field.addr, hstride]; omega), ih hbefore]
      · rw [State.get_put _ _ _ _ _ (by omega), hw, Nat.mod_eq_of_lt (leAt_lt bs _)]
  exact hplaced 4 hj

theorem wordsPlaced_moves {f : Field} (hf : f.lo = 0 ∧ f.w = 32) (p : Nat) (bs : List Byte) (s : State) :
    PortMoves (fourFields f) p s (wordsPlaced f p bs s) := (wordsPlaced_only hf p bs s).moves

theorem PortMoves.get_second {gs : List Field} {f : Field} (h : PortMoves gs p s t)
    (hgs : (fourFields f).all (fun f => gs.all fun g => separate g f) = true) {j : Nat} (hj : j < 4) :
    t.get f p j = s.get f p j := by
  have hfield := List.all_eq_true.mp hgs _ (List.mem_map_of_mem (f := f.second) (List.mem_range.mpr hj))
  rw [← Field.second_get, h.get _ hfield, Field.second_get]

/-! ### A transfer started (R265) -/

theorem b2n_le_one (b : Bool) : b2n b ≤ 1 := by cases b <;> decide

theorem bitOf_of_div {v i : Nat} {b : Bool} (h : v / 2 ^ i % 2 = b2n b) : bitOf v i = b := by
  rw [bitOf, Nat.testBit_eq_decide_div_mod_eq, h]
  cases b <;> rfl

/-- The transfer that the command asks for. -/
def askedXfer (s : State) (p : Nat) (write dev : Bool) (count : Fin 16) (offset : Byte) : ModXfer :=
  { write := write, dev := dev, count := count, offset := offset.toNat, data := if write then (modBytes s p).take (count.val + 1) else [] }

/-- A transfer is under way, or waits for the poll that is. -/
def withXfer (m : ModXfer) (x : PortX) : PortX := { x with modXfer := some m, modWait := x.polling }

/-- The word that MOD_TRANSFER_START writes into LP_MOD_CMD[p]. -/
def modCmdWord (write dev : Bool) (count : Fin 16) (offset : Byte) : Nat :=
  2 ^ 31 + b2n write * 2 ^ 13 + b2n dev * 2 ^ 12 + count.val * 2 ^ 8 + offset.toNat

section
variable (write dev : Bool) (count : Fin 16) (offset : Byte)

/-- GO, WRITE and DEV. -/
theorem modCmdWord_bits : bitOf (modCmdWord write dev count offset) 31 = true ∧ bitOf (modCmdWord write dev count offset) 13 = write ∧
    bitOf (modCmdWord write dev count offset) 12 = dev := by
  have hcount := count.isLt
  have hoffset := offset.isLt
  have hwrite := b2n_le_one write
  have hdev := b2n_le_one dev
  refine ⟨bitOf_of_div (?_ : _ = 1), bitOf_of_div ?_, bitOf_of_div ?_⟩ <;> rw [modCmdWord] <;> omega

/-- COUNT and OFFSET. -/
theorem modCmdWord_fields : bitsOf (modCmdWord write dev count offset) 8 4 = count ∧
    bitsOf (modCmdWord write dev count offset) 0 8 = offset.toNat := by
  have hcount := count.isLt
  have hoffset := offset.isLt
  have hwrite := b2n_le_one write
  have hdev := b2n_le_one dev
  rw [bitsOf, bitsOf, modCmdWord]
  omega

theorem modTransferStart_starts (ha : s.Awake) (hidle : s.get F.LP_MOD_STAT_BUSY p = 0) (hrange : offset.toNat + count.val ≤ 255) :
    Gives (.modTransferStart p write dev count offset) s fun t =>
      t.get F.LP_MOD_STAT_BUSY p = 1 ∧ (t.portX p).modWait = (s.portX p).polling ∧
      (∃ m, (t.portX p).modXfer = some m ∧ m.write = write ∧ m.dev = dev ∧ m.count = count ∧ m.offset = offset.toNat ∧
        m.data = if write then (modBytes s p).take (count.val + 1) else []) ∧
      OnlyPort p s t ∧ RegsKept [F.LP_MOD_STAT_BUSY.at p] s t := by
  obtain ⟨hgo, hwrite, hdev⟩ := modCmdWord_bits write dev count offset
  obtain ⟨hcount, hoffset⟩ := modCmdWord_fields write dev count offset
  have hexec : exec (.modTransferStart p write dev count offset) s =
      act s (writeLp s F.LP_MOD_CMD p (modCmdWord write dev count offset)) := rfl
  generalize modCmdWord write dev count offset = v at hgo hwrite hdev hcount hoffset hexec
  obtain ⟨hoff, hport⟩ := lpAddr_split (f := F.LP_MOD_CMD) (off := 0x44) (by decide) (by decide) p
  have hjudge : judgeLp s (F.LP_MOD_CMD.addr p) v = St.ok := by
    simp [judgeLp, hoff, hport, hcount, hoffset, off_of_get hidle, rangeIf, hrange]
  obtain ⟨r, hspec, hrw, hw1c, hotp, hlock⟩ := specAt_modCmd p
  obtain ⟨u, old, hsame, hstored⟩ := writeLp_trigger hspec hrw hw1c hotp hlock hjudge
  have hbytes : modBytes u p = modBytes s p :=
    List.flatMap_congr fun j _ => by rw [hsame.2.get F.LP_MOD_DATA p j (List.forall_mem_nil _)]
  have hhook : hookLp (F.LP_MOD_CMD.addr p) v old u =
      (u.put F.LP_MOD_STAT_BUSY 1 p).modPort p (withXfer (askedXfer s p write dev count offset)) := by
    rw [hookLp_modCmd, hookModCmd, if_pos hgo, hwrite, hdev, hcount, hoffset, askedXfer, ← hbytes]
    rfl
  rw [hstored, hhook] at hexec
  have hmoves := ((Only.moves (gs := []) hsame).trans (put_moves u F.LP_MOD_STAT_BUSY 1 p)).modPort
    (withXfer (askedXfer s p write dev count offset))
  refine gives_of_act ha hexec (hmoves.chip ▸ ha.2) ⟨?_, ?_, ⟨askedXfer s p write dev count offset, by rw [State.portX_modPort]; rfl, rfl, rfl, rfl, rfl, rfl⟩,
    hmoves.onlyPort (by rw [hsame.1]; exact ⟨rfl, rfl⟩), hmoves.kept⟩
  · rw [State.modPort_get]
    exact get_put_same _ _ _ (by decide) (by decide)
  · rw [State.portX_modPort, State.portX_put, hsame.portX]
    rfl

end

/-! ### How a transfer runs (R265, R267) -/

section
variable (m : ModXfer) (data : List Byte)

/-- A transfer has its two leading bytes at the least. -/
theorem two_le_length_xferBytes : 2 ≤ (xferBytes m data).length := by simp [xferBytes]

theorem xferRun_whole : xferRun m { data := data } = (0, ((xferBytes m data).flatMap fun b => b) ++ [.stop]) := rfl

theorem xferRun_nacked {i : Nat} (hi : i < 2) : (xferRun m { nack := some i, data := data }).1 = if i = 0 then 1 else 2 := by
  have hlength := two_le_length_xferBytes m data
  have hsent : i < if m.write then (xferBytes m data).length else 3 := by split <;> omega
  have hend : xferEnd m.write (xferBytes m data).length (if m.write then (xferBytes m data).length else 3)
      { nack := some i, data := data } = some (i, if i = 0 then 1 else 2) := by
    have hother : i ≠ 2 := by omega
    simp [xferEnd, Option.filter, hsent, hother]
  have hresult : (if i = 0 then 1 else 2) ≠ 3 := by split <;> decide
  simp only [xferRun, hend]

theorem xferRun_stretched : (xferRun m { stretched := some 0, data := data }).1 = 3 := by
  have hfirst : Nat.blt 0 (xferBytes m data).length = true := by
    rw [Nat.blt_eq]
    exact (two_le_length_xferBytes m data).trans' (by decide)
  simp [xferRun, xferEnd, Option.filter, hfirst]

/-- What a read drives before its data: START, the address and the offset, a repeated START and the address once more. -/
def readHead (m : ModXfer) : List BusOp :=
  [.start, .send (2 * (0x50 + b2n m.dev)) true, .send m.offset true, .restart, .send (2 * (0x50 + b2n m.dev) + 1) true]

/-- The bytes that a read takes; the last is not acknowledged. -/
def readTakes (m : ModXfer) (data : List Byte) : List BusOp :=
  (List.range (m.count + 1)).map fun i => .take (byteAt data i) (i != m.count)

theorem xferRun_read (hread : m.write = false) : (xferRun m { data := data }).2 = readHead m ++ readTakes m data ++ [.stop] := by
  have htaken (l : List Nat) (f : Nat → BusOp) : (l.map fun i => [f i]).flatMap (fun b => b) = l.map f := by
    rw [List.flatMap_map, List.map_eq_flatMap]
  simp [xferRun_whole, xferBytes, readHead, readTakes, hread, htaken]

end

theorem xferEnd_result_le {write : Bool} {k sent i r : Nat} {seen : ModSeen} (h : xferEnd write k sent seen = some (i, r)) : r ≤ 4 := by
  have hnack (j : Nat) : (if j = 0 ∨ (!write ∧ j = 2) then 1 else 2) ≤ 4 := by split <;> decide
  unfold xferEnd at h
  split at h
  · split at h
    · cases h; decide
    · cases h; exact hnack _
  · cases h; decide
  · cases h; exact hnack _
  · cases h

/-- RESULT of a transfer that ran, within Table 7.8's codes. -/
theorem xferRun_result_le (m : ModXfer) (seen : ModSeen) : (xferRun m seen).1 ≤ 4 := by
  have hrun {write : Bool} {k sent : Nat} (whole : List BusOp) (cut nacked : Nat → List BusOp) :
      (match xferEnd write k sent seen with
        | none => ((0, whole) : Nat × List BusOp)
        | some (i, 3) => (3, cut i)
        | some (i, r) => (r, nacked i)).1 ≤ 4 := by
    split
    · exact Nat.zero_le 4
    · exact Nat.le_succ 3
    next h => exact xferEnd_result_le h
  unfold xferRun
  dsimp only
  split
  · decide
  · exact hrun _ _ _
  · split
    · decide
    · exact hrun _ _ _

/-! ### A transfer ended (R265, R266) -/

theorem modEnd_rest (s : State) (p r : Nat) : (modEnd s p r).tg = s.tg ∧ (modEnd s p r).ps = s.ps := by
  unfold modEnd
  dsimp only
  split <;> exact ⟨rfl, rfl⟩

/-- What LP_MOD_STAT and LP_EVENT show of a transfer that has ended. -/
theorem modEnd_shows (s : State) (p : Fin 16) {r : Nat} (hr : r < 8) :
    (modEnd s p r).get F.LP_MOD_STAT_BUSY p = 0 ∧ (modEnd s p r).get F.LP_MOD_STAT_RESULT p = r ∧
    (modEnd s p r).get F.LP_EVENT_MOD_DONE p = 1 ∧ (r ≠ 0 → (modEnd s p r).get F.LP_EVENT_MOD_ERR p = 1) := by
  have hended : ∃ u : State, u.get F.LP_MOD_STAT_BUSY p = 0 ∧ u.get F.LP_MOD_STAT_RESULT p = r ∧ u.get F.LP_EVENT_MOD_DONE p = 1 ∧
      modEnd s p r = (if r = 0 then u else u.raiseBit F.LP_EVENT_MOD_ERR p).modPort p fun x => { x with modXfer := none, modWait := false } := by
    refine ⟨_, ?_, ?_, State.get_raiseBit _ _ _ _ (by decide) (by decide), rfl⟩
    · rw [(raiseBit_moves _ _ _).get _ (by decide), (put_moves _ _ _ _).get _ (by decide)]
      exact get_put_same _ _ _ (by decide) (by decide)
    · rw [(raiseBit_moves _ _ _).get _ (by decide)]
      exact get_put_same _ _ _ (by decide) hr
  obtain ⟨u, hbusy, hresult, hdone, heq⟩ := hended
  rw [heq, State.modPort_get, State.modPort_get, State.modPort_get, State.modPort_get]
  split
  next hzero => exact ⟨hbusy, hresult, hdone, fun hr => absurd hzero hr⟩
  next =>
    rw [(raiseBit_moves _ _ _).get _ (by decide), (raiseBit_moves _ _ _).get _ (by decide), (raiseBit_moves _ _ _).get _ (by decide)]
    exact ⟨hbusy, hresult, hdone, fun _ => State.get_raiseBit _ _ _ _ (by decide) (by decide)⟩

/-- The bytes of a transfer that succeeded, at the head of the 16. -/
def bytesBrought (s : State) (p : Nat) (data : List Byte) : List Byte := data ++ (modBytes s p).drop data.length

theorem placeModData_eq (s : State) (p : Nat) {data : List Byte} (h : data.length ≤ 16) :
    placeModData s p data = wordsPlaced F.LP_MOD_DATA p (bytesBrought s p data) s := by
  have htake : data.take 16 = data := List.take_of_length_le h
  simp only [placeModData, htake]
  rfl

theorem modBytes_placed (s : State) (p : Nat) {data : List Byte} (h : data.length ≤ 16) :
    modBytes (wordsPlaced F.LP_MOD_DATA p (bytesBrought s p data) s) p = bytesBrought s p data := by
  refine modBytes_of_words ?_ fun j hj => wordsPlaced_get (by decide) p _ s hj
  rw [bytesBrought, List.length_append, List.length_drop, length_modBytes]
  omega

theorem PortMoves.modBytes {gs : List Field} (h : PortMoves gs p s t)
    (hgs : (fourFields F.LP_MOD_DATA).all (fun f => gs.all fun g => separate g f) = true) : modBytes t p = modBytes s p :=
  List.flatMap_congr fun _ hj => by rw [h.get_second hgs (List.mem_range.mp hj)]

/-- The host transfer's bytes, placed where a read brought them. -/
def bytesTaken (s : State) (p : Nat) (m : ModXfer) (seen : ModSeen) : State :=
  if !m.write && (xferRun m seen).1 == 0 then placeModData s p (seen.data.take (m.count + 1)) else s

theorem bytesTaken_takes {m : ModXfer} {seen : ModSeen} (hcount : m.count ≤ 15) (hdata : m.count + 1 ≤ seen.data.length) :
    Only (placesAt (fourFields F.LP_MOD_DATA) p) s (bytesTaken s p m seen) ∧
    modBytes (bytesTaken s p m seen) p = if m.write = false ∧ (xferRun m seen).1 = 0 then
      seen.data.take (m.count + 1) ++ (modBytes s p).drop (m.count + 1) else modBytes s p := by
  have hlength : (seen.data.take (m.count + 1)).length = m.count + 1 := List.length_take_of_le hdata
  have hguard : (!m.write && (xferRun m seen).1 == 0) = decide (m.write = false ∧ (xferRun m seen).1 = 0) := by
    cases m.write <;> simp [beq_eq_decide]
  rw [bytesTaken, hguard]
  simp only [decide_eq_true_eq]
  split
  · rw [placeModData_eq s p (by omega), modBytes_placed s p (by omega), bytesBrought, hlength]
    exact ⟨wordsPlaced_only (by decide) _ _ _, rfl⟩
  · exact ⟨only_refl s, rfl⟩

/-- The bus after a host transfer: a poll that fell due meanwhile starts. -/
def busHanded (ops : List BusOp) (x : PortX) : PortX := { x with polling := x.pollDue, pollDue := false, modBus := ops }

theorem modDone_ends (ha : s.Awake) {seen : ModSeen} {m : ModXfer} {r : Nat × List BusOp} (hxfer : (s.portX p).modXfer = some m)
    (hwait : (s.portX p).modWait = false) (hcount : m.count ≤ 15) (hdata : m.count + 1 ≤ seen.data.length) (hr : r = xferRun m seen) :
    Gives (.modDone p seen) s fun t =>
      t.get F.LP_MOD_STAT_BUSY p = 0 ∧ t.get F.LP_MOD_STAT_RESULT p = r.1 ∧ t.get F.LP_EVENT_MOD_DONE p = 1 ∧
      (r.1 ≠ 0 → t.get F.LP_EVENT_MOD_ERR p = 1) ∧
      modBytes t p = (if m.write = false ∧ r.1 = 0 then seen.data.take (m.count + 1) ++ (modBytes s p).drop (m.count + 1)
        else modBytes s p) ∧
      t.portX p = { s.portX p with
        modXfer := none, modWait := false, polling := (s.portX p).pollDue, pollDue := false, modBus := r.2 } ∧
      OnlyPort p s t ∧
      RegsKept ([F.LP_MOD_STAT_BUSY.at p, F.LP_MOD_STAT_RESULT.at p, F.LP_EVENT_MOD_DONE.at p, F.LP_EVENT_MOD_ERR.at p] ++
        (List.range 4).map fun j => F.LP_MOD_DATA.word p j) s t := by
  have hexec : exec (.modDone p seen) s = act s ((modEnd (bytesTaken s p m seen) p r.1).modPort p (busHanded r.2)) := by
    have hdone : exec (.modDone p seen) s = execModDone p seen s := rfl
    simp only [hdone, execModDone, hxfer, hwait, hr]
    rfl
  obtain ⟨honly, hbytes⟩ := bytesTaken_takes (s := s) (p := p) (seen := seen) hcount hdata
  rw [← hr] at hbytes
  generalize bytesTaken s p m seen = u at hexec honly hbytes
  have hlow : r.1 < 8 := by
    have hle := xferRun_result_le m seen
    rw [← hr] at hle
    omega
  obtain ⟨hbusy, hresult, hdone, herr⟩ := modEnd_shows u p hlow
  obtain ⟨htg, hps⟩ := modEnd_rest u p r.1
  have hportX := portX_modEnd u p r.1
  have hended := modEnd_moves u p r.1
  generalize modEnd u p r.1 = w at hexec hbusy hresult hdone herr htg hps hportX hended
  have hrest : w.tg = s.tg ∧ w.ps = s.ps := ⟨htg.trans (by rw [honly.1]), hps.trans (by rw [honly.1])⟩
  have hhanded := hended.modPort (busHanded r.2)
  have hmoves := honly.moves.trans hhanded
  refine gives_of_act ha hexec (hmoves.chip ▸ ha.2) ⟨hbusy, hresult, hdone, herr, ?_, ?_, hmoves.onlyPort hrest, ?_⟩
  · rw [hhanded.modBytes (by decide), hbytes]
  · rw [State.portX_modPort, hportX, honly.portX]
    rfl
  · have hplaces := placesAt_fourFields (f := F.LP_MOD_DATA) (by decide) p
    rw [← hplaces]
    exact (hmoves.mono (hs := [F.LP_MOD_STAT_BUSY, F.LP_MOD_STAT_RESULT, F.LP_EVENT_MOD_DONE, F.LP_EVENT_MOD_ERR] ++
      fourFields F.LP_MOD_DATA) (by decide)).kept

/-! ### Polls (R266, R271) -/

/-- A poll that ends hands the bus to a host transfer that waits, and stays due behind it. -/
def pollHanded (ops : List BusOp) (x : PortX) : PortX :=
  { x with polling := x.pollDue && !x.modWait, pollDue := x.pollDue && x.modWait, modWait := false, modBus := ops }

theorem modPoll_falls (ha : s.Awake) (hdue : pollDueNow s p = true) : Gives (.modPoll p) s fun t => t = pollFallsDue s p :=
  gives_of_act ha (congrArg (act s) (if_pos hdue)) ha.2 rfl

theorem pollFallsDue_free {p : Nat} (hxfer : (s.portX p).modXfer = none) (hpoll : (s.portX p).polling = false) :
    pollFallsDue s p = s.modPort p fun x => { x with pollTicks := x.pollTicks - pollPeriod s p, polling := true } := by
  simp [pollFallsDue, State.modPort, hxfer, hpoll]

theorem pollFallsDue_busy {p : Nat} {m : ModXfer} (hxfer : (s.portX p).modXfer = some m) (hwait : (s.portX p).modWait = false) :
    pollFallsDue s p = s.modPort p fun x => { x with pollTicks := x.pollTicks - pollPeriod s p, pollDue := true } := by
  simp [pollFallsDue, State.modPort, hxfer, hwait]

/-- LP_MOD_STAT, LP_MOD_DIAG and LP_EVENT after a poll that read `data`. -/
def pollShown (s : State) (p r : Nat) (data : List Byte) : State :=
  if r = 0 then (wordsPlaced F.LP_MOD_DIAG p data (s.put F.LP_MOD_STAT_LAST_POLL r p)).put F.LP_MOD_DIAG_AGE 0 p
  else (s.put F.LP_MOD_STAT_LAST_POLL r p).raiseBit F.LP_EVENT_MOD_ERR p

def pollFields : List Field :=
  [F.LP_MOD_STAT_LAST_POLL, F.LP_EVENT_MOD_ERR, F.LP_MOD_DIAG_AGE] ++ fourFields F.LP_MOD_DIAG

theorem pollShown_only (s : State) (p r : Nat) (data : List Byte) : Only (placesAt pollFields p) s (pollShown s p r data) := by
  have hlast : Only (placesAt pollFields p) s (s.put F.LP_MOD_STAT_LAST_POLL r p) := only_put (at_mem_placesAt (by decide) p)
  have hplaced := wordsPlaced_only (f := F.LP_MOD_DIAG) (by decide) p data (s.put F.LP_MOD_STAT_LAST_POLL r p)
  have hdiag : fourFields F.LP_MOD_DIAG ⊆ pollFields := List.subset_append_right _ _
  unfold pollShown
  split
  · exact (hlast.trans ⟨hplaced.1, hplaced.2.mono (List.map_subset _ hdiag)⟩).trans (only_put (at_mem_placesAt (by decide) p))
  · exact hlast.trans (only_raiseBit (at_mem_placesAt (by decide) p))

theorem pollShown_shows (s : State) (p : Fin 16) {r : Nat} (hr : r < 16) (data : List Byte) :
    (pollShown s p r data).get F.LP_MOD_STAT_LAST_POLL p = r ∧
    (r = 0 → (∀ j, j < 4 → (pollShown s p r data).get F.LP_MOD_DIAG p j = leAt data (4 * j) 4) ∧
      (pollShown s p r data).get F.LP_MOD_DIAG_AGE p = 0) ∧
    (r ≠ 0 → (pollShown s p r data).get F.LP_EVENT_MOD_ERR p = 1 ∧
      ∀ j, j < 4 → (pollShown s p r data).get F.LP_MOD_DIAG p j = s.get F.LP_MOD_DIAG p j) := by
  have hlast : (s.put F.LP_MOD_STAT_LAST_POLL r p).get F.LP_MOD_STAT_LAST_POLL p = r := get_put_same _ _ _ (by decide) hr
  unfold pollShown
  split
  next hzero =>
    refine ⟨?_, fun _ => ⟨fun j hj => ?_, get_put_same _ _ _ (by decide) (by decide)⟩, fun hr => absurd hzero hr⟩
    · rw [(put_moves _ _ _ _).get _ (by decide), (wordsPlaced_moves (by decide) p data _).get _ (by decide), hlast]
    · rw [State.get_put_otherReg _ _ _ _ _ _ _ _ (by simp only [Field.addr, F.LP_MOD_DIAG, F.LP_MOD_DIAG_AGE]; omega)]
      exact wordsPlaced_get (by decide) p data _ hj
  next hr =>
    refine ⟨?_, fun hzero => absurd hzero hr, fun _ => ⟨State.get_raiseBit _ _ _ _ (by decide) (by decide), fun j hj => ?_⟩⟩
    · rw [(raiseBit_moves _ _ _).get _ (by decide), hlast]
    · exact ((put_moves s F.LP_MOD_STAT_LAST_POLL r p).trans (raiseBit_moves _ F.LP_EVENT_MOD_ERR p)).get_second (by decide) hj

theorem modPollDone_shows (ha : s.Awake) {seen : ModSeen} {r : Nat} (hpoll : (s.portX p).polling = true)
    (hr : r = (xferRun pollXfer seen).1) : Gives (.modPollDone p seen) s fun t =>
      t.get F.LP_MOD_STAT_LAST_POLL p = r ∧
      (r = 0 → (∀ j, j < 4 → t.get F.LP_MOD_DIAG p j = leAt seen.data (4 * j) 4) ∧ t.get F.LP_MOD_DIAG_AGE p = 0) ∧
      (r ≠ 0 → t.get F.LP_EVENT_MOD_ERR p = 1 ∧ ∀ j, j < 4 → t.get F.LP_MOD_DIAG p j = s.get F.LP_MOD_DIAG p j) ∧
      OnlyPort p s t ∧
      RegsKept ([F.LP_MOD_STAT_LAST_POLL.at p, F.LP_EVENT_MOD_ERR.at p, F.LP_MOD_DIAG_AGE.word p] ++
        (List.range 4).map fun j => F.LP_MOD_DIAG.word p j) s t := by
  have hexec : exec (.modPollDone p seen) s =
      act s ((pollShown s p r seen.data).modPort p (pollHanded (xferRun pollXfer seen).2)) := by
    rw [hr]
    exact congrArg (act s) (if_pos hpoll)
  have hlow : r < 16 := hr ▸ (xferRun_result_le pollXfer seen).trans_lt (by decide)
  obtain ⟨hlast, hdone, herr⟩ := pollShown_shows s p hlow seen.data
  have honly := pollShown_only s p r seen.data
  generalize pollShown s p r seen.data = u at hexec hlast hdone herr honly
  have hmoves := honly.moves.modPort (pollHanded (xferRun pollXfer seen).2)
  have hplaces := placesAt_fourFields (f := F.LP_MOD_DIAG) (by decide) p
  refine gives_of_act ha hexec (hmoves.chip ▸ ha.2)
    ⟨hlast, hdone, herr, hmoves.onlyPort (by rw [honly.1]; exact ⟨rfl, rfl⟩), ?_⟩
  rw [← hplaces]
  exact hmoves.kept

/-! ### LP_MOD_CFG written (R266) -/

theorem hookLp_modCfg (p v old : Nat) (s : State) : hookLp (F.LP_MOD_CFG.addr p) v old s = hookModCfg p v s := by
  obtain ⟨hoff, hport⟩ := lpAddr_split (f := F.LP_MOD_CFG) (off := 0x40) (by decide) (by decide) p
  simp only [hookLp, hoff, hport]

def cfgFields : List Field := [F.LP_MOD_CFG_POLL_PERIOD, F.LP_MOD_CFG_POLL_EN, F.LP_MOD_CFG_SPEED]

/-- The bits of LP_MOD_CFG that a write takes up are those of its three fields. -/
theorem modCfg_bits_covered (p : Nat) {b : Nat} (hb : b < 32) (hrw : Nat.testBit 0xFF03 b = true) :
    inFields (placesAt cfgFields p) (F.LP_MOD_CFG.addr p) b := by
  have hplace : ∀ b < 32, Nat.testBit 0xFF03 b = true → ∃ g ∈ cfgFields, g.lo ≤ b ∧ b < g.lo + g.w := by decide
  have haddr : ∀ g ∈ cfgFields, g.addr p = F.LP_MOD_CFG.addr p := by
    intro g hg
    fin_cases hg <;> rfl
  obtain ⟨g, hg, hbit⟩ := hplace b hb hrw
  exact ⟨g.at p, at_mem_placesAt hg p, haddr g hg, hbit⟩

theorem modCfgWrite_writes (ha : s.Awake) {v : Word} (hfree : s.locked 3 = false) (hperiod : v.toNat / 256 % 256 ≠ 0) :
    Gives (.modCfgWrite p v) s fun t =>
      t.get F.LP_MOD_CFG_POLL_PERIOD p = v.toNat / 256 % 256 ∧ t.get F.LP_MOD_CFG_POLL_EN p = v.toNat / 2 % 2 ∧
      t.get F.LP_MOD_CFG_SPEED p = v.toNat % 2 ∧ (t.portX p).pollTicks = 0 ∧
      (t.portX p).pollDue = ((s.portX p).pollDue && v.toNat.testBit 1) ∧
      OnlyPort p s t ∧
      RegsKept [F.LP_MOD_CFG_POLL_PERIOD.at p, F.LP_MOD_CFG_POLL_EN.at p, F.LP_MOD_CFG_SPEED.at p] s t := by
  obtain ⟨r, hspec, hrw, hw1c, hotp, -⟩ := specAt_modCfg p
  obtain ⟨hoff, -⟩ := lpAddr_split (f := F.LP_MOD_CFG) (off := 0x40) (by decide) (by decide) p
  have hperiod' : bitsOf v.toNat 8 8 ≠ 0 := hperiod
  have hjudge : judgeLp s (F.LP_MOD_CFG.addr p) v.toNat = St.ok := by
    simp [judgeLp, hoff, hperiod', rangeIf]
  have hstored : Only (placesAt cfgFields p) s (storeWord s (F.LP_MOD_CFG.addr p) v.toNat) :=
    storeWord_only_rw s hspec hw1c fun b hb hbit => modCfg_bits_covered p hb (hrw ▸ hbit)
  have hreads {f : Field} (hf : f.addr p = F.LP_MOD_CFG.addr p) (hwidth : f.lo + f.w ≤ 32)
      (hbits : ∀ b < f.w, Nat.testBit 0xFF03 (b + f.lo) = true) :
      (storeWord s (F.LP_MOD_CFG.addr p) v.toNat).get f p = bitsOf v.toNat f.lo f.w := by
    rw [← hf] at hspec ⊢
    exact get_storeWord s hspec hw1c hwidth (by rw [hrw]; exact hbits)
  have hwrite : writeLp s F.LP_MOD_CFG p v.toNat = hookModCfg p v.toNat (storeWord s (F.LP_MOD_CFG.addr p) v.toNat) :=
    (writeBy_ok hspec (by rw [lockBlock_modCfg, hfree, Bool.and_false]) hjudge hotp).trans (hookLp_modCfg _ _ _ _)
  have hexec : exec (.modCfgWrite p v) s = act s (writeLp s F.LP_MOD_CFG p v.toNat) := rfl
  rw [hwrite, hookModCfg] at hexec
  have hfirst := hreads (f := F.LP_MOD_CFG_POLL_PERIOD) rfl (by decide) (by decide)
  have hsecond := hreads (f := F.LP_MOD_CFG_POLL_EN) rfl (by decide) (by decide)
  have hthird := hreads (f := F.LP_MOD_CFG_SPEED) rfl (by decide) (by decide)
  generalize storeWord s (F.LP_MOD_CFG.addr p) v.toNat = u at hexec hstored hfirst hsecond hthird
  have hmoves := hstored.moves.modPort fun x => { x with pollTicks := 0, pollDue := x.pollDue && bitOf v.toNat 1 }
  refine gives_of_act ha hexec (hmoves.chip ▸ ha.2) ⟨hfirst, hsecond, hthird.trans ?_, ?_, ?_,
    hmoves.onlyPort (by rw [hstored.1]; exact ⟨rfl, rfl⟩), hmoves.kept⟩
  · exact congrArg (· % 2) (Nat.div_one v.toNat)
  · rw [State.portX_modPort]
  · rw [State.portX_modPort, hstored.portX]
    rfl

/-- Settles O22: a host transfer started and ended, how a transfer runs, the polls, and LP_MOD_CFG. -/
theorem moduleBus : Obligations.ModuleBus := fun _ _ ha =>
  ⟨fun write dev count offset hidle hrange => modTransferStart_starts write dev count offset ha hidle hrange,
    fun _ _ _ hxfer hwait hcount hdata hr => modDone_ends ha hxfer hwait hcount hdata hr,
    fun m data => ⟨rfl, xferRun_nacked m data (by decide), xferRun_nacked m data (by decide), xferRun_stretched m data, rfl,
      xferRun_read m data⟩,
    fun hdue => ⟨fun hxfer hpoll => pollFallsDue_free hxfer hpoll ▸ modPoll_falls ha hdue,
      fun _ hxfer hwait => pollFallsDue_busy hxfer hwait ▸ modPoll_falls ha hdue⟩,
    fun _ _ hpoll hr => modPollDone_shows ha hpoll hr,
    fun _ hfree hperiod => modCfgWrite_writes ha hfree hperiod⟩

end Sys2Proof.Machine
end

section
/-!
PROOFS. What a port makes of its frames: LOF and LOM, the accepted trace, its management messages, and the triggers of LF_PCMD
(R288, R293, R301, R309, R310, Table 8.7).
-/
namespace Sys2Proof.Machine

variable {s t u : State} {p : Fin 16}

/-! ### A status field and the event that tells of it (R301) -/

/-- A status field of a port is written, its event raised, and the port's counts of samples begin anew. -/
def statusTurned (f e : Field) (v : Nat) (g : PortX → PortX) (s : State) (p : Nat) : State :=
  ((s.put f v p).raiseBit e p).modPort p g

theorem statusTurned_moves (f e : Field) (v : Nat) (g : PortX → PortX) (s : State) (p : Nat) :
    PortMoves [f, e] p s (statusTurned f e v g s p) := ((put_moves s f v p).trans (raiseBit_moves _ e p)).modPort g

theorem statusTurned_shows {f e : Field} {v : Nat} (hf : f.lo + f.w ≤ 32 ∧ v < 2 ^ f.w) (he : e.lo + e.w ≤ 32 ∧ 0 < e.w)
    (hapart : separate e f = true) (g : PortX → PortX) (s : State) (p : Fin 16) :
    (statusTurned f e v g s p).get f p = v ∧ (statusTurned f e v g s p).get e p = 1 := by
  obtain ⟨hwidth, hv⟩ := hf
  obtain ⟨hewidth, hpos⟩ := he
  rw [statusTurned, State.modPort_get, State.modPort_get, State.get_raiseBit _ _ _ _ hewidth hpos,
    (raiseBit_moves _ e p).get f (by simp [hapart]), get_put_same _ _ _ hwidth hv]
  exact ⟨rfl, rfl⟩

/-! ### LOF and LOM (R301, Table 8.7) -/

/-- Both counts of the LOF machine restart. -/
def lofAnew (x : PortX) : PortX := { x with lofA := 0, lofB := 0 }

/-- Both counts of the LOM machine restart. -/
def lomAnew (x : PortX) : PortX := { x with lomA := 0, lomB := 0 }

/-- LOF is declared; LOM is still as it was. -/
def lofDeclared (s : State) (p : Nat) : State := statusTurned F.LF_PSTATUS_LOF F.LF_PEVENT_LOF_SET 1 lofAnew s p

def lomCleared (s : State) (p : Nat) : State := statusTurned F.LF_PSTATUS_LOM F.LF_PEVENT_LOM_CLR 0 lomAnew s p

/-- LOM does not stand beside LOF (Table 8.7). -/
def lomUnderLof (s : State) (p : Nat) : State := if s.on F.LF_PSTATUS_LOM p then lomCleared s p else s

theorem inSync_iff {p : Nat} : portInSync s p = true ↔ s.get F.LF_PSTATUS_FSTATE p = 2 := by simp [portInSync]

theorem not_inSync_iff {p : Nat} : portInSync s p = false ↔ s.get F.LF_PSTATUS_FSTATE p ≠ 2 := by simp [portInSync]

theorem lofSample_declares {p : Nat} (hlof : s.get F.LF_PSTATUS_LOF p = 0) (hout : s.get F.LF_PSTATUS_FSTATE p ≠ 2)
    (hcount : 95 ≤ (s.portX p).lofA) : lofSample s p = lomUnderLof (lofDeclared s p) p := by
  simp only [lofSample, off_of_get hlof, not_inSync_iff.mpr hout, hcount.not_gt, Bool.not_false, Bool.not_true,
    Bool.false_eq_true, if_false]
  rfl

theorem lofSample_clears {p : Nat} (hlof : s.get F.LF_PSTATUS_LOF p = 1) (hin : s.get F.LF_PSTATUS_FSTATE p = 2)
    (hcount : 95 ≤ (s.portX p).lofB) :
    lofSample s p = statusTurned F.LF_PSTATUS_LOF F.LF_PEVENT_LOF_CLR 0 lofAnew s p := by
  simp only [lofSample, on_of_get hlof, inSync_iff.mpr hin, hcount.not_gt, Bool.not_true, Bool.false_eq_true, if_true, if_false]
  rfl

theorem lomSample_declares {p : Nat} (hlom : s.get F.LF_PSTATUS_LOM p = 0) (hin : s.get F.LF_PSTATUS_FSTATE p = 2)
    (him : s.get F.LF_PSTATUS_IM p = 0) (hcount : 95 ≤ (s.portX p).lomA) :
    lomSample s p = statusTurned F.LF_PSTATUS_LOM F.LF_PEVENT_LOM_SET 1 lomAnew s p := by
  simp only [lomSample, off_of_get hlom, inSync_iff.mpr hin, off_of_get him, hcount.not_gt, Bool.not_false, Bool.and_self,
    Bool.not_true, Bool.false_eq_true, if_false]
  rfl

theorem lomSample_clears {p : Nat} (hlom : s.get F.LF_PSTATUS_LOM p = 1) (hin : s.get F.LF_PSTATUS_FSTATE p = 2)
    (him : s.get F.LF_PSTATUS_IM p = 1) (hcount : 95 ≤ (s.portX p).lomB) : lomSample s p = lomCleared s p := by
  simp only [lomSample, on_of_get hlom, inSync_iff.mpr hin, on_of_get him, hcount.not_gt, Bool.and_self, Bool.not_true,
    Bool.false_eq_true, if_true, if_false]
  rfl

/-- An event that turns one status field of a port over. -/
theorem gives_statusTurned {c : Instr} {f e : Field} {v : Nat} {g : PortX → PortX} (ha : s.Awake)
    (hexec : exec c s = act s (statusTurned f e v g s p)) (hf : f.lo + f.w ≤ 32 ∧ v < 2 ^ f.w) (he : e.lo + e.w ≤ 32 ∧ 0 < e.w)
    (hapart : separate e f = true) :
    Gives c s fun t => t.get f p = v ∧ t.get e p = 1 ∧ OnlyPort p s t ∧ RegsKept [f.at p, e.at p] s t := by
  obtain ⟨hstatus, hevent⟩ := statusTurned_shows hf he hapart g s p
  have hmoves := statusTurned_moves f e v g s p
  exact gives_of_act ha hexec ha.2 ⟨hstatus, hevent, hmoves.onlyPort ⟨rfl, rfl⟩, hmoves.kept⟩

/-- LOM is clear after it, with its event where it stood. -/
theorem lomUnderLof_clear (s : State) (p : Fin 16) : (lomUnderLof s p).get F.LF_PSTATUS_LOM p = 0 ∧
    (s.get F.LF_PSTATUS_LOM p = 1 → (lomUnderLof s p).get F.LF_PEVENT_LOM_CLR p = 1) := by
  unfold lomUnderLof
  split
  next =>
    obtain ⟨hstatus, hevent⟩ := statusTurned_shows (f := F.LF_PSTATUS_LOM) (e := F.LF_PEVENT_LOM_CLR) (v := 0) (by decide)
      (by decide) (by decide) lomAnew s p
    exact ⟨hstatus, fun _ => hevent⟩
  next hoff =>
    have hzero : s.get F.LF_PSTATUS_LOM p = 0 := by simpa [State.on] using hoff
    exact ⟨hzero, fun hone => absurd (hzero.symm.trans hone) (by decide)⟩

theorem lomUnderLof_moves (s : State) (p : Nat) :
    PortMoves [F.LF_PSTATUS_LOM, F.LF_PEVENT_LOM_CLR] p s (lomUnderLof s p) := by
  unfold lomUnderLof
  split
  · exact statusTurned_moves _ _ _ _ _ _
  · exact PortMoves.refl _ _ _

theorem lomUnderLof_rest (s : State) (p : Nat) : (lomUnderLof s p).tg = s.tg ∧ (lomUnderLof s p).ps = s.ps := by
  unfold lomUnderLof
  split <;> exact ⟨rfl, rfl⟩

section
variable (ha : s.Awake) (hrun : s.get F.LP_STATUS_STATE p = 2)
include ha hrun

theorem lofSet_declares (hlof : s.get F.LF_PSTATUS_LOF p = 0) (hout : s.get F.LF_PSTATUS_FSTATE p ≠ 2)
    (hcount : 95 ≤ (s.portX p).lofA) : Gives (.lofSet p) s fun t =>
      t.get F.LF_PSTATUS_LOF p = 1 ∧ t.get F.LF_PEVENT_LOF_SET p = 1 ∧ t.get F.LF_PSTATUS_LOM p = 0 ∧
      (s.get F.LF_PSTATUS_LOM p = 1 → t.get F.LF_PEVENT_LOM_CLR p = 1) ∧ OnlyPort p s t ∧
      RegsKept [F.LF_PSTATUS_LOF.at p, F.LF_PSTATUS_LOM.at p, F.LF_PEVENT_LOF_SET.at p, F.LF_PEVENT_LOM_CLR.at p] s t := by
  have hexec : exec (.lofSet p) s = act s (lomUnderLof (lofDeclared s p) p) := by
    rw [← lofSample_declares hlof hout hcount]
    refine congrArg (act s) (if_pos ?_)
    simp [running_iff.mpr hrun, off_of_get hlof, not_inSync_iff.mpr hout, hcount]
  obtain ⟨hset, hevent⟩ := statusTurned_shows (f := F.LF_PSTATUS_LOF) (e := F.LF_PEVENT_LOF_SET) (v := 1) (by decide)
    (by decide) (by decide) lofAnew s p
  have hdeclared := statusTurned_moves F.LF_PSTATUS_LOF F.LF_PEVENT_LOF_SET 1 lofAnew s p
  obtain ⟨hclear, htold⟩ := lomUnderLof_clear (lofDeclared s p) p
  have hlom := lomUnderLof_moves (lofDeclared s p) p
  have hmoves := hdeclared.trans hlom
  have hnamed := hmoves.mono (hs := [F.LF_PSTATUS_LOF, F.LF_PSTATUS_LOM, F.LF_PEVENT_LOF_SET, F.LF_PEVENT_LOM_CLR]) (by decide)
  refine gives_of_act ha hexec (hmoves.chip ▸ ha.2)
    ⟨(hlom.get _ (by decide)).trans hset, (hlom.get _ (by decide)).trans hevent, hclear, fun hstood => htold ?_,
      hmoves.onlyPort (lomUnderLof_rest _ _), hnamed.kept⟩
  exact (hdeclared.get F.LF_PSTATUS_LOM (by decide)).trans hstood

theorem lofClr_clears (hlof : s.get F.LF_PSTATUS_LOF p = 1) (hin : s.get F.LF_PSTATUS_FSTATE p = 2)
    (hcount : 95 ≤ (s.portX p).lofB) : Gives (.lofClr p) s fun t =>
      t.get F.LF_PSTATUS_LOF p = 0 ∧ t.get F.LF_PEVENT_LOF_CLR p = 1 ∧ OnlyPort p s t ∧
      RegsKept [F.LF_PSTATUS_LOF.at p, F.LF_PEVENT_LOF_CLR.at p] s t := by
  refine gives_statusTurned (g := lofAnew) ha ?_ (by decide) (by decide) (by decide)
  rw [← lofSample_clears hlof hin hcount]
  refine congrArg (act s) (if_pos ?_)
  simp [running_iff.mpr hrun, on_of_get hlof, inSync_iff.mpr hin, hcount]

theorem lomSet_declares (hlom : s.get F.LF_PSTATUS_LOM p = 0) (hin : s.get F.LF_PSTATUS_FSTATE p = 2)
    (him : s.get F.LF_PSTATUS_IM p = 0) (hcount : 95 ≤ (s.portX p).lomA) : Gives (.lomSet p) s fun t =>
      t.get F.LF_PSTATUS_LOM p = 1 ∧ t.get F.LF_PEVENT_LOM_SET p = 1 ∧ OnlyPort p s t ∧
      RegsKept [F.LF_PSTATUS_LOM.at p, F.LF_PEVENT_LOM_SET.at p] s t := by
  refine gives_statusTurned (g := lomAnew) ha ?_ (by decide) (by decide) (by decide)
  rw [← lomSample_declares hlom hin him hcount]
  refine congrArg (act s) (if_pos ?_)
  simp [running_iff.mpr hrun, off_of_get hlom, inSync_iff.mpr hin, off_of_get him, hcount]

theorem lomClr_clears (hlom : s.get F.LF_PSTATUS_LOM p = 1) (hin : s.get F.LF_PSTATUS_FSTATE p = 2)
    (him : s.get F.LF_PSTATUS_IM p = 1) (hcount : 95 ≤ (s.portX p).lomB) : Gives (.lomClr p) s fun t =>
      t.get F.LF_PSTATUS_LOM p = 0 ∧ t.get F.LF_PEVENT_LOM_CLR p = 1 ∧ OnlyPort p s t ∧
      RegsKept [F.LF_PSTATUS_LOM.at p, F.LF_PEVENT_LOM_CLR.at p] s t := by
  refine gives_statusTurned (g := lomAnew) ha ?_ (by decide) (by decide) (by decide)
  rw [← lomCleared, ← lomSample_clears hlom hin him hcount]
  refine congrArg (act s) (if_pos ?_)
  simp [running_iff.mpr hrun, on_of_get hlom, inSync_iff.mpr hin, on_of_get him, hcount]

end

/-! ### The accepted trace (R288) -/

/-- One step moves some fields and the next some others. -/
theorem Only.append {fs gs : List (Nat × Nat × Nat)} (h : Only fs s t) (k : Only gs t u) : Only (fs ++ gs) s u :=
  Only.trans ⟨h.1, h.2.mono fun _ => List.mem_append_left _⟩ ⟨k.1, k.2.mono fun _ => List.mem_append_right _⟩

/-- The 16 words of a port's LF_RX_TRACE, each as a field of the port. -/
def traceWords : List Field := (List.range 16).map F.LF_RX_TRACE.second

theorem placesAt_traceWords (p : Nat) : placesAt traceWords p = (List.range 16).map fun j => F.LF_RX_TRACE.word p j := by
  rw [placesAt, traceWords, List.map_map]
  refine List.map_congr_left fun j _ => ?_
  simp only [Function.comp, Field.at, Field.word, Field.second_addr]
  rfl

/-- A trace written to LF_RX_TRACE. -/
def tracePlaced (p : Nat) (bs : List Byte) (s : State) : State :=
  forN 16 (fun j s => s.put F.LF_RX_TRACE (leAt bs (4 * j) 4) p j) s

theorem tracePlaced_only (p : Nat) (bs : List Byte) (s : State) : Only (placesAt traceWords p) s (tracePlaced p bs s) := by
  refine forN_keeps (fun t => Only (placesAt traceWords p) s t) 16 _ (fun j hj t h => h.trans (only_put ?_)) s (only_refl s)
  rw [placesAt_traceWords]
  exact List.mem_map_of_mem (f := fun j => F.LF_RX_TRACE.word p j) (List.mem_range.mpr hj)

theorem tracePlaced_get (p : Nat) (bs : List Byte) (s : State) {j : Nat} (hj : j < 16) :
    (tracePlaced p bs s).get F.LF_RX_TRACE p j = leAt bs (4 * j) 4 := by
  have hplaced (n : Nat) (hn : j < n) :
      (forN n (fun j s => s.put F.LF_RX_TRACE (leAt bs (4 * j) 4) p j) s).get F.LF_RX_TRACE p j = leAt bs (4 * j) 4 := by
    induction n with
    | zero => exact absurd hn (Nat.not_lt_zero j)
    | succ n ih =>
      rw [forN_succ]
      rcases Nat.lt_succ_iff_lt_or_eq.mp hn with hbefore | rfl
      · rw [State.get_put_otherReg _ _ _ _ _ _ _ _ (by simp only [Field.addr, F.LF_RX_TRACE]; omega), ih hbefore]
      · rw [State.get_put _ _ _ _ _ (by decide)]
        exact Nat.mod_eq_of_lt (leAt_lt bs _)
  exact hplaced 16 hj

/-- What moves nothing of LF_RX_TRACE leaves each of its words. -/
theorem PortMoves.get_trace {gs : List Field} (h : PortMoves gs p s t)
    (hgs : (traceWords.all fun f => gs.all fun g => separate g f) = true) {j : Nat} (hj : j < 16) :
    t.get F.LF_RX_TRACE p j = s.get F.LF_RX_TRACE p j := by
  have hfield := List.all_eq_true.mp hgs _ (List.mem_map_of_mem (f := F.LF_RX_TRACE.second) (List.mem_range.mpr hj))
  rw [← Field.second_get, h.get _ hfield, Field.second_get]

/-- TRACE_NEW tells of a trace that differs from the one before it. -/
def traceNoted (s : State) (p : Nat) : State :=
  if (s.portX p).tracePrev != traceBytes s F.LF_RX_TRACE p then s.raiseBit F.LF_PEVENT_TRACE_NEW p else s

theorem traceNoted_only (s : State) (p : Nat) : Only (placesAt [F.LF_PEVENT_TRACE_NEW] p) s (traceNoted s p) := by
  unfold traceNoted
  split
  · exact only_raiseBit (at_mem_placesAt (by decide) p)
  · exact only_refl s

theorem traceNoted_new (s : State) (p : Nat) : (traceNoted s p).get F.LF_PEVENT_TRACE_NEW p =
    if (s.portX p).tracePrev = traceBytes s F.LF_RX_TRACE p then s.get F.LF_PEVENT_TRACE_NEW p else 1 := by
  unfold traceNoted
  by_cases hsame : (s.portX p).tracePrev = traceBytes s F.LF_RX_TRACE p
  · simp [hsame]
  · simp only [bne_iff_ne, hsame, ne_eq, not_false_eq_true, if_true, if_false]
    exact State.get_raiseBit _ _ _ _ (by decide) (by decide)

theorem timAccept_only (s : State) (p : Nat) : Only (placesAt [F.DM_PRAW] p) s (timAccept s p) := by
  unfold timAccept
  split
  · exact only_put (at_mem_placesAt (by decide) p)
  · exact only_refl s

/-- LF_RX_TRACE and TRACE_VALID as the trace that waits leaves them. -/
def traceShown (s : State) (p : Nat) : State :=
  (tracePlaced p (s.portX p).tracePrev (traceNoted s p)).put F.LF_PSTATUS_TRACE_VALID 1 p

theorem traceAccept_of_due {p : Nat} (h : 3 ≤ (s.portX p).traceCount) : traceAccept s p = timAccept (traceShown s p) p :=
  if_pos (Nat.ble_eq.mpr h)

theorem traceAccept_only {p : Nat} (h : 3 ≤ (s.portX p).traceCount) :
    Only (placesAt ([F.LF_PEVENT_TRACE_NEW] ++ traceWords ++ [F.LF_PSTATUS_TRACE_VALID] ++ [F.DM_PRAW]) p) s (traceAccept s p) := by
  have hvalid : Only (placesAt [F.LF_PSTATUS_TRACE_VALID] p) (tracePlaced p (s.portX p).tracePrev (traceNoted s p)) (traceShown s p) :=
    only_put (at_mem_placesAt (by decide) p)
  have hall := (((traceNoted_only s p).append (tracePlaced_only p _ _)).append hvalid).append (timAccept_only _ p)
  rw [traceAccept_of_due h]
  simpa only [placesAt, List.map_append] using hall

theorem traceAccept_shows (h : 3 ≤ (s.portX p).traceCount) :
    (∀ j, j < 16 → (traceAccept s p).get F.LF_RX_TRACE p j = leAt (s.portX p).tracePrev (4 * j) 4) ∧
    (traceAccept s p).get F.LF_PSTATUS_TRACE_VALID p = 1 ∧
    (traceAccept s p).get F.LF_PEVENT_TRACE_NEW p =
      if (s.portX p).tracePrev = traceBytes s F.LF_RX_TRACE p then s.get F.LF_PEVENT_TRACE_NEW p else 1 := by
  have htim := (timAccept_only (traceShown s p) p).moves
  have hvalid := put_moves (tracePlaced p (s.portX p).tracePrev (traceNoted s p)) F.LF_PSTATUS_TRACE_VALID 1 p
  rw [traceAccept_of_due h]
  refine ⟨fun j hj => ?_, (htim.get _ (by decide)).trans (get_put_same _ _ _ (by decide) (by decide)), ?_⟩
  · rw [(hvalid.trans htim).get_trace (by decide) hj, tracePlaced_get _ _ _ hj]
  · rw [(((tracePlaced_only p _ (traceNoted s p)).moves.trans hvalid).trans htim).get _ (by decide), traceNoted_new]

theorem traceAccepted_shows (ha : s.Awake) (h : 3 ≤ (s.portX p).traceCount) : Gives (.traceAccepted p) s fun t =>
    (∀ j, j < 16 → t.get F.LF_RX_TRACE p j = leAt (s.portX p).tracePrev (4 * j) 4) ∧ t.get F.LF_PSTATUS_TRACE_VALID p = 1 ∧
    ((s.portX p).tracePrev ≠ traceBytes s F.LF_RX_TRACE p → t.get F.LF_PEVENT_TRACE_NEW p = 1) ∧
    ((s.portX p).tracePrev = traceBytes s F.LF_RX_TRACE p → t.get F.LF_PEVENT_TRACE_NEW p = s.get F.LF_PEVENT_TRACE_NEW p) ∧
    t = { s with regs := t.regs } ∧
    RegsKept ([F.LF_PSTATUS_TRACE_VALID.at p, F.LF_PEVENT_TRACE_NEW.at p, F.DM_PRAW.word p] ++
      (List.range 16).map fun j => F.LF_RX_TRACE.word p j) s t := by
  obtain ⟨hwords, hvalid, hnew⟩ := traceAccept_shows h
  have honly := traceAccept_only h
  have hsub : [F.LF_PEVENT_TRACE_NEW] ++ traceWords ++ [F.LF_PSTATUS_TRACE_VALID] ++ [F.DM_PRAW] ⊆
      [F.LF_PSTATUS_TRACE_VALID, F.LF_PEVENT_TRACE_NEW, F.DM_PRAW] ++ traceWords := by decide
  refine gives_of_act ha rfl (honly.chip ▸ ha.2) ⟨hwords, hvalid, fun hne => hnew.trans (if_neg hne),
    fun heq => hnew.trans (if_pos heq), honly.1, ?_⟩
  rw [← placesAt_traceWords]
  exact honly.2.mono (List.map_subset _ hsub)

/-! ### Management messages (R293) -/

theorem mcDrop_moves (s : State) (p : Nat) : PortMoves dropFields p s (mcDrop s p) :=
  ((PortMoves.refl [] p s).modPort _).trans ((put_moves _ _ _ p).trans (raiseBit_moves _ _ p))

theorem mcDrop_shows (s : State) (p : Fin 16) : (mcDrop s p).portX p = { s.portX p with mcRx := none } ∧
    (mcDrop s p).get F.LF_MC_CNT_DROPS p = min (s.get F.LF_MC_CNT_DROPS p + 1) 65535 ∧
    (mcDrop s p).get F.LF_PEVENT_MC_DROP p = 1 := by
  refine ⟨?_, ?_, State.get_raiseBit _ _ _ _ (by decide) (by decide)⟩
  · rw [mcDrop, State.portX_raiseBit, State.portX_bumpSat, State.portX_modPort]
  · rw [mcDrop, get_raiseBit_apart _ _ (by decide), get_bumpSat_one _ _ (by decide), State.modPort_get]

/-- The message that was whole is in its recipient's hands. -/
def handedOver (m : McMsg) (x : PortX) : PortX := { x with mcFull := none, inbox := some m }

/-- The message that was whole is no longer kept. -/
def withoutFull (x : PortX) : PortX := { x with mcFull := none }

section
variable (ha : s.Awake) {m : McMsg} (hfull : (s.portX p).mcFull = some m)
include ha hfull

theorem mgmtMessageAccept_takes (hroom : (s.portX p).inbox = none) : Gives (.mgmtMessageAccept p) s fun t =>
    t.portX p = { s.portX p with mcFull := none, inbox := some m } ∧
    t.get F.LF_MC_CNT_MSGS p = (s.get F.LF_MC_CNT_MSGS p + 1) % 65536 ∧ OnlyPort p s t ∧ RegsKept [F.LF_MC_CNT_MSGS.at p] s t := by
  have haccept : mcAccept s p = (s.modPort p (handedOver m)).bumpWrap F.LF_MC_CNT_MSGS 1 p := by
    simp only [mcAccept, hfull, hroom]
    rfl
  have hmoves := ((PortMoves.refl [] p s).modPort (handedOver m)).trans
    (put_moves _ F.LF_MC_CNT_MSGS (s.get F.LF_MC_CNT_MSGS p + 1) p)
  refine gives_of_act ha (congrArg (act s) haccept) ha.2 ⟨?_, ?_, hmoves.onlyPort ⟨rfl, rfl⟩, hmoves.kept⟩
  · rw [State.portX_bumpWrap, State.portX_modPort, handedOver]
  · exact State.get_put _ _ _ _ _ (by decide)

theorem mgmtMessageAccept_drops (hheld : (s.portX p).inbox ≠ none) : Gives (.mgmtMessageAccept p) s fun t =>
    t.portX p = { s.portX p with mcFull := none, mcRx := none } ∧
    t.get F.LF_MC_CNT_DROPS p = min (s.get F.LF_MC_CNT_DROPS p + 1) 65535 ∧ t.get F.LF_PEVENT_MC_DROP p = 1 ∧
    OnlyPort p s t ∧ RegsKept [F.LF_MC_CNT_DROPS.at p, F.LF_PEVENT_MC_DROP.at p] s t := by
  obtain ⟨m', hinbox⟩ := Option.ne_none_iff_exists'.mp hheld
  have haccept : mcAccept s p = mcDrop (s.modPort p withoutFull) p := by
    simp only [mcAccept, hfull, hinbox]
    rfl
  obtain ⟨hportX, hdrops, hevent⟩ := mcDrop_shows (s.modPort p withoutFull) p
  have hmoves := ((PortMoves.refl [] p s).modPort withoutFull).trans (mcDrop_moves (s.modPort p withoutFull) p)
  refine gives_of_act ha (congrArg (act s) haccept) ha.2 ⟨?_, hdrops, hevent, hmoves.onlyPort ⟨rfl, rfl⟩, hmoves.kept⟩
  rw [hportX, State.portX_modPort, withoutFull]

end

/-! ### LF_PCMD[p] written (R309, R310) -/

theorem specAt_pcmd (p : Fin 16) : ∃ r, specAt (F.LF_PCMD.addr p) = some r ∧ r.rw = 0 ∧ r.w1c = 0 ∧ r.otp = 0 ∧
    r.lock = false := specAt_port (by decide +kernel) p

theorem hookLf_pcmd (p v old : Nat) (s : State) : hookLf (F.LF_PCMD.addr p) v old s = hookPcmd p v s := by
  have haddr : F.LF_PCMD.addr p = 0x40041034 + 0x100 * p := by simp only [F.LF_PCMD, Field.addr]; omega
  have hport : (0x40041034 + 0x100 * p - 0x40041000) / 0x100 = p := by omega
  have hoff : (0x40041034 + 0x100 * p) % 0x100 = 0x34 := by omega
  have hcmd : ¬ 0x40041034 + 0x100 * p = 0x40040010 := by omega
  have hlow : ¬ 0x40041034 + 0x100 * p < 0x40041000 := by omega
  simp only [hookLf, haddr, if_neg hcmd, if_neg hlow, hport, hoff]

theorem judgeLf_pcmd (s : State) (p v : Nat) : judgeLf s (F.LF_PCMD.addr p) v = St.ok := by
  refine if_neg ?_
  simp only [F.LF_PCMD, Field.addr]
  omega

/-- The triggers of LF_PCMD[p] act on a state that reads as the one before the write. -/
theorem writeLf_pcmd (s : State) (p : Fin 16) (v : Nat) : ∃ u, Only [] s u ∧ writeLf s F.LF_PCMD p v = hookPcmd p v u := by
  obtain ⟨r, hspec, hrw, hw1c, hotp, hlock⟩ := specAt_pcmd p
  refine ⟨storeWord s (F.LF_PCMD.addr p) v, storeWord_kept_only s hspec hrw (by rw [hw1c, Nat.zero_and]), ?_⟩
  exact (writeBy_ok hspec (by rw [hlock, Bool.false_and]) (judgeLf_pcmd s p v) hotp).trans (hookLf_pcmd _ _ _ _)

/-- INJ_BUSY as the errors still to be injected have it. -/
def injBusy (s : State) (p : Nat) : State :=
  s.put F.LF_PSTATUS_INJ_BUSY (b2n ((s.portX p).alignInj != 0 || (s.portX p).bipInj != 0)) p

theorem injBusy_moves (s : State) (p : Nat) : PortMoves [F.LF_PSTATUS_INJ_BUSY] p s (injBusy s p) := put_moves _ _ _ _

theorem lfCntClr_clears (ha : s.Awake) : Gives (.lfCntClr p) s fun t =>
    t.reg (F.LF_FRAMING_CNT.addr p) = 0 ∧ t.reg (F.LF_MC_CNT.addr p) = 0 ∧ OnlyPort p s t ∧ t.portX p = s.portX p ∧
    RegsKept [F.LF_FRAMING_CNT.word p, F.LF_MC_CNT.word p, F.LF_PSTATUS_INJ_BUSY.at p] s t := by
  obtain ⟨u, hsame, hwrite⟩ := writeLf_pcmd s p 1
  have hhook : hookPcmd p 1 u = injBusy (((u.put F.LF_FRAMING_CNT 0 p).put F.LF_MC_CNT 0 p).modPort p fun x => x) p := rfl
  have hexec : exec (.lfCntClr p) s = _ := congrArg (act s) (hwrite.trans hhook)
  have hcleared := ((put_moves u F.LF_FRAMING_CNT 0 p).trans (put_moves _ F.LF_MC_CNT 0 p)).modPort fun x => x
  have hmoves := ((Only.moves (gs := []) hsame).trans hcleared).trans (injBusy_moves _ p)
  have haddr : F.LF_FRAMING_CNT.addr p ≠ F.LF_PSTATUS_INJ_BUSY.addr p ∧ F.LF_MC_CNT.addr p ≠ F.LF_PSTATUS_INJ_BUSY.addr p ∧
      F.LF_FRAMING_CNT.addr p ≠ F.LF_MC_CNT.addr p := by
    simp [Field.addr, F.LF_FRAMING_CNT, F.LF_MC_CNT, F.LF_PSTATUS_INJ_BUSY]
  obtain ⟨hframing, hmc, hboth⟩ := haddr
  refine gives_of_act ha hexec (hmoves.chip ▸ ha.2) ⟨?_, ?_, hmoves.onlyPort (by rw [hsame.1]; exact ⟨rfl, rfl⟩), ?_, hmoves.kept⟩
  · rw [injBusy, State.reg_put_other _ _ _ _ _ hframing, State.modPort_reg, State.reg_put_other _ _ _ _ _ hboth]
    exact reg_put_zero _ _ _ (by decide)
  · rw [injBusy, State.reg_put_other _ _ _ _ _ hmc, State.modPort_reg]
    exact reg_put_zero _ _ _ (by decide)
  · rw [injBusy, State.portX_put, State.portX_modPort, State.portX_put, State.portX_put, hsame.portX]

/-- A write of LF_PCMD that begins an injection, `g` its mark in the port's record: INJ_BUSY shows it. -/
theorem gives_injection {c : Instr} {v : Nat} {g : PortX → PortX} (ha : s.Awake) (hexec : exec c s = act s (writeLf s F.LF_PCMD p v))
    (hhook : ∀ u : State, hookPcmd p v u = injBusy (u.modPort p g) p)
    (hbusy : (g (s.portX p)).alignInj ≠ 0 ∨ (g (s.portX p)).bipInj ≠ 0) :
    Gives c s fun t => t.portX p = g (s.portX p) ∧ t.get F.LF_PSTATUS_INJ_BUSY p = 1 ∧ OnlyPort p s t ∧
      RegsKept [F.LF_PSTATUS_INJ_BUSY.at p] s t := by
  obtain ⟨u, hsame, hwrite⟩ := writeLf_pcmd s p v
  rw [hwrite, hhook] at hexec
  have hmoves := ((Only.moves (gs := []) hsame).modPort g).trans (injBusy_moves _ p)
  have hportX : (u.modPort p g).portX p = g (s.portX p) := by rw [State.portX_modPort, hsame.portX]
  refine gives_of_act ha hexec (hmoves.chip ▸ ha.2) ⟨hportX, ?_, hmoves.onlyPort (by rw [hsame.1]; exact ⟨rfl, rfl⟩), hmoves.kept⟩
  have hshown : ((g (s.portX p)).alignInj != 0 || (g (s.portX p)).bipInj != 0) = true := by simpa using hbusy
  rw [injBusy, hportX, hshown]
  exact get_put_same _ _ _ (by decide) (by decide)

theorem hookPcmd_injects {v a b : Nat} (hclr : bitOf v 0 = false) (halign : bitsOf v 8 8 = a) (hbip : bitsOf v 16 8 = b)
    (p : Nat) (s : State) : hookPcmd p v s = injBusy (s.modPort p fun x => { x with
      alignInj := if a = 0 then x.alignInj else a, bipInj := if b = 0 then x.bipInj else b }) p := by
  simp only [hookPcmd, hclr, halign, hbip, Bool.false_eq_true, if_false]
  rfl

theorem bitOf_zero_of_even {v : Nat} (h : v % 2 = 0) : bitOf v 0 = false := by simp [bitOf, h]

section
variable (ha : s.Awake) {n : Byte} (hn : n ≠ 0)
include ha hn

theorem alignInj_begins : Gives (.alignInj p n) s fun t =>
    t.portX p = { s.portX p with alignInj := n.toNat } ∧ t.get F.LF_PSTATUS_INJ_BUSY p = 1 ∧ OnlyPort p s t ∧
    RegsKept [F.LF_PSTATUS_INJ_BUSY.at p] s t := by
  have hlt := n.isLt
  have hpos : n.toNat ≠ 0 := fun h => hn (BitVec.eq_of_toNat_eq h)
  refine gives_injection (g := fun x => { x with alignInj := n.toNat }) ha rfl (fun u => ?_) (.inl hpos)
  rw [hookPcmd_injects (a := n.toNat) (b := 0) (bitOf_zero_of_even (by omega)) (by rw [bitsOf]; omega) (by rw [bitsOf]; omega)]
  simp only [if_neg hpos, if_true]

theorem bipInj_begins : Gives (.bipInj p n) s fun t =>
    t.portX p = { s.portX p with bipInj := n.toNat } ∧ t.get F.LF_PSTATUS_INJ_BUSY p = 1 ∧ OnlyPort p s t ∧
    RegsKept [F.LF_PSTATUS_INJ_BUSY.at p] s t := by
  have hlt := n.isLt
  have hpos : n.toNat ≠ 0 := fun h => hn (BitVec.eq_of_toNat_eq h)
  refine gives_injection (g := fun x => { x with bipInj := n.toNat }) ha rfl (fun u => ?_) (.inr hpos)
  rw [hookPcmd_injects (a := 0) (b := n.toNat) (bitOf_zero_of_even (by omega)) (by rw [bitsOf]; omega) (by rw [bitsOf]; omega)]
  simp only [if_neg hpos, if_true]

end

/-- Settles O26: the samples that complete 96, the trace that waits, a message whole, and the three triggers of LF_PCMD. -/
theorem portFraming : Obligations.PortFraming := fun _ _ ha =>
  ⟨fun hrun =>
    ⟨fun hlof hout hcount => lofSet_declares ha hrun hlof hout hcount, fun hlof hin hcount => lofClr_clears ha hrun hlof hin hcount,
      fun hlom hin him hcount => lomSet_declares ha hrun hlom hin him hcount,
      fun hlom hin him hcount => lomClr_clears ha hrun hlom hin him hcount⟩,
    fun hdue => traceAccepted_shows ha hdue,
    fun _ hfull => ⟨fun hroom => mgmtMessageAccept_takes ha hfull hroom, fun hheld => mgmtMessageAccept_drops ha hfull hheld⟩,
    lfCntClr_clears ha, fun _ hn => ⟨alignInj_begins ha hn, bipInj_begins ha hn⟩⟩

end Sys2Proof.Machine
end

section
/-!
PROOFS. The path-delay exchange: a request answered, a response taken, an exchange that expires, and TD_DELAY (R292, R559, R560,
R571, R572, Table 15.4).
-/
namespace Sys2Proof.Machine

variable {s t u : State} {p : Fin 16}

/-! ### Delay messages go ahead of the others (R292) -/

/-- A delay message behind the delay messages at the head of a queue, and ahead of all others. -/
def aheadOf (m : McMsg) (l : List McMsg) : List McMsg :=
  l.takeWhile (fun m => Nat.ble 3 m.ty) ++ [m] ++ l.dropWhile fun m => Nat.ble 3 m.ty

theorem mem_aheadOf (m : McMsg) (l : List McMsg) : m ∈ aheadOf m l := by simp [aheadOf]

theorem aheadOf_split (m : McMsg) (l : List McMsg) : ∃ ms ns, l = ms ++ ns ∧ (∀ m ∈ ms, 3 ≤ m.ty) ∧
    (∀ m, ns.head? = some m → m.ty < 3) ∧ aheadOf m l = ms ++ [m] ++ ns := by
  refine ⟨_, _, List.takeWhile_append_dropWhile.symm, fun m' hm' => Nat.le_of_ble_eq_true (List.mem_takeWhile_imp hm' : _ = true),
    fun m' hhead => ?_, rfl⟩
  have hstops := List.head?_dropWhile_not (fun m : McMsg => Nat.ble 3 m.ty) l
  rw [hhead] at hstops
  exact Nat.lt_of_not_le fun hle => by simp [Nat.ble_eq.mpr hle] at hstops

theorem portX_sendDelayMsg (s : State) (p : Nat) (m : McMsg) :
    (sendDelayMsg s p m).portX p = { s.portX p with mcOut := aheadOf m (s.portX p).mcOut } := State.portX_modPort _ _ _

theorem portX_sendDelayMsg_other (s : State) (m : McMsg) {p q : Nat} (h : q ≠ p) : (sendDelayMsg s p m).portX q = s.portX q :=
  State.portX_modPort_other _ _ h

theorem portX_takeInbox_other (s : State) {p q : Nat} (h : q ≠ p) : (takeInbox s p).portX q = s.portX q :=
  State.portX_modPort_other _ _ h

/-! ### A request is answered (R559, R560) -/

theorem exec_delayRequest {b : List Byte} {turn : Nat} (hlen : b.length = 2) (hen : s.on F.LF_PCTRL_MC_EN p = true)
    (hinbox : (s.portX p).inbox = some { ty := 3, bytes := b }) : exec (.delayRequest p turn) s =
      act s (sendDelayMsg (takeInbox s p) p { ty := 4, bytes := b ++ toLE 6 turn }) := by
  have hexec : exec (.delayRequest p turn) s = execDelayRequest p turn s := rfl
  simp only [hexec, execDelayRequest, hinbox, hlen, State.modPort_on, hen, and_self, if_true]
  rfl

theorem delayRequest_answered (ha : s.Awake) {b : List Byte} {turn : Nat} (hlen : b.length = 2)
    (hen : s.on F.LF_PCTRL_MC_EN p = true) (hinbox : (s.portX p).inbox = some { ty := 3, bytes := b }) :
    Gives (.delayRequest p turn) s fun t =>
      (t.portX p).inbox = none ∧ (∃ ms ns, (s.portX p).mcOut = ms ++ ns ∧ (∀ m ∈ ms, 3 ≤ m.ty) ∧ (∀ m, ns.head? = some m → m.ty < 3) ∧
        (t.portX p).mcOut = ms ++ [{ ty := 4, bytes := b ++ toLE 6 turn }] ++ ns) ∧ OnlyPort p s t ∧ t.regs = s.regs := by
  have hportX := portX_sendDelayMsg (takeInbox s p) p { ty := 4, bytes := b ++ toLE 6 turn }
  rw [portX_takeInbox] at hportX
  obtain ⟨ms, ns, hsplit, hdelay, hother, hqueued⟩ := aheadOf_split { ty := 4, bytes := b ++ toLE 6 turn } (s.portX p).mcOut
  refine gives_of_act ha (exec_delayRequest hlen hen hinbox) ha.2 ⟨?_, ⟨ms, ns, hsplit, hdelay, hother, ?_⟩, ⟨rfl, fun q hq => ?_⟩, rfl⟩
  · rw [hportX]
  · rw [hportX, ← hqueued]
  · rw [portX_sendDelayMsg_other _ _ hq, portX_takeInbox_other _ hq]

/-! ### An exchange ends (R572, Table 15.4) -/

/-- The exchange is no longer among those that wait. -/
def exchangeTaken (s : State) (j : DelayJob) : State := { s with tod.exch := s.tod.exch.filter fun k => k.id != j.id }

theorem endExchange_last {j : DelayJob} (h : j.left = 0) (s : State) (d : Option Int) :
    endExchange s j d = delayResult (exchangeTaken s j) j.kind (j.found ++ d.toList) := if_pos h

theorem endExchange_next {j : DelayJob} (h : 0 < j.left) (s : State) (d : Option Int) :
    endExchange s j d = beginExchange (exchangeTaken s j) j.kind j.port (j.left - 1) (j.found ++ d.toList) := if_neg h.ne'

/-- COUNT, mean, least and greatest of the delays found. -/
def delayReply (d : Int) (ds : List Int) : List Byte :=
  toLE 1 (ds.length + 1) ++ signed4 ((ds.foldl (· + ·) d) / ((ds.length + 1 : Nat) : Int)) ++ signed4 (ds.foldl min d) ++
    signed4 (ds.foldl max d)

theorem delayResult_cons (s : State) (k : JobKind) (d : Int) (ds : List Int) :
    delayResult s k (d :: ds) = postResult s k St.ok (delayReply d ds) := rfl

theorem delayResult_nil (s : State) (k : JobKind) : delayResult s k [] = postResult s k St.notPresent [] := rfl

theorem beginExchange_tod (s : State) (k : JobKind) (p left : Nat) (found : List Int) : (beginExchange s k p left found).tod =
    { s.tod with nextId := (s.tod.nextId + 1) % 65536,
                 exch := s.tod.exch ++ [{ kind := k, port := p, left := left, id := s.tod.nextId, found := found }] } := rfl

theorem beginExchange_asks (s : State) (k : JobKind) (p left : Nat) (found : List Int) :
    { ty := 3, bytes := toLE 2 s.tod.nextId } ∈ ((beginExchange s k p left found).portX p).mcOut := by
  rw [beginExchange, portX_sendDelayMsg]
  exact mem_aheadOf _ _

theorem portX_beginExchange_other (s : State) (k : JobKind) (left : Nat) (found : List Int) {p q : Nat} (h : q ≠ p) :
    (beginExchange s k p left found).portX q = s.portX q := by
  rw [beginExchange, portX_sendDelayMsg_other _ _ h]
  rfl

theorem beginExchange_rest (s : State) (k : JobKind) (p left : Nat) (found : List Int) : beginExchange s k p left found =
    { s with tod := (beginExchange s k p left found).tod, port := (beginExchange s k p left found).port } := rfl

/-! ### A response is taken (R559, R560) -/

section
variable (ha : s.Awake) {j : DelayJob} (hport : j.port = p.val)
  (hone : (s.tod.exch.filter fun i => i.port == p.val && i.id == j.id) = [j]) {rtt turn : Nat} (hid : j.id < 65536)
  (hturn : turn < 2 ^ 48) (hinbox : (s.portX p).inbox = some { ty := 4, bytes := toLE 2 j.id ++ toLE 6 turn })
include hone hid hturn hinbox

/-- The response is for the one exchange of its port and ID, and gives its delay. -/
theorem exec_delayResponse : exec (.delayResponse p rtt) s =
    act s (endExchange (takeInbox s p) j (some (((rtt : Int) - turn) / 2))) := by
  have hresponse : leAt (toLE 2 j.id ++ toLE 6 turn) 0 2 = j.id := leAt_toLE_append (by omega) _
  have hturned : leAt (toLE 2 j.id ++ toLE 6 turn) 2 6 = turn := by
    have h := leAt_append_toLE (k := 6) (n := turn) (by omega) (toLE 2 j.id)
    rwa [length_toLE] at h
  have hlen : (toLE 2 j.id ++ toLE 6 turn).length = 8 := by simp
  have hfound : s.tod.exch.find? (fun i => i.port == p.val && i.id == j.id) = some j := by
    rw [← List.head?_filter, hone]
    rfl
  have hexec : exec (.delayResponse p rtt) s = execDelayResponse p rtt s := rfl
  simp only [hexec, execDelayResponse, hinbox, State.modPort_tod, hresponse, hturned, hlen, hfound, if_true]
  rfl

include ha

theorem delayResponse_last (hleft : j.left = 0) : Gives (.delayResponse p rtt) s fun t =>
    (∃ d ds, d :: ds = j.found ++ [((rtt : Int) - turn) / 2] ∧ t.mp.ready = s.mp.ready ++ [(j.kind, St.ok,
      toLE 1 (ds.length + 1) ++ signed4 ((ds.foldl (· + ·) d) / ((ds.length + 1 : Nat) : Int)) ++ signed4 (ds.foldl min d) ++
        signed4 (ds.foldl max d))]) ∧
    t.tod.exch = s.tod.exch.filter (fun i => i.id != j.id) ∧ (t.portX p).inbox = none ∧
    t = { s with mp := { s.mp with ready := t.mp.ready }, tod := { s.tod with exch := t.tod.exch }, port := t.port } := by
  obtain ⟨d, ds, hfound⟩ := List.exists_cons_of_ne_nil (l := j.found ++ [((rtt : Int) - turn) / 2]) (by simp)
  have hended : endExchange (takeInbox s p) j (some (((rtt : Int) - turn) / 2)) =
      postResult (exchangeTaken (takeInbox s p) j) j.kind St.ok (delayReply d ds) := by
    rw [endExchange_last hleft, Option.toList_some, hfound, delayResult_cons]
  exact gives_of_act ha ((exec_delayResponse hone hid hturn hinbox).trans (congrArg (act s) hended)) ha.2
    ⟨⟨d, ds, hfound.symm, rfl⟩, rfl, congrArg PortX.inbox (portX_takeInbox s p), rfl⟩

include hport

theorem delayResponse_next (hleft : 0 < j.left) : Gives (.delayResponse p rtt) s fun t =>
    (∃ f, f = j.found ++ [((rtt : Int) - turn) / 2] ∧ t.tod.exch = s.tod.exch.filter (fun i => i.id != j.id) ++
      [{ j with left := j.left - 1, id := s.tod.nextId, age := 0, found := f }]) ∧
    { ty := 3, bytes := toLE 2 s.tod.nextId } ∈ (t.portX p).mcOut ∧ t.tod.nextId = (s.tod.nextId + 1) % 65536 ∧ t.mp = s.mp ∧
    t = { s with tod := t.tod, port := t.port } ∧ ∀ q, q ≠ p.val → t.portX q = s.portX q := by
  have hended := endExchange_next hleft (takeInbox s p) (some (((rtt : Int) - turn) / 2))
  refine gives_of_act ha ((exec_delayResponse hone hid hturn hinbox).trans (congrArg (act s) hended)) ha.2
    ⟨⟨_, rfl, rfl⟩, ?_, rfl, rfl, rfl, fun q hq => ?_⟩
  · rw [← hport]
    exact beginExchange_asks (exchangeTaken (takeInbox s j.port) j) _ _ _ _
  · rw [portX_beginExchange_other _ _ _ _ (hport ▸ hq)]
    exact portX_takeInbox_other s hq

end

/-! ### An exchange expires (R572) -/

theorem delayExchangeExpiry_ends (ha : s.Awake) {j : DelayJob} (hexch : s.tod.exch = [j]) (hage : 64 ≤ j.age) (hleft : j.left = 0)
    (hfound : j.found = []) : Gives .delayExchangeExpiry s fun t =>
      t.tod.exch = [] ∧ t.mp.ready = s.mp.ready ++ [(j.kind, St.notPresent, [])] ∧
      t = { s with mp.ready := t.mp.ready, tod.exch := [] } := by
  have hdue : exchDue s = [j] := by simp [exchDue, hexch, Nat.ble_eq.mpr hage]
  have htaken : exchangeTaken s j = { s with tod.exch := [] } := by simp [exchangeTaken, hexch]
  have hended : forList (exchDue s) (fun j s => endExchange s j none) s =
      postResult { s with tod.exch := [] } j.kind St.notPresent [] := by
    rw [hdue, forList, forList, endExchange_last hleft, hfound, htaken]
    rfl
  exact gives_of_act ha (congrArg (act s) hended) ha.2 ⟨rfl, rfl, rfl⟩

/-! ### TD_DELAY (R572) -/

theorem portInSync_begun (s : State) (op : Nat) (k : Pkt) (p : Nat) : portInSync (begun s op k) p = portInSync s p := by
  have hstate : (begun s op k).get F.LF_PSTATUS_FSTATE p = s.get F.LF_PSTATUS_FSTATE p :=
    begun_get s op k _ (not_mem_begunRegs (by simp only [F.LF_PSTATUS_FSTATE, Field.addr]; omega))
  rw [portInSync, hstate, portInSync]

section
variable {k : Pkt} {f : Nat} (h : TakesFw s k f) {a n : Byte} (hparams : k.params = [a, n])

include hparams

/-- The action of TD_DELAY, with its two parameters. -/
theorem runBody_tdDelay (u : State) : runBody .chain (ownJob s 0x72 k) u =
    if 15 < a.toNat ∨ n.toNat = 0 ∨ 64 < n.toNat then refuse u St.badParam
    else if !portInSync u a.toNat then refuse u St.notPresent
    else .wait (beginExchange u .chain a.toNat (n.toNat - 1) []) := by
  have hbody : runBody .chain (ownJob s 0x72 k) u = bodyTdDelay .chain k.params u := rfl
  rw [hbody, hparams]
  rfl

include h

theorem tdDelay_begins (hport : a.toNat < 16) (hlow : 1 ≤ n.toNat) (hhigh : n.toNat ≤ 64) (hsync : portInSync s a.toNat = true) :
    Gives (.tdDelay k (some f)) s fun t =>
      FwWaits s t k ∧ t.tod.exch = s.tod.exch ++ [{ kind := .chain, port := a.toNat, left := n.toNat - 1, id := s.tod.nextId }] ∧
      { ty := 3, bytes := toLE 2 s.tod.nextId } ∈ (t.portX a.toNat).mcOut ∧
      t = { s with regs := t.regs, mp := t.mp, ch := t.ch, tod := t.tod, port := t.port } ∧ RegsKept bridgeFields s t := by
  have hbad : ¬ (15 < a.toNat ∨ n.toNat = 0 ∨ 64 < n.toNat) := by omega
  have hout : ¬ (!portInSync (begun s 0x72 k) a.toNat) = true := by simp [portInSync_begun, hsync]
  have hbody := runBody_tdDelay (s := s) hparams (begun s 0x72 k)
  rw [if_neg hbad, if_neg hout] at hbody
  obtain ⟨⟨⟨-, hdue⟩, -⟩, -⟩ := id h
  obtain ⟨-, hbegun, -⟩ := begun_kept s 0x72 k
  have htod : (begun s 0x72 k).tod = s.tod := by rw [begun_eq]
  have hasks := beginExchange_asks (begun s 0x72 k) .chain a.toNat (n.toNat - 1) []
  have hexch := beginExchange_tod (begun s 0x72 k) .chain a.toNat (n.toNat - 1) []
  have hrest := beginExchange_rest (begun s 0x72 k) .chain a.toNat (n.toNat - 1) []
  generalize beginExchange (begun s 0x72 k) .chain a.toNat (n.toNat - 1) [] = w at hbody hasks hexch hrest
  have hregs : RegsKept (fs := []) (begun s 0x72 k) w := RegsKept.of_regs (by rw [hrest])
  obtain ⟨t, hexec, hwaits, ht, hshown⟩ := waits_fw (c := .tdDelay k (some f)) h rfl (by decide) (by decide) (by decide) rfl rfl
    (by rw [hparams]; rfl) hbody (by rw [hrest]) hregs (by simp) (by rw [hrest]; exact (congrArg _ (begun_chip s 0x72 k)).trans hdue)
  have hports : t.port = w.port := by rw [ht]
  refine ⟨t, hexec, hwaits, ?_, ?_, ?_, ?_⟩
  · rw [ht, hexch, htod]
  · rw [portX_of_port hports, ← htod]
    exact hasks
  · rw [ht, hrest, begun_eq]
  · exact (hbegun.mono (by decide)).trans ((hregs.mono (by simp)).trans (hshown.mono shown_sub_bridge))

theorem tdDelay_notPresent (hport : a.toNat < 16) (hlow : 1 ≤ n.toNat) (hhigh : n.toNat ≤ 64)
    (hsync : portInSync s a.toNat = false) : Gives (.tdDelay k (some f)) s fun t =>
      FwServed f [] s t k St.notPresent [] ∧ BusOnly s t := by
  have hbad : ¬ (15 < a.toNat ∨ n.toNat = 0 ∨ 64 < n.toNat) := by omega
  have hout : (!portInSync (begun s 0x72 k) a.toNat) = true := by simp [portInSync_begun, hsync]
  have hbody := runBody_tdDelay (s := s) hparams (begun s 0x72 k)
  rw [if_neg hbad, if_pos hout] at hbody
  exact served_fw_same h rfl (by decide) rfl rfl (by rw [hparams]; rfl) hbody

theorem tdDelay_badParam (hbad : 16 ≤ a.toNat ∨ n = 0 ∨ 64 < n.toNat) : Gives (.tdDelay k (some f)) s fun t =>
    FwServed f [] s t k St.badParam [] ∧ BusOnly s t := by
  have hbad' : 15 < a.toNat ∨ n.toNat = 0 ∨ 64 < n.toNat := hbad.imp_right (Or.imp_left fun hzero => by rw [hzero]; rfl)
  have hbody := runBody_tdDelay (s := s) hparams (begun s 0x72 k)
  rw [if_pos hbad'] at hbody
  exact served_fw_same h rfl (by decide) rfl rfl (by rw [hparams]; rfl) hbody

end

/-- Settles O44: a request answered, the two ways a response goes on, the expiry, and TD_DELAY begun or refused. -/
theorem pathDelay : Obligations.PathDelay := fun _ =>
  ⟨fun ha _ =>
    ⟨fun _ hlen hen hinbox _ _ => delayRequest_answered ha hlen hen hinbox,
      fun _ _ hport hone _ _ hid hturn hinbox => ⟨fun hleft => delayResponse_last ha hone hid hturn hinbox hleft,
        fun hleft => delayResponse_next ha hport hone hid hturn hinbox hleft⟩,
      fun _ hexch hage hleft hfound => delayExchangeExpiry_ends ha hexch hage hleft hfound⟩,
    fun _ _ h _ _ hparams =>
      ⟨fun hport hlow hhigh hsync => tdDelay_begins h hparams hport hlow hhigh hsync,
        fun hport hlow hhigh hsync => tdDelay_notPresent h hparams hport hlow hhigh hsync,
        fun hbad => tdDelay_badParam h hparams hbad⟩⟩

end Sys2Proof.Machine
end

section
/-!
PROOFS. The spare slice: its commands, the copy, and the shadow frames (R346, R348, R352, Table 9.6).
-/
namespace Sys2Proof.Machine

variable {s t u w : State} {k : Pkt} {f : Nat}

/-! ### The commands wait for the machine (R352) -/

/-- A command whose action moves registers and the cross-connect, and waits for an event of its own. -/
theorem xc_waits {c : Instr} {row : OpRow} {op : Nat} {fs : List (Nat × Nat × Nat)} (h : TakesFw s k f)
    (hc : exec c s = act s (chainCommand s op k (some f))) (hop : op ∉ [2, 3, 4]) (hr : opRow op = some row) (hf : row.fw = true)
    (hl : row.len k.params = true) (hb : runBody .chain (ownJob s op k) (begun s op k) = .wait w)
    (hw : w = { begun s op k with regs := w.regs, xc := w.xc }) (hkept : RegsKept fs (begun s op k) w)
    (hfs : ∀ g ∈ fs, g.1 ≠ 0x40000010) : Gives c s fun t =>
      FwWaits s t k ∧ t.xc = w.xc ∧ RegsKept shownFields w t ∧
      t = { s with regs := t.regs, mp := t.mp, ch := t.ch, xc := t.xc } ∧ RegsKept (bridgeFields ++ fs) s t := by
  simp only [List.mem_cons, List.not_mem_nil, or_false, not_or] at hop
  obtain ⟨h2, h3, h4⟩ := hop
  obtain ⟨⟨⟨-, hdue⟩, -⟩, -⟩ := id h
  obtain ⟨-, hbegun, -⟩ := begun_kept s op k
  obtain ⟨t, hexec, hwaits, ht, hshown⟩ := waits_fw h hc h2 h3 h4 hr hf hl hb (by rw [hw]) hkept hfs
    (by rw [hw]; exact (congrArg _ (begun_chip s op k)).trans hdue)
  refine ⟨t, hexec, hwaits, by rw [ht], hshown, by rw [ht, hw, begun_eq], ?_⟩
  exact (hbegun.mono fun g hg => List.mem_append_left _ ((by decide : ∀ g ∈ F.MP_TXN_COUNT.word :: shownFields, g ∈ bridgeFields) g hg)).trans
    ((hkept.mono fun g hg => List.mem_append_right _ hg).trans
      (hshown.mono fun g hg => List.mem_append_left _ (shown_sub_bridge g hg)))

/-- The fields that a request for the spare slice writes. -/
def restoreFields : List (Nat × Nat × Nat) := [F.XC_SLICE_STAT_SPARE_STATE.at, F.XC_SLICE_STAT_ATTEMPTS.at]
def swapFields : List (Nat × Nat × Nat) :=
  [F.XC_SLICE_STAT_SPARE_STATE.at, F.XC_SLICE_STAT_TARGET.at, F.XC_SLICE_STAT_ATTEMPTS.at]

theorem sliceSwapStart_rest (s : State) (n : Nat) (force : Bool) (job : Option JobKind) :
    sliceSwapStart s n force job =
      { s with regs := (sliceSwapStart s n force job).regs, xc := (sliceSwapStart s n force job).xc } := rfl

theorem sliceSwapStart_kept (s : State) (n : Nat) (force : Bool) (job : Option JobKind) :
    RegsKept swapFields s (sliceSwapStart s n force job) := by
  have hput : RegsKept swapFields s
      (((s.put F.XC_SLICE_STAT_SPARE_STATE 1).put F.XC_SLICE_STAT_TARGET n).put F.XC_SLICE_STAT_ATTEMPTS 0) :=
    (regsKept_put (by decide)).trans ((regsKept_put (by decide)).trans (regsKept_put (by decide)))
  unfold sliceSwapStart
  exact hput.trans (RegsKept.of_regs rfl)

theorem sliceSwapStart_shows (s : State) {n : Nat} (hn : n < 8) (force : Bool) (job : Option JobKind) :
    (sliceSwapStart s n force job).get F.XC_SLICE_STAT_SPARE_STATE = 1 ∧
    (sliceSwapStart s n force job).get F.XC_SLICE_STAT_TARGET = n ∧
    (sliceSwapStart s n force job).get F.XC_SLICE_STAT_ATTEMPTS = 0 := by
  simp only [sliceSwapStart, State.get_mk]
  refine ⟨?_, ?_, get_put_same _ _ 0 (by decide) (by decide)⟩
  · rw [get_put_apart _ _ 0 rfl, get_put_apart _ _ 0 rfl]
    exact get_put_same _ _ 0 (by decide) (by decide)
  · rw [get_put_apart _ _ 0 rfl]
    exact get_put_same _ _ 0 (by decide) (hn.trans (by decide))

theorem sliceRestoreStart_rest (s : State) (job : Option JobKind) :
    sliceRestoreStart s job = { s with regs := (sliceRestoreStart s job).regs, xc := (sliceRestoreStart s job).xc } := rfl

theorem sliceRestoreStart_kept (s : State) (job : Option JobKind) : RegsKept restoreFields s (sliceRestoreStart s job) := by
  have hput : RegsKept restoreFields s ((s.put F.XC_SLICE_STAT_SPARE_STATE 4).put F.XC_SLICE_STAT_ATTEMPTS 0) :=
    (regsKept_put (by decide)).trans (regsKept_put (by decide))
  unfold sliceRestoreStart
  exact hput.trans (RegsKept.of_regs rfl)

theorem sliceRestoreStart_shows (s : State) (job : Option JobKind) :
    (sliceRestoreStart s job).get F.XC_SLICE_STAT_SPARE_STATE = 4 ∧
    (sliceRestoreStart s job).get F.XC_SLICE_STAT_ATTEMPTS = 0 := by
  simp only [sliceRestoreStart, State.get_mk]
  refine ⟨?_, get_put_same _ _ 0 (by decide) (by decide)⟩
  rw [get_put_apart _ _ 0 rfl]
  exact get_put_same _ _ 0 (by decide) (by decide)

section
variable (h : TakesFw s k f) {n force : Byte} (hn : n.toNat < 8) (hforce : force.toNat < 2) (hparams : k.params = [n, force])
include hn hforce hparams

/-- The action of XC_SLICE_SWAP, with parameters in range. -/
theorem runBody_xcSliceSwap (s : State) : runBody .chain (ownJob s 0x33 k) (begun s 0x33 k) =
    if s.locked 5 then refuseLocked (begun s 0x33 k)
    else if s.get F.XC_SLICE_STAT_SPARE_STATE ≠ 0 then refuse (begun s 0x33 k) St.wrongState
    else .wait (sliceSwapStart (begun s 0x33 k) n.toNat (force.toNat == 1) (some .chain)) := by
  have hin : ¬ (7 < n.toNat ∨ 1 < force.toNat) := by omega
  have hbody : runBody .chain (ownJob s 0x33 k) (begun s 0x33 k) = bodyXcSliceSwap .chain k.params (begun s 0x33 k) := rfl
  have hbytes : byteAt [n, force] 0 = n.toNat ∧ byteAt [n, force] 1 = force.toNat := ⟨rfl, rfl⟩
  rw [hbody, hparams, bodyXcSliceSwap, hbytes.1, hbytes.2, if_neg hin, begun_locked, begun_get s 0x33 k _ (by decide)]

include h

theorem xcSliceSwap_begins (hfree : s.locked 5 = false) (hidle : s.get F.XC_SLICE_STAT_SPARE_STATE = 0) :
    Gives (.xcSliceSwap k (some f)) s fun t =>
      FwWaits s t k ∧ t.get F.XC_SLICE_STAT_SPARE_STATE = 1 ∧ t.get F.XC_SLICE_STAT_TARGET = n.toNat ∧
      t.get F.XC_SLICE_STAT_ATTEMPTS = 0 ∧ t.xc.force = (force.toNat == 1) ∧
      t = { s with regs := t.regs, mp := t.mp, ch := t.ch, xc := t.xc } ∧
      RegsKept (bridgeFields ++ [F.XC_SLICE_STAT_SPARE_STATE.at, F.XC_SLICE_STAT_TARGET.at, F.XC_SLICE_STAT_ATTEMPTS.at]) s t := by
  have hbody := runBody_xcSliceSwap hn hforce hparams s
  rw [if_neg (by simp [hfree]), if_neg (not_not_intro hidle)] at hbody
  obtain ⟨hstate, htarget, htries⟩ := sliceSwapStart_shows (begun s 0x33 k) hn (force.toNat == 1) (some .chain)
  obtain ⟨t, hexec, hwaits, hxc, hshown, ht, hregs⟩ := xc_waits (c := .xcSliceSwap k (some f)) h rfl (by decide) rfl rfl
    (by rw [hparams]; rfl) hbody (sliceSwapStart_rest _ _ _ _) (sliceSwapStart_kept _ _ _ _) (by decide)
  exact ⟨t, hexec, hwaits, (hshown.get _ _ _ (by decide)).trans hstate, (hshown.get _ _ _ (by decide)).trans htarget,
    (hshown.get _ _ _ (by decide)).trans htries, by rw [hxc, sliceSwapStart], ht, hregs⟩

theorem xcSliceSwap_wrongState (hfree : s.locked 5 = false) (hbusy : s.get F.XC_SLICE_STAT_SPARE_STATE ≠ 0) :
    Gives (.xcSliceSwap k (some f)) s fun t => FwServed f [] s t k St.wrongState [] ∧ BusOnly s t := by
  have hbody := runBody_xcSliceSwap hn hforce hparams s
  rw [if_neg (by simp [hfree]), if_pos hbusy] at hbody
  exact served_fw_same h rfl (by decide) rfl rfl (by rw [hparams]; rfl) hbody

theorem xcSliceSwap_locked (hlocked : s.locked 5 = true) : Gives (.xcSliceSwap k (some f)) s fun t =>
    FwServed f [F.MP_LOCK_VIOL_COUNT.at] s t k St.locked [] ∧
    t.get F.MP_LOCK_VIOL_COUNT = min (s.get F.MP_LOCK_VIOL_COUNT + 1) 65535 ∧ BusOnly s t := by
  have hbody := runBody_xcSliceSwap hn hforce hparams s
  rw [if_pos hlocked] at hbody
  have hcounted : Only [F.MP_LOCK_VIOL_COUNT.at] (begun s 0x33 k) ((begun s 0x33 k).bumpSat F.MP_LOCK_VIOL_COUNT) :=
    only_bumpSat (List.mem_singleton.mpr rfl)
  obtain ⟨t, hexec, hserved, hbridge, hanswer⟩ := served_fw_acts (c := .xcSliceSwap k (some f)) h rfl (by decide)
    rfl rfl (by rw [hparams]; rfl) hbody hcounted.mp (hcounted.chip.trans (begun_chip s 0x33 k)) hcounted.2 (by decide)
  refine ⟨t, hexec, hserved, ?_, (begun_busOnly s 0x33 k).trans (hcounted.bridge.busOnly.trans hbridge.busOnly)⟩
  rw [hanswer.get _ _ _ (by decide), ← begun_get s 0x33 k F.MP_LOCK_VIOL_COUNT (by decide)]
  exact get_bumpSat_one _ 0 (by decide)

end

theorem xcSliceRestore_begins (h : TakesFw s k f) (hparams : k.params = []) (hfree : s.locked 5 = false)
    (hserving : s.get F.XC_SLICE_STAT_SPARE_STATE = 3) : Gives (.xcSliceRestore k (some f)) s fun t =>
      FwWaits s t k ∧ t.get F.XC_SLICE_STAT_SPARE_STATE = 4 ∧ t.get F.XC_SLICE_STAT_ATTEMPTS = 0 ∧
      t = { s with regs := t.regs, mp := t.mp, ch := t.ch, xc := t.xc } ∧
      RegsKept (bridgeFields ++ [F.XC_SLICE_STAT_SPARE_STATE.at, F.XC_SLICE_STAT_ATTEMPTS.at]) s t := by
  have hbody : runBody .chain (ownJob s 0x34 k) (begun s 0x34 k) = .wait (sliceRestoreStart (begun s 0x34 k) (some .chain)) := by
    have hbody : runBody .chain (ownJob s 0x34 k) (begun s 0x34 k) = bodyXcSliceRestore .chain k.params (begun s 0x34 k) := rfl
    rw [hbody, bodyXcSliceRestore, begun_locked, begun_get s 0x34 k _ (by decide), if_neg (by simp [hfree]),
      if_neg (not_not_intro hserving)]
  obtain ⟨hstate, htries⟩ := sliceRestoreStart_shows (begun s 0x34 k) (some .chain)
  obtain ⟨t, hexec, hwaits, -, hshown, ht, hregs⟩ := xc_waits (c := .xcSliceRestore k (some f)) h rfl (by decide) rfl rfl
    (by rw [hparams]; rfl) hbody (sliceRestoreStart_rest _ _) (sliceRestoreStart_kept _ _) (by decide)
  exact ⟨t, hexec, hwaits, (hshown.get _ _ _ (by decide)).trans hstate, (hshown.get _ _ _ (by decide)).trans htries, ht, hregs⟩

/-! ### The copy completes (R346) -/

theorem sliceCopyComplete_shadows (ha : s.Awake)
    (hloading : s.get F.XC_SLICE_STAT_SPARE_STATE = 1 ∨ s.get F.XC_SLICE_STAT_SPARE_STATE = 4) :
    Gives .sliceCopyComplete s fun t => t = s.put F.XC_SLICE_STAT_SPARE_STATE (s.get F.XC_SLICE_STAT_SPARE_STATE + 1) := by
  have hcopied : sliceCopied s = s.put F.XC_SLICE_STAT_SPARE_STATE (s.get F.XC_SLICE_STAT_SPARE_STATE + 1) := by
    rcases hloading with hst | hst <;> simp [sliceCopied, hst]
  exact gives_of_act ha (congrArg (act s) hcopied) ha.2 rfl

/-! ### A shadow frame ends (Table 9.6) -/

/-- The words that differed counted, and the shadow frame over. -/
def compared (s : State) (diff : Nat) : State :=
  { s.put F.XC_SLICE_STAT_MISMATCH (min diff 65535) with xc.shadowing := false, xc.shadowDiff := 0 }

/-- The spare serves in the place of its target, two frames on. -/
def spareServes (u : State) : State :=
  { ((u.put F.XC_SLICE_STAT_SPARE_STATE 3).put F.XC_SLICE_STAT_FORCED (b2n u.xc.force)).raiseBit F.XC_EVENT_SWAP_DONE with
    xc.handover := some (2, true) }

/-- The slice serves again itself, two frames on. -/
def sliceServes (u : State) : State :=
  { (((u.put F.XC_SLICE_STAT_SPARE_STATE 0).put F.XC_SLICE_STAT_FORCED 0).put F.XC_SLICE_STAT_TARGET 0xF).raiseBit
      F.XC_EVENT_RESTORE_DONE with xc.handover := some (2, false) }

/-- A swap whose attempts have run out. -/
def swapFails (u : State) : State :=
  ((u.put F.XC_SLICE_STAT_SPARE_STATE 0).put F.XC_SLICE_STAT_TARGET 0xF).raiseBit F.XC_EVENT_SWAP_FAIL

/-- A restore whose attempts have run out. -/
def restoreFails (u : State) : State := (u.put F.XC_SLICE_STAT_SPARE_STATE 3).raiseBit F.XC_EVENT_SWAP_FAIL

theorem secondNext_compared (s : State) (diff : Nat) : (compared s diff).secondNext = s.secondNext := by
  have hframe : (compared s diff).frameNum = s.frameNum :=
    Prod.ext (State.get_put_otherReg s _ _ _ _ _ _ _ (by decide)) (State.get_put_otherReg s _ _ _ _ _ _ _ (by decide))
  rw [State.secondNext, State.secondNext, hframe]
  rfl

section
variable {more diff : Nat} (hshadow : s.xc.shadowing = true) (hdiff : diff = more + s.xc.shadowDiff)
include hshadow hdiff

theorem shadowEnd_of_swap (hst : s.get F.XC_SLICE_STAT_SPARE_STATE = 2) : shadowEnd s more =
    if min diff 65535 = 0 ∨ s.xc.force = true then
      logPush (sliceResult (spareServes (compared s diff)) St.ok (numBytes (compared s diff).secondNext)) 0x12
        (s.get F.XC_SLICE_STAT_TARGET) 1
    else if s.get F.XC_SLICE_STAT_ATTEMPTS < 15 then
      (compared s diff).put F.XC_SLICE_STAT_ATTEMPTS (s.get F.XC_SLICE_STAT_ATTEMPTS + 1)
    else
      logPush (raise (sliceResult (swapFails (compared s diff)) St.wrongState (toLE 4 (min diff 65535))) 9
        (s.get F.XC_SLICE_STAT_TARGET)) 0x12 (s.get F.XC_SLICE_STAT_TARGET) 2 := by
  subst hdiff
  simp only [shadowEnd, hshadow, hst, Bool.not_true, Bool.false_eq_true, if_false, if_true]
  rfl

theorem shadowEnd_of_restore (hst : s.get F.XC_SLICE_STAT_SPARE_STATE = 5) : shadowEnd s more =
    if min diff 65535 = 0 then
      logPush (sliceResult (sliceServes (compared s diff)) St.ok (numBytes (compared s diff).secondNext)) 0x13
        (s.get F.XC_SLICE_STAT_TARGET) 1
    else if s.get F.XC_SLICE_STAT_ATTEMPTS < 15 then
      (compared s diff).put F.XC_SLICE_STAT_ATTEMPTS (s.get F.XC_SLICE_STAT_ATTEMPTS + 1)
    else
      logPush (raise (sliceResult (restoreFails (compared s diff)) St.wrongState (toLE 4 (min diff 65535))) 9
        (s.get F.XC_SLICE_STAT_TARGET)) 0x13 (s.get F.XC_SLICE_STAT_TARGET) 2 := by
  subst hdiff
  simp only [shadowEnd, hshadow, hst, Bool.not_true, Bool.false_eq_true, if_false, if_true, Nat.reduceEqDiff]
  rfl

end

/-! ### What the machine's fields show then -/

theorem compared_mismatch (s : State) (diff : Nat) : (compared s diff).get F.XC_SLICE_STAT_MISMATCH = min diff 65535 :=
  get_put_same s F.XC_SLICE_STAT_MISMATCH 0 (by decide) (Nat.lt_succ_of_le (min_le_right _ _))

theorem compared_get (s : State) (diff : Nat) {g : Field} (hg : apart F.XC_SLICE_STAT_MISMATCH g = true) :
    (compared s diff).get g = s.get g := get_put_apart s _ 0 hg

theorem compared_kept (s : State) (diff : Nat) : RegsKept [F.XC_SLICE_STAT_MISMATCH.at] s (compared s diff) := by
  have hput : RegsKept [F.XC_SLICE_STAT_MISMATCH.at] s (s.put F.XC_SLICE_STAT_MISMATCH (min diff 65535)) :=
    regsKept_put (List.mem_singleton.mpr rfl)
  unfold compared
  exact hput.trans (RegsKept.of_regs rfl)

theorem compared_put_rest (s : State) (diff : Nat) (g : Field) (v : Nat) : (compared s diff).put g v =
    { s with regs := ((compared s diff).put g v).regs, xc.shadowing := false, xc.shadowDiff := 0 } := rfl

theorem spareServes_shows (u : State) :
    (spareServes u).get F.XC_SLICE_STAT_SPARE_STATE = 3 ∧ (spareServes u).get F.XC_SLICE_STAT_FORCED = b2n u.xc.force ∧
    (spareServes u).get F.XC_SLICE_STAT_MISMATCH = u.get F.XC_SLICE_STAT_MISMATCH ∧
    (spareServes u).get F.XC_EVENT_SWAP_DONE = 1 ∧ (spareServes u).get F.XC_SLICE_STAT_TARGET = u.get F.XC_SLICE_STAT_TARGET := by
  simp (disch := decide) only [spareServes, State.get_mk, State.raiseBit, get_put_apart, get_put_same, State.get_put_bit, and_self]

theorem sliceServes_shows (u : State) :
    (sliceServes u).get F.XC_SLICE_STAT_SPARE_STATE = 0 ∧ (sliceServes u).get F.XC_SLICE_STAT_FORCED = 0 ∧
    (sliceServes u).get F.XC_SLICE_STAT_TARGET = 15 ∧ (sliceServes u).get F.XC_EVENT_RESTORE_DONE = 1 := by
  simp (disch := decide) only [sliceServes, State.get_mk, State.raiseBit, get_put_apart, get_put_same, and_self]

theorem swapFails_shows (u : State) :
    (swapFails u).get F.XC_SLICE_STAT_SPARE_STATE = 0 ∧ (swapFails u).get F.XC_EVENT_SWAP_FAIL = 1 ∧
    (swapFails u).get F.XC_SLICE_STAT_MISMATCH = u.get F.XC_SLICE_STAT_MISMATCH := by
  simp (disch := decide) only [swapFails, State.raiseBit, get_put_apart, get_put_same, and_self]

theorem restoreFails_shows (u : State) :
    (restoreFails u).get F.XC_SLICE_STAT_SPARE_STATE = 3 ∧ (restoreFails u).get F.XC_EVENT_SWAP_FAIL = 1 ∧
    (restoreFails u).get F.XC_SLICE_STAT_MISMATCH = u.get F.XC_SLICE_STAT_MISMATCH := by
  simp (disch := decide) only [restoreFails, State.raiseBit, get_put_apart, get_put_same, and_self]

/-! ### What the end of a request shows -/

/-- `t` is `s` but for registers and what block FA holds beside them. -/
def FaMoves (s t : State) : Prop := ∃ regs fa, t = { s with regs := regs, fa := fa }

theorem FaMoves.refl (s : State) : FaMoves s s := ⟨_, _, rfl⟩

theorem FaMoves.put (h : FaMoves s t) (g : Field) (v i j : Nat) : FaMoves s (t.put g v i j) := by
  obtain ⟨regs, fa, rfl⟩ := h
  exact ⟨_, _, rfl⟩

theorem FaMoves.eccWritten (h : FaMoves s t) (a : Nat) : FaMoves s (eccWritten t a) := by
  obtain ⟨regs, fa, rfl⟩ := h
  exact ⟨_, _, rfl⟩

theorem logPush_moves (s : State) (kind subj detail : Nat) : FaMoves s (logPush s kind subj detail) := by
  have hentry (v0 v1 v2 v3 v4 a b slot : Nat) : FaMoves s (eccWritten (eccWritten (((((s.put F.FA_LOG v0 slot 0).put F.FA_LOG v1 slot 1).put
      F.FA_LOG v2 slot 2).put F.FA_LOG v3 slot 3).put F.FA_LOG_SEQ v4) a) b) :=
    ((((((FaMoves.refl s).put _ _ _ _).put _ _ _ _).put _ _ _ _).put _ _ _ _).put _ _ _ _).eccWritten a |>.eccWritten b
  unfold logPush
  dsimp only
  split
  · exact (hentry _ _ _ _ _ _ _ _).put _ _ _ _
  · exact hentry _ _ _ _ _ _ _ _

theorem get_logPush (s : State) (kind subj detail : Nat) (g : Field) (h : ¬ logAddr g.addr) :
    (logPush s kind subj detail).get g = s.get g := by
  rw [State.get, State.get, reg_logPush _ _ _ _ _ _ h]

theorem sliceResult_rest (s : State) (st : Nat) (data : List Byte) :
    sliceResult s st data = { s with mp.ready := (sliceResult s st data).mp.ready, xc.sliceJob := none } := by
  unfold sliceResult
  split
  next hnone => rw [← hnone]
  next => rfl

theorem sliceResult_ready {j : JobKind} (h : s.xc.sliceJob = some j) (st : Nat) (data : List Byte) :
    (sliceResult s st data).mp.ready = s.mp.ready ++ [(j, st, data)] := by
  rw [sliceResult, h]
  rfl


/-- A request answered and logged: what its outcome `u` shows stays. -/
theorem outcome_logged (u : State) (st : Nat) (data : List Byte) (kind subj detail : Nat) :
    (logPush (sliceResult u st data) kind subj detail).chip = u.chip ∧
    (logPush (sliceResult u st data) kind subj detail).xc = { u.xc with sliceJob := none } ∧
    (∀ j, u.xc.sliceJob = some j →
      (logPush (sliceResult u st data) kind subj detail).mp.ready = u.mp.ready ++ [(j, st, data)]) ∧
    ∀ g : Field, g.addr = F.XC_SLICE_STAT.addr ∨ g.addr = F.XC_EVENT.addr → (logPush (sliceResult u st data) kind subj detail).get g = u.get g := by
  have hrest := sliceResult_rest u st data
  obtain ⟨regs, fa, hlog⟩ := logPush_moves (sliceResult u st data) kind subj detail
  refine ⟨by rw [hlog, hrest], by rw [hlog, hrest], fun j hj => ?_, fun g hg => ?_⟩
  · rw [hlog]
    exact sliceResult_ready hj st data
  · have hlog : ¬ logAddr F.XC_SLICE_STAT.addr ∧ ¬ logAddr F.XC_EVENT.addr := by unfold logAddr; decide
    have hapart : ¬ logAddr g.addr := by
      rcases hg with haddr | haddr
      · exact haddr ▸ hlog.1
      · exact haddr ▸ hlog.2
    rw [get_logPush _ _ _ _ _ hapart, hrest]
    rfl

section
variable {more diff : Nat} (ha : s.Awake) (hshadow : s.xc.shadowing = true) (hdiff : diff = more + s.xc.shadowDiff)
include ha hshadow hdiff

theorem shadowFrameEnd_swaps (hst : s.get F.XC_SLICE_STAT_SPARE_STATE = 2) (hgood : diff = 0 ∨ s.xc.force = true) :
    Gives (.shadowFrameEnd more) s fun t =>
      t.get F.XC_SLICE_STAT_SPARE_STATE = 3 ∧ t.get F.XC_SLICE_STAT_FORCED = b2n s.xc.force ∧
      t.get F.XC_SLICE_STAT_MISMATCH = min diff 65535 ∧ t.get F.XC_EVENT_SWAP_DONE = 1 ∧
      t.get F.XC_SLICE_STAT_TARGET = s.get F.XC_SLICE_STAT_TARGET ∧ t.xc.handover = some (2, true) ∧ t.xc.shadowing = false ∧
      ∀ j, s.xc.sliceJob = some j → t.mp.ready = s.mp.ready ++ [(j, St.ok, numBytes s.secondNext)] := by
  have hend := shadowEnd_of_swap hshadow hdiff hst
  rw [if_pos (hgood.imp_left fun h => by omega), secondNext_compared] at hend
  obtain ⟨hchip, hxc, hready, hget⟩ := outcome_logged (spareServes (compared s diff)) St.ok (numBytes s.secondNext) 0x12
    (s.get F.XC_SLICE_STAT_TARGET) 1
  rw [← hend] at hchip hxc hready hget
  obtain ⟨hstate, hforced, hmismatch, hevent, htarget⟩ := spareServes_shows (compared s diff)
  exact gives_of_act ha rfl (hchip ▸ ha.2) ⟨(hget _ (by decide)).trans hstate, (hget _ (by decide)).trans hforced,
    (hget _ (by decide)).trans (hmismatch.trans (compared_mismatch s diff)), (hget _ (by decide)).trans hevent,
    (hget _ (by decide)).trans (htarget.trans (compared_get s diff rfl)), by rw [hxc]; rfl, by rw [hxc]; rfl, hready⟩

theorem shadowFrameEnd_restores (hst : s.get F.XC_SLICE_STAT_SPARE_STATE = 5) (hgood : diff = 0) :
    Gives (.shadowFrameEnd more) s fun t =>
      t.get F.XC_SLICE_STAT_SPARE_STATE = 0 ∧ t.get F.XC_SLICE_STAT_FORCED = 0 ∧ t.get F.XC_SLICE_STAT_TARGET = 15 ∧
      t.get F.XC_EVENT_RESTORE_DONE = 1 ∧ t.xc.handover = some (2, false) ∧
      ∀ j, s.xc.sliceJob = some j → t.mp.ready = s.mp.ready ++ [(j, St.ok, numBytes s.secondNext)] := by
  have hend := shadowEnd_of_restore hshadow hdiff hst
  rw [if_pos (by omega), secondNext_compared] at hend
  obtain ⟨hchip, hxc, hready, hget⟩ := outcome_logged (sliceServes (compared s diff)) St.ok (numBytes s.secondNext) 0x13
    (s.get F.XC_SLICE_STAT_TARGET) 1
  rw [← hend] at hchip hxc hready hget
  obtain ⟨hstate, hforced, htarget, hevent⟩ := sliceServes_shows (compared s diff)
  exact gives_of_act ha rfl (hchip ▸ ha.2) ⟨(hget _ (by decide)).trans hstate, (hget _ (by decide)).trans hforced,
    (hget _ (by decide)).trans htarget, (hget _ (by decide)).trans hevent, by rw [hxc]; rfl, hready⟩

variable (hst : s.get F.XC_SLICE_STAT_SPARE_STATE = 2 ∧ s.xc.force = false ∨ s.get F.XC_SLICE_STAT_SPARE_STATE = 5)
  (hbad : diff ≠ 0)
include hst hbad

theorem shadowFrameEnd_retries (htries : s.get F.XC_SLICE_STAT_ATTEMPTS < 15) : Gives (.shadowFrameEnd more) s fun t =>
    t.get F.XC_SLICE_STAT_ATTEMPTS = s.get F.XC_SLICE_STAT_ATTEMPTS + 1 ∧ t.get F.XC_SLICE_STAT_MISMATCH = min diff 65535 ∧
    t = { s with regs := t.regs, xc.shadowing := false, xc.shadowDiff := 0 } ∧
    RegsKept [F.XC_SLICE_STAT_ATTEMPTS.at, F.XC_SLICE_STAT_MISMATCH.at] s t := by
  have hend : shadowEnd s more = (compared s diff).put F.XC_SLICE_STAT_ATTEMPTS (s.get F.XC_SLICE_STAT_ATTEMPTS + 1) := by
    rcases hst with ⟨hst, hforce⟩ | hst
    · rw [shadowEnd_of_swap hshadow hdiff hst, if_neg (not_or.mpr ⟨by omega, by simp [hforce]⟩), if_pos htries]
    · rw [shadowEnd_of_restore hshadow hdiff hst, if_neg (by omega), if_pos htries]
  refine gives_of_act ha (congrArg (act s) hend) ha.2 ⟨get_put_same _ _ 0 (by decide) ?_, ?_, compared_put_rest _ _ _ _,
    ((compared_kept s diff).mono (by decide)).trans (regsKept_put (by decide))⟩
  · exact lt_trans (Nat.succ_lt_succ htries) (by decide)
  · rw [get_put_apart _ _ 0 rfl, compared_mismatch]

theorem shadowFrameEnd_fails (htries : 15 ≤ s.get F.XC_SLICE_STAT_ATTEMPTS) : ∃ t u, exec (.shadowFrameEnd more) s = .next t ∧
    t = settle (logPush (raise u 9 (s.get F.XC_SLICE_STAT_TARGET)) (if s.get F.XC_SLICE_STAT_SPARE_STATE = 2 then 0x12 else 0x13)
      (s.get F.XC_SLICE_STAT_TARGET) 2) ∧
    u.get F.XC_SLICE_STAT_SPARE_STATE = (if s.get F.XC_SLICE_STAT_SPARE_STATE = 2 then 0 else 3) ∧
    u.get F.XC_EVENT_SWAP_FAIL = 1 ∧ u.get F.XC_SLICE_STAT_MISMATCH = min diff 65535 ∧
    ∀ j, s.xc.sliceJob = some j → u.mp.ready = s.mp.ready ++ [(j, St.wrongState, toLE 4 (min diff 65535))] := by
  have hget (u : State) (g : Field) : (sliceResult u St.wrongState (toLE 4 (min diff 65535))).get g = u.get g := by
    rw [sliceResult_rest]
    rfl
  rcases hst with ⟨hst, hforce⟩ | hst
  · obtain ⟨hstate, hevent, hmismatch⟩ := swapFails_shows (compared s diff)
    refine ⟨_, _, act_of_awake ha, ?_, (hget _ _).trans ?_, (hget _ _).trans hevent,
      (hget _ _).trans (hmismatch.trans (compared_mismatch s diff)), fun j hj => sliceResult_ready (s := swapFails (compared s diff)) hj _ _⟩
    · rw [shadowEnd_of_swap hshadow hdiff hst, if_neg (not_or.mpr ⟨by omega, by simp [hforce]⟩), if_neg (by omega), if_pos hst]
    · rw [hstate, if_pos hst]
  · obtain ⟨hstate, hevent, hmismatch⟩ := restoreFails_shows (compared s diff)
    have hrestore : s.get F.XC_SLICE_STAT_SPARE_STATE ≠ 2 := by omega
    refine ⟨_, _, act_of_awake ha, ?_, (hget _ _).trans ?_, (hget _ _).trans hevent,
      (hget _ _).trans (hmismatch.trans (compared_mismatch s diff)), fun j hj => sliceResult_ready (s := restoreFails (compared s diff)) hj _ _⟩
    · rw [shadowEnd_of_restore hshadow hdiff hst, if_neg (by omega), if_neg (by omega), if_neg hrestore]
    · rw [hstate, if_neg hrestore]

end

/-- Settles O28: the commands wait for the machine, and each end of a shadow frame is one branch of `shadowEnd`. -/
theorem spareSlice : Obligations.SpareSlice := fun _ =>
  ⟨fun _ _ h =>
    ⟨fun _ _ hn hforce hparams =>
      ⟨fun hfree hidle => xcSliceSwap_begins h hn hforce hparams hfree hidle,
        fun hfree hbusy => xcSliceSwap_wrongState h hn hforce hparams hfree hbusy,
        fun hlocked => xcSliceSwap_locked h hn hforce hparams hlocked⟩,
      fun hparams hfree hserving => xcSliceRestore_begins h hparams hfree hserving⟩,
    fun ha =>
      ⟨fun hloading => sliceCopyComplete_shadows ha hloading,
        fun hshadow _ _ hdiff =>
          ⟨fun hst hgood => shadowFrameEnd_swaps ha hshadow hdiff hst hgood,
            fun hst hgood => shadowFrameEnd_restores ha hshadow hdiff hst hgood,
            fun hst hbad => ⟨fun htries => shadowFrameEnd_retries ha hshadow hdiff hst hbad htries,
              fun htries => shadowFrameEnd_fails ha hshadow hdiff hst hbad htries⟩⟩⟩⟩

end Sys2Proof.Machine
end

section
/-!
PROOFS. STALE, the counters cleared, and the opcodes of the slot maps (R326, R339, R348–R351, R353).
-/
namespace Sys2Proof.Machine

variable {s t u : State} {k : Pkt} {f : Nat}

/-! ### STALE (R339) -/

theorem staleSet_rest (s : State) (t : Nat) :
    staleSet s t = { s with regs := (staleSet s t).regs, xc.trib := (staleSet s t).xc.trib } := rfl

theorem staleSet_kept (s : State) (t : Nat) :
    RegsKept [F.XC_TRIB_STAT_STALE.at t, F.XC_EVENT_STALE_SET.at] s (staleSet s t) := by
  have hput : RegsKept [F.XC_TRIB_STAT_STALE.at t, F.XC_EVENT_STALE_SET.at] s
      ((s.put F.XC_TRIB_STAT_STALE 1 t).raiseBit F.XC_EVENT_STALE_SET) :=
    (regsKept_put (by simp)).trans (regsKept_raiseBit (by simp))
  unfold staleSet
  exact hput.trans (RegsKept.of_regs rfl)

theorem staleSet_shows (s : State) (t : Nat) :
    (staleSet s t).get F.XC_TRIB_STAT_STALE t = 1 ∧ (staleSet s t).get F.XC_EVENT_STALE_SET = 1 := by
  have hother : F.XC_TRIB_STAT_STALE.addr t ≠ F.XC_EVENT_STALE_SET.addr := by
    simp only [F.XC_TRIB_STAT_STALE, F.XC_EVENT_STALE_SET, Field.addr]
    omega
  unfold staleSet
  constructor
  · rw [State.modTrib_get, State.raiseBit, State.get_put_otherReg _ _ _ _ _ _ _ _ hother]
    exact get_put_same _ _ _ (by decide) (by decide)
  · rw [State.modTrib_get]
    exact State.get_raiseBit _ _ _ _ (by decide) (by decide)

theorem staleSet_sets (ha : s.Awake) {t : Byte} (hdue : staleDue s t.toNat = true) : Gives (.staleSet t) s fun u =>
    u.get F.XC_TRIB_STAT_STALE t.toNat = 1 ∧ u.get F.XC_EVENT_STALE_SET = 1 ∧ (∀ q, q ≠ t.toNat → u.tribX q = s.tribX q) ∧
    u.tribX t.toNat = { s.tribX t.toNat with staleN := (s.tribX t.toNat).staleN + 1 } ∧
    u = { s with regs := u.regs, xc.trib := u.xc.trib } ∧
    RegsKept [F.XC_TRIB_STAT_STALE.at t.toNat, F.XC_EVENT_STALE_SET.at] s u := by
  have hexec : exec (.staleSet t) s = act s (staleSet s t.toNat) := congrArg (act s) (if_pos hdue)
  obtain ⟨hstale, hevent⟩ := staleSet_shows s t.toNat
  exact gives_of_act ha hexec ha.2 ⟨hstale, hevent, fun q hq => State.tribX_modTrib_other _ _ hq, State.tribX_modTrib _ _ _,
    staleSet_rest _ _, staleSet_kept _ _⟩

/-! ### The counters cleared (R353) -/

/-- XC_CMD in the register table. -/
def xcCmdSpec : RegSpec := { name := "XC_CMD", base := 0x40050010, wo := 0x00000003 }

theorem specAt_xcCmd : specAt 0x40050010 = some xcCmdSpec := by decide +kernel

/-- XC_CMD holds nothing itself: a write only does what it sets off. -/
theorem writeXc_cmd (s : State) (v : Nat) : ∃ u, (∀ fs, Only fs s u) ∧
    writeBy judgeXc hookXc s F.XC_CMD.addr v = hookXc 0x40050010 v (s.reg 0x40050010).toNat u :=
  ⟨storeWord s 0x40050010 v, fun _ => storeWord_kept_only s specAt_xcCmd rfl (Nat.zero_and v),
    writeBy_ok specAt_xcCmd rfl rfl rfl⟩

/-- The slip counters of the ports. -/
def slipWords : List (Nat × Nat × Nat) := (List.range 16).flatMap fun p => [F.XC_RX_SLIP.word p, F.XC_TX_SLIP.word p]

/-- The slip counters of one port cleared. -/
def slipCleared (p : Nat) (s : State) : State := (s.put F.XC_RX_SLIP 0 p).put F.XC_TX_SLIP 0 p

theorem slipCleared_only {p : Nat} (hp : p < 16) (s : State) : Only slipWords s (slipCleared p s) := by
  have hmem : ∀ g ∈ [F.XC_RX_SLIP.word p, F.XC_TX_SLIP.word p], g ∈ slipWords :=
    fun g hg => List.mem_flatMap.mpr ⟨p, List.mem_range.mpr hp, hg⟩
  exact (only_put_word (hmem _ (by simp)) rfl (by decide)).trans (only_put_word (hmem _ (by simp)) rfl (by decide))

theorem forN_slipCleared_only {n : Nat} (hn : n ≤ 16) (s : State) : Only slipWords s (forN n slipCleared s) :=
  forN_keeps (Only slipWords s) n slipCleared (fun _ hp _ h => h.trans (slipCleared_only (hp.trans_le hn) _)) s (only_refl s)

theorem forN_slipCleared_zero {n : Nat} (hn : n ≤ 16) (s : State) {p : Nat} (hp : p < n) :
    (forN n slipCleared s).reg (F.XC_RX_SLIP.addr p) = 0 ∧ (forN n slipCleared s).reg (F.XC_TX_SLIP.addr p) = 0 := by
  induction n with
  | zero => exact absurd hp (Nat.not_lt_zero p)
  | succ n ih =>
    rw [forN_succ, slipCleared]
    rcases Nat.lt_succ_iff_lt_or_eq.mp hp with hlt | rfl
    · obtain ⟨hrx, htx⟩ := ih (Nat.le_of_succ_le hn) hlt
      constructor
      · rw [State.reg_put_other _ _ _ _ _ (by simp only [F.XC_RX_SLIP, F.XC_TX_SLIP, Field.addr]; omega),
          State.reg_put_other _ _ _ _ _ (by simp only [F.XC_RX_SLIP, Field.addr]; omega), hrx]
      · rw [State.reg_put_other _ _ _ _ _ (by simp only [F.XC_TX_SLIP, Field.addr]; omega),
          State.reg_put_other _ _ _ _ _ (by simp only [F.XC_RX_SLIP, F.XC_TX_SLIP, Field.addr]; omega), htx]
    · constructor
      · rw [State.reg_put_other _ _ _ _ _ (by simp only [F.XC_RX_SLIP, F.XC_TX_SLIP, Field.addr]; omega)]
        exact reg_put_zero _ F.XC_RX_SLIP p (by decide)
      · exact reg_put_zero _ F.XC_TX_SLIP p (by decide)

theorem slipClr_clears (ha : s.Awake) : Gives .slipClr s fun t =>
    (∀ p, p < 16 → t.reg (F.XC_RX_SLIP.addr p) = 0 ∧ t.reg (F.XC_TX_SLIP.addr p) = 0) ∧ Only slipWords s t := by
  obtain ⟨u, hu, hwrite⟩ := writeXc_cmd s 1
  have hexec : exec .slipClr s = act s (forN 16 slipCleared u) := congrArg (act s) hwrite
  have honly := (hu _).trans (forN_slipCleared_only (Nat.le_refl 16) u)
  exact gives_of_act ha hexec ((congrArg _ honly.chip).trans ha.2) ⟨fun _ hp => forN_slipCleared_zero (Nat.le_refl 16) u hp, honly⟩

/-- Registers that are named whole may change, and the others read as before. -/
theorem regsKept_words {fs : List (Nat × Nat × Nat)} (h : ∀ a, (a, 0, 32) ∉ fs → t.reg a = s.reg a) : RegsKept fs s t := by
  intro a b hout
  by_cases hb : b < 32
  · rw [h a fun hmem => hout ⟨_, hmem, rfl, Nat.zero_le _, by simpa using hb⟩]
  · rw [BitVec.getLsbD_of_ge _ _ (Nat.not_lt.mp hb), BitVec.getLsbD_of_ge _ _ (Nat.not_lt.mp hb)]

theorem reg_clearRegs (s : State) (drop : Nat → Bool) (a : Nat) :
    (s.clearRegs drop).reg a = if drop a then resetWord a else s.reg a := by
  refine (SMap.get_restrict resetWord _ _ a).trans ?_
  cases drop a <;> rfl

/-- The registers of XC_TRIB_CRC. -/
def crcAddr (a : Nat) : Bool := Nat.ble 0x40051000 a && Nat.blt a 0x40052000 && a % 16 == 8

theorem crcAddr_iff {a : Nat} : crcAddr a = true ↔ ∃ i, i < 256 ∧ a = F.XC_TRIB_CRC.addr i := by
  simp only [crcAddr, Bool.and_eq_true, Nat.ble_eq, Nat.blt_eq, beq_iff_eq, F.XC_TRIB_CRC, Field.addr]
  constructor
  · rintro ⟨⟨hlow, hhigh⟩, hmod⟩
    exact ⟨(a - 0x40051000) / 16, by omega, by omega⟩
  · rintro ⟨i, hi, rfl⟩
    omega

theorem resetWord_tribCrc (i : Fin 256) : resetWord (F.XC_TRIB_CRC.addr i) = 0 := by
  revert i
  decide +kernel

theorem crcClr_clears (ha : s.Awake) : Gives .crcClr s fun t =>
    (∀ i, i < 256 → t.reg (F.XC_TRIB_CRC.addr i) = 0) ∧ Only ((List.range 256).map fun i => F.XC_TRIB_CRC.word i) s t := by
  obtain ⟨u, hu, hwrite⟩ := writeXc_cmd s 2
  have hexec : exec .crcClr s = act s (u.clearRegs crcAddr) := congrArg (act s) hwrite
  have hcleared : Only ((List.range 256).map fun i => F.XC_TRIB_CRC.word i) u (u.clearRegs crcAddr) := by
    refine ⟨rfl, regsKept_words fun a hout => ?_⟩
    rw [reg_clearRegs, if_neg]
    intro hcrc
    obtain ⟨i, hi, rfl⟩ := crcAddr_iff.mp hcrc
    exact hout (List.mem_map_of_mem (List.mem_range.mpr hi))
  have honly := (hu _).trans hcleared
  refine gives_of_act ha hexec ((congrArg _ honly.chip).trans ha.2) ⟨fun i hi => ?_, honly⟩
  rw [reg_clearRegs, if_pos (crcAddr_iff.mpr ⟨i, hi, rfl⟩)]
  exact resetWord_tribCrc ⟨i, hi⟩

/-! ### A map read without any check (R326, R350) -/

/-- No word is bad and the checker of the map tables is not armed. -/
def MapsClean (s : State) : Prop := s.fa.badWords = [] ∧ s.get F.FA_JIG_LEFT 2 = 0

theorem eccCheck_clean (h : MapsClean s) {a : Nat} (hlow : 0x30000000 ≤ a) (hhigh : a < 0x38000000) :
    eccCheck s a = (s, 0) := by
  obtain ⟨hgood, hjig⟩ := h
  have hstored : s.storedErr a = 0 := by rw [State.storedErr, hgood]; rfl
  have hplace : eccPlace s a = if a < 0x30040000 then some (2, 2, (a - 0x30000000) / 1024) else none := by
    have h1 : ¬ a < 0x10000000 := by omega
    have h2 : ¬ a < 0x20000000 := by omega
    have h3 : ¬ a < 0x20100000 := by omega
    have h4 : ¬ a < 0x30000000 := by omega
    simp only [eccPlace, if_neg h1, if_neg h2, if_neg h3, if_neg h4, if_pos hhigh]
  rw [eccCheck, hplace]
  by_cases hmap : a < 0x30040000
  · have hweight : popCount 8 0 = 0 := by decide
    simp [hmap, hstored, State.jigMask, jigUse, hjig, hweight]
  · simp [hmap]

/-- Two states with the same words in the map tables read the same runs. -/
theorem readRuns_congr (hs : MapsClean s) (ht : MapsClean t) {base : Nat} (hlow : 0x30000000 ≤ base)
    (hhigh : base + 0x1000 ≤ 0x38000000) (hregs : ∀ a, 0x30000000 ≤ a → a < 0x38000000 → t.reg a = s.reg a) {n r : Nat}
    (hn : r + n ≤ 1024) (first : Nat) (acc : List Run) :
    (readRuns t base n r first acc).2 = (readRuns s base n r first acc).2 := by
  induction n generalizing r first acc with
  | zero => rfl
  | succ n ih =>
    have hin : 0x30000000 ≤ base + 4 * r ∧ base + 4 * r < 0x38000000 := by omega
    have hreg := hregs _ hin.1 hin.2
    have hchk (x : State) (hx : MapsClean x) : (if (base + 4 * r) % 8 = 0 then eccCheck x (base + 4 * r) else (x, 0)) = (x, 0) := by
      split
      · exact eccCheck_clean hx hin.1 hin.2
      · rfl
    simp only [readRuns, hchk s hs, hchk t ht, hreg, show ¬ (0 = 2) by decide, if_false]
    split
    · rfl
    · exact ih (by omega) _ _

theorem mapAddr_bounds {p dir buf : Nat} (hp : p < 64) (hdir : dir < 2) (hbuf : buf < 2) :
    0x30000000 ≤ mapAddr p dir buf 0 ∧ mapAddr p dir buf 0 + 0x1000 ≤ 0x38000000 := by
  unfold mapAddr
  omega

theorem plainRuns_congr (hregs : ∀ a, 0x30000000 ≤ a → a < 0x38000000 → t.reg a = s.reg a) {p dir buf : Nat} (hp : p < 64)
    (hdir : dir < 2) (hbuf : buf < 2) : plainRuns t p dir buf = plainRuns s p dir buf := by
  have hclean (x : State) : MapsClean (({ x with fa.badWords := [] } : State).put F.FA_JIG_LEFT 0 2) :=
    ⟨rfl, get_put_same _ _ 2 (by decide) (by decide)⟩
  have hreg (x : State) {a : Nat} (ha : a < 0x38000000) :
      (({ x with fa.badWords := [] } : State).put F.FA_JIG_LEFT 0 2).reg a = x.reg a :=
    State.reg_put_other _ _ _ _ _ (by simp only [F.FA_JIG_LEFT, Field.addr]; omega)
  obtain ⟨hlow, hhigh⟩ := mapAddr_bounds hp hdir hbuf
  refine congrArg Prod.fst (readRuns_congr (hclean s) (hclean t) hlow hhigh (fun a hlow hhigh => ?_) (by decide) 0 [])
  rw [hreg t hhigh, hreg s hhigh, hregs a hlow hhigh]

/-! ### What the action of a map opcode finds is what stood before the command (R141) -/

section
variable (s : State) (op : Nat) (k : Pkt)

theorem begun_get_high (g : Field) (i : Nat) (h : 0x40000010 < g.base) : (begun s op k).get g i = s.get g i :=
  begun_get s op k g (not_mem_begunRegs (by simp only [Field.addr]; omega))

theorem begun_on_high (g : Field) (i : Nat) (h : 0x40000010 < g.base) : (begun s op k).on g i = s.on g i :=
  congrArg (· != 0) (begun_get_high s op k g i h)

theorem plainRuns_begun {p dir buf : Nat} (hp : p < 64) (hdir : dir < 2) (hbuf : buf < 2) :
    plainRuns (begun s op k) p dir buf = plainRuns s p dir buf := by
  refine plainRuns_congr (fun a _ hhigh => begun_reg s op k ?_) hp hdir hbuf
  simp only [begunRegs, List.mem_cons, List.not_mem_nil, or_false]
  omega

theorem psCfg_begun (g : Field) (i : Nat) : (begun s op k).psCfg g i = s.psCfg g i := by
  rw [begun_eq]
  rfl

theorem tribKind_begun (t : Nat) : (begun s op k).tribKind t = s.tribKind t := begun_get_high s op k _ t (by decide)

theorem tribIndex_begun (t : Nat) : (begun s op k).tribIndex t = s.tribIndex t := begun_get_high s op k _ t (by decide)

theorem tribWidth_begun (t : Nat) : (begun s op k).tribWidth t = s.tribWidth t := begun_get_high s op k _ t (by decide)

theorem portRate_begun (p : Nat) : portRate (begun s op k) p = portRate s p := begun_get_high s op k _ p (by decide)

theorem groupBad_begun (u : Nat) : groupBad (begun s op k) u = groupBad s u := by
  simp only [groupBad, ringRangeBad, psKind, sidePort, psCfg_begun, portRate_begun]

theorem mergeGroup_begun (t : Nat) : mergeGroup (begun s op k) t = mergeGroup s t := by
  simp only [mergeGroup, psKind, sidePort, psCfg_begun, tribKind_begun, tribIndex_begun]

theorem rxNames_begun {p : Nat} (hp : p < 64) (t : Nat) : rxNames (begun s op k) p t = rxNames s p t := by
  have hused : usedRuns (begun s op k) p = usedRuns s p := by
    rw [usedRuns, begun_get_high s op k _ p (by decide), usedRuns]
    exact plainRuns_begun s op k hp (by decide) (State.get_lt s F.XC_RX_STAT_USED_B p 0)
  rw [rxNames, hused, portRate_begun, rxNames]

theorem rxAdmits_begun (p t : Nat) : rxAdmits (begun s op k) p t = rxAdmits s p t := by
  have hnames := rxNames_begun s op k (State.get_lt s F.XC_TRIB_CFG_SRC_INDEX t 0) t
  simp only [rxAdmits, tribKind_begun, tribIndex_begun, mergeGroup_begun, groupBad_begun, sidePort, psCfg_begun]
  rw [State.tribIndex, hnames]

theorem checkRuns_begun (dir p : Nat) (runs : List Run) : checkRuns (begun s op k) dir p runs = checkRuns s dir p runs := by
  simp only [checkRuns, tribKind_begun, tribWidth_begun, rxAdmits_begun, begun_get_high s op k F.LP_CTRL_RATE p (by decide)]

theorem activeBuf_begun (p : Nat) : activeBuf (begun s op k) p = activeBuf s p := begun_get_high s op k _ p (by decide)

theorem txVersion_begun (p buf : Nat) : txVersion (begun s op k) p buf = txVersion s p buf := by
  simp only [txVersion, begun_get_high s op k F.XC_TX_SEL_VER_A p (by decide), begun_get_high s op k F.XC_TX_SEL_VER_B p (by decide)]

theorem nextSent_begun (p : Nat) : nextSent (begun s op k) p = nextSent s p := by
  have hport : (begun s op k).portX p = s.portX p := by rw [begun_eq]; rfl
  have htimed : loopTimed (begun s op k) p = loopTimed s p := by
    simp only [loopTimed, begun_on_high s op k F.LP_CTRL_TX_TIMING p (by decide),
      begun_on_high s op k F.LP_STATUS_LOOP_FALLBACK p (by decide)]
  have hin : (begun s op k).inFrame = s.inFrame := by rw [begun_eq]; rfl
  have htotal : (begun s op k).frameTotal = s.frameTotal := begun_get_high s op k _ 0 (by decide)
  have hframe : (begun s op k).frameNum = s.frameNum :=
    Prod.ext (begun_get_high s op k _ 0 (by decide)) (begun_get_high s op k _ 0 (by decide))
  have hnum : (begun s op k).num = s.num := by rw [begun_eq]
  have hnext : (begun s op k).nextFrameNum = s.nextFrameNum := by simp only [State.nextFrameNum, hnum, hframe]
  simp only [nextSent, hport, htimed, hin, htotal, hframe, hnext]

end

/-! ### Registers above block CH are none that an answer moves (R132) -/

theorem not_mem_answerRegs {g : Field} {i : Nat} (h : 0x40010000 < g.base) :
    (g.at i).1 ∉ [0x40000010, 0x4000000C, 0x40010000] := by
  have haddr : 0x40010000 < (g.at i).1 := by simp only [Field.at, Field.addr]; omega
  simp only [List.mem_cons, List.not_mem_nil, or_false, not_or]
  omega

theorem get_answered (h : RegsKept answerFields u t) (g : Field) {i : Nat} (hg : 0x40010000 < g.base) :
    t.get g i = u.get g i := by
  refine h.get g i 0 fun x hx => .inl fun haddr => ?_
  have hlow := (by decide : ∀ x ∈ answerFields, x.1 ≤ 0x40010000) x hx
  simp only [haddr, Field.addr] at hlow
  omega

/-! ### XC_MAP_CHECK and XC_MAP_SWAP (R350, R351) -/

theorem xcMapCheck_serves (h : TakesFw s k f) {dir p buf : Byte} (hdir : dir.toNat < 2) (hp : p.toNat < 16)
    (hbuf : buf.toNat < 2) (hparams : k.params = [dir, p, buf]) : Gives (.xcMapCheck k (some f)) s fun t =>
      FwServed f [] s t k St.ok (checkRuns s dir.toNat p.toNat (plainRuns s p.toNat dir.toNat buf.toNat)) ∧ BusOnly s t := by
  have hin : ¬ (1 < dir.toNat ∨ 15 < p.toNat ∨ 1 < buf.toNat) := by omega
  have hbytes : byteAt [dir, p, buf] 0 = dir.toNat ∧ byteAt [dir, p, buf] 1 = p.toNat ∧ byteAt [dir, p, buf] 2 = buf.toNat :=
    ⟨rfl, rfl, rfl⟩
  obtain ⟨hbyte0, hbyte1, hbyte2⟩ := hbytes
  have hbody : bodyXcMapCheck k.params (begun s 0x32 k) = .done (begun s 0x32 k) St.ok
      (checkRuns s dir.toNat p.toNat (plainRuns s p.toNat dir.toNat buf.toNat)) := by
    simp only [hparams, bodyXcMapCheck, hbyte0, hbyte1, hbyte2, if_neg hin, checkRuns_begun,
      plainRuns_begun s 0x32 k (show p.toNat < 64 by omega) hdir hbuf]
  exact served_fw_same h rfl (by decide) rfl rfl (by rw [hparams]; rfl) hbody

section
variable (h : TakesFw s k f) {p : Byte} (hp : p.toNat < 16) (hparams : k.params = [p]) (hfree : s.locked 5 = false)
include hp hparams hfree

/-- The action of XC_MAP_SWAP on the buffer that is not in use. -/
theorem bodyXcMapSwap_begun {buf : Nat} (hbuf : buf = 1 - activeBuf s p.toNat) : bodyXcMapSwap k.params (begun s 0x31 k) =
    if (checkRuns s 0 p.toNat (plainRuns s p.toNat 0 buf)).headD 0 != 0 then
      .done (begun s 0x31 k) St.wrongState (checkRuns s 0 p.toNat (plainRuns s p.toNat 0 buf))
    else .done ((begun s 0x31 k).put F.XC_TX_SEL_ACTIVE buf p.toNat) St.ok
      (numBytes (nextSent s p.toNat) ++ toLE 1 (txVersion s p.toNat buf)) := by
  have hin : ¬ 15 < p.toNat := by omega
  have hopen : ¬ (begun s 0x31 k).locked 5 = true := by simp [begun_locked, hfree]
  have hbyte : byteAt [p] 0 = p.toNat := rfl
  have hlow : buf < 2 := by omega
  subst hbuf
  simp only [hparams, bodyXcMapSwap, hbyte, if_neg hin, if_neg hopen, activeBuf_begun, checkRuns_begun, nextSent_begun,
    txVersion_begun, plainRuns_begun s 0x31 k (show p.toNat < 64 by omega) (show 0 < 2 by decide) hlow]

include h

theorem xcMapSwap_swaps (hgood : checkRuns s 0 p.toNat (plainRuns s p.toNat 0 (1 - activeBuf s p.toNat)) = List.replicate 8 0) :
    Gives (.xcMapSwap k (some f)) s fun t =>
      FwServed f [F.XC_TX_SEL_ACTIVE.at p.toNat] s t k St.ok
        (numBytes (nextSent s p.toNat) ++ toLE 1 (txVersion s p.toNat (1 - activeBuf s p.toNat))) ∧
      t.get F.XC_TX_SEL_ACTIVE p.toNat = 1 - activeBuf s p.toNat ∧ BusOnly s t := by
  have hbody := bodyXcMapSwap_begun hp hparams hfree rfl
  rw [hgood, if_neg (by decide)] at hbody
  have hswapped : Only [F.XC_TX_SEL_ACTIVE.at p.toNat] (begun s 0x31 k)
      ((begun s 0x31 k).put F.XC_TX_SEL_ACTIVE (1 - activeBuf s p.toNat) p.toNat) := only_put (List.mem_singleton.mpr rfl)
  have haway : ∀ g ∈ [F.XC_TX_SEL_ACTIVE.at p.toNat], g.1 ∉ [0x40000010, 0x4000000C, 0x40010000] := fun g hg =>
    List.mem_singleton.mp hg ▸ not_mem_answerRegs (by decide)
  obtain ⟨t, hexec, hserved, hbridge, hanswer⟩ := served_fw_acts (c := .xcMapSwap k (some f)) h rfl (by decide) rfl rfl
    (by rw [hparams]; rfl) hbody hswapped.mp (hswapped.chip.trans (begun_chip s 0x31 k)) hswapped.2 haway
  refine ⟨t, hexec, hserved, ?_, (begun_busOnly s 0x31 k).trans (hswapped.bridge.busOnly.trans hbridge.busOnly)⟩
  rw [get_answered hanswer _ (by decide)]
  exact get_put_same _ _ _ (by decide) (lt_of_le_of_lt (Nat.sub_le _ _) (by decide))

theorem xcMapSwap_wrongState
    (hbad : (checkRuns s 0 p.toNat (plainRuns s p.toNat 0 (1 - activeBuf s p.toNat))).headD 0 ≠ 0) :
    Gives (.xcMapSwap k (some f)) s fun t =>
      FwServed f [] s t k St.wrongState (checkRuns s 0 p.toNat (plainRuns s p.toNat 0 (1 - activeBuf s p.toNat))) ∧
      BusOnly s t := by
  have hbody := bodyXcMapSwap_begun hp hparams hfree rfl
  rw [if_pos (bne_iff_ne.mpr hbad)] at hbody
  exact served_fw_same h rfl (by decide) rfl rfl (by rw [hparams]; rfl) hbody

end

/-! ### A buffer replaced whole (R349) -/

theorem wordsLE_bytesOfWords (ws : List Word) : wordsLE (bytesOfWords ws) = ws := by
  induction ws with
  | nil => rfl
  | cons w ws ih => rw [bytesOfWords, wordsLE_toLE_append, ih, BitVec.ofNat_toNat, BitVec.setWidth_eq]

theorem length_bytesOfWords (ws : List Word) : (bytesOfWords ws).length = 4 * ws.length := by
  induction ws with
  | nil => rfl
  | cons w ws ih => rw [bytesOfWords, List.length_append, length_toLE, ih, List.length_cons]; omega

/-- Runs each good by itself, which fit into the frame together, are good. -/
theorem badRun_of_good {limit : Nat} {ws : List Word} (i : Nat) {sum : Nat}
    (hgood : ∀ w ∈ ws, 1 ≤ bitsOf w.toNat 16 13 ∧ bitsOf w.toNat 16 13 ≤ 4992 ∧ bitsOf w.toNat 0 9 ≤ 256)
    (hfit : sum + (ws.map fun w => bitsOf w.toNat 16 13).sum ≤ limit) : badRun limit i sum ws = none := by
  induction ws generalizing i sum with
  | nil => rfl
  | cons w ws ih =>
    obtain ⟨hone, hmost, htrib⟩ := hgood w List.mem_cons_self
    rw [List.map_cons, List.sum_cons] at hfit
    have hin : ¬ (bitsOf w.toNat 16 13 = 0 ∨ 4992 < bitsOf w.toNat 16 13 ∨ 256 < bitsOf w.toNat 0 9 ∨
        limit < sum + bitsOf w.toNat 16 13) := by omega
    rw [badRun, if_neg hin]
    exact ih _ (fun w hw => hgood w (List.mem_cons_of_mem _ hw)) (by omega)

/-- The map tables read 0 at reset. -/
theorem resetWord_map {a : Nat} (hlow : 0x30000000 ≤ a) (hhigh : a < 0x30040000) : resetWord a = 0 := by
  have hspecial : specialReset a = none := by
    unfold specialReset
    simp only [show a ≠ 0x40130018 by omega, show a ≠ 0x4013001C by omega, show ¬ (0x40130100 ≤ a ∧ a < 0x40130270 ∧ a % 16 = 0) by omega,
      show a ≠ 0x400B0018 by omega, show a ≠ 0x40100140 by omega, show a ≠ 0x400B0180 by omega, if_false]
  have hregion : regionSpecs a = regsXCMAP := by
    rw [regionSpecs, if_pos (by omega), if_pos (by omega)]
  have hzero : ∀ r, specAt a = some r → r.reset = 0 := by
    intro r hr
    rw [specAt, hregion] at hr
    split at hr
    · exact (by decide : ∀ r ∈ regsXCMAP, r.reset = 0) r (List.mem_of_find?_eq_some hr)
    · exact absurd hr (by simp)
  rw [resetWord, hspecial]
  cases hspec : specAt a with
  | none => rfl
  | some r => simp [hzero r hspec]

/-- The run words put one after the other from byte address `a` on, their reserved bits 0. -/
def runsStored (a : Nat) (ws : List Word) (s : State) : State :=
  (ws.foldl (fun (x : Nat × State) w => (x.1 + 4, x.2.setReg x.1 (w &&& 0x1FFF01FF))) (a, s)).2

theorem runsStored_cons (a : Nat) (w : Word) (ws : List Word) (s : State) :
    runsStored a (w :: ws) s = runsStored (a + 4) ws (s.setReg a (w &&& 0x1FFF01FF)) := rfl

theorem runsStored_only {fs : List (Nat × Nat × Nat)} {a : Nat} {ws : List Word} (s : State)
    (hfs : ∀ i, i < ws.length → (a + 4 * i, 0, 32) ∈ fs) : Only fs s (runsStored a ws s) := by
  induction ws generalizing a s with
  | nil => exact only_refl s
  | cons w ws ih =>
    refine (only_setReg (hfs 0 (Nat.succ_pos _))).trans (ih _ fun i hi => ?_)
    have hnext := hfs (i + 1) (Nat.succ_lt_succ hi)
    rwa [Nat.mul_add, Nat.mul_one, Nat.add_comm (4 * i), ← Nat.add_assoc] at hnext

theorem runsStored_below {a b : Nat} (ws : List Word) (s : State) (h : b < a) : (runsStored a ws s).reg b = s.reg b := by
  induction ws generalizing a s with
  | nil => rfl
  | cons w ws ih => rw [runsStored_cons, ih _ (by omega), State.reg_setReg_other _ _ (by omega)]

theorem runsStored_reg (a : Nat) (ws : List Word) (s : State) (i : Nat) :
    (runsStored a ws s).reg (a + 4 * i) = if i < ws.length then ws.getD i 0 &&& 0x1FFF01FF else s.reg (a + 4 * i) := by
  induction ws generalizing a s i with
  | nil => rfl
  | cons w ws ih =>
    rw [runsStored_cons]
    cases i with
    | zero =>
      rw [runsStored_below _ _ (by omega), List.length_cons, if_pos (Nat.succ_pos _)]
      exact State.reg_setReg _ _ _
    | succ i =>
      have haddr : a + 4 * (i + 1) = a + 4 + 4 * i := by omega
      rw [haddr, ih, State.reg_setReg_other _ _ (by omega), List.getD_cons_succ, List.length_cons]
      simp only [Nat.add_lt_add_iff_right]

/-- The entries of the buffer at `base`. -/
def bufferWords (base : Nat) : List (Nat × Nat × Nat) := (List.range 1024).map fun i => (base + 4 * i, 0, 32)

theorem mem_bufferWords {base i : Nat} (hi : i < 1024) : (base + 4 * i, 0, 32) ∈ bufferWords base :=
  List.mem_map_of_mem (f := fun i => (base + 4 * i, 0, 32)) (List.mem_range.mpr hi)

/-- The buffer with every entry given back to its reset word. -/
def bufferCleared (s : State) (base : Nat) : State :=
  { s.clearRegs (fun a => Nat.ble base a && Nat.blt a (base + 0x1000)) with
    fa.badWords := SMap.restrict (fun a => !(Nat.ble base a && Nat.blt a (base + 0x1000))) s.fa.badWords }

theorem loadRuns_eq (s : State) (base : Nat) (ws : List Word) : loadRuns s base ws = runsStored base ws (bufferCleared s base) := rfl

theorem reg_bufferCleared (s : State) (base a : Nat) :
    (bufferCleared s base).reg a = if base ≤ a ∧ a < base + 0x1000 then resetWord a else s.reg a := by
  refine (reg_clearRegs s _ a).trans ?_
  simp only [Bool.and_eq_true, Nat.ble_eq, Nat.blt_eq]

/-- No register but those at word addresses is listed. -/
def WordsOnly (s : State) : Prop := ∀ a, a % 4 ≠ 0 → s.reg a = resetWord a

theorem begun_wordsOnly (h : WordsOnly s) (op : Nat) (k : Pkt) : WordsOnly (begun s op k) := fun a ha => by
  rw [begun_reg s op k fun hmem => ha ((by decide : ∀ a ∈ begunRegs, a % 4 = 0) a hmem), h a ha]

theorem loadRuns_reg {base : Nat} (ws : List Word) (hlow : 0x30000000 ≤ base) (hhigh : base + 0x1000 ≤ 0x30040000) {i : Nat} (hi : i < 1024) :
    (loadRuns s base ws).reg (base + 4 * i) = ws.getD i 0 &&& 0x1FFF01FF := by
  rw [loadRuns_eq, runsStored_reg]
  split
  next => rfl
  next hout =>
    rw [reg_bufferCleared, if_pos (by omega), resetWord_map (by omega) (by omega), List.getD_eq_default _ _ (Nat.not_lt.mp hout)]
    rfl

section
variable {base : Nat} {ws : List Word} (hlen : ws.length ≤ 1024)
include hlen

theorem loadRuns_kept (h : WordsOnly s) (hword : base % 4 = 0) : RegsKept (bufferWords base) s (loadRuns s base ws) := by
  have hcleared : RegsKept (bufferWords base) s (bufferCleared s base) := by
    refine regsKept_words fun a hout => ?_
    rw [reg_bufferCleared]
    split
    next hin =>
      refine (h a fun haddr => hout ?_).symm
      have hmem := mem_bufferWords (base := base) (i := (a - base) / 4) (by omega)
      rwa [show base + 4 * ((a - base) / 4) = a by omega] at hmem
    next => rfl
  obtain ⟨-, hstored⟩ := runsStored_only (bufferCleared s base) fun i hi => mem_bufferWords (base := base) (hi.trans_le hlen)
  exact hcleared.trans hstored

theorem loadRuns_rest : loadRuns s base ws =
    { s with regs := (loadRuns s base ws).regs, fa.badWords := (loadRuns s base ws).fa.badWords } := by
  obtain ⟨hstored, -⟩ := runsStored_only (bufferCleared s base) fun i hi => mem_bufferWords (base := base) (hi.trans_le hlen)
  rw [loadRuns_eq, hstored]
  rfl

end

/-! ### XC_MAP_LOAD (R349) -/

theorem byte_cases {b : Byte} (h : b.toNat < 2) : b = 0 ∨ b = 1 := by
  refine (Nat.lt_succ_iff_lt_or_eq.mp h).imp (fun hzero => ?_) fun hone => BitVec.eq_of_toNat_eq hone
  exact BitVec.eq_of_toNat_eq (Nat.lt_one_iff.mp hzero)

/-- The field that holds the version of a buffer. -/
def versionField (dir buf : Byte) : Field :=
  if dir = 0 then (if buf = 0 then F.XC_TX_SEL_VER_A else F.XC_TX_SEL_VER_B)
  else (if buf = 0 then F.XC_RX_SEL_VER_A else F.XC_RX_SEL_VER_B)

theorem versionField_at (dir buf : Byte) (p : Nat) : (versionField dir buf).at p =
    if dir = 0 then (if buf = 0 then F.XC_TX_SEL_VER_A.at p else F.XC_TX_SEL_VER_B.at p)
    else (if buf = 0 then F.XC_RX_SEL_VER_A.at p else F.XC_RX_SEL_VER_B.at p) := by
  unfold versionField
  split <;> split <;> rfl

theorem versionField_high (dir buf : Byte) : 0x40010000 < (versionField dir buf).base ∧
    (versionField dir buf).lo + (versionField dir buf).w ≤ 32 ∧ (versionField dir buf).w = 8 := by
  unfold versionField
  split <;> split <;> decide

/-- The buffer is one that a load may replace: a transmit buffer not in use, or a receive buffer not armed. -/
def BufferFree (s : State) (dir buf : Byte) (p : Nat) : Prop :=
  (dir = 0 → activeBuf s p ≠ buf.toNat) ∧
  (dir = 1 → s.on (if buf = 0 then F.XC_RX_SEL_ARM_A else F.XC_RX_SEL_ARM_B) p = false)

theorem bufferFree_begun {dir buf : Byte} {p : Nat} (h : BufferFree s dir buf p) (op : Nat) (k : Pkt) :
    BufferFree (begun s op k) dir buf p := by
  refine ⟨fun hdir => ?_, fun hdir => ?_⟩
  · rw [activeBuf_begun]
    exact h.1 hdir
  · rw [begun_on_high s op k _ p (by split <;> decide)]
    exact h.2 hdir

/-- Nothing but registers and the record of bad words differs. -/
def BadWordsMove (s t : State) : Prop := t = { s with regs := t.regs, fa.badWords := t.fa.badWords }

theorem BadWordsMove.mp (h : BadWordsMove s t) : t.mp = s.mp := (congrArg State.mp h).trans rfl

theorem BadWordsMove.chip (h : BadWordsMove s t) : t.chip = s.chip := (congrArg State.chip h).trans rfl

/-- Between the bridge's own work before and after. -/
theorem BadWordsMove.between {x y : State} (h : BadWordsMove x y) (hbefore : BusOnly s x) (hafter : BusOnly y t) :
    t = { s with regs := t.regs, mp := t.mp, ch := t.ch, fa.badWords := t.fa.badWords } := by
  unfold BadWordsMove at h
  unfold BusOnly at hbefore hafter
  rw [hafter, h, hbefore]

/-- A buffer loaded: its entries, and its version. -/
def mapLoaded (s : State) (dir p buf ver : Byte) (ws : List Word) : State :=
  (loadRuns s (mapAddr p.toNat dir.toNat buf.toNat 0) ws).put (versionField dir buf) ver.toNat p.toNat

/-- What a load of `ws` into such a buffer answers, from the first of its runs that is bad. -/
def loadAnswer (s : State) (dir p buf ver : Byte) (ws : List Word) : Option (Nat × Word) → Out
  | some (i, w) => .done s St.badParam (toLE 2 i ++ toLE 4 w.toNat)
  | none => .done (mapLoaded s dir p buf ver ws) St.ok []

/-- The fields that a load writes. -/
def loadFields (dir p buf : Byte) : List (Nat × Nat × Nat) :=
  bufferWords (mapAddr p.toNat dir.toNat buf.toNat 0) ++ [(versionField dir buf).at p.toNat]

section
variable {dir p buf : Byte} (hdir : dir.toNat < 2) (hp : p.toNat < 16) (hbuf : buf.toNat < 2) {ver : Byte} {ws : List Word}
include hdir hp hbuf

theorem mapBase_bounds : 0x30000000 ≤ mapAddr p.toNat dir.toNat buf.toNat 0 ∧
    mapAddr p.toNat dir.toNat buf.toNat 0 + 0x1000 ≤ 0x30040000 ∧ mapAddr p.toNat dir.toNat buf.toNat 0 % 4 = 0 := by
  unfold mapAddr
  omega

theorem mapLoaded_entry (s : State) {i : Nat} (hi : i < 1024) :
    (mapLoaded s dir p buf ver ws).reg (mapAddr p.toNat dir.toNat buf.toNat i) = ws.getD i 0 &&& 0x1FFF01FF := by
  obtain ⟨hlow, hmap, -⟩ := mapBase_bounds hdir hp hbuf
  obtain ⟨hhigh, -⟩ := versionField_high dir buf
  have heq : mapAddr p.toNat dir.toNat buf.toNat i = mapAddr p.toNat dir.toNat buf.toNat 0 + 4 * i := rfl
  rw [mapLoaded, State.reg_put_other _ _ _ _ _ (by simp only [Field.addr]; omega)]
  exact loadRuns_reg ws hlow hmap hi

omit hdir hp hbuf in
theorem mapLoaded_version (s : State) : (mapLoaded s dir p buf ver ws).get (versionField dir buf) p.toNat = ver.toNat := by
  obtain ⟨-, hfits, hw⟩ := versionField_high dir buf
  exact get_put_same _ _ _ hfits (by rw [hw]; exact ver.isLt)

omit hdir hp hbuf in
theorem mapLoaded_moves (s : State) (hlen : ws.length ≤ 1024) : BadWordsMove s (mapLoaded s dir p buf ver ws) := by
  have hrest := loadRuns_rest (s := s) (base := mapAddr p.toNat dir.toNat buf.toNat 0) hlen
  unfold mapLoaded
  rw [hrest]
  rfl

theorem mapLoaded_kept (h : WordsOnly s) (hlen : ws.length ≤ 1024) :
    RegsKept (loadFields dir p buf) s (mapLoaded s dir p buf ver ws) := by
  obtain ⟨-, -, hword⟩ := mapBase_bounds hdir hp hbuf
  exact ((loadRuns_kept hlen h hword).mono fun g hg => List.mem_append_left _ hg).trans
    (regsKept_put (List.mem_append_right _ (List.mem_singleton.mpr rfl)))

theorem loadFields_away : ∀ g ∈ loadFields dir p buf, g.1 ∉ [0x40000010, 0x4000000C, 0x40010000] := by
  obtain ⟨-, hmap, -⟩ := mapBase_bounds hdir hp hbuf
  intro g hg
  rcases List.mem_append.mp hg with hentry | hversion
  · obtain ⟨i, hi, rfl⟩ := List.mem_map.mp hentry
    have hi := List.mem_range.mp hi
    simp only [List.mem_cons, List.not_mem_nil, or_false, not_or]
    omega
  · exact List.mem_singleton.mp hversion ▸ not_mem_answerRegs (versionField_high dir buf).1

/-- What XC_MAP_LOAD with parameters in range does with a buffer that it may replace. -/
theorem bodyXcMapLoad_free {ps : List Byte} (hps : ps = [dir, p, buf, ver] ++ toLE 2 ws.length ++ bytesOfWords ws)
    (hopen : s.locked 5 = false) (hfree : BufferFree s dir buf p.toNat) : bodyXcMapLoad ps s =
      loadAnswer s dir p buf ver ws (badRun (slotsPerFrame (s.get F.LP_CTRL_RATE p.toNat)) 0 0 ws) := by
  have hbytes : byteAt ps 0 = dir.toNat ∧ byteAt ps 1 = p.toNat ∧ byteAt ps 2 = buf.toNat ∧ byteAt ps 3 = ver.toNat := by
    rw [hps]
    exact ⟨rfl, rfl, rfl, rfl⟩
  obtain ⟨hbyte0, hbyte1, hbyte2, hbyte3⟩ := hbytes
  have hws : wordsLE (ps.drop 6) = ws := by
    rw [hps]
    exact wordsLE_bytesOfWords ws
  have hin : ¬ (1 < dir.toNat ∨ 15 < p.toNat ∨ 1 < buf.toNat) := by omega
  have hopen' : ¬ s.locked 5 = true := by simp [hopen]
  have hfree' : ¬ ((dir.toNat = 0 ∧ activeBuf s p.toNat = buf.toNat) ∨ (dir.toNat = 1 ∧
      (if buf.toNat = 0 then s.on F.XC_RX_SEL_ARM_A p.toNat else s.on F.XC_RX_SEL_ARM_B p.toNat) = true)) := by
    obtain ⟨htx, hrx⟩ := hfree
    rcases byte_cases hdir with rfl | rfl
    · simpa using htx rfl
    · rcases byte_cases hbuf with rfl | rfl
      · simpa using hrx rfl
      · simpa using hrx rfl
  simp only [bodyXcMapLoad, hbyte0, hbyte1, hbyte2, hbyte3, hws, if_neg hin, if_neg hopen', if_neg hfree']
  cases badRun (slotsPerFrame (s.get F.LP_CTRL_RATE p.toNat)) 0 0 ws with
  | some r => rfl
  | none =>
    rcases byte_cases hdir with rfl | rfl
    · rcases byte_cases hbuf with rfl | rfl <;> rfl
    · rcases byte_cases hbuf with rfl | rfl <;> rfl

variable (h : TakesFw s k f) (hlen : ws.length ≤ 1022) (hopen : s.locked 5 = false) (hfree : BufferFree s dir buf p.toNat)
  (hparams : k.params = [dir, p, buf, ver] ++ toLE 2 ws.length ++ bytesOfWords ws)
include h hlen hopen hfree hparams

omit h hlen in
/-- The action of XC_MAP_LOAD, in the state in which it begins. -/
theorem runBody_xcMapLoad : runBody .chain (ownJob s 0x30 k) (begun s 0x30 k) =
    loadAnswer (begun s 0x30 k) dir p buf ver ws (badRun (slotsPerFrame (s.get F.LP_CTRL_RATE p.toNat)) 0 0 ws) := by
  rw [← begun_get_high s 0x30 k F.LP_CTRL_RATE p.toNat (by decide)]
  exact bodyXcMapLoad_free hdir hp hbuf hparams ((begun_locked s 0x30 k 5).trans hopen) (bufferFree_begun hfree 0x30 k)

omit h hdir hp hbuf hopen hfree in
/-- LEN agrees with the number of runs (R140). -/
theorem lenTied_xcMapLoad : lenTied 4 2 6 4 k.params = true := by
  have hcount : leAt k.params 4 2 = ws.length := by
    rw [hparams]
    exact leAt_append_toLE_append (w := 2) (by omega) [dir, p, buf, ver] (bytesOfWords ws)
  have hlength : k.params.length = 6 + 4 * ws.length := by
    rw [hparams, List.length_append, length_bytesOfWords]
    rfl
  simp only [lenTied, hcount, hlength, Bool.and_eq_true, Nat.ble_eq, beq_self_eq_true, and_true]
  omega

theorem xcMapLoad_refuses {i : Nat} {w : Word} (hbad : badRun (slotsPerFrame (s.get F.LP_CTRL_RATE p.toNat)) 0 0 ws = some (i, w)) :
    Gives (.xcMapLoad k (some f)) s fun t => FwServed f [] s t k St.badParam (toLE 2 i ++ toLE 4 w.toNat) ∧ BusOnly s t := by
  have hbody := runBody_xcMapLoad hdir hp hbuf hopen hfree hparams
  rw [hbad] at hbody
  exact served_fw_same h rfl (by decide) rfl rfl (lenTied_xcMapLoad hlen hparams) hbody

theorem xcMapLoad_loads (hwords : WordsOnly s)
    (hgood : badRun (slotsPerFrame (s.get F.LP_CTRL_RATE p.toNat)) 0 0 ws = none) : Gives (.xcMapLoad k (some f)) s fun t =>
      FwServed f (loadFields dir p buf) s t k St.ok [] ∧
      (∀ i, i < 1024 → t.reg (mapAddr p.toNat dir.toNat buf.toNat i) = (ws.getD i 0) &&& 0x1FFF01FF) ∧
      t.get (versionField dir buf) p.toNat = ver.toNat ∧
      t = { s with regs := t.regs, mp := t.mp, ch := t.ch, fa.badWords := t.fa.badWords } := by
  have hbody := runBody_xcMapLoad hdir hp hbuf hopen hfree hparams
  rw [hgood, loadAnswer] at hbody
  have hroom : ws.length ≤ 1024 := hlen.trans (by decide)
  have hmoves := mapLoaded_moves (dir := dir) (p := p) (buf := buf) (ver := ver) (begun s 0x30 k) hroom
  obtain ⟨t, hexec, hserved, hbridge, hanswer⟩ := served_fw_acts (c := .xcMapLoad k (some f)) h rfl (by decide) rfl rfl
    (lenTied_xcMapLoad hlen hparams) hbody hmoves.mp (hmoves.chip.trans (begun_chip s 0x30 k))
    (mapLoaded_kept hdir hp hbuf (begun_wordsOnly hwords 0x30 k) hroom) (loadFields_away hdir hp hbuf)
  refine ⟨t, hexec, hserved, fun i hi => ?_, ?_, hmoves.between (begun_busOnly s 0x30 k) hbridge.busOnly⟩
  · obtain ⟨-, hmap, -⟩ := mapBase_bounds hdir hp hbuf
    have heq : mapAddr p.toNat dir.toNat buf.toNat i = mapAddr p.toNat dir.toNat buf.toNat 0 + 4 * i := rfl
    rw [hanswer.reg fun g hg haddr => ?_]
    · exact mapLoaded_entry hdir hp hbuf _ hi
    · have hbus := (by decide : ∀ g ∈ answerFields, 0x40000000 ≤ g.1) g hg
      omega
  · rw [get_answered hanswer _ (versionField_high dir buf).1]
    exact mapLoaded_version _

end

/-! ### The statement on one state -/

/-- What `Obligations.CrossConnect` says of one state. -/
def CrossConnectAt (s : State) : Prop :=
  (s.Awake →
    (∀ t : Byte, staleDue s t.toNat = true → Gives (.staleSet t) s fun u =>
      u.get F.XC_TRIB_STAT_STALE t.toNat = 1 ∧ u.get F.XC_EVENT_STALE_SET = 1 ∧ (∀ q, q ≠ t.toNat → u.tribX q = s.tribX q) ∧
      u.tribX t.toNat = { s.tribX t.toNat with staleN := (s.tribX t.toNat).staleN + 1 } ∧
      u = { s with regs := u.regs, xc.trib := u.xc.trib } ∧ RegsKept [F.XC_TRIB_STAT_STALE.at t.toNat, F.XC_EVENT_STALE_SET.at] s u) ∧
    (Gives .slipClr s fun t =>
      (∀ p, p < 16 → t.reg (F.XC_RX_SLIP.addr p) = 0 ∧ t.reg (F.XC_TX_SLIP.addr p) = 0) ∧
      Only ((List.range 16).flatMap fun p => [F.XC_RX_SLIP.word p, F.XC_TX_SLIP.word p]) s t) ∧
    (Gives .crcClr s fun t =>
      (∀ i, i < 256 → t.reg (F.XC_TRIB_CRC.addr i) = 0) ∧ Only ((List.range 256).map fun i => F.XC_TRIB_CRC.word i) s t)) ∧
  (∀ (k : Pkt) (f : Nat), TakesFw s k f → ∀ (dir p buf : Byte), dir.toNat < 2 → p.toNat < 16 → buf.toNat < 2 →
    (∀ (ver : Byte) (ws : List Word), ws.length ≤ 1022 →
      k.params = [dir, p, buf, ver] ++ toLE 2 ws.length ++ bytesOfWords ws → s.locked 5 = false →
      (dir = 0 → activeBuf s p.toNat ≠ buf.toNat) →
      (dir = 1 → s.on (if buf = 0 then F.XC_RX_SEL_ARM_A else F.XC_RX_SEL_ARM_B) p.toNat = false) →
      ((∀ w ∈ ws, 1 ≤ bitsOf w.toNat 16 13 ∧ bitsOf w.toNat 16 13 ≤ 4992 ∧ bitsOf w.toNat 0 9 ≤ 256) →
        (ws.map fun w => bitsOf w.toNat 16 13).sum ≤ slotsPerFrame (s.get F.LP_CTRL_RATE p.toNat) →
        Gives (.xcMapLoad k (some f)) s fun t =>
          FwServed f (((List.range 1024).map fun i => (mapAddr p.toNat dir.toNat buf.toNat i, 0, 32)) ++
            [if dir = 0 then (if buf = 0 then F.XC_TX_SEL_VER_A.at p.toNat else F.XC_TX_SEL_VER_B.at p.toNat)
             else (if buf = 0 then F.XC_RX_SEL_VER_A.at p.toNat else F.XC_RX_SEL_VER_B.at p.toNat)]) s t k St.ok [] ∧
          (∀ i, i < 1024 → t.reg (mapAddr p.toNat dir.toNat buf.toNat i) = (ws.getD i 0) &&& 0x1FFF01FF) ∧
          t.get (if dir = 0 then (if buf = 0 then F.XC_TX_SEL_VER_A else F.XC_TX_SEL_VER_B)
            else (if buf = 0 then F.XC_RX_SEL_VER_A else F.XC_RX_SEL_VER_B)) p.toNat = ver.toNat ∧
          t = { s with regs := t.regs, mp := t.mp, ch := t.ch, fa.badWords := t.fa.badWords }) ∧
      (∀ i w, badRun (slotsPerFrame (s.get F.LP_CTRL_RATE p.toNat)) 0 0 ws = some (i, w) → Gives (.xcMapLoad k (some f)) s fun t =>
        FwServed f [] s t k St.badParam (toLE 2 i ++ toLE 4 w.toNat) ∧ BusOnly s t)) ∧
    (k.params = [p] → s.locked 5 = false →
      (checkRuns s 0 p.toNat (plainRuns s p.toNat 0 (1 - activeBuf s p.toNat)) = List.replicate 8 0 →
        Gives (.xcMapSwap k (some f)) s fun t =>
          FwServed f [F.XC_TX_SEL_ACTIVE.at p.toNat] s t k St.ok
            (numBytes (nextSent s p.toNat) ++ toLE 1 (txVersion s p.toNat (1 - activeBuf s p.toNat))) ∧
          t.get F.XC_TX_SEL_ACTIVE p.toNat = 1 - activeBuf s p.toNat ∧ BusOnly s t) ∧
      ((checkRuns s 0 p.toNat (plainRuns s p.toNat 0 (1 - activeBuf s p.toNat))).headD 0 ≠ 0 →
        Gives (.xcMapSwap k (some f)) s fun t =>
          FwServed f [] s t k St.wrongState (checkRuns s 0 p.toNat (plainRuns s p.toNat 0 (1 - activeBuf s p.toNat))) ∧
          BusOnly s t)) ∧
    (k.params = [dir, p, buf] → Gives (.xcMapCheck k (some f)) s fun t =>
      FwServed f [] s t k St.ok (checkRuns s dir.toNat p.toNat (plainRuns s p.toNat dir.toNat buf.toNat)) ∧ BusOnly s t))

theorem crossConnect_iff : Obligations.CrossConnect ↔ ∀ s, CrossConnectAt s := Iff.rfl

/-- On a state that lists no register but those at word addresses the statement holds. -/
theorem crossConnectAt_of_wordsOnly (hwords : WordsOnly s) : CrossConnectAt s := by
  refine ⟨fun ha => ⟨fun t hdue => staleSet_sets ha hdue, slipClr_clears ha, crcClr_clears ha⟩,
    fun k f h dir p buf hdir hp hbuf => ⟨fun ver ws hlen hparams hopen htx hrx => ⟨fun hgood hfit => ?_, fun i w hbad => ?_⟩,
      fun hparams hopen => ⟨fun hgood => xcMapSwap_swaps h hp hparams hopen hgood,
        fun hbad => xcMapSwap_wrongState h hp hparams hopen hbad⟩,
      fun hparams => xcMapCheck_serves h hdir hp hbuf hparams⟩⟩
  · have hsum : 0 + (ws.map fun w => bitsOf w.toNat 16 13).sum ≤ slotsPerFrame (s.get F.LP_CTRL_RATE p.toNat) := by
      rwa [Nat.zero_add]
    have hloads := xcMapLoad_loads hdir hp hbuf h hlen hopen ⟨htx, hrx⟩ hparams hwords (badRun_of_good 0 hgood hsum)
    rw [loadFields, versionField_at] at hloads
    exact hloads
  · exact xcMapLoad_refuses hdir hp hbuf h hlen hopen ⟨htx, hrx⟩ hparams hbad

theorem wordsOnly_reset : WordsOnly State.reset := by
  intro a ha
  refine reset_reg (fun hhash => ?_) fun c _ hclient => ?_
  · simp only [hhash, F.TG_HASH_OWN_HASH, Field.addr] at ha
    omega
  · simp only [hclient, F.CL_STATUS_CREF_OK, Field.addr] at ha
    omega

theorem crossConnectAt_reset : CrossConnectAt State.reset := crossConnectAt_of_wordsOnly wordsOnly_reset

/-! ### A word listed at no word's address -/

/-- The state after reset at address 6 with firmware ready, and a register listed at 0x30001001, which is no word's address. -/
def strayWord : State :=
  { (((State.reset.put F.CH_ADDR_ADDR 6).put F.CH_ADDR_ADDRESSED 1).put F.MP_STATUS_FW_READY 1).setReg 0x30001001 1 with
    bc.booted := true, cf.bootDone := true }

/-- XC_MAP_LOAD of no runs into transmit buffer B of port 0, whose entries begin at 0x30001000. -/
def emptyLoad : Pkt := { addr := 6, tag := 0x21, params := [0, 0, 1, 0, 0, 0], edge := 1000 }

theorem strayWord_takes : TakesFw strayWord emptyLoad 1200 := by
  unfold TakesFw Takes State.Awake
  decide +kernel

/-- What register `a` holds in the next state that a command answers, if it answers one. -/
def regNext (o : Host.Outcome State Fault Refusal) (a : Nat) : Option Word :=
  match o with
  | .next t => some (t.reg a)
  | _ => none

/-- The load gives back everything between the buffer's first entry and its last, the stray register too. -/
theorem strayWord_cleared : regNext (exec (.xcMapLoad emptyLoad (some 1200)) strayWord) 0x30001001 = some 0 := by decide +kernel

/-- Refutes O27: on `strayWord` XC_MAP_LOAD clears a register listed within the buffer at 0x30001001, which is none of the
buffer's entries, so more registers change than the statement names. On a state that lists registers at word addresses only
the statement holds (`crossConnectAt_of_wordsOnly`). -/
theorem not_crossConnect : ¬ Obligations.CrossConnect := by
  intro h
  obtain ⟨-, hmaps⟩ := h strayWord
  obtain ⟨hload, -, -⟩ := hmaps emptyLoad 1200 strayWord_takes 0 0 1 (by decide) (by decide) (by decide)
  obtain ⟨hgood, -⟩ := hload 0 [] (by decide) rfl (by decide +kernel) (fun _ => by decide +kernel) (fun hrx => absurd hrx (by decide))
  obtain ⟨t, hexec, ⟨-, -, hkept, -⟩, -⟩ := hgood (fun w hw => absurd hw List.not_mem_nil) (by decide +kernel)
  have hstray : t.reg 0x30001001 = strayWord.reg 0x30001001 := hkept.reg (by decide +kernel)
  have hcleared := strayWord_cleared
  rw [hexec, regNext, hstray] at hcleared
  exact absurd hcleared (by decide +kernel)

end Sys2Proof.Machine
end

section
/-!
PROOFS. Block GR as its steps find it: the words of the local frame in progress, its memory read with no Jig armed, and the
tributaries that a new value makes fresh (R338, R353, R373, R667, R678).
-/
namespace Sys2Proof.Machine

variable {s t : State}

/-! ### The words of the local frame in progress (R373) -/

theorem snap_congr {f : Field} {i j : Nat} (hin : t.inFrame = s.inFrame) (hsnap : t.gr.snap = s.gr.snap)
    (hreg : t.reg (f.addr i j) = s.reg (f.addr i j)) : t.snap f i j = s.snap f i j := by
  unfold State.snap State.grWords
  rw [hin, hsnap]
  split
  · exact congrArg (fun w : Word => bitsOf w.toNat f.lo f.w) hreg
  · rfl

theorem inFrame_put (s : State) (f : Field) (v i j : Nat) : (s.put f v i j).inFrame = s.inFrame := rfl

theorem snap_put_otherReg (s : State) {f q : Field} (v i j m l : Nat) (h : q.addr m l ≠ f.addr i j) :
    (s.put f v i j).snap q m l = s.snap q m l := snap_congr (inFrame_put _ _ _ _ _) rfl (State.reg_put_other _ _ _ _ _ h)

theorem snap_lt (s : State) (f : Field) (i j : Nat) : s.snap f i j < 2 ^ f.w := Nat.mod_lt _ (Nat.two_pow_pos _)

/-! ### The memory of gearing and recipes read with no Jig armed (R667, R678) -/

/-- No word is bad and the checker of the gearing and recipe memory is not armed. -/
def GrClean (s : State) : Prop := s.get F.FA_JIG_LEFT 3 = 0 ∧ s.fa.badWords = []

theorem eccCheck_grClean (h : GrClean s) {a : Nat} (hlow : 0x38000000 ≤ a) (hhigh : a < 0x38008000) :
    eccCheck s a = (s, 0) := by
  obtain ⟨hjig, hgood⟩ := h
  have hstored : s.storedErr a = 0 := by rw [State.storedErr, hgood]; rfl
  have hplace : eccPlace s a = some (3, 2, 256 + (a - 0x38000000) / 1024) := by
    unfold eccPlace
    dsimp only
    rw [if_neg (by omega), if_neg (by omega), if_neg (by omega), if_neg (by omega), if_neg (by omega), if_neg (by omega),
      if_pos hhigh]
  have hweight : popCount 8 0 = 0 := by decide
  simp [eccCheck, hplace, hstored, State.jigMask, jigUse, hjig, hweight]

/-- A write leaves the record of bad words empty. -/
theorem eccWritten_good (h : s.fa.badWords = []) (a : Nat) : eccWritten s a = s := by
  have hset : SMap.set (fun _ => 0) ([] : List (Nat × Nat)) (eccWord a) 0 = [] := by simp [SMap.set, SMap.erase]
  rw [eccWritten, h, hset, ← h]

/-! ### Tributaries made fresh by their source (R338, R353) -/

/-- AGE of every tributary. -/
def ageFields : List (Nat × Nat × Nat) := (List.range 256).map fun t => F.XC_TRIB_STAT_AGE.at t

theorem lt_of_mem_liveTribs {n : Nat} (h : n ∈ s.liveTribs) : n < 256 := by
  obtain ⟨e, -, he⟩ := List.mem_filterMap.mp h
  split at he
  next hin =>
    cases he
    omega
  next => exact absurd he (by simp)

theorem markFresh_rest (s : State) (kind ix : Nat) : markFresh s kind ix =
    { s with regs := (markFresh s kind ix).regs, xc.trib := (markFresh s kind ix).xc.trib } := by
  refine forList_keeps (fun u => u = { s with regs := u.regs, xc.trib := u.xc.trib }) _ _ (fun n _ u hu => ?_) s rfl
  split
  · rw [hu]
    rfl
  · exact hu

theorem markFresh_kept (s : State) (kind ix : Nat) : RegsKept ageFields s (markFresh s kind ix) := by
  refine forList_keeps (RegsKept ageFields s) _ _ (fun n hn u hu => ?_) s (RegsKept.refl s)
  split
  · have hmem : F.XC_TRIB_STAT_AGE.at n ∈ ageFields := List.mem_map_of_mem (List.mem_range.mpr (lt_of_mem_liveTribs hn))
    exact hu.trans ((regsKept_put hmem).trans (RegsKept.of_regs rfl))
  · exact hu

/-- Registers away from the contexts of the tributaries read as before. -/
theorem get_markFresh (s : State) (kind ix : Nat) {f : Field} {i j : Nat}
    (h : f.addr i j < 0x40051000 ∨ 0x40052000 ≤ f.addr i j) : (markFresh s kind ix).get f i j = s.get f i j := by
  refine (markFresh_kept s kind ix).get f i j fun g hg => .inl fun haddr => ?_
  obtain ⟨n, hn, rfl⟩ := List.mem_map.mp hg
  have hn := List.mem_range.mp hn
  simp only [Field.at, ← haddr] at h
  simp only [F.XC_TRIB_STAT_AGE, Field.addr] at h
  omega

end Sys2Proof.Machine
end

section
/-!
PROOFS. The gearing channels (R366, R368–R370, R372–R374, Table 10.1).
-/
namespace Sys2Proof.Machine

variable {s t u : State} {fs : List (Nat × Nat × Nat)} {g : Fin 64}

/-! ### What reads of a channel see of its state words and of its registers (Table 10.6) -/

theorem gearWord_putGear_same (s : State) (g j v : Nat) : gearWord (putGear s g j v) g j = v % 2 ^ 32 :=
  State.get_put s F.GR_STATE v g j (by decide)

theorem gearWord_putGear_other (s : State) (g v : Nat) {i j : Nat} (h : j ≠ i) :
    gearWord (putGear s g i v) g j = gearWord s g j :=
  State.get_put_otherReg s F.GR_STATE F.GR_STATE v g i g j (by simp only [F.GR_STATE, Field.addr]; omega)

theorem gearWord_put (s : State) {f : Field} (v p j : Nat) (hf : 0x40060000 ≤ f.base) (hj : j < 8) :
    gearWord (s.put f v p) g j = gearWord s g j :=
  State.get_put_otherReg s f F.GR_STATE v p 0 g j (by simp only [F.GR_STATE, Field.addr]; omega)

theorem gearWord_modGear (s : State) (g j : Nat) (m : GearX → GearX) : gearWord (s.modGear g m) g j = gearWord s g j := rfl

theorem get_putGear (s : State) {f : Field} (v p : Nat) {j : Nat} (hf : 0x40060000 ≤ f.base) (hj : j < 8) :
    (putGear s g j v).get f p = s.get f p :=
  State.get_put_otherReg s F.GR_STATE f v g j p 0 (by simp only [F.GR_STATE, Field.addr]; omega)

theorem gearX_putGear (s : State) (g j v : Nat) : (putGear s g j v).gearX g = s.gearX g := rfl

theorem snap_putGear (s : State) {f : Field} (v p : Nat) {j : Nat} (hf : 0x40060000 ≤ f.base) (hj : j < 8) :
    (putGear s g j v).snap f p = s.snap f p :=
  snap_put_otherReg s (f := F.GR_STATE) (q := f) v g j p 0 (by simp only [F.GR_STATE, Field.addr]; omega)

theorem snap_put (s : State) {f q : Field} (v p : Nat) (h : q.s1 = f.s1 ∧ q.base ≠ f.base) :
    (s.put f v p).snap q p = s.snap q p := by
  refine snap_put_otherReg s v p 0 p 0 ?_
  simp only [Field.addr, h.1]
  omega

/-- The events of the block stand in a register of their own. -/
theorem get_grEvent_put (s : State) {f e : Field} (v p : Nat) (he : e.base = 0x40060000 ∧ e.s1 = 0) (hf : 0x40060000 < f.base) :
    (s.put f v p).get e = s.get e := by
  refine State.get_put_otherReg s f e v p 0 0 0 ?_
  simp only [Field.addr, he.1, he.2]
  omega

theorem get_put_grEvent (s : State) {e f : Field} (v p : Nat) (he : e.base = 0x40060000 ∧ e.s1 = 0) (hf : 0x40060000 < f.base) :
    (s.put e v).get f p = s.get f p := by
  refine State.get_put_otherReg s e f v 0 0 p 0 ?_
  simp only [Field.addr, he.1, he.2]
  omega

/-! ### What a step moves -/

/-- Of the registers only `fs` move, and beside them only the records of the channels and of the tributaries. -/
structure GearMoves (fs : List (Nat × Nat × Nat)) (s t : State) : Prop where
  rest : t = { s with regs := t.regs, gr.gear := t.gr.gear, xc.trib := t.xc.trib }
  kept : RegsKept fs s t

namespace GearMoves

theorem refl (fs : List (Nat × Nat × Nat)) (s : State) : GearMoves fs s s := ⟨rfl, RegsKept.refl s⟩

theorem put (h : GearMoves fs s t) {f : Field} {v i j : Nat} (hmem : f.at i j ∈ fs) : GearMoves fs s (t.put f v i j) :=
  ⟨h.rest ▸ rfl, h.kept.trans (regsKept_put hmem)⟩

theorem modGear (h : GearMoves fs s t) (g : Nat) (m : GearX → GearX) : GearMoves fs s (t.modGear g m) :=
  ⟨h.rest ▸ rfl, h.kept.trans (RegsKept.of_regs rfl)⟩

theorem markFresh (h : GearMoves fs s t) (hage : ageFields ⊆ fs) (kind ix : Nat) :
    GearMoves fs s (Machine.markFresh t kind ix) :=
  ⟨by rw [markFresh_rest, h.rest], h.kept.trans ((markFresh_kept t kind ix).mono hage)⟩

theorem fa (h : GearMoves fs s t) : t.fa = s.fa := by rw [h.rest]

theorem chip (h : GearMoves fs s t) : t.chip = s.chip := by rw [h.rest]

/-- A field written of a register that is named whole. -/
theorem putIn (h : GearMoves fs s t) {f r : Field} {v i : Nat} (hmem : r.word i ∈ fs)
    (hf : f.base = r.base ∧ f.s1 = r.s1 ∧ f.lo + f.w ≤ 32) : GearMoves fs s (t.put f v i) := by
  obtain ⟨hbase, hstride, hw⟩ := hf
  have haddr : f.addr i = r.addr i := by simp only [Field.addr, hbase, hstride, Nat.mul_zero]
  exact ⟨h.rest ▸ rfl, h.kept.trans (regsKept_put_word hmem haddr hw)⟩

/-- A state word written while no word is bad. -/
theorem putGear (h : GearMoves fs s t) (hgood : s.fa.badWords = []) {g j v : Nat} (hmem : F.GR_STATE.word g j ∈ fs) :
    GearMoves fs s (Machine.putGear t g j v) := by
  have hgood' : (t.put F.GR_STATE v g j).fa.badWords = [] := by rw [State.put_fa, h.fa, hgood]
  rw [Machine.putGear, eccWritten_good hgood']
  exact h.put hmem

end GearMoves

/-- The fields that a step writes: those of `regs`, the first `n` state words of the channel, and AGE of tributaries. -/
def gearFields (regs : List (Nat × Nat × Nat)) (n g : Nat) : List (Nat × Nat × Nat) :=
  regs ++ (List.range n).map (fun j => F.GR_STATE.word g j) ++ (List.range 256).map fun j => F.XC_TRIB_STAT_AGE.at j

section
variable {regs : List (Nat × Nat × Nat)} {n : Nat}

theorem mem_gearFields_reg {x : Nat × Nat × Nat} (h : x ∈ regs) : x ∈ gearFields regs n g :=
  List.mem_append_left _ (List.mem_append_left _ h)

theorem mem_gearFields_word {j : Nat} (h : j < n) : F.GR_STATE.word g j ∈ gearFields regs n g :=
  List.mem_append_left _ (List.mem_append_right _
    (List.mem_map_of_mem (f := fun j => F.GR_STATE.word g j) (List.mem_range.mpr h)))

theorem ageFields_subset : ageFields ⊆ gearFields regs n g := List.subset_append_right _ _

end

/-! ### Values produced (R341, R368, R372) -/

section
variable (s : State) (g : Fin 64) (e v base : Nat)

theorem gearWord_markFresh (kind ix : Nat) {j : Nat} (hj : j < 8) : gearWord (markFresh s kind ix) g j = gearWord s g j :=
  get_markFresh s kind ix (by simp only [F.GR_STATE, Field.addr]; omega)

theorem get_markFresh_gr (kind ix p : Nat) {f : Field} (hf : 0x40060000 ≤ f.base) :
    (markFresh s kind ix).get f p = s.get f p := get_markFresh s kind ix (by simp only [Field.addr]; omega)

theorem gearX_markFresh (kind ix p : Nat) : (markFresh s kind ix).gearX p = s.gearX p := by
  rw [markFresh_rest]
  rfl

theorem gearEmit_moves {n : Nat} {regs : List (Nat × Nat × Nat)} (h : GearMoves (gearFields regs n g) t s)
    (hgood : t.fa.badWords = []) (hn : 6 ≤ n) (hstat : F.GR_G_STAT.word g ∈ regs) :
    GearMoves (gearFields regs n g) t (gearEmit s g e v base) := by
  have hword := ((h.putGear hgood (v := e) (mem_gearFields_word (j := 4) (by omega))).putGear hgood (v := v)
    (mem_gearFields_word (j := 5) (by omega)))
  exact ((hword.putIn (f := F.GR_G_STAT_AGE) (v := 0) (mem_gearFields_reg hstat) (by decide)).modGear g _).markFresh
    ageFields_subset 2 g

theorem gearEmit_position : gearWord (gearEmit s g e v base) g 4 = e % 2 ^ 32 := by
  simp (disch := decide) only [gearEmit, gearWord_markFresh, gearWord_modGear, gearWord_put, gearWord_putGear_other,
    gearWord_putGear_same]

theorem gearEmit_velocity : gearWord (gearEmit s g e v base) g 5 = v % 2 ^ 32 := by
  simp (disch := decide) only [gearEmit, gearWord_markFresh, gearWord_modGear, gearWord_put, gearWord_putGear_same]

theorem gearEmit_word {j : Nat} (hj : j < 8) (h4 : j ≠ 4) (h5 : j ≠ 5) :
    gearWord (gearEmit s g e v base) g j = gearWord s g j := by
  have hage (t : State) : gearWord (t.put F.GR_G_STAT_AGE 0 g) g j = gearWord t g j := gearWord_put t 0 g j (by decide) hj
  simp only [gearEmit, gearWord_markFresh _ _ _ _ hj, gearWord_modGear, hage,
    gearWord_putGear_other _ _ _ h4, gearWord_putGear_other _ _ _ h5]

theorem gearEmit_age : (gearEmit s g e v base).get F.GR_G_STAT_AGE g = 0 := by
  simp (disch := decide) only [gearEmit, get_markFresh_gr, State.modGear_get, get_put_same]

/-- No field of GR_G_STAT[g] but AGE is written. -/
theorem gearEmit_stat {f : Field} (hf : 0x40060000 ≤ f.base) (hage : apart F.GR_G_STAT_AGE f = true) :
    (gearEmit s g e v base).get f g = s.get f g := by
  simp only [gearEmit, get_markFresh_gr _ _ _ _ hf, State.modGear_get, get_put_apart _ _ _ hage,
    get_putGear _ _ _ hf (by decide : 4 < 8), get_putGear _ _ _ hf (by decide : 5 < 8)]

theorem gearEmit_event {f : Field} (hf : f.base = 0x40060000 ∧ f.s1 = 0) : (gearEmit s g e v base).get f = s.get f := by
  have hbase : 0x40060000 ≤ f.base := hf.1.ge
  have hage (t : State) : (t.put F.GR_G_STAT_AGE 0 g).get f = t.get f := get_grEvent_put t 0 g hf (by decide)
  simp only [gearEmit, get_markFresh_gr _ _ _ _ hbase, State.modGear_get, hage,
    get_putGear _ _ _ hbase (by decide : 4 < 8), get_putGear _ _ _ hbase (by decide : 5 < 8)]

theorem gearEmit_seen : ((gearEmit s g e v base).gearX g).seen = (s.gearX g).seen := by
  simp only [gearEmit, gearX_markFresh, State.gearX_modGear, State.gearX_put, gearX_putGear]

end

/-! ### The capture (Table 10.1) -/

/-- The state words at a capture of `a`: the input, no remainder, and with LOAD the preset and the offset. -/
def wordsCaptured (s : State) (g a : Nat) : State :=
  let w := putGear (putGear s g 0 a) g 2 0
  if (s.gearX g).load then putGear (putGear w g 1 (w.snap F.GR_G_PRESET g)) g 3 (w.snap F.GR_G_OFS g) else w

/-- What GR_G_STAT and the channel's record show of it. -/
def captureShown (s : State) (g : Nat) : State :=
  let s := (s.put F.GR_G_STAT_STATE 2 g).put F.GR_G_STAT_VEL_SAT 0 g
  (s.put F.GR_G_STAT_SLEWING (b2n (gearWord s g 3 != s.snap F.GR_G_OFS g)) g).modGear g fun x =>
    { x with load := false, ratio := none }

theorem gearCapture_eq (s : State) (g a base : Nat) : gearCapture s g a base =
    gearEmit (captureShown (wordsCaptured s g a) g) g ((gearWord (captureShown (wordsCaptured s g a) g) g 1 +
      gearWord (captureShown (wordsCaptured s g a) g) g 3) % 2 ^ 32) 0 base := rfl

theorem gearWord_captureShown (s : State) {j : Nat} (hj : j < 8) : gearWord (captureShown s g) g j = gearWord s g j := by
  simp only [captureShown, gearWord_modGear, gearWord_put _ _ _ _ (by decide : 0x40060000 ≤ F.GR_G_STAT_STATE.base) hj,
    gearWord_put _ _ _ _ (by decide : 0x40060000 ≤ F.GR_G_STAT_VEL_SAT.base) hj,
    gearWord_put _ _ _ _ (by decide : 0x40060000 ≤ F.GR_G_STAT_SLEWING.base) hj]

theorem captureShown_state (s : State) : (captureShown s g).get F.GR_G_STAT_STATE g = 2 := by
  simp (disch := decide) only [captureShown, State.modGear_get, get_put_apart, get_put_same]

theorem wordsCaptured_loaded (s : State) (a : Nat) (hload : (s.gearX g).load = true) :
    gearWord (wordsCaptured s g a) g 1 = s.snap F.GR_G_PRESET g ∧ gearWord (wordsCaptured s g a) g 3 = s.snap F.GR_G_OFS g := by
  have hpreset : s.snap F.GR_G_PRESET g % 2 ^ 32 = s.snap F.GR_G_PRESET g := Nat.mod_eq_of_lt (snap_lt s _ _ _)
  have hofs : s.snap F.GR_G_OFS g % 2 ^ 32 = s.snap F.GR_G_OFS g := Nat.mod_eq_of_lt (snap_lt s _ _ _)
  simp (disch := decide) only [wordsCaptured, hload, if_true, gearWord_putGear_same, gearWord_putGear_other, snap_putGear, hpreset,
    hofs, and_self]

theorem wordsCaptured_kept (s : State) (a : Nat) (hload : (s.gearX g).load = false) {j : Nat} (h0 : j ≠ 0) (h2 : j ≠ 2) :
    gearWord (wordsCaptured s g a) g j = gearWord s g j := by
  simp only [wordsCaptured, hload, Bool.false_eq_true, if_false, gearWord_putGear_other _ _ _ h0, gearWord_putGear_other _ _ _ h2]

theorem wordsCaptured_input (s : State) (a : Nat) :
    gearWord (wordsCaptured s g a) g 0 = a % 2 ^ 32 ∧ gearWord (wordsCaptured s g a) g 2 = 0 := by
  unfold wordsCaptured
  dsimp only
  split
  all_goals simp (disch := decide) only [gearWord_putGear_same, gearWord_putGear_other, Nat.zero_mod, and_self]

/-! ### One step (R368–R370, R374) -/

/-- The ratio is that of the step before, where there was one since the capture (R374). -/
def ratioKept (s : State) (g : Nat) : Bool :=
  match (s.gearX g).ratio with
  | none => true
  | some r => r == (s.snap F.GR_G_NUM g, s.snap F.GR_G_DEN g)

theorem ratioKept_iff (s : State) (g : Nat) : ratioKept s g = true ↔
    (s.gearX g).ratio = none ∨ (s.gearX g).ratio = some (s.snap F.GR_G_NUM g, s.snap F.GR_G_DEN g) := by
  unfold ratioKept
  cases (s.gearX g).ratio <;> simp

/-- The remainder carried into a step. -/
def stepRemainder (s : State) (g : Nat) : Nat :=
  if (s.gearX g).ratio = none ∨ (s.gearX g).ratio = some (s.snap F.GR_G_NUM g, s.snap F.GR_G_DEN g) then gearWord s g 2 else 0

theorem stepRemainder_eq (s : State) (g : Nat) : stepRemainder s g = if ratioKept s g then gearWord s g 2 else 0 := by
  simp only [stepRemainder, ratioKept_iff]

/-- The dividend of a step to input `a`. -/
def stepDividend (s : State) (g a : Nat) : Int :=
  toSigned 32 (a + 2 ^ 32 - gearWord s g 0) * toSigned 32 (s.snap F.GR_G_NUM g) + (stepRemainder s g : Int)

/-- How far the offset moves in a step (R369). -/
def stepMove (s : State) (g : Nat) : Int :=
  offsetMove (gearWord s g 3) (s.snap F.GR_G_OFS g) (s.snap F.GR_G_SLEW g)

/-- How far the output moves in a step (R370). -/
def stepVelocity (s : State) (g a : Nat) : Int := stepDividend s g a / (s.snap F.GR_G_DEN g : Int) + stepMove s g

/-- Input, output, remainder, offset and count of the state words after a step. -/
def wordsStepped (s : State) (g a o r phi : Nat) : State :=
  let w := putGear (putGear (putGear (putGear s g 0 a) g 1 o) g 2 r) g 3 phi
  putGear w g 6 (gearWord w g 6 + 1)

/-- What GR_G_STAT, GR_EVENT and the channel's record show of it. -/
def stepShown (s : State) (g phi : Nat) (sat : Bool) (ratio : Nat × Nat) : State :=
  let s := (s.put F.GR_G_STAT_VEL_SAT (b2n sat) g).put F.GR_G_STAT_SLEWING (b2n (phi != s.snap F.GR_G_OFS g)) g
  let s := if sat then s.raiseBit F.GR_EVENT_VEL_SAT else s
  s.modGear g fun x => { x with ratio := some ratio }

/-- The output and the offset after a step. -/
def stepOutput (s : State) (g a : Nat) : Nat :=
  ofSigned 32 ((gearWord s g 1 : Int) + stepDividend s g a / (s.snap F.GR_G_DEN g : Int))
def stepOffset (s : State) (g : Nat) : Nat := ofSigned 32 ((gearWord s g 3 : Int) + stepMove s g)

/-- The output's move does not fit into 32 bits (R370). -/
def velocitySat (s : State) (g a : Nat) : Bool := decide (stepVelocity s g a < -2147483648 ∨ 2147483647 < stepVelocity s g a)

/-- A step before the values go out. -/
def gearStepped (s : State) (g a : Nat) : State :=
  stepShown (wordsStepped s g a (stepOutput s g a) (stepDividend s g a % (s.snap F.GR_G_DEN g : Int)).toNat (stepOffset s g)) g
    (stepOffset s g) (velocitySat s g a) (s.snap F.GR_G_NUM g, s.snap F.GR_G_DEN g)

theorem gearRun_eq (s : State) (g a base : Nat) : gearRun s g a base =
    gearEmit (gearStepped s g a) g ((stepOutput s g a + stepOffset s g) % 2 ^ 32)
      (ofSigned 32 (clampInt (-2147483648) 2147483647 (stepVelocity s g a))) base := by
  simp only [gearStepped, stepOutput, velocitySat, stepVelocity, stepDividend, stepRemainder_eq]
  rfl

section
variable (s : State) (g : Fin 64) (phi : Nat) (sat : Bool) (ratio : Nat × Nat)

theorem gearWord_stepShown {j : Nat} (hj : j < 8) : gearWord (stepShown s g phi sat ratio) g j = gearWord s g j := by
  have hput (t : State) (f : Field) (v p : Nat) (hf : 0x40060000 ≤ f.base) : gearWord (t.put f v p) g j = gearWord t g j :=
    gearWord_put t v p j hf hj
  cases sat
  all_goals simp (disch := decide) only [stepShown, State.raiseBit, Bool.false_eq_true, if_true, if_false, gearWord_modGear, hput]

theorem stepShown_velSat : (stepShown s g phi sat ratio).get F.GR_G_STAT_VEL_SAT g = b2n sat := by
  cases sat
  all_goals simp (disch := decide) only [stepShown, State.raiseBit, Bool.false_eq_true, if_true, if_false, State.modGear_get,
    get_put_grEvent, get_put_apart, get_put_same]

theorem stepShown_slewing : (stepShown s g phi sat ratio).get F.GR_G_STAT_SLEWING g = b2n (phi != s.snap F.GR_G_OFS g) := by
  have hbit (b : Bool) (t : State) : (t.put F.GR_G_STAT_SLEWING (b2n b) g).get F.GR_G_STAT_SLEWING g = b2n b :=
    State.get_put_bit t F.GR_G_STAT_SLEWING b g 0 (by decide) (by decide)
  cases sat
  all_goals simp (disch := decide) only [stepShown, State.raiseBit, Bool.false_eq_true, if_true, if_false, State.modGear_get,
    get_put_grEvent, hbit]

theorem stepShown_event : (stepShown s g phi sat ratio).get F.GR_EVENT_VEL_SAT = if sat then 1 else s.get F.GR_EVENT_VEL_SAT := by
  cases sat
  all_goals simp (disch := decide) only [stepShown, Bool.false_eq_true, if_true, if_false, State.modGear_get, State.get_raiseBit,
    get_grEvent_put]

/-- The channel's state and its counts are not touched. -/
theorem stepShown_stat {f : Field}
    (hf : 0x40060000 < f.base ∧ apart F.GR_G_STAT_VEL_SAT f = true ∧ apart F.GR_G_STAT_SLEWING f = true) :
    (stepShown s g phi sat ratio).get f g = s.get f g := by
  obtain ⟨hbase, hsat, hslewing⟩ := hf
  have hevent (t : State) : (t.put F.GR_EVENT_VEL_SAT 1).get f g = t.get f g := get_put_grEvent t 1 g (by decide) hbase
  cases sat
  all_goals simp only [stepShown, State.raiseBit, Bool.false_eq_true, if_true, if_false, State.modGear_get, hevent,
    get_put_apart _ _ _ hsat, get_put_apart _ _ _ hslewing]

end

end Sys2Proof.Machine
end

section
/-!
PROOFS. What one step of a gearing channel leaves: its state words, GR_G_STAT and GR_EVENT (R368–R370, R374).
-/
namespace Sys2Proof.Machine

variable {s t u : State} {g : Fin 64}

/-! ### The words of a step, and what the channel shows then -/

section
variable (s : State) (g : Fin 64) (a o r phi : Nat)

theorem wordsStepped_words : gearWord (wordsStepped s g a o r phi) g 0 = a % 2 ^ 32 ∧
    gearWord (wordsStepped s g a o r phi) g 1 = o % 2 ^ 32 ∧ gearWord (wordsStepped s g a o r phi) g 2 = r % 2 ^ 32 ∧
    gearWord (wordsStepped s g a o r phi) g 3 = phi % 2 ^ 32 ∧
    gearWord (wordsStepped s g a o r phi) g 6 = (gearWord s g 6 + 1) % 2 ^ 32 := by
  simp (disch := decide) only [wordsStepped, gearWord_putGear_same, gearWord_putGear_other, and_self]

theorem get_wordsStepped (p : Nat) {f : Field} (hf : 0x40060000 ≤ f.base) :
    (wordsStepped s g a o r phi).get f p = s.get f p := by
  have hput (t : State) (j v : Nat) (hj : j < 8) : (putGear t g j v).get f p = t.get f p := get_putGear t v p hf hj
  simp (disch := decide) only [wordsStepped, hput]

theorem snap_wordsStepped {f : Field} (hf : 0x40060000 ≤ f.base) : (wordsStepped s g a o r phi).snap f g = s.snap f g := by
  have hput (t : State) (j v : Nat) (hj : j < 8) : (putGear t g j v).snap f g = t.snap f g := snap_putGear t v g hf hj
  simp (disch := decide) only [wordsStepped, hput]

end

theorem ofSigned_lt (i : Int) : ofSigned 32 i < 2 ^ 32 := by
  unfold ofSigned
  omega

/-! ### What one step leaves (R368–R370, R374) -/

section
variable (s : State) (g : Fin 64) (a base : Nat)

theorem gearRun_words : gearWord (gearRun s g a base) g 0 = a % 2 ^ 32 ∧ gearWord (gearRun s g a base) g 1 = stepOutput s g a ∧
    gearWord (gearRun s g a base) g 3 = stepOffset s g ∧ gearWord (gearRun s g a base) g 6 = (gearWord s g 6 + 1) % 2 ^ 32 := by
  obtain ⟨h0, h1, -, h3, h6⟩ := wordsStepped_words s g a (stepOutput s g a)
    (stepDividend s g a % (s.snap F.GR_G_DEN g : Int)).toNat (stepOffset s g)
  have houtput : stepOutput s g a % 2 ^ 32 = stepOutput s g a := Nat.mod_eq_of_lt (ofSigned_lt _)
  have hoffset : stepOffset s g % 2 ^ 32 = stepOffset s g := Nat.mod_eq_of_lt (ofSigned_lt _)
  simp (disch := decide) only [gearRun_eq, gearEmit_word, gearStepped, gearWord_stepShown, h0, h1, h3, h6, houtput, hoffset,
    and_self]

theorem gearRun_remainder (hden : s.snap F.GR_G_DEN g ≠ 0) :
    (gearWord (gearRun s g a base) g 2 : Int) = stepDividend s g a % (s.snap F.GR_G_DEN g : Int) := by
  obtain ⟨-, -, h2, -⟩ := wordsStepped_words s g a (stepOutput s g a)
    (stepDividend s g a % (s.snap F.GR_G_DEN g : Int)).toNat (stepOffset s g)
  have hlt : s.snap F.GR_G_DEN g < 2 ^ 32 := snap_lt s _ _ _
  have hpos := Int.emod_nonneg (stepDividend s g a) (b := (s.snap F.GR_G_DEN g : Int)) (by omega)
  have hrem := Int.emod_lt_of_pos (stepDividend s g a) (b := (s.snap F.GR_G_DEN g : Int)) (by omega)
  simp (disch := decide) only [gearRun_eq, gearEmit_word, gearStepped, gearWord_stepShown, h2]
  rw [Nat.mod_eq_of_lt (by omega), Int.toNat_of_nonneg hpos]

theorem gearRun_values : gearWord (gearRun s g a base) g 4 = (stepOutput s g a + stepOffset s g) % 2 ^ 32 ∧
    gearWord (gearRun s g a base) g 5 = ofSigned 32 (clampInt (-2147483648) 2147483647 (stepVelocity s g a)) := by
  rw [gearRun_eq, gearEmit_position, gearEmit_velocity, Nat.mod_mod]
  exact ⟨rfl, Nat.mod_eq_of_lt (ofSigned_lt _)⟩

theorem gearRun_age : (gearRun s g a base).get F.GR_G_STAT_AGE g = 0 := by rw [gearRun_eq, gearEmit_age]

/-- The channel's state and its gap count are not touched. -/
theorem gearRun_stat {f : Field} (hf : f = F.GR_G_STAT_STATE ∨ f = F.GR_G_STAT_GAP) :
    (gearRun s g a base).get f g = s.get f g := by
  rcases hf with rfl | rfl
  all_goals simp (disch := decide) only [gearRun_eq, gearEmit_stat, gearStepped, stepShown_stat, get_wordsStepped]

theorem gearRun_velSat : (gearRun s g a base).get F.GR_G_STAT_VEL_SAT g = b2n (velocitySat s g a) := by
  simp (disch := decide) only [gearRun_eq, gearEmit_stat, gearStepped, stepShown_velSat]

theorem gearRun_event : (gearRun s g a base).get F.GR_EVENT_VEL_SAT =
    if velocitySat s g a then 1 else s.get F.GR_EVENT_VEL_SAT := by
  simp (disch := decide) only [gearRun_eq, gearEmit_event, gearStepped, stepShown_event, get_wordsStepped]

theorem gearRun_slewing : (gearRun s g a base).get F.GR_G_STAT_SLEWING g = b2n (stepOffset s g != s.snap F.GR_G_OFS g) := by
  simp (disch := decide) only [gearRun_eq, gearEmit_stat, gearStepped, stepShown_slewing, snap_wordsStepped]

end

theorem gearRun_moves {regs : List (Nat × Nat × Nat)} (h : GearMoves (gearFields regs 7 g) t s) (hgood : t.fa.badWords = [])
    (hstat : F.GR_G_STAT.word g ∈ regs) (hevent : F.GR_EVENT_VEL_SAT.at ∈ regs) (a base : Nat) :
    GearMoves (gearFields regs 7 g) t (gearRun s g a base) := by
  have hword {x : State} (hx : GearMoves (gearFields regs 7 g) t x) (j v : Nat) (hj : j < 7) :
      GearMoves (gearFields regs 7 g) t (putGear x g j v) := hx.putGear hgood (mem_gearFields_word hj)
  have hshow {x : State} (hx : GearMoves (gearFields regs 7 g) t x) (f : Field) (v : Nat)
      (hf : f.base = F.GR_G_STAT.base ∧ f.s1 = F.GR_G_STAT.s1 ∧ f.lo + f.w ≤ 32) :
      GearMoves (gearFields regs 7 g) t (x.put f v g) := hx.putIn (mem_gearFields_reg hstat) hf
  rw [gearRun_eq]
  refine gearEmit_moves _ g _ _ _ ?_ hgood (by decide) hstat
  have hwords : GearMoves (gearFields regs 7 g) t (wordsStepped s g a (stepOutput s g a)
      (stepDividend s g a % (s.snap F.GR_G_DEN g : Int)).toNat (stepOffset s g)) :=
    hword (hword (hword (hword (hword h 0 _ (by decide)) 1 _ (by decide)) 2 _ (by decide)) 3 _ (by decide)) 6 _ (by decide)
  have hstatus := fun b c => hshow (hshow hwords F.GR_G_STAT_VEL_SAT b (by decide)) F.GR_G_STAT_SLEWING c (by decide)
  unfold gearStepped stepShown
  refine GearMoves.modGear ?_ _ _
  split
  · exact (hstatus _ _).put (mem_gearFields_reg hevent)
  · exact hstatus _ _

end Sys2Proof.Machine
end

section
/-!
PROOFS. What a capture leaves, and which usable copy a gearing channel takes next (R366, R368, Table 10.1).
-/
namespace Sys2Proof.Machine

variable {s t u : State} {g : Fin 64}

/-! ### What a capture leaves (Table 10.1) -/

section
variable (s : State) (g : Fin 64) (a base : Nat)

theorem gearWord_gearCapture {j : Nat} (hj : j < 8) (h4 : j ≠ 4) (h5 : j ≠ 5) :
    gearWord (gearCapture s g a base) g j = gearWord (wordsCaptured s g a) g j := by
  rw [gearCapture_eq, gearEmit_word _ _ _ _ _ hj h4 h5, gearWord_captureShown _ hj]

theorem gearCapture_values : gearWord (gearCapture s g a base) g 5 = 0 ∧ gearWord (gearCapture s g a base) g 4 =
    (gearWord (gearCapture s g a base) g 1 + gearWord (gearCapture s g a base) g 3) % 2 ^ 32 := by
  refine ⟨by rw [gearCapture_eq, gearEmit_velocity, Nat.zero_mod], ?_⟩
  rw [gearWord_gearCapture s g a base (j := 1) (by decide) (by decide) (by decide),
    gearWord_gearCapture s g a base (j := 3) (by decide) (by decide) (by decide), gearCapture_eq, gearEmit_position, Nat.mod_mod,
    gearWord_captureShown _ (by decide), gearWord_captureShown _ (by decide)]

theorem gearCapture_state : (gearCapture s g a base).get F.GR_G_STAT_STATE g = 2 := by
  rw [gearCapture_eq, gearEmit_stat _ _ _ _ _ (by decide) (by decide), captureShown_state]

theorem gearX_wordsCaptured : (wordsCaptured s g a).gearX g = s.gearX g := by
  unfold wordsCaptured
  dsimp only
  split <;> rfl

theorem gearCapture_seen : ((gearCapture s g a base).gearX g).seen = (s.gearX g).seen := by
  rw [gearCapture_eq, gearEmit_seen, captureShown, State.gearX_modGear, ← gearX_wordsCaptured s g a]
  rfl

end

theorem gearCapture_moves {regs : List (Nat × Nat × Nat)} (h : GearMoves (gearFields regs 6 g) t s) (hgood : t.fa.badWords = [])
    (hstat : F.GR_G_STAT.word g ∈ regs) (a base : Nat) : GearMoves (gearFields regs 6 g) t (gearCapture s g a base) := by
  have hword {x : State} (hx : GearMoves (gearFields regs 6 g) t x) (j v : Nat) (hj : j < 6) :
      GearMoves (gearFields regs 6 g) t (putGear x g j v) := hx.putGear hgood (mem_gearFields_word hj)
  have hshow {x : State} (hx : GearMoves (gearFields regs 6 g) t x) (f : Field) (v : Nat)
      (hf : f.base = F.GR_G_STAT.base ∧ f.s1 = F.GR_G_STAT.s1 ∧ f.lo + f.w ≤ 32) :
      GearMoves (gearFields regs 6 g) t (x.put f v g) := hx.putIn (mem_gearFields_reg hstat) hf
  have hinput : GearMoves (gearFields regs 6 g) t (putGear (putGear s g 0 a) g 2 0) :=
    hword (hword h 0 a (by decide)) 2 0 (by decide)
  have hwords : GearMoves (gearFields regs 6 g) t (wordsCaptured s g a) := by
    unfold wordsCaptured
    dsimp only
    split
    · exact hword (hword hinput 1 _ (by decide)) 3 _ (by decide)
    · exact hinput
  rw [gearCapture_eq]
  refine gearEmit_moves _ g _ _ _ ?_ hgood (by decide) hstat
  unfold captureShown
  exact (hshow (hshow (hshow hwords F.GR_G_STAT_STATE _ (by decide)) F.GR_G_STAT_VEL_SAT _ (by decide)) F.GR_G_STAT_SLEWING _
    (by decide)).modGear g _

/-! ### The next usable copy (R366) -/

/-- The copies that channel g has not consumed yet do not depend on IN_ERR. -/
theorem gearInputs_put_inErr (s : State) (g v upto : Nat) :
    gearInputs (s.put F.GR_G_STAT_IN_ERR v g) g upto = gearInputs s g upto := by
  have hget (f : Field) (i : Nat) (hf : f.base = 0x40051000 ∧ f.s1 = 0x10) :
      (s.put F.GR_G_STAT_IN_ERR v g).get f i = s.get f i := by
    obtain ⟨hbase, hstride⟩ := hf
    refine State.get_put_otherReg s _ _ v g 0 i 0 ?_
    simp only [Field.addr, hbase, hstride, F.GR_G_STAT_IN_ERR]
    omega
  have hstate : gearState (s.put F.GR_G_STAT_IN_ERR v g) g = gearState s g := get_put_apart s v g (by decide)
  have hcrc (t : Nat) : (s.put F.GR_G_STAT_IN_ERR v g).tribCrc t = s.tribCrc t := congrArg (· != 0) (hget _ t (by decide))
  have hwidth (t : Nat) : (s.put F.GR_G_STAT_IN_ERR v g).tribWidth t = s.tribWidth t := hget _ t (by decide)
  have htype (t : Nat) : (s.put F.GR_G_STAT_IN_ERR v g).tribType t = s.tribType t := hget _ t (by decide)
  have hkind (t : Nat) : (s.put F.GR_G_STAT_IN_ERR v g).tribKind t = s.tribKind t := hget _ t (by decide)
  have hindex (t : Nat) : (s.put F.GR_G_STAT_IN_ERR v g).tribIndex t = s.tribIndex t := hget _ t (by decide)
  have hcopies (t : Nat) : (s.put F.GR_G_STAT_IN_ERR v g).copiesOf t = s.copiesOf t := by
    rw [State.copiesOf, hindex, State.tribX_put, State.copiesOf]
  have hcopy : copyInput (s.put F.GR_G_STAT_IN_ERR v g) = copyInput s := by
    funext t val c
    rw [copyInput, hcrc, hwidth, copyInput]
  have husable (t val : Nat) : usableInputs (s.put F.GR_G_STAT_IN_ERR v g) t val = usableInputs s t val := by
    rw [usableInputs, hkind, hindex, hcopies, hcopy, State.gearX_put, usableInputs]
  have hframe : (s.put F.GR_G_STAT_IN_ERR v g).frameTotal = s.frameTotal :=
    State.get_put_otherReg s _ _ v g 0 0 0 (by simp only [Field.addr, F.GR_G_STAT_IN_ERR, F.LF_FRAME_TOTAL]; omega)
  have hdue : inputsDue (s.put F.GR_G_STAT_IN_ERR v g) = inputsDue s := by
    funext seen upto l
    simp only [inputsDue, State.timeAt, hframe]
  have hadmits : gearAdmissible (s.put F.GR_G_STAT_IN_ERR v g) g = gearAdmissible s g := by
    simp (disch := decide) only [gearAdmissible, inputAdmissible, isoValues, htype, hkind, hindex, hwidth, hcrc, snap_put]
  rw [gearInputs, hstate, hadmits, hdue, husable, State.gearX_put, snap_put _ _ _ (by decide), snap_put _ _ _ (by decide),
    gearInputs]

/-- The channel and its input are on and admissible when a copy is due. -/
theorem gearInErr_of_input {i : Input} {rest : List Input} {upto : Nat} (hin : gearInputs s g upto = i :: rest) :
    gearInErr s g = s.put F.GR_G_STAT_IN_ERR 0 g := by
  have hgood : ¬ (gearState s g = 0 ∨ (!gearAdmissible s g) = true) := fun hbad => by
    rw [gearInputs, if_pos hbad] at hin
    exact List.cons_ne_nil _ _ hin.symm
  obtain ⟨hon, hadmits⟩ := not_or.mp hgood
  simp only [Bool.not_eq_true', Bool.not_eq_false] at hadmits
  rw [gearInErr, if_neg hon, if_pos hadmits]

/-- The channel with a copy consumed. -/
def gearTaken (s : State) (g : Nat) (i : Input) : State :=
  (s.put F.GR_G_STAT_IN_ERR 0 g).modGear g fun x => { x with seen := i.base + 1, used := true }

theorem gearWord_gearTaken (s : State) (i : Input) {j : Nat} (hj : j < 8) : gearWord (gearTaken s g i) g j = gearWord s g j :=
  gearWord_put s 0 g j (by decide) hj

theorem snap_gearTaken (s : State) (i : Input) {f : Field} (hf : f.s1 = F.GR_G_STAT.s1 ∧ f.base ≠ F.GR_G_STAT.base) :
    (gearTaken s g i).snap f g = s.snap f g := snap_put s 0 g hf

theorem gearX_gearTaken (s : State) (i : Input) :
    (gearTaken s g i).gearX g = { s.gearX g with seen := i.base + 1, used := true } := State.gearX_modGear _ _ _

theorem gearTaken_moves (s : State) (i : Input) {n : Nat} {regs : List (Nat × Nat × Nat)} (hstat : F.GR_G_STAT.word g ∈ regs) :
    GearMoves (gearFields regs n g) s (gearTaken s g i) :=
  ((GearMoves.refl _ s).putIn (mem_gearFields_reg hstat) (by decide)).modGear g _

theorem gearCheck_clean (h : GrClean s) : gearCheck s g = (s, true) := by
  have hcheck {j : Nat} (hj : j < 8) : eccCheck s (F.GR_STATE.addr g j) = (s, 0) :=
    eccCheck_grClean h (by simp only [F.GR_STATE, Field.addr]; omega) (by simp only [F.GR_STATE, Field.addr]; omega)
  simp [gearCheck, hcheck (show 0 < 8 by decide), hcheck (show 2 < 8 by decide)]

theorem gearTake_of_check {x : State} {g : Nat} {i : Input}
    (h : gearCheck (x.modGear g fun y => { y with seen := i.base + 1, used := true }) g = (u, true)) :
    gearTake x g i = if gearState u g = 1 then gearCapture u g i.value i.base
      else gearRun (u.put F.GR_G_STAT_GAP 0 g) g i.value i.base := by
  simp only [gearTake, h, Bool.not_true, Bool.false_eq_true, if_false]

theorem gearStepNow_eq (h : GrClean s) {i : Input} {rest : List Input} (hin : gearInputs s g frameCycles = i :: rest) :
    gearStepNow s g = if s.get F.GR_G_STAT_STATE g = 1 then gearCapture (gearTaken s g i) g i.value i.base
      else gearRun ((gearTaken s g i).put F.GR_G_STAT_GAP 0 g) g i.value i.base := by
  obtain ⟨hjig, hgood⟩ := h
  have hkept : (gearTaken s g i).get F.FA_JIG_LEFT 3 = s.get F.FA_JIG_LEFT 3 :=
    State.get_put_otherReg s _ _ 0 g 0 3 0 (by simp only [Field.addr, F.GR_G_STAT_IN_ERR, F.FA_JIG_LEFT]; omega)
  have hstate : gearState (gearTaken s g i) g = s.get F.GR_G_STAT_STATE g := get_put_apart s 0 g (by decide)
  have hcheck : gearCheck (gearTaken s g i) g = (gearTaken s g i, true) := gearCheck_clean ⟨hkept.trans hjig, hgood⟩
  simp only [gearStepNow, gearInErr_of_input hin, gearInputs_put_inErr, hin]
  rw [gearTake_of_check hcheck, hstate]

end Sys2Proof.Machine
end

section
/-!
PROOFS. The rows of the gearing channels: GEAR_STEP, EN written, RECAPTURE and the gap limit (R368, R372, R373, Table 10.1).
-/
namespace Sys2Proof.Machine

variable {s t u : State} {g : Fin 64}

/-! ### What a step reads of its channel -/

/-- What a step of channel g reads is the same: its state words, its configuration, and the ratio of the step before. -/
structure SameChannel (g : Nat) (s u : State) : Prop where
  word : ∀ j, j < 8 → gearWord u g j = gearWord s g j
  snap : ∀ f : Field, f.s1 = F.GR_G_STAT.s1 ∧ f.base ≠ F.GR_G_STAT.base → u.snap f g = s.snap f g
  ratio : (u.gearX g).ratio = (s.gearX g).ratio

namespace SameChannel

variable {g : Nat}

theorem dividend (h : SameChannel g s u) (a : Nat) : stepDividend u g a = stepDividend s g a := by
  rw [stepDividend, stepRemainder, h.word 0 (by decide), h.word 2 (by decide), h.snap F.GR_G_NUM (by decide),
    h.snap F.GR_G_DEN (by decide), h.ratio, stepDividend, stepRemainder]

theorem move (h : SameChannel g s u) : stepMove u g = stepMove s g := by
  rw [stepMove, h.word 3 (by decide), h.snap F.GR_G_OFS (by decide), h.snap F.GR_G_SLEW (by decide), stepMove]

theorem output (h : SameChannel g s u) (a : Nat) : stepOutput u g a = stepOutput s g a := by
  rw [stepOutput, h.dividend, h.word 1 (by decide), h.snap F.GR_G_DEN (by decide), stepOutput]

theorem offset (h : SameChannel g s u) : stepOffset u g = stepOffset s g := by
  rw [stepOffset, h.move, h.word 3 (by decide), stepOffset]

theorem velocity (h : SameChannel g s u) (a : Nat) : stepVelocity u g a = stepVelocity s g a := by
  rw [stepVelocity, h.dividend, h.move, h.snap F.GR_G_DEN (by decide), stepVelocity]

end SameChannel

/-- The channel as its step finds it: the copy consumed, and no gap. -/
def gearReady (s : State) (g : Nat) (i : Input) : State := (gearTaken s g i).put F.GR_G_STAT_GAP 0 g

theorem gearReady_same (s : State) (g : Fin 64) (i : Input) : SameChannel g s (gearReady s g i) where
  word j hj := by rw [gearReady, gearWord_put _ _ _ _ (by decide) hj, gearWord_gearTaken _ _ hj]
  snap f hf := by rw [gearReady, snap_put (f := F.GR_G_STAT_GAP) _ _ _ hf, snap_gearTaken _ _ hf]
  ratio := by rw [gearReady, State.gearX_put, gearX_gearTaken]

/-! ### GEAR_STEP (R368) -/

section
variable (ha : s.Awake) (hclean : GrClean s) {i : Input} {rest : List Input} (hin : gearInputs s g frameCycles = i :: rest)
include ha hclean hin

theorem gearStep_captures (hstate : s.get F.GR_G_STAT_STATE g = 1) : Gives (.gearStep g) s fun t =>
    t.get F.GR_G_STAT_STATE g = 2 ∧ gearWord t g 0 = i.value % 2 ^ 32 ∧ gearWord t g 2 = 0 ∧ gearWord t g 5 = 0 ∧
    ((s.gearX g).load = true → gearWord t g 1 = s.snap F.GR_G_PRESET g ∧ gearWord t g 3 = s.snap F.GR_G_OFS g) ∧
    ((s.gearX g).load = false → gearWord t g 1 = gearWord s g 1 ∧ gearWord t g 3 = gearWord s g 3) ∧
    gearWord t g 4 = (gearWord t g 1 + gearWord t g 3) % 2 ^ 32 ∧ (t.gearX g).seen = i.base + 1 ∧
    t = { s with regs := t.regs, gr.gear := t.gr.gear, xc.trib := t.xc.trib } ∧
    RegsKept (gearFields [F.GR_G_STAT.word g] 6 g) s t := by
  have hnow : exec (.gearStep g) s = act s (gearCapture (gearTaken s g i) g i.value i.base) :=
    congrArg (act s) ((gearStepNow_eq hclean hin).trans (if_pos hstate))
  have hmoves := gearCapture_moves (gearTaken_moves (g := g) (n := 6) s i (List.mem_singleton.mpr rfl)) hclean.2
    (List.mem_singleton.mpr rfl) i.value i.base
  have hload : ((gearTaken s g i).gearX g).load = (s.gearX g).load := by rw [gearX_gearTaken]
  have hword {j : Nat} (hj : j < 8) (h4 : j ≠ 4) (h5 : j ≠ 5) := gearWord_gearCapture (gearTaken s g i) g i.value i.base hj h4 h5
  obtain ⟨hinput, hrem⟩ := wordsCaptured_input (g := g) (gearTaken s g i) i.value
  obtain ⟨hvel, hpos⟩ := gearCapture_values (gearTaken s g i) g i.value i.base
  refine gives_of_act ha hnow (hmoves.chip ▸ ha.2) ⟨gearCapture_state _ _ _ _, ?_, ?_, hvel, fun h => ?_, fun h => ?_, hpos, ?_,
    hmoves.rest, hmoves.kept⟩
  · rw [hword (by decide) (by decide) (by decide), hinput]
  · rw [hword (by decide) (by decide) (by decide), hrem]
  · obtain ⟨hpreset, hofs⟩ := wordsCaptured_loaded (gearTaken s g i) i.value (hload.trans h)
    rw [hword (by decide) (by decide) (by decide), hword (by decide) (by decide) (by decide), hpreset, hofs,
      snap_gearTaken _ _ (by decide), snap_gearTaken _ _ (by decide)]
    exact ⟨rfl, rfl⟩
  · have hkept {j : Nat} (h0 : j ≠ 0) (h2 : j ≠ 2) := wordsCaptured_kept (gearTaken s g i) i.value (hload.trans h) h0 h2
    rw [hword (by decide) (by decide) (by decide), hword (by decide) (by decide) (by decide), hkept (by decide) (by decide),
      hkept (by decide) (by decide), gearWord_gearTaken _ _ (by decide), gearWord_gearTaken _ _ (by decide)]
    exact ⟨rfl, rfl⟩
  · rw [gearCapture_seen, gearX_gearTaken]

theorem gearStep_steps (hstate : s.get F.GR_G_STAT_STATE g = 2) : Gives (.gearStep g) s fun t =>
    gearWord t g 0 = i.value % 2 ^ 32 ∧ gearWord t g 1 = stepOutput s g i.value ∧
    (s.snap F.GR_G_DEN g ≠ 0 → (gearWord t g 2 : Int) = stepDividend s g i.value % (s.snap F.GR_G_DEN g : Int)) ∧
    gearWord t g 3 = stepOffset s g ∧ gearWord t g 4 = (gearWord t g 1 + gearWord t g 3) % 2 ^ 32 ∧
    gearWord t g 5 = ofSigned 32 (clampInt (-2147483648) 2147483647 (stepVelocity s g i.value)) ∧
    gearWord t g 6 = (gearWord s g 6 + 1) % 2 ^ 32 ∧
    t.get F.GR_G_STAT_STATE g = 2 ∧ t.get F.GR_G_STAT_AGE g = 0 ∧ t.get F.GR_G_STAT_GAP g = 0 ∧
    t.get F.GR_G_STAT_VEL_SAT g = b2n (velocitySat s g i.value) ∧
    t.get F.GR_EVENT_VEL_SAT = (if velocitySat s g i.value then 1 else s.get F.GR_EVENT_VEL_SAT) ∧
    t.get F.GR_G_STAT_SLEWING g = b2n (gearWord t g 3 != s.snap F.GR_G_OFS g) ∧
    t = { s with regs := t.regs, gr.gear := t.gr.gear, xc.trib := t.xc.trib } ∧
    RegsKept (gearFields [F.GR_G_STAT.word g, F.GR_EVENT_VEL_SAT.at] 7 g) s t := by
  have hsame := gearReady_same s g i
  have hready : GearMoves (gearFields [F.GR_G_STAT.word g, F.GR_EVENT_VEL_SAT.at] 7 g) s (gearReady s g i) :=
    (gearTaken_moves s i List.mem_cons_self).putIn (mem_gearFields_reg List.mem_cons_self) (by decide)
  have hnow : exec (.gearStep g) s = act s (gearRun (gearReady s g i) g i.value i.base) :=
    congrArg (act s) ((gearStepNow_eq hclean hin).trans (if_neg (by rw [hstate]; decide)))
  have hmoves := gearRun_moves hready hclean.2 List.mem_cons_self (by simp) i.value i.base
  have hsat : velocitySat (gearReady s g i) g i.value = velocitySat s g i.value := by
    rw [velocitySat, hsame.velocity, velocitySat]
  have hevent : (gearReady s g i).get F.GR_EVENT_VEL_SAT = s.get F.GR_EVENT_VEL_SAT :=
    (get_grEvent_put _ _ _ (by decide) (by decide)).trans (get_grEvent_put s _ _ (by decide) (by decide))
  obtain ⟨h0, h1, h3, h6⟩ := gearRun_words (gearReady s g i) g i.value i.base
  obtain ⟨h4, h5⟩ := gearRun_values (gearReady s g i) g i.value i.base
  refine gives_of_act ha hnow (hmoves.chip ▸ ha.2) ⟨h0, h1.trans (hsame.output _), fun hden => ?_, h3.trans hsame.offset, ?_,
    ?_, ?_, ?_, gearRun_age _ _ _ _, ?_, ?_, ?_, ?_, hmoves.rest, hmoves.kept⟩
  · rw [gearRun_remainder _ _ _ _ (by rw [hsame.snap _ (by decide)]; exact hden), hsame.dividend, hsame.snap _ (by decide)]
  · rw [h4, h1, h3]
  · rw [h5, hsame.velocity]
  · rw [h6, hsame.word 6 (by decide)]
  · rw [gearRun_stat _ _ _ _ (.inl rfl), ← hstate]
    exact (get_put_apart _ _ _ (by decide)).trans (get_put_apart s _ _ (by decide))
  · rw [gearRun_stat _ _ _ _ (.inr rfl)]
    exact get_put_same _ _ _ (by decide) (by decide)
  · rw [gearRun_velSat, hsat]
  · rw [gearRun_event, hsat, hevent]
  · rw [gearRun_slewing, h3, hsame.snap _ (by decide)]

end

/-! ### EN written, RECAPTURE and the gap limit (R372, R373, Table 10.1) -/

theorem specAt_gearCfg (g : Fin 64) : ∃ r, specAt (F.GR_G_CFG.addr g) = some r ∧ r.rw = 0xC0FF07FF ∧ r.w1c = 0 ∧ r.otp = 0 := by
  have hall : ∀ g : Fin 64, (specAt (F.GR_G_CFG.addr g)).any (fun r => r.rw == 0xC0FF07FF && r.w1c == 0 && r.otp == 0) = true := by
    decide +kernel
  obtain ⟨r, hspec, hr⟩ := specAt_of_any (hall g)
  simp only [Bool.and_eq_true, beq_iff_eq, and_assoc] at hr
  exact ⟨r, hspec, hr⟩

theorem specAt_gearCmd (g : Fin 64) :
    ∃ r, specAt (F.GR_G_CMD.addr g) = some r ∧ r.rw = 0 ∧ r.w1c = 0 ∧ r.otp = 0 ∧ r.lock = false := by
  have hall : ∀ g : Fin 64, (specAt (F.GR_G_CMD.addr g)).any
      (fun r => r.rw == 0 && r.w1c == 0 && r.otp == 0 && r.lock == false) = true := by decide +kernel
  obtain ⟨r, hspec, hr⟩ := specAt_of_any (hall g)
  simp only [Bool.and_eq_true, beq_iff_eq, and_assoc] at hr
  exact ⟨r, hspec, hr⟩

/-- A write of a channel's register other than DEN is refused for no value. -/
theorem judgeGr_gear {f : Field} (hf : 0x40060100 ≤ f.base ∧ f.base < 0x40060120 ∧ f.base ≠ 0x40060108 ∧ f.s1 = 0x20) (s : State)
    (g : Fin 64) (v : Nat) : judgeGr s (f.addr g) v = St.ok := by
  obtain ⟨hlow, hhigh, hden, hstride⟩ := hf
  have haddr : f.addr g = f.base + 0x20 * g := by simp only [Field.addr, hstride, Nat.mul_zero, Nat.add_zero]
  rw [judgeGr, if_neg (by omega), if_neg (by omega), if_neg (by omega)]

theorem hookGr_cfg (g : Fin 64) (v old : Nat) (s : State) :
    hookGr (F.GR_G_CFG.addr g) v old s = if s.inFrame = 0 then gearFollow s g else s := by
  have haddr : F.GR_G_CFG.addr g = 0x40060100 + 0x20 * g := rfl
  have hchannel : (0x40060100 + 0x20 * g.val - 0x40060100) / 32 = g := by omega
  rw [haddr, hookGr, if_neg (by omega), if_pos (by omega), hchannel]
  exact if_pos (by omega)

theorem hookGr_cmd (g : Fin 64) (v old : Nat) (s : State) : hookGr (F.GR_G_CMD.addr g) v old s =
    if bitOf v 0 && gearState s g != 0 then
      (s.put F.GR_G_STAT_STATE 1 g).modGear g fun x => { x with load := bitOf v 1 }
    else s := by
  have haddr : F.GR_G_CMD.addr g = 0x4006011C + 0x20 * g := rfl
  have hchannel : (0x4006011C + 0x20 * g.val - 0x40060100) / 32 = g := by omega
  rw [haddr, hookGr, if_neg (by omega), if_pos (by omega), hchannel]
  dsimp only
  rw [if_neg (by omega), if_pos (by omega)]

theorem lockBlock_gearCfg (g : Fin 64) : lockBlock (F.GR_G_CFG.addr g) = 6 := by
  revert g
  decide

/-- EN written: the channel follows it at once in the first cycle of a frame (R373). -/
theorem writeGr_en (hfree : s.locked 6 = false) (g : Fin 64) (en : Bool) :
    writeGr s F.GR_G_CFG g (insertBits (s.get F.GR_G_CFG g) 31 1 (b2n en)) =
      if s.inFrame = 0 then gearFollow (s.put F.GR_G_CFG_EN (b2n en) g) g else s.put F.GR_G_CFG_EN (b2n en) g := by
  obtain ⟨r, hspec, hrw, hw1c, hotp⟩ := specAt_gearCfg g
  have hblock : lockBlock (F.GR_G_CFG.addr g) = 6 := lockBlock_gearCfg g
  have hstored : storeWord s (F.GR_G_CFG.addr g) (insertBits (s.get F.GR_G_CFG g) 31 1 (b2n en)) =
      s.put F.GR_G_CFG_EN (b2n en) g :=
    storeWord_insertBits (f := F.GR_G_CFG_EN) (by decide) hspec hw1c rfl (by rw [hrw]; decide) s (b2n en)
  rw [writeGr, writeBy_ok hspec (by rw [hblock, hfree, Bool.and_false]) (judgeGr_gear (by decide) s g _) hotp, hstored, hookGr_cfg,
    inFrame_put]

/-- Of the registers only `fs` move, and beside them only the records of the channels. -/
def GearOnly (fs : List (Nat × Nat × Nat)) (s t : State) : Prop :=
  t = { s with regs := t.regs, gr.gear := t.gr.gear } ∧ RegsKept fs s t

theorem Only.gearOnly {fs : List (Nat × Nat × Nat)} (h : Only fs s t) : GearOnly fs s t := ⟨by rw [h.1], h.2⟩

theorem Only.modGear {fs : List (Nat × Nat × Nat)} (h : Only fs s t) (g : Nat) (m : GearX → GearX) :
    GearOnly fs s (t.modGear g m) :=
  ⟨by rw [h.1]; rfl, h.2.trans (RegsKept.of_regs rfl)⟩

theorem GearOnly.after {fs : List (Nat × Nat × Nat)} (h : GearOnly fs t u) (hbefore : Only fs s t) : GearOnly fs s u :=
  ⟨by rw [h.1, hbefore.1], hbefore.2.trans h.2⟩

theorem GearOnly.mono {fs hs : List (Nat × Nat × Nat)} (h : GearOnly fs s t) (hsub : fs ⊆ hs) : GearOnly hs s t :=
  ⟨h.1, h.2.mono hsub⟩

theorem GearOnly.resetDue {fs : List (Nat × Nat × Nat)} (h : GearOnly fs s t) (ha : s.Awake) : t.chip.resetDue = none := by
  rw [h.1]
  exact ha.2

theorem Only.resetDue {fs : List (Nat × Nat × Nat)} (h : Only fs s t) (ha : s.Awake) : t.chip.resetDue = none := h.chip ▸ ha.2

section
variable (s : State) (g : Nat)

theorem gearFollow_only :
    GearOnly (placesAt [F.GR_G_STAT_STATE, F.GR_G_STAT_GAP, F.GR_G_STAT_IN_ERR] g) s (gearFollow s g) := by
  have hput (t : State) (f : Field) (v : Nat) (hf : f ∈ [F.GR_G_STAT_STATE, F.GR_G_STAT_GAP, F.GR_G_STAT_IN_ERR]) :
      Only (placesAt [F.GR_G_STAT_STATE, F.GR_G_STAT_GAP, F.GR_G_STAT_IN_ERR] g) t (t.put f v g) := only_put (at_mem_placesAt hf g)
  unfold gearFollow
  split
  · split
    · exact ((hput s _ 1 (by decide)).trans (hput _ _ 0 (by decide))).modGear g _
    · exact (only_refl s).gearOnly
  · split
    · exact (only_refl s).gearOnly
    · exact ((hput s _ 0 (by decide)).trans (hput _ _ 0 (by decide))).modGear g _

theorem gearOn_shows : (gearOn s g).get F.GR_G_STAT_STATE g = 1 ∧ (gearOn s g).get F.GR_G_STAT_GAP g = 0 ∧
    (gearOn s g).gearX g = { s.gearX g with load := true, outs := [] } := by
  refine ⟨?_, ?_, State.gearX_modGear _ _ _⟩
  all_goals simp (disch := decide) only [gearOn, State.modGear_get, get_put_apart, get_put_same]

theorem gearOff_shows : (gearOff s g).get F.GR_G_STAT_STATE g = 0 ∧ (gearOff s g).get F.GR_G_STAT_IN_ERR g = 0 ∧
    ((gearOff s g).gearX g).outs = [] := by
  refine ⟨?_, ?_, congrArg GearX.outs (State.gearX_modGear _ _ _)⟩
  all_goals simp (disch := decide) only [gearOff, State.modGear_get, get_put_apart, get_put_same]

theorem gearFollow_state : (gearFollow s g).get F.GR_G_STAT_STATE g = (if s.get F.GR_G_CFG_EN g = 0 then 0
    else if s.get F.GR_G_STAT_STATE g = 0 then 1 else s.get F.GR_G_STAT_STATE g) := by
  by_cases hen : s.get F.GR_G_CFG_EN g = 0
  · have hoff : s.on F.GR_G_CFG_EN g = false := by simp [State.on, hen]
    rw [if_pos hen, gearFollow, hoff, if_neg Bool.false_ne_true]
    split
    next hstate => exact hstate
    next => exact (gearOff_shows s g).1
  · have hon : s.on F.GR_G_CFG_EN g = true := by simp [State.on, hen]
    rw [if_neg hen, gearFollow, if_pos hon, gearState]
    split
    · exact (gearOn_shows s g).1
    · rfl

end

/-- GEAR_EN_WRITE after the first cycle of a frame: the channel follows EN from the next frame (R373). -/
theorem gearEnWrite_later (ha : s.Awake) (hfree : s.locked 6 = false) (hlate : s.inFrame ≠ 0) (en : Bool) :
    Gives (.gearEnWrite g en) s fun t => t.get F.GR_G_CFG_EN g = b2n en ∧ Only [F.GR_G_CFG_EN.at g] s t := by
  have hexec : exec (.gearEnWrite g en) s = act s (s.put F.GR_G_CFG_EN (b2n en) g) :=
    congrArg (act s) ((writeGr_en hfree g en).trans (if_neg hlate))
  have hwritten : Only [F.GR_G_CFG_EN.at g] s (s.put F.GR_G_CFG_EN (b2n en) g) := only_put (List.mem_singleton.mpr rfl)
  exact gives_of_act ha hexec (hwritten.resetDue ha)
    ⟨State.get_put_bit s F.GR_G_CFG_EN en g 0 (by decide) (by decide), hwritten⟩

/-- GEAR_EN_WRITE in the first cycle of a frame. -/
theorem gearEnWrite_now (ha : s.Awake) (hfree : s.locked 6 = false) (hfirst : s.inFrame = 0) (en : Bool) :
    Gives (.gearEnWrite g en) s fun t =>
      t.get F.GR_G_CFG_EN g = b2n en ∧
      (en = true → s.get F.GR_G_STAT_STATE g = 0 →
        t.get F.GR_G_STAT_STATE g = 1 ∧ t.get F.GR_G_STAT_GAP g = 0 ∧ t.gearX g = { s.gearX g with load := true, outs := [] }) ∧
      (en = true → s.get F.GR_G_STAT_STATE g ≠ 0 → Only [F.GR_G_CFG_EN.at g] s t) ∧
      (en = false → t.get F.GR_G_STAT_STATE g = 0 ∧
        (s.get F.GR_G_STAT_STATE g ≠ 0 → t.get F.GR_G_STAT_IN_ERR g = 0 ∧ (t.gearX g).outs = [])) ∧
      t = { s with regs := t.regs, gr.gear := t.gr.gear } ∧
      RegsKept [F.GR_G_CFG_EN.at g, F.GR_G_STAT_STATE.at g, F.GR_G_STAT_GAP.at g, F.GR_G_STAT_IN_ERR.at g] s t := by
  have hexec : exec (.gearEnWrite g en) s = act s (gearFollow (s.put F.GR_G_CFG_EN (b2n en) g) g) :=
    congrArg (act s) ((writeGr_en hfree g en).trans (if_pos hfirst))
  have hwritten : Only [F.GR_G_CFG_EN.at g] s (s.put F.GR_G_CFG_EN (b2n en) g) := only_put (List.mem_singleton.mpr rfl)
  have hen : (s.put F.GR_G_CFG_EN (b2n en) g).get F.GR_G_CFG_EN g = b2n en :=
    State.get_put_bit s F.GR_G_CFG_EN en g 0 (by decide) (by decide)
  have hon : (s.put F.GR_G_CFG_EN (b2n en) g).on F.GR_G_CFG_EN g = en := by
    rw [State.on, hen]
    cases en <;> rfl
  have hstate : gearState (s.put F.GR_G_CFG_EN (b2n en) g) g = s.get F.GR_G_STAT_STATE g := get_put_apart s _ _ (by decide)
  have hfollow := gearFollow_only (s.put F.GR_G_CFG_EN (b2n en) g) g
  have hall : GearOnly [F.GR_G_CFG_EN.at g, F.GR_G_STAT_STATE.at g, F.GR_G_STAT_GAP.at g, F.GR_G_STAT_IN_ERR.at g] s
      (gearFollow (s.put F.GR_G_CFG_EN (b2n en) g) g) :=
    (hfollow.mono (List.subset_cons_self _ _)).after (only_put List.mem_cons_self)
  refine gives_of_act ha hexec (hall.resetDue ha) ⟨?_, fun htrue hzero => ?_, fun htrue hzero => ?_, fun hfalse => ?_, hall⟩
  · rw [hfollow.2.get_apart F.GR_G_CFG_EN (by decide), hen]
  · rw [gearFollow, hon, if_pos htrue, hstate, if_pos hzero]
    obtain ⟨hcapture, hgap, hload⟩ := gearOn_shows (s.put F.GR_G_CFG_EN (b2n en) g) g
    exact ⟨hcapture, hgap, hload.trans (by rw [State.gearX_put])⟩
  · rw [gearFollow, hon, if_pos htrue, hstate, if_neg hzero]
    exact hwritten
  · refine ⟨?_, fun hzero => ?_⟩
    · rw [gearFollow_state, hen, hfalse]
      rfl
    · have hne : ¬ en = true := by simp [hfalse]
      rw [gearFollow, hon, if_neg hne, hstate, if_neg hzero]
      exact (gearOff_shows _ _).2

theorem recapture_captures (ha : s.Awake) (mode : Bool) (hstate : s.get F.GR_G_STAT_STATE g ≠ 0) :
    Gives (.recapture g mode) s fun t =>
      t.get F.GR_G_STAT_STATE g = 1 ∧ t.gearX g = { s.gearX g with load := mode } ∧
      t = { s with regs := t.regs, gr.gear := t.gr.gear } ∧ RegsKept [F.GR_G_STAT_STATE.at g] s t := by
  obtain ⟨r, hspec, hrw, hw1c, hotp, hlock⟩ := specAt_gearCmd g
  obtain ⟨u, hu⟩ : ∃ u, u = storeWord s (F.GR_G_CMD.addr g) (1 + 2 * b2n mode) := ⟨_, rfl⟩
  have hsame : Only [] s u := hu ▸ storeWord_kept_only s hspec hrw (by rw [hw1c, Nat.zero_and])
  have hmode : bitOf (1 + 2 * b2n mode) 0 = true ∧ bitOf (1 + 2 * b2n mode) 1 = mode := by cases mode <;> decide
  have hgo : (bitOf (1 + 2 * b2n mode) 0 && gearState u g != 0) = true := by
    have hkept : gearState u g = s.get F.GR_G_STAT_STATE g := hsame.2.get _ _ _ (by simp)
    simp [hmode.1, hkept, hstate]
  have hwrite : writeGr s F.GR_G_CMD g (1 + 2 * b2n mode) =
      (u.put F.GR_G_STAT_STATE 1 g).modGear g fun x => { x with load := mode } := by
    rw [writeGr, writeBy_ok hspec (by rw [hlock, Bool.false_and]) (judgeGr_gear (by decide) s g _) hotp, ← hu, hookGr_cmd,
      if_pos hgo, hmode.2]
  have hall : GearOnly [F.GR_G_STAT_STATE.at g] s ((u.put F.GR_G_STAT_STATE 1 g).modGear g fun x => { x with load := mode }) :=
    ((only_put (List.mem_singleton.mpr rfl)).modGear g _).after ⟨hsame.1, hsame.2.mono (List.nil_subset _)⟩
  have hgear : u.gearX g = s.gearX g := by
    rw [hsame.1]
    rfl
  refine gives_of_act ha (congrArg (act s) hwrite) (hall.resetDue ha) ⟨?_, ?_, hall⟩
  · rw [State.modGear_get, get_put_same _ _ _ (by decide) (by decide)]
  · rw [State.gearX_modGear, State.gearX_put, hgear]

theorem gapRecapture_captures (ha : s.Awake) (hdue : gapDue s g = true) : Gives (.gapRecapture g) s fun t =>
    t.get F.GR_G_STAT_STATE g = 1 ∧ t.get F.GR_G_STAT_GAP g = 0 ∧ t.get F.GR_EVENT_RECAPTURED = 1 ∧
    Only [F.GR_G_STAT_STATE.at g, F.GR_G_STAT_GAP.at g, F.GR_EVENT_RECAPTURED.at] s t := by
  have hexec : exec (.gapRecapture g) s = act s (gapRecapture s g) := congrArg (act s) (if_pos hdue)
  have honly : Only [F.GR_G_STAT_STATE.at g, F.GR_G_STAT_GAP.at g, F.GR_EVENT_RECAPTURED.at] s (gapRecapture s g) :=
    ((only_put (by simp)).trans (only_put (by simp))).trans (only_raiseBit (by simp))
  refine gives_of_act ha hexec (honly.resetDue ha) ⟨?_, ?_, State.get_raiseBit _ _ _ _ (by decide) (by decide), honly⟩
  all_goals simp (disch := decide) only [gapRecapture, State.raiseBit, get_put_grEvent, get_put_apart, get_put_same]

/-- Settles O29: EN, RECAPTURE and the gap limit by what each write leaves, and the next usable copy by the channel's own words,
which pass their check and are then captured or stepped from. -/
theorem gearing : Obligations.Gearing := by
  unfold Obligations.Gearing
  intro s g ha
  refine ⟨fun hfree => ⟨fun hlate en => gearEnWrite_later ha hfree hlate en, fun hfirst en => gearEnWrite_now ha hfree hfirst en⟩,
    gearFollow_state s g, fun mode hstate => recapture_captures ha mode hstate, fun hdue => gapRecapture_captures ha hdue,
    fun i rest hin hjig hgood => ⟨fun hstate => gearStep_captures ha ⟨hjig, hgood⟩ hin hstate, fun hstate => ?_⟩⟩
  have hsteps := gearStep_steps ha ⟨hjig, hgood⟩ hin hstate
  simp only [velocitySat, decide_eq_true_eq] at hsteps
  exact hsteps

end Sys2Proof.Machine
end

section
/-!
PROOFS. The arithmetic of the scaling recipes and an evaluation (R375–R379, Tables 10.2, 10.3).
-/
namespace Sys2Proof.Machine

variable {s t u : State}

/-! ### Every result is a signed 32-bit number with the flags of Table 10.3 (R378) -/

/-- A signed 32-bit number. -/
def InWord (v : Int) : Prop := -2147483648 ≤ v ∧ v ≤ 2147483647

/-- What an operation gives: such a number, with flags of Table 10.3 only. -/
def GoodResult (r : Int × Nat) : Prop := InWord r.1 ∧ r.2 < 16

theorem goodResult_mk {v : Int} {fl : Nat} (hv : InWord v) (hfl : fl < 16) : GoodResult (v, fl) := ⟨hv, hfl⟩

theorem toSigned_inWord (n : Nat) : InWord (toSigned 32 n) := by
  have hlt : n % 2 ^ 32 < 2 ^ 32 := Nat.mod_lt _ (Nat.two_pow_pos _)
  unfold toSigned InWord
  dsimp only
  split <;> omega

theorem satV_good (v : Int) : GoodResult (satV v) := by
  unfold satV
  split
  · exact goodResult_mk (by unfold InWord; decide) (by decide)
  · split
    · exact goodResult_mk (by unfold InWord; decide) (by decide)
    · exact goodResult_mk (by unfold InWord; omega) (by decide)

theorem divZero_good (v : Int) : GoodResult (divZero v) := by
  refine goodResult_mk ?_ (by decide)
  unfold InWord
  split
  · decide
  · split <;> decide

/-- An arithmetic shift to the right brings no number further from 0. -/
theorem shiftRight_inWord {a : Int} (ha : InWord a) (n : Nat) : InWord (a / ((2 ^ n : Nat) : Int)) := by
  obtain ⟨hlow, hhigh⟩ := ha
  have hpos : (0 : Int) < ((2 ^ n : Nat) : Int) := by exact_mod_cast Nat.two_pow_pos n
  constructor
  · rw [Int.le_ediv_iff_mul_le hpos]
    nlinarith
  · exact Int.le_of_lt_add_one ((Int.ediv_lt_iff_lt_mul hpos).mpr (by nlinarith))

/-- One operation keeps within 32 bits and within the four flags (Table 10.2). -/
theorem recipeOp_good (lut : Nat → Int → Option (Int × Bool)) (op q n : Nat) {k1 k2 a : Int} (hk1 : InWord k1) (hk2 : InWord k2)
    (ha : InWord a) : GoodResult (recipeOp lut op q n k1 k2 a) := by
  unfold recipeOp
  split
  · exact satV_good _
  · exact satV_good _
  · exact satV_good _
  · split
    · exact divZero_good _
    · exact satV_good _
  · split
    · exact divZero_good _
    · exact satV_good _
  · exact satV_good _
  · exact goodResult_mk (toSigned_inWord _) (by decide)
  · exact satV_good _
  · exact goodResult_mk (toSigned_inWord _) (by decide)
  · exact goodResult_mk (shiftRight_inWord ha _) (by decide)
  · have hpos : (0 : Int) < ((2 ^ (n - 1) : Nat) : Int) := by exact_mod_cast Nat.two_pow_pos _
    obtain ⟨hlow, hhigh⟩ := id ha
    dsimp only
    split
    · exact goodResult_mk ⟨by omega, by omega⟩ (by decide)
    · split
      · exact goodResult_mk ⟨by omega, by omega⟩ (by decide)
      · exact goodResult_mk ha (by decide)
  · refine goodResult_mk ?_ (by split <;> decide)
    unfold InWord at *
    omega
  · split
    · exact goodResult_mk ha (by decide)
    next y out _ =>
      obtain ⟨hvalue, hflag⟩ := satV_good y
      exact goodResult_mk hvalue (Nat.or_lt_two_pow (n := 4) hflag (by cases out <;> decide))
  · exact goodResult_mk ha (by decide)

theorem runSteps_good (lut : Nat → Int → Option (Int × Bool)) (sts : List Step) {a : Int} {fl : Nat} (ha : InWord a)
    (hfl : fl < 16) : GoodResult (runSteps lut sts a fl) := by
  induction sts generalizing a fl with
  | nil => exact goodResult_mk ha hfl
  | cons st rest ih =>
    obtain ⟨hvalue, hflag⟩ := recipeOp_good lut (bitsOf st.w0 24 8) (bitsOf st.w0 8 5) (bitsOf st.w0 0 8)
      (toSigned_inWord st.k1) (toSigned_inWord st.k2) ha
    exact ih hvalue (Nat.or_lt_two_pow (n := 4) hfl hflag)

/-! ### What the steps read -/

theorem recipeSteps_congr {look look' : Field → Nat → Nat → Nat} {x : Nat}
    (hcount : look' F.GR_R_CFG_COUNT x 0 = look F.GR_R_CFG_COUNT x 0)
    (hstep : ∀ j, j < 32 → look' F.GR_STEP x j = look F.GR_STEP x j) : recipeSteps look' x = recipeSteps look x := by
  unfold recipeSteps
  rw [hcount]
  refine List.map_congr_left fun j hj => ?_
  have hj := List.mem_range.mp hj
  rw [hstep _ (by omega), hstep _ (by omega), hstep _ (by omega)]

theorem splineNow_congr (h : ∀ (f : Field) i j, 0x400F8000 ≤ f.base → t.snap f i j = s.snap f i j) :
    splineNow t = splineNow s := by
  funext n x
  have hk : t.snap F.FE_SPL_K_K n = s.snap F.FE_SPL_K_K n := h _ n 0 (by decide)
  have hknots : knots (fun f i j => t.snap f i j) n = knots (fun f i j => s.snap f i j) n := by
    simp (disch := decide) only [knots, h]
  rw [splineNow, hk, hknots, splineNow]

/-! ### RECIPE_EVALUATE (R375–R379) -/

/-- The registers in which an evaluation shows: the result, its flags, and the sticky flags. -/
def recipeShown (s : State) (x res fl : Nat) : State :=
  let s := ((s.put F.GR_R_STAT_FLAGS fl x).put F.GR_R_STAT_AGE 0 x).put F.GR_R_OUT res x
  let s := s.put F.GR_R_FLAGS (s.get F.GR_R_FLAGS x ||| fl) x
  s.put F.GR_EVENT (s.get F.GR_EVENT ||| fl * 2 ^ 3)

/-- The fields that it writes. -/
def recipeFields (x : Nat) : List (Nat × Nat × Nat) :=
  [F.GR_R_STAT_FLAGS.at x, F.GR_R_STAT_AGE.at x, F.GR_R_OUT.word x, F.GR_R_FLAGS.word x, F.GR_EVENT.word]

theorem recipeShown_only (s : State) (x res fl : Nat) : Only (recipeFields x) s (recipeShown s x res fl) := by
  have hput (t : State) (f : Field) (v i : Nat) (hf : f.at i ∈ recipeFields x) : Only (recipeFields x) t (t.put f v i) :=
    only_put hf
  exact ((((hput s F.GR_R_STAT_FLAGS _ x (by simp [recipeFields])).trans
    (hput _ F.GR_R_STAT_AGE _ x (by simp [recipeFields]))).trans
    (hput _ F.GR_R_OUT _ x (by simp [recipeFields, Field.at, Field.word, F.GR_R_OUT]))).trans
    (hput _ F.GR_R_FLAGS _ x (by simp [recipeFields, Field.at, Field.word, F.GR_R_FLAGS]))).trans
    (hput _ F.GR_EVENT _ 0 (by simp [recipeFields, Field.at, Field.word, F.GR_EVENT]))

theorem recipeShown_shows (s : State) (x res fl : Nat) :
    (recipeShown s x res fl).get F.GR_R_OUT x = res % 2 ^ 32 ∧ (recipeShown s x res fl).get F.GR_R_STAT_FLAGS x = fl % 16 ∧
    (recipeShown s x res fl).get F.GR_R_STAT_AGE x = 0 ∧
    (recipeShown s x res fl).get F.GR_R_FLAGS x = (s.get F.GR_R_FLAGS x ||| fl) % 2 ^ 32 ∧
    (recipeShown s x res fl).get F.GR_EVENT = (s.get F.GR_EVENT ||| fl * 2 ^ 3) % 2 ^ 32 := by
  simp (disch := decide) only [recipeShown, get_put_grEvent, get_grEvent_put, get_put_apart, State.get_put]
  exact ⟨rfl, rfl, rfl, rfl, rfl⟩

/-- Every step word of the recipe passes its check (R667). -/
theorem recipeCheck_clean (h : GrClean s) (x : Fin 64) : recipeCheck s x = (s, true) := by
  refine List.foldlRecOn (motive := fun r => r = (s, true)) _ _ rfl fun r hr i hi => ?_
  have hi : i < 2 * min (s.snap F.GR_R_CFG_COUNT x) 8 := List.mem_range.mp hi
  have hcheck : eccCheck s (F.GR_STEP.addr x (2 * i)) = (s, 0) :=
    eccCheck_grClean h (by simp only [F.GR_STEP, Field.addr]; omega) (by simp only [F.GR_STEP, Field.addr]; omega)
  simp [hr, hcheck]

/-- The recipe is on and its input admissible when an input is due. -/
theorem recipeInErr_of_input {x upto : Nat} {i : Input × Option MadeT} {rest : List (Input × Option MadeT)}
    (hin : recipeInputs s x upto = i :: rest) : recipeInErr s x = s := by
  have hgood : ¬ (!recipeOn s x || !recipeAdmissible s x) = true := fun hbad => by
    rw [recipeInputs, if_pos hbad] at hin
    exact List.cons_ne_nil _ _ hin.symm
  simp only [Bool.or_eq_true, Bool.not_eq_true', not_or, Bool.not_eq_false] at hgood
  rw [recipeInErr, hgood.1, hgood.2]
  rfl

/-- What the steps of recipe x give on the value `v`, on the words of the local frame in progress. -/
def recipeResult (s : State) (x v : Nat) : Int × Nat :=
  runSteps (splineNow s) (recipeSteps (fun f i j => s.snap f i j) x) (toSigned 32 v) 0

/-- The recipe with an input consumed. -/
def recipeTaken (s : State) (x : Nat) (i : Input) : State := s.modRecipe x fun r => { r with seen := i.base + 1 }

theorem recipeResult_taken (s : State) (x v : Nat) (i : Input) : recipeResult (recipeTaken s x i) x v = recipeResult s x v := by
  have hsnap (f : Field) (m l : Nat) : (recipeTaken s x i).snap f m l = s.snap f m l := rfl
  rw [recipeResult, splineNow_congr fun f m l _ => hsnap f m l, recipeSteps_congr (hsnap _ _ _) fun j _ => hsnap _ _ _,
    recipeResult]

/-- A recipe whose step words pass their check shows its result, and the tributaries that it feeds are fresh. -/
theorem recipeTake_of_check {x : Nat} {i : Input × Option MadeT} (h : recipeCheck (recipeTaken s x i.1) x = (u, true)) :
    ∃ m : RecipeX → RecipeX, (∀ y, (m y).seen = y.seen) ∧ recipeTake s x i =
      markFresh ((recipeShown u x (ofSigned 32 (recipeResult u x i.1.value).1) (recipeResult u x i.1.value).2).modRecipe
        x m) 3 x := by
  unfold recipeTaken at h
  simp only [recipeTake, h, Bool.not_true, Bool.false_eq_true, if_false]
  refine ⟨_, ?_, rfl⟩
  intro y
  rfl

section
variable {x : Fin 64} {i : Input} {m : Option MadeT} {rest : List (Input × Option MadeT)}

theorem recipeNow_eq (hclean : GrClean s) (hin : recipeInputs s x frameCycles = (i, m) :: rest) :
    ∃ out : RecipeX → RecipeX, (∀ y, (out y).seen = y.seen) ∧ recipeNow s x =
      markFresh ((recipeShown (recipeTaken s x i) x (ofSigned 32 (recipeResult s x i.value).1)
        (recipeResult s x i.value).2).modRecipe x out) 3 x := by
  have hclean' : GrClean (recipeTaken s x i) := hclean
  obtain ⟨out, hseen, htake⟩ := recipeTake_of_check (i := (i, m)) (recipeCheck_clean hclean' x)
  rw [recipeResult_taken] at htake
  have hnow : recipeNow s x = recipeTake s x (i, m) := by simp only [recipeNow, recipeInErr_of_input hin, hin]
  exact ⟨out, hseen, hnow.trans htake⟩

/-- The registers and the rest of an evaluated recipe, whatever is made of its other records. -/
theorem recipeShown_marked {out : RecipeX → RecipeX} {res fl : Nat}
    (ht : t = markFresh ((recipeShown (recipeTaken s x i) x res fl).modRecipe x out) 3 x) :
    t = { s with regs := t.regs, gr.recipe := t.gr.recipe, xc.trib := t.xc.trib } ∧
      RegsKept (recipeFields x ++ ageFields) s t := by
  have honly := recipeShown_only (recipeTaken s x i) x res fl
  generalize recipeShown (recipeTaken s x i) x res fl = w at ht honly
  obtain ⟨hrest, hkept⟩ := honly
  subst ht
  constructor
  · rw [markFresh_rest, hrest]
    rfl
  · have hwrite : RegsKept (recipeFields x ++ ageFields) s (w.modRecipe x out) :=
      (hkept.mono fun _ => List.mem_append_left _).trans (RegsKept.of_regs rfl)
    exact hwrite.trans ((markFresh_kept _ _ _).mono fun _ => List.mem_append_right _)

theorem recipeX_marked (out : RecipeX → RecipeX) (res fl : Nat) :
    (markFresh ((recipeShown (recipeTaken s x i) x res fl).modRecipe x out) 3 x).recipeX x =
      out ((recipeTaken s x i).recipeX x) := by
  rw [markFresh_rest]
  exact State.recipeX_modRecipe _ _ _

theorem recipeEvaluate_evaluates (ha : s.Awake) (hclean : GrClean s) (hin : recipeInputs s x frameCycles = (i, m) :: rest) :
    Gives (.recipeEvaluate x) s fun t =>
      t.get F.GR_R_OUT x = ofSigned 32 (recipeResult s x i.value).1 ∧
      t.get F.GR_R_STAT_FLAGS x = (recipeResult s x i.value).2 % 16 ∧ t.get F.GR_R_STAT_AGE x = 0 ∧
      t.get F.GR_R_FLAGS x = (s.get F.GR_R_FLAGS x ||| (recipeResult s x i.value).2) % 2 ^ 32 ∧
      (t.recipeX x).seen = i.base + 1 ∧
      t.get F.GR_EVENT = (s.get F.GR_EVENT ||| (recipeResult s x i.value).2 * 2 ^ 3) % 2 ^ 32 ∧
      t = { s with regs := t.regs, gr.recipe := t.gr.recipe, xc.trib := t.xc.trib } ∧
      RegsKept (recipeFields x ++ ageFields) s t := by
  obtain ⟨out, hseen, hnow⟩ := recipeNow_eq hclean hin
  have hexec : exec (.recipeEvaluate x) s = act s (recipeNow s x) := rfl
  obtain ⟨hrest, hkept⟩ := recipeShown_marked hnow
  have hread {f : Field} (p : Nat) (hf : 0x40060000 ≤ f.base) : (recipeNow s x).get f p =
      (recipeShown (recipeTaken s x i) x (ofSigned 32 (recipeResult s x i.value).1) (recipeResult s x i.value).2).get f p := by
    rw [hnow, get_markFresh_gr _ _ _ _ hf, State.modRecipe_get]
  obtain ⟨hout, hflags, hage, hsticky, hevent⟩ := recipeShown_shows (recipeTaken s x i) x
    (ofSigned 32 (recipeResult s x i.value).1) (recipeResult s x i.value).2
  refine gives_of_act ha hexec (by rw [hrest]; exact ha.2) ⟨?_, ?_, ?_, ?_, ?_, ?_, hrest, hkept⟩
  · rw [hread _ (by decide), hout, Nat.mod_eq_of_lt (ofSigned_lt _)]
  · rw [hread _ (by decide), hflags]
  · rw [hread _ (by decide), hage]
  · rw [hread _ (by decide), hsticky, recipeTaken, State.modRecipe_get]
  · rw [hnow, recipeX_marked, hseen, recipeTaken, State.recipeX_modRecipe]
  · rw [hread _ (by decide), hevent, recipeTaken, State.modRecipe_get]

end

end Sys2Proof.Machine
end

section
/-!
PROOFS. GR_RECIPE_LOAD and GR_RECIPE_TEST (R381, R383, R384).
-/
namespace Sys2Proof.Machine

variable {s t u : State} {k : Pkt} {f : Nat}

/-! ### The step words in the register table (R377, R385) -/

/-- The bits of step word `j` that a write takes up. -/
def stepMask (j : Nat) : Word := if j % 4 = 0 then 0xFF001FFF else if j % 4 = 3 then 0 else 0xFFFFFFFF

theorem specAt_step (x : Fin 64) (j : Fin 32) :
    ∃ r, specAt (F.GR_STEP.addr x j) = some r ∧ r.rw = (stepMask j).toNat ∧ r.w1c = 0 := by
  have hall : ∀ (x : Fin 64) (j : Fin 32),
      (specAt (F.GR_STEP.addr x j)).any (fun r => r.rw == (stepMask j).toNat && r.w1c == 0) = true := by decide +kernel
  obtain ⟨r, hspec, hr⟩ := specAt_of_any (hall x j)
  simp only [Bool.and_eq_true, beq_iff_eq] at hr
  exact ⟨r, hspec, hr⟩

/-- A word written through a mask, the other bits as they stood. -/
theorem mergeWrite_eq {r : RegSpec} {m : Word} (hrw : r.rw = m.toNat) (hw1c : r.w1c = 0) (old v : Word) :
    BitVec.ofNat 32 (mergeWrite r old.toNat v.toNat) = (v &&& m) ||| (old &&& ~~~m) := by
  refine BitVec.eq_of_getLsbD_eq fun b hb => ?_
  rw [BitVec.getLsbD_ofNat, testBit_mergeWrite _ _ _ hb hw1c, hrw, BitVec.getLsbD_or, BitVec.getLsbD_and, BitVec.getLsbD_and,
    BitVec.getLsbD_not, BitVec.getLsbD, BitVec.getLsbD, BitVec.getLsbD]
  cases m.toNat.testBit b <;> simp [hb]

/-! ### The words of a recipe stored (R383) -/

/-- Step word `i` of recipe `x` stored from a list of words, 0 past its end. -/
def stepStored (x : Nat) (ws : List Word) (i : Nat) (s : State) : State :=
  eccWritten (storeWord s (F.GR_STEP.addr x i) (ws.getD i 0).toNat) (F.GR_STEP.addr x i)

/-- The step words of a recipe. -/
def stepFields (x : Nat) : List (Nat × Nat × Nat) := (List.range 32).map fun j => F.GR_STEP.word x j

theorem BadWordsMove.trans (h : BadWordsMove s t) (h' : BadWordsMove t u) : BadWordsMove s u := by
  unfold BadWordsMove at *
  rw [h', h]

theorem Only.badWordsMove {fs : List (Nat × Nat × Nat)} (h : Only fs s t) : BadWordsMove s t := by
  rw [BadWordsMove, h.1]

theorem eccWritten_moves (s : State) (a : Nat) : BadWordsMove s (eccWritten s a) := rfl

theorem stepStored_moves (x : Nat) (ws : List Word) {i : Nat} (hi : i < 32) (s : State) :
    BadWordsMove s (stepStored x ws i s) ∧ RegsKept (stepFields x) s (stepStored x ws i s) := by
  have hword := storeWord_only s (F.GR_STEP.addr x i) (ws.getD i 0).toNat
  have hmem : F.GR_STEP.word x i ∈ stepFields x := List.mem_map_of_mem (f := fun j => F.GR_STEP.word x j) (List.mem_range.mpr hi)
  exact ⟨hword.badWordsMove.trans (eccWritten_moves _ _),
    (hword.2.mono fun g hg => List.mem_singleton.mp hg ▸ hmem).trans (RegsKept.of_regs rfl)⟩

theorem stepStored_reg (x : Fin 64) (ws : List Word) (i j : Fin 32) (s : State) :
    (stepStored x ws i s).reg (F.GR_STEP.addr x j) =
      if j = i then (ws.getD i 0 &&& stepMask i) ||| (s.reg (F.GR_STEP.addr x i) &&& ~~~stepMask i)
      else s.reg (F.GR_STEP.addr x j) := by
  obtain ⟨r, hspec, hrw, hw1c⟩ := specAt_step x i
  rw [stepStored, reg_eccWritten, storeWord_eq s _ hspec]
  split
  next heq => rw [heq, State.reg_setReg, mergeWrite_eq hrw hw1c]
  next hne =>
    refine State.reg_setReg_other _ _ ?_
    simp only [F.GR_STEP, Field.addr]
    omega

/-- The first `n` step words of recipe `x` stored. -/
def stepsStored (x : Nat) (ws : List Word) (n : Nat) (s : State) : State := forN n (stepStored x ws) s

theorem stepsStored_moves (x : Nat) (ws : List Word) {n : Nat} (hn : n ≤ 32) (s : State) :
    BadWordsMove s (stepsStored x ws n s) ∧ RegsKept (stepFields x) s (stepsStored x ws n s) := by
  refine forN_keeps (fun t => BadWordsMove s t ∧ RegsKept (stepFields x) s t) n _ (fun i hi t ht => ?_) s ⟨rfl, RegsKept.refl s⟩
  obtain ⟨hmove, hkept⟩ := stepStored_moves x ws (show i < 32 by omega) t
  exact ⟨ht.1.trans hmove, ht.2.trans hkept⟩

theorem stepsStored_reg (x : Fin 64) (ws : List Word) {n : Nat} (hn : n ≤ 32) (j : Fin 32) (s : State) :
    (stepsStored x ws n s).reg (F.GR_STEP.addr x j) =
      if j.val < n then (ws.getD j 0 &&& stepMask j) ||| (s.reg (F.GR_STEP.addr x j) &&& ~~~stepMask j)
      else s.reg (F.GR_STEP.addr x j) := by
  induction n with
  | zero => rfl
  | succ n ih =>
    have hstep := stepStored_reg x ws ⟨n, hn⟩ j (stepsStored x ws n s)
    rw [stepsStored, forN_succ]
    refine hstep.trans ?_
    by_cases heq : j = ⟨n, hn⟩
    · subst heq
      rw [if_pos rfl, if_pos (Nat.lt_succ_self n), ih (Nat.le_of_succ_le hn), if_neg (Nat.lt_irrefl n)]
    · have hne : j.val ≠ n := fun h => heq (Fin.ext h)
      rw [if_neg heq, ih (Nat.le_of_succ_le hn)]
      simp only [show j.val < n ↔ j.val < n + 1 by omega]

/-- A recipe loaded: its step words, and COUNT. -/
def recipeLoaded (s : State) (x : Nat) (ws : List Word) (n : Nat) : State := (stepsStored x ws 32 s).put F.GR_R_CFG_COUNT n x

/-- The fields that a load writes. -/
def recipeLoadFields (x : Nat) : List (Nat × Nat × Nat) := [F.GR_R_CFG_COUNT.at x] ++ stepFields x

theorem recipeLoaded_moves (s : State) (x : Nat) (ws : List Word) (n : Nat) :
    BadWordsMove s (recipeLoaded s x ws n) ∧ RegsKept (recipeLoadFields x) s (recipeLoaded s x ws n) := by
  obtain ⟨hmove, hkept⟩ := stepsStored_moves x ws (Nat.le_refl 32) s
  have hcount : Only (recipeLoadFields x) (stepsStored x ws 32 s) (recipeLoaded s x ws n) := only_put List.mem_cons_self
  exact ⟨hmove.trans hcount.badWordsMove, (hkept.mono fun _ => List.mem_cons_of_mem _).trans hcount.2⟩

theorem recipeLoaded_count (s : State) (x : Nat) (ws : List Word) {n : Nat} (hn : n ≤ 8) :
    (recipeLoaded s x ws n).get F.GR_R_CFG_COUNT x = n :=
  get_put_same _ _ _ (by decide) (lt_of_le_of_lt hn (by decide))

theorem recipeLoaded_step (s : State) (x : Fin 64) (ws : List Word) (n : Nat) (j : Fin 32) :
    (recipeLoaded s x ws n).reg (F.GR_STEP.addr x j) =
      (ws.getD j 0 &&& stepMask j) ||| (s.reg (F.GR_STEP.addr x j) &&& ~~~stepMask j) := by
  rw [recipeLoaded, State.reg_put_other _ _ _ _ _ (by simp only [F.GR_STEP, F.GR_R_CFG_COUNT, Field.addr]; omega),
    stepsStored_reg x ws (Nat.le_refl 32) j s, if_pos j.isLt]

/-! ### Steps in the parameters (R383) -/

/-- The four words of a step. -/
def wordsOfStep (w : Word × Word × Word × Word) : List Word := [w.1, w.2.1, w.2.2.1, w.2.2.2]

theorem stepWords_flatMap (ws : List (Word × Word × Word × Word)) : stepWords (ws.flatMap wordsOfStep) = ws.map wordsOfStep := by
  induction ws with
  | nil => rfl
  | cons w ws ih => rw [List.map_cons, ← ih]; rfl

/-- The parameters of a load. -/
def loadParams (x : Byte) (ws : List (Word × Word × Word × Word)) : List Byte :=
  [x, BitVec.ofNat 8 ws.length] ++ bytesOfWords (ws.flatMap wordsOfStep)

/-- What a load answers, from its first step that R381 refuses. -/
def recipeAnswer (s : State) (x : Nat) (ws : List (Word × Word × Word × Word)) : Option Nat → Out
  | some i => .done s St.badParam (toLE 2 i ++ toLE 4 (((ws.map wordsOfStep).getD i []).headD 0).toNat)
  | none => .done (recipeLoaded s x (ws.flatMap wordsOfStep) ws.length) St.ok
      (toLE 1 (recipeLatency (recipeLoaded s x (ws.flatMap wordsOfStep) ws.length) x))

section
variable {x : Byte} {ws : List (Word × Word × Word × Word)} (hlen : ws.length ≤ 8)
include hlen

theorem lenTied_loadParams : lenTied 1 1 2 16 (loadParams x ws) = true := by
  have hcount : leAt (loadParams x ws) 1 1 = ws.length :=
    leAt_append_toLE_append (w := 1) (by omega) [x] (bytesOfWords (ws.flatMap wordsOfStep))
  have hwords : (ws.flatMap wordsOfStep).length = ws.length * 4 := by
    have hfour : (fun w => (wordsOfStep w).length) = fun _ => 4 := rfl
    rw [List.length_flatMap, hfour, List.map_const', List.sum_replicate, smul_eq_mul]
  have hlength : (loadParams x ws).length = 2 + 16 * ws.length := by
    rw [loadParams, List.length_append, length_bytesOfWords, hwords]
    simp only [List.length_cons, List.length_nil]
    omega
  simp only [lenTied, hcount, hlength, Bool.and_eq_true, Nat.ble_eq, beq_self_eq_true, and_true]
  omega

omit hlen in
theorem loadParams_steps : stepWords (wordsLE ((loadParams x ws).drop 2)) = ws.map wordsOfStep := by
  rw [← stepWords_flatMap, ← wordsLE_bytesOfWords (ws.flatMap wordsOfStep)]
  rfl

/-- What a load with parameters in range does where no lock stands. -/
theorem bodyGrRecipeLoad_eq (hx : x.toNat < 64) (hfree : s.locked 6 = false) : bodyGrRecipeLoad (loadParams x ws) s =
    recipeAnswer s x.toNat ws (ws.findIdx? fun w => stepBad w.1.toNat) := by
  have hrecipe : byteAt (loadParams x ws) 0 = x.toNat := rfl
  have hcount : byteAt (loadParams x ws) 1 = ws.length := Nat.mod_eq_of_lt (show ws.length < 2 ^ 8 by omega)
  have hin : ¬ (63 < x.toNat ∨ 8 < ws.length) := by omega
  have hflat : (ws.map wordsOfStep).flatMap (fun st => st) = ws.flatMap wordsOfStep := List.flatMap_map _ _ _
  have hbad : (ws.map wordsOfStep).findIdx? (fun st => stepBad (st.headD 0).toNat) = ws.findIdx? fun w => stepBad w.1.toNat :=
    List.findIdx?_map
  simp only [bodyGrRecipeLoad, hrecipe, hcount, loadParams_steps, if_neg hin, hfree, Bool.false_eq_true, if_false, hflat, hbad]
  cases ws.findIdx? (fun w => stepBad w.1.toNat) <;> rfl

end

/-! ### GR_RECIPE_LOAD (R383) -/

/-- LATENCY depends on COUNT and the step words of the recipe alone. -/
theorem recipeLatency_congr {x : Nat} (hcount : t.get F.GR_R_CFG_COUNT x = s.get F.GR_R_CFG_COUNT x)
    (hstep : ∀ j, j < 32 → t.get F.GR_STEP x j = s.get F.GR_STEP x j) : recipeLatency t x = recipeLatency s x :=
  congrArg stepsLatency (recipeSteps_congr hcount hstep)

theorem recipeLoadFields_away (x : Byte) : ∀ g ∈ recipeLoadFields x.toNat, g.1 ∉ [0x40000010, 0x4000000C, 0x40010000] := by
  intro g hg
  rcases List.mem_cons.mp hg with rfl | hstep
  · exact not_mem_answerRegs (by decide)
  · obtain ⟨j, hj, rfl⟩ := List.mem_map.mp hstep
    have hj := List.mem_range.mp hj
    have hbyte : x.toNat < 256 := x.isLt
    simp only [Field.word, F.GR_STEP, Field.addr, List.mem_cons, List.not_mem_nil, or_false]
    omega

section
variable (h : TakesFw s k f) {x : Byte} (hx : x.toNat < 64)
include h hx

omit h in
/-- A step word is none of the registers that an answer moves. -/
theorem reg_step_answered (hanswer : RegsKept answerFields u t) {j : Nat} (hj : j < 32) :
    t.reg (F.GR_STEP.addr x.toNat j) = u.reg (F.GR_STEP.addr x.toNat j) := by
  refine hanswer.reg fun g hg haddr => ?_
  have hbus := (by decide : ∀ g ∈ answerFields, 0x40000000 ≤ g.1) g hg
  simp only [haddr, F.GR_STEP, Field.addr] at hbus
  omega

omit h in
theorem step_not_begunRegs {j : Nat} (hj : j < 32) : F.GR_STEP.addr x.toNat j ∉ begunRegs := by
  simp only [begunRegs, F.GR_STEP, Field.addr, List.mem_cons, List.not_mem_nil, or_false]
  omega

section
variable {ws : List (Word × Word × Word × Word)} (hlen : ws.length ≤ 8) (hfree : s.locked 6 = false)
  (hparams : k.params = loadParams x ws)
include hlen hfree hparams

omit h in
/-- The action of GR_RECIPE_LOAD, in the state in which it begins. -/
theorem runBody_grRecipeLoad : runBody .chain (ownJob s 0x38 k) (begun s 0x38 k) =
    recipeAnswer (begun s 0x38 k) x.toNat ws (ws.findIdx? fun w => stepBad w.1.toNat) :=
  (congrArg (bodyGrRecipeLoad · (begun s 0x38 k)) hparams).trans
    (bodyGrRecipeLoad_eq hlen hx ((begun_locked s 0x38 k 6).trans hfree))

theorem grRecipeLoad_loads (hgood : ∀ w ∈ ws, stepBad w.1.toNat = false) : Gives (.grRecipeLoad k (some f)) s fun t =>
    FwServed f (recipeLoadFields x.toNat) s t k St.ok (toLE 1 (recipeLatency t x.toNat)) ∧
    t.get F.GR_R_CFG_COUNT x.toNat = ws.length ∧
    (∀ j, j < 32 → t.reg (F.GR_STEP.addr x.toNat j) = ((ws.flatMap wordsOfStep).getD j 0 &&& stepMask j) |||
      (s.reg (F.GR_STEP.addr x.toNat j) &&& ~~~stepMask j)) ∧
    t = { s with regs := t.regs, mp := t.mp, ch := t.ch, fa.badWords := t.fa.badWords } := by
  have hbody := runBody_grRecipeLoad hx hlen hfree hparams
  rw [List.findIdx?_eq_none_iff.mpr hgood, recipeAnswer] at hbody
  obtain ⟨hmoves, hkept⟩ := recipeLoaded_moves (begun s 0x38 k) x.toNat (ws.flatMap wordsOfStep) ws.length
  obtain ⟨t, hexec, hserved, hbridge, hanswer⟩ := served_fw_acts (c := .grRecipeLoad k (some f)) h rfl (by decide) rfl rfl
    (hparams ▸ lenTied_loadParams hlen) hbody hmoves.mp (hmoves.chip.trans (begun_chip s 0x38 k)) hkept (recipeLoadFields_away x)
  have hcount := get_answered hanswer F.GR_R_CFG_COUNT (i := x.toNat) (by decide)
  have hstep {j : Nat} (hj : j < 32) := reg_step_answered hx hanswer hj
  rw [← recipeLatency_congr hcount fun j hj => by rw [State.get, State.get, hstep hj]] at hserved
  refine ⟨t, hexec, hserved, hcount.trans (recipeLoaded_count _ _ _ hlen), fun j hj => ?_,
    hmoves.between (begun_busOnly s 0x38 k) hbridge.busOnly⟩
  rw [hstep hj, recipeLoaded_step _ ⟨x.toNat, hx⟩ _ _ ⟨j, hj⟩, begun_reg s 0x38 k (step_not_begunRegs hx hj)]

theorem grRecipeLoad_refuses {i : Nat} {w : Word × Word × Word × Word} (hi : ws[i]? = some w) (hbad : stepBad w.1.toNat = true)
    (hfirst : ∀ j w', j < i → ws[j]? = some w' → stepBad w'.1.toNat = false) : Gives (.grRecipeLoad k (some f)) s fun t =>
    FwServed f [] s t k St.badParam (toLE 2 i ++ toLE 4 w.1.toNat) ∧ BusOnly s t := by
  have hbody := runBody_grRecipeLoad hx hlen hfree hparams
  obtain ⟨hin, hw⟩ := List.getElem?_eq_some_iff.mp hi
  have hindex : ws.findIdx? (fun w => stepBad w.1.toNat) = some i := by
    refine List.findIdx?_eq_some_iff_getElem.mpr ⟨hin, by rw [hw]; exact hbad, fun j hj => ?_⟩
    rw [hfirst j _ hj (List.getElem?_eq_getElem (hj.trans hin))]
    exact Bool.false_ne_true
  have hword : ((ws.map wordsOfStep).getD i []).headD 0 = w.1 := by
    rw [List.getD_eq_getElem?_getD, List.getElem?_map, hi]
    rfl
  rw [hindex, recipeAnswer, hword] at hbody
  exact served_fw_same h rfl (by decide) rfl rfl (hparams ▸ lenTied_loadParams hlen) hbody

end

/-! ### GR_RECIPE_TEST (R384) -/

theorem grRecipeTest_serves {a : Nat} (hparams : k.params = [x] ++ toLE 4 a) (ha : a < 2 ^ 32) :
    Gives (.grRecipeTest k (some f)) s fun t =>
      let r := runSteps (splineNow s) (recipeSteps (fun f i j => s.get f i j) x.toNat) (toSigned 32 a) 0
      FwServed f [] s t k St.ok (toLE 4 (ofSigned 32 r.1) ++ toLE 1 r.2) ∧ BusOnly s t := by
  have hrecipe : byteAt ([x] ++ toLE 4 a) 0 = x.toNat := rfl
  have hvalue : leAt ([x] ++ toLE 4 a) 1 4 = a := leAt_append_toLE (k := 4) ha [x]
  have hsteps : recipeSteps (fun f i j => (begun s 0x39 k).get f i j) x.toNat = recipeSteps (fun f i j => s.get f i j) x.toNat :=
    recipeSteps_congr (begun_get_high s 0x39 k _ _ (by decide)) fun j hj => begun_get s 0x39 k _ (step_not_begunRegs hx hj)
  have hspline : splineNow (begun s 0x39 k) = splineNow s := splineNow_congr fun q i j hq =>
    snap_congr (by rw [begun_eq]; rfl) (by rw [begun_eq])
      (begun_reg s 0x39 k (not_mem_begunRegs (by simp only [Field.addr]; omega)))
  have hin : ¬ 63 < x.toNat := by omega
  refine served_fw_same h rfl (by decide) rfl rfl (by rw [hparams]; rfl) ?_
  change bodyGrRecipeTest k.params (begun s 0x39 k) = _
  rw [hparams, bodyGrRecipeTest]
  simp only [hrecipe, hvalue, hsteps, hspline, if_neg hin]

end

/-- Settles O30: an evaluation by the step words that pass their check, the load and the test by their action in the state in
which the command begins, and the range by induction over the steps. -/
theorem recipes : Obligations.Recipes := by
  unfold Obligations.Recipes
  intro s
  refine ⟨fun ha x i m rest hin hjig hgood => recipeEvaluate_evaluates ha ⟨hjig, hgood⟩ hin,
    fun k f h x hx => ⟨fun ws hlen hfree hparams => ⟨fun hgood => ?_, fun i w hi hbad hfirst =>
      grRecipeLoad_refuses h hx hlen hfree hparams hi hbad hfirst⟩, fun a hparams ha => grRecipeTest_serves h hx hparams ha⟩,
    fun lut sts a hlow hhigh => ?_⟩
  · obtain ⟨t, hexec, hserved, hcount, hsteps, hrest⟩ := grRecipeLoad_loads h hx hlen hfree hparams hgood
    refine ⟨t, hexec, hserved, hcount, fun j m hj hm => ?_, hrest⟩
    rw [hm]
    exact hsteps j hj
  · obtain ⟨⟨hleast, hmost⟩, hflags⟩ := runSteps_good lut sts ⟨hlow, hhigh⟩ (show 0 < 16 by decide)
    exact ⟨hleast, hmost, hflags⟩

end Sys2Proof.Machine
end

section
/-!
PROOFS. What the operations of block QM move: registers, and the block's own records (R172, R397, R403).
-/
namespace Sys2Proof.Machine

variable {s t u : State} {q : Nat}

/-! ### Fields of different queues, and of the block as a whole -/

/-- Fields that share no bit at any one queue, whichever of them is the block's own. -/
def parted (g f : Field) : Bool := apart g f || apart f g

theorem parted_iff {g f : Field} (h : parted g f = true) (p : Nat) :
    (g.at p).1 ≠ f.addr p ∨ (g.at p).2.1 + (g.at p).2.2 ≤ f.lo ∨ f.lo + f.w ≤ (g.at p).2.1 := by
  simp only [parted, apart, Bool.or_eq_true, Bool.and_eq_true, Nat.ble_eq, Nat.blt_eq, beq_iff_eq, bne_iff_ne, or_assoc] at h
  simp only [Field.at, Field.addr, Nat.mul_zero, Nat.add_zero]
  rcases h with h | h | ⟨hs, hb⟩ | ⟨hs, hb⟩ | h | h | ⟨hs, hb⟩ | ⟨hs, hb⟩
  · exact .inr (.inl h)
  · exact .inr (.inr h)
  · exact .inl (by rw [hs]; omega)
  · exact .inl (by rw [hs, Nat.zero_mul]; omega)
  · exact .inr (.inr h)
  · exact .inr (.inl h)
  · exact .inl (by rw [hs]; omega)
  · exact .inl (by rw [hs, Nat.zero_mul]; omega)

/-! ### Registers of one queue -/

/-- A field of the window of registers that each queue has (Table 11.4). -/
def queueField (g : Field) : Bool :=
  g.s1 == 0x40 && Nat.ble 0x40071000 g.base && Nat.blt g.base 0x40071040

/-- Of the registers only the fields `gs` of queue q move, and beside them only the records of block QM. -/
structure QueueMoves (gs : List Field) (q : Nat) (s t : State) : Prop where
  rest : t = { s with regs := t.regs, qm := t.qm }
  kept : RegsKept (placesAt gs q) s t

namespace QueueMoves

variable {gs hs : List Field}

theorem refl (gs : List Field) (q : Nat) (s : State) : QueueMoves gs q s s := ⟨rfl, RegsKept.refl s⟩

theorem put (h : QueueMoves gs q s t) {f : Field} (hf : f ∈ gs) (v : Nat) : QueueMoves gs q s (t.put f v q) :=
  ⟨h.rest ▸ rfl, h.kept.trans (regsKept_put (at_mem_placesAt hf q))⟩

theorem bumpSat (h : QueueMoves gs q s t) {f : Field} (hf : f ∈ gs) (k : Nat) : QueueMoves gs q s (t.bumpSat f k q) := h.put hf _

theorem inQm (h : QueueMoves gs q s t) (m : QmX) : QueueMoves gs q s { t with qm := m } :=
  ⟨h.rest ▸ rfl, h.kept.trans (RegsKept.of_regs rfl)⟩

theorem modQueue (h : QueueMoves gs q s t) (i : Nat) (g : QueueX → QueueX) : QueueMoves gs q s (t.modQueue i g) := h.inQm _

theorem rewrite (h : QueueMoves gs q s t) (i : Nat) : QueueMoves gs q s (Machine.rewrite t i) := h.inQm _

theorem mono (h : QueueMoves gs q s t) (hsub : gs ⊆ hs) : QueueMoves hs q s t := ⟨h.rest, h.kept.mono (List.map_subset _ hsub)⟩

theorem trans (h : QueueMoves gs q s t) (k : QueueMoves gs q t u) : QueueMoves gs q s u :=
  ⟨by rw [k.rest, h.rest], h.kept.trans k.kept⟩

theorem chip (h : QueueMoves gs q s t) : t.chip = s.chip := by rw [h.rest]

theorem fa (h : QueueMoves gs q s t) : t.fa = s.fa := by rw [h.rest]

theorem mp (h : QueueMoves gs q s t) : t.mp = s.mp := by rw [h.rest]

theorem freeIx (h : QueueMoves gs q s t) : t.freeIx = s.freeIx := by rw [h.rest]

theorem get (h : QueueMoves gs q s t) (f : Field) (hf : gs.all (fun g => parted g f) = true) : t.get f q = s.get f q := by
  refine h.kept.get f q 0 fun x hx => ?_
  obtain ⟨g, hg, rfl⟩ := List.mem_map.mp hx
  exact parted_iff (List.all_eq_true.mp hf g hg) q

theorem on (h : QueueMoves gs q s t) (f : Field) (hf : gs.all (fun g => parted g f) = true) : t.on f q = s.on f q :=
  congrArg (· != 0) (h.get f hf)

/-- What lies outside the registers of the queues reads as before. -/
theorem get_outside (h : QueueMoves gs q s t) (hq : q < 64) (hgs : gs.all queueField = true) {f : Field} {i j : Nat}
    (hf : f.addr i j < 0x40071000 ∨ 0x40072000 ≤ f.addr i j) : t.get f i j = s.get f i j := by
  refine h.kept.get f i j fun x hx => .inl fun haddr => ?_
  obtain ⟨g, hg, rfl⟩ := List.mem_map.mp hx
  have hin := List.all_eq_true.mp hgs g hg
  simp only [queueField, Bool.and_eq_true, beq_iff_eq, Nat.ble_eq, Nat.blt_eq] at hin
  obtain ⟨⟨hs, hlow⟩, hhigh⟩ := hin
  rw [← haddr] at hf
  simp only [Field.at, Field.addr, hs] at hf
  omega

theorem noJig (h : QueueMoves gs q s t) (hq : q < 64) (hgs : gs.all queueField = true) {js : List Nat} (hjigs : NoJig js s) :
    NoJig js t := fun j hj => by
  rw [h.get_outside hq hgs (.inr (by simp only [F.FA_JIG_LEFT, Field.addr]; omega)), hjigs j hj]

theorem running (h : QueueMoves gs q s t) (hgs : gs.all (fun g => parted g F.QM_Q_STAT_STATE) = true)
    (hrebuild : t.qm.rebuilding = s.qm.rebuilding) : qRunning t q = qRunning s q := by
  rw [qRunning, h.get _ hgs, hrebuild, qRunning]

end QueueMoves

theorem put_queueMoves (s : State) (f : Field) (v q : Nat) : QueueMoves [f] q s (s.put f v q) :=
  (QueueMoves.refl _ q s).put (List.mem_singleton.mpr rfl) v

theorem get_put_parted (s : State) {g f : Field} (v q : Nat) (h : parted g f = true) : (s.put g v q).get f q = s.get f q :=
  (put_queueMoves s g v q).get f (by simp [h])

theorem get_bumpSat_parted (s : State) {g f : Field} (k q : Nat) (h : parted g f = true) : (s.bumpSat g k q).get f q = s.get f q :=
  get_put_parted s _ q h

/-- A counter stops at all ones (R172). -/
theorem get_bumpSat (s : State) {f : Field} (hf : f.lo + f.w ≤ 32) (k q : Nat) :
    (s.bumpSat f k q).get f q = min (s.get f q + k) (2 ^ f.w - 1) := by
  have hpos := Nat.two_pow_pos f.w
  exact get_put_same s f q hf (by simp only [satAdd]; omega)

/-! ### Counters of 64 bits (R172) -/

/-- The high half of a counter of 64 bits. -/
def highHalf (lo : Field) : Field := { lo with base := lo.base + 4 }

theorem bump64_eq (s : State) (lo : Field) (k q : Nat) :
    s.bump64 lo k q = (s.put lo ((s.get64 lo q + k) % 2 ^ 32) q).put (highHalf lo) ((s.get64 lo q + k) / 2 ^ 32) q := rfl

theorem QueueMoves.bump64 {gs : List Field} (h : QueueMoves gs q s t) {lo : Field} (hlo : lo ∈ gs ∧ highHalf lo ∈ gs) (k : Nat) :
    QueueMoves gs q s (t.bump64 lo k q) := (h.put hlo.1 _).put hlo.2 _

theorem get64_bump64 (s : State) {lo : Field} (hlo : lo.lo = 0 ∧ lo.w = 32) (k q : Nat) :
    (s.bump64 lo k q).get64 lo q = (s.get64 lo q + k) % 2 ^ 64 := by
  obtain ⟨hbit, hwidth⟩ := hlo
  have hne : lo.addr q ≠ (highHalf lo).addr q := by simp only [highHalf, Field.addr]; omega
  have hlow : (s.bump64 lo k q).get lo q = (s.get64 lo q + k) % 2 ^ 32 % 2 ^ 32 := by
    rw [bump64_eq, State.get_put_otherReg _ _ _ _ _ _ _ _ hne, State.get_put _ _ _ _ _ (by omega), hwidth]
  have hhigh : (s.bump64 lo k q).get (highHalf lo) q = (s.get64 lo q + k) / 2 ^ 32 % 2 ^ 32 := by
    rw [bump64_eq, State.get_put _ _ _ _ _ (by simp only [highHalf]; omega)]
    exact congrArg (fun w => _ % 2 ^ w) hwidth
  have hwide : (s.bump64 lo k q).get64 lo q = (s.bump64 lo k q).get lo q + 2 ^ 32 * (s.bump64 lo k q).get (highHalf lo) q := rfl
  rw [hwide, hlow, hhigh]
  omega

theorem get64_congr {lo : Field} (hlow : t.get lo q = s.get lo q) (hhigh : t.get (highHalf lo) q = s.get (highHalf lo) q) :
    t.get64 lo q = s.get64 lo q := congrArg₂ (fun a b => a + 2 ^ 32 * b) hlow hhigh

theorem QueueMoves.get64 {gs : List Field} (h : QueueMoves gs q s t) (lo : Field)
    (hgs : gs.all (fun g => parted g lo && parted g (highHalf lo)) = true) : t.get64 lo q = s.get64 lo q := by
  simp only [List.all_eq_true, Bool.and_eq_true] at hgs
  exact get64_congr (h.get _ (List.all_eq_true.mpr fun g hg => (hgs g hg).1)) (h.get _ (List.all_eq_true.mpr fun g hg => (hgs g hg).2))

/-! ### The two copies compared (R403, R678) -/

theorem queueX_rewrite (s : State) (i q : Nat) : (rewrite s i).queueX q = s.queueX q := rfl

theorem get_rewrite (s : State) (i : Nat) (f : Field) (m l : Nat) : (rewrite s i).get f m l = s.get f m l := rfl

theorem qmCompare_unarmed {j : Nat} (h : s.get F.FA_JIG_LEFT j = 0) (i : Nat) :
    qmCompare s j i = (s, if s.qm.differ.contains i then some false else none) := by
  simp [qmCompare, jigUse, State.jigMask, h]

theorem qmCompare_agree {j i : Nat} (h : s.get F.FA_JIG_LEFT j = 0) (hi : i ∉ s.qm.differ) : qmCompare s j i = (s, none) := by
  rw [qmCompare_unarmed h, if_neg (by simpa using hi)]

theorem qmCompare_differ {j i : Nat} (h : s.get F.FA_JIG_LEFT j = 0) (hi : i ∈ s.qm.differ) :
    qmCompare s j i = (s, some false) := by
  rw [qmCompare_unarmed h, if_pos (by simpa using hi)]

/-! ### The cell pool read with no Jig armed (R667, R678) -/

/-- No word is bad and the checker of the cell pool is not armed. -/
def PoolClean (s : State) : Prop := s.get F.FA_JIG_LEFT 1 = 0 ∧ s.fa.badWords = []

theorem eccCheck_poolClean (h : PoolClean s) {a : Nat} (hlow : 0x20000000 ≤ a) (hhigh : a < 0x20100000) (info : Option Nat) :
    eccCheck s a info = (s, 0) := by
  obtain ⟨hjig, hgood⟩ := h
  have hstored : s.storedErr a = 0 := by rw [State.storedErr, hgood]; rfl
  have hplace : eccPlace s a = some (1, 1, (a - 0x20000000) / 1024) := by
    unfold eccPlace
    dsimp only
    rw [if_neg (by omega), if_neg (by omega), if_pos hhigh]
  have hweight : popCount 8 0 = 0 := by decide
  simp [eccCheck, hplace, hstored, State.jigMask, jigUse, hjig, hweight]

theorem poolCheck_clean (h : PoolClean s) {off : Nat} (hoff : off + 8 < 0x100000) (q : Nat) : poolCheck s q off = (s, false) := by
  simp only [poolCheck, eccCheck_poolClean h (show 0x20000000 ≤ 0x20000000 + off by omega) (by omega),
    eccCheck_poolClean h (show 0x20000000 ≤ 0x20000000 + off + 8 by omega) (by omega)]
  rfl

end Sys2Proof.Machine
end

section
/-!
PROOFS. The words of a queue's packets as its consumer reads them (R398, R401, R403).
-/
namespace Sys2Proof.Machine

variable {s t u : State} {q c : Nat} {p : QPkt} {ps : List QPkt}

/-! ### A packet that lies in one cell -/

/-- Queue q runs, its first packet p lies in cell c with bytes left to read, no Jig that reading meets is armed, no word of the pool is
bad, and the copies that its first word compares agree. -/
structure Readable (s : State) (q : Nat) (p : QPkt) (ps : List QPkt) (c : Nat) : Prop where
  pkts : (s.queueX q).pkts = p :: ps
  cells : p.cells = [c]
  inPool : c < 16384
  aligned : p.read % 16 = 0
  left : p.read < p.len
  fits : p.len ≤ 64
  running : qRunning s q = true
  jigs : NoJig [1, 8, 9, 10] s
  good : s.fa.badWords = []
  link : c ∉ s.qm.differ
  head : headId q ∉ s.qm.differ

theorem OneCell.readable (h : OneCell s q p ps c) : Readable s q p ps c := by
  obtain ⟨hpkts, hcells, hpool, hread, hsome, hfits, -, -, hrun, hjigs, hgood, hdiffer⟩ := h
  exact ⟨hpkts, hcells, hpool, by rw [hread], by omega, hfits, hrun, hjigs, hgood, by simp [hdiffer], by simp [hdiffer]⟩

/-- Copies that its first word does not compare may differ. -/
theorem Readable.differing (h : Readable s q p ps c) {d : List Nat} (hlink : c ∉ d) (hhead : headId q ∉ d) :
    Readable { s with qm.differ := d } q p ps c :=
  ⟨h.pkts, h.cells, h.inPool, h.aligned, h.left, h.fits, h.running, h.jigs, h.good, hlink, hhead⟩

/-- The bytes of the next word of packet p. -/
def wordBytes (p : QPkt) : Nat := min 16 (p.len - p.read)

/-- The record of the queue after the next word of packet p, `rest` being the packets that then wait. -/
def wordTaken (p : QPkt) (rest : List QPkt) (bytes : List Byte) (x : QueueX) : QueueX :=
  { x with
    pkts := rest
    buf := x.buf ++ bytes
    rd := some { x.rd.getD { len := p.len, err := p.err, left := p.len } with left := p.len - (p.read + wordBytes p) } }

theorem wordTaken_eq (p : QPkt) (rest : List QPkt) (bytes : List Byte) : wordTaken p rest bytes = fun x => { x with
    pkts := rest
    buf := x.buf ++ bytes
    rd := some { x.rd.getD { len := p.len, err := p.err, left := p.len } with
      left := p.len - (p.read + min 16 (p.len - p.read)) } } := rfl

/-- What the next word of packet p brings to the consumer. -/
def wordOut (s : State) (q c : Nat) (p : QPkt) (rest : List QPkt) : State :=
  (s.modQueue q (wordTaken p rest (poolBytes s (64 * c + p.read) (wordBytes p)))).bump64 F.QM_Q_DEQ_BYTES_LO (wordBytes p) q

/-- The same where the word is the packet's last: the packet has left the queue, and its cell goes back. -/
def lastOut (s : State) (q c : Nat) (p : QPkt) (ps : List QPkt) : State :=
  let t := wordOut s q c p ps
  cellFreed (t.put F.QM_Q_PKTS (t.get F.QM_Q_PKTS q - 1) q) q c

/-- The copies that the first word of a packet compares are found alike, and its words are good. -/
theorem Readable.sound (h : Readable s q p ps c) : qmCompare s 8 c = (s, none) ∧ qmCompare s 9 (headId q) = (s, none) ∧
    poolCheck s q (64 * c + p.read) = (s, false) := by
  obtain ⟨-, -, hpool, haligned, hleft, hfits, -, hjigs, hgood, hlink, hhead⟩ := h
  exact ⟨qmCompare_agree (hjigs 8 (by decide)) hlink, qmCompare_agree (hjigs 9 (by decide)) hhead,
    poolCheck_clean ⟨hjigs 1 (by decide), hgood⟩ (by omega) q⟩

theorem qReadWord_goesOn (h : Readable s q p ps c) (hmore : p.read + 16 < p.len) :
    qReadWord s q = (wordOut s q c p ({ p with read := p.read + 16 } :: ps), true) := by
  obtain ⟨hlink, hhead, hclean⟩ := h.sound
  obtain ⟨hpkts, hcells, -, -, -, hfits, hrun, -⟩ := h
  have hn : min 16 (p.len - p.read) = 16 := by omega
  have hoff : p.read % 64 = p.read := by omega
  have hdone : (p.read + 16 == p.len) = false := by simp; omega
  have hcell : ((p.read + 16) % 64 == 0) = false := by simp; omega
  simp only [qReadWord, hpkts, hrun, hcells, List.headD_cons, hlink, hhead, ite_self, Bool.not_true, Bool.false_eq_true, if_false,
    Option.or_none, hoff, hclean, hn, hdone, hcell, Bool.or_self, wordOut, wordTaken_eq, wordBytes]

/-- The word that ends the packet also compares the tail of the free list, `o` saying with what outcome. -/
theorem qReadWord_ends (h : Readable s q p ps c) (hlast : p.len ≤ p.read + 16) {o : Option Bool}
    (htail : qmCompare (lastOut s q c p ps) 10 freeTailId = (lastOut s q c p ps, o)) :
    qReadWord s q = (o.elim (lastOut s q c p ps) (freeFault (lastOut s q c p ps)), true) := by
  obtain ⟨hlink, hhead, hclean⟩ := h.sound
  obtain ⟨hpkts, hcells, -, -, hleft, hfits, hrun, -⟩ := h
  have hoff : p.read % 64 = p.read := by omega
  have hdone : (p.read + min 16 (p.len - p.read) == p.len) = true := by simp; omega
  simp only [lastOut, wordOut, wordTaken_eq, wordBytes] at htail ⊢
  simp only [qReadWord, hpkts, hrun, hcells, List.headD_cons, hlink, hhead, ite_self, Bool.not_true, Bool.false_eq_true, if_false,
    Option.or_none, hoff, hclean, hdone, Bool.true_or, if_true, htail]
  cases o <;> rfl

/-! ### What a word read leaves -/

/-- The fields that reading writes. -/
def readFields : List Field := [F.QM_Q_DEQ_BYTES_LO, highHalf F.QM_Q_DEQ_BYTES_LO, F.QM_Q_PKTS, F.QM_Q_STAT_CELLS]

theorem wordOut_moves (s : State) (q c : Nat) (p : QPkt) (rest : List QPkt) : QueueMoves readFields q s (wordOut s q c p rest) :=
  ((QueueMoves.refl readFields q s).modQueue q _).bump64 (by decide) _

theorem cellFreed_moves (s : State) (q c : Nat) : QueueMoves [F.QM_Q_STAT_CELLS] q s (cellFreed s q c) :=
  ((QueueMoves.refl _ q s).inQm _).put List.mem_cons_self _

theorem lastOut_moves (s : State) (q c : Nat) (p : QPkt) (ps : List QPkt) : QueueMoves readFields q s (lastOut s q c p ps) :=
  ((wordOut_moves s q c p ps).put (by decide) _).trans ((cellFreed_moves _ q c).mono (by decide))

theorem queueX_cellFreed (s : State) (q c i : Nat) : (cellFreed s q c).queueX i = s.queueX i := rfl

theorem queueX_bump64 (s : State) (lo : Field) (k q i : Nat) : (s.bump64 lo k q).queueX i = s.queueX i := rfl

theorem queueX_wordOut (s : State) (q c : Nat) (p : QPkt) (rest : List QPkt) : (wordOut s q c p rest).queueX q =
    wordTaken p rest (poolBytes s (64 * c + p.read) (wordBytes p)) (s.queueX q) := State.queueX_modQueue _ _ _

theorem queueX_lastOut (s : State) (q c : Nat) (p : QPkt) (ps : List QPkt) :
    (lastOut s q c p ps).queueX q = (wordOut s q c p ps).queueX q := rfl

theorem wordOut_bytes (s : State) (q c : Nat) (p : QPkt) (rest : List QPkt) :
    (wordOut s q c p rest).get64 F.QM_Q_DEQ_BYTES_LO q =
      (s.get64 F.QM_Q_DEQ_BYTES_LO q + wordBytes p) % 2 ^ 64 :=
  get64_bump64 _ (by decide) _ _

/-- Bytes read do not count packets or cells. -/
theorem wordOut_held (s : State) (q c : Nat) (p : QPkt) (rest : List QPkt) {f : Field}
    (hf : [F.QM_Q_DEQ_BYTES_LO, highHalf F.QM_Q_DEQ_BYTES_LO].all (fun g => parted g f) = true) : (wordOut s q c p rest).get f q = s.get f q := by
  have hmoves : QueueMoves [F.QM_Q_DEQ_BYTES_LO, highHalf F.QM_Q_DEQ_BYTES_LO] q s (wordOut s q c p rest) :=
    ((QueueMoves.refl _ q s).modQueue q _).bump64 (by decide) _
  exact hmoves.get f hf

theorem cellFreed_cells (s : State) (q c : Nat) : (cellFreed s q c).get F.QM_Q_STAT_CELLS q = s.get F.QM_Q_STAT_CELLS q - 1 :=
  get_put_same _ _ _ (by decide) (lt_of_le_of_lt (Nat.sub_le _ _) (State.get_lt s F.QM_Q_STAT_CELLS q 0))

theorem lastOut_bytes (s : State) (q c : Nat) (p : QPkt) (ps : List QPkt) :
    (lastOut s q c p ps).get64 F.QM_Q_DEQ_BYTES_LO q =
      (s.get64 F.QM_Q_DEQ_BYTES_LO q + wordBytes p) % 2 ^ 64 := by
  rw [lastOut, (cellFreed_moves _ q c).get64 _ (by decide), (put_queueMoves _ _ _ q).get64 _ (by decide), wordOut_bytes]

theorem lastOut_held (s : State) (q c : Nat) (p : QPkt) (ps : List QPkt) :
    (lastOut s q c p ps).get F.QM_Q_STAT_CELLS q = s.get F.QM_Q_STAT_CELLS q - 1 ∧
    (lastOut s q c p ps).get F.QM_Q_PKTS q = s.get F.QM_Q_PKTS q - 1 := by
  constructor
  · rw [lastOut, cellFreed_cells, get_put_parted _ _ _ (by decide), wordOut_held _ _ _ _ _ (by decide)]
  · rw [lastOut, (cellFreed_moves _ q c).get _ (by decide), get_put_same _ _ _ (by decide), wordOut_held _ _ _ _ _ (by decide)]
    exact lt_of_le_of_lt (Nat.sub_le _ _) (State.get_lt _ F.QM_Q_PKTS q 0)

end Sys2Proof.Machine
end

section
/-!
PROOFS. QUEUE_READ (R397, R401, R403).
-/
namespace Sys2Proof.Machine

variable {s t u : State} {q : Fin 64} {c : Nat} {p : QPkt} {ps : List QPkt} {upset : PtrUpset}

theorem exec_queueRead (h : OneCell s q p ps c) (hcons : hasConsumer s q = true) :
    exec (.queueRead q upset) s = act s (qReadWord (ptrUpset s upset c (headId q) freeTailId) q).1 := by
  obtain ⟨hpkts, hcells, -, -, -, -, hrd, -, hrun, -⟩ := h
  have hexec : exec (.queueRead q upset) s = execQueueRead q upset s := rfl
  simp [hexec, execQueueRead, hpkts, hcells, hrd, hrun, hcons]

/-- QUEUE_READ of a queue without a consumer reads nothing. -/
theorem queueRead_unconsumed (ha : s.Awake) (hcons : hasConsumer s q = false) :
    Gives (.queueRead q upset) s fun t => t = s := by
  have hexec : exec (.queueRead q upset) s = execQueueRead q upset s := rfl
  exact gives_of_act ha (by simp [hexec, execQueueRead, hcons]) ha.2 rfl

theorem lastOut_noJig (h : NoJig [1, 8, 9, 10] s) (q : Fin 64) (c : Nat) (p : QPkt) (ps : List QPkt) :
    (lastOut s q c p ps).get F.FA_JIG_LEFT 10 = 0 :=
  (lastOut_moves s q c p ps).noJig q.isLt (by decide) h 10 (by decide)

theorem differ_lastOut (s : State) (q c : Nat) (p : QPkt) (ps : List QPkt) :
    (lastOut s q c p ps).qm.differ = s.qm.differ.filter fun i => i != c := rfl

/-- The last word of a packet, the copies of the free list's tail being alike. -/
theorem qReadWord_last (h : Readable s q p ps c) (hlast : p.len ≤ p.read + 16) (htail : freeTailId ∉ s.qm.differ) :
    qReadWord s q = (lastOut s q c p ps, true) := by
  refine qReadWord_ends h hlast (o := none) (qmCompare_agree (lastOut_noJig h.jigs q c p ps) ?_)
  rw [differ_lastOut]
  exact fun hmem => htail (List.mem_of_mem_filter hmem)

/-- QUEUE_READ with every pointer sound. -/
theorem queueRead_reads (ha : s.Awake) (h : OneCell s q p ps c) (hcons : hasConsumer s q = true) :
    Gives (.queueRead q .sound) s fun t =>
      (t.queueX q).buf = poolBytes s (64 * c) (min 16 p.len) ∧
      t.get64 F.QM_Q_DEQ_BYTES_LO q = (s.get64 F.QM_Q_DEQ_BYTES_LO q + min 16 p.len) % 2 ^ 64 ∧
      (t.queueX q).pkts = (if p.len ≤ 16 then ps else { p with read := 16 } :: ps) ∧
      (16 < p.len → t.get F.QM_Q_STAT_CELLS q = s.get F.QM_Q_STAT_CELLS q) ∧
      (p.len ≤ 16 → t.get F.QM_Q_STAT_CELLS q = (s.get F.QM_Q_STAT_CELLS q - 1) ∧ t.get F.QM_Q_PKTS q = s.get F.QM_Q_PKTS q - 1) ∧
      t = { s with regs := t.regs, qm := t.qm } ∧
      RegsKept (F.QM_Q_DEQ_BYTES_LO.words64 q ++ [F.QM_Q_PKTS.word q, F.QM_Q_STAT_CELLS.at q]) s t := by
  have hread := h.readable
  obtain ⟨-, -, -, hnone, -, -, -, hbuf, -, -, -, hdiffer⟩ := id h
  have hbytes : wordBytes p = min 16 p.len := by rw [wordBytes, hnone, Nat.sub_zero]
  by_cases hlast : p.len ≤ 16
  · have hmoves := lastOut_moves s q c p ps
    obtain ⟨hcells, hpkts⟩ := lastOut_held s q c p ps
    have hword : qReadWord s q = (lastOut s q c p ps, true) := qReadWord_last hread (by omega) (by simp [hdiffer])
    refine gives_of_act ha ((exec_queueRead h hcons).trans (congrArg (act s) (congrArg Prod.fst hword))) (hmoves.chip ▸ ha.2)
      ⟨?_, ?_, ?_, fun hmore => absurd hmore (by omega), fun _ => ⟨hcells, hpkts⟩, hmoves.rest, hmoves.kept⟩
    · rw [queueX_lastOut, queueX_wordOut, wordTaken, hbuf, hnone, hbytes, Nat.add_zero, List.nil_append]
    · rw [lastOut_bytes, hbytes]
    · rw [queueX_lastOut, queueX_wordOut, if_pos hlast]
      rfl
  · have hmoves := wordOut_moves s q c p ({ p with read := 16 } :: ps)
    have hword : qReadWord s q = (wordOut s q c p ({ p with read := 16 } :: ps), true) := by
      rw [qReadWord_goesOn hread (by omega), hnone]
    refine gives_of_act ha ((exec_queueRead h hcons).trans (congrArg (act s) (congrArg Prod.fst hword))) (hmoves.chip ▸ ha.2)
      ⟨?_, ?_, ?_, fun _ => wordOut_held s q c p _ (by decide), fun hless => absurd hless hlast, hmoves.rest, hmoves.kept⟩
    · rw [queueX_wordOut, wordTaken, hbuf, hnone, hbytes, Nat.add_zero, List.nil_append]
    · rw [wordOut_bytes, hbytes]
    · rw [queueX_wordOut, if_neg hlast]
      rfl

/-! ### Copies that differ (R403, R404) -/

/-- Queue q goes to its reset for a pointer fault, and a rebuild begins. -/
def ptrFaulted (s : State) (q : Nat) : State :=
  startRebuild (((s.put F.QM_Q_STAT_STATE 2 q).raiseBit F.QM_EVENT_PTR_FAULT).modQueue q fun x => { x with faulted := true })

theorem ptrFault_eq (s : State) (q : Nat) (inj : Bool) : ptrFault s q inj = raise (ptrFaulted s q) 10 q inj := rfl

theorem startRebuild_shows (s : State) :
    (startRebuild s).get F.QM_STATUS_REBUILDING = 1 ∧ (startRebuild s).qm.rebuilding = true :=
  ⟨State.get_put s F.QM_STATUS_REBUILDING 1 0 0 (by decide), rfl⟩

theorem get_startRebuild (s : State) {f : Field} {i j : Nat} (hf : f.addr i j ≠ 0x40070000) :
    (startRebuild s).get f i j = s.get f i j := State.get_put_otherReg s F.QM_STATUS_REBUILDING f 1 0 0 i j hf

theorem queueX_startRebuild (s : State) (i : Nat) : (startRebuild s).queueX i = s.queueX i := rfl

theorem ptrFaulted_shows (s : State) (q : Fin 64) :
    (ptrFaulted s q).get F.QM_Q_STAT_STATE q = 2 ∧ (ptrFaulted s q).get F.QM_EVENT_PTR_FAULT = 1 ∧
    (ptrFaulted s q).get F.QM_STATUS_REBUILDING = 1 ∧ (ptrFaulted s q).qm.rebuilding = true ∧
    ((ptrFaulted s q).queueX q).faulted = true := by
  obtain ⟨hstatus, hrebuild⟩ := startRebuild_shows
    (((s.put F.QM_Q_STAT_STATE 2 q).raiseBit F.QM_EVENT_PTR_FAULT).modQueue q fun x => { x with faulted := true })
  refine ⟨?_, ?_, hstatus, hrebuild, by rw [ptrFaulted, queueX_startRebuild, State.queueX_modQueue]⟩
  · have hstat : F.QM_Q_STAT_STATE.addr q = 0x40071008 + 0x40 * q := rfl
    rw [ptrFaulted, get_startRebuild _ (by omega), State.modQueue_get, State.raiseBit,
      State.get_put_otherReg _ _ _ _ _ _ _ _ (by rw [hstat]; simp only [F.QM_EVENT_PTR_FAULT, Field.addr]; omega),
      get_put_same _ _ _ (by decide) (by decide)]
  · rw [ptrFaulted, get_startRebuild _ (by decide), State.modQueue_get]
    exact State.get_raiseBit _ _ _ _ (by decide) (by decide)

/-- The first word of a packet with the two copies of its link, or of its queue's head, differing. -/
theorem qReadWord_faults (h : OneCell s q p ps c) {d : Nat} (hd : d = c ∨ d = headId q) :
    qReadWord { s with qm.differ := [d] } q = (ptrFault { s with qm.differ := [d] } q false, false) := by
  obtain ⟨hpkts, hcells, hpool, hread, -, -, -, -, hrun, hjigs, -⟩ := h
  have hpkts' : (State.queueX { s with qm.differ := [d] } q).pkts = p :: ps := hpkts
  have hrun' : qRunning { s with qm.differ := [d] } q = true := hrun
  have h8 := qmCompare_unarmed (s := { s with qm.differ := [d] }) (hjigs 8 (by decide)) c
  have h9 := qmCompare_unarmed (s := { s with qm.differ := [d] }) (hjigs 9 (by decide)) (headId q)
  have hone : (if [d].contains c then some false else none).or (if [d].contains (headId q) then some false else none) =
      some false := by
    have hne : c ≠ headId q := by simp only [headId, poolCells]; omega
    rcases hd with rfl | rfl
    · simp
    · simp [hne]
  simp only [qReadWord, hpkts', hrun', hcells, hread, List.headD_cons, Nat.zero_mod, if_true, h8, h9, hone, Bool.not_true,
    Bool.false_eq_true, if_false]

theorem queueRead_ptrFault (ha : s.Awake) (h : OneCell s q p ps c) (hcons : hasConsumer s q = true)
    (hupset : upset = .link ∨ upset = .queue) : Gives (.queueRead q upset) s fun t => ∃ u,
      t = settle (raise u 10 q) ∧ u.get F.QM_Q_STAT_STATE q = 2 ∧ u.get F.QM_EVENT_PTR_FAULT = 1 ∧
      u.get F.QM_STATUS_REBUILDING = 1 ∧ u.qm.rebuilding = true ∧ (u.queueX q).faulted = true := by
  obtain ⟨-, -, -, -, -, -, -, -, -, -, -, hdiffer⟩ := id h
  have hspoil (i : Nat) : spoil s i = { s with qm.differ := [i] } := by simp [spoil, hdiffer]
  have hword : ∃ d, (qReadWord (ptrUpset s upset c (headId q) freeTailId) q).1 =
      ptrFault { s with qm.differ := [d] } q false := by
    rcases hupset with rfl | rfl
    · exact ⟨c, by rw [ptrUpset, hspoil, qReadWord_faults h (.inl rfl)]⟩
    · exact ⟨headId q, by rw [ptrUpset, hspoil, qReadWord_faults h (.inr rfl)]⟩
  obtain ⟨d, hword⟩ := hword
  refine ⟨_, (exec_queueRead h hcons).trans (act_of_awake ha), ptrFaulted { s with qm.differ := [d] } q, ?_, ptrFaulted_shows _ q⟩
  rw [hword, ptrFault_eq]

theorem queueRead_freeFault (ha : s.Awake) (h : OneCell s q p ps c) (hcons : hasConsumer s q = true) (hlast : p.len ≤ 16) :
    Gives (.queueRead q .free) s fun t => ∃ u,
      t = settle (raise u 11 0) ∧ u.get F.QM_EVENT_FREE_FAULT = 1 ∧ u.get F.QM_STATUS_REBUILDING = 1 ∧
      u.qm.rebuilding = true ∧ (u.queueX q).pkts = ps := by
  obtain ⟨-, -, hpool, -, -, -, -, -, -, hjigs, -, hdiffer⟩ := id h
  have hspoil : spoil s freeTailId = { s with qm.differ := [freeTailId] } := by simp [spoil, hdiffer]
  have hne : c ≠ freeTailId ∧ headId q ≠ freeTailId := by simp only [freeTailId, headId, poolCells]; omega
  have hread : Readable { s with qm.differ := [freeTailId] } q p ps c :=
    h.readable.differing (by simpa using hne.1) (by simpa using hne.2)
  obtain ⟨v, hv⟩ : ∃ v, v = lastOut { s with qm.differ := [freeTailId] } q c p ps := ⟨_, rfl⟩
  have htail : qmCompare v 10 freeTailId = (v, some false) := by
    refine qmCompare_differ (hv ▸ lastOut_noJig hread.jigs q c p ps) ?_
    rw [hv, differ_lastOut]
    simpa using hne.1.symm
  have hword : qReadWord { s with qm.differ := [freeTailId] } q = (freeFault v false, true) := by
    rw [hv] at htail ⊢
    exact qReadWord_ends hread (by omega) htail
  obtain ⟨hstatus, hrebuild⟩ := startRebuild_shows (v.raiseBit F.QM_EVENT_FREE_FAULT)
  refine ⟨_, (exec_queueRead h hcons).trans (act_of_awake ha), startRebuild (v.raiseBit F.QM_EVENT_FREE_FAULT), ?_, ?_, hstatus,
    hrebuild, ?_⟩
  · rw [ptrUpset, hspoil, hword]
    rfl
  · rw [get_startRebuild _ (by decide)]
    exact State.get_raiseBit _ _ _ _ (by decide) (by decide)
  · rw [queueX_startRebuild, State.queueX_raiseBit, hv, queueX_lastOut, queueX_wordOut]
    rfl

end Sys2Proof.Machine
end

section
/-!
PROOFS. EN of a queue, its reset, a rebuild and starvation (R402–R404, R414, Table 11.1).
-/
namespace Sys2Proof.Machine

variable {s t u : State} {q : Fin 64}

/-! ### EN written (R402) -/

theorem specAt_queueCfg (q : Fin 64) : ∃ r, specAt (F.QM_Q_CFG.addr q) = some r ∧ r.rw = 0xB0FF3000 ∧ r.w1c = 0 ∧ r.otp = 0 := by
  have hall : ∀ q : Fin 64, (specAt (F.QM_Q_CFG.addr q)).any (fun r => r.rw == 0xB0FF3000 && r.w1c == 0 && r.otp == 0) = true := by
    decide +kernel
  obtain ⟨r, hspec, hr⟩ := specAt_of_any (hall q)
  simp only [Bool.and_eq_true, beq_iff_eq, and_assoc] at hr
  exact ⟨r, hspec, hr⟩

theorem lockBlock_queueCfg (q : Fin 64) : lockBlock (F.QM_Q_CFG.addr q) = 7 := by
  revert q
  decide

theorem queueCfg_addr (q : Fin 64) : F.QM_Q_CFG.addr q = 0x40071000 + 0x40 * q := rfl

/-- A queue's configuration is refused only where it names a client that the unit has not (R399). -/
theorem judgeQm_cfg (s : State) (q : Fin 64) {v : Nat} (h : bitsOf v 28 2 = 2 → bitsOf v 16 8 ≤ 3) :
    judgeQm s (F.QM_Q_CFG.addr q) v = St.ok := by
  have hout : (bitsOf v 28 2 == 2 && Nat.blt 3 (bitsOf v 16 8)) = false := by
    refine Bool.eq_false_iff.mpr fun hbad => ?_
    simp only [Bool.and_eq_true, beq_iff_eq, Nat.blt_eq] at hbad
    exact absurd (h hbad.1) (by omega)
  rw [queueCfg_addr, judgeQm, if_pos (by omega)]
  dsimp only
  rw [if_pos (by omega), hout]
  rfl

theorem hookQm_cfg (q : Fin 64) (v old : Nat) (s : State) : hookQm (F.QM_Q_CFG.addr q) v old s =
    if bitOf v 31 then
      (if s.get F.QM_Q_STAT_STATE q = 0 && !bitOf old 31 then qPump (s.put F.QM_Q_STAT_STATE 1 q) q else s)
    else qResetStart s q := by
  have hqueue : (0x40071000 + 0x40 * q.val - 0x40071000) / 0x40 = q := by omega
  rw [queueCfg_addr, hookQm, if_pos (by omega), hqueue]

/-- A configuration written with EN changed and all else as it stands. -/
theorem writeQm_en (hfree : s.locked 7 = false) (hclient : s.get F.QM_Q_CFG_PROD_KIND q = 2 → s.get F.QM_Q_CFG_PROD_INDEX q ≤ 3)
    (en : Bool) : writeQm s F.QM_Q_CFG q (insertBits (s.get F.QM_Q_CFG q) 31 1 (b2n en)) =
      if en then
        (if s.get F.QM_Q_STAT_STATE q = 0 && !s.on F.QM_Q_CFG_EN q then
          qPump ((s.put F.QM_Q_CFG_EN (b2n en) q).put F.QM_Q_STAT_STATE 1 q) q
        else s.put F.QM_Q_CFG_EN (b2n en) q)
      else qResetStart (s.put F.QM_Q_CFG_EN (b2n en) q) q := by
  obtain ⟨r, hspec, hrw, hw1c, hotp⟩ := specAt_queueCfg q
  have hword : s.get F.QM_Q_CFG q = (s.reg (F.QM_Q_CFG.addr q)).toNat := get_word s (by decide) q
  have hstored : storeWord s (F.QM_Q_CFG.addr q) (insertBits (s.get F.QM_Q_CFG q) 31 1 (b2n en)) = s.put F.QM_Q_CFG_EN (b2n en) q :=
    storeWord_insertBits (f := F.QM_Q_CFG_EN) (by decide) hspec hw1c rfl (by rw [hrw]; decide) s (b2n en)
  have hjudge : judgeQm s (F.QM_Q_CFG.addr q) (insertBits (s.get F.QM_Q_CFG q) 31 1 (b2n en)) = St.ok := by
    refine judgeQm_cfg s q ?_
    rw [State.bitsOf_insertBits_disjoint _ _ _ _ _ _ (.inl (by decide)), State.bitsOf_insertBits_disjoint _ _ _ _ _ _ (.inl (by decide)),
      hword]
    exact hclient
  have hen : bitOf (insertBits (s.get F.QM_Q_CFG q) 31 1 (b2n en)) 31 = en := by
    rw [bitOf, State.testBit_insertBits, if_pos (by decide)]
    cases en <;> rfl
  have hold : bitOf (s.reg (F.QM_Q_CFG.addr q)).toNat 31 = s.on F.QM_Q_CFG_EN q := by
    have hbit := State.testBit_bitsOf (s.reg (F.QM_Q_CFG.addr q)).toNat 31 1 0
    have hlt : s.get F.QM_Q_CFG_EN q < 2 := State.get_lt s F.QM_Q_CFG_EN q 0
    have hget : s.get F.QM_Q_CFG_EN q = bitsOf (s.reg (F.QM_Q_CFG.addr q)).toNat 31 1 := rfl
    rw [← hget] at hbit
    rw [bitOf, State.on]
    rcases (by omega : s.get F.QM_Q_CFG_EN q = 0 ∨ s.get F.QM_Q_CFG_EN q = 1) with h | h <;> simpa [h] using hbit.symm
  rw [writeQm, writeBy_ok hspec (by rw [lockBlock_queueCfg, hfree, Bool.and_false]) hjudge hotp, hstored, hookQm_cfg, hen, hold,
    get_put_parted _ _ _ (by decide)]

/-- A queue whose producer is none has nothing to write (R397). -/
theorem qPump_idle {q : Nat} (h : s.get F.QM_Q_CFG_PROD_KIND q = 0) : qPump s q = s := by
  unfold qPump
  rw [h]
  rfl

theorem queueEnWrite_on (ha : s.Awake) (hfree : s.locked 7 = false) (hoff : s.get F.QM_Q_STAT_STATE q = 0)
    (hen : s.get F.QM_Q_CFG_EN q = 0) (hprod : s.get F.QM_Q_CFG_PROD_KIND q = 0) : Gives (.queueEnWrite q true) s fun t =>
      t.get F.QM_Q_STAT_STATE q = 1 ∧ t.get F.QM_Q_CFG_EN q = 1 ∧ Only [F.QM_Q_CFG_EN.at q, F.QM_Q_STAT_STATE.at q] s t := by
  have honly : Only [F.QM_Q_CFG_EN.at q, F.QM_Q_STAT_STATE.at q] s ((s.put F.QM_Q_CFG_EN 1 q).put F.QM_Q_STAT_STATE 1 q) :=
    (only_put (by simp)).trans (only_put (by simp))
  have hwrite : writeQm s F.QM_Q_CFG q (insertBits (s.get F.QM_Q_CFG q) 31 1 (b2n true)) =
      (s.put F.QM_Q_CFG_EN 1 q).put F.QM_Q_STAT_STATE 1 q := by
    rw [writeQm_en hfree (by omega), if_pos rfl, if_pos (by simp [hoff, off_of_get hen])]
    exact qPump_idle (by rw [get_put_parted _ _ _ (by decide), get_put_parted _ _ _ (by decide), hprod])
  refine gives_of_act ha (congrArg (act s) hwrite) (honly.resetDue ha) ⟨get_put_same _ _ _ (by decide) (by decide), ?_, honly⟩
  rw [get_put_parted _ _ _ (by decide), get_put_same _ _ _ (by decide) (by decide)]

theorem queueEnWrite_off (ha : s.Awake) (hfree : s.locked 7 = false)
    (hclient : s.get F.QM_Q_CFG_PROD_KIND q = 2 → s.get F.QM_Q_CFG_PROD_INDEX q ≤ 3) : Gives (.queueEnWrite q false) s fun t =>
      t.get F.QM_Q_STAT_STATE q = (if s.get F.QM_Q_STAT_STATE q = 1 then 2 else s.get F.QM_Q_STAT_STATE q) ∧
      t.get F.QM_Q_CFG_EN q = 0 ∧ Only [F.QM_Q_CFG_EN.at q, F.QM_Q_STAT_STATE.at q] s t := by
  have hen : (s.put F.QM_Q_CFG_EN 0 q).get F.QM_Q_CFG_EN q = 0 := get_put_same _ _ _ (by decide) (by decide)
  have hwritten : Only [F.QM_Q_CFG_EN.at q, F.QM_Q_STAT_STATE.at q] s (s.put F.QM_Q_CFG_EN 0 q) := only_put (by simp)
  have hwrite : writeQm s F.QM_Q_CFG q (insertBits (s.get F.QM_Q_CFG q) 31 1 (b2n false)) =
      qResetStart (s.put F.QM_Q_CFG_EN 0 q) q := (writeQm_en hfree hclient false).trans (if_neg Bool.false_ne_true)
  rw [qResetStart, get_put_parted _ _ _ (by decide)] at hwrite
  by_cases hrun : s.get F.QM_Q_STAT_STATE q = 1
  · rw [if_pos hrun] at hwrite ⊢
    have honly := hwritten.trans (only_put (f := F.QM_Q_STAT_STATE) (v := 2) (i := q) (j := 0) (by simp))
    refine gives_of_act ha (congrArg (act s) hwrite) (honly.resetDue ha) ⟨get_put_same _ _ _ (by decide) (by decide), ?_, honly⟩
    rw [get_put_parted _ _ _ (by decide), hen]
  · rw [if_neg hrun] at hwrite ⊢
    exact gives_of_act ha (congrArg (act s) hwrite) (hwritten.resetDue ha) ⟨get_put_parted _ _ _ (by decide), hen, hwritten⟩

/-! ### A queue reset ends (R402) -/

/-- The same result posted for one command after another. -/
theorem forList_postResult {α : Type} (l : List α) (kind : α → JobKind) (st : Nat) (data : List Byte) (s : State) :
    forList l (fun a t => postResult t (kind a) st data) s =
      { s with mp.ready := s.mp.ready ++ l.map fun a => (kind a, st, data) } := by
  induction l generalizing s with
  | nil => simp [forList]
  | cons a l ih =>
    rw [forList, ih]
    simp [postResult]

/-- The cells of queue q's lists go back to the free list. -/
def cellsFreed (s : State) (q : Nat) : State := forList (s.queueX q).cells (fun c s => cellFreed s q c) s

theorem cellsFreed_moves (s : State) (q : Nat) : QueueMoves [F.QM_Q_STAT_CELLS] q s (cellsFreed s q) :=
  forList_keeps (QueueMoves [F.QM_Q_STAT_CELLS] q s) _ _ (fun c _ _ h => h.trans (cellFreed_moves _ q c)) s (QueueMoves.refl _ q s)

theorem queueX_cellsFreed (s : State) (q i : Nat) : (cellsFreed s q).queueX i = s.queueX i :=
  forList_keeps (fun t => t.queueX i = s.queueX i) _ _ (fun c _ t h => (queueX_cellFreed t q c i).trans h) s rfl

/-- The registers of queue q after its reset. -/
def resetCounted (s : State) (q gone : Nat) : State :=
  let t := ((((s.bumpSat F.QM_Q_LOST_LOST gone q).bumpSat F.QM_Q_FAULT_RESETS 1 q).put F.QM_Q_STAT_CELLS 0 q).put
    F.QM_Q_PKTS 0 q).put F.QM_Q_STAT_FULL 0 q
  t.put F.QM_Q_STAT_STATE (if t.on F.QM_Q_CFG_EN q then 1 else 0) q

/-- Its record: the packet that its consumer is reading is cut short, and its producer's is discarded as it arrives. -/
def resetRecord (mid : Bool) (rd : Option RdPkt) (x : QueueX) : QueueX :=
  { x with
    pkts := [], cur := none, skip := mid, rd := rd.map fun r => if r.left = 0 then r else { r with cut := true, left := 0 },
    qdma := [], resetJobs := [], recvJobs := [], faulted := false }

/-- Queue q after its reset, the commands that waited for it not yet answered. -/
def queueReset (s : State) (q : Nat) : State :=
  rewrite (rewrite ((resetCounted (cellsFreed s q) q (discardedPkts (s.queueX q))).modQueue q
    (resetRecord (midPacket s q) (s.queueX q).rd)) (headId q)) (tailId q)

/-- The results of the commands that waited for the reset of a queue with the record `x` and so many cells. -/
def resetResults (x : QueueX) (cells : Nat) : List (JobKind × Nat × List Byte) :=
  (x.qdma.map fun j => (j.1, St.queueReset, [])) ++ (x.recvJobs.map fun k => (k, St.queueReset, [])) ++
    x.resetJobs.map fun k => (k, St.ok, toLE 2 cells ++ toLE 2 (discardedPkts x))

/-- The fields that a queue's reset writes. -/
def resetFields : List Field :=
  [F.QM_Q_STAT_CELLS, F.QM_Q_LOST_LOST, F.QM_Q_FAULT_RESETS, F.QM_Q_PKTS, F.QM_Q_STAT_FULL, F.QM_Q_STAT_STATE]

theorem resetCounted_moves (s : State) (q gone : Nat) : QueueMoves resetFields q s (resetCounted s q gone) := by
  unfold resetCounted
  dsimp only
  exact ((((((QueueMoves.refl resetFields q s).bumpSat (by decide) gone).bumpSat (by decide) 1).put (by decide) 0).put (by decide) 0).put
    (by decide) 0).put (by decide) _

theorem queueReset_moves (s : State) (q : Nat) : QueueMoves resetFields q s (queueReset s q) :=
  ((((((cellsFreed_moves s q).mono (by decide)).trans (resetCounted_moves _ q _)).modQueue q _).rewrite _).rewrite _)

/-! What a result posted for the bridge leaves of a state: all but the list of results. -/

/-- `t` is `u` with `l` as the results that wait for the bridge. -/
def Posted (l : List (JobKind × Nat × List Byte)) (u t : State) : Prop := t = { u with mp.ready := l }

theorem Posted.ready {l : List (JobKind × Nat × List Byte)} (h : Posted l u t) : t.mp.ready = l := by rw [h]

theorem Posted.get {l : List (JobKind × Nat × List Byte)} (h : Posted l u t) (f : Field) (i : Nat) : t.get f i = u.get f i := by
  rw [h]
  rfl

theorem Posted.queueX {l : List (JobKind × Nat × List Byte)} (h : Posted l u t) (i : Nat) : t.queueX i = u.queueX i := by
  rw [h]
  rfl

theorem Posted.chip {l : List (JobKind × Nat × List Byte)} (h : Posted l u t) : t.chip = u.chip := by rw [h]

theorem Posted.regs {l : List (JobKind × Nat × List Byte)} (h : Posted l u t) : t.regs = u.regs := by rw [h]

theorem Posted.rest {l : List (JobKind × Nat × List Byte)} {gs : List Field} {q : Nat} (h : Posted l u t) (hmoves : QueueMoves gs q s u) :
    t = { s with regs := t.regs, qm := t.qm, mp := t.mp } := by
  rw [h]
  obtain ⟨regs, qm, rfl⟩ : ∃ regs qm, u = { s with regs := regs, qm := qm } := ⟨_, _, hmoves.rest⟩
  rfl

theorem qResetDone_posts (s : State) (q : Nat) :
    Posted (s.mp.ready ++ resetResults (s.queueX q) (qCells s q)) (queueReset s q) (qResetDone s q) := by
  unfold Posted
  obtain ⟨data, hdata⟩ : ∃ data, data = toLE 2 (qCells s q) ++ toLE 2 (discardedPkts (s.queueX q)) := ⟨_, rfl⟩
  obtain ⟨u, hu⟩ : ∃ u, u = queueReset s q := ⟨_, rfl⟩
  have hposted : qResetDone s q =
      forList (s.queueX q).resetJobs (fun k t => postResult t k St.ok data)
        (forList (s.queueX q).recvJobs (fun k t => postResult t k St.queueReset [])
          (forList (s.queueX q).qdma (fun j t => postResult t j.1 St.queueReset []) u)) := by
    rw [hdata, hu]
    rfl
  have hready : u.mp.ready = s.mp.ready := by rw [hu, (queueReset_moves s q).mp]
  rw [hposted, forList_postResult _ (fun j : JobKind × List Byte => j.1), forList_postResult _ (fun k : JobKind => k),
    forList_postResult _ (fun k : JobKind => k), hready, ← hu, resetResults, ← hdata]
  simp only [List.append_assoc]

theorem resetCounted_counts (s : State) (q gone : Nat) :
    (resetCounted s q gone).get F.QM_Q_STAT_STATE q = s.get F.QM_Q_CFG_EN q ∧ (resetCounted s q gone).get F.QM_Q_STAT_CELLS q = 0 ∧
    (resetCounted s q gone).get F.QM_Q_PKTS q = 0 ∧ (resetCounted s q gone).get F.QM_Q_STAT_FULL q = 0 ∧
    (resetCounted s q gone).get F.QM_Q_FAULT_RESETS q = min (s.get F.QM_Q_FAULT_RESETS q + 1) 65535 ∧
    (resetCounted s q gone).get F.QM_Q_LOST_LOST q = min (s.get F.QM_Q_LOST_LOST q + gone) 65535 := by
  refine ⟨?state, ?_, ?_, ?_, ?resets, ?lost⟩
  case state =>
    have hen : s.get F.QM_Q_CFG_EN q < 2 := State.get_lt s F.QM_Q_CFG_EN q 0
    have hnew : (if (s.get F.QM_Q_CFG_EN q != 0) = true then 1 else 0) = s.get F.QM_Q_CFG_EN q := by
      rcases (by omega : s.get F.QM_Q_CFG_EN q = 0 ∨ s.get F.QM_Q_CFG_EN q = 1) with h | h <;> rw [h] <;> rfl
    simp (disch := decide) only [resetCounted, State.on, get_put_parted, get_bumpSat_parted, hnew]
    exact get_put_same _ _ _ (by decide) (lt_of_lt_of_le hen (by decide))
  case resets =>
    simp (disch := decide) only [resetCounted, get_put_parted, get_bumpSat]
    rw [get_bumpSat_parted _ _ _ (by decide)]
    rfl
  case lost =>
    simp (disch := decide) only [resetCounted, get_put_parted, get_bumpSat_parted, get_bumpSat]
    rfl
  all_goals simp (disch := decide) only [resetCounted, get_put_parted, get_put_same]

theorem get_queueReset (s : State) (q : Nat) (f : Field) (i : Nat) :
    (queueReset s q).get f i = (resetCounted (cellsFreed s q) q (discardedPkts (s.queueX q))).get f i := by
  rw [queueReset, get_rewrite, get_rewrite, State.modQueue_get]

/-- What the registers of queue q show after its reset. -/
theorem queueReset_counts (s : State) (q : Nat) :
    (queueReset s q).get F.QM_Q_STAT_STATE q = s.get F.QM_Q_CFG_EN q ∧ (queueReset s q).get F.QM_Q_STAT_CELLS q = 0 ∧
    (queueReset s q).get F.QM_Q_PKTS q = 0 ∧ (queueReset s q).get F.QM_Q_STAT_FULL q = 0 ∧
    (queueReset s q).get F.QM_Q_FAULT_RESETS q = min (s.get F.QM_Q_FAULT_RESETS q + 1) 65535 ∧
    (queueReset s q).get F.QM_Q_LOST_LOST q = min (s.get F.QM_Q_LOST_LOST q + discardedPkts (s.queueX q)) 65535 := by
  have hcounts := resetCounted_counts (cellsFreed s q) q (discardedPkts (s.queueX q))
  have hfreed := cellsFreed_moves s q
  rw [hfreed.get _ (by decide), hfreed.get _ (by decide), hfreed.get _ (by decide)] at hcounts
  simpa only [get_queueReset] using hcounts

theorem queueX_resetCounted (s : State) (q gone i : Nat) : (resetCounted s q gone).queueX i = s.queueX i := by
  unfold resetCounted
  dsimp only
  rw [State.queueX_put, State.queueX_put, State.queueX_put, State.queueX_put, State.queueX_bumpSat, State.queueX_bumpSat]

theorem queueX_queueReset (s : State) (q : Nat) :
    (queueReset s q).queueX q = resetRecord (midPacket s q) (s.queueX q).rd (s.queueX q) := by
  rw [queueReset, queueX_rewrite, queueX_rewrite, State.queueX_modQueue, queueX_resetCounted, queueX_cellsFreed]

theorem queueX_queueReset_other (s : State) {q i : Nat} (h : i ≠ q) : (queueReset s q).queueX i = s.queueX i := by
  rw [queueReset, queueX_rewrite, queueX_rewrite, State.queueX_modQueue_other _ _ h, queueX_resetCounted, queueX_cellsFreed]

/-- The registers of the queue that a reset writes, as the certificate names them. -/
theorem regsKept_resetFields {q : Nat} (h : RegsKept (placesAt resetFields q) s t) :
    RegsKept [F.QM_Q_STAT.word q, F.QM_Q_PKTS.word q, F.QM_Q_FAULT_RESETS.at q, F.QM_Q_LOST_LOST.at q] s t := by
  refine h.trans' fun a b hin => ?_
  obtain ⟨x, hx, hbit⟩ := hin
  obtain ⟨g, hg, rfl⟩ := List.mem_map.mp hx
  by_cases hstat : liesIn g F.QM_Q_STAT = true
  · obtain ⟨y, hy, hword⟩ := inFields_word_of_liesIn (p := q) hstat ⟨_, List.mem_singleton.mpr rfl, hbit⟩
    exact ⟨y, List.mem_cons.mpr (.inl (List.mem_singleton.mp hy)), hword⟩
  · refine ⟨_, List.mem_cons_of_mem _ ?_, hbit⟩
    have hrest := (by decide : ∀ g ∈ resetFields, ¬ liesIn g F.QM_Q_STAT = true →
      g ∈ [F.QM_Q_PKTS, F.QM_Q_FAULT_RESETS, F.QM_Q_LOST_LOST]) g hg hstat
    exact at_mem_placesAt hrest q

theorem exec_queueResetDone (q : Fin 64) (s : State) : exec (.queueResetDone q) s = act s (resetDone s q) := rfl

theorem resetDone_eq {q : Nat} (hstate : s.get F.QM_Q_STAT_STATE q = 2) (hsound : (s.queueX q).faulted = false) :
    resetDone s q = qResetDone s q := by
  rw [resetDone, if_pos (by simp [hstate, hsound])]

theorem queueResetDone_resets (ha : s.Awake) (hstate : s.get F.QM_Q_STAT_STATE q = 2) (hsound : (s.queueX q).faulted = false) :
    Gives (.queueResetDone q) s fun t =>
      t.get F.QM_Q_STAT_STATE q = s.get F.QM_Q_CFG_EN q ∧ t.get F.QM_Q_STAT_CELLS q = 0 ∧ t.get F.QM_Q_PKTS q = 0 ∧
      t.get F.QM_Q_STAT_FULL q = 0 ∧ t.get F.QM_Q_FAULT_RESETS q = min (s.get F.QM_Q_FAULT_RESETS q + 1) 65535 ∧
      t.get F.QM_Q_LOST_LOST q = min (s.get F.QM_Q_LOST_LOST q + discardedPkts (s.queueX q)) 65535 ∧
      (t.queueX q).pkts = [] ∧ (t.queueX q).cur = none ∧ (t.queueX q).skip = midPacket s q ∧
      (∀ j, (s.queueX q).qdma = [] → (s.queueX q).recvJobs = [] → (s.queueX q).resetJobs = [j] →
        t.mp.ready = s.mp.ready ++ [(j, St.ok, toLE 2 (s.get F.QM_Q_STAT_CELLS q) ++ toLE 2 (discardedPkts (s.queueX q)))]) ∧
      (∀ q', q' ≠ q.val → t.queueX q' = s.queueX q') ∧ t = { s with regs := t.regs, qm := t.qm, mp := t.mp } ∧
      RegsKept [F.QM_Q_STAT.word q, F.QM_Q_PKTS.word q, F.QM_Q_FAULT_RESETS.at q, F.QM_Q_LOST_LOST.at q] s t := by
  have hexec := exec_queueResetDone q s
  rw [resetDone_eq hstate hsound] at hexec
  have hcounts := queueReset_counts s q
  have hrecord := queueX_queueReset s q
  have hothers (i : Nat) (hi : i ≠ q.val) := queueX_queueReset_other s hi
  have hmoves := queueReset_moves s q
  have ht := qResetDone_posts s q
  generalize qResetDone s q = t at hexec ht
  generalize queueReset s q = u at hcounts hrecord hothers hmoves ht
  have hchip : t.chip.resetDue = none := by rw [ht.chip, hmoves.chip, ha.2]
  simp only [← ht.get] at hcounts
  rw [← ht.queueX] at hrecord
  obtain ⟨hst, hcells, hpkts, hfull, hresets, hlost⟩ := hcounts
  refine gives_of_act ha hexec hchip ⟨hst, hcells, hpkts, hfull, hresets, hlost, congrArg QueueX.pkts hrecord,
    congrArg QueueX.cur hrecord, congrArg QueueX.skip hrecord, fun j hqdma hrecv hreset => ?_,
    fun i hi => (ht.queueX i).trans (hothers i hi), ht.rest hmoves,
    regsKept_resetFields (hmoves.kept.trans (RegsKept.of_regs ht.regs))⟩
  rw [ht.ready, resetResults, hqdma, hrecv, hreset]
  rfl

end Sys2Proof.Machine
end

section
/-!
PROOFS. A rebuild that finds every list good, a held write that goes on, and starvation (R400, R404, R414).
-/
namespace Sys2Proof.Machine

variable {s t : State}

/-! ### Good lists walked (R404) -/

/-- A walk of lists whose copies agree finds nothing. -/
theorem walkQueue_clean (hjigs : NoJig [8, 9] s) (hsame : s.qm.differ = []) (q : Nat) : walkQueue s q = (s, none) := by
  have hcompare {j : Nat} (hj : j ∈ [8, 9]) (i : Nat) : qmCompare s j i = (s, none) :=
    qmCompare_agree (hjigs j hj) (by rw [hsame]; exact List.not_mem_nil)
  have hwalk : (s.queueX q).cells.foldl (fun (r : State × Option Bool) i =>
      ((qmCompare r.1 8 i).1, r.2.or (qmCompare r.1 8 i).2)) (s, none) = (s, none) :=
    List.foldl_fixed' (fun i => by simp only [hcompare (j := 8) (by decide)]; rfl) _
  simp only [walkQueue, hwalk, hcompare (j := 9) (by decide), hsame]
  rfl

theorem forN_fixed (n : Nat) (f : Nat → State → State) (hf : ∀ i, i < n → f i s = s) : forN n f s = s :=
  forN_keeps (fun t => t = s) n f (fun i hi t ht => by rw [ht, hf i hi]) s rfl

/-! ### The end of a rebuild (R404) -/

/-- The state in which a rebuild that reset no queue ends, `gen` being the tags of the cells. -/
def rebuildEnd (s : State) (gen : List (Nat × Nat)) : State :=
  rewrite (rewrite { (s.put F.QM_STATUS_REBUILDING 0).raiseBit F.QM_EVENT_REBUILD_DONE with
    qm.rebuilding := false, qm.genBase := (s.qm.genBase + 1) % 16, qm.gen := gen } freeHeadId) freeTailId

/-- What a rebuild does to queue q first: a queue that runs is walked. -/
def walked (found q : Nat) (s : State) : State :=
  if s.get F.QM_Q_STAT_STATE q == 1 then
    match (walkQueue s q).2 with
    | some inj => ptrFault (walkQueue s q).1 q inj
    | none => if found.testBit q then ptrFault (walkQueue s q).1 q false else (walkQueue s q).1
  else s

theorem walked_clean (hjigs : NoJig [8, 9] s) (hsame : s.qm.differ = []) (q : Nat) : walked 0 q s = s := by
  simp only [walked, walkQueue_clean hjigs hsame, Nat.zero_testBit, Bool.false_eq_true, if_false, ite_self]

/-- The tags after a rebuild, those of the cells that a queue of `s` holds not rising from `gen`. -/
def rebuiltTags (s : State) (gen : List (Nat × Nat)) : List (Nat × Nat) :=
  let being (q : Nat) : Bool := s.get F.QM_Q_STAT_STATE q == 2
  let kept := (s.qm.queue.filter fun e => !being e.1).flatMap fun e => e.2.cells
  let freed := (s.qm.queue.filter fun e => being e.1).flatMap fun e => e.2.cells
  (kept ++ freed).foldl (fun m c => SMap.set (fun _ => 0) m c ((SMap.get (fun _ => 0) m c + 15) % 16)) gen

/-- The queues that `s` finds being reset, reset. -/
def resetsEnded (s : State) : State := forN 64 (fun q t => if s.get F.QM_Q_STAT_STATE q == 2 then qResetDone t q else t) s

theorem rebuildQueues_eq (s : State) (found : Nat) : rebuildQueues s found =
    rebuildEnd (resetsEnded (forN 64 (walked found) s))
      (rebuiltTags (forN 64 (walked found) s) (resetsEnded (forN 64 (walked found) s)).qm.gen) := rfl

theorem rebuildQueues_good (hjigs : NoJig [8, 9] s) (hsame : s.qm.differ = [])
    (hnone : ∀ q, q < 64 → s.get F.QM_Q_STAT_STATE q ≠ 2) : rebuildQueues s 0 = rebuildEnd s (rebuiltTags s s.qm.gen) := by
  have hwalks : forN 64 (walked 0) s = s := forN_fixed 64 _ fun q _ => walked_clean hjigs hsame q
  have hresets : resetsEnded s = s := forN_fixed 64 _ fun q hq => if_neg (by simpa using hnone q hq)
  rw [rebuildQueues_eq, hwalks, hresets]

/-- What waited for no rebuild is not taken up at its end. -/
theorem recvHeld_none (h : ∀ e ∈ s.qm.queue, e.2.recvJobs = []) : recvHeld s = s := by
  have hnobody : s.qm.queue.filter (fun e => !e.2.recvJobs.isEmpty) = [] :=
    List.filter_eq_nil_iff.mpr fun e he => by simp [h e he]
  rw [recvHeld, hnobody]
  rfl

theorem rebuildEnd_only (s : State) (gen : List (Nat × Nat)) :
    (rebuildEnd s gen).get F.QM_STATUS_REBUILDING = 0 ∧ (rebuildEnd s gen).get F.QM_EVENT_REBUILD_DONE = 1 ∧
    rebuildEnd s gen = { s with regs := (rebuildEnd s gen).regs, qm := (rebuildEnd s gen).qm } ∧
    RegsKept [F.QM_STATUS_REBUILDING.at, F.QM_EVENT_REBUILD_DONE.at] s (rebuildEnd s gen) := by
  have hmoved : Only [F.QM_STATUS_REBUILDING.at, F.QM_EVENT_REBUILD_DONE.at] s
      ((s.put F.QM_STATUS_REBUILDING 0).raiseBit F.QM_EVENT_REBUILD_DONE) :=
    (only_put (by decide)).trans (only_raiseBit (by decide))
  have hstatus : ((s.put F.QM_STATUS_REBUILDING 0).raiseBit F.QM_EVENT_REBUILD_DONE).get F.QM_STATUS_REBUILDING = 0 := by
    rw [get_raiseBit_apart _ 0 (by decide), get_put_same _ _ _ (by decide) (by decide)]
  have hevent : ((s.put F.QM_STATUS_REBUILDING 0).raiseBit F.QM_EVENT_REBUILD_DONE).get F.QM_EVENT_REBUILD_DONE = 1 :=
    State.get_raiseBit _ _ _ _ (by decide) (by decide)
  exact ⟨hstatus, hevent, rfl, hmoved.2.trans (RegsKept.of_regs rfl)⟩

theorem exec_rebuildDone (found : BitVec 64) (s : State) : exec (.rebuildDone found) s = act s (rebuildDone s found.toNat) := rfl

theorem rebuildDone_ends (ha : s.Awake) (hrebuild : s.qm.rebuilding = true) (hsame : s.qm.differ = []) (hjigs : NoJig [8, 9, 10] s)
    (hnone : ∀ q, q < 64 → s.get F.QM_Q_STAT_STATE q ≠ 2) (hnobody : ∀ e ∈ s.qm.queue, e.2.recvJobs = []) :
    Gives (.rebuildDone 0) s fun t =>
      t.get F.QM_STATUS_REBUILDING = 0 ∧ t.get F.QM_EVENT_REBUILD_DONE = 1 ∧ t.qm.rebuilding = false ∧
      t.qm.genBase = (s.qm.genBase + 1) % 16 ∧ t.qm.queue = s.qm.queue ∧ t = { s with regs := t.regs, qm := t.qm } ∧
      RegsKept [F.QM_STATUS_REBUILDING.at, F.QM_EVENT_REBUILD_DONE.at] s t := by
  have hgood := rebuildQueues_good (fun j hj => hjigs j (List.mem_of_mem_dropLast (l := [8, 9, 10]) hj)) hsame hnone
  have hdone : rebuildDone s 0 = rebuildEnd s (rebuiltTags s s.qm.gen) := by
    rw [rebuildDone, if_pos hrebuild, hgood]
    exact recvHeld_none hnobody
  obtain ⟨hstatus, hevent, hrest, hkept⟩ := rebuildEnd_only s (rebuiltTags s s.qm.gen)
  have hexec := exec_rebuildDone 0 s
  rw [show (0 : BitVec 64).toNat = 0 from rfl, hdone] at hexec
  exact gives_of_act ha hexec ha.2 ⟨hstatus, hevent, rfl, rfl, rfl, hrest, hkept⟩

/-! ### A held write goes on (R400) -/

theorem queueWriteAccept_pumps (ha : s.Awake) (q : Fin 64) (upset : PtrUpset) : Gives (.queueWriteAccept q upset) s fun t =>
    t = settle (qPump (ptrUpset s upset (tailId q) (tailId q) freeHeadId) q) := ⟨_, act_of_awake ha, rfl⟩

/-! ### Starvation (R414) -/

/-- Sender x starved, as STARVED_SET finds it ahead of its tick. -/
def starvedAhead (s : State) (x : Nat) : State := (starveSet s x).modPktTrib x fun e => { e with judged := true }

theorem starvedAhead_only (s : State) (x : Nat) :
    (starvedAhead s x).get F.QM_T_TX_STARVED x = 1 ∧ (starvedAhead s x).get F.QM_EVENT_STARVED_SET = 1 ∧
    starvedAhead s x = { s with regs := (starvedAhead s x).regs, qm.trib := (starvedAhead s x).qm.trib } ∧
    RegsKept [F.QM_T_TX_STARVED.at x, F.QM_EVENT_STARVED_SET.at] s (starvedAhead s x) := by
  have hne : F.QM_T_TX_STARVED.addr x ≠ F.QM_EVENT_STARVED_SET.addr := by
    simp only [F.QM_EVENT_STARVED_SET, F.QM_T_TX_STARVED, Field.addr]
    omega
  have hstarved : ((s.put F.QM_T_TX_STARVED 1 x).raiseBit F.QM_EVENT_STARVED_SET).get F.QM_T_TX_STARVED x = 1 := by
    rw [State.raiseBit, State.get_put_otherReg _ _ _ _ _ _ _ _ hne, get_put_same _ _ _ (by decide) (by decide)]
  have hmoved : Only [F.QM_T_TX_STARVED.at x, F.QM_EVENT_STARVED_SET.at] s
      ((s.put F.QM_T_TX_STARVED 1 x).raiseBit F.QM_EVENT_STARVED_SET) :=
    (only_put (by simp)).trans (only_raiseBit (by simp))
  have hevent : ((s.put F.QM_T_TX_STARVED 1 x).raiseBit F.QM_EVENT_STARVED_SET).get F.QM_EVENT_STARVED_SET = 1 :=
    State.get_raiseBit _ _ _ _ (by decide) (by decide)
  refine ⟨?_, ?_, ?_, ?_⟩
  · rw [starvedAhead, starveSet, State.modPktTrib_get, State.modPktTrib_get, hstarved]
  · rw [starvedAhead, starveSet, State.modPktTrib_get, State.modPktTrib_get, hevent]
  · rfl
  · exact hmoved.2.trans (RegsKept.of_regs rfl)

theorem exec_starvedSet (x : Byte) (h : (!(s.pktTrib x.toNat).judged && starveDue s x.toNat) = true) :
    exec (.starvedSet x) s = act s (starvedAhead s x.toNat) := congrArg (act s) (if_pos h)

theorem starvedSet_counts (ha : s.Awake) (x : Byte) (hdue : starveDue s x.toNat = true) (hjudged : (s.pktTrib x.toNat).judged = false) :
    Gives (.starvedSet x) s fun t =>
      t.get F.QM_T_TX_STARVED x.toNat = 1 ∧ t.get F.QM_EVENT_STARVED_SET = 1 ∧
      t = { s with regs := t.regs, qm.trib := t.qm.trib } ∧ RegsKept [F.QM_T_TX_STARVED.at x.toNat, F.QM_EVENT_STARVED_SET.at] s t :=
  gives_of_act ha (exec_starvedSet x (by rw [hjudged, hdue]; rfl)) ha.2 (starvedAhead_only s x.toNat)

end Sys2Proof.Machine
end

section
/-!
PROOFS. Bytes written into a queue by its producer (R398, R400, R403).
-/
namespace Sys2Proof.Machine

variable {s t : State} {q c : Nat} {p : QPkt}

/-! ### The free cell taken next (R403) -/

/-- No queue holds the free cell taken next: of one more cell than are held, one is free. -/
theorem nextCell_free (s : State) : nextCell s ∉ heldCells s := by
  obtain ⟨held, hheld⟩ : ∃ held, held = heldCells s := ⟨_, rfl⟩
  have hnext : nextCell s = ((List.range (held.length + 1)).find? fun c => !held.contains c).getD 0 := by rw [hheld]; rfl
  rw [hnext, ← hheld]
  cases hfind : (List.range (held.length + 1)).find? fun c => !held.contains c with
  | some c => simpa using List.find?_some hfind
  | none =>
    have hall : List.range (held.length + 1) ⊆ held := fun c hc => by simpa using List.find?_eq_none.mp hfind c hc
    have hlen := (List.nodup_range.subperm hall).length_le
    rw [List.length_range] at hlen
    omega

/-- FULL raised or lowered. -/
theorem setFull_moves (s : State) (q : Nat) (b : Bool) : QueueMoves [F.QM_Q_STAT_FULL] q s (setFull s q b) := by
  unfold setFull
  split
  · exact QueueMoves.refl _ q s
  · exact put_queueMoves s _ _ q

theorem get_setFull (s : State) (q : Nat) (b : Bool) : (setFull s q b).get F.QM_Q_STAT_FULL q = b2n b := by
  unfold setFull
  split
  next h => rw [← b2n_on rfl, eq_of_beq h]
  next => exact get_put_same s _ _ (by decide) (by cases b <;> decide)

theorem qm_setFull (s : State) (q : Nat) (b : Bool) : (setFull s q b).qm = s.qm := by
  unfold setFull
  split
  · rfl
  · exact State.put_qm ..

/-- A cell goes to queue q. -/
def cellTaken (s : State) (q : Nat) : State := (s.put F.QM_Q_STAT_CELLS (qCells s q + 1) q).bump64 F.QM_Q_ENQ_CELLS_LO 1 q

theorem cellTaken_moves (s : State) (q : Nat) :
    QueueMoves [F.QM_Q_STAT_CELLS, F.QM_Q_ENQ_CELLS_LO, highHalf F.QM_Q_ENQ_CELLS_LO] q s (cellTaken s q) :=
  ((QueueMoves.refl _ q s).put (by decide) _).bump64 (by decide) 1

theorem qm_cellTaken (s : State) (q : Nat) : (cellTaken s q).qm = s.qm := rfl

theorem takeCell_takes (hroom : qCanTake s q = true) (hjigs : NoJig [9, 10] s) (hsame : s.qm.differ = []) :
    takeCell s q = (cellTaken s q, some (nextCell s)) := by
  have hcompare {j : Nat} (hj : j ∈ [9, 10]) (i : Nat) : qmCompare s j i = (s, none) :=
    qmCompare_agree (hjigs j hj) (by rw [hsame]; exact List.not_mem_nil)
  simp only [takeCell, hroom, hcompare (j := 9) (by decide), hcompare (j := 10) (by decide), cellTaken, Bool.not_true,
    Bool.false_eq_true, if_false]

theorem takeCell_waits (hroom : qCanTake s q = false) : takeCell s q = (setFull s q true, none) := by
  rw [takeCell, hroom]
  rfl

/-! ### One byte written (R398, R400) -/

/-- Byte `b` stored in the pool, packet `p` being the producer's from then on. -/
def byteStored (s : State) (q off : Nat) (b : Byte) (p : QPkt) : State :=
  ((poolPut s off b).modQueue q fun x => { x with cur := some p }).bump64 F.QM_Q_ENQ_BYTES_LO 1 q

theorem qPutByte_goesOn (hrun : qRunning s q = true) (hskip : (s.queueX q).skip = false) (hcur : (s.queueX q).cur = some p)
    (hwithin : p.len % 64 ≠ 0) (hlast : p.cells.getLast? = some c) (b : Byte) :
    qPutByte s q b = (byteStored (setFull s q false) q (64 * c + p.len % 64) b { p with len := p.len + 1 }, true) := by
  simp only [qPutByte, hrun, hskip, hcur, hwithin, hlast, byteStored, Option.getD_some, Bool.not_true, Bool.false_eq_true, if_false]

theorem qPutByte_begins (hrun : qRunning s q = true) (hskip : (s.queueX q).skip = false) (hcur : (s.queueX q).cur = none)
    (hroom : qCanTake s q = true) (hjigs : NoJig [9, 10] s) (hsame : s.qm.differ = []) (b : Byte) :
    qPutByte s q b =
      (byteStored (setFull (cellTaken s q) q false) q (64 * nextCell s) b { cells := [nextCell s], len := 1 }, true) := by
  simp only [qPutByte, hrun, hskip, hcur, takeCell_takes hroom hjigs hsame, byteStored, Option.getD_none, Bool.not_true,
    Bool.false_eq_true, if_false, Nat.zero_mod, if_true, List.nil_append, Nat.zero_add, Nat.add_zero]

theorem qPutByte_waits (hrun : qRunning s q = true) (hskip : (s.queueX q).skip = false) (hcur : (s.queueX q).cur = none)
    (hroom : qCanTake s q = false) (b : Byte) : qPutByte s q b = (setFull s q true, false) := by
  simp only [qPutByte, hrun, hskip, hcur, takeCell_waits hroom, Option.getD_none, Bool.not_true, Bool.false_eq_true, if_false,
    Nat.zero_mod, if_true]

/-- The registers that a byte stored moves. -/
def storeFields : List Field := [F.QM_Q_ENQ_BYTES_LO, highHalf F.QM_Q_ENQ_BYTES_LO]

theorem poolPut_good (hgood : s.fa.badWords = []) (off : Nat) (b : Byte) :
    poolPut s off b = { s with qm.pool := SMap.set byteDflt s.qm.pool off b } :=
  eccWritten_good (s := { s with qm.pool := SMap.set byteDflt s.qm.pool off b }) hgood _

theorem byteStored_moves (hgood : s.fa.badWords = []) (q off : Nat) (b : Byte) (p : QPkt) :
    QueueMoves storeFields q s (byteStored s q off b p) := by
  rw [byteStored, poolPut_good hgood]
  exact (((QueueMoves.refl storeFields q s).inQm _).modQueue q _).bump64 (by decide) 1

theorem queueX_byteStored (s : State) (q off : Nat) (b : Byte) (p : QPkt) :
    (byteStored s q off b p).queueX q = { s.queueX q with cur := some p } := by
  rw [byteStored, queueX_bump64, State.queueX_modQueue]
  rfl

theorem pool_byteStored (s : State) (q off : Nat) (b : Byte) (p : QPkt) (a : Nat) :
    SMap.get byteDflt (byteStored s q off b p).qm.pool a = if a = off then b else SMap.get byteDflt s.qm.pool a :=
  poolPut_read s off b a

theorem get64_byteStored (hgood : s.fa.badWords = []) (q off : Nat) (b : Byte) (p : QPkt) :
    (byteStored s q off b p).get64 F.QM_Q_ENQ_BYTES_LO q = (s.get64 F.QM_Q_ENQ_BYTES_LO q + 1) % 2 ^ 64 := by
  rw [byteStored, get64_bump64 _ (by decide), poolPut_good hgood]
  rfl

theorem poolBytes_one (s : State) (off : Nat) : poolBytes s off 1 = [SMap.get byteDflt s.qm.pool off] := rfl

theorem poolBytes_byteStored_one (s : State) (q off : Nat) (b : Byte) (p : QPkt) : poolBytes (byteStored s q off b p) off 1 = [b] := by
  rw [poolBytes_one, pool_byteStored, if_pos rfl]

/-! ### What a producer finds (R398, R400) -/

theorem setFull_only (s : State) (q : Nat) (b : Bool) : Only [F.QM_Q_STAT_FULL.at q] s (setFull s q b) := by
  have hrest := (setFull_moves s q b).rest
  rw [qm_setFull] at hrest
  exact ⟨hrest, (setFull_moves s q b).kept⟩

/-- A byte within a cell of the producer's packet. -/
theorem qPutByte_within (hrun : qRunning s q = true) (hskip : (s.queueX q).skip = false) (hgood : s.fa.badWords = [])
    (hcur : (s.queueX q).cur = some p) (hwithin : p.len % 64 ≠ 0) (hlast : p.cells.getLast? = some c) (b : Byte) :
    (qPutByte s q b).2 = true ∧ ((qPutByte s q b).1.queueX q).cur = some { p with len := p.len + 1 } ∧
    poolBytes (qPutByte s q b).1 (64 * c + p.len % 64) 1 = [b] ∧
    (qPutByte s q b).1.get64 F.QM_Q_ENQ_BYTES_LO q = (s.get64 F.QM_Q_ENQ_BYTES_LO q + 1) % 2 ^ 64 := by
  have hfull := setFull_moves s q false
  rw [qPutByte_goesOn hrun hskip hcur hwithin hlast]
  refine ⟨rfl, by rw [queueX_byteStored], poolBytes_byteStored_one _ _ _ _ _, ?_⟩
  rw [get64_byteStored (by rw [hfull.fa, hgood]), hfull.get64 _ (by decide)]

/-- The first byte of a packet, where a cell can be taken. -/
theorem qPutByte_first (hrun : qRunning s q = true) (hskip : (s.queueX q).skip = false) (hjigs : NoJig [9, 10] s)
    (hgood : s.fa.badWords = []) (hsame : s.qm.differ = []) (hcur : (s.queueX q).cur = none) (hroom : qCanTake s q = true) (b : Byte) :
    (qPutByte s q b).2 = true ∧ ((qPutByte s q b).1.queueX q).cur = some { cells := [nextCell s], len := 1 } ∧
    poolBytes (qPutByte s q b).1 (64 * nextCell s) 1 = [b] ∧ nextCell s ∉ heldCells s ∧
    (qPutByte s q b).1.get F.QM_Q_STAT_FULL q = 0 := by
  have hfa : (setFull (cellTaken s q) q false).fa.badWords = [] := by rw [(setFull_moves _ q false).fa, (cellTaken_moves s q).fa, hgood]
  rw [qPutByte_begins hrun hskip hcur hroom hjigs hsame]
  refine ⟨rfl, by rw [queueX_byteStored], poolBytes_byteStored_one _ _ _ _ _, nextCell_free s, ?_⟩
  rw [(byteStored_moves hfa q _ b _).get _ (by decide), get_setFull]
  rfl

/-- The first byte of a packet, where no cell can be taken. -/
theorem qPutByte_held (hrun : qRunning s q = true) (hskip : (s.queueX q).skip = false) (hcur : (s.queueX q).cur = none)
    (hroom : qCanTake s q = false) (b : Byte) :
    (qPutByte s q b).2 = false ∧ (qPutByte s q b).1.get F.QM_Q_STAT_FULL q = 1 ∧ Only [F.QM_Q_STAT_FULL.at q] s (qPutByte s q b).1 := by
  rw [qPutByte_waits hrun hskip hcur hroom]
  exact ⟨rfl, get_setFull s q true, setFull_only s q true⟩

end Sys2Proof.Machine
end

section
/-! PROOFS. Queues: the certificate of their operations (R398–R404, R414, Table 11.1). -/
namespace Sys2Proof.Machine

/-- Settles O31, clause by clause. -/
theorem queues : Obligations.Queues := by
  unfold Obligations.Queues
  refine fun s q => ⟨fun ha => ⟨fun hfree hclient => ⟨queueEnWrite_on ha hfree, queueEnWrite_off ha hfree hclient⟩,
    fun upset => queueWriteAccept_pumps ha q upset, fun p ps c hone hcons => queueRead_reads ha hone hcons,
    fun p ps c upset hone hcons => ⟨queueRead_ptrFault ha hone hcons, ?_⟩, fun hcons upset => queueRead_unconsumed ha hcons,
    queueResetDone_resets ha, rebuildDone_ends ha, starvedSet_counts ha⟩,
    fun b hrun hskip hjigs hgood hsame => ⟨fun p c hcur hwithin hlast => qPutByte_within hrun hskip hgood hcur hwithin hlast b,
      fun hcur hroom => qPutByte_first hrun hskip hjigs hgood hsame hcur hroom b,
      fun hcur hroom => qPutByte_held hrun hskip hcur hroom b⟩⟩
  rintro rfl hlast
  exact queueRead_freeFault ha hone hcons hlast

end Sys2Proof.Machine
end

section
/-! PROOFS. Client ports: the counters cleared where a register lies between two of them (R425). -/
namespace Sys2Proof.Machine

variable {s : State} {c : Fin 4}

/-! ### The counters of one port -/

theorem specAt_clCmd (c : Fin 4) : ∃ r, specAt (F.CL_CMD.addr c) = some r ∧ r.lock = false ∧ r.rw = 0 ∧ r.w1c = 0 ∧ r.otp = 0 := by
  have hall : ∀ c : Fin 4, (specAt (F.CL_CMD.addr c)).any (fun r => r.lock == false && r.rw == 0 && r.w1c == 0 && r.otp == 0) = true := by
    decide +kernel
  obtain ⟨r, hspec, hr⟩ := specAt_of_any (hall c)
  simp only [Bool.and_eq_true, beq_iff_eq, and_assoc] at hr
  exact ⟨r, hspec, hr⟩

/-- The eight counters of client port c lie from 0x400800A0 on in its window (R425). -/
def portCounter (c b : Nat) : Bool := Nat.ble (0x40080000 + 0x100 * c + 0xA0) b && Nat.blt b (0x40080000 + 0x100 * c + 0xC0)

theorem portCounter_iff {c b : Nat} :
    portCounter c b = true ↔ 0x400800A0 + 0x100 * c ≤ b ∧ b < 0x400800C0 + 0x100 * c := by
  simp only [portCounter, Bool.and_eq_true, Nat.ble_eq, Nat.blt_eq]
  omega

theorem hookCl_clear (c : Fin 4) (old : Nat) (s : State) :
    hookCl (F.CL_CMD.addr c) 1 old s = s.clearRegs (portCounter c) := by
  have hplace : (F.CL_CMD.addr c - 0x40080000) / 0x100 = c ∧ F.CL_CMD.addr c % 0x100 = 0xC0 := by
    simp only [F.CL_CMD, Field.addr]
    omega
  rw [hookCl, hplace.1, hplace.2]
  rfl

theorem resetWord_portCounter {c b : Nat} (hc : c < 4) (hb : portCounter c b = true) (hword : b % 4 = 0) : resetWord b = 0 := by
  have hall : ∀ (c : Fin 4) (i : Fin 8), resetWord (0x400800A0 + 0x100 * c + 4 * i) = 0 := by decide +kernel
  obtain ⟨hlow, hhigh⟩ := portCounter_iff.mp hb
  have hcounter := hall ⟨c, hc⟩ ⟨(b - (0x400800A0 + 0x100 * c)) / 4, by omega⟩
  rwa [show 0x400800A0 + 0x100 * c + 4 * ((b - (0x400800A0 + 0x100 * c)) / 4) = b by omega] at hcounter

/-- Where registers stand at word addresses only, the eight counters are cleared and nothing else changes (R425). -/
theorem clCntClr_clears (ha : s.Awake) (hwords : WordsOnly s) : Gives (.clCntClr c) s fun t =>
    (∀ a, 0x400800A0 + 0x100 * c.val ≤ a → a < 0x400800C0 + 0x100 * c.val → a % 4 = 0 → t.reg a = 0) ∧
    Only ((List.range 8).map fun i => (0x400800A0 + 0x100 * c.val + 4 * i, 0, 32)) s t := by
  obtain ⟨r, hspec, hlock, hrw, hw1c, hotp⟩ := specAt_clCmd c
  obtain ⟨u, hu⟩ : ∃ u, u = storeWord s (F.CL_CMD.addr c) 1 := ⟨_, rfl⟩
  have hstored (fs : List (Nat × Nat × Nat)) : Only fs s u := hu ▸ storeWord_kept_only s hspec hrw (by rw [hw1c, Nat.zero_and])
  have hjudge : judgeCl s (F.CL_CMD.addr c) 1 = St.ok := if_neg (by simp only [F.CL_CMD, Field.addr]; omega)
  have hwrite : writeCl s F.CL_CMD c 1 = u.clearRegs (portCounter c) := by
    rw [writeCl, writeBy_ok hspec (by rw [hlock, Bool.false_and]) hjudge hotp, hookCl_clear, hu]
  have hcleared : Only ((List.range 8).map fun i => (0x400800A0 + 0x100 * c.val + 4 * i, 0, 32)) u (u.clearRegs (portCounter c)) := by
    refine ⟨rfl, regsKept_words fun a hout => ?_⟩
    rw [reg_clearRegs]
    split
    next hin =>
      obtain ⟨hlow, hhigh⟩ := portCounter_iff.mp hin
      have hbetween : a % 4 ≠ 0 := fun hword => hout
        (List.mem_map.mpr ⟨(a - (0x400800A0 + 0x100 * c)) / 4, List.mem_range.mpr (by omega), by rw [Prod.mk.injEq]; exact ⟨by omega, rfl⟩⟩)
      rw [(hstored []).2.reg (List.forall_mem_nil _), hwords a hbetween]
    next => rfl
  have honly := (hstored _).trans hcleared
  refine gives_of_act ha (congrArg (act s) hwrite) ((congrArg _ honly.chip).trans ha.2) ⟨fun a hlow hhigh hword => ?_, honly⟩
  have hin := portCounter_iff.mpr ⟨hlow, hhigh⟩
  rw [reg_clearRegs, if_pos hin, resetWord_portCounter c.isLt hin hword]

/-! ### A register between two counters -/

/-- The state after reset with a register listed at 0x400800A1, which is no word's address. -/
def strayCounter : State := State.reset.setReg 0x400800A1 1

theorem strayCounter_awake : strayCounter.Awake := by
  unfold State.Awake
  decide +kernel

/-- The counters of client port 0 given back, and the stray register with them. -/
theorem strayCounter_cleared : regNext (exec (.clCntClr 0) strayCounter) 0x400800A1 = some 0 := by decide +kernel

/-- Refutes O33: on `strayCounter` the counters of client port 0 are cleared together with a register listed between the first
two of them, at 0x400800A1, and the statement names the eight counters alone. Where registers stand at word addresses only, the
clause holds (`clCntClr_clears`). -/
theorem not_clientPorts : ¬ Obligations.ClientPorts := by
  intro h
  obtain ⟨-, -, -, -, -, -, -, hclear, -⟩ := h strayCounter 0 strayCounter_awake
  obtain ⟨t, hexec, -, -, hkept⟩ := hclear
  have hstray : t.reg 0x400800A1 = strayCounter.reg 0x400800A1 := hkept.reg (by decide +kernel)
  have hcleared := strayCounter_cleared
  rw [hexec, regNext, hstray] at hcleared
  exact absurd hcleared (by decide +kernel)

end Sys2Proof.Machine
end

section
/-!
PROOFS. The queue opcodes that answer at once or wait: QM_RESET, QM_PKT_SEND into a queue that does not run, QM_PKT_RECV of a
queue that gives no packet, QM_AUDIT (R402, R422, R423, Table 11.3).
-/
namespace Sys2Proof.Machine

variable {s t u w : State} {k : Pkt} {f op : Nat}

/-! ### Block QM as the action of an opcode finds it -/

theorem begun_qm (s : State) (op : Nat) (k : Pkt) : (begun s op k).qm = s.qm := by rw [begun_eq]

theorem queueX_congr (h : t.qm = s.qm) (q : Nat) : t.queueX q = s.queueX q := by rw [State.queueX, h, State.queueX]

theorem queueX_begun (s : State) (op : Nat) (k : Pkt) (q : Nat) : (begun s op k).queueX q = s.queueX q :=
  queueX_congr (begun_qm s op k) q

theorem running_begun (s : State) (op : Nat) (k : Pkt) (q : Nat) : qRunning (begun s op k) q = qRunning s q := by
  rw [qRunning, begun_get_high s op k F.QM_Q_STAT_STATE q (by decide), begun_qm, qRunning]

theorem noJig_begun {js : List Nat} (h : NoJig js s) (op : Nat) (k : Pkt) : NoJig js (begun s op k) := fun j hj => by
  rw [begun_get_high s op k F.FA_JIG_LEFT j (by decide), h j hj]

/-- The registers above the bridge's are none of those in which an answer shows. -/
theorem places_high {gs : List Field} (h : gs.all (fun g => Nat.blt 0x40010000 g.base) = true) {q : Nat} :
    ∀ x ∈ placesAt gs q, x.1 ∉ [0x40000010, 0x4000000C, 0x40010000] := fun x hx => by
  obtain ⟨g, hg, rfl⟩ := List.mem_map.mp hx
  exact not_mem_answerRegs (Nat.blt_eq.mp (List.all_eq_true.mp h g hg))

theorem chip_of_rest (h : w = { s with regs := w.regs, mp := w.mp, qm := w.qm }) : w.chip = s.chip := by rw [h]

theorem qmBus_of_waits {v : State} {j : Option Job} (hv : BusOnly s v) (hw : w = { v with regs := w.regs, mp := w.mp, qm := w.qm })
    (ht : t = { w with regs := t.regs, mp := { w.mp with job := j } }) :
    t = { s with regs := t.regs, mp := t.mp, ch := t.ch, qm := t.qm } := by
  obtain ⟨r, m, c, rfl⟩ : ∃ r m c, v = { s with regs := r, mp := m, ch := c } := ⟨_, _, _, hv⟩
  obtain ⟨r', m', x, rfl⟩ : ∃ r' m' x, w = { { s with regs := r, mp := m, ch := c } with regs := r', mp := m', qm := x } := ⟨_, _, _, hw⟩
  rw [ht]

/-- A command whose action moves registers and block QM, and waits for an event of its own. -/
theorem qm_waits {c : Instr} {row : OpRow} {fs : List (Nat × Nat × Nat)} (h : TakesFw s k f)
    (hc : exec c s = act s (chainCommand s op k (some f))) (hop : op ∉ [2, 3, 4]) (hr : opRow op = some row) (hf : row.fw = true)
    (hl : row.len k.params = true) (hb : runBody .chain (ownJob s op k) (begun s op k) = .wait w)
    (hw : w = { begun s op k with regs := w.regs, mp := w.mp, qm := w.qm }) (hout : w.mp.out = (begun s op k).mp.out)
    (hkept : RegsKept fs (begun s op k) w) (hfs : ∀ g ∈ fs, g.1 ∉ [0x40000010, 0x4000000C, 0x40010000]) : Gives c s fun t =>
      FwWaits s t k ∧ t.qm = w.qm ∧ t.mp.ready = w.mp.ready ∧ RegsKept shownFields w t ∧
      t = { s with regs := t.regs, mp := t.mp, ch := t.ch, qm := t.qm } ∧ RegsKept (bridgeFields ++ fs) s t := by
  simp only [List.mem_cons, List.not_mem_nil, or_false, not_or] at hop
  obtain ⟨h2, h3, h4⟩ := hop
  obtain ⟨⟨⟨-, hdue⟩, -⟩, -⟩ := id h
  obtain ⟨-, hbegun, -⟩ := begun_kept s op k
  have hchip : w.chip = (begun s op k).chip := chip_of_rest hw
  obtain ⟨t, hexec, hwaits, ht, hshown⟩ := waits_fw h hc h2 h3 h4 hr hf hl hb hout hkept
    (fun g hg hlow => hfs g hg (hlow ▸ List.mem_cons_self)) (by rw [hchip, begun_chip, hdue])
  refine ⟨t, hexec, hwaits, by rw [ht], by rw [ht], hshown, qmBus_of_waits (begun_busOnly s op k) hw ht, ?_⟩
  exact (hbegun.mono fun g hg => List.mem_append_left _ ((by decide : ∀ g ∈ F.MP_TXN_COUNT.word :: shownFields, g ∈ bridgeFields) g hg)).trans
    ((hkept.mono fun g hg => List.mem_append_right _ hg).trans
      (hshown.mono fun g hg => List.mem_append_left _ (shown_sub_bridge g hg)))

/-- What the registers above the bridge's show once a command waits. -/
theorem get_waited (h : RegsKept shownFields w t) (g : Field) {i : Nat} (hg : 0x40010000 < g.base) : t.get g i = w.get g i :=
  get_answered (h.mono (by decide)) g hg

theorem qmSet_rest {m : QmX} (h : w = { s with qm := m }) : w = { s with regs := w.regs, mp := w.mp, qm := w.qm } ∧
    w.mp.out = s.mp.out ∧ w.qm = m ∧ RegsKept [] s w := by
  subst h
  exact ⟨rfl, rfl, rfl, RegsKept.of_regs rfl⟩

/-- A command whose action moves block QM alone, and waits for an event of its own. -/
theorem qm_waits_apart {c : Instr} {row : OpRow} {m : QmX} (h : TakesFw s k f)
    (hc : exec c s = act s (chainCommand s op k (some f))) (hop : op ∉ [2, 3, 4]) (hr : opRow op = some row) (hf : row.fw = true)
    (hl : row.len k.params = true) (hb : runBody .chain (ownJob s op k) (begun s op k) = .wait { begun s op k with qm := m }) :
    Gives c s fun t => FwWaits s t k ∧ t.qm = m ∧ t = { s with regs := t.regs, mp := t.mp, ch := t.ch, qm := t.qm } ∧
      RegsKept bridgeFields s t := by
  obtain ⟨w, hw⟩ : ∃ w, w = { begun s op k with qm := m } := ⟨_, rfl⟩
  rw [← hw] at hb
  obtain ⟨hrest, hout, hqm, hregs⟩ := qmSet_rest hw
  obtain ⟨t, hexec, hwaits, htq, -, -, ht, hkept⟩ := qm_waits h hc hop hr hf hl hb hrest hout hregs (by simp)
  exact ⟨t, hexec, hwaits, htq.trans hqm, ht, by rwa [List.append_nil] at hkept⟩

theorem modQueue_eq (s : State) (i : Nat) (g : QueueX → QueueX) : s.modQueue i g = { s with qm := (s.modQueue i g).qm } := rfl

/-- The queues alone of block QM have moved. -/
theorem queuesOnly_of_qm (ht : t = { s with regs := t.regs, mp := t.mp, ch := t.ch, qm := t.qm })
    (hqm : t.qm = { s.qm with queue := t.qm.queue }) :
    t = { s with regs := t.regs, mp := t.mp, ch := t.ch, qm.queue := t.qm.queue } :=
  ht.trans (congrArg (fun m => { s with regs := t.regs, mp := t.mp, ch := t.ch, qm := m }) hqm)

/-! ### Packets that QDMA holds (R423) -/

theorem qPutByte_stopped {q : Nat} (hstop : qRunning s q = false) (b : Byte) : qPutByte s q b = (s, false) := by
  rw [qPutByte, hstop]
  rfl

/-- While a queue does not run, QDMA keeps what it holds for it. -/
theorem qdmaPump_stopped {q : Nat} (hstop : qRunning s q = false) (hheld : (s.queueX q).qdma ≠ [])
    (hfull : ∀ e ∈ (s.queueX q).qdma, e.2 ≠ []) (n : Nat) :
    qdmaPump (n + 1) s q = s.modQueue q fun x => { x with qdma := (s.queueX q).qdma } := by
  unfold qdmaPump
  split
  next hqdma => exact absurd hqdma hheld
  next j bs rest hqdma =>
    obtain ⟨b, bs, rfl⟩ := List.exists_cons_of_ne_nil (hfull (j, bs) (by simp [hqdma]))
    simp only [qPutBytes, qPutByte_stopped hstop]
    simp [hqdma]

theorem running_modQueue (s : State) (i : Nat) (g : QueueX → QueueX) (q : Nat) : qRunning (s.modQueue i g) q = qRunning s q := rfl

theorem qm_modQueue (s : State) (i : Nat) (g : QueueX → QueueX) :
    (s.modQueue i g).qm = { s.qm with queue := (s.modQueue i g).qm.queue } := rfl

/-- QDMA holds packet `bs` of command `j` for queue q, behind those that wait. -/
def queuedBy (s : State) (q : Nat) (j : JobKind) (bs : List Byte) : State :=
  s.modQueue q fun x => { x with qdma := x.qdma ++ [(j, bs)] }

theorem queuedBy_modQueue (s : State) (q i : Nat) (j : JobKind) (bs : List Byte) (g : QueueX → QueueX) :
    (queuedBy s q j bs).modQueue i g = { s with qm := ((queuedBy s q j bs).modQueue i g).qm } := rfl

theorem queueX_queuedBy (s : State) (q : Nat) (j : JobKind) (bs : List Byte) :
    (queuedBy s q j bs).queueX q = { s.queueX q with qdma := (s.queueX q).qdma ++ [(j, bs)] } := State.queueX_modQueue ..

theorem sendLength_ok (q : Byte) {bs : List Byte} (hlen : 1 ≤ bs.length) (hmax : bs.length ≤ 64) :
    lenForm 1 1 1 4095 (q :: bs) = true := by
  simp only [lenForm, List.length_cons, Bool.and_eq_true, Nat.ble_eq, Nat.mod_one, beq_self_eq_true, and_true]
  omega

section
variable (h : TakesFw s k f) {q : Byte} (hq : q.toNat < 64)
include h hq

/-! ### QM_RESET (R402, R422) -/

section
variable (hparams : k.params = [q])
include hparams

theorem qmReset_off (hoff : s.get F.QM_Q_STAT_STATE q.toNat = 0) : Gives (.qmReset k (some f)) s fun t =>
    FwServed f [] s t k St.ok [0, 0, 0, 0] ∧ BusOnly s t := by
  have hstate := begun_get_high s 0x40 k F.QM_Q_STAT_STATE q.toNat (by decide)
  have hbody : runBody .chain (ownJob s 0x40 k) (begun s 0x40 k) = .done (begun s 0x40 k) St.ok [0, 0, 0, 0] := by
    change bodyQmReset .chain k.params (begun s 0x40 k) = _
    rw [bodyQmReset, hparams, show byteAt [q] 0 = q.toNat from rfl, if_neg (by omega), hstate, if_pos hoff]
  exact served_fw_same h rfl (by decide) rfl rfl (by rw [hparams]; rfl) hbody

theorem qmReset_waits (hrun : s.get F.QM_Q_STAT_STATE q.toNat = 1) : Gives (.qmReset k (some f)) s fun t =>
    FwWaits s t k ∧ t.get F.QM_Q_STAT_STATE q.toNat = 2 ∧
    t.queueX q.toNat = { s.queueX q.toNat with resetJobs := (s.queueX q.toNat).resetJobs ++ [.chain] } ∧
    t = { s with regs := t.regs, mp := t.mp, ch := t.ch, qm.queue := t.qm.queue } ∧
    RegsKept (bridgeFields ++ [F.QM_Q_STAT_STATE.at q.toNat]) s t := by
  have hstate := begun_get_high s 0x40 k F.QM_Q_STAT_STATE q.toNat (by decide)
  rw [hrun] at hstate
  obtain ⟨w, hw⟩ : ∃ w, w = ((begun s 0x40 k).put F.QM_Q_STAT_STATE 2 q.toNat).modQueue q.toNat fun x =>
      { x with resetJobs := x.resetJobs ++ [.chain] } := ⟨_, rfl⟩
  have hbody : runBody .chain (ownJob s 0x40 k) (begun s 0x40 k) = .wait w := by
    change bodyQmReset .chain k.params (begun s 0x40 k) = _
    rw [bodyQmReset, hparams, show byteAt [q] 0 = q.toNat from rfl, if_neg (by omega), hstate, if_neg (by decide), qResetStart,
      if_pos hstate, hw]
  have hmoves : QueueMoves [F.QM_Q_STAT_STATE] q.toNat (begun s 0x40 k) w := hw ▸ (put_queueMoves _ _ 2 _).modQueue _ _
  have hqm : w.qm = { s.qm with queue := w.qm.queue } := by
    rw [hw, ← begun_qm s 0x40 k]
    rfl
  have hmp : w.mp = (begun s 0x40 k).mp := hmoves.mp
  obtain ⟨t, hexec, hwaits, htq, -, hshown, hrest, hkept⟩ := qm_waits (c := .qmReset k (some f)) h rfl (by decide) rfl rfl
    (by rw [hparams]; rfl) hbody (by rw [hmp]; exact hmoves.rest) (congrArg MpX.out hmp) hmoves.kept (places_high (by decide))
  refine ⟨t, hexec, hwaits, ?_, ?_, queuesOnly_of_qm hrest (by rw [htq]; exact hqm), hkept⟩
  · rw [get_waited hshown _ (by decide), hw, State.modQueue_get, get_put_same _ _ _ (by decide) (by decide)]
  · rw [queueX_congr htq, hw, State.queueX_modQueue, State.queueX_put, queueX_begun]

end

/-! ### QM_PKT_RECV where no packet comes (R423, R437) -/

section
variable (hparams : k.params = [q]) (hkind : s.get F.QM_Q_CFG_CONS_KIND q.toNat = 3)
include hparams hkind

omit h in
theorem runBody_qmPktRecv : runBody .chain (ownJob s 0x42 k) (begun s 0x42 k) =
    if s.get F.QM_Q_STAT_STATE q.toNat = 2 then refuse (begun s 0x42 k) St.queueReset
    else if s.qm.rebuilding && (!(s.queueX q.toNat).pkts.isEmpty || (s.queueX q.toNat).rd.isSome) then
      .wait ((begun s 0x42 k).modQueue q.toNat fun x => { x with recvJobs := x.recvJobs ++ [.chain] })
    else .done (qdmaTake (begun s 0x42 k) q.toNat).1 (qdmaTake (begun s 0x42 k) q.toNat).2.1
      (qdmaTake (begun s 0x42 k) q.toNat).2.2 := by
  have hbody : runBody .chain (ownJob s 0x42 k) (begun s 0x42 k) = bodyQmPktRecv .chain k.params (begun s 0x42 k) := rfl
  rw [hbody, bodyQmPktRecv, hparams, show byteAt [q] 0 = q.toNat from rfl, if_neg (by omega),
    begun_get_high s 0x42 k F.QM_Q_CFG_CONS_KIND q.toNat (by decide), if_neg (not_not_intro hkind),
    begun_get_high s 0x42 k F.QM_Q_STAT_STATE q.toNat (by decide), begun_qm, queueX_begun]

theorem qmPktRecv_resetting (hreset : s.get F.QM_Q_STAT_STATE q.toNat = 2) : Gives (.qmPktRecv k (some f)) s fun t =>
    FwServed f [] s t k St.queueReset [] ∧ BusOnly s t := by
  have hbody := runBody_qmPktRecv hq hparams hkind
  rw [if_pos hreset] at hbody
  exact served_fw_same h rfl (by decide) rfl rfl (by rw [hparams]; rfl) hbody

theorem qmPktRecv_notPresent (hrun : s.get F.QM_Q_STAT_STATE q.toNat = 1) (hpkts : (s.queueX q.toNat).pkts = [])
    (hrd : (s.queueX q.toNat).rd = none) : Gives (.qmPktRecv k (some f)) s fun t =>
      FwServed f [] s t k St.notPresent [] ∧ BusOnly s t := by
  have hnext : nextPkt (begun s 0x42 k) q.toNat = none := by simp [nextPkt, queueX_begun, hrd, hpkts]
  have hbody := runBody_qmPktRecv hq hparams hkind
  rw [hrun, if_neg (by decide), hpkts, hrd, if_neg (by simp), qdmaTake, hnext] at hbody
  exact served_fw_same h rfl (by decide) rfl rfl (by rw [hparams]; rfl) hbody

theorem qmPktRecv_waits (hrun : s.get F.QM_Q_STAT_STATE q.toNat = 1) (hrebuild : s.qm.rebuilding = true)
    (hpkts : (s.queueX q.toNat).pkts ≠ []) : Gives (.qmPktRecv k (some f)) s fun t =>
      FwWaits s t k ∧ t.queueX q.toNat = { s.queueX q.toNat with recvJobs := (s.queueX q.toNat).recvJobs ++ [.chain] } := by
  have hbody := runBody_qmPktRecv hq hparams hkind
  rw [hrun, if_neg (by decide), hrebuild, if_pos (by simp [hpkts])] at hbody
  rw [modQueue_eq] at hbody
  obtain ⟨t, hexec, hwaits, htq, -⟩ := qm_waits_apart (c := .qmPktRecv k (some f)) h rfl (by decide) rfl rfl
    (by rw [hparams]; rfl) hbody
  refine ⟨t, hexec, hwaits, ?_⟩
  rw [queueX_congr htq, State.queueX_modQueue, queueX_begun]

end

/-! ### QM_PKT_SEND (R423) -/

section
variable {bs : List Byte} (hlen : 1 ≤ bs.length) (hmax : bs.length ≤ 64) (hparams : k.params = q :: bs)
  (hkind : s.get F.QM_Q_CFG_PROD_KIND q.toNat = 3)
include hparams hkind

omit h in
theorem runBody_qmPktSend : runBody .chain (ownJob s 0x41 k) (begun s 0x41 k) =
    .wait (qdmaPump 8 (queuedBy (begun s 0x41 k) q.toNat .chain bs) q.toNat) := by
  have hbody : runBody .chain (ownJob s 0x41 k) (begun s 0x41 k) = bodyQmPktSend .chain k.params (begun s 0x41 k) := rfl
  rw [hbody, bodyQmPktSend, hparams, show byteAt (q :: bs) 0 = q.toNat from rfl, if_neg (by omega),
    begun_get_high s 0x41 k F.QM_Q_CFG_PROD_KIND q.toNat (by decide), if_neg (not_not_intro hkind)]
  rfl

include hlen hmax

theorem qmPktSend_waits (hstop : qRunning s q.toNat = false) (hfull : ∀ e ∈ (s.queueX q.toNat).qdma, e.2 ≠ []) :
    Gives (.qmPktSend k (some f)) s fun t =>
      FwWaits s t k ∧ t.queueX q.toNat = { s.queueX q.toNat with qdma := (s.queueX q.toNat).qdma ++ [(.chain, bs)] } ∧
      t = { s with regs := t.regs, mp := t.mp, ch := t.ch, qm.queue := t.qm.queue } ∧ RegsKept bridgeFields s t := by
  have hx := queueX_queuedBy (begun s 0x41 k) q.toNat .chain bs
  rw [queueX_begun] at hx
  have hrun : qRunning (queuedBy (begun s 0x41 k) q.toNat .chain bs) q.toNat = false := by
    rw [queuedBy, running_modQueue, running_begun, hstop]
  have hmore : ∀ e ∈ (s.queueX q.toNat).qdma ++ [(.chain, bs)], e.2 ≠ [] := fun e he =>
    (List.mem_append.mp he).elim (hfull e) fun hlast => by
      rw [List.mem_singleton.mp hlast]
      exact List.ne_nil_of_length_pos hlen
  have hqm : (queuedBy (begun s 0x41 k) q.toNat .chain bs).qm =
      { s.qm with queue := (queuedBy (begun s 0x41 k) q.toNat .chain bs).qm.queue } := by rw [← begun_qm s 0x41 k]; rfl
  have hbody := runBody_qmPktSend hq hparams hkind
  rw [qdmaPump_stopped hrun (by simp [hx]) (by rw [hx]; exact hmore), hx] at hbody
  rw [queuedBy_modQueue] at hbody
  obtain ⟨t, hexec, hwaits, htq, ht, hkept⟩ := qm_waits_apart (c := .qmPktSend k (some f)) h rfl (by decide) rfl rfl
    (hparams ▸ sendLength_ok q hlen hmax) hbody
  refine ⟨t, hexec, hwaits, ?_, queuesOnly_of_qm ht ?_, hkept⟩
  · rw [queueX_congr htq, State.queueX_modQueue, hx]
  · rw [htq, qm_modQueue, hqm]

end

end

/-! ### QM_AUDIT (R423) -/

theorem qmFree_begun (s : State) (op : Nat) (k : Pkt) : qmFree (begun s op k) = qmFree s := by
  have hcells (q : Nat) : qCells (begun s op k) q = qCells s q := begun_get_high s op k F.QM_Q_STAT_CELLS q (by decide)
  simp only [qmFree, hcells]

/-- Where every two copies agree, an audit counts cells and finds no difference. -/
theorem bodyQmAudit_clean (hjigs : NoJig [8, 9, 10] s) (hsame : s.qm.differ = []) :
    bodyQmAudit s = .done s St.ok (toLE 2 (poolCells - qmFree s) ++ toLE 2 (qmFree s) ++ [0]) := by
  have hwalk (q : Nat) : walkQueue s q = (s, none) :=
    walkQueue_clean (fun j hj => hjigs j (List.mem_of_mem_dropLast (l := [8, 9, 10]) hj)) hsame q
  have hfree : qmCompare s 10 freeHeadId = (s, none) := qmCompare_agree (hjigs 10 (by decide)) (by rw [hsame]; exact List.not_mem_nil)
  unfold bodyQmAudit
  dsimp only
  rw [List.foldl_fixed' (a := (s, 0)) (fun q => by simp only [hwalk, ite_self])]
  simp only [hfree, hsame]
  rfl

theorem qmAudit_serves (h : TakesFw s k f) (hparams : k.params = []) (hjigs : NoJig [8, 9, 10] s) (hsame : s.qm.differ = []) :
    Gives (.qmAudit k (some f)) s fun t =>
      FwServed f [] s t k St.ok (toLE 2 (poolCells - qmFree s) ++ toLE 2 (qmFree s) ++ [0]) ∧ BusOnly s t := by
  have hbody : runBody .chain (ownJob s 0x43 k) (begun s 0x43 k) = bodyQmAudit (begun s 0x43 k) := rfl
  rw [bodyQmAudit_clean (noJig_begun hjigs 0x43 k) (by rw [begun_qm, hsame]), qmFree_begun] at hbody
  exact served_fw_same h rfl (by decide) rfl rfl (by rw [hparams]; rfl) hbody

end Sys2Proof.Machine
end

section
/-!
PROOFS. A packet that lies in one cell, read whole by QM_PKT_RECV (R401, R423).
-/
namespace Sys2Proof.Machine

variable {s t u w : State} {k : Pkt} {f : Nat} {p : QPkt} {ps : List QPkt} {c : Nat}

/-! ### The bytes of the pool -/

theorem poolBytes_congr (h : t.qm.pool = s.qm.pool) (off n : Nat) : poolBytes t off n = poolBytes s off n := by
  rw [poolBytes, h, poolBytes]

theorem poolBytes_length (s : State) (off n : Nat) : (poolBytes s off n).length = n := by simp [poolBytes]

theorem poolBytes_append (s : State) (off n m : Nat) : poolBytes s off n ++ poolBytes s (off + n) m = poolBytes s off (n + m) := by
  simp [poolBytes, List.range_add, Nat.add_assoc]

/-! ### The words of a packet, one after another (R401) -/

/-- The consumer of queue q has begun with packet p, its first `p.read` bytes being on its side. -/
structure Filling (s : State) (q : Nat) (p : QPkt) (ps : List QPkt) (c : Nat) : Prop where
  readable : Readable s q p ps c
  buf : (s.queueX q).buf.length = p.read
  rd : (s.queueX q).rd = some { len := p.len, err := p.err, left := p.len - p.read }
  same : s.qm.differ = []

/-- All of packet p, which `s` finds being read, has come to the consumer's side. -/
structure Filled (s u : State) (q : Nat) (p : QPkt) (ps : List QPkt) (c : Nat) : Prop where
  moves : QueueMoves readFields q s u
  pkts : (u.queueX q).pkts = ps
  buf : (u.queueX q).buf = (s.queueX q).buf ++ poolBytes s (64 * c + p.read) (p.len - p.read)
  rd : (u.queueX q).rd = some { len := p.len, err := p.err, left := 0 }
  count : u.get F.QM_Q_PKTS q = s.get F.QM_Q_PKTS q - 1
  cells : u.get F.QM_Q_STAT_CELLS q = s.get F.QM_Q_STAT_CELLS q - 1

/-- With more than a word left, the next word leaves the packet being read. -/
theorem Filling.next {q : Fin 64} (h : Filling s q p ps c) (hmore : p.read + 16 < p.len) :
    Filling (wordOut s q c p ({ p with read := p.read + 16 } :: ps)) q { p with read := p.read + 16 } ps c := by
  obtain ⟨hread, hbuf, hrd, hsame⟩ := h
  have hmoves := wordOut_moves s q c p ({ p with read := p.read + 16 } :: ps)
  have hx := queueX_wordOut s q c p ({ p with read := p.read + 16 } :: ps)
  have hrebuild : (wordOut s q c p ({ p with read := p.read + 16 } :: ps)).qm.rebuilding = s.qm.rebuilding := rfl
  have hdiffer : (wordOut s q c p ({ p with read := p.read + 16 } :: ps)).qm.differ = s.qm.differ := rfl
  have hn : wordBytes p = 16 := by rw [wordBytes]; omega
  generalize wordOut s q c p ({ p with read := p.read + 16 } :: ps) = v at hmoves hx hrebuild hdiffer
  obtain ⟨-, hcells, hpool, haligned, -, hfits, hrun, hjigs, hgood, hlink, hhead⟩ := hread
  refine ⟨⟨by rw [hx, wordTaken], hcells, hpool, ?_, hmore, hfits, ?_, hmoves.noJig q.isLt (by decide) hjigs, by rw [hmoves.fa, hgood],
    by rwa [hdiffer], by rwa [hdiffer]⟩, ?_, ?_, by rw [hdiffer, hsame]⟩
  · change (p.read + 16) % 16 = 0
    omega
  · rw [hmoves.running (by decide) hrebuild, hrun]
  · rw [hx, wordTaken, List.length_append, hbuf, poolBytes_length, hn]
  · rw [hx, wordTaken, hn, hrd]
    rfl

/-- The last word. -/
theorem Filling.last {q : Nat} (h : Filling s q p ps c) (hlast : p.len ≤ p.read + 16) : Filled s (lastOut s q c p ps) q p ps c := by
  obtain ⟨hread, -, hrd, -⟩ := h
  have hleft := hread.left
  have hn : wordBytes p = p.len - p.read := by rw [wordBytes]; omega
  obtain ⟨hcells, hcount⟩ := lastOut_held s q c p ps
  refine ⟨lastOut_moves s q c p ps, ?_, ?_, ?_, hcount, hcells⟩
  · rw [queueX_lastOut, queueX_wordOut, wordTaken]
  · rw [queueX_lastOut, queueX_wordOut, wordTaken, hn]
  · rw [queueX_lastOut, queueX_wordOut, wordTaken, hn, hrd, Nat.add_sub_cancel' hleft.le, Nat.sub_self]
    rfl

/-- What follows the next word follows the packet. -/
theorem Filled.after {q : Nat} (hmore : p.read + 16 < p.len)
    (h : Filled (wordOut s q c p ({ p with read := p.read + 16 } :: ps)) u q { p with read := p.read + 16 } ps c) : Filled s u q p ps c := by
  obtain ⟨hmoves, hpkts, hbuf, hrd, hcount, hcells⟩ := h
  have hn : wordBytes p = 16 := by rw [wordBytes]; omega
  have hleft : p.len - p.read = 16 + (p.len - (p.read + 16)) := by omega
  refine ⟨(wordOut_moves s q c p _).trans hmoves, hpkts, ?_, hrd, ?_, ?_⟩
  · rw [hbuf, queueX_wordOut, wordTaken, hn, List.append_assoc, poolBytes_congr (t := wordOut _ _ _ _ _) (s := s) rfl,
      hleft, ← poolBytes_append, Nat.add_assoc]
  · rw [hcount, wordOut_held _ _ _ _ _ (by decide)]
  · rw [hcells, wordOut_held _ _ _ _ _ (by decide)]

theorem qFill_done {q : Nat} (h : (s.queueX q).rd = some { len := p.len, err := p.err, left := 0 }) (n m : Nat) : qFill n s q m = s := by
  cases n with
  | zero => rfl
  | succ n => simp [qFill, h]

/-- Enough words read bring the whole packet. -/
theorem qFill_fills {q : Fin 64} (n : Nat) (h : Filling s q p ps c) (hfuel : p.len ≤ p.read + 16 * n) :
    Filled s (qFill n s q 9212) q p ps c := by
  induction n generalizing s p with
  | zero => exact absurd h.readable.left (by omega)
  | succ n ih =>
    have hshort : ¬ 9212 ≤ (s.queueX q).buf.length := by
      have hfits := h.readable.fits
      have hleft := h.readable.left
      rw [h.buf]
      omega
    have hstep : qFill (n + 1) s q 9212 = if (qReadWord s q).2 then qFill n (qReadWord s q).1 q 9212 else (qReadWord s q).1 := by
      have hleft : 0 < p.len - p.read := Nat.sub_pos_of_lt h.readable.left
      simp [qFill, h.rd, hshort, hleft]
    rw [hstep]
    by_cases hlast : p.len ≤ p.read + 16
    · have hfilled := h.last hlast
      rw [qReadWord_last h.readable hlast (by simp [h.same]), if_pos rfl, qFill_done hfilled.rd]
      exact hfilled
    · have hmore : p.read + 16 < p.len := Nat.lt_of_not_le hlast
      rw [qReadWord_goesOn h.readable hmore, if_pos rfl]
      exact (ih (h.next hmore) (by change p.len ≤ p.read + 16 + 16 * n; omega)).after hmore

/-! ### QM_PKT_RECV (R423) -/

/-- The consumer begins with packet p. -/
def begunReading (s : State) (q : Nat) (p : QPkt) : State :=
  s.modQueue q fun x => { x with rd := some { len := p.len, err := p.err, left := p.len } }

theorem queueX_begunReading (s : State) (q : Nat) (p : QPkt) : (begunReading s q p).queueX q =
    { s.queueX q with rd := some { len := p.len, err := p.err, left := p.len } } := State.queueX_modQueue ..

theorem begunReading_moves (s : State) (q : Nat) (p : QPkt) : QueueMoves [] q s (begunReading s q p) :=
  (QueueMoves.refl [] q s).modQueue q _

theorem beginPkt_of_none {q : Nat} (hpkts : (s.queueX q).pkts = p :: ps) (hrd : (s.queueX q).rd = none) :
    beginPkt s q = begunReading s q p := by
  simp only [beginPkt, hpkts, hrd, begunReading]

theorem OneCell.filling {q : Fin 64} (h : OneCell s q p ps c) : Filling (begunReading s q p) q p ps c := by
  have hx := queueX_begunReading s q p
  have hmoves := begunReading_moves s q p
  have hrebuild : (begunReading s q p).qm.rebuilding = s.qm.rebuilding := rfl
  have hdiffer : (begunReading s q p).qm.differ = s.qm.differ := rfl
  generalize begunReading s q p = v at hx hmoves hrebuild hdiffer
  obtain ⟨hpkts, hcells, hpool, haligned, hleft, hfits, hrun, hjigs, hgood, hlink, hhead⟩ := h.readable
  obtain ⟨-, -, -, hread, -, -, -, hbuf, -, -, -, hsame⟩ := h
  refine ⟨⟨by rw [hx, hpkts], hcells, hpool, haligned, hleft, hfits, ?_, hmoves.noJig q.isLt (by decide) hjigs, by rw [hmoves.fa, hgood],
    by rwa [hdiffer], by rwa [hdiffer]⟩, ?_, ?_, by rw [hdiffer, hsame]⟩
  · rw [hmoves.running (by decide) hrebuild, hrun]
  · rw [hx, hbuf, hread]
    rfl
  · rw [hx, hread]
    rfl

theorem endPkt_moves (s : State) (q : Nat) : QueueMoves [] q s (endPkt s q) := (QueueMoves.refl [] q s).modQueue q _

theorem openBytes_none (s : State) : openBytes s 0 = (s, []) := rfl

/-- QDMA takes a packet that lies in one cell. -/
theorem qdmaTake_oneCell {q : Fin 64} (h : OneCell s q p ps c) : ∃ u,
    qdmaTake s q = (u, St.ok, toLE 1 (b2n p.err) ++ toLE 2 p.len ++ poolBytes s (64 * c) p.len) ∧
    QueueMoves readFields q s u ∧ (u.queueX q).pkts = ps ∧
    u.get F.QM_Q_PKTS q = s.get F.QM_Q_PKTS q - 1 ∧ u.get F.QM_Q_STAT_CELLS q = s.get F.QM_Q_STAT_CELLS q - 1 := by
  have hfill := h.filling
  have hfilled := qFill_fills 600 hfill (by have := hfill.readable.fits; omega)
  obtain ⟨hpkts, -, -, hread, -, hfits, hrd, hbuf, hrun, -, -, -⟩ := h
  have hstate : s.get F.QM_Q_STAT_STATE q ≠ 2 := fun htwo => by simp [qRunning, htwo] at hrun
  have hnext : nextPkt s q = some p.len := by simp [nextPkt, hrd, hrun, hpkts]
  have hwhole : wholePkt s q = (qFill 600 (begunReading s q p) q 9212, ((qFill 600 (begunReading s q p) q 9212).queueX q).buf) := by
    rw [wholePkt, beginPkt_of_none hpkts hrd]
  have hx := queueX_begunReading s q p
  have hmoves := begunReading_moves s q p
  have hpool : (begunReading s q p).qm.pool = s.qm.pool := rfl
  generalize begunReading s q p = v at hfilled hwhole hx hmoves hpool
  obtain ⟨hfmoves, hrest, hbytes, hdone, hcount, hcells⟩ := hfilled
  rw [hx, hbuf, hread, Nat.sub_zero, Nat.add_zero, List.nil_append, poolBytes_congr hpool] at hbytes
  rw [hmoves.get _ (by decide)] at hcount hcells
  generalize qFill 600 v q 9212 = w at hfmoves hrest hbytes hdone hcount hcells hwhole
  have hwmoves := (hmoves.mono (List.nil_subset readFields)).trans hfmoves
  have hends := endPkt_moves w q
  have hbad : rdBad w q = p.err := by simp [rdBad, hdone]
  have hshort : decide (4079 < p.len) = false := decide_eq_false (by omega)
  have hlen : p.len - (poolBytes s (64 * c) p.len).length = 0 := by rw [poolBytes_length, Nat.sub_self]
  have hwstate : w.get F.QM_Q_STAT_STATE q ≠ 2 := by rwa [hwmoves.get _ (by decide)]
  refine ⟨endPkt w q, ?_, hwmoves.trans (hends.mono (List.nil_subset readFields)), ?_, ?_, ?_⟩
  · simp only [qdmaTake, hnext, hwhole, if_neg hwstate, hbad, hshort, hbytes, hlen, openBytes_none, List.append_nil]
    rw [List.take_of_length_le (by rw [poolBytes_length]; omega)]
    rfl
  · rw [endPkt, State.queueX_modQueue, hrest]
  · rw [hends.get _ (by decide), hcount]
  · rw [hends.get _ (by decide), hcells]

theorem OneCell.begun {q : Nat} (h : OneCell s q p ps c) (op : Nat) (k : Pkt) : OneCell (Machine.begun s op k) q p ps c := by
  obtain ⟨hpkts, hcells, hpool, hread, hleft, hfits, hrd, hbuf, hrun, hjigs, hgood, hsame⟩ := h
  have hfa : (Machine.begun s op k).fa = s.fa := by rw [begun_eq]
  unfold OneCell
  rw [queueX_begun, running_begun, hfa, begun_qm]
  exact ⟨hpkts, hcells, hpool, hread, hleft, hfits, hrd, hbuf, hrun, noJig_begun hjigs op k, hgood, hsame⟩

/-- An action that moves block QM alone, answered at once. -/
theorem qmBus_of_moves {v : State} {gs : List Field} {q : Nat} (hbus : BusOnly s v) (hmoves : QueueMoves gs q v u) (hbridge : BridgeOnly u t) :
    t = { s with regs := t.regs, mp := t.mp, ch := t.ch, qm := t.qm } := by
  obtain ⟨_, _, _, _, _, rfl⟩ := hbridge
  rw [hmoves.rest, hbus]

theorem qmPktRecv_receives (h : TakesFw s k f) {q : Byte} (hq : q.toNat < 64) (hparams : k.params = [q])
    (hkind : s.get F.QM_Q_CFG_CONS_KIND q.toNat = 3) (hone : OneCell s q.toNat p ps c) : Gives (.qmPktRecv k (some f)) s fun t =>
      FwServed f (F.QM_Q_DEQ_BYTES_LO.words64 q.toNat ++ [F.QM_Q_PKTS.word q.toNat, F.QM_Q_STAT_CELLS.at q.toNat]) s t k St.ok
        (toLE 1 (b2n p.err) ++ toLE 2 p.len ++ poolBytes s (64 * c) p.len) ∧
      (t.queueX q.toNat).pkts = ps ∧ t.get F.QM_Q_PKTS q.toNat = s.get F.QM_Q_PKTS q.toNat - 1 ∧
      t.get F.QM_Q_STAT_CELLS q.toNat = s.get F.QM_Q_STAT_CELLS q.toNat - 1 ∧
      t = { s with regs := t.regs, mp := t.mp, ch := t.ch, qm := t.qm } := by
  obtain ⟨u, htake, hmoves, hpkts, hcount, hcells⟩ := qdmaTake_oneCell (q := ⟨q.toNat, hq⟩) (hone.begun 0x42 k)
  obtain ⟨-, -, -, -, -, -, -, -, hrun, -⟩ := hone
  simp only [qRunning, Bool.and_eq_true, beq_iff_eq, Bool.not_eq_true'] at hrun
  obtain ⟨hstate, hheld⟩ := hrun
  have hbody := runBody_qmPktRecv hq hparams hkind
  rw [hstate, if_neg (by decide), hheld, if_neg (by simp), htake] at hbody
  rw [begun_get_high _ _ _ _ _ (by decide)] at hcount hcells
  rw [poolBytes_congr (t := Machine.begun s 0x42 k) (s := s) (by rw [begun_qm])] at hbody
  obtain ⟨t, hexec, hserved, hbridge, hshown⟩ := served_fw_acts (c := .qmPktRecv k (some f)) h rfl (by decide) rfl rfl
    (by rw [hparams]; rfl) hbody hmoves.mp (by rw [hmoves.chip, begun_chip]) hmoves.kept (places_high (by decide))
  have hqm : t.qm = u.qm := by rw [hbridge.eq]
  refine ⟨t, hexec, hserved, by rw [queueX_congr hqm, hpkts], ?_, ?_, qmBus_of_moves (begun_busOnly s 0x42 k) hmoves hbridge⟩
  · rw [get_answered hshown _ (by decide), hcount]
  · rw [get_answered hshown _ (by decide), hcells]

end Sys2Proof.Machine
end

section
/-!
PROOFS. A packet written whole by QM_PKT_SEND into a queue that has room for it (R398, R423).
-/
namespace Sys2Proof.Machine

/-! ### What the queues hold, each of them listed once -/

namespace SMap

variable {α β : Type} {d : Nat → α} {g : α → List β} {k lo : Nat} {m : List (Nat × α)}

theorem flatMap_erase (hm : risingFrom lo m = true) (hk : g (get d m k) = []) :
    ((erase k m).flatMap fun e => g e.2) = m.flatMap fun e => g e.2 := by
  induction m generalizing lo with
  | nil => rfl
  | cons e m ih =>
    simp only [risingFrom, Bool.and_eq_true] at hm
    by_cases he : e.1 = k
    · rw [get, if_pos he] at hk
      rw [erase, if_pos he, erase_of_rising (by omega) hm.2, List.flatMap_cons, hk, List.nil_append]
    · rw [get, if_neg he] at hk
      rw [erase, if_neg he, List.flatMap_cons, List.flatMap_cons, ih hm.2 hk]

theorem flatMap_insert {v : α} (hd : g (d k) = []) (hm : risingFrom lo m = true) (hv : g v = g (get d m k)) :
    ((insert k v (erase k m)).flatMap fun e => g e.2) = m.flatMap fun e => g e.2 := by
  induction m generalizing lo with
  | nil => simp [erase, insert, hv, get, hd]
  | cons e m ih =>
    simp only [risingFrom, Bool.and_eq_true] at hm
    by_cases he : e.1 = k
    · rw [get, if_pos he] at hv
      rw [erase, if_pos he, erase_of_rising (by omega) hm.2, insert_of_rising v (by omega) hm.2, List.flatMap_cons, List.flatMap_cons, hv]
    · rw [get, if_neg he] at hv
      rw [erase, if_neg he, insert]
      split
      next hlt =>
        rw [get_of_rising d (by omega) hm.2, hd] at hv
        rw [erase_of_rising (by omega) hm.2, List.flatMap_cons, hv, List.nil_append]
      next => rw [List.flatMap_cons, List.flatMap_cons, ih hm.2 hv]

/-- A value replaced by one of which a list says the same. -/
theorem flatMap_set [DecidableEq α] {v : α} (hd : g (d k) = []) (hm : wf d m = true) (hv : g v = g (get d m k)) :
    ((set d m k v).flatMap fun e => g e.2) = m.flatMap fun e => g e.2 := by
  simp only [wf, Bool.and_eq_true] at hm
  rw [set]
  split
  next heq => exact flatMap_erase hm.1 (by rw [← hv, heq, hd])
  next => exact flatMap_insert hd hm.1 hv

end SMap

variable {s t u : State} {q c : Nat} {p : QPkt}

/-- The list of queues is in its canonical form: no queue stands in it twice. -/
def State.queuesWf (s : State) : Prop := SMap.wf queueDflt s.qm.queue = true

theorem heldCells_modQueue (h : s.queuesWf) (q : Nat) (g : QueueX → QueueX) (hg : (g (s.queueX q)).cells = (s.queueX q).cells) :
    heldCells (s.modQueue q g) = heldCells s := SMap.flatMap_set (g := QueueX.cells) rfl h hg

theorem nextCell_congr (h : heldCells t = heldCells s) : nextCell t = nextCell s := by rw [nextCell, h, nextCell]

/-! ### The bytes of a packet, one after another (R398) -/

theorem get64_lt (s : State) {lo : Field} (hw : lo.w = 32) (q : Nat) : s.get64 lo q < 2 ^ 64 := by
  have hlow := State.get_lt s lo q 0
  have hhigh := State.get_lt s (highHalf lo) q 0
  have hwide : s.get64 lo q = s.get lo q + 2 ^ 32 * s.get (highHalf lo) q := rfl
  rw [show (highHalf lo).w = lo.w from rfl] at hhigh
  rw [hw] at hlow hhigh
  rw [hwide]
  omega

/-- The producer of queue q is within packet p, all of it in cell c. -/
structure Writing (s : State) (q : Nat) (p : QPkt) (c : Nat) : Prop where
  running : qRunning s q = true
  skip : (s.queueX q).skip = false
  cur : (s.queueX q).cur = some p
  cells : p.cells = [c]
  some_ : 1 ≤ p.len
  good : s.fa.badWords = []

/-- The registers that a byte within a packet moves. -/
def byteFields : List Field := F.QM_Q_STAT_FULL :: storeFields

/-- Bytes `bs` written at the end of packet p. -/
structure Written (s u : State) (q : Nat) (p : QPkt) (c : Nat) (bs : List Byte) : Prop where
  moves : QueueMoves byteFields q s u
  queue : u.queueX q = { s.queueX q with cur := some { p with len := p.len + bs.length } }
  pool : poolBytes u (64 * c) (p.len + bs.length) = poolBytes s (64 * c) p.len ++ bs
  count : u.get64 F.QM_Q_ENQ_BYTES_LO q = (s.get64 F.QM_Q_ENQ_BYTES_LO q + bs.length) % 2 ^ 64
  rebuild : u.qm.rebuilding = s.qm.rebuilding

theorem poolBytes_byteStored {off n : Nat} (s : State) (q : Nat) (b : Byte) (p : QPkt) :
    poolBytes (byteStored s q (off + n) b p) off (n + 1) = poolBytes s off n ++ [b] := by
  rw [← poolBytes_append, poolBytes_byteStored_one]
  congr 1
  refine List.map_congr_left fun i hi => ?_
  rw [pool_byteStored, if_neg (by have := List.mem_range.mp hi; omega)]

/-- One byte more. -/
theorem Writing.next (h : Writing s q p c) (hfits : p.len < 64) (b : Byte) : ∃ u, qPutByte s q b = (u, true) ∧
    Writing u q { p with len := p.len + 1 } c ∧ Written s u q p c [b] := by
  obtain ⟨hrun, hskip, hcur, hcells, hsome, hgood⟩ := h
  have hput := qPutByte_goesOn (c := c) hrun hskip hcur (by omega) (by rw [hcells]; rfl) b
  rw [Nat.mod_eq_of_lt hfits] at hput
  have hfull := setFull_moves s q false
  have hqm := qm_setFull s q false
  generalize setFull s q false = v at hput hfull hqm
  have hvgood : v.fa.badWords = [] := by rw [hfull.fa, hgood]
  have hstored := byteStored_moves hvgood q (64 * c + p.len) b { p with len := p.len + 1 }
  have hx := queueX_byteStored v q (64 * c + p.len) b { p with len := p.len + 1 }
  have hpool := poolBytes_byteStored (off := 64 * c) (n := p.len) v q b { p with len := p.len + 1 }
  have hcount := get64_byteStored hvgood q (64 * c + p.len) b { p with len := p.len + 1 }
  have hrebuild : (byteStored v q (64 * c + p.len) b { p with len := p.len + 1 }).qm.rebuilding = v.qm.rebuilding := rfl
  generalize byteStored v q (64 * c + p.len) b { p with len := p.len + 1 } = u at hput hstored hx hpool hcount hrebuild
  have hmoves : QueueMoves byteFields q s u := (hfull.mono (by decide)).trans (hstored.mono (by decide))
  rw [queueX_congr hqm] at hx
  rw [poolBytes_congr (t := v) (s := s) (by rw [hqm])] at hpool
  rw [hfull.get64 _ (by decide)] at hcount
  rw [hqm] at hrebuild
  exact ⟨u, hput, ⟨by rw [hmoves.running (by decide) hrebuild, hrun], by rw [hx, hskip], by rw [hx], hcells, Nat.le_add_left 1 _,
    by rw [hmoves.fa, hgood]⟩, ⟨hmoves, hx, hpool, hcount, hrebuild⟩⟩

theorem Written.refl (h : Writing s q p c) : Written s s q p c [] := by
  refine ⟨QueueMoves.refl _ q s, ?_, (List.append_nil _).symm, (Nat.mod_eq_of_lt (get64_lt s rfl q)).symm, rfl⟩
  have hcur := h.cur
  generalize s.queueX q = x at hcur
  rw [List.length_nil, Nat.add_zero, ← hcur]

/-- Bytes after bytes. -/
theorem Written.trans {bs bs' : List Byte} (h : Written s t q p c bs) (h' : Written t u q { p with len := p.len + bs.length } c bs') :
    Written s u q p c (bs ++ bs') := by
  obtain ⟨hmoves, hx, hpool, hcount, hrebuild⟩ := h
  obtain ⟨hmoves', hx', hpool', hcount', hrebuild'⟩ := h'
  refine ⟨hmoves.trans hmoves', ?_, ?_, ?_, hrebuild'.trans hrebuild⟩
  · rw [hx', hx, List.length_append, Nat.add_assoc]
  · rw [List.length_append, ← Nat.add_assoc, hpool', hpool, List.append_assoc]
  · rw [hcount', hcount, List.length_append]
    omega

theorem qPutBytes_writes (bs : List Byte) (h : Writing s q p c) (hfits : p.len + bs.length ≤ 64) :
    ∃ u, qPutBytes s q bs = (u, []) ∧ Written s u q p c bs := by
  induction bs generalizing s p with
  | nil => exact ⟨s, rfl, Written.refl h⟩
  | cons b bs ih =>
    rw [List.length_cons] at hfits
    obtain ⟨t, hput, hnext, hone⟩ := h.next (by omega) b
    obtain ⟨u, hrest, hwritten⟩ := ih hnext (by change p.len + 1 + bs.length ≤ 64; omega)
    refine ⟨u, ?_, hone.trans hwritten⟩
    rw [qPutBytes, hput]
    exact hrest

/-! ### A whole packet (R398, R400) -/

/-- The registers that a packet written moves. -/
def packetFields : List Field := [F.QM_Q_STAT_CELLS, F.QM_Q_ENQ_CELLS_LO, highHalf F.QM_Q_ENQ_CELLS_LO, F.QM_Q_PKTS] ++ byteFields

/-- A queue that takes a packet of its producer: it runs, holds no packet in progress, a cell can be taken, and no Jig or defect that
writing meets is there. -/
structure Writable (s : State) (q : Nat) : Prop where
  running : qRunning s q = true
  skip : (s.queueX q).skip = false
  cur : (s.queueX q).cur = none
  room : qCanTake s q = true
  jigs : NoJig [9, 10] s
  good : s.fa.badWords = []
  same : s.qm.differ = []

/-- Packet `bs`, all of it in cell c, stands with the producer. -/
structure Stored (s u : State) (q c : Nat) (bs : List Byte) : Prop where
  moves : QueueMoves packetFields q s u
  queue : u.queueX q = { s.queueX q with cur := some { cells := [c], len := bs.length } }
  pool : poolBytes u (64 * c) bs.length = bs
  count : u.get64 F.QM_Q_ENQ_BYTES_LO q = (s.get64 F.QM_Q_ENQ_BYTES_LO q + bs.length) % 2 ^ 64
  pkts : u.get F.QM_Q_PKTS q = s.get F.QM_Q_PKTS q

/-- The first byte takes a cell. -/
theorem Writable.first (h : Writable s q) (b : Byte) : ∃ u, qPutByte s q b = (u, true) ∧
    Writing u q { cells := [nextCell s], len := 1 } (nextCell s) ∧ Stored s u q (nextCell s) [b] := by
  obtain ⟨hrun, hskip, hcur, hroom, hjigs, hgood, hsame⟩ := h
  have hput := qPutByte_begins hrun hskip hcur hroom hjigs hsame b
  have htaken := cellTaken_moves s q
  have hfull := setFull_moves (cellTaken s q) q false
  have hqm : (setFull (cellTaken s q) q false).qm = s.qm := (qm_setFull _ q false).trans (qm_cellTaken s q)
  generalize setFull (cellTaken s q) q false = v at hput hfull hqm
  generalize cellTaken s q = v0 at htaken hfull
  have hvgood : v.fa.badWords = [] := by rw [hfull.fa, htaken.fa, hgood]
  have hstored := byteStored_moves hvgood q (64 * nextCell s) b { cells := [nextCell s], len := 1 }
  have hx := queueX_byteStored v q (64 * nextCell s) b { cells := [nextCell s], len := 1 }
  have hpool := poolBytes_byteStored_one v q (64 * nextCell s) b { cells := [nextCell s], len := 1 }
  have hcount := get64_byteStored hvgood q (64 * nextCell s) b { cells := [nextCell s], len := 1 }
  have hrebuild : (byteStored v q (64 * nextCell s) b { cells := [nextCell s], len := 1 }).qm.rebuilding = v.qm.rebuilding := rfl
  generalize byteStored v q (64 * nextCell s) b { cells := [nextCell s], len := 1 } = u at hput hstored hx hpool hcount hrebuild
  have hmoves : QueueMoves packetFields q s u :=
    (htaken.mono (by decide)).trans ((hfull.mono (by decide)).trans (hstored.mono (by decide)))
  rw [queueX_congr hqm] at hx
  rw [hfull.get64 _ (by decide), htaken.get64 _ (by decide)] at hcount
  rw [hqm] at hrebuild
  have hpkts : u.get F.QM_Q_PKTS q = s.get F.QM_Q_PKTS q := by
    rw [hstored.get _ (by decide), hfull.get _ (by decide), htaken.get _ (by decide)]
  exact ⟨u, hput, ⟨by rw [hmoves.running (by decide) hrebuild, hrun], by rw [hx, hskip], by rw [hx], rfl, le_rfl,
    by rw [hmoves.fa, hgood]⟩, ⟨hmoves, hx, hpool, hcount, hpkts⟩⟩

/-- Bytes after the first. -/
theorem Stored.goesOn {bs bs' : List Byte} (h : Stored s t q c bs) (h' : Written t u q { cells := [c], len := bs.length } c bs') :
    Stored s u q c (bs ++ bs') := by
  obtain ⟨hmoves, hx, hpool, hcount, hpkts⟩ := h
  obtain ⟨hmoves', hx', hpool', hcount', -⟩ := h'
  refine ⟨hmoves.trans (hmoves'.mono (by decide)), ?_, ?_, ?_, by rw [hmoves'.get _ (by decide), hpkts]⟩
  · rw [hx', hx, List.length_append]
  · rw [List.length_append]
    exact hpool'.trans (congrArg (· ++ bs') hpool)
  · rw [hcount', hcount, List.length_append]
    omega

theorem Writable.stores (h : Writable s q) {bs : List Byte} (hlen : 1 ≤ bs.length) (hmax : bs.length ≤ 64) :
    ∃ u, qPutBytes s q bs = (u, []) ∧ Stored s u q (nextCell s) bs := by
  obtain ⟨b, bs, rfl⟩ := List.exists_cons_of_length_pos hlen
  rw [List.length_cons] at hmax
  obtain ⟨t, hput, hwriting, hfirst⟩ := h.first b
  obtain ⟨u, hrest, hwritten⟩ := qPutBytes_writes bs hwriting (by change 1 + bs.length ≤ 64; omega)
  refine ⟨u, ?_, hfirst.goesOn hwritten⟩
  rw [qPutBytes, hput]
  exact hrest

/-! ### The packet closed (R398) -/

/-- What filling the last word up leaves alone: all but bytes of the pool from `off` on. -/
structure PaddedFrom (off : Nat) (s u : State) : Prop where
  rest : u = { s with qm.pool := u.qm.pool }
  below : ∀ a, a < off → SMap.get byteDflt u.qm.pool a = SMap.get byteDflt s.qm.pool a

theorem PaddedFrom.put {off a : Nat} (h : PaddedFrom off s t) (hgood : s.fa.badWords = []) (ha : off ≤ a) (b : Byte) :
    PaddedFrom off s (poolPut t a b) := by
  have htgood : t.fa.badWords = [] := by rw [h.rest]; exact hgood
  refine ⟨?_, fun i hi => by rw [poolPut_read, if_neg (by omega), h.below i hi]⟩
  rw [poolPut_good htgood, h.rest]

theorem padPkt_pads (hgood : s.fa.badWords = []) (hcells : p.cells = [c]) (hfits : p.len ≤ 64) :
    PaddedFrom (64 * c + p.len) s (padPkt s p) := by
  rw [padPkt, hcells]
  refine forN_keeps (PaddedFrom (64 * c + p.len) s) _ _ (fun i hi t ht => ht.put hgood ?_ 0) s ⟨rfl, fun _ _ => rfl⟩
  change 64 * c + p.len ≤ 64 * c + p.len % 64 + i
  omega

theorem PaddedFrom.qmOnly {off : Nat} (h : PaddedFrom off s u) : QueueMoves [] q s u := by
  rw [h.rest]
  exact (QueueMoves.refl [] q s).inQm _

theorem PaddedFrom.queueX {off : Nat} (h : PaddedFrom off s u) (i : Nat) : u.queueX i = s.queueX i := by
  rw [h.rest]
  rfl

theorem PaddedFrom.poolBytes {off n : Nat} (h : PaddedFrom (off + n) s u) : poolBytes u off n = poolBytes s off n :=
  List.map_congr_left fun i hi => h.below _ (by have := List.mem_range.mp hi; omega)

/-- Packet p closed without a mark. -/
def packetClosed (s : State) (q : Nat) (p : QPkt) : State :=
  ((padPkt s p).modQueue q fun x => { x with cur := none, pkts := x.pkts ++ [{ p with err := false }] }).bumpWrap F.QM_Q_PKTS 1 q

theorem qClose_closes (hskip : (s.queueX q).skip = false) (hcur : (s.queueX q).cur = some p) :
    qClose s q false = packetClosed s q p := by
  simp only [qClose, hskip, hcur, packetClosed, Bool.false_eq_true, if_false]

theorem queueX_packetClosed (hgood : s.fa.badWords = []) (hcells : p.cells = [c]) (hfits : p.len ≤ 64) (q : Nat) :
    (packetClosed s q p).queueX q = { s.queueX q with cur := none, pkts := (s.queueX q).pkts ++ [{ p with err := false }] } := by
  rw [packetClosed, State.queueX_bumpWrap, State.queueX_modQueue, (padPkt_pads hgood hcells hfits).queueX]

theorem packetClosed_moves (hgood : s.fa.badWords = []) (hcells : p.cells = [c]) (hfits : p.len ≤ 64) (q : Nat) :
    QueueMoves [F.QM_Q_PKTS] q s (packetClosed s q p) :=
  (((padPkt_pads hgood hcells hfits).qmOnly.mono (List.nil_subset _)).modQueue q _).put (List.mem_singleton.mpr rfl) _

theorem packetClosed_pkts (hgood : s.fa.badWords = []) (hcells : p.cells = [c]) (hfits : p.len ≤ 64) (q : Nat) :
    (packetClosed s q p).get F.QM_Q_PKTS q = (s.get F.QM_Q_PKTS q + 1) % 2 ^ 32 := by
  have hkept : (padPkt s p).get F.QM_Q_PKTS q = s.get F.QM_Q_PKTS q := (padPkt_pads hgood hcells hfits).qmOnly.get _ rfl
  rw [packetClosed, State.bumpWrap, State.get_put _ _ _ _ _ (by decide), State.modQueue_get, hkept]
  rfl

theorem pool_packetClosed (s : State) (q : Nat) (p : QPkt) : (packetClosed s q p).qm.pool = (padPkt s p).qm.pool := rfl

theorem packetClosed_bytes (hgood : s.fa.badWords = []) (hcells : p.cells = [c]) (hfits : p.len ≤ 64) (q : Nat) :
    poolBytes (packetClosed s q p) (64 * c) p.len = poolBytes s (64 * c) p.len := by
  rw [poolBytes_congr (pool_packetClosed s q p), (padPkt_pads hgood hcells hfits).poolBytes]

/-! ### QDMA's one packet (R423) -/

/-- Packet `bs` has gone from QDMA into queue q, all of it in cell c. -/
structure Sent (s u : State) (q c : Nat) (bs : List Byte) : Prop where
  moves : QueueMoves packetFields q s u
  queue : (u.queueX q).pkts = (s.queueX q).pkts ++ [{ cells := [c], len := bs.length }]
  pool : poolBytes u (64 * c) bs.length = bs
  count : u.get64 F.QM_Q_ENQ_BYTES_LO q = (s.get64 F.QM_Q_ENQ_BYTES_LO q + bs.length) % 2 ^ 64
  pkts : u.get F.QM_Q_PKTS q = (s.get F.QM_Q_PKTS q + 1) % 2 ^ 32

/-- What QDMA holds for queue q is none. -/
def qdmaEmptied (s : State) (q : Nat) : State := s.modQueue q fun x => { x with qdma := [] }

theorem Stored.closed {bs : List Byte} (h : Stored s t q c bs) (hgood : s.fa.badWords = []) (hmax : bs.length ≤ 64) :
    Sent s (qdmaEmptied (packetClosed t q { cells := [c], len := bs.length }) q) q c bs := by
  obtain ⟨hmoves, hx, hpool, hcount, hpkts⟩ := h
  have htgood : t.fa.badWords = [] := by rw [hmoves.fa, hgood]
  have hclosed := packetClosed_moves (p := { cells := [c], len := bs.length }) htgood rfl hmax q
  have hrecord := queueX_packetClosed (p := { cells := [c], len := bs.length }) htgood rfl hmax q
  have hbytes := packetClosed_bytes (p := { cells := [c], len := bs.length }) htgood rfl hmax q
  have hadded := packetClosed_pkts (p := { cells := [c], len := bs.length }) htgood rfl hmax q
  generalize packetClosed t q { cells := [c], len := bs.length } = v at hclosed hrecord hbytes hadded
  have hemptied : QueueMoves [] q v (qdmaEmptied v q) := (QueueMoves.refl [] q v).modQueue q _
  refine ⟨(hmoves.trans (hclosed.mono (by decide))).trans (hemptied.mono (List.nil_subset _)), ?_, ?_, ?_, ?_⟩
  · rw [qdmaEmptied, State.queueX_modQueue, hrecord, hx]
  · exact (poolBytes_congr (t := qdmaEmptied v q) (s := v) rfl _ _).trans (hbytes.trans hpool)
  · rw [hemptied.get64 _ rfl, hclosed.get64 _ (by decide), hcount]
  · rw [hemptied.get _ rfl, hadded, hpkts]

theorem qdmaPump_none (h : (s.queueX q).qdma = []) (n : Nat) : qdmaPump (n + 1) s q = s := by rw [qdmaPump, h]

theorem queueX_postResult (s : State) (j : JobKind) (st : Nat) (data : List Byte) (i : Nat) :
    (postResult s j st data).queueX i = s.queueX i := rfl

/-- A packet that QDMA alone holds, and that its queue takes whole. -/
theorem qdmaPump_sends (h : Writable s q) {j : JobKind} {bs : List Byte} (hlen : 1 ≤ bs.length) (hmax : bs.length ≤ 64)
    (hqdma : (s.queueX q).qdma = [(j, bs)]) (n : Nat) : ∃ u, Sent s u q (nextCell s) bs ∧
      qdmaPump (n + 2) s q = postResult u j St.ok [] := by
  obtain ⟨t, hput, hstored⟩ := h.stores hlen hmax
  have hclose := qClose_closes (s := t) (q := q) (p := { cells := [nextCell s], len := bs.length })
    (by rw [hstored.queue, h.skip]) (by rw [hstored.queue])
  refine ⟨_, hstored.closed h.good hmax, ?_⟩
  have hstep : qdmaPump (n + 2) s q = qdmaPump (n + 1) (postResult (qdmaEmptied (qClose t q false) q) j St.ok []) q := by
    rw [qdmaPump, hqdma]
    simp only [hput]
    rfl
  rw [hstep, hclose, qdmaPump_none]
  rw [queueX_postResult]
  exact congrArg QueueX.qdma (State.queueX_modQueue ..)

/-! ### QM_PKT_SEND into a queue that runs (R423) -/

theorem qCanTake_queuedBy (s : State) (k : Pkt) (q i : Nat) (j : JobKind) (bs : List Byte) :
    qCanTake (queuedBy (begun s 0x41 k) q j bs) i = qCanTake s i := by
  have hget (g : Field) (hg : 0x40000010 < g.base) (l : Nat) : (queuedBy (begun s 0x41 k) q j bs).get g l = s.get g l :=
    (State.modQueue_get ..).trans (begun_get_high s 0x41 k g l hg)
  have hcells (l : Nat) : qCells (queuedBy (begun s 0x41 k) q j bs) l = qCells s l := hget F.QM_Q_STAT_CELLS (by decide) l
  have hfree : qmFree (queuedBy (begun s 0x41 k) q j bs) = qmFree s := by simp only [qmFree, hcells]
  have hshared : qmShared (queuedBy (begun s 0x41 k) q j bs) = qmShared s := by
    simp only [qmShared, hcells, hfree, hget F.QM_Q_LIM_RES (by decide)]
  have hqueue : qFree (queuedBy (begun s 0x41 k) q j bs) i = qFree s i := by
    simp only [qFree, hcells, hshared, hget F.QM_Q_LIM_RES (by decide), hget F.QM_Q_LIM_MAX (by decide)]
  rw [qCanTake, hqueue, hfree, qCanTake]

theorem fa_queuedBy (s : State) (q : Nat) (j : JobKind) (bs : List Byte) : (queuedBy s q j bs).fa = s.fa := rfl

theorem differ_queuedBy (s : State) (q : Nat) (j : JobKind) (bs : List Byte) : (queuedBy s q j bs).qm.differ = s.qm.differ := rfl

theorem running_queuedBy (s : State) (q i : Nat) (j : JobKind) (bs : List Byte) : qRunning (queuedBy s q j bs) i = qRunning s i := rfl

theorem noJig_queuedBy {js : List Nat} (h : NoJig js s) (q : Nat) (j : JobKind) (bs : List Byte) : NoJig js (queuedBy s q j bs) := h

/-- The queue that QM_PKT_SEND writes into takes its packet as it stood before the command. -/
theorem Writable.queuedBy (h : Writable s q) (k : Pkt) (bs : List Byte) : Writable (queuedBy (begun s 0x41 k) q .chain bs) q := by
  obtain ⟨hrun, hskip, hcur, hroom, hjigs, hgood, hsame⟩ := h
  have hx := queueX_queuedBy (begun s 0x41 k) q .chain bs
  rw [queueX_begun] at hx
  have hfa : (begun s 0x41 k).fa = s.fa := by rw [begun_eq]
  exact ⟨by rw [running_queuedBy, running_begun, hrun], by rw [hx, hskip], by rw [hx, hcur], by rw [qCanTake_queuedBy, hroom],
    noJig_queuedBy (noJig_begun hjigs 0x41 k) q .chain bs, by rw [fa_queuedBy, hfa, hgood], by rw [differ_queuedBy, begun_qm, hsame]⟩

theorem nextCell_queuedBy (hwf : s.queuesWf) (k : Pkt) (q : Nat) (bs : List Byte) :
    nextCell (queuedBy (begun s 0x41 k) q .chain bs) = nextCell s := by
  have hqm := begun_qm s 0x41 k
  have hbegun : heldCells (begun s 0x41 k) = heldCells s := by rw [heldCells, hqm, heldCells]
  refine nextCell_congr ((heldCells_modQueue ?_ q _ rfl).trans hbegun)
  rwa [State.queuesWf, hqm]

theorem queuedBy_eq (s : State) (q : Nat) (j : JobKind) (bs : List Byte) :
    queuedBy s q j bs = { s with qm := (queuedBy s q j bs).qm } := rfl

theorem posted_rest {v w : State} {gs : List Field} {l : List (JobKind × Nat × List Byte)} (hv : v = { s with qm := v.qm })
    (hu : QueueMoves gs q v u) (hw : Posted l u w) :
    w = { s with regs := w.regs, mp := w.mp, qm := w.qm } ∧ w.mp.out = s.mp.out ∧ RegsKept (placesAt gs q) s w := by
  obtain ⟨hrest, hkept⟩ := hu
  have hregs : RegsKept (fs := placesAt gs q) u w := RegsKept.of_regs hw.regs
  have hbefore : RegsKept (fs := placesAt gs q) s v := RegsKept.of_regs (by rw [hv])
  have hmp : u.mp = s.mp := by rw [hrest, hv]
  refine ⟨?_, by rw [hw, hmp], hbefore.trans (hkept.trans hregs)⟩
  rw [hw, hrest, hv]

theorem postResult_posts (s : State) (j : JobKind) (st : Nat) (data : List Byte) :
    Posted (s.mp.ready ++ [(j, st, data)]) s (postResult s j st data) := rfl

theorem qmPktSend_sends {k : Pkt} {f : Nat} (h : TakesFw s k f) {q : Byte} (hq : q.toNat < 64) {bs : List Byte} (hlen : 1 ≤ bs.length)
    (hmax : bs.length ≤ 64) (hparams : k.params = q :: bs) (hkind : s.get F.QM_Q_CFG_PROD_KIND q.toNat = 3)
    (hwrite : Writable s q.toNat) (hqdma : (s.queueX q.toNat).qdma = []) (hwf : s.queuesWf) :
    Gives (.qmPktSend k (some f)) s fun t =>
      (t.queueX q.toNat).pkts = (s.queueX q.toNat).pkts ++ [{ cells := [nextCell s], len := bs.length }] ∧
      poolBytes t (64 * nextCell s) bs.length = bs ∧ t.mp.ready = [(.chain, St.ok, [])] ∧ t.mp.out = s.mp.out ∧
      t.get F.QM_Q_PKTS q.toNat = (s.get F.QM_Q_PKTS q.toNat + 1) % 2 ^ 32 ∧
      t.get64 F.QM_Q_ENQ_BYTES_LO q.toNat = (s.get64 F.QM_Q_ENQ_BYTES_LO q.toNat + bs.length) % 2 ^ 64 := by
  have hx := queueX_queuedBy (begun s 0x41 k) q.toNat .chain bs
  rw [queueX_begun] at hx
  obtain ⟨u, hsent, hpump⟩ := qdmaPump_sends (hwrite.queuedBy k bs) hlen hmax (by rw [hx, hqdma]; rfl) 6
  rw [nextCell_queuedBy hwf] at hsent
  have hbody := runBody_qmPktSend hq hparams hkind
  rw [hpump] at hbody
  have hposted := postResult_posts u .chain St.ok []
  have hheld := queuedBy_eq (begun s 0x41 k) q.toNat .chain bs
  have hget (g : Field) (hg : 0x40000010 < g.base) : (queuedBy (begun s 0x41 k) q.toNat .chain bs).get g q.toNat = s.get g q.toNat :=
    (State.modQueue_get ..).trans (begun_get_high s 0x41 k g _ hg)
  generalize postResult u .chain St.ok [] = w at hbody hposted
  generalize queuedBy (begun s 0x41 k) q.toNat .chain bs = v at hsent hx hheld hget
  obtain ⟨hmoves, hpkts, hpool, hcount, hadded⟩ := hsent
  obtain ⟨hrest, hout, hkept⟩ := posted_rest hheld hmoves hposted
  rw [hget _ (by decide)] at hadded
  rw [get64_congr (s := s) (hget F.QM_Q_ENQ_BYTES_LO (by decide)) (hget (highHalf F.QM_Q_ENQ_BYTES_LO) (by decide))] at hcount
  obtain ⟨t, hexec, ⟨-, hnone, -⟩, htq, htready, hshown, -⟩ := qm_waits (c := .qmPktSend k (some f)) h rfl (by decide) rfl rfl
    (hparams ▸ sendLength_ok q hlen hmax) hbody hrest hout hkept (places_high (by decide))
  have hqm : t.qm = u.qm := htq.trans (by rw [hposted])
  have hgets (g : Field) (hg : 0x40010000 < g.base) : t.get g q.toNat = u.get g q.toNat :=
    (get_waited hshown g hg).trans (hposted.get g _)
  refine ⟨t, hexec, ?_, ?_, ?_, hnone, ?_, ?_⟩
  · rw [queueX_congr hqm, hpkts, hx]
  · rw [poolBytes_congr (congrArg QmX.pool hqm), hpool]
  · obtain ⟨-, -, hmp, -⟩ := begun_kept s 0x41 k
    obtain ⟨-, -, -, hidle, -⟩ := h
    have hempty : u.mp.ready = [] := by rw [hmoves.mp, hheld, hmp, ← hidle]
    rw [htready, hposted.ready, hempty, List.nil_append]
  · rw [hgets _ (by decide), hadded]
  · rw [get64_congr (s := u) (hgets F.QM_Q_ENQ_BYTES_LO (by decide)) (hgets (highHalf F.QM_Q_ENQ_BYTES_LO) (by decide)), hcount]

end Sys2Proof.Machine
end

section
/-!
PROOFS. The queue opcodes: the statement on a state whose list of queues is in its canonical form, and the state on which it fails
(R402, R421–R423, R437, Table 11.3).
-/
namespace Sys2Proof.Machine

/-! ### The statement on one state -/

/-- What `Obligations.QueueOpcodes` says of one state and packet. -/
def QueueOpcodesAt (s : State) (k : Pkt) (f : Nat) : Prop :=
  (∀ q : Byte, q.toNat < 64 →
    (k.params = [q] →
      (s.get F.QM_Q_STAT_STATE q.toNat = 0 → Gives (.qmReset k (some f)) s fun t =>
        FwServed f [] s t k St.ok [0, 0, 0, 0] ∧ BusOnly s t) ∧
      (s.get F.QM_Q_STAT_STATE q.toNat = 1 → Gives (.qmReset k (some f)) s fun t =>
        FwWaits s t k ∧ t.get F.QM_Q_STAT_STATE q.toNat = 2 ∧
        t.queueX q.toNat = { s.queueX q.toNat with resetJobs := (s.queueX q.toNat).resetJobs ++ [.chain] } ∧
        t = { s with regs := t.regs, mp := t.mp, ch := t.ch, qm.queue := t.qm.queue } ∧
        RegsKept (bridgeFields ++ [F.QM_Q_STAT_STATE.at q.toNat]) s t) ∧
      (s.get F.QM_Q_CFG_CONS_KIND q.toNat = 3 →
        (s.get F.QM_Q_STAT_STATE q.toNat = 2 → Gives (.qmPktRecv k (some f)) s fun t =>
          FwServed f [] s t k St.queueReset [] ∧ BusOnly s t) ∧
        (s.get F.QM_Q_STAT_STATE q.toNat = 1 → (s.queueX q.toNat).pkts = [] → (s.queueX q.toNat).rd = none →
          Gives (.qmPktRecv k (some f)) s fun t => FwServed f [] s t k St.notPresent [] ∧ BusOnly s t) ∧
        (s.get F.QM_Q_STAT_STATE q.toNat = 1 → s.qm.rebuilding = true → (s.queueX q.toNat).pkts ≠ [] →
          Gives (.qmPktRecv k (some f)) s fun t => FwWaits s t k ∧
            t.queueX q.toNat = { s.queueX q.toNat with recvJobs := (s.queueX q.toNat).recvJobs ++ [.chain] }) ∧
        (∀ p ps c, OneCell s q.toNat p ps c → Gives (.qmPktRecv k (some f)) s fun t =>
          FwServed f (F.QM_Q_DEQ_BYTES_LO.words64 q.toNat ++ [F.QM_Q_PKTS.word q.toNat, F.QM_Q_STAT_CELLS.at q.toNat]) s t k St.ok
            (toLE 1 (b2n p.err) ++ toLE 2 p.len ++ poolBytes s (64 * c) p.len) ∧
          (t.queueX q.toNat).pkts = ps ∧ t.get F.QM_Q_PKTS q.toNat = s.get F.QM_Q_PKTS q.toNat - 1 ∧
          t.get F.QM_Q_STAT_CELLS q.toNat = s.get F.QM_Q_STAT_CELLS q.toNat - 1 ∧
          t = { s with regs := t.regs, mp := t.mp, ch := t.ch, qm := t.qm }))) ∧
    (∀ bs : List Byte, 1 ≤ bs.length → bs.length ≤ 64 → k.params = q :: bs → s.get F.QM_Q_CFG_PROD_KIND q.toNat = 3 →
      (qRunning s q.toNat = false → (∀ e ∈ (s.queueX q.toNat).qdma, e.2 ≠ []) → Gives (.qmPktSend k (some f)) s fun t =>
        FwWaits s t k ∧ t.queueX q.toNat = { s.queueX q.toNat with qdma := (s.queueX q.toNat).qdma ++ [(.chain, bs)] } ∧
        t = { s with regs := t.regs, mp := t.mp, ch := t.ch, qm.queue := t.qm.queue } ∧ RegsKept bridgeFields s t) ∧
      (qRunning s q.toNat = true → (s.queueX q.toNat).skip = false → (s.queueX q.toNat).cur = none → (s.queueX q.toNat).qdma = [] →
        qCanTake s q.toNat = true → NoJig [9, 10] s → s.fa.badWords = [] → s.qm.differ = [] → Gives (.qmPktSend k (some f)) s fun t =>
          (t.queueX q.toNat).pkts = (s.queueX q.toNat).pkts ++ [{ cells := [nextCell s], len := bs.length }] ∧
          poolBytes t (64 * nextCell s) bs.length = bs ∧ t.mp.ready = [(.chain, St.ok, [])] ∧ t.mp.out = s.mp.out ∧
          t.get F.QM_Q_PKTS q.toNat = (s.get F.QM_Q_PKTS q.toNat + 1) % 2 ^ 32 ∧
          t.get64 F.QM_Q_ENQ_BYTES_LO q.toNat = (s.get64 F.QM_Q_ENQ_BYTES_LO q.toNat + bs.length) % 2 ^ 64))) ∧
  (k.params = [] → NoJig [8, 9, 10] s → s.qm.differ = [] → Gives (.qmAudit k (some f)) s fun t =>
    FwServed f [] s t k St.ok (toLE 2 (poolCells - qmFree s) ++ toLE 2 (qmFree s) ++ [0]) ∧ BusOnly s t)

theorem queueOpcodes_iff : Obligations.QueueOpcodes ↔ ∀ s k f, TakesFw s k f → QueueOpcodesAt s k f := Iff.rfl

/-- Where no queue stands twice in the list of queues, the opcodes do what the statement says. -/
theorem queueOpcodesAt_of_queuesWf {s : State} {k : Pkt} {f : Nat} (h : TakesFw s k f) (hwf : s.queuesWf) : QueueOpcodesAt s k f :=
  ⟨fun _ hq => ⟨fun hparams => ⟨qmReset_off h hq hparams, qmReset_waits h hq hparams, fun hkind =>
      ⟨qmPktRecv_resetting h hq hparams hkind, qmPktRecv_notPresent h hq hparams hkind, qmPktRecv_waits h hq hparams hkind,
        fun _ _ _ => qmPktRecv_receives h hq hparams hkind⟩⟩,
    fun _ hlen hmax hparams hkind => ⟨qmPktSend_waits h hq hlen hmax hparams hkind,
      fun hrun hskip hcur hqdma hroom hjigs hgood hsame =>
        qmPktSend_sends h hq hlen hmax hparams hkind ⟨hrun, hskip, hcur, hroom, hjigs, hgood, hsame⟩ hqdma hwf⟩⟩,
    qmAudit_serves h⟩

/-! ### A queue listed twice -/

/-- The state after reset at address 6 with firmware ready, whose queue 5 runs for QDMA and stands twice in the list of queues: the
second entry, which nothing reads, holds a packet in cell 0. -/
def strayCell : State :=
  { (((((((State.reset.put F.CH_ADDR_ADDR 6).put F.CH_ADDR_ADDRESSED 1).put F.MP_STATUS_FW_READY 1).put F.QM_Q_CFG_PROD_KIND 3 5).put
      F.QM_Q_LIM_MAX 16 5).put F.QM_Q_STAT_STATE 1 5)) with
    bc.booted := true, cf.bootDone := true
    qm.queue := [(5, {}), (5, { pkts := [{ cells := [0], len := 1 }] })] }

/-- QM_PKT_SEND of the one byte 0xAA into queue 5. -/
def oneByteSend : Pkt := { addr := 6, tag := 0x21, params := [5, 0xAA], edge := 1000 }

theorem strayCell_takes : TakesFw strayCell oneByteSend 1200 := by
  unfold TakesFw Takes State.Awake
  decide +kernel

/-- The cells of queue 5's packets in the next state that a command answers, if it answers one. -/
def cellsNext (o : Host.Outcome State Fault Refusal) : Option (List Nat) :=
  match o with
  | .next t => some ((t.queueX 5).pkts.flatMap QPkt.cells)
  | _ => none

theorem strayCell_sent : cellsNext (exec (.qmPktSend oneByteSend (some 1200)) strayCell) = some [0] := by decide +kernel

theorem strayCell_next : nextCell strayCell = 1 := by decide +kernel

/-- Refutes O32: on `strayCell` the free cell taken next is cell 1, as the second entry of queue 5 holds cell 0; QM_PKT_SEND drops that
entry as it writes the first, and its packet goes into cell 0. Where no queue stands twice in the list the statement holds
(`queueOpcodesAt_of_queuesWf`). -/
theorem not_queueOpcodes : ¬ Obligations.QueueOpcodes := by
  intro h
  obtain ⟨hqueue, -⟩ := h strayCell oneByteSend 1200 strayCell_takes
  obtain ⟨-, hsend⟩ := hqueue 5 (by decide)
  obtain ⟨-, hruns⟩ := hsend [0xAA] (by decide) (by decide) rfl (by decide +kernel)
  obtain ⟨t, hexec, hpkts, -⟩ := hruns (by decide +kernel) (by decide +kernel) (by decide +kernel) (by decide +kernel)
    (by decide +kernel) (by unfold NoJig; decide +kernel) (by decide +kernel) (by decide +kernel)
  have hsent := strayCell_sent
  have hcells : (t.queueX 5).pkts.flatMap QPkt.cells = _ := congrArg (List.flatMap QPkt.cells) hpkts
  rw [hexec, cellsNext, hcells, strayCell_next] at hsent
  exact absurd hsent (by decide +kernel)

end Sys2Proof.Machine
end
